-- ==== Sys2Proof/Word.lean ====
section
/-! DEFINITION. The word types of the machine (R5, R13, R36). -/

namespace Sys2Proof

/-- A byte of memory. -/
abbrev Byte := BitVec 8

/-- A 32-bit element or control word (R36, R54). -/
abbrev W32 := BitVec 32

/-- A general register, special register or management register (R13, R14, R277). -/
abbrev W64 := BitVec 64

end Sys2Proof
end

