-- ==== Sys2Proof/Syntax.lean ====
section
/-! DEFINITION. The operations of the LH-PK4-A: one constructor per row of the opcode table. The first 183 are the
32-bit control words of R54 to R63, with their operand fields as the word holds them; the others are the machine's internal
steps, each whole and indivisible, whose arguments name the unit that takes the step and the data that comes from outside. -/

namespace Sys2Proof

/-- A context bank of the package: 4 × core + bank, the order of CTXC in R410. -/
abbrev CtxId := Nat

/-- A core of the package: 20y + x. -/
abbrev CoreId := Nat

/-- The guard of a control word (R54, R55): predicate index G and negate bit N. -/
structure Guard where
  idx : BitVec 3
  neg : BitVec 1
  deriving DecidableEq, Repr

/-- A producer of a stream inside one core: a cell's out or aux port, or a ring port (R110, R147). -/
inductive Source where
  | out (n : Nat)
  | aux (n : Nat)
  | port (p : Nat)
  deriving DecidableEq, Repr

/-- A consumer of a stream inside one core: a queue partition, a ring port, or a seam relay (R108, R417). -/
inductive Sink where
  | queue (n q : Nat)
  | port (p : Nat)
  | relay (seg : Nat)
  deriving DecidableEq, Repr

/-- An entry of a buffer that carries parity (R403, R406), by its place behind the head: of a cell's queue partition, of a ring port's store, or an
element of a packet in flight on a branch of a route, in the buffer of switch box k. -/
inductive Buf where
  | queue (n q i : Nat)
  | port (p i : Nat)
  | box (k seg br pkt i : Nat)
  deriving DecidableEq, Repr

/-- A stored word that can fail its SECDED check (R403): in a core's banks, in a context's instruction store, in the configuration store of its
current slot (by the unit whose entry it is), in the L2, in HBM, or in the entry of a chain id in a core's sink table. -/
inductive EccWord where
  | bank (core : CoreId) (addr : Nat)
  | text (c : CtxId) (off : Nat)
  | conf (c : CtxId) (unit : Nat)
  | l2 (pa : Nat)
  | hbm (pa : Nat)
  | sink (core : CoreId) (cid : Nat)
  deriving DecidableEq, Repr

/-- A firmware image as boot meets it (R438): its bytes, its version, and the public key and the signature that come with it. -/
structure FwImage where
  code : List (BitVec 8)
  ver : BitVec 16
  key : List (BitVec 8)
  sig : List (BitVec 8)
  deriving DecidableEq, Repr

/-- A message to function 0 over DOE (R437, R439): the requests of SPDM 1.3 that the capabilities of R437 name, by slot or measurement index where
they have one; the opening and the end of a session; IDE_KM key programming of a stream; every other message by its code and argument. -/
inductive SpdmReq where
  | capabilities
  | algorithms
  | digests
  | certificate (slot : Nat)
  | challenge (slot : Nat)
  | measurements (idx : Nat)
  | keyExchange (slot : Nat)
  | endSession
  | ideKeyProg (stream : Nat)
  | other (code arg : Nat)
  deriving DecidableEq, Repr

/-- What a peer's request asks for: a read, a write, an atomic of the AMD group by its place in R302's list from 0 SWAP to 9 CAS, or AFADD
(R302 to R304, R426). -/
inductive PeerOp where
  | read (len : Nat)
  | write (bytes : List (BitVec 8))
  | amo (op : Nat) (wide : Bool) (v x : BitVec 64)
  | afadd (v : BitVec 32) (out64 readout : Bool)
  deriving DecidableEq, Repr

/-- A request of a peer package (R426, R428): the node it is addressed to, its fabric tag, its target and what it asks. -/
structure PeerReq where
  node : Nat
  ftag : BitVec 16
  pa : Nat
  op : PeerOp
  deriving DecidableEq, Repr

/-- One constructor per row of the opcode table. -/
inductive Instr where
  /-- R71. Writes g[a] + g[b] modulo 2^64 into g[d]. -/
  | add (g : Guard) (d : BitVec 5) (a : BitVec 5) (b : BitVec 5)
  /-- R71. Writes g[a] - g[b] into g[d]. -/
  | sub (g : Guard) (d : BitVec 5) (a : BitVec 5) (b : BitVec 5)
  /-- R71. Writes the bitwise AND of g[a] and g[b] into g[d]. -/
  | and (g : Guard) (d : BitVec 5) (a : BitVec 5) (b : BitVec 5)
  /-- R71. Writes the bitwise OR of g[a] and g[b] into g[d]. -/
  | or (g : Guard) (d : BitVec 5) (a : BitVec 5) (b : BitVec 5)
  /-- R71. Writes the bitwise XOR of g[a] and g[b] into g[d]. -/
  | xor (g : Guard) (d : BitVec 5) (a : BitVec 5) (b : BitVec 5)
  /-- R71. Writes g[a] AND NOT g[b] into g[d]. -/
  | andn (g : Guard) (d : BitVec 5) (a : BitVec 5) (b : BitVec 5)
  /-- R71. Writes g[a] OR NOT g[b] into g[d]. -/
  | orn (g : Guard) (d : BitVec 5) (a : BitVec 5) (b : BitVec 5)
  /-- R71. Shifts g[a] left by g[b][5:0] into g[d]. -/
  | shl (g : Guard) (d : BitVec 5) (a : BitVec 5) (b : BitVec 5)
  /-- R71. Shifts g[a] right logically by g[b][5:0] into g[d]. -/
  | shr (g : Guard) (d : BitVec 5) (a : BitVec 5) (b : BitVec 5)
  /-- R71. Shifts g[a] right arithmetically by g[b][5:0] into g[d]. -/
  | sra (g : Guard) (d : BitVec 5) (a : BitVec 5) (b : BitVec 5)
  /-- R71. Rotates g[a] left by g[b][5:0] into g[d]. -/
  | rol (g : Guard) (d : BitVec 5) (a : BitVec 5) (b : BitVec 5)
  /-- R71. Rotates g[a] right by g[b][5:0] into g[d]. -/
  | ror (g : Guard) (d : BitVec 5) (a : BitVec 5) (b : BitVec 5)
  /-- R71. Writes the low 64 bits of g[a] times g[b] into g[d]. -/
  | mul (g : Guard) (d : BitVec 5) (a : BitVec 5) (b : BitVec 5)
  /-- R71. Writes the high 64 bits of the signed product into g[d]. -/
  | mulh (g : Guard) (d : BitVec 5) (a : BitVec 5) (b : BitVec 5)
  /-- R71. Writes the high 64 bits of the unsigned product into g[d]. -/
  | mulhu (g : Guard) (d : BitVec 5) (a : BitVec 5) (b : BitVec 5)
  /-- R72. Writes the signed quotient, with the special cases of Table 2, using the shared divider. -/
  | div (g : Guard) (d : BitVec 5) (a : BitVec 5) (b : BitVec 5)
  /-- R72. Writes the unsigned quotient, with the special cases of Table 2. -/
  | divu (g : Guard) (d : BitVec 5) (a : BitVec 5) (b : BitVec 5)
  /-- R72. Writes the signed remainder with the sign of g[a]. -/
  | rem (g : Guard) (d : BitVec 5) (a : BitVec 5) (b : BitVec 5)
  /-- R72. Writes the unsigned remainder. -/
  | remu (g : Guard) (d : BitVec 5) (a : BitVec 5) (b : BitVec 5)
  /-- R71. Writes the signed lesser of g[a] and g[b]. -/
  | min (g : Guard) (d : BitVec 5) (a : BitVec 5) (b : BitVec 5)
  /-- R71. Writes the signed greater of g[a] and g[b]. -/
  | max (g : Guard) (d : BitVec 5) (a : BitVec 5) (b : BitVec 5)
  /-- R71. Writes the unsigned lesser of g[a] and g[b]. -/
  | minu (g : Guard) (d : BitVec 5) (a : BitVec 5) (b : BitVec 5)
  /-- R71. Writes the unsigned greater of g[a] and g[b]. -/
  | maxu (g : Guard) (d : BitVec 5) (a : BitVec 5) (b : BitVec 5)
  /-- R71. Adds on 32 bits and sign-extends the result into g[d]. -/
  | addw (g : Guard) (d : BitVec 5) (a : BitVec 5) (b : BitVec 5)
  /-- R71. Subtracts on 32 bits and sign-extends the result into g[d]. -/
  | subw (g : Guard) (d : BitVec 5) (a : BitVec 5) (b : BitVec 5)
  /-- R71. Multiplies on 32 bits and sign-extends the result into g[d]. -/
  | mulw (g : Guard) (d : BitVec 5) (a : BitVec 5) (b : BitVec 5)
  /-- R71. Writes the count of leading zero bits of g[a]. -/
  | clz (g : Guard) (d : BitVec 5) (a : BitVec 5)
  /-- R71. Writes the count of trailing zero bits of g[a]. -/
  | ctz (g : Guard) (d : BitVec 5) (a : BitVec 5)
  /-- R71. Writes the count of one bits of g[a]. -/
  | popc (g : Guard) (d : BitVec 5) (a : BitVec 5)
  /-- R73. Writes g[a] plus the sign-extended immediate. -/
  | addi (g : Guard) (d : BitVec 5) (a : BitVec 5) (imm : BitVec 11)
  /-- R73. Writes g[a] AND the sign-extended immediate. -/
  | andi (g : Guard) (d : BitVec 5) (a : BitVec 5) (imm : BitVec 11)
  /-- R73. Writes g[a] OR the sign-extended immediate. -/
  | ori (g : Guard) (d : BitVec 5) (a : BitVec 5) (imm : BitVec 11)
  /-- R73. Writes g[a] XOR the sign-extended immediate. -/
  | xori (g : Guard) (d : BitVec 5) (a : BitVec 5) (imm : BitVec 11)
  /-- R73. Shifts g[a] left by an immediate count of 0 to 63. -/
  | shli (g : Guard) (d : BitVec 5) (a : BitVec 5) (s : BitVec 6)
  /-- R73. Shifts g[a] right logically by an immediate count. -/
  | shri (g : Guard) (d : BitVec 5) (a : BitVec 5) (s : BitVec 6)
  /-- R73. Shifts g[a] right arithmetically by an immediate count. -/
  | srai (g : Guard) (d : BitVec 5) (a : BitVec 5) (s : BitVec 6)
  /-- R73. Writes the low 64 bits of g[a] times the immediate. -/
  | muli (g : Guard) (d : BitVec 5) (a : BitVec 5) (imm : BitVec 11)
  /-- R73. Adds the immediate on 32 bits and sign-extends. -/
  | addwi (g : Guard) (d : BitVec 5) (a : BitVec 5) (imm : BitVec 11)
  /-- R74. Writes the sign-extended 16-bit immediate into g[d]. -/
  | movi (g : Guard) (d : BitVec 5) (imm : BitVec 16)
  /-- R74. Writes the zero-extended 16-bit immediate into g[d]. -/
  | movz (g : Guard) (d : BitVec 5) (imm : BitVec 16)
  /-- R74. Replaces bits [31:16] of g[d] with the immediate. -/
  | movk16 (g : Guard) (d : BitVec 5) (imm : BitVec 16)
  /-- R74. Replaces bits [47:32] of g[d] with the immediate. -/
  | movk32 (g : Guard) (d : BitVec 5) (imm : BitVec 16)
  /-- R74. Replaces bits [63:48] of g[d] with the immediate. -/
  | movk48 (g : Guard) (d : BitVec 5) (imm : BitVec 16)
  /-- R75. Reads a special register, zero-extended, into g[d]. -/
  | srrd (g : Guard) (d : BitVec 5) (sr : BitVec 4)
  /-- R75. Writes g[d] to a writable special register, or is ignored. -/
  | srwr (g : Guard) (d : BitVec 5) (sr : BitVec 4)
  /-- R76. Copies the arithmetic flag word into g[d] and clears it. -/
  | flgrd (g : Guard) (d : BitVec 5)
  /-- R81. Branches to the word-offset target. -/
  | br (g : Guard) (off : BitVec 21)
  /-- R81. Writes the return address to g31 and branches. -/
  | call (g : Guard) (off : BitVec 21)
  /-- R82. Jumps to g[a] plus a word offset and writes the return address to g[d]. -/
  | jalr (g : Guard) (d : BitVec 5) (a : BitVec 5) (imm : BitVec 11)
  /-- R83. Branches when g[a] equals g[b]. -/
  | beq (g : Guard) (a : BitVec 5) (b : BitVec 5) (off : BitVec 11)
  /-- R83. Branches when g[a] differs from g[b]. -/
  | bne (g : Guard) (a : BitVec 5) (b : BitVec 5) (off : BitVec 11)
  /-- R83. Branches when g[a] is signed less than g[b]. -/
  | blt (g : Guard) (a : BitVec 5) (b : BitVec 5) (off : BitVec 11)
  /-- R83. Branches when g[a] is signed greater or equal to g[b]. -/
  | bge (g : Guard) (a : BitVec 5) (b : BitVec 5) (off : BitVec 11)
  /-- R83. Branches when g[a] is unsigned less than g[b]. -/
  | bltu (g : Guard) (a : BitVec 5) (b : BitVec 5) (off : BitVec 11)
  /-- R83. Branches when g[a] is unsigned greater or equal to g[b]. -/
  | bgeu (g : Guard) (a : BitVec 5) (b : BitVec 5) (off : BitVec 11)
  /-- R77. Sets p[d] to g[a] == g[b]. -/
  | cmpEq (g : Guard) (d : BitVec 3) (a : BitVec 5) (b : BitVec 5)
  /-- R77. Sets p[d] to g[a] != g[b]. -/
  | cmpNe (g : Guard) (d : BitVec 3) (a : BitVec 5) (b : BitVec 5)
  /-- R77. Sets p[d] to the signed g[a] < g[b]. -/
  | cmpLt (g : Guard) (d : BitVec 3) (a : BitVec 5) (b : BitVec 5)
  /-- R77. Sets p[d] to the signed g[a] >= g[b]. -/
  | cmpGe (g : Guard) (d : BitVec 3) (a : BitVec 5) (b : BitVec 5)
  /-- R77. Sets p[d] to the unsigned g[a] < g[b]. -/
  | cmpLtu (g : Guard) (d : BitVec 3) (a : BitVec 5) (b : BitVec 5)
  /-- R77. Sets p[d] to the unsigned g[a] >= g[b]. -/
  | cmpGeu (g : Guard) (d : BitVec 3) (a : BitVec 5) (b : BitVec 5)
  /-- R77. Sets p[d] to (g[a] & g[b]) != 0. -/
  | cmpTst (g : Guard) (d : BitVec 3) (a : BitVec 5) (b : BitVec 5)
  /-- R78. Sets p[d] to g[a] equal to the immediate. -/
  | cmpiEq (g : Guard) (d : BitVec 3) (a : BitVec 5) (imm : BitVec 11)
  /-- R78. Sets p[d] to the signed g[a] less than the immediate. -/
  | cmpiLt (g : Guard) (d : BitVec 3) (a : BitVec 5) (imm : BitVec 11)
  /-- R78. Sets p[d] to the unsigned g[a] less than the sign-extended immediate. -/
  | cmpiLtu (g : Guard) (d : BitVec 3) (a : BitVec 5) (imm : BitVec 11)
  /-- R79. Sets p[d] to p[a] AND p[b]. -/
  | pand (g : Guard) (d : BitVec 3) (a : BitVec 3) (b : BitVec 3)
  /-- R79. Sets p[d] to p[a] OR p[b]. -/
  | por (g : Guard) (d : BitVec 3) (a : BitVec 3) (b : BitVec 3)
  /-- R79. Sets p[d] to p[a] XOR p[b]. -/
  | pxor (g : Guard) (d : BitVec 3) (a : BitVec 3) (b : BitVec 3)
  /-- R79. Sets p[d] to p[a] AND NOT p[b]. -/
  | pandn (g : Guard) (d : BitVec 3) (a : BitVec 3) (b : BitVec 3)
  /-- R79. Sets p[d] to NOT p[a]. -/
  | pnot (g : Guard) (d : BitVec 3) (a : BitVec 3)
  /-- R79. Copies p[a] into p[d]. -/
  | pmov (g : Guard) (d : BitVec 3) (a : BitVec 3)
  /-- R80. Writes the predicate vector into g[d]. -/
  | pget (g : Guard) (d : BitVec 5)
  /-- R80. Sets p1 to p7 from bits of g[a]. -/
  | pput (g : Guard) (a : BitVec 5)
  /-- R84. Issues a zero-extended byte scratchpad load, counted in CNT.LD. -/
  | ldb (g : Guard) (t : BitVec 5) (a : BitVec 5) (off : BitVec 11)
  /-- R84. Issues a sign-extended byte scratchpad load. -/
  | ldbs (g : Guard) (t : BitVec 5) (a : BitVec 5) (off : BitVec 11)
  /-- R84. Issues a zero-extended halfword scratchpad load. -/
  | ldh (g : Guard) (t : BitVec 5) (a : BitVec 5) (off : BitVec 11)
  /-- R84. Issues a sign-extended halfword scratchpad load. -/
  | ldhs (g : Guard) (t : BitVec 5) (a : BitVec 5) (off : BitVec 11)
  /-- R84. Issues a zero-extended word scratchpad load. -/
  | ldw (g : Guard) (t : BitVec 5) (a : BitVec 5) (off : BitVec 11)
  /-- R84. Issues a sign-extended word scratchpad load. -/
  | ldws (g : Guard) (t : BitVec 5) (a : BitVec 5) (off : BitVec 11)
  /-- R84. Issues a doubleword scratchpad load. -/
  | ldd (g : Guard) (t : BitVec 5) (a : BitVec 5) (off : BitVec 11)
  /-- R85. Issues a byte scratchpad store, counted in CNT.ST. -/
  | stb (g : Guard) (t : BitVec 5) (a : BitVec 5) (off : BitVec 11)
  /-- R85. Issues a halfword scratchpad store. -/
  | sth (g : Guard) (t : BitVec 5) (a : BitVec 5) (off : BitVec 11)
  /-- R85. Issues a word scratchpad store. -/
  | stw (g : Guard) (t : BitVec 5) (a : BitVec 5) (off : BitVec 11)
  /-- R85. Issues a doubleword scratchpad store. -/
  | std (g : Guard) (t : BitVec 5) (a : BitVec 5) (off : BitVec 11)
  /-- R86. Issues a 4-byte local atomic swap. -/
  | amoSwapW (g : Guard) (t : BitVec 5) (a : BitVec 5)
  /-- R86. Issues a 4-byte local atomic add. -/
  | amoAddW (g : Guard) (t : BitVec 5) (a : BitVec 5)
  /-- R86. Issues a 4-byte local atomic AND. -/
  | amoAndW (g : Guard) (t : BitVec 5) (a : BitVec 5)
  /-- R86. Issues a 4-byte local atomic OR. -/
  | amoOrW (g : Guard) (t : BitVec 5) (a : BitVec 5)
  /-- R86. Issues a 4-byte local atomic XOR. -/
  | amoXorW (g : Guard) (t : BitVec 5) (a : BitVec 5)
  /-- R86. Issues a 4-byte local atomic signed minimum. -/
  | amoMinW (g : Guard) (t : BitVec 5) (a : BitVec 5)
  /-- R86. Issues a 4-byte local atomic signed maximum. -/
  | amoMaxW (g : Guard) (t : BitVec 5) (a : BitVec 5)
  /-- R86. Issues a 4-byte local atomic unsigned minimum. -/
  | amoMinuW (g : Guard) (t : BitVec 5) (a : BitVec 5)
  /-- R86. Issues a 4-byte local atomic unsigned maximum. -/
  | amoMaxuW (g : Guard) (t : BitVec 5) (a : BitVec 5)
  /-- R87. Issues a 4-byte local compare-and-swap. -/
  | amoCasW (g : Guard) (t : BitVec 5) (a : BitVec 5)
  /-- R86. Issues an 8-byte local atomic swap. -/
  | amoSwapD (g : Guard) (t : BitVec 5) (a : BitVec 5)
  /-- R86. Issues an 8-byte local atomic add. -/
  | amoAddD (g : Guard) (t : BitVec 5) (a : BitVec 5)
  /-- R86. Issues an 8-byte local atomic AND. -/
  | amoAndD (g : Guard) (t : BitVec 5) (a : BitVec 5)
  /-- R86. Issues an 8-byte local atomic OR. -/
  | amoOrD (g : Guard) (t : BitVec 5) (a : BitVec 5)
  /-- R86. Issues an 8-byte local atomic XOR. -/
  | amoXorD (g : Guard) (t : BitVec 5) (a : BitVec 5)
  /-- R86. Issues an 8-byte local atomic signed minimum. -/
  | amoMinD (g : Guard) (t : BitVec 5) (a : BitVec 5)
  /-- R86. Issues an 8-byte local atomic signed maximum. -/
  | amoMaxD (g : Guard) (t : BitVec 5) (a : BitVec 5)
  /-- R86. Issues an 8-byte local atomic unsigned minimum. -/
  | amoMinuD (g : Guard) (t : BitVec 5) (a : BitVec 5)
  /-- R86. Issues an 8-byte local atomic unsigned maximum. -/
  | amoMaxuD (g : Guard) (t : BitVec 5) (a : BitVec 5)
  /-- R87. Issues an 8-byte local compare-and-swap using g[t+1] as the new value. -/
  | amoCasD (g : Guard) (t : BitVec 5) (a : BitVec 5)
  /-- R90. Checks a chain descriptor and hands a pass-unit chain to the pass unit. -/
  | vpass (g : Guard) (d : BitVec 5) (a : BitVec 5) (b : BitVec 5)
  /-- R90. Hands a repeated, strided pass-unit chain to the pass unit. -/
  | vpassr (g : Guard) (d : BitVec 5) (a : BitVec 5) (b : BitVec 5)
  /-- R88. Waits until any counter with a count other than 31 falls to its count. -/
  | wait (g : Guard) (ld : BitVec 5) (st : BitVec 5) (cp : BitVec 5) (tl : BitVec 5)
  /-- R88. Waits until every counter falls to its count. -/
  | waitAll (g : Guard) (ld : BitVec 5) (st : BitVec 5) (cp : BitVec 5) (tl : BitVec 5)
  /-- R89. Retires with no effect. -/
  | nop (g : Guard)
  /-- R32. Stops issue and waits for every counter to reach zero before the context stops. -/
  | endProg (g : Guard)
  /-- R31. Returns from a trap to TRAPA and clears ACTIVE. -/
  | tret (g : Guard)
  /-- R198. Requests a matrix-node shape grant, waiting or as a trial. -/
  | shapeReq (g : Guard) (d : BitVec 5) (f : BitVec 1)
  /-- R199. Releases the context's matrix-node grant once the node is idle for it. -/
  | shapeRel (g : Guard)
  /-- R190. Checks a configuration image and loads it into the next slot. -/
  | cfgLd (g : Guard) (d : BitVec 5) (a : BitVec 5) (imm : BitVec 11)
  /-- R190. Checks an image and lets the store writing overlap further work. -/
  | cfgPre (g : Guard) (d : BitVec 5) (a : BitVec 5) (imm : BitVec 11)
  /-- R191. Makes a collective start of a configuration id pending in the lease. -/
  | cfgGo (g : Guard) (d : BitVec 5) (id : BitVec 16)
  /-- R193. Waits until the current slot is not running and returns its end status. -/
  | cfgWait (g : Guard) (d : BitVec 5)
  /-- R194. Stops the running load of the lease at cycle e. -/
  | cfgStop (g : Guard)
  /-- R195. Empties the next or the current slot. -/
  | cfgDrop (g : Guard) (s : BitVec 1)
  /-- R200. Sends a parameter token to a tile or writes a tile record of the next slot. -/
  | parmWr (g : Guard) (tile : BitVec 4) (a : BitVec 5) (b : BitVec 5)
  /-- R196. Writes the slot status word into g[d]. -/
  | cfgStat (g : Guard) (d : BitVec 5)
  /-- R201. Writes one element into seq.out. -/
  | sqSend (g : Guard) (a : BitVec 5) (ty : BitVec 3)
  /-- R201. Writes two elements into seq.out. -/
  | sqSendX2 (g : Guard) (a : BitVec 5) (ty : BitVec 3)
  /-- R201. Closes an EOI marker on seq.out. -/
  | sqSendEoi (g : Guard)
  /-- R201. Closes an EOS marker on seq.out. -/
  | sqSendEos (g : Guard)
  /-- R202. Consumes the head of seq.in into g[d]. -/
  | sqRecv (g : Guard) (d : BitVec 5)
  /-- R203. Arrives at a lease-wide barrier with an id. -/
  | leaseBar (g : Guard) (id : BitVec 16)
  /-- R244. Opens an accumulate-network chain with its region at this sink. -/
  | achOpen (g : Guard) (d : BitVec 5) (a : BitVec 5) (b : BitVec 5)
  /-- R245. Binds a join slot to a position of a chain by a join request. -/
  | achJoin (g : Guard) (d : BitVec 5) (a : BitVec 5) (b : BitVec 5)
  /-- R246. Waits until a held chain is complete or aborted. -/
  | achWait (g : Guard) (d : BitVec 5) (cid : BitVec 4)
  /-- R246. Waits until a join slot has no outstanding block. -/
  | achWaitJ (g : Guard) (d : BitVec 5) (slot : BitVec 4)
  /-- R247. Frees the id of a complete chain. -/
  | achClose (g : Guard) (cid : BitVec 4)
  /-- R247. Unbinds a join slot once it holds no outstanding block. -/
  | achCloseJ (g : Guard) (slot : BitVec 4)
  /-- R248. Tears down a held chain, zeroing its region. -/
  | achAbort (g : Guard) (cid : BitVec 4)
  /-- R249. Writes the status word of a held chain. -/
  | achStat (g : Guard) (d : BitVec 5) (cid : BitVec 4)
  /-- R249. Writes the status word of a join slot. -/
  | achStatJ (g : Guard) (d : BitVec 5) (slot : BitVec 4)
  /-- R348. Submits a 64-byte packet locally or appends it to a device queue. -/
  | cqSub (g : Guard) (d : BitVec 5) (a : BitVec 5) (b : BitVec 5)
  /-- R349. Submits a one-receiver MCAST transfer notice locally. -/
  | cqKick (g : Guard) (a : BitVec 5) (b : BitVec 5)
  /-- R350. Adds indivisibly to a counter as a release and returns the old value. -/
  | cntAdd (g : Guard) (d : BitVec 5) (a : BitVec 5) (b : BitVec 5)
  /-- R306. Waits until a counter reaches a value, as an acquire. -/
  | cntWait (g : Guard) (d : BitVec 5) (a : BitVec 5) (b : BitVec 5)
  /-- R350. Reads a counter without acquiring. -/
  | cntRd (g : Guard) (d : BitVec 5) (a : BitVec 5)
  /-- R356. Arms a task control block at the walker by taking its snapshot. -/
  | taskArm (g : Guard) (d : BitVec 5)
  /-- R359. Kills a block and walks its successors. -/
  | taskKill (g : Guard) (d : BitVec 5)
  /-- R357. Writes the task status word of a block into g[d]. -/
  | taskStat (g : Guard) (d : BitVec 5)
  /-- R298. Changes the mode of a budget bank, setting a ring for FIFO mode. -/
  | bankMode (g : Guard) (d : BitVec 5) (a : BitVec 5) (rsz : BitVec 4) (mode : BitVec 2) (k : BitVec 5)
  /-- R300. Opens a residency handle for a virtual range. -/
  | resOpen (g : Guard) (d : BitVec 5) (a : BitVec 5) (b : BitVec 5)
  /-- R301. Sets the priority of a residency handle. -/
  | resPrio (g : Guard) (a : BitVec 5) (b : BitVec 5)
  /-- R301. Closes a residency handle. -/
  | resDrop (g : Guard) (a : BitVec 5)
  /-- R302. Performs a 4-byte swap at the home L2 slice. -/
  | amdSwapW (g : Guard) (d : BitVec 5) (a : BitVec 5) (b : BitVec 5)
  /-- R302. Performs a 4-byte add at the home slice. -/
  | amdAddW (g : Guard) (d : BitVec 5) (a : BitVec 5) (b : BitVec 5)
  /-- R302. Performs a 4-byte AND at the home slice. -/
  | amdAndW (g : Guard) (d : BitVec 5) (a : BitVec 5) (b : BitVec 5)
  /-- R302. Performs a 4-byte OR at the home slice. -/
  | amdOrW (g : Guard) (d : BitVec 5) (a : BitVec 5) (b : BitVec 5)
  /-- R302. Performs a 4-byte XOR at the home slice. -/
  | amdXorW (g : Guard) (d : BitVec 5) (a : BitVec 5) (b : BitVec 5)
  /-- R302. Performs a 4-byte signed minimum at the home slice. -/
  | amdMinW (g : Guard) (d : BitVec 5) (a : BitVec 5) (b : BitVec 5)
  /-- R302. Performs a 4-byte signed maximum at the home slice. -/
  | amdMaxW (g : Guard) (d : BitVec 5) (a : BitVec 5) (b : BitVec 5)
  /-- R302. Performs a 4-byte unsigned minimum at the home slice. -/
  | amdMinuW (g : Guard) (d : BitVec 5) (a : BitVec 5) (b : BitVec 5)
  /-- R302. Performs a 4-byte unsigned maximum at the home slice. -/
  | amdMaxuW (g : Guard) (d : BitVec 5) (a : BitVec 5) (b : BitVec 5)
  /-- R303. Performs a 4-byte compare-and-swap at the home slice. -/
  | amdCasW (g : Guard) (d : BitVec 5) (a : BitVec 5) (b : BitVec 5)
  /-- R302. Performs an 8-byte swap at the home slice. -/
  | amdSwapD (g : Guard) (d : BitVec 5) (a : BitVec 5) (b : BitVec 5)
  /-- R302. Performs an 8-byte add at the home slice. -/
  | amdAddD (g : Guard) (d : BitVec 5) (a : BitVec 5) (b : BitVec 5)
  /-- R302. Performs an 8-byte AND at the home slice. -/
  | amdAndD (g : Guard) (d : BitVec 5) (a : BitVec 5) (b : BitVec 5)
  /-- R302. Performs an 8-byte OR at the home slice. -/
  | amdOrD (g : Guard) (d : BitVec 5) (a : BitVec 5) (b : BitVec 5)
  /-- R302. Performs an 8-byte XOR at the home slice. -/
  | amdXorD (g : Guard) (d : BitVec 5) (a : BitVec 5) (b : BitVec 5)
  /-- R302. Performs an 8-byte signed minimum at the home slice. -/
  | amdMinD (g : Guard) (d : BitVec 5) (a : BitVec 5) (b : BitVec 5)
  /-- R302. Performs an 8-byte signed maximum at the home slice. -/
  | amdMaxD (g : Guard) (d : BitVec 5) (a : BitVec 5) (b : BitVec 5)
  /-- R302. Performs an 8-byte unsigned minimum at the home slice. -/
  | amdMinuD (g : Guard) (d : BitVec 5) (a : BitVec 5) (b : BitVec 5)
  /-- R302. Performs an 8-byte unsigned maximum at the home slice. -/
  | amdMaxuD (g : Guard) (d : BitVec 5) (a : BitVec 5) (b : BitVec 5)
  /-- R303. Performs an 8-byte compare-and-swap at the home slice. -/
  | amdCasD (g : Guard) (d : BitVec 5) (a : BitVec 5) (b : BitVec 5)
  /-- R304. Adds an FP32 value into an anchored record at the home slice, with optional read-out. -/
  | amdAfadd (g : Guard) (d : BitVec 5) (a : BitVec 5) (b : BitVec 5)
  /-- R305. Waits for the context's loads and stores, then drops the near cache for wide scopes. -/
  | fence (g : Guard) (scope : BitVec 3)
  /-- R308. Arrives at a device barrier, releasing it at the last arrival. -/
  | barArr (g : Guard) (d : BitVec 5) (a : BitVec 5)
  /-- R308. Waits past a barrier generation. -/
  | barWait (g : Guard) (d : BitVec 5) (a : BitVec 5) (b : BitVec 5)
  /-- R299. Returns the channel-queue head count H. -/
  | ringHead (g : Guard) (d : BitVec 5) (a : BitVec 5)
  /-- R299. Returns the channel-queue tail count T. -/
  | ringTail (g : Guard) (d : BitVec 5) (a : BitVec 5)
  /-- R299. Empties a channel queue and returns the number of elements held. -/
  | ringReset (g : Guard) (d : BitVec 5) (a : BitVec 5)
  /-- R310. Removes translations of one address in one ASID from every TLB. -/
  | tlbInva (g : Guard) (a : BitVec 5) (b : BitVec 5)
  /-- R310. Removes every translation of one ASID. -/
  | tlbInvs (g : Guard) (a : BitVec 5)
  /-- R310. Removes every translation of every ASID; system-only. -/
  | tlbInvall (g : Guard)
  /-- R422. Requests the hand-over of a stack to another die. -/
  | handStk (g : Guard) (a : BitVec 5) (b : BitVec 5)
  /-- R398. Raises SW_TRAP with a code. -/
  | trap (g : Guard) (code : BitVec 16)
  /-- R399. Skips the context for the rest of the issue round and marks it yielded for its turn. -/
  | yield (g : Guard)
  /-- R400. Reads a management register into g[d]. -/
  | mgr (g : Guard) (d : BitVec 5) (reg : BitVec 16)
  /-- R400. Writes g[d] to a management register as a release. -/
  | mgw (g : Guard) (d : BitVec 5) (reg : BitVec 16)
  /-- R30. Takes a trap at an instruction boundary, or stops the context when ACTIVE is set. -/
  | trapEntry (c : CtxId)
  /-- R18. A WAITING context's wait condition holds and it becomes READY in the next cycle. -/
  | waitSatisfied (c : CtxId)
  /-- R84. A scratchpad load completes, writes g[t] and decrements CNT.LD. -/
  | spadLoadComplete (c : CtxId) (i : Nat)
  /-- R85. A scratchpad store writes its bank and decrements CNT.ST. -/
  | spadStoreComplete (c : CtxId) (i : Nat)
  /-- R86. A local atomic performs its indivisible bank access and writes the old value. -/
  | amoComplete (c : CtxId) (i : Nat)
  /-- R72. The shared divider finishes a division and frees itself. -/
  | dividerComplete (core : CoreId)
  /-- R26. The pass unit starts an accepted chain once earlier stores have completed. -/
  | passChainStart (core : CoreId)
  /-- R98. A pass chain finishes, ORs in its flags and decrements CNT.TL. -/
  | passChainComplete (core : CoreId)
  /-- R32. An END's counters all reach zero and the context enters STOPPED or takes a covered fault. -/
  | endComplete (c : CtxId)
  /-- R107. A packet reaches a queue partition or ring port and is accepted, held or dropped. -/
  | packetArrive (c : CtxId) (seg : Nat) (br : Nat)
  /-- R112. An x4 packet delivering nothing to an x1 port sends a one-packet demand upstream. -/
  | laneSkipDemand (c : CtxId) (seg : Nat) (br : Nat)
  /-- R109. A consumer sends demand for credits freed in the previous cycle. -/
  | demandSend (c : CtxId) (k : Sink)
  /-- R110. A demand message reaches a producer and raises its demand count. -/
  | demandArrive (c : CtxId) (seg : Nat) (br : Nat)
  /-- R119. A non-empty packer closes a packet in a cycle its cell did not fire. -/
  | packerClose (c : CtxId) (p : Source)
  /-- R114. A cell passes a marker, running its marker action and resetting st. -/
  | cellMarkerPass (c : CtxId) (n : Nat)
  /-- R120. A held overflow token leaves on aux when aux demand arrives. -/
  | auxTokenSend (c : CtxId) (n : Nat)
  /-- R157. A firing of the integer ADD cell operation. -/
  | cellAdd (c : CtxId) (n : Nat)
  /-- R157. A firing of integer SUB. -/
  | cellSub (c : CtxId) (n : Nat)
  /-- R157. A firing of integer RSUB. -/
  | cellRsub (c : CtxId) (n : Nat)
  /-- R157. A firing of integer MUL. -/
  | cellMul (c : CtxId) (n : Nat)
  /-- R157. A firing of integer MULH. -/
  | cellMulh (c : CtxId) (n : Nat)
  /-- R157. A firing of integer MAD. -/
  | cellMad (c : CtxId) (n : Nat)
  /-- R157. A firing of saturating ADDS. -/
  | cellAdds (c : CtxId) (n : Nat)
  /-- R157. A firing of saturating SUBS. -/
  | cellSubs (c : CtxId) (n : Nat)
  /-- R157. A firing of integer MIN. -/
  | cellMin (c : CtxId) (n : Nat)
  /-- R157. A firing of integer MAX. -/
  | cellMax (c : CtxId) (n : Nat)
  /-- R157. A firing of integer MINU. -/
  | cellMinu (c : CtxId) (n : Nat)
  /-- R157. A firing of integer MAXU. -/
  | cellMaxu (c : CtxId) (n : Nat)
  /-- R157. A firing of integer ABS. -/
  | cellAbs (c : CtxId) (n : Nat)
  /-- R157. A firing of integer NEG. -/
  | cellNeg (c : CtxId) (n : Nat)
  /-- R157. A firing of integer AND. -/
  | cellAnd (c : CtxId) (n : Nat)
  /-- R157. A firing of integer OR. -/
  | cellOr (c : CtxId) (n : Nat)
  /-- R157. A firing of integer XOR. -/
  | cellXor (c : CtxId) (n : Nat)
  /-- R157. A firing of integer SHL. -/
  | cellShl (c : CtxId) (n : Nat)
  /-- R157. A firing of integer SHR. -/
  | cellShr (c : CtxId) (n : Nat)
  /-- R157. A firing of integer SRA. -/
  | cellSra (c : CtxId) (n : Nat)
  /-- R157. A firing of integer CLZ. -/
  | cellClz (c : CtxId) (n : Nat)
  /-- R157. A firing of integer POPC. -/
  | cellPopc (c : CtxId) (n : Nat)
  /-- R158. A firing of FADD. -/
  | cellFadd (c : CtxId) (n : Nat)
  /-- R158. A firing of FSUB. -/
  | cellFsub (c : CtxId) (n : Nat)
  /-- R158. A firing of FMUL. -/
  | cellFmul (c : CtxId) (n : Nat)
  /-- R158. A firing of fused FMA. -/
  | cellFma (c : CtxId) (n : Nat)
  /-- R158. A firing of fused FMS. -/
  | cellFms (c : CtxId) (n : Nat)
  /-- R158. A firing of FMIN. -/
  | cellFmin (c : CtxId) (n : Nat)
  /-- R158. A firing of FMAX. -/
  | cellFmax (c : CtxId) (n : Nat)
  /-- R158. A firing of FABS. -/
  | cellFabs (c : CtxId) (n : Nat)
  /-- R158. A firing of FNEG. -/
  | cellFneg (c : CtxId) (n : Nat)
  /-- R165. A firing of the scale-and-accumulate reduction SCACC. -/
  | cellScacc (c : CtxId) (n : Nat)
  /-- R182. A firing of the approximate reciprocal. -/
  | cellRcp (c : CtxId) (n : Nat)
  /-- R182. A firing of the approximate reciprocal square root. -/
  | cellRsq (c : CtxId) (n : Nat)
  /-- R182. A firing of the approximate EXP2. -/
  | cellExp2 (c : CtxId) (n : Nat)
  /-- R182. A firing of the approximate LOG2. -/
  | cellLog2 (c : CtxId) (n : Nat)
  /-- R159. A firing of integer CMP.EQ. -/
  | cellCmpEq (c : CtxId) (n : Nat)
  /-- R159. A firing of integer CMP.NE. -/
  | cellCmpNe (c : CtxId) (n : Nat)
  /-- R159. A firing of integer CMP.LT. -/
  | cellCmpLt (c : CtxId) (n : Nat)
  /-- R159. A firing of integer CMP.LE. -/
  | cellCmpLe (c : CtxId) (n : Nat)
  /-- R159. A firing of integer CMP.LTU. -/
  | cellCmpLtu (c : CtxId) (n : Nat)
  /-- R159. A firing of integer CMP.LEU. -/
  | cellCmpLeu (c : CtxId) (n : Nat)
  /-- R159. A firing of FCMP.EQ. -/
  | cellFcmpEq (c : CtxId) (n : Nat)
  /-- R159. A firing of FCMP.NE. -/
  | cellFcmpNe (c : CtxId) (n : Nat)
  /-- R159. A firing of FCMP.LT. -/
  | cellFcmpLt (c : CtxId) (n : Nat)
  /-- R159. A firing of FCMP.LE. -/
  | cellFcmpLe (c : CtxId) (n : Nat)
  /-- R159. A firing of FCMP.UN. -/
  | cellFcmpUn (c : CtxId) (n : Nat)
  /-- R160. A firing of SEL. -/
  | cellSel (c : CtxId) (n : Nat)
  /-- R161. A firing of predicate PAND. -/
  | cellPand (c : CtxId) (n : Nat)
  /-- R161. A firing of predicate POR. -/
  | cellPor (c : CtxId) (n : Nat)
  /-- R161. A firing of predicate PXOR. -/
  | cellPxor (c : CtxId) (n : Nat)
  /-- R161. A firing of predicate PNOT. -/
  | cellPnot (c : CtxId) (n : Nat)
  /-- R163. A firing of the conversion CVT. -/
  | cellCvt (c : CtxId) (n : Nat)
  /-- R164. A data firing of the RADD reduction. -/
  | cellRadd (c : CtxId) (n : Nat)
  /-- R164. A data firing of the RMIN reduction. -/
  | cellRmin (c : CtxId) (n : Nat)
  /-- R164. A data firing of the RMAX reduction. -/
  | cellRmax (c : CtxId) (n : Nat)
  /-- R164. A data firing of the RFADD reduction. -/
  | cellRfadd (c : CtxId) (n : Nat)
  /-- R164. A data firing of the RFMIN reduction. -/
  | cellRfmin (c : CtxId) (n : Nat)
  /-- R164. A data firing of the RFMAX reduction. -/
  | cellRfmax (c : CtxId) (n : Nat)
  /-- R166. A firing of MOV. -/
  | cellMov (c : CtxId) (n : Nat)
  /-- R167. A firing of MERGE. -/
  | cellMerge (c : CtxId) (n : Nat)
  /-- R168. A firing of SPLIT. -/
  | cellSplit (c : CtxId) (n : Nat)
  /-- R168. A firing of DUP. -/
  | cellDup (c : CtxId) (n : Nat)
  /-- R169. A firing of GATE. -/
  | cellGate (c : CtxId) (n : Nat)
  /-- R169. A firing of STEER. -/
  | cellSteer (c : CtxId) (n : Nat)
  /-- R170. A firing of SINK. -/
  | cellSink (c : CtxId) (n : Nat)
  /-- R171. A firing of CONST. -/
  | cellConst (c : CtxId) (n : Nat)
  /-- R172. A firing of MKINS. -/
  | cellMkins (c : CtxId) (n : Nat)
  /-- R173. A firing of the memory operator LD. -/
  | cellLd (c : CtxId) (n : Nat)
  /-- R173. A firing of the memory operator ST. -/
  | cellSt (c : CtxId) (n : Nat)
  /-- R173. A firing of the cell atomic AMO.ADD. -/
  | cellAmoAdd (c : CtxId) (n : Nat)
  /-- R173. A firing of the cell atomic AMO.MIN. -/
  | cellAmoMin (c : CtxId) (n : Nat)
  /-- R173. A firing of the cell atomic AMO.MAX. -/
  | cellAmoMax (c : CtxId) (n : Nat)
  /-- R173. A firing of the cell atomic AMO.SWAP. -/
  | cellAmoSwap (c : CtxId) (n : Nat)
  /-- R174. A firing of the anchored add AMO.AFADD. -/
  | cellAmoAfadd (c : CtxId) (n : Nat)
  /-- R177. A firing of ORDJ joining two ordering tokens. -/
  | cellOrdj (c : CtxId) (n : Nat)
  /-- R179. A firing of SPAWN sending one configuration request. -/
  | cellSpawn (c : CtxId) (n : Nat)
  /-- R179. A SPAWN reply reaches its cell, emitting a lease id or NOPLACE. -/
  | spawnReply (c : CtxId) (n : Nat)
  /-- R180. A firing of CPY that forms and submits a copy packet. -/
  | cellCpy (c : CtxId) (n : Nat)
  /-- R181. A firing of ACPUT that places contributions in the ACN port. -/
  | cellAcput (c : CtxId) (n : Nat)
  /-- R175. A cell memory access is granted its bank and takes effect, emitting its ordering token. -/
  | memAccessEffect (c : CtxId) (n : Nat)
  /-- R127. A tile consumes its start token, applies pending parameters and starts. -/
  | agTileStart (c : CtxId) (n : Nat)
  /-- R126. A read-mode tile closes a packet of elements under demand. -/
  | agReadEmit (c : CtxId) (n : Nat)
  /-- R126. A write-mode tile consumes and writes elements. -/
  | agWriteConsume (c : CtxId) (n : Nat)
  /-- R126. A gather tile reads the element named by an index. -/
  | agGather (c : CtxId) (n : Nat)
  /-- R127. A tile ends, closes EOI or EOS and adds its done token. -/
  | agTileEnd (c : CtxId) (n : Nat)
  /-- R286. Data for a decoupled tile returns from device memory. -/
  | dmReadReturn (c : CtxId) (n : Nat)
  /-- R263. A queue tile pushes an element into the bank part or the ring. -/
  | queuePush (c : CtxId) (n : Nat)
  /-- R262. A pop tile takes the head of the bank part. -/
  | queuePop (c : CtxId) (n : Nat)
  /-- R263. The spill path writes a 64-byte block into the ring. -/
  | spillWrite (c : CtxId) (k : Nat)
  /-- R263. Sixteen free slots let the refill move elements from the ring to the bank part. -/
  | ringRefill (c : CtxId) (k : Nat)
  /-- R131. A fabric load starts on every core of the lease after the collective count. -/
  | loadStart (lid : Nat)
  /-- R134. A fabric load ends on a core once every unit has passed EOS and nothing is in flight. -/
  | loadEnd (c : CtxId)
  /-- R192. The load quantum expires and the load is stopped where it has not ended. -/
  | quantumExpire (lid : Nat)
  /-- R194. At cycle e the stopped load's cells, tiles and queues are discarded on each core. -/
  | loadStop (lid : Nat)
  /-- R133. A context stopping or destroyed breaks its lease. -/
  | leaseBreak (lid : Nat)
  /-- R133. Waiting collectives of a broken lease raise GO_MISMATCH. -/
  | collectiveAbandon (lid : Nat)
  /-- R203. A lease barrier releases every context after its count. -/
  | leaseBarRelease (lid : Nat)
  /-- R190. The stores of the next slot are written and CFG.LD retires. -/
  | cfgLdComplete (c : CtxId)
  /-- R190. A CFG.PRE finishes writing its stores, the slot becomes READY and CNT.TL falls. -/
  | cfgPreComplete (c : CtxId)
  /-- R136. A double-bit error in a configuration store entry raises ECC_UNCORR at its unit. -/
  | configStoreEcc (c : CtxId) (unit : Nat)
  /-- R198. A waiting shape request is granted a run of column groups. -/
  | shapeGrant (core : CoreId)
  /-- R199. The node holds no token of the context and the grant is freed. -/
  | shapeReleaseDone (c : CtxId)
  /-- R214. The matrix node accepts an MM command. -/
  | mnMm (c : CtxId)
  /-- R216. The matrix node accepts an MV command. -/
  | mnMv (c : CtxId)
  /-- R215. The matrix node accepts a GATHER-A command. -/
  | mnGatherA (c : CtxId)
  /-- R217. The matrix node accepts a TLOAD command. -/
  | mnTload (c : CtxId)
  /-- R218. The matrix node accepts a ZERO command. -/
  | mnZero (c : CtxId)
  /-- R219. The matrix node accepts a DRAIN command. -/
  | mnDrain (c : CtxId)
  /-- R220. The matrix node accepts an ACSEND command. -/
  | mnAcsend (c : CtxId)
  /-- R221. An accepted command starts in its pipe once its dependences are met. -/
  | mnCommandStart (c : CtxId) (i : Nat)
  /-- R222. A command completes and closes its status token if requested. -/
  | mnCommandComplete (c : CtxId) (i : Nat)
  /-- R206. EOS on mn.ctl is consumed and EOS is closed on mn.drain and mn.aux. -/
  | mnCtlEos (c : CtxId)
  /-- R234. A closed block is checked and sent on lane 0 using a credit. -/
  | acnBlockSend (c : CtxId) (slot : Nat)
  /-- R237. A data packet reaches the sink and is staged, discarded or refused. -/
  | acnBlockArrive (i : Nat)
  /-- R239. The sink adder adds one block and returns its credit. -/
  | acnBlockAdd (core : CoreId) (cid : Nat)
  /-- R234. A credit return reaches a contributor slot. -/
  | acnCreditReturn (i : Nat)
  /-- R245. A join request reaches the sink, which replies. -/
  | acnJoinRequest (i : Nat)
  /-- R245. A join reply reaches the contributor and binds the slot or faults. -/
  | acnJoinReply (i : Nat)
  /-- R240. Finalisation reads out the sums and zero-fills the region after the last addition. -/
  | acnFinalise (core : CoreId) (cid : Nat)
  /-- R240. The region unlocks, the chain completes, the counter is added and a token closes. -/
  | chainComplete (core : CoreId) (cid : Nat)
  /-- R240. acn.done closes EOS when no chain is open and no token waits. -/
  | acnDoneEos (c : CtxId)
  /-- R248. An abort notice reaches a joined slot, which refuses further sends. -/
  | acnAbortNotice (i : Nat)
  /-- R251. A refusal reaches the sending unit and raises ACN_SINK_ABSENT. -/
  | acnRefusal (i : Nat)
  /-- R258. A bank's zeroing after a mode change ends. -/
  | bankZeroDone (core : CoreId) (bank : Nat)
  /-- R269. An L2 slice converts its ways after an L2REMW write. -/
  | l2WayConvert (die : Nat) (slice : Nat)
  /-- R266. A read is looked up at its remote ways or home slice and filled. -/
  | homeSliceRead (i : Nat)
  /-- R267. A write or atomic is performed at the home slice after invalidating remote copies. -/
  | homeSliceWrite (i : Nat)
  /-- R271. A fill chooses a victim and may demote a residency handle. -/
  | l2Fill (die : Nat) (pa : Nat) (handle : Nat)
  /-- R282. An HBM channel checks the tenant table and serves or refuses a request. -/
  | channelRequest (i : Nat)
  /-- R281. A stack cache-layer miss allocates a block and may demote a handle. -/
  | cacheLayerFill (die : Nat) (pa : Nat) (handle : Nat)
  /-- R275. A mesh output port grants one head flit per cycle. -/
  | meshArbitration (core : CoreId) (port : Nat)
  /-- R405. A flit or beat failing its CRC is resent, or the link is lasting-failed. -/
  | flitCrcRetry (core : CoreId) (side : Nat) (acn : Bool) (good : Bool)
  /-- R289. A die's walker translates a virtual address through the page tables. -/
  | pageWalk (die : Nat) (asid : Nat) (va : Nat)
  /-- R292. A requester finding the replay queue full walks again after 64 cycles. -/
  | replayRetry (die : Nat) (i : Nat)
  /-- R292. A release event re-walks parked requesters of a page in queue order. -/
  | replayRelease (die : Nat) (asid : Nat) (va : Nat)
  /-- R306. A write to a waited counter line wakes CNT.WAIT to compare again. -/
  | counterReread (c : CtxId)
  /-- R308. A barrier release reaches a registered waiter, completing BAR.WAIT. -/
  | barrierReleaseMsg (c : CtxId)
  /-- R328. The copy engine takes one packet from its sources in rotation and checks it. -/
  | cePacketIntake (core : CoreId)
  /-- R329. A packet in progress starts, after earlier packets when FEN is set. -/
  | cePacketStart (core : CoreId) (i : Nat)
  /-- R336. Executes a COPY packet. -/
  | ceCopy (core : CoreId) (i : Nat)
  /-- R336. Executes a COPY2D packet. -/
  | ceCopy2d (core : CoreId) (i : Nat)
  /-- R336. Executes a COPY4D packet. -/
  | ceCopy4d (core : CoreId) (i : Nat)
  /-- R336. Executes a FILL packet. -/
  | ceFill (core : CoreId) (i : Nat)
  /-- R337. Executes a GATHER packet. -/
  | ceGather (core : CoreId) (i : Nat)
  /-- R337. Executes a SCATTER packet. -/
  | ceScatter (core : CoreId) (i : Nat)
  /-- R338. Sends transfer notices to receivers in a rectangle. -/
  | ceMcast (core : CoreId) (i : Nat)
  /-- R334. Executes a CADD packet adding AMT at CA. -/
  | ceCadd (core : CoreId) (i : Nat)
  /-- R356. Executes a TASKARM packet arming a block. -/
  | ceTaskarm (core : CoreId) (i : Nat)
  /-- R340. Executes a LAUNCH packet through the distributor. -/
  | ceLaunch (core : CoreId) (i : Nat)
  /-- R434. Executes a SIGNAL packet writing a type-9 event record. -/
  | ceSignal (core : CoreId) (i : Nat)
  /-- R342. A posted receive matches a kick notice and copies from the sender. -/
  | cePull (core : CoreId) (i : Nat)
  /-- R330. A packet's accesses take effect and its release, counter add, token and report follow. -/
  | cePacketComplete (core : CoreId) (i : Nat)
  /-- R330. ce.done closes EOS once every submitted packet has its token. -/
  | ceDoneEos (c : CtxId)
  /-- R338. A transfer notice reaches a receiver's kick FIFO or is returned or refused. -/
  | kickNoticeArrive (i : Nat)
  /-- R338. A returned notice is sent again 64 cycles later. -/
  | kickNoticeResend (i : Nat)
  /-- R342. A pull acknowledgement reaches the sender. -/
  | pullAck (i : Nat)
  /-- R344. The serving engine takes a ready slot and advances RDIDX. -/
  | queueSlotTake (q : Nat)
  /-- R345. A queue stops in ERROR or is held stopped after an invalid or faulted packet. -/
  | queueError (q : Nat)
  /-- R345. A write of STATE 0 restarts a stopped queue at RDIDX. -/
  | queueRestart (q : Nat)
  /-- R354. The walker takes a completion report and decrements successors. -/
  | taskCompletionReport (i : Nat)
  /-- R358. The walker takes a fault report and marks the block FAULTED. -/
  | taskFaultReport (i : Nat)
  /-- R355. The walker pushes a READY block into its ready queue. -/
  | taskPush (i : Nat)
  /-- R368. The distributor picks an eligible launch head and sends it to Ostler. -/
  | distributorSelect
  /-- R340. A launch's dependence counter reaches its target. -/
  | launchDependenceMet (q : Nat)
  /-- R372. Ostler places a request in the first fitting rectangle or reports NOPLACE. -/
  | ostlerPlacement
  /-- R374. Ostler places a SPAWN request from the spawn table. -/
  | spawnPlace
  /-- R412. A context that ended is released to EMPTY in the next cycle. -/
  | contextRelease (c : CtxId)
  /-- R340. Every context of a launched lease is stopped and released, and the launch completes. -/
  | launchComplete (lid : Nat)
  /-- R411. A launch meets a fault reading text or data and frees its lease. -/
  | launchFault (lid : Nat)
  /-- R375. A lease's scheduler turn ends and the next quantum lease is ungated. -/
  | schedulerTurnEnd (lid : Nat)
  /-- R376. Ostler visits live leases and relocates them toward the origin. -/
  | compaction
  /-- R377. Ostler gates, drains, quiesces, copies, re-binds and ungates a lease. -/
  | relocation (lid : Nat)
  /-- R378. A core pair's copy starts once its destination has room. -/
  | relocationPairCopy (lid : Nat) (k : Nat)
  /-- R377. A drain or quiesce step passes its bound and the relocation is abandoned. -/
  | relocationAbandon (lid : Nat)
  /-- R393. A gate request reaches a context, which is GATED at an instruction boundary. -/
  | contextGated (c : CtxId)
  /-- R391. A CTXC write with CMD 1 gates a context with the system source. -/
  | ctxcGate (c : CtxId)
  /-- R391. A CTXC write with CMD 2 removes the system gate source. -/
  | ctxcUngate (c : CtxId)
  /-- R394. A CTXC write with CMD 3 destroys a context. -/
  | ctxcDestroy (c : CtxId)
  /-- R410. A CTXC write with CMD 4 releases a STOPPED context to EMPTY. -/
  | ctxcRelease (c : CtxId)
  /-- R395. An OSTEV write with OP 1 evicts a live lease to the save area. -/
  | ostevEvict (lid : Nat)
  /-- R395. An OSTEV write with OP 2 restores an evicted lease. -/
  | ostevRestore (lid : Nat)
  /-- R376. A write of 1 to OSTCMD starts a compaction. -/
  | ostcmdGo
  /-- R396. A write of 1 to TRST resets a tenant's partition. -/
  | trstGo (t : Nat)
  /-- R283. A TTAB write holds, writes back and switches a stack's tenant table. -/
  | ttabWrite (stack : Nat) (h : Nat) (v : BitVec 64)
  /-- R294. Any write to TLOG clears it. -/
  | tlogWrite (stack : Nat)
  /-- R387. Any write to FWLOG clears it. -/
  | fwlogWrite
  /-- R410. Any write to EVLOST clears it. -/
  | evlostWrite
  /-- R407. Writing 0 to a WDR bit returns a withdrawn core to the pool. -/
  | wdrWrite (y : Nat) (v : BitVec 64)
  /-- R269. A write to L2REMW starts the conversion of the die's slices. -/
  | l2remwWrite (die : Nat) (v : BitVec 64)
  /-- R364. An ASIDO write may make an ASID unusable and stop queues naming it. -/
  | asidoWrite (a : Nat) (v : BitVec 64)
  /-- R367. A LQCFG write binds or unbinds a launch queue. -/
  | lqcfgWrite (q : Nat) (v : BitVec 64)
  /-- R346. A CEQn write with EN 1 binds a queue to a copy engine. -/
  | ceqWrite (core : CoreId) (n : Nat) (v : BitVec 64)
  /-- R444. A write to MLOGT frees log slots and resumes stalled intake. -/
  | mlogtWrite (t : Nat) (v : BitVec 64)
  /-- R277. A write to a management register with no behaviour of its own. -/
  | registerWrite (n : Nat) (v : BitVec 64)
  /-- R384. Every 10 us the controller shares energy, updates counters and adjusts duties. -/
  | powerInterval (core hbm : Nat) (peak : List Nat)
  /-- R385. The core-rail current would pass 20,000 A and CLK is lowered. -/
  | clkLower (mhz : Nat)
  /-- R385. The current falls below the limit and CLK is restored. -/
  | clkRestore
  /-- R406. A parity error in a cell queue or buffer stops the load and raises HW_ERROR. -/
  | queueParityError (c : CtxId) (buf : Buf) (lasting : Bool)
  /-- R404. A double-bit error is re-read and tested in place. -/
  | eccDoubleRetry (w : EccWord) (clean : Bool) (lasting : Bool)
  /-- R423. The hub freezes, writes back and switches a stack to its new owner. -/
  | stackHandOver (stack : Nat)
  /-- R419. A UCIe module fails its retry twice and is taken out of service. -/
  | ucieModuleFail (seam : Nat)
  /-- R425. A Jexlink port trains and agrees link keys. -/
  | jexlinkTrain (port : Nat)
  /-- R425. A link's keys are renewed after 2^32 flits. -/
  | jexlinkKeyRenew (port : Nat)
  /-- R425. A Jexlink link fails its retry twice and is lasting-failed. -/
  | jexlinkLinkFail (port : Nat)
  /-- R426. A peer request arrives and is forwarded or checked and served. -/
  | jexlinkRequest (q : PeerReq)
  /-- R427. A remote store acknowledgement returns and RSO falls. -/
  | remoteStoreAck (i : Nat)
  /-- R427. A remote store unacknowledged for 1,048,576 cycles counts as lost. -/
  | remoteStoreLost (i : Nat)
  /-- R446. A remote read unanswered for 1,048,576 cycles fails its pull. -/
  | remoteReadTimeout (core : CoreId) (i : Nat)
  /-- R432. A host read through BAR2 reaches a tenant virtual address. -/
  | apertureRead (f : Nat) (off : Nat) (len : Nat) (tbit : Option Nat)
  /-- R432. A posted host write through BAR2 takes effect at its home slice. -/
  | apertureWrite (f : Nat) (off : Nat) (bytes : List (BitVec 8)) (tbit : Option Nat)
  /-- R432. A host FetchAdd AtomicOp performed as AMD.ADD.D. -/
  | apertureFetchadd (f : Nat) (off : Nat) (v : BitVec 64) (tbit : Option Nat)
  /-- R432. A host Swap AtomicOp performed as AMD.SWAP.D. -/
  | apertureSwap (f : Nat) (off : Nat) (v : BitVec 64) (tbit : Option Nat)
  /-- R432. A host CAS AtomicOp performed as AMD.CAS.D. -/
  | apertureCas (f : Nat) (off : Nat) (expect : BitVec 64) (v : BitVec 64) (tbit : Option Nat)
  /-- R431. A host access to BAR0 acts as MGR or MGW by tenant 0. -/
  | bar0RegisterAccess (f : Nat) (off : Nat) (wr : Option (BitVec 64)) (tbit : Option Nat)
  /-- R433. A vector's coalescing count or timer sends an MSI-X write. -/
  | msixInterrupt (f : Nat) (vec : Nat)
  /-- R435. The host clears VF Enable and every live tenant is torn down. -/
  | vfEnableClear
  /-- R437. An SPDM message over DOE is answered for attestation or key exchange. -/
  | spdmRequest (q : SpdmReq) (data : List (BitVec 8))
  /-- R440. Locks a TDISP interface and captures its frozen set. -/
  | lockInterfaceRequest (t : Nat) (stream : Nat)
  /-- R440. Moves a locked TDISP interface to RUN. -/
  | startInterfaceRequest (t : Nat)
  /-- R440. Returns an interface to CONFIG_UNLOCKED, resetting the tenant and renewing keys. -/
  | stopInterfaceRequest (t : Nat)
  /-- R442. Returns the TDISP interface report. -/
  | getDeviceInterfaceReport (t : Nat)
  /-- R455. An interface enters ERROR, gating its tenant and writing a type-12 record. -/
  | tdispError (t : Nat) (cause : Nat) (whereAt : Nat)
  /-- R440. A Function Level Reset of a VF puts its locked interface into ERROR. -/
  | functionLevelReset (f : Nat)
  /-- R440. An IDE stream fault puts its bound interface into ERROR. -/
  | ideStreamFault (stream : Nat)
  /-- R459. A die passes 115 degrees C and writes a type-13 event. -/
  | thermalEvent (die : Nat) (temp : Nat)
  /-- R459. A die passes 125 degrees C and the package removes its power. -/
  | thermalTrip (die : Nat) (temp : Nat)
  /-- R460. Fundamental reset, power-on or FLR of function 0 resets registers and starts boot. -/
  | deviceReset
  /-- R460. A boot stage ends and the next begins, or boot fails. -/
  | bootStageComplete (imgs : List FwImage) (trained : Bool)
  /-- R302. The response or acknowledgement to a context's device-scope request (AMD, BAR.ARR, CNT.ADD, CNT.RD, TASK.STAT, queue-form CQ.SUB slot writes) arrives, writes g[d] where written and decrements CNT.LD or CNT.ST. -/
  | deviceResponse (i : Nat)
  /-- R340. The distributor finishes writing a placed lease's text and data into every context, and the contexts start under R33. -/
  | launchImagePlaced (lid : Nat)
  /-- R436. The host sets VF Enable, and the key engine generates a key pair for each newly enabled tenant. -/
  | vfEnableSet (t : Nat)
  /-- R441. The host writes a VF's PCIe configuration space; a change to the frozen set puts a locked or running interface into ERROR with cause 2. -/
  | configSpaceWrite (t : Nat) (off : Nat) (v : BitVec 8)
  /-- R433. The host unmasks an MSI-X vector whose Pending Bit is set, and the interrupt is sent. -/
  | msixVectorUnmask (f : Nat) (vec : Nat)
  /-- R410. Power is lost, every state is lost, and the management store returns to its reset values. -/
  | powerLoss
  /-- R459. A die's temperature falls below 110 degrees C, and its next passage above 115 degrees C writes a type-13 event again. -/
  | thermalRearm (die : Nat) (temp : Nat)
  deriving DecidableEq, Repr

end Sys2Proof
end

