-- ==== Sys2Proof/WellFormed.lean ====
section
/-! DEFINITION. Which terms of `Instr` are operations at all: a control word carries no reserved guard and every field lies in the
limits its reference states (R55, R58, R87, R295, R303); a step names a core, context, cell, tile, stack or die that exists (R1). -/

namespace Sys2Proof

/-- R55: G = 0 with N = 1 is the reserved guard. -/
def Guard.ok (g : Guard) : Bool := !(g.idx == 0#3 && g.neg == 1#1)

/-- Contexts 0 to 1,279 exist: 320 cores of four banks (R1). -/
def ctxOk (c : CtxId) : Bool := decide (c < 1280)

/-- Cores 0 to 319 exist (R1). -/
def coreOk (k : CoreId) : Bool := decide (k < 320)

/-- The well-formedness of an operation. -/
def Instr.wf : Instr → Bool
  | .add g _ _ _ => g.ok
  | .sub g _ _ _ => g.ok
  | .and g _ _ _ => g.ok
  | .or g _ _ _ => g.ok
  | .xor g _ _ _ => g.ok
  | .andn g _ _ _ => g.ok
  | .orn g _ _ _ => g.ok
  | .shl g _ _ _ => g.ok
  | .shr g _ _ _ => g.ok
  | .sra g _ _ _ => g.ok
  | .rol g _ _ _ => g.ok
  | .ror g _ _ _ => g.ok
  | .mul g _ _ _ => g.ok
  | .mulh g _ _ _ => g.ok
  | .mulhu g _ _ _ => g.ok
  | .div g _ _ _ => g.ok
  | .divu g _ _ _ => g.ok
  | .rem g _ _ _ => g.ok
  | .remu g _ _ _ => g.ok
  | .min g _ _ _ => g.ok
  | .max g _ _ _ => g.ok
  | .minu g _ _ _ => g.ok
  | .maxu g _ _ _ => g.ok
  | .addw g _ _ _ => g.ok
  | .subw g _ _ _ => g.ok
  | .mulw g _ _ _ => g.ok
  | .clz g _ _ => g.ok
  | .ctz g _ _ => g.ok
  | .popc g _ _ => g.ok
  | .addi g _ _ _ => g.ok
  | .andi g _ _ _ => g.ok
  | .ori g _ _ _ => g.ok
  | .xori g _ _ _ => g.ok
  | .shli g _ _ _ => g.ok
  | .shri g _ _ _ => g.ok
  | .srai g _ _ _ => g.ok
  | .muli g _ _ _ => g.ok
  | .addwi g _ _ _ => g.ok
  | .movi g _ _ => g.ok
  | .movz g _ _ => g.ok
  | .movk16 g _ _ => g.ok
  | .movk32 g _ _ => g.ok
  | .movk48 g _ _ => g.ok
  | .srrd g _ _ => g.ok
  | .srwr g _ _ => g.ok
  | .flgrd g _ => g.ok
  | .br g _ => g.ok
  | .call g _ => g.ok
  | .jalr g _ _ _ => g.ok
  | .beq g _ _ _ => g.ok
  | .bne g _ _ _ => g.ok
  | .blt g _ _ _ => g.ok
  | .bge g _ _ _ => g.ok
  | .bltu g _ _ _ => g.ok
  | .bgeu g _ _ _ => g.ok
  | .cmpEq g _ _ _ => g.ok
  | .cmpNe g _ _ _ => g.ok
  | .cmpLt g _ _ _ => g.ok
  | .cmpGe g _ _ _ => g.ok
  | .cmpLtu g _ _ _ => g.ok
  | .cmpGeu g _ _ _ => g.ok
  | .cmpTst g _ _ _ => g.ok
  | .cmpiEq g _ _ _ => g.ok
  | .cmpiLt g _ _ _ => g.ok
  | .cmpiLtu g _ _ _ => g.ok
  | .pand g _ _ _ => g.ok
  | .por g _ _ _ => g.ok
  | .pxor g _ _ _ => g.ok
  | .pandn g _ _ _ => g.ok
  | .pnot g _ _ => g.ok
  | .pmov g _ _ => g.ok
  | .pget g _ => g.ok
  | .pput g _ => g.ok
  | .ldb g _ _ _ => g.ok
  | .ldbs g _ _ _ => g.ok
  | .ldh g _ _ _ => g.ok
  | .ldhs g _ _ _ => g.ok
  | .ldw g _ _ _ => g.ok
  | .ldws g _ _ _ => g.ok
  | .ldd g _ _ _ => g.ok
  | .stb g _ _ _ => g.ok
  | .sth g _ _ _ => g.ok
  | .stw g _ _ _ => g.ok
  | .std g _ _ _ => g.ok
  | .amoSwapW g _ _ => g.ok
  | .amoAddW g _ _ => g.ok
  | .amoAndW g _ _ => g.ok
  | .amoOrW g _ _ => g.ok
  | .amoXorW g _ _ => g.ok
  | .amoMinW g _ _ => g.ok
  | .amoMaxW g _ _ => g.ok
  | .amoMinuW g _ _ => g.ok
  | .amoMaxuW g _ _ => g.ok
  | .amoCasW g _ _ => g.ok
  | .amoSwapD g _ _ => g.ok
  | .amoAddD g _ _ => g.ok
  | .amoAndD g _ _ => g.ok
  | .amoOrD g _ _ => g.ok
  | .amoXorD g _ _ => g.ok
  | .amoMinD g _ _ => g.ok
  | .amoMaxD g _ _ => g.ok
  | .amoMinuD g _ _ => g.ok
  | .amoMaxuD g _ _ => g.ok
  | .amoCasD g t _ => g.ok && decide (t ≠ 31#5)
  | .vpass g _ _ _ => g.ok
  | .vpassr g _ _ _ => g.ok
  | .wait g _ _ _ _ => g.ok
  | .waitAll g _ _ _ _ => g.ok
  | .nop g => g.ok
  | .endProg g => g.ok
  | .tret g => g.ok
  | .shapeReq g _ _ => g.ok
  | .shapeRel g => g.ok
  | .cfgLd g _ _ _ => g.ok
  | .cfgPre g _ _ _ => g.ok
  | .cfgGo g _ _ => g.ok
  | .cfgWait g _ => g.ok
  | .cfgStop g => g.ok
  | .cfgDrop g _ => g.ok
  | .parmWr g _ _ _ => g.ok
  | .cfgStat g _ => g.ok
  | .sqSend g _ _ => g.ok
  | .sqSendX2 g _ _ => g.ok
  | .sqSendEoi g => g.ok
  | .sqSendEos g => g.ok
  | .sqRecv g _ => g.ok
  | .leaseBar g _ => g.ok
  | .achOpen g _ _ _ => g.ok
  | .achJoin g _ _ _ => g.ok
  | .achWait g _ _ => g.ok
  | .achWaitJ g _ _ => g.ok
  | .achClose g _ => g.ok
  | .achCloseJ g _ => g.ok
  | .achAbort g _ => g.ok
  | .achStat g _ _ => g.ok
  | .achStatJ g _ _ => g.ok
  | .cqSub g _ _ _ => g.ok
  | .cqKick g _ _ => g.ok
  | .cntAdd g _ _ _ => g.ok
  | .cntWait g _ _ _ => g.ok
  | .cntRd g _ _ => g.ok
  | .taskArm g _ => g.ok
  | .taskKill g _ => g.ok
  | .taskStat g _ => g.ok
  | .bankMode g _ _ rsz mode _ => g.ok && decide ((rsz ≠ 15#4 ∧ (mode = 2#2 ∨ rsz = 0#4)))
  | .resOpen g _ _ _ => g.ok
  | .resPrio g _ _ => g.ok
  | .resDrop g _ => g.ok
  | .amdSwapW g _ _ _ => g.ok
  | .amdAddW g _ _ _ => g.ok
  | .amdAndW g _ _ _ => g.ok
  | .amdOrW g _ _ _ => g.ok
  | .amdXorW g _ _ _ => g.ok
  | .amdMinW g _ _ _ => g.ok
  | .amdMaxW g _ _ _ => g.ok
  | .amdMinuW g _ _ _ => g.ok
  | .amdMaxuW g _ _ _ => g.ok
  | .amdCasW g _ _ _ => g.ok
  | .amdSwapD g _ _ _ => g.ok
  | .amdAddD g _ _ _ => g.ok
  | .amdAndD g _ _ _ => g.ok
  | .amdOrD g _ _ _ => g.ok
  | .amdXorD g _ _ _ => g.ok
  | .amdMinD g _ _ _ => g.ok
  | .amdMaxD g _ _ _ => g.ok
  | .amdMinuD g _ _ _ => g.ok
  | .amdMaxuD g _ _ _ => g.ok
  | .amdCasD g _ _ b => g.ok && decide (b ≠ 31#5)
  | .amdAfadd g _ _ _ => g.ok
  | .fence g scope => g.ok && decide (scope.toNat ≤ 4)
  | .barArr g _ _ => g.ok
  | .barWait g _ _ _ => g.ok
  | .ringHead g _ _ => g.ok
  | .ringTail g _ _ => g.ok
  | .ringReset g _ _ => g.ok
  | .tlbInva g _ _ => g.ok
  | .tlbInvs g _ => g.ok
  | .tlbInvall g => g.ok
  | .handStk g _ _ => g.ok
  | .trap g _ => g.ok
  | .yield g => g.ok
  | .mgr g _ _ => g.ok
  | .mgw g _ _ => g.ok
  | .trapEntry c => ctxOk c
  | .waitSatisfied c => ctxOk c
  | .spadLoadComplete c _ => ctxOk c
  | .spadStoreComplete c _ => ctxOk c
  | .amoComplete c _ => ctxOk c
  | .dividerComplete core => coreOk core
  | .passChainStart core => coreOk core
  | .passChainComplete core => coreOk core
  | .endComplete c => ctxOk c
  | .packetArrive c _ _ => ctxOk c
  | .laneSkipDemand c _ _ => ctxOk c
  | .demandSend c _ => ctxOk c
  | .demandArrive c _ _ => ctxOk c
  | .packerClose c _ => ctxOk c
  | .cellMarkerPass c n => ctxOk c && decide (n < 256)
  | .auxTokenSend c n => ctxOk c && decide (n < 256)
  | .cellAdd c n => ctxOk c && decide (n < 256)
  | .cellSub c n => ctxOk c && decide (n < 256)
  | .cellRsub c n => ctxOk c && decide (n < 256)
  | .cellMul c n => ctxOk c && decide (n < 256)
  | .cellMulh c n => ctxOk c && decide (n < 256)
  | .cellMad c n => ctxOk c && decide (n < 256)
  | .cellAdds c n => ctxOk c && decide (n < 256)
  | .cellSubs c n => ctxOk c && decide (n < 256)
  | .cellMin c n => ctxOk c && decide (n < 256)
  | .cellMax c n => ctxOk c && decide (n < 256)
  | .cellMinu c n => ctxOk c && decide (n < 256)
  | .cellMaxu c n => ctxOk c && decide (n < 256)
  | .cellAbs c n => ctxOk c && decide (n < 256)
  | .cellNeg c n => ctxOk c && decide (n < 256)
  | .cellAnd c n => ctxOk c && decide (n < 256)
  | .cellOr c n => ctxOk c && decide (n < 256)
  | .cellXor c n => ctxOk c && decide (n < 256)
  | .cellShl c n => ctxOk c && decide (n < 256)
  | .cellShr c n => ctxOk c && decide (n < 256)
  | .cellSra c n => ctxOk c && decide (n < 256)
  | .cellClz c n => ctxOk c && decide (n < 256)
  | .cellPopc c n => ctxOk c && decide (n < 256)
  | .cellFadd c n => ctxOk c && decide (n < 256)
  | .cellFsub c n => ctxOk c && decide (n < 256)
  | .cellFmul c n => ctxOk c && decide (n < 256)
  | .cellFma c n => ctxOk c && decide (n < 256)
  | .cellFms c n => ctxOk c && decide (n < 256)
  | .cellFmin c n => ctxOk c && decide (n < 256)
  | .cellFmax c n => ctxOk c && decide (n < 256)
  | .cellFabs c n => ctxOk c && decide (n < 256)
  | .cellFneg c n => ctxOk c && decide (n < 256)
  | .cellScacc c n => ctxOk c && decide (n < 256)
  | .cellRcp c n => ctxOk c && decide (n < 256)
  | .cellRsq c n => ctxOk c && decide (n < 256)
  | .cellExp2 c n => ctxOk c && decide (n < 256)
  | .cellLog2 c n => ctxOk c && decide (n < 256)
  | .cellCmpEq c n => ctxOk c && decide (n < 256)
  | .cellCmpNe c n => ctxOk c && decide (n < 256)
  | .cellCmpLt c n => ctxOk c && decide (n < 256)
  | .cellCmpLe c n => ctxOk c && decide (n < 256)
  | .cellCmpLtu c n => ctxOk c && decide (n < 256)
  | .cellCmpLeu c n => ctxOk c && decide (n < 256)
  | .cellFcmpEq c n => ctxOk c && decide (n < 256)
  | .cellFcmpNe c n => ctxOk c && decide (n < 256)
  | .cellFcmpLt c n => ctxOk c && decide (n < 256)
  | .cellFcmpLe c n => ctxOk c && decide (n < 256)
  | .cellFcmpUn c n => ctxOk c && decide (n < 256)
  | .cellSel c n => ctxOk c && decide (n < 256)
  | .cellPand c n => ctxOk c && decide (n < 256)
  | .cellPor c n => ctxOk c && decide (n < 256)
  | .cellPxor c n => ctxOk c && decide (n < 256)
  | .cellPnot c n => ctxOk c && decide (n < 256)
  | .cellCvt c n => ctxOk c && decide (n < 256)
  | .cellRadd c n => ctxOk c && decide (n < 256)
  | .cellRmin c n => ctxOk c && decide (n < 256)
  | .cellRmax c n => ctxOk c && decide (n < 256)
  | .cellRfadd c n => ctxOk c && decide (n < 256)
  | .cellRfmin c n => ctxOk c && decide (n < 256)
  | .cellRfmax c n => ctxOk c && decide (n < 256)
  | .cellMov c n => ctxOk c && decide (n < 256)
  | .cellMerge c n => ctxOk c && decide (n < 256)
  | .cellSplit c n => ctxOk c && decide (n < 256)
  | .cellDup c n => ctxOk c && decide (n < 256)
  | .cellGate c n => ctxOk c && decide (n < 256)
  | .cellSteer c n => ctxOk c && decide (n < 256)
  | .cellSink c n => ctxOk c && decide (n < 256)
  | .cellConst c n => ctxOk c && decide (n < 256)
  | .cellMkins c n => ctxOk c && decide (n < 256)
  | .cellLd c n => ctxOk c && decide (n < 256)
  | .cellSt c n => ctxOk c && decide (n < 256)
  | .cellAmoAdd c n => ctxOk c && decide (n < 256)
  | .cellAmoMin c n => ctxOk c && decide (n < 256)
  | .cellAmoMax c n => ctxOk c && decide (n < 256)
  | .cellAmoSwap c n => ctxOk c && decide (n < 256)
  | .cellAmoAfadd c n => ctxOk c && decide (n < 256)
  | .cellOrdj c n => ctxOk c && decide (n < 256)
  | .cellSpawn c n => ctxOk c && decide (n < 256)
  | .spawnReply c n => ctxOk c && decide (n < 256)
  | .cellCpy c n => ctxOk c && decide (n < 256)
  | .cellAcput c n => ctxOk c && decide (n < 256)
  | .memAccessEffect c n => ctxOk c && decide (n < 256)
  | .agTileStart c n => ctxOk c && decide (n < 16)
  | .agReadEmit c n => ctxOk c && decide (n < 16)
  | .agWriteConsume c n => ctxOk c && decide (n < 16)
  | .agGather c n => ctxOk c && decide (n < 16)
  | .agTileEnd c n => ctxOk c && decide (n < 16)
  | .dmReadReturn c n => ctxOk c && decide (n < 16)
  | .queuePush c n => ctxOk c && decide (n < 16)
  | .queuePop c n => ctxOk c && decide (n < 16)
  | .spillWrite c _ => ctxOk c
  | .ringRefill c _ => ctxOk c
  | .loadStart _ => true
  | .loadEnd c => ctxOk c
  | .quantumExpire _ => true
  | .loadStop _ => true
  | .leaseBreak _ => true
  | .collectiveAbandon _ => true
  | .leaseBarRelease _ => true
  | .cfgLdComplete c => ctxOk c
  | .cfgPreComplete c => ctxOk c
  | .configStoreEcc c _ => ctxOk c
  | .shapeGrant core => coreOk core
  | .shapeReleaseDone c => ctxOk c
  | .mnMm c => ctxOk c
  | .mnMv c => ctxOk c
  | .mnGatherA c => ctxOk c
  | .mnTload c => ctxOk c
  | .mnZero c => ctxOk c
  | .mnDrain c => ctxOk c
  | .mnAcsend c => ctxOk c
  | .mnCommandStart c _ => ctxOk c
  | .mnCommandComplete c _ => ctxOk c
  | .mnCtlEos c => ctxOk c
  | .acnBlockSend c _ => ctxOk c
  | .acnBlockArrive _ => true
  | .acnBlockAdd core _ => coreOk core
  | .acnCreditReturn _ => true
  | .acnJoinRequest _ => true
  | .acnJoinReply _ => true
  | .acnFinalise core _ => coreOk core
  | .chainComplete core _ => coreOk core
  | .acnDoneEos c => ctxOk c
  | .acnAbortNotice _ => true
  | .acnRefusal _ => true
  | .bankZeroDone core _ => coreOk core
  | .l2WayConvert die _ => decide (die < 4)
  | .homeSliceRead _ => true
  | .homeSliceWrite _ => true
  | .l2Fill die _ _ => decide (die < 4)
  | .channelRequest _ => true
  | .cacheLayerFill die _ _ => decide (die < 4)
  | .meshArbitration core _ => coreOk core
  | .flitCrcRetry core _ _ _ => coreOk core
  | .pageWalk die _ _ => decide (die < 4)
  | .replayRetry die _ => decide (die < 4)
  | .replayRelease die _ _ => decide (die < 4)
  | .counterReread c => ctxOk c
  | .barrierReleaseMsg c => ctxOk c
  | .cePacketIntake core => coreOk core
  | .cePacketStart core _ => coreOk core
  | .ceCopy core _ => coreOk core
  | .ceCopy2d core _ => coreOk core
  | .ceCopy4d core _ => coreOk core
  | .ceFill core _ => coreOk core
  | .ceGather core _ => coreOk core
  | .ceScatter core _ => coreOk core
  | .ceMcast core _ => coreOk core
  | .ceCadd core _ => coreOk core
  | .ceTaskarm core _ => coreOk core
  | .ceLaunch core _ => coreOk core
  | .ceSignal core _ => coreOk core
  | .cePull core _ => coreOk core
  | .cePacketComplete core _ => coreOk core
  | .ceDoneEos c => ctxOk c
  | .kickNoticeArrive _ => true
  | .kickNoticeResend _ => true
  | .pullAck _ => true
  | .queueSlotTake _ => true
  | .queueError _ => true
  | .queueRestart _ => true
  | .taskCompletionReport _ => true
  | .taskFaultReport _ => true
  | .taskPush _ => true
  | .distributorSelect => true
  | .launchDependenceMet _ => true
  | .ostlerPlacement => true
  | .spawnPlace => true
  | .contextRelease c => ctxOk c
  | .launchComplete _ => true
  | .launchFault _ => true
  | .schedulerTurnEnd _ => true
  | .compaction => true
  | .relocation _ => true
  | .relocationPairCopy _ _ => true
  | .relocationAbandon _ => true
  | .contextGated c => ctxOk c
  | .ctxcGate c => ctxOk c
  | .ctxcUngate c => ctxOk c
  | .ctxcDestroy c => ctxOk c
  | .ctxcRelease c => ctxOk c
  | .ostevEvict _ => true
  | .ostevRestore _ => true
  | .ostcmdGo => true
  | .trstGo t => decide (t < 64)
  | .ttabWrite stack _ _ => decide (stack < 16)
  | .tlogWrite stack => decide (stack < 16)
  | .fwlogWrite => true
  | .evlostWrite => true
  | .wdrWrite _ _ => true
  | .l2remwWrite die _ => decide (die < 4)
  | .asidoWrite _ _ => true
  | .lqcfgWrite _ _ => true
  | .ceqWrite core _ _ => coreOk core
  | .mlogtWrite t _ => decide (t < 64)
  | .registerWrite _ _ => true
  | .powerInterval _ _ _ => true
  | .clkLower _ => true
  | .clkRestore => true
  | .queueParityError c _ _ => ctxOk c
  | .eccDoubleRetry _ _ _ => true
  | .stackHandOver stack => decide (stack < 16)
  | .ucieModuleFail _ => true
  | .jexlinkTrain _ => true
  | .jexlinkKeyRenew _ => true
  | .jexlinkLinkFail _ => true
  | .jexlinkRequest _ => true
  | .remoteStoreAck _ => true
  | .remoteStoreLost _ => true
  | .remoteReadTimeout core _ => coreOk core
  | .apertureRead _ _ _ _ => true
  | .apertureWrite _ _ _ _ => true
  | .apertureFetchadd _ _ _ _ => true
  | .apertureSwap _ _ _ _ => true
  | .apertureCas _ _ _ _ _ => true
  | .bar0RegisterAccess _ _ _ _ => true
  | .msixInterrupt _ _ => true
  | .vfEnableClear => true
  | .spdmRequest _ _ => true
  | .lockInterfaceRequest t _ => decide (t < 64)
  | .startInterfaceRequest t => decide (t < 64)
  | .stopInterfaceRequest t => decide (t < 64)
  | .getDeviceInterfaceReport t => decide (t < 64)
  | .tdispError t _ _ => decide (t < 64)
  | .functionLevelReset _ => true
  | .ideStreamFault _ => true
  | .thermalEvent die _ => decide (die < 5)
  | .thermalTrip die _ => decide (die < 5)
  | .deviceReset => true
  | .bootStageComplete _ _ => true
  | .deviceResponse _ => true
  | .launchImagePlaced _ => true
  | .vfEnableSet t => decide (t < 64)
  | .configSpaceWrite t _ _ => decide (t < 64)
  | .msixVectorUnmask _ _ => true
  | .powerLoss => true
  | .thermalRearm die _ => decide (die < 5)

end Sys2Proof
end

