-- ==== Sys2Proof/Decode.lean ====
section
/-! DEFINITION. Decoding of a 32-bit control word in the order of R59, total and rejecting by name, and the encoder written from
the same formats (R54, R56, R61 to R64). An internal step has no encoding. -/

namespace Sys2Proof

/-- Which of steps 1 to 4 of R59 a word fails. All four raise ILLEGAL. -/
inductive Reject where
  /-- Step 1: OP is not an assigned opcode of Table 4 (R61). -/
  | badOpcode
  /-- Step 2: fn is not an assigned value (R62, R63). -/
  | badFunction
  /-- Step 3: the reserved guard (R55). -/
  | reservedGuard
  /-- Step 4: a reserved field is non-zero, or a field lies outside its limits (R58). -/
  | reservedField
  deriving DecidableEq, Repr

/-- Bits [lo+len-1 : lo] of a control word's operand fields (R56). -/
abbrev fld (f : BitVec 21) (lo len : Nat) : BitVec len := f.extractLsb' lo len

/-- Keeps a decoded operation whose reserved fields are zero. -/
def checked (ok : Bool) (i : Instr) : Except Reject Instr := if ok then .ok i else .error .reservedField

/-- The limits of a field that one comparison cannot state: t of AMO.CAS.D (R87), b of AMD.CAS.D (R303), the scope of FENCE and
the ring size of BANK.MODE (R295). -/
def Instr.fieldsOk : Instr → Bool
  | .amoCasD _ t _ => decide (t ≠ 31#5)
  | .bankMode _ _ _ rsz mode _ => decide ((rsz ≠ 15#4 ∧ (mode = 2#2 ∨ rsz = 0#4)))
  | .amdCasD _ _ _ b => decide (b ≠ 31#5)
  | .fence _ scope => decide (scope.toNat ≤ 4)
  | _ => true

/-- The sub-map of opcode 0x00 (R62, R63). -/
def decodeFn00 (g : Guard) (f : BitVec 21) : Except Reject Instr :=
  let fn := fld f 0 6
  if fn = 0x01#6 then .ok (.add g (fld f 16 5) (fld f 11 5) (fld f 6 5))
  else if fn = 0x02#6 then .ok (.sub g (fld f 16 5) (fld f 11 5) (fld f 6 5))
  else if fn = 0x03#6 then .ok (.and g (fld f 16 5) (fld f 11 5) (fld f 6 5))
  else if fn = 0x04#6 then .ok (.or g (fld f 16 5) (fld f 11 5) (fld f 6 5))
  else if fn = 0x05#6 then .ok (.xor g (fld f 16 5) (fld f 11 5) (fld f 6 5))
  else if fn = 0x06#6 then .ok (.andn g (fld f 16 5) (fld f 11 5) (fld f 6 5))
  else if fn = 0x07#6 then .ok (.orn g (fld f 16 5) (fld f 11 5) (fld f 6 5))
  else if fn = 0x08#6 then .ok (.shl g (fld f 16 5) (fld f 11 5) (fld f 6 5))
  else if fn = 0x09#6 then .ok (.shr g (fld f 16 5) (fld f 11 5) (fld f 6 5))
  else if fn = 0x0A#6 then .ok (.sra g (fld f 16 5) (fld f 11 5) (fld f 6 5))
  else if fn = 0x0B#6 then .ok (.rol g (fld f 16 5) (fld f 11 5) (fld f 6 5))
  else if fn = 0x0C#6 then .ok (.ror g (fld f 16 5) (fld f 11 5) (fld f 6 5))
  else if fn = 0x0D#6 then .ok (.mul g (fld f 16 5) (fld f 11 5) (fld f 6 5))
  else if fn = 0x0E#6 then .ok (.mulh g (fld f 16 5) (fld f 11 5) (fld f 6 5))
  else if fn = 0x0F#6 then .ok (.mulhu g (fld f 16 5) (fld f 11 5) (fld f 6 5))
  else if fn = 0x10#6 then .ok (.div g (fld f 16 5) (fld f 11 5) (fld f 6 5))
  else if fn = 0x11#6 then .ok (.divu g (fld f 16 5) (fld f 11 5) (fld f 6 5))
  else if fn = 0x12#6 then .ok (.rem g (fld f 16 5) (fld f 11 5) (fld f 6 5))
  else if fn = 0x13#6 then .ok (.remu g (fld f 16 5) (fld f 11 5) (fld f 6 5))
  else if fn = 0x14#6 then .ok (.min g (fld f 16 5) (fld f 11 5) (fld f 6 5))
  else if fn = 0x15#6 then .ok (.max g (fld f 16 5) (fld f 11 5) (fld f 6 5))
  else if fn = 0x16#6 then .ok (.minu g (fld f 16 5) (fld f 11 5) (fld f 6 5))
  else if fn = 0x17#6 then .ok (.maxu g (fld f 16 5) (fld f 11 5) (fld f 6 5))
  else if fn = 0x18#6 then .ok (.addw g (fld f 16 5) (fld f 11 5) (fld f 6 5))
  else if fn = 0x19#6 then .ok (.subw g (fld f 16 5) (fld f 11 5) (fld f 6 5))
  else if fn = 0x1A#6 then .ok (.mulw g (fld f 16 5) (fld f 11 5) (fld f 6 5))
  else if fn = 0x1B#6 then checked (fld f 6 5 == 0#5) (.clz g (fld f 16 5) (fld f 11 5))
  else if fn = 0x1C#6 then checked (fld f 6 5 == 0#5) (.ctz g (fld f 16 5) (fld f 11 5))
  else if fn = 0x1D#6 then checked (fld f 6 5 == 0#5) (.popc g (fld f 16 5) (fld f 11 5))
  else .error .badFunction

/-- The sub-map of opcode 0x29 (R62, R63). -/
def decodeFn29 (g : Guard) (f : BitVec 21) : Except Reject Instr :=
  let fn := fld f 0 6
  if fn = 0x01#6 then checked (fld f 19 2 == 0#2) (.cmpEq g (fld f 16 3) (fld f 11 5) (fld f 6 5))
  else if fn = 0x02#6 then checked (fld f 19 2 == 0#2) (.cmpNe g (fld f 16 3) (fld f 11 5) (fld f 6 5))
  else if fn = 0x03#6 then checked (fld f 19 2 == 0#2) (.cmpLt g (fld f 16 3) (fld f 11 5) (fld f 6 5))
  else if fn = 0x04#6 then checked (fld f 19 2 == 0#2) (.cmpGe g (fld f 16 3) (fld f 11 5) (fld f 6 5))
  else if fn = 0x05#6 then checked (fld f 19 2 == 0#2) (.cmpLtu g (fld f 16 3) (fld f 11 5) (fld f 6 5))
  else if fn = 0x06#6 then checked (fld f 19 2 == 0#2) (.cmpGeu g (fld f 16 3) (fld f 11 5) (fld f 6 5))
  else if fn = 0x07#6 then checked (fld f 19 2 == 0#2) (.cmpTst g (fld f 16 3) (fld f 11 5) (fld f 6 5))
  else .error .badFunction

/-- The sub-map of opcode 0x2D (R62, R63). -/
def decodeFn2D (g : Guard) (f : BitVec 21) : Except Reject Instr :=
  let fn := fld f 0 6
  if fn = 0x01#6 then checked (fld f 19 2 == 0#2 && fld f 14 2 == 0#2 && fld f 9 2 == 0#2) (.pand g (fld f 16 3) (fld f 11 3) (fld f 6 3))
  else if fn = 0x02#6 then checked (fld f 19 2 == 0#2 && fld f 14 2 == 0#2 && fld f 9 2 == 0#2) (.por g (fld f 16 3) (fld f 11 3) (fld f 6 3))
  else if fn = 0x03#6 then checked (fld f 19 2 == 0#2 && fld f 14 2 == 0#2 && fld f 9 2 == 0#2) (.pxor g (fld f 16 3) (fld f 11 3) (fld f 6 3))
  else if fn = 0x04#6 then checked (fld f 19 2 == 0#2 && fld f 14 2 == 0#2 && fld f 9 2 == 0#2) (.pandn g (fld f 16 3) (fld f 11 3) (fld f 6 3))
  else if fn = 0x05#6 then checked (fld f 19 2 == 0#2 && fld f 14 2 == 0#2 && fld f 6 5 == 0#5) (.pnot g (fld f 16 3) (fld f 11 3))
  else if fn = 0x06#6 then checked (fld f 19 2 == 0#2 && fld f 14 2 == 0#2 && fld f 6 5 == 0#5) (.pmov g (fld f 16 3) (fld f 11 3))
  else .error .badFunction

/-- The sub-map of opcode 0x3B (R62, R63). -/
def decodeFn3B (g : Guard) (f : BitVec 21) : Except Reject Instr :=
  let fn := fld f 0 6
  if fn = 0x01#6 then checked (fld f 6 5 == 0#5) (.amoSwapW g (fld f 16 5) (fld f 11 5))
  else if fn = 0x02#6 then checked (fld f 6 5 == 0#5) (.amoAddW g (fld f 16 5) (fld f 11 5))
  else if fn = 0x03#6 then checked (fld f 6 5 == 0#5) (.amoAndW g (fld f 16 5) (fld f 11 5))
  else if fn = 0x04#6 then checked (fld f 6 5 == 0#5) (.amoOrW g (fld f 16 5) (fld f 11 5))
  else if fn = 0x05#6 then checked (fld f 6 5 == 0#5) (.amoXorW g (fld f 16 5) (fld f 11 5))
  else if fn = 0x06#6 then checked (fld f 6 5 == 0#5) (.amoMinW g (fld f 16 5) (fld f 11 5))
  else if fn = 0x07#6 then checked (fld f 6 5 == 0#5) (.amoMaxW g (fld f 16 5) (fld f 11 5))
  else if fn = 0x08#6 then checked (fld f 6 5 == 0#5) (.amoMinuW g (fld f 16 5) (fld f 11 5))
  else if fn = 0x09#6 then checked (fld f 6 5 == 0#5) (.amoMaxuW g (fld f 16 5) (fld f 11 5))
  else if fn = 0x0A#6 then checked (fld f 6 5 == 0#5) (.amoCasW g (fld f 16 5) (fld f 11 5))
  else if fn = 0x21#6 then checked (fld f 6 5 == 0#5) (.amoSwapD g (fld f 16 5) (fld f 11 5))
  else if fn = 0x22#6 then checked (fld f 6 5 == 0#5) (.amoAddD g (fld f 16 5) (fld f 11 5))
  else if fn = 0x23#6 then checked (fld f 6 5 == 0#5) (.amoAndD g (fld f 16 5) (fld f 11 5))
  else if fn = 0x24#6 then checked (fld f 6 5 == 0#5) (.amoOrD g (fld f 16 5) (fld f 11 5))
  else if fn = 0x25#6 then checked (fld f 6 5 == 0#5) (.amoXorD g (fld f 16 5) (fld f 11 5))
  else if fn = 0x26#6 then checked (fld f 6 5 == 0#5) (.amoMinD g (fld f 16 5) (fld f 11 5))
  else if fn = 0x27#6 then checked (fld f 6 5 == 0#5) (.amoMaxD g (fld f 16 5) (fld f 11 5))
  else if fn = 0x28#6 then checked (fld f 6 5 == 0#5) (.amoMinuD g (fld f 16 5) (fld f 11 5))
  else if fn = 0x29#6 then checked (fld f 6 5 == 0#5) (.amoMaxuD g (fld f 16 5) (fld f 11 5))
  else if fn = 0x2A#6 then checked (fld f 6 5 == 0#5 && (Instr.amoCasD g (fld f 16 5) (fld f 11 5)).fieldsOk) (.amoCasD g (fld f 16 5) (fld f 11 5))
  else .error .badFunction

/-- The sub-map of opcode 0x69 (R62, R63). -/
def decodeFn69 (g : Guard) (f : BitVec 21) : Except Reject Instr :=
  let fn := fld f 0 6
  if fn = 0x01#6 then .ok (.resOpen g (fld f 16 5) (fld f 11 5) (fld f 6 5))
  else if fn = 0x02#6 then checked (fld f 16 5 == 0#5) (.resPrio g (fld f 11 5) (fld f 6 5))
  else if fn = 0x03#6 then checked (fld f 16 5 == 0#5 && fld f 6 5 == 0#5) (.resDrop g (fld f 11 5))
  else .error .badFunction

/-- The sub-map of opcode 0x6A (R62, R63). -/
def decodeFn6A (g : Guard) (f : BitVec 21) : Except Reject Instr :=
  let fn := fld f 0 6
  if fn = 0x01#6 then .ok (.amdSwapW g (fld f 16 5) (fld f 11 5) (fld f 6 5))
  else if fn = 0x02#6 then .ok (.amdAddW g (fld f 16 5) (fld f 11 5) (fld f 6 5))
  else if fn = 0x03#6 then .ok (.amdAndW g (fld f 16 5) (fld f 11 5) (fld f 6 5))
  else if fn = 0x04#6 then .ok (.amdOrW g (fld f 16 5) (fld f 11 5) (fld f 6 5))
  else if fn = 0x05#6 then .ok (.amdXorW g (fld f 16 5) (fld f 11 5) (fld f 6 5))
  else if fn = 0x06#6 then .ok (.amdMinW g (fld f 16 5) (fld f 11 5) (fld f 6 5))
  else if fn = 0x07#6 then .ok (.amdMaxW g (fld f 16 5) (fld f 11 5) (fld f 6 5))
  else if fn = 0x08#6 then .ok (.amdMinuW g (fld f 16 5) (fld f 11 5) (fld f 6 5))
  else if fn = 0x09#6 then .ok (.amdMaxuW g (fld f 16 5) (fld f 11 5) (fld f 6 5))
  else if fn = 0x0A#6 then .ok (.amdCasW g (fld f 16 5) (fld f 11 5) (fld f 6 5))
  else if fn = 0x21#6 then .ok (.amdSwapD g (fld f 16 5) (fld f 11 5) (fld f 6 5))
  else if fn = 0x22#6 then .ok (.amdAddD g (fld f 16 5) (fld f 11 5) (fld f 6 5))
  else if fn = 0x23#6 then .ok (.amdAndD g (fld f 16 5) (fld f 11 5) (fld f 6 5))
  else if fn = 0x24#6 then .ok (.amdOrD g (fld f 16 5) (fld f 11 5) (fld f 6 5))
  else if fn = 0x25#6 then .ok (.amdXorD g (fld f 16 5) (fld f 11 5) (fld f 6 5))
  else if fn = 0x26#6 then .ok (.amdMinD g (fld f 16 5) (fld f 11 5) (fld f 6 5))
  else if fn = 0x27#6 then .ok (.amdMaxD g (fld f 16 5) (fld f 11 5) (fld f 6 5))
  else if fn = 0x28#6 then .ok (.amdMinuD g (fld f 16 5) (fld f 11 5) (fld f 6 5))
  else if fn = 0x29#6 then .ok (.amdMaxuD g (fld f 16 5) (fld f 11 5) (fld f 6 5))
  else if fn = 0x2A#6 then checked ((Instr.amdCasD g (fld f 16 5) (fld f 11 5) (fld f 6 5)).fieldsOk) (.amdCasD g (fld f 16 5) (fld f 11 5) (fld f 6 5))
  else if fn = 0x2B#6 then .ok (.amdAfadd g (fld f 16 5) (fld f 11 5) (fld f 6 5))
  else .error .badFunction

/-- The sub-map of opcode 0x6C (R62, R63). -/
def decodeFn6C (g : Guard) (f : BitVec 21) : Except Reject Instr :=
  let fn := fld f 0 6
  if fn = 0x01#6 then checked (fld f 6 5 == 0#5) (.barArr g (fld f 16 5) (fld f 11 5))
  else if fn = 0x02#6 then .ok (.barWait g (fld f 16 5) (fld f 11 5) (fld f 6 5))
  else .error .badFunction

/-- The sub-map of opcode 0x6D (R62, R63). -/
def decodeFn6D (g : Guard) (f : BitVec 21) : Except Reject Instr :=
  let fn := fld f 0 6
  if fn = 0x01#6 then checked (fld f 6 5 == 0#5) (.ringHead g (fld f 16 5) (fld f 11 5))
  else if fn = 0x02#6 then checked (fld f 6 5 == 0#5) (.ringTail g (fld f 16 5) (fld f 11 5))
  else if fn = 0x03#6 then checked (fld f 6 5 == 0#5) (.ringReset g (fld f 16 5) (fld f 11 5))
  else .error .badFunction

/-- The sub-map of opcode 0x6E (R62, R63). -/
def decodeFn6E (g : Guard) (f : BitVec 21) : Except Reject Instr :=
  let fn := fld f 0 6
  if fn = 0x01#6 then checked (fld f 16 5 == 0#5) (.tlbInva g (fld f 11 5) (fld f 6 5))
  else if fn = 0x02#6 then checked (fld f 16 5 == 0#5 && fld f 6 5 == 0#5) (.tlbInvs g (fld f 11 5))
  else if fn = 0x03#6 then checked (fld f 6 15 == 0#15) (.tlbInvall g)
  else .error .badFunction

/-- Steps 1, 2 and 4 of R59 for opcode `op`, guard `g` and operand fields `f`. -/
def decodeOp (op : BitVec 7) (g : Guard) (f : BitVec 21) : Except Reject Instr :=
  if op = 0x00#7 then decodeFn00 g f
  else if op = 0x01#7 then .ok (.addi g (fld f 16 5) (fld f 11 5) (fld f 0 11))
  else if op = 0x02#7 then .ok (.andi g (fld f 16 5) (fld f 11 5) (fld f 0 11))
  else if op = 0x03#7 then .ok (.ori g (fld f 16 5) (fld f 11 5) (fld f 0 11))
  else if op = 0x04#7 then .ok (.xori g (fld f 16 5) (fld f 11 5) (fld f 0 11))
  else if op = 0x05#7 then checked (fld f 6 5 == 0#5) (.shli g (fld f 16 5) (fld f 11 5) (fld f 0 6))
  else if op = 0x06#7 then checked (fld f 6 5 == 0#5) (.shri g (fld f 16 5) (fld f 11 5) (fld f 0 6))
  else if op = 0x07#7 then checked (fld f 6 5 == 0#5) (.srai g (fld f 16 5) (fld f 11 5) (fld f 0 6))
  else if op = 0x08#7 then .ok (.muli g (fld f 16 5) (fld f 11 5) (fld f 0 11))
  else if op = 0x09#7 then .ok (.addwi g (fld f 16 5) (fld f 11 5) (fld f 0 11))
  else if op = 0x0A#7 then .ok (.movi g (fld f 16 5) (fld f 0 16))
  else if op = 0x0B#7 then .ok (.movz g (fld f 16 5) (fld f 0 16))
  else if op = 0x0C#7 then .ok (.movk16 g (fld f 16 5) (fld f 0 16))
  else if op = 0x0D#7 then .ok (.movk32 g (fld f 16 5) (fld f 0 16))
  else if op = 0x0E#7 then .ok (.movk48 g (fld f 16 5) (fld f 0 16))
  else if op = 0x0F#7 then checked (fld f 4 12 == 0#12) (.srrd g (fld f 16 5) (fld f 0 4))
  else if op = 0x10#7 then checked (fld f 4 12 == 0#12) (.srwr g (fld f 16 5) (fld f 0 4))
  else if op = 0x11#7 then checked (fld f 0 16 == 0#16) (.flgrd g (fld f 16 5))
  else if op = 0x20#7 then .ok (.br g (fld f 0 21))
  else if op = 0x21#7 then .ok (.call g (fld f 0 21))
  else if op = 0x22#7 then .ok (.jalr g (fld f 16 5) (fld f 11 5) (fld f 0 11))
  else if op = 0x23#7 then .ok (.beq g (fld f 16 5) (fld f 11 5) (fld f 0 11))
  else if op = 0x24#7 then .ok (.bne g (fld f 16 5) (fld f 11 5) (fld f 0 11))
  else if op = 0x25#7 then .ok (.blt g (fld f 16 5) (fld f 11 5) (fld f 0 11))
  else if op = 0x26#7 then .ok (.bge g (fld f 16 5) (fld f 11 5) (fld f 0 11))
  else if op = 0x27#7 then .ok (.bltu g (fld f 16 5) (fld f 11 5) (fld f 0 11))
  else if op = 0x28#7 then .ok (.bgeu g (fld f 16 5) (fld f 11 5) (fld f 0 11))
  else if op = 0x29#7 then decodeFn29 g f
  else if op = 0x2A#7 then checked (fld f 19 2 == 0#2) (.cmpiEq g (fld f 16 3) (fld f 11 5) (fld f 0 11))
  else if op = 0x2B#7 then checked (fld f 19 2 == 0#2) (.cmpiLt g (fld f 16 3) (fld f 11 5) (fld f 0 11))
  else if op = 0x2C#7 then checked (fld f 19 2 == 0#2) (.cmpiLtu g (fld f 16 3) (fld f 11 5) (fld f 0 11))
  else if op = 0x2D#7 then decodeFn2D g f
  else if op = 0x2E#7 then (if fld f 0 6 = 0#6 then checked (fld f 6 10 == 0#10) (.pget g (fld f 16 5)) else .error .badFunction)
  else if op = 0x2F#7 then (if fld f 0 6 = 0#6 then checked (fld f 16 5 == 0#5 && fld f 6 5 == 0#5) (.pput g (fld f 11 5)) else .error .badFunction)
  else if op = 0x30#7 then .ok (.ldb g (fld f 16 5) (fld f 11 5) (fld f 0 11))
  else if op = 0x31#7 then .ok (.ldbs g (fld f 16 5) (fld f 11 5) (fld f 0 11))
  else if op = 0x32#7 then .ok (.ldh g (fld f 16 5) (fld f 11 5) (fld f 0 11))
  else if op = 0x33#7 then .ok (.ldhs g (fld f 16 5) (fld f 11 5) (fld f 0 11))
  else if op = 0x34#7 then .ok (.ldw g (fld f 16 5) (fld f 11 5) (fld f 0 11))
  else if op = 0x35#7 then .ok (.ldws g (fld f 16 5) (fld f 11 5) (fld f 0 11))
  else if op = 0x36#7 then .ok (.ldd g (fld f 16 5) (fld f 11 5) (fld f 0 11))
  else if op = 0x37#7 then .ok (.stb g (fld f 16 5) (fld f 11 5) (fld f 0 11))
  else if op = 0x38#7 then .ok (.sth g (fld f 16 5) (fld f 11 5) (fld f 0 11))
  else if op = 0x39#7 then .ok (.stw g (fld f 16 5) (fld f 11 5) (fld f 0 11))
  else if op = 0x3A#7 then .ok (.std g (fld f 16 5) (fld f 11 5) (fld f 0 11))
  else if op = 0x3B#7 then decodeFn3B g f
  else if op = 0x40#7 then (if fld f 0 6 = 0#6 then .ok (.vpass g (fld f 16 5) (fld f 11 5) (fld f 6 5)) else .error .badFunction)
  else if op = 0x41#7 then (if fld f 0 6 = 0#6 then .ok (.vpassr g (fld f 16 5) (fld f 11 5) (fld f 6 5)) else .error .badFunction)
  else if op = 0x42#7 then checked (fld f 1 15 == 0#15) (.shapeReq g (fld f 16 5) (fld f 0 1))
  else if op = 0x43#7 then checked (fld f 0 21 == 0#21) (.shapeRel g)
  else if op = 0x48#7 then .ok (.cfgLd g (fld f 16 5) (fld f 11 5) (fld f 0 11))
  else if op = 0x49#7 then .ok (.cfgPre g (fld f 16 5) (fld f 11 5) (fld f 0 11))
  else if op = 0x4A#7 then .ok (.cfgGo g (fld f 16 5) (fld f 0 16))
  else if op = 0x4B#7 then checked (fld f 0 16 == 0#16) (.cfgWait g (fld f 16 5))
  else if op = 0x4C#7 then checked (fld f 0 21 == 0#21) (.cfgStop g)
  else if op = 0x4D#7 then checked (fld f 1 20 == 0#20) (.cfgDrop g (fld f 0 1))
  else if op = 0x4E#7 then (if fld f 0 6 = 0#6 then checked (fld f 20 1 == 0#1) (.parmWr g (fld f 16 4) (fld f 11 5) (fld f 6 5)) else .error .badFunction)
  else if op = 0x4F#7 then checked (fld f 0 16 == 0#16) (.cfgStat g (fld f 16 5))
  else if op = 0x50#7 then (if fld f 0 6 = 0#6 then (if fld f 16 5 = 0#5 then checked (fld f 16 5 == 0#5 && fld f 9 2 == 0#2) (.sqSend g (fld f 11 5) (fld f 6 3)) else if fld f 16 5 = 1#5 then checked (fld f 16 5 == 1#5 && fld f 9 2 == 0#2) (.sqSendX2 g (fld f 11 5) (fld f 6 3)) else if fld f 16 5 = 2#5 then checked (fld f 6 15 == 2048#15) (.sqSendEoi g) else if fld f 16 5 = 3#5 then checked (fld f 6 15 == 3072#15) (.sqSendEos g) else .error .reservedField) else .error .badFunction)
  else if op = 0x51#7 then (if fld f 0 6 = 0#6 then checked (fld f 6 10 == 0#10) (.sqRecv g (fld f 16 5)) else .error .badFunction)
  else if op = 0x52#7 then checked (fld f 16 5 == 0#5) (.leaseBar g (fld f 0 16))
  else if op = 0x58#7 then (if fld f 0 6 = 0#6 then .ok (.achOpen g (fld f 16 5) (fld f 11 5) (fld f 6 5)) else .error .badFunction)
  else if op = 0x59#7 then (if fld f 0 6 = 0#6 then .ok (.achJoin g (fld f 16 5) (fld f 11 5) (fld f 6 5)) else .error .badFunction)
  else if op = 0x5A#7 then (if fld f 4 1 = 1#1 then checked (fld f 4 12 == 1#12) (.achWaitJ g (fld f 16 5) (fld f 0 4)) else checked (fld f 4 12 == 0#12) (.achWait g (fld f 16 5) (fld f 0 4)))
  else if op = 0x5B#7 then (if fld f 4 1 = 1#1 then checked (fld f 4 17 == 1#17) (.achCloseJ g (fld f 0 4)) else checked (fld f 4 17 == 0#17) (.achClose g (fld f 0 4)))
  else if op = 0x5C#7 then checked (fld f 4 17 == 0#17) (.achAbort g (fld f 0 4))
  else if op = 0x5D#7 then (if fld f 4 1 = 1#1 then checked (fld f 4 12 == 1#12) (.achStatJ g (fld f 16 5) (fld f 0 4)) else checked (fld f 4 12 == 0#12) (.achStat g (fld f 16 5) (fld f 0 4)))
  else if op = 0x60#7 then (if fld f 0 6 = 0#6 then .ok (.cqSub g (fld f 16 5) (fld f 11 5) (fld f 6 5)) else .error .badFunction)
  else if op = 0x61#7 then (if fld f 0 6 = 0#6 then checked (fld f 16 5 == 0#5) (.cqKick g (fld f 11 5) (fld f 6 5)) else .error .badFunction)
  else if op = 0x62#7 then (if fld f 0 6 = 0#6 then .ok (.cntAdd g (fld f 16 5) (fld f 11 5) (fld f 6 5)) else .error .badFunction)
  else if op = 0x63#7 then (if fld f 0 6 = 0#6 then .ok (.cntWait g (fld f 16 5) (fld f 11 5) (fld f 6 5)) else .error .badFunction)
  else if op = 0x64#7 then (if fld f 0 6 = 0#6 then checked (fld f 6 5 == 0#5) (.cntRd g (fld f 16 5) (fld f 11 5)) else .error .badFunction)
  else if op = 0x65#7 then checked (fld f 0 16 == 0#16) (.taskArm g (fld f 16 5))
  else if op = 0x66#7 then checked (fld f 0 16 == 0#16) (.taskKill g (fld f 16 5))
  else if op = 0x67#7 then checked (fld f 0 16 == 0#16) (.taskStat g (fld f 16 5))
  else if op = 0x68#7 then checked ((Instr.bankMode g (fld f 16 5) (fld f 11 5) (fld f 7 4) (fld f 5 2) (fld f 0 5)).fieldsOk) (.bankMode g (fld f 16 5) (fld f 11 5) (fld f 7 4) (fld f 5 2) (fld f 0 5))
  else if op = 0x69#7 then decodeFn69 g f
  else if op = 0x6A#7 then decodeFn6A g f
  else if op = 0x6B#7 then checked (fld f 3 18 == 0#18 && (Instr.fence g (fld f 0 3)).fieldsOk) (.fence g (fld f 0 3))
  else if op = 0x6C#7 then decodeFn6C g f
  else if op = 0x6D#7 then decodeFn6D g f
  else if op = 0x6E#7 then decodeFn6E g f
  else if op = 0x6F#7 then (if fld f 0 6 = 0#6 then checked (fld f 16 5 == 0#5) (.handStk g (fld f 11 5) (fld f 6 5)) else .error .badFunction)
  else if op = 0x70#7 then (if fld f 20 1 = 1#1 then .ok (.waitAll g (fld f 15 5) (fld f 10 5) (fld f 5 5) (fld f 0 5)) else .ok (.wait g (fld f 15 5) (fld f 10 5) (fld f 5 5) (fld f 0 5)))
  else if op = 0x71#7 then checked (fld f 0 21 == 0#21) (.nop g)
  else if op = 0x72#7 then checked (fld f 16 5 == 0#5) (.trap g (fld f 0 16))
  else if op = 0x73#7 then checked (fld f 0 21 == 0#21) (.yield g)
  else if op = 0x74#7 then .ok (.mgr g (fld f 16 5) (fld f 0 16))
  else if op = 0x75#7 then .ok (.mgw g (fld f 16 5) (fld f 0 16))
  else if op = 0x7E#7 then checked (fld f 0 21 == 0#21) (.endProg g)
  else if op = 0x7F#7 then checked (fld f 0 21 == 0#21) (.tret g)
  else .error .badOpcode

/-- R59: the operation of a control word, or the step of R59 that it fails. -/
def decodeWord (w : BitVec 32) : Except Reject Instr :=
  let g : Guard := ⟨w.extractLsb' 29 3, w.extractLsb' 28 1⟩
  match decodeOp (w.extractLsb' 21 7) g (w.extractLsb' 0 21) with
  | .error .badOpcode => .error .badOpcode
  | .error .badFunction => .error .badFunction
  | r => if g.ok then r else .error .reservedGuard

/-- The word of guard, opcode and operand fields (R54, R68). -/
def word (g : Guard) (op : BitVec 7) (f : BitVec 21) : BitVec 32 := g.idx ++ g.neg ++ op ++ f

/-- The operand fields of each control word (R56, R64); an internal step has none. -/
def Instr.fields : Instr → Option (BitVec 7 × BitVec 21)
  | .add _ d a b => some (0x00#7, d ++ a ++ b ++ 1#6)
  | .sub _ d a b => some (0x00#7, d ++ a ++ b ++ 2#6)
  | .and _ d a b => some (0x00#7, d ++ a ++ b ++ 3#6)
  | .or _ d a b => some (0x00#7, d ++ a ++ b ++ 4#6)
  | .xor _ d a b => some (0x00#7, d ++ a ++ b ++ 5#6)
  | .andn _ d a b => some (0x00#7, d ++ a ++ b ++ 6#6)
  | .orn _ d a b => some (0x00#7, d ++ a ++ b ++ 7#6)
  | .shl _ d a b => some (0x00#7, d ++ a ++ b ++ 8#6)
  | .shr _ d a b => some (0x00#7, d ++ a ++ b ++ 9#6)
  | .sra _ d a b => some (0x00#7, d ++ a ++ b ++ 10#6)
  | .rol _ d a b => some (0x00#7, d ++ a ++ b ++ 11#6)
  | .ror _ d a b => some (0x00#7, d ++ a ++ b ++ 12#6)
  | .mul _ d a b => some (0x00#7, d ++ a ++ b ++ 13#6)
  | .mulh _ d a b => some (0x00#7, d ++ a ++ b ++ 14#6)
  | .mulhu _ d a b => some (0x00#7, d ++ a ++ b ++ 15#6)
  | .div _ d a b => some (0x00#7, d ++ a ++ b ++ 16#6)
  | .divu _ d a b => some (0x00#7, d ++ a ++ b ++ 17#6)
  | .rem _ d a b => some (0x00#7, d ++ a ++ b ++ 18#6)
  | .remu _ d a b => some (0x00#7, d ++ a ++ b ++ 19#6)
  | .min _ d a b => some (0x00#7, d ++ a ++ b ++ 20#6)
  | .max _ d a b => some (0x00#7, d ++ a ++ b ++ 21#6)
  | .minu _ d a b => some (0x00#7, d ++ a ++ b ++ 22#6)
  | .maxu _ d a b => some (0x00#7, d ++ a ++ b ++ 23#6)
  | .addw _ d a b => some (0x00#7, d ++ a ++ b ++ 24#6)
  | .subw _ d a b => some (0x00#7, d ++ a ++ b ++ 25#6)
  | .mulw _ d a b => some (0x00#7, d ++ a ++ b ++ 26#6)
  | .clz _ d a => some (0x00#7, d ++ a ++ 27#11)
  | .ctz _ d a => some (0x00#7, d ++ a ++ 28#11)
  | .popc _ d a => some (0x00#7, d ++ a ++ 29#11)
  | .addi _ d a imm => some (0x01#7, d ++ a ++ imm)
  | .andi _ d a imm => some (0x02#7, d ++ a ++ imm)
  | .ori _ d a imm => some (0x03#7, d ++ a ++ imm)
  | .xori _ d a imm => some (0x04#7, d ++ a ++ imm)
  | .shli _ d a s => some (0x05#7, d ++ a ++ 0#5 ++ s)
  | .shri _ d a s => some (0x06#7, d ++ a ++ 0#5 ++ s)
  | .srai _ d a s => some (0x07#7, d ++ a ++ 0#5 ++ s)
  | .muli _ d a imm => some (0x08#7, d ++ a ++ imm)
  | .addwi _ d a imm => some (0x09#7, d ++ a ++ imm)
  | .movi _ d imm => some (0x0A#7, d ++ imm)
  | .movz _ d imm => some (0x0B#7, d ++ imm)
  | .movk16 _ d imm => some (0x0C#7, d ++ imm)
  | .movk32 _ d imm => some (0x0D#7, d ++ imm)
  | .movk48 _ d imm => some (0x0E#7, d ++ imm)
  | .srrd _ d sr => some (0x0F#7, d ++ 0#12 ++ sr)
  | .srwr _ d sr => some (0x10#7, d ++ 0#12 ++ sr)
  | .flgrd _ d => some (0x11#7, d ++ 0#16)
  | .br _ off => some (0x20#7, off)
  | .call _ off => some (0x21#7, off)
  | .jalr _ d a imm => some (0x22#7, d ++ a ++ imm)
  | .beq _ a b off => some (0x23#7, a ++ b ++ off)
  | .bne _ a b off => some (0x24#7, a ++ b ++ off)
  | .blt _ a b off => some (0x25#7, a ++ b ++ off)
  | .bge _ a b off => some (0x26#7, a ++ b ++ off)
  | .bltu _ a b off => some (0x27#7, a ++ b ++ off)
  | .bgeu _ a b off => some (0x28#7, a ++ b ++ off)
  | .cmpEq _ d a b => some (0x29#7, 0#2 ++ d ++ a ++ b ++ 1#6)
  | .cmpNe _ d a b => some (0x29#7, 0#2 ++ d ++ a ++ b ++ 2#6)
  | .cmpLt _ d a b => some (0x29#7, 0#2 ++ d ++ a ++ b ++ 3#6)
  | .cmpGe _ d a b => some (0x29#7, 0#2 ++ d ++ a ++ b ++ 4#6)
  | .cmpLtu _ d a b => some (0x29#7, 0#2 ++ d ++ a ++ b ++ 5#6)
  | .cmpGeu _ d a b => some (0x29#7, 0#2 ++ d ++ a ++ b ++ 6#6)
  | .cmpTst _ d a b => some (0x29#7, 0#2 ++ d ++ a ++ b ++ 7#6)
  | .cmpiEq _ d a imm => some (0x2A#7, 0#2 ++ d ++ a ++ imm)
  | .cmpiLt _ d a imm => some (0x2B#7, 0#2 ++ d ++ a ++ imm)
  | .cmpiLtu _ d a imm => some (0x2C#7, 0#2 ++ d ++ a ++ imm)
  | .pand _ d a b => some (0x2D#7, 0#2 ++ d ++ 0#2 ++ a ++ 0#2 ++ b ++ 1#6)
  | .por _ d a b => some (0x2D#7, 0#2 ++ d ++ 0#2 ++ a ++ 0#2 ++ b ++ 2#6)
  | .pxor _ d a b => some (0x2D#7, 0#2 ++ d ++ 0#2 ++ a ++ 0#2 ++ b ++ 3#6)
  | .pandn _ d a b => some (0x2D#7, 0#2 ++ d ++ 0#2 ++ a ++ 0#2 ++ b ++ 4#6)
  | .pnot _ d a => some (0x2D#7, 0#2 ++ d ++ 0#2 ++ a ++ 5#11)
  | .pmov _ d a => some (0x2D#7, 0#2 ++ d ++ 0#2 ++ a ++ 6#11)
  | .pget _ d => some (0x2E#7, d ++ 0#16)
  | .pput _ a => some (0x2F#7, 0#5 ++ a ++ 0#11)
  | .ldb _ t a off => some (0x30#7, t ++ a ++ off)
  | .ldbs _ t a off => some (0x31#7, t ++ a ++ off)
  | .ldh _ t a off => some (0x32#7, t ++ a ++ off)
  | .ldhs _ t a off => some (0x33#7, t ++ a ++ off)
  | .ldw _ t a off => some (0x34#7, t ++ a ++ off)
  | .ldws _ t a off => some (0x35#7, t ++ a ++ off)
  | .ldd _ t a off => some (0x36#7, t ++ a ++ off)
  | .stb _ t a off => some (0x37#7, t ++ a ++ off)
  | .sth _ t a off => some (0x38#7, t ++ a ++ off)
  | .stw _ t a off => some (0x39#7, t ++ a ++ off)
  | .std _ t a off => some (0x3A#7, t ++ a ++ off)
  | .amoSwapW _ t a => some (0x3B#7, t ++ a ++ 1#11)
  | .amoAddW _ t a => some (0x3B#7, t ++ a ++ 2#11)
  | .amoAndW _ t a => some (0x3B#7, t ++ a ++ 3#11)
  | .amoOrW _ t a => some (0x3B#7, t ++ a ++ 4#11)
  | .amoXorW _ t a => some (0x3B#7, t ++ a ++ 5#11)
  | .amoMinW _ t a => some (0x3B#7, t ++ a ++ 6#11)
  | .amoMaxW _ t a => some (0x3B#7, t ++ a ++ 7#11)
  | .amoMinuW _ t a => some (0x3B#7, t ++ a ++ 8#11)
  | .amoMaxuW _ t a => some (0x3B#7, t ++ a ++ 9#11)
  | .amoCasW _ t a => some (0x3B#7, t ++ a ++ 10#11)
  | .amoSwapD _ t a => some (0x3B#7, t ++ a ++ 33#11)
  | .amoAddD _ t a => some (0x3B#7, t ++ a ++ 34#11)
  | .amoAndD _ t a => some (0x3B#7, t ++ a ++ 35#11)
  | .amoOrD _ t a => some (0x3B#7, t ++ a ++ 36#11)
  | .amoXorD _ t a => some (0x3B#7, t ++ a ++ 37#11)
  | .amoMinD _ t a => some (0x3B#7, t ++ a ++ 38#11)
  | .amoMaxD _ t a => some (0x3B#7, t ++ a ++ 39#11)
  | .amoMinuD _ t a => some (0x3B#7, t ++ a ++ 40#11)
  | .amoMaxuD _ t a => some (0x3B#7, t ++ a ++ 41#11)
  | .amoCasD _ t a => some (0x3B#7, t ++ a ++ 42#11)
  | .vpass _ d a b => some (0x40#7, d ++ a ++ b ++ 0#6)
  | .vpassr _ d a b => some (0x41#7, d ++ a ++ b ++ 0#6)
  | .wait _ ld st cp tl => some (0x70#7, 0#1 ++ ld ++ st ++ cp ++ tl)
  | .waitAll _ ld st cp tl => some (0x70#7, 1#1 ++ ld ++ st ++ cp ++ tl)
  | .nop _ => some (0x71#7, 0#21)
  | .endProg _ => some (0x7E#7, 0#21)
  | .tret _ => some (0x7F#7, 0#21)
  | .shapeReq _ d f => some (0x42#7, d ++ 0#15 ++ f)
  | .shapeRel _ => some (0x43#7, 0#21)
  | .cfgLd _ d a imm => some (0x48#7, d ++ a ++ imm)
  | .cfgPre _ d a imm => some (0x49#7, d ++ a ++ imm)
  | .cfgGo _ d id => some (0x4A#7, d ++ id)
  | .cfgWait _ d => some (0x4B#7, d ++ 0#16)
  | .cfgStop _ => some (0x4C#7, 0#21)
  | .cfgDrop _ s => some (0x4D#7, 0#20 ++ s)
  | .parmWr _ tile a b => some (0x4E#7, 0#1 ++ tile ++ a ++ b ++ 0#6)
  | .cfgStat _ d => some (0x4F#7, d ++ 0#16)
  | .sqSend _ a ty => some (0x50#7, 0#5 ++ a ++ 0#2 ++ ty ++ 0#6)
  | .sqSendX2 _ a ty => some (0x50#7, 1#5 ++ a ++ 0#2 ++ ty ++ 0#6)
  | .sqSendEoi _ => some (0x50#7, 131072#21)
  | .sqSendEos _ => some (0x50#7, 196608#21)
  | .sqRecv _ d => some (0x51#7, d ++ 0#16)
  | .leaseBar _ id => some (0x52#7, 0#5 ++ id)
  | .achOpen _ d a b => some (0x58#7, d ++ a ++ b ++ 0#6)
  | .achJoin _ d a b => some (0x59#7, d ++ a ++ b ++ 0#6)
  | .achWait _ d cid => some (0x5A#7, d ++ 0#12 ++ cid)
  | .achWaitJ _ d slot => some (0x5A#7, d ++ 1#12 ++ slot)
  | .achClose _ cid => some (0x5B#7, 0#17 ++ cid)
  | .achCloseJ _ slot => some (0x5B#7, 1#17 ++ slot)
  | .achAbort _ cid => some (0x5C#7, 0#17 ++ cid)
  | .achStat _ d cid => some (0x5D#7, d ++ 0#12 ++ cid)
  | .achStatJ _ d slot => some (0x5D#7, d ++ 1#12 ++ slot)
  | .cqSub _ d a b => some (0x60#7, d ++ a ++ b ++ 0#6)
  | .cqKick _ a b => some (0x61#7, 0#5 ++ a ++ b ++ 0#6)
  | .cntAdd _ d a b => some (0x62#7, d ++ a ++ b ++ 0#6)
  | .cntWait _ d a b => some (0x63#7, d ++ a ++ b ++ 0#6)
  | .cntRd _ d a => some (0x64#7, d ++ a ++ 0#11)
  | .taskArm _ d => some (0x65#7, d ++ 0#16)
  | .taskKill _ d => some (0x66#7, d ++ 0#16)
  | .taskStat _ d => some (0x67#7, d ++ 0#16)
  | .bankMode _ d a rsz mode k => some (0x68#7, d ++ a ++ rsz ++ mode ++ k)
  | .resOpen _ d a b => some (0x69#7, d ++ a ++ b ++ 1#6)
  | .resPrio _ a b => some (0x69#7, 0#5 ++ a ++ b ++ 2#6)
  | .resDrop _ a => some (0x69#7, 0#5 ++ a ++ 3#11)
  | .amdSwapW _ d a b => some (0x6A#7, d ++ a ++ b ++ 1#6)
  | .amdAddW _ d a b => some (0x6A#7, d ++ a ++ b ++ 2#6)
  | .amdAndW _ d a b => some (0x6A#7, d ++ a ++ b ++ 3#6)
  | .amdOrW _ d a b => some (0x6A#7, d ++ a ++ b ++ 4#6)
  | .amdXorW _ d a b => some (0x6A#7, d ++ a ++ b ++ 5#6)
  | .amdMinW _ d a b => some (0x6A#7, d ++ a ++ b ++ 6#6)
  | .amdMaxW _ d a b => some (0x6A#7, d ++ a ++ b ++ 7#6)
  | .amdMinuW _ d a b => some (0x6A#7, d ++ a ++ b ++ 8#6)
  | .amdMaxuW _ d a b => some (0x6A#7, d ++ a ++ b ++ 9#6)
  | .amdCasW _ d a b => some (0x6A#7, d ++ a ++ b ++ 10#6)
  | .amdSwapD _ d a b => some (0x6A#7, d ++ a ++ b ++ 33#6)
  | .amdAddD _ d a b => some (0x6A#7, d ++ a ++ b ++ 34#6)
  | .amdAndD _ d a b => some (0x6A#7, d ++ a ++ b ++ 35#6)
  | .amdOrD _ d a b => some (0x6A#7, d ++ a ++ b ++ 36#6)
  | .amdXorD _ d a b => some (0x6A#7, d ++ a ++ b ++ 37#6)
  | .amdMinD _ d a b => some (0x6A#7, d ++ a ++ b ++ 38#6)
  | .amdMaxD _ d a b => some (0x6A#7, d ++ a ++ b ++ 39#6)
  | .amdMinuD _ d a b => some (0x6A#7, d ++ a ++ b ++ 40#6)
  | .amdMaxuD _ d a b => some (0x6A#7, d ++ a ++ b ++ 41#6)
  | .amdCasD _ d a b => some (0x6A#7, d ++ a ++ b ++ 42#6)
  | .amdAfadd _ d a b => some (0x6A#7, d ++ a ++ b ++ 43#6)
  | .fence _ scope => some (0x6B#7, 0#18 ++ scope)
  | .barArr _ d a => some (0x6C#7, d ++ a ++ 1#11)
  | .barWait _ d a b => some (0x6C#7, d ++ a ++ b ++ 2#6)
  | .ringHead _ d a => some (0x6D#7, d ++ a ++ 1#11)
  | .ringTail _ d a => some (0x6D#7, d ++ a ++ 2#11)
  | .ringReset _ d a => some (0x6D#7, d ++ a ++ 3#11)
  | .tlbInva _ a b => some (0x6E#7, 0#5 ++ a ++ b ++ 1#6)
  | .tlbInvs _ a => some (0x6E#7, 0#5 ++ a ++ 2#11)
  | .tlbInvall _ => some (0x6E#7, 3#21)
  | .handStk _ a b => some (0x6F#7, 0#5 ++ a ++ b ++ 0#6)
  | .trap _ code => some (0x72#7, 0#5 ++ code)
  | .yield _ => some (0x73#7, 0#21)
  | .mgr _ d reg => some (0x74#7, d ++ reg)
  | .mgw _ d reg => some (0x75#7, d ++ reg)
  | _ => none

/-- The guard of a control word; an internal step is unguarded. -/
def Instr.guard : Instr → Guard
  | .add g _ _ _ => g
  | .sub g _ _ _ => g
  | .and g _ _ _ => g
  | .or g _ _ _ => g
  | .xor g _ _ _ => g
  | .andn g _ _ _ => g
  | .orn g _ _ _ => g
  | .shl g _ _ _ => g
  | .shr g _ _ _ => g
  | .sra g _ _ _ => g
  | .rol g _ _ _ => g
  | .ror g _ _ _ => g
  | .mul g _ _ _ => g
  | .mulh g _ _ _ => g
  | .mulhu g _ _ _ => g
  | .div g _ _ _ => g
  | .divu g _ _ _ => g
  | .rem g _ _ _ => g
  | .remu g _ _ _ => g
  | .min g _ _ _ => g
  | .max g _ _ _ => g
  | .minu g _ _ _ => g
  | .maxu g _ _ _ => g
  | .addw g _ _ _ => g
  | .subw g _ _ _ => g
  | .mulw g _ _ _ => g
  | .clz g _ _ => g
  | .ctz g _ _ => g
  | .popc g _ _ => g
  | .addi g _ _ _ => g
  | .andi g _ _ _ => g
  | .ori g _ _ _ => g
  | .xori g _ _ _ => g
  | .shli g _ _ _ => g
  | .shri g _ _ _ => g
  | .srai g _ _ _ => g
  | .muli g _ _ _ => g
  | .addwi g _ _ _ => g
  | .movi g _ _ => g
  | .movz g _ _ => g
  | .movk16 g _ _ => g
  | .movk32 g _ _ => g
  | .movk48 g _ _ => g
  | .srrd g _ _ => g
  | .srwr g _ _ => g
  | .flgrd g _ => g
  | .br g _ => g
  | .call g _ => g
  | .jalr g _ _ _ => g
  | .beq g _ _ _ => g
  | .bne g _ _ _ => g
  | .blt g _ _ _ => g
  | .bge g _ _ _ => g
  | .bltu g _ _ _ => g
  | .bgeu g _ _ _ => g
  | .cmpEq g _ _ _ => g
  | .cmpNe g _ _ _ => g
  | .cmpLt g _ _ _ => g
  | .cmpGe g _ _ _ => g
  | .cmpLtu g _ _ _ => g
  | .cmpGeu g _ _ _ => g
  | .cmpTst g _ _ _ => g
  | .cmpiEq g _ _ _ => g
  | .cmpiLt g _ _ _ => g
  | .cmpiLtu g _ _ _ => g
  | .pand g _ _ _ => g
  | .por g _ _ _ => g
  | .pxor g _ _ _ => g
  | .pandn g _ _ _ => g
  | .pnot g _ _ => g
  | .pmov g _ _ => g
  | .pget g _ => g
  | .pput g _ => g
  | .ldb g _ _ _ => g
  | .ldbs g _ _ _ => g
  | .ldh g _ _ _ => g
  | .ldhs g _ _ _ => g
  | .ldw g _ _ _ => g
  | .ldws g _ _ _ => g
  | .ldd g _ _ _ => g
  | .stb g _ _ _ => g
  | .sth g _ _ _ => g
  | .stw g _ _ _ => g
  | .std g _ _ _ => g
  | .amoSwapW g _ _ => g
  | .amoAddW g _ _ => g
  | .amoAndW g _ _ => g
  | .amoOrW g _ _ => g
  | .amoXorW g _ _ => g
  | .amoMinW g _ _ => g
  | .amoMaxW g _ _ => g
  | .amoMinuW g _ _ => g
  | .amoMaxuW g _ _ => g
  | .amoCasW g _ _ => g
  | .amoSwapD g _ _ => g
  | .amoAddD g _ _ => g
  | .amoAndD g _ _ => g
  | .amoOrD g _ _ => g
  | .amoXorD g _ _ => g
  | .amoMinD g _ _ => g
  | .amoMaxD g _ _ => g
  | .amoMinuD g _ _ => g
  | .amoMaxuD g _ _ => g
  | .amoCasD g _ _ => g
  | .vpass g _ _ _ => g
  | .vpassr g _ _ _ => g
  | .wait g _ _ _ _ => g
  | .waitAll g _ _ _ _ => g
  | .nop g => g
  | .endProg g => g
  | .tret g => g
  | .shapeReq g _ _ => g
  | .shapeRel g => g
  | .cfgLd g _ _ _ => g
  | .cfgPre g _ _ _ => g
  | .cfgGo g _ _ => g
  | .cfgWait g _ => g
  | .cfgStop g => g
  | .cfgDrop g _ => g
  | .parmWr g _ _ _ => g
  | .cfgStat g _ => g
  | .sqSend g _ _ => g
  | .sqSendX2 g _ _ => g
  | .sqSendEoi g => g
  | .sqSendEos g => g
  | .sqRecv g _ => g
  | .leaseBar g _ => g
  | .achOpen g _ _ _ => g
  | .achJoin g _ _ _ => g
  | .achWait g _ _ => g
  | .achWaitJ g _ _ => g
  | .achClose g _ => g
  | .achCloseJ g _ => g
  | .achAbort g _ => g
  | .achStat g _ _ => g
  | .achStatJ g _ _ => g
  | .cqSub g _ _ _ => g
  | .cqKick g _ _ => g
  | .cntAdd g _ _ _ => g
  | .cntWait g _ _ _ => g
  | .cntRd g _ _ => g
  | .taskArm g _ => g
  | .taskKill g _ => g
  | .taskStat g _ => g
  | .bankMode g _ _ _ _ _ => g
  | .resOpen g _ _ _ => g
  | .resPrio g _ _ => g
  | .resDrop g _ => g
  | .amdSwapW g _ _ _ => g
  | .amdAddW g _ _ _ => g
  | .amdAndW g _ _ _ => g
  | .amdOrW g _ _ _ => g
  | .amdXorW g _ _ _ => g
  | .amdMinW g _ _ _ => g
  | .amdMaxW g _ _ _ => g
  | .amdMinuW g _ _ _ => g
  | .amdMaxuW g _ _ _ => g
  | .amdCasW g _ _ _ => g
  | .amdSwapD g _ _ _ => g
  | .amdAddD g _ _ _ => g
  | .amdAndD g _ _ _ => g
  | .amdOrD g _ _ _ => g
  | .amdXorD g _ _ _ => g
  | .amdMinD g _ _ _ => g
  | .amdMaxD g _ _ _ => g
  | .amdMinuD g _ _ _ => g
  | .amdMaxuD g _ _ _ => g
  | .amdCasD g _ _ _ => g
  | .amdAfadd g _ _ _ => g
  | .fence g _ => g
  | .barArr g _ _ => g
  | .barWait g _ _ _ => g
  | .ringHead g _ _ => g
  | .ringTail g _ _ => g
  | .ringReset g _ _ => g
  | .tlbInva g _ _ => g
  | .tlbInvs g _ => g
  | .tlbInvall g => g
  | .handStk g _ _ => g
  | .trap g _ => g
  | .yield g => g
  | .mgr g _ _ => g
  | .mgw g _ _ => g
  | _ => ⟨0#3, 0#1⟩

/-- The control word of an operation (R54). -/
def encode (i : Instr) : Option (BitVec 32) := (i.fields).map fun p => word i.guard p.1 p.2

/-- The word of a control operation, 0 for an internal step. -/
def encodeWord (i : Instr) : BitVec 32 := (encode i).getD 0#32

/-- The four little-endian bytes of a control word as the instruction store holds them (R5, R54). -/
def wordBytes (w : BitVec 32) : List (BitVec 8) :=
  [w.extractLsb' 0 8, w.extractLsb' 8 8, w.extractLsb' 16 8, w.extractLsb' 24 8]

/-- The control word that four bytes of the instruction store make (R5, R54). -/
def bytesWord : List (BitVec 8) → BitVec 32
  | [b0, b1, b2, b3] => b3 ++ b2 ++ b1 ++ b0
  | _ => 0#32

/-- The operation read from an instruction whose bits are `w`, the first word's bit 0 least (every control word is 32 bits). -/
def decodeTableWord (nbits w : Nat) : Option Instr :=
  if nbits ≤ 32 then
    match decodeWord (bytesWord (wordBytes (BitVec.ofNat 32 (w % 2 ^ nbits)))) with
    | .ok i => some i
    | .error _ => none
  else none

end Sys2Proof
end

