-- ==== Sys2Proof/Config.lean ====
section
/-! DEFINITION. What the manual leaves to the part: free values. None has a body, so nothing can be proved of its value; each is
named in a log entry. The counter they are applied to stands in the state. -/

namespace Sys2Proof.Config

/-- Fused silicon revision of DEVID (R461). -/
opaque rev : BitVec 8

/-- A byte the manual calls unspecified: which use, which address (R283, R332, R427, R436, R460). -/
opaque unspecByte : Nat → Nat → BitVec 8

/-- The value an approximate function of fp32 returns, where it lies within the bounds of Table 7 (R182). -/
opaque approx : Nat → BitVec 32 → BitVec 32

/-- The block size exponent, 0 to 3, that the near cache's predictor chooses (R260). -/
opaque nearBlock : Nat → Nat

/-- How many K-groups of a stopped command had finished (R225). -/
opaque kGroups : Nat → Nat

/-- How many bytes of a packet that faults have been written: any subset, here chosen byte by byte (R332). -/
opaque wrote : Nat → Bool

/-- What becomes of a request to another package: an answer, a refusal or no answer (R428, R446). -/
opaque peerAnswer : Nat → Nat

/-- Bytes that the security processor makes: a signature, a key share, an answer that the spec does not describe (R437). -/
opaque spdmBytes : Nat → List (BitVec 8)

/-- The certificate chain of slot 0, set at manufacture (R437). -/
opaque certChain : List (BitVec 8)

/-- What boot measures besides firmware: the boot ROM, and the fuses with the security configuration (R437, R460). -/
opaque bootRom : List (BitVec 8)
/-- The fuses and the security configuration (R437, R460). -/
opaque fuseBytes : List (BitVec 8)

/-- The energy of an event, by kind, and of an interval's idle time, both in one unit (R382). -/
opaque eventEnergy : Nat → Nat
/-- The weight of an interval's idle share (R382). -/
opaque idleEnergy : Nat

/-- The configuration space of a VF that the host reads and that the frozen digest covers, at reset (R441, R456). -/
opaque vfConfig : Nat → Nat → BitVec 8

/-- The address that HW_ERROR and event 4 name for a message without an address of its own, and for a failed link (R405, R408, R409). -/
opaque hwAddr : Nat → BitVec 64

/-- The register that stands at an offset of a VF's BAR0, among those that R431 gives it. -/
opaque vfReg : Nat → Nat → Nat

/-- Offset of function 0's MSI-X table in its BAR0, and of its pending bits (R431). -/
opaque pfMsix : Nat
/-- Offset of function 0's MSI-X pending bits in its BAR0 (R431). -/
opaque pfPba : Nat

/-- Offset of the MSI-X capability in a VF's configuration space (R456). -/
opaque msixCap : Nat → Nat

/-- Base addresses that the host has given the VF BARs 0 and 2 (R442). -/
opaque vfBar : Nat → Nat

end Sys2Proof.Config
end

