-- ==== Sys2Proof/Machine/State.lean ====
section
/-! DEFINITION. The state of the package as plain data: contexts, cores, dies, device memory, and the engines of the hub die. Each structure
names the rules that give its fields. -/

namespace Sys2Proof.Machine

/-- Bytes by address, in the canonical form of Ops.lean: addresses rising, no byte 0. -/
abbrev Mem := List Host.Cell

/-- A table with rising keys. A key that is not listed has the default of its kind. -/
abbrev Map (α : Type) := List (Nat × α)

/-! ### One context (R12 to R18, R29 to R33) -/

/-- The states of R18 Table 4. GATED is the overlay of Ctx.gated (R391). -/
inductive CState | empty | ready | waiting | stopped
  deriving DecidableEq, Repr

/-- A trap to be taken: class, TRAPV and DETAIL (R29, R30). TRAPA is the IPC at which it is taken. -/
structure Trap where
  cls : BitVec 8
  val : W64
  detail : BitVec 16
  deriving DecidableEq, Repr

/-- The operations of the atomics (R86, R302). -/
inductive AmoOp | swap | add | and | or | xor | min | max | minu | maxu | cas
  deriving DecidableEq, Repr

/-- What an outstanding load, store or atomic does when it completes (R84 to R87, R295). dev waits for a device response. -/
inductive OpBody
  | load (addr size : Nat) (signed : Bool)
  | store (addr size : Nat) (val : W64)
  | amo (op : AmoOp) (size addr : Nat) (v x : W64)
  | dev (req : Nat)
  deriving DecidableEq, Repr

/-- An operation counted in CNT.LD or, for isStore, CNT.ST (R17, R69). dst is the register written at completion; ipc the address of its word; res
what its bank access has read, once the operation can no longer trap (R21). -/
structure MemOp where
  id : Nat
  isStore : Bool
  dst : BitVec 5
  body : OpBody
  done : Bool
  ipc : BitVec 16
  res : Option W64
  deriving DecidableEq, Repr

/-- An operation counted in CNT.TL: a pass chain, or a CFG.PRE (R17, R190). -/
structure TlOp where
  id : Nat
  pre : Bool
  done : Bool
  deriving DecidableEq, Repr

/-- A local packet counted in CNT.CP, by its place in the count (R330, R331). -/
structure CpOp where
  seq : Nat
  done : Bool
  deriving DecidableEq, Repr

/-- A fault to be raised at the first covering WAIT or END (R27, R332): its class of operation and its place in issue order. -/
structure CovFault where
  copy : Bool
  seq : Nat
  trap : Trap
  deriving DecidableEq, Repr

/-- The bank modes of R256. -/
inductive BankMode | spad | cache | fifo | free
  deriving DecidableEq, Repr

/-- A channel queue (R263): ring base and size, head, tail, bank part, the spilled elements not yet written to the ring and those written to it, each with
the physical address of its place in the ring, and the tail up to which the contents are unspecified because another agent has written ring bytes (R264). -/
structure ChanQ where
  rb : Nat
  rs : Nat
  h : Nat
  t : Nat
  part : List W32
  held : List (W32 × Option Nat)
  ring : List (W32 × Option Nat)
  lost : Nat
  deriving DecidableEq, Repr

/-- A bank of a context's budget (R12, R256, R258). -/
structure BudBank where
  bank : Nat
  mode : BankMode
  zeroing : Bool
  q : ChanQ
  deriving DecidableEq, Repr

/-- A block of the near cache (R259): its address, and its bytes as they were read. -/
structure NearBlk where
  pa : Nat
  bytes : List Byte
  deriving DecidableEq, Repr

/-- A slot of the join table (R228, R234 to R236, R249). st is 0 free, 4 bound, 5 aborted, 6 refused; key names the join that bound it, as
16 × its number + slot; gone: refused because its sink is absent (R252). -/
structure JoinSlot where
  key : Nat
  st : Nat
  handle : W64
  pos : Nat
  w : Nat
  len : Nat
  anchored : Bool
  credits : Nat
  sent : Nat
  out : Nat
  next : Nat
  gone : Bool
  deriving DecidableEq, Repr

/-- A transfer notice (R338): the MCAST packet that sent it, its sender with tenant, ASID and position, tag, length and source. gone: its sender
has been destroyed. -/
structure Kick where
  pkt : Nat
  fr : CtxId
  ten : Nat
  asid : Nat
  lx : Nat
  ly : Nat
  tag : Nat
  len : Nat
  src : W64
  gone : Bool
  deriving DecidableEq, Repr

/-- What a WAITING context waits for (R18); each is one row of a Waits column (R188, R243, R295, R347). -/
inductive Wait
  | counts (all : Bool) (ld st cp tl : Nat)
  | endProg
  | shape (d : BitVec 5)
  | shapeRel
  | cfgLd (d : BitVec 5) (base : W64)
  | cfgGo (d : BitVec 5) (id : Nat)
  | cfgWait (d : BitVec 5)
  | sqRecv (d : BitVec 5)
  | leaseBar (id : Nat)
  | achJoin (d : BitVec 5) (reply : Option (Option Trap × Nat))
  | achWait (d : BitVec 5) (cid : Nat)
  | achWaitJ (d : BitVec 5) (slot : Nat)
  | bankMode (d : BitVec 5) (k : Nat) (mode : BankMode) (rb rs : Nat)
  | fence (scope : Nat)
  | cntMem (d : BitVec 5) (va : Nat) (target : W64) (value : Option W64)
  | cntSpad (d : BitVec 5) (addr : Nat) (target : W64)
  | barrier (d : BitVec 5) (va pa : Nat) (req : Option Nat) (status : Option Bool)
  | tlb (sel : Nat) (asid : Nat) (va : Nat) (page : Nat × Nat)
  | cqSub (d : BitVec 5) (claim : Option Nat)
  | task (d : BitVec 5) (kill : Bool)
  | mgw (n : Nat) (v : W64)
  | handStk (stack die : Nat)
  deriving DecidableEq, Repr

/-! ### The fabric load of a context on a core (R100 to R134, R152 to R181) -/

/-- The states of a configuration slot (R185 Table 1). -/
inductive SlotSt | empty | loading | ready | running | ended
  deriving DecidableEq, Repr

/-- A configuration slot (R185): state, id, checksum, the core's section of the image by offset, and the words with a double-bit error (R136). -/
structure Slot where
  st : SlotSt
  id : Nat
  crc : W32
  sect : Mem
  endSt : Nat
  bad : List Nat
  deriving DecidableEq, Repr

/-- An entry of a queue partition: an element, with the end of its packet marked, or a marker (1 EOI, 2 EOS). -/
inductive QItem
  | el (v : W32) (last : Bool)
  | marker (k : Nat)
  deriving DecidableEq, Repr

/-- A queue partition or a ring port's store (R107, R109): entries, credits freed and not yet demanded, EOS received, EOS passed, and the type of
the last packet (R227). -/
structure Part where
  items : List QItem
  owed : Nat
  eosIn : Bool
  eosOut : Bool
  ty : Nat
  deriving DecidableEq, Repr

/-- A packet (R104, R113): elements or a marker, TYPE, TEN, and whether its source is an x1 port (R112). -/
structure Packet where
  els : List W32
  mark : Nat
  ty : Nat
  ten : Nat
  x1 : Bool
  deriving DecidableEq, Repr

/-- Where a branch of a route ends within the core: a queue, a ring port, or a cross-core link (side 0 N, 1 E, 2 S, 3 W). -/
inductive BrEnd
  | queue (n q : Nat)
  | port (p : Nat)
  | exit (side pos : Nat)
  deriving DecidableEq, Repr

/-- A branch (R111, R112): its demand so far, packets and demand messages in flight, the lane rule's index and unsent demands, and whether the last
packet that it carried over a link was one of elements (R377). -/
structure Branch where
  dst : BrEnd
  lane : Nat
  cut : Bool
  cum : Nat
  fly : List Packet
  rev : List Nat
  skip : Nat
  skipOwed : Nat
  mid : Bool
  deriving DecidableEq, Repr

/-- What drives the part of a route within one core: a producer, or a cross-core link. -/
inductive SegSrc
  | unit (s : Source)
  | link (side pos : Nat)
  deriving DecidableEq, Repr

/-- The part of a route within one core: packets entered, demand forwarded upstream by a link, the relay store at a seam (R417), EOS closed. -/
structure Seg where
  src : SegSrc
  branches : List Branch
  closed : Nat
  fwd : Nat
  relay : Option (List Packet)
  relayOwed : Nat
  eos : Bool
  deriving DecidableEq, Repr

/-- A started access of a memory cell (R173, R175): operation, address, operand; suppressed by a false guard; whether it has faulted and
waits for the release of the hold (R390); the value of an access that has taken effect while the load is fault-held (R173). -/
structure CellAcc where
  op : Nat
  addr : Nat
  val : W32
  skip : Bool
  failed : Bool
  res : Option W32
  deriving DecidableEq, Repr

/-- A cell of a running load (R156): word, partitions, packers, st, aux index, held tokens, started accesses, and the request or block of SPAWN,
CPY and ACPUT. -/
structure Cell where
  word : W32
  q : List Part
  pk : List W32
  apk : List W32
  held : List W32
  st : W32
  idx : Nat
  acc : List CellAcc
  buf : List W32
  blk : Nat
  go : Bool
  busy : Option Nat
  waitBlk : List (Nat × List W32)
  lastIns : Bool
  done : Bool
  deriving DecidableEq, Repr

/-- An address-generator tile (R125 to R128, R286): the record with applied parameters, the tile index, whether a tile runs, its element
position, packer, stores of its ports, PARM.WR tokens, the device requests of a DM tile, and the pages that its tile has translated: base, size,
physical base. -/
structure Tile where
  base : Nat
  ext : List Nat
  str : List Int
  ctrl : W64
  i3 : Nat
  running : Bool
  pos : Nat
  pk : List W32
  inp : Part
  par : Part
  parm : List (W32 × W32)
  dm : List (Nat × Option W32)
  pages : List (Nat × Nat × Nat)
  done : Bool
  deriving DecidableEq, Repr

/-- A ring port other than a tile's (R124): store, packer with its type and the cycle in which the sequencer filled it last (R201), completion tokens
waiting, EOS passed or closed. -/
structure Port where
  part : Part
  pk : List W32
  pkTy : Nat
  pkAt : Nat
  toks : List W32
  eos : Bool
  deriving DecidableEq, Repr

/-- The fabric load (R131, R187): start cycle, control bits, units, routes, the fault hold of R390, a stop at a cycle with its status (R192, R194),
and refused blocks that are to be sent again: slot, unit, block, elements (R251, R390). -/
structure Fab where
  start : Nat
  cb : List Nat
  cells : Map Cell
  tiles : Map Tile
  ports : Map Port
  segs : List Seg
  held : Bool
  stopAt : Option (Nat × Nat)
  stopped : Bool
  again : List (Nat × Nat × Nat × List W32)
  deriving DecidableEq, Repr

/-! ### The matrix node's state for a context (R213) -/

/-- A table set: the two codebooks as loaded, and the loaded bit. The product table is a function of the codebooks (R217). -/
structure MnTab where
  loaded : Bool
  a : List Byte
  b : List Byte
  deriving DecidableEq, Repr

/-- Resident vectors of MV: K, the operand type, and the vectors' elements (R216). -/
structure MnVecs where
  k : Nat
  ty : Nat
  rows : List (List Nat)
  deriving DecidableEq, Repr

/-- An accepted command (R207, R213): token and addresses, whether it has started, its position, whether it has issued its last K-step, the flags
it has raised, the rows gathered, the loaded bit of the table set before the acceptance of a TLOAD (R217), whether it has faulted and waits for the
release of the hold (R390), the elements that a DRAIN or ACSEND has read and not yet sent, with the EOI still to be closed (R219, R220), and the
elements of A and B that the K-steps of the group under way have read (R214). -/
structure MnCmd where
  tok : W64
  x : Nat
  y : Nat
  started : Bool
  pos : Nat
  ended : Bool
  flags : W32
  rows : List (List Nat)
  undo : Option Bool
  failed : Bool
  buf : List W32
  eoi : Bool
  got : List (List Nat × List Nat)
  deriving DecidableEq, Repr

/-- The node's state for a context: accumulators by (128 × AS + row) × 128 + column, absent entries +0; table sets; vectors; commands. -/
structure Mn where
  acc : Map W32
  tabs : List MnTab
  vecs : Option MnVecs
  cmds : List MnCmd
  deriving DecidableEq, Repr

/-- The node's state at a grant (R198, R213). -/
def Mn.blank : Mn := { acc := [], tabs := [⟨false, [], []⟩, ⟨false, [], []⟩], vecs := none, cmds := [] }

/-- One context bank (R12). -/
structure Ctx where
  st : CState
  gated : Bool
  gsrc : BitVec 4
  g : Vector W64 32
  p : BitVec 8
  ipc : BitVec 16
  lx : BitVec 5
  ly : BitVec 4
  lw : BitVec 5
  lh : BitVec 5
  ten : BitVec 6
  asid : BitVec 11
  shape : W64
  trapc : W64
  trapv : W64
  trapa : BitVec 16
  /-- stop record: class and address (R30, R410) -/
  stop : BitVec 8 × BitVec 16
  flags : W32
  /-- the cycle in which flags were set last, the flag word before it, and the flags set in it (R45) -/
  flagNew : Option (Nat × W32 × W32)
  istore : Mem
  ilen : Nat
  /-- instruction-store words with a double-bit error, by byte offset (R24, R404) -/
  ipoison : List Nat
  banks : List BudBank
  ops : List MemOp
  opN : Nat
  tlq : List TlOp
  tlN : Nat
  cpq : List CpOp
  cpN : Nat
  cov : List CovFault
  wait : Option Wait
  raised : List Trap
  weight : Nat
  credit : Nat
  skip : Bool
  yielded : Bool
  lease : Nat
  near : List NearBlk
  joins : List JoinSlot
  /-- ACH.JOINs made; address and id of an ACH.WAIT that a trap has interrupted (R246) -/
  joinN : Nat
  achInt : Option (BitVec 16 × Nat)
  kicks : List Kick
  lsn : BitVec 30
  rso : Nat
  /-- current and next slot (R185, R186), whether the current slot has run (R193), MISS and the packets held (R204) -/
  cur : Slot
  nxt : Slot
  ran : Bool
  miss : Bool
  missed : List (BrEnd × Packet)
  fab : Fab
  mn : Mn
  /-- deterministic mode (R443) -/
  det : Bool
  /-- the first cycle in which the context may issue after a wait (R18) -/
  wake : Nat
  /-- gate sources requested and not yet in effect, and the cycle of the request (R391, R393) -/
  gateReq : BitVec 4
  gateAt : Nat
  /-- a destruction that waits for the gate (R394); firing enable set in the drain of a relocation (R377) -/
  doom : Bool
  drain : Bool
  /-- a release commanded by CTXC that waits for the last accesses of a STOPPED context (R412) -/
  leaving : Bool
  deriving DecidableEq, Repr

/-! ### One core -/

/-- A pass-unit chain (R26, R90 to R98): operands as snapped, and its progress: the repetition under way, the elements of it read, their results not
yet written, the flags raised, and the error that stopped it (R27). -/
structure Chain where
  ctx : CtxId
  id : Nat
  desc : BitVec 512
  dst : Nat
  n : Nat
  reps : Nat
  strided : Bool
  started : Bool
  rep : Nat
  next : Nat
  hold : Map W32
  flags : W32
  err : Option Trap
  deriving DecidableEq, Repr

/-- A cached translation (R291): page base, size, physical base, permissions and level of its leaf. -/
structure TlbEnt where
  asid : Nat
  va : Nat
  size : Nat
  pa : Nat
  rd : Bool
  wr : Bool
  lvl : Nat
  deriving DecidableEq, Repr

/-- A block of an accumulate chain, staged or in a message (R229, R232, R237), with the join of its slot and, once staged, its place in its position's
window (R230). -/
structure AcnBlock where
  src : CtxId
  key : Nat
  unit : Nat
  ten : Nat
  sink : Nat × Nat
  cid : Nat
  pos : Nat
  blk : Nat
  els : List W32
  room : Nat
  deriving DecidableEq, Repr

/-- A chain id of a core's sink table (R228 to R231, R240, R244). st is 1 OPEN, 2 COMPLETE, 3 being finalised; joined are positions with context
and key. -/
structure SinkChain where
  ctx : CtxId
  st : Nat
  param : W64
  base : Nat
  cnt : Nat
  far : Bool
  added : Nat
  flags : BitVec 8
  joined : List (Nat × CtxId × Nat)
  staged : List AcnBlock
  next : List (Nat × Nat)
  deriving DecidableEq, Repr

/-- A message of the accumulate network in flight (R232). -/
inductive AcnBody
  | data (b : AcnBlock)
  | credit (c : CtxId) (key : Nat)
  | joinReq (c : CtxId) (d : BitVec 5) (handle : W64) (pos key : Nat)
  | joinRep (c : CtxId) (key : Nat) (fail : Option Trap) (w len : Nat) (anchored : Bool) (handle : W64) (pos : Nat)
  | abort (c : CtxId) (key : Nat)
  | refusal (c : CtxId) (key unit cause : Nat) (b : AcnBlock)
  deriving DecidableEq, Repr

/-- A message with its route: sending core, receiving core, lease (R233). -/
structure AcnMsg where
  lid : Nat
  fr : CoreId
  dest : CoreId
  body : AcnBody
  deriving DecidableEq, Repr

/-- Where a packet comes from (R328, R355): a local submission, of a cell, of ce.cmd, or of an instruction; a queue's slot; a walker's push. -/
inductive PSrc
  | local (cell : Option (Option Nat))
  | queue (q idx : Nat)
  | task (q idx asid va : Nat)
  deriving DecidableEq, Repr

/-- The fault of a packet, a push or a queue (R332, R345, R358): class, cause within the class, the trap's DETAIL, address word. -/
structure PFault where
  cls : Nat
  cause : Nat
  detail : Nat
  addr : W64
  deriving DecidableEq, Repr

/-- A place that a copy engine reads bytes from or writes them to: a scratchpad, this package's device memory, or another package's. -/
inductive Place
  | spad (a : Nat)
  | mem (pa : Nat)
  | far (pa : Nat)
  deriving DecidableEq, Repr

/-- An element of a packet's work that has been read: its place, its bytes, and whether they have been written (R329, R336). -/
structure CeDone where
  src : Option Place
  bs : List Byte
  done : Bool
  deriving DecidableEq, Repr

/-- A packet of a copy engine (R328 to R342). stage is 0 taken in, 1 started, 2 its accesses done, 3 an MCAST whose notices are out, 4 suppressed
by a CPY guard, 5 with its release event and counter add made (R330). acks are the receivers of an MCAST that have not acknowledged; pages those that it
has written; since the cycle in which it started; got the elements of its work that have been read; index the indices of its rows with their places (R337). -/
structure Pkt where
  num : Nat
  src : PSrc
  ctx : CtxId
  lsn : Nat
  seq : Nat
  body : List Byte
  stage : Nat
  fault : Option PFault
  notice : Option Kick
  acks : List CtxId
  pages : List Nat
  since : Nat
  got : Map CeDone
  index : Option (List (Option W32) × List (Nat × Place))
  deriving DecidableEq, Repr

/-- A command of the fabric that waits at a copy engine: context, CPY cell or the ce.cmd port, cycle of arrival (R180). -/
structure CeCmd where
  ctx : CtxId
  cell : Option Nat
  time : Nat
  deriving DecidableEq, Repr

/-- A local submission that waits for the engine's intake (R331, R348): context, LSN, place in CNT.CP, packet. -/
structure Sub where
  ctx : CtxId
  lsn : Nat
  seq : Nat
  body : List Byte
  deriving DecidableEq, Repr

/-- A link that is lasting-failed (R405, R419), seen from one of its ends: a mesh link, or a cross-core link with the ACN link beside it, and the
source that HW_ERROR names. -/
structure DeadLink where
  core : CoreId
  side : Nat
  mesh : Bool
  src : Nat
  deriving DecidableEq, Repr

/-- One core. -/
structure Core where
  sram : Mem
  /-- bank words with a double-bit error, by SRAM byte address (R24, R404) -/
  poison : List Nat
  /-- bits [1:0] of the bank that issued last (R19) -/
  lastBank : Nat
  /-- cycle in which the sequencer issued last (R19) -/
  issued : Option Nat
  divBusy : Bool
  chains : List Chain
  utlb : List TlbEnt
  sinks : Map SinkChain
  /-- chain id that the adder looks at first (R239) -/
  acnNext : Nat
  /-- commands waiting at the copy engine, in order of arrival: a CPY cell, or the ce.cmd port (R180, R327) -/
  ceCmds : List CeCmd
  /-- contexts with a waiting SHAPE.REQ, in issue order (R198) -/
  shapeQ : List CtxId
  /-- local submissions of CQ.SUB and CQ.KICK before intake, packets in progress, and the source served last (R328, R329) -/
  subs : List Sub
  pkts : List Pkt
  ceLast : Nat
  deriving DecidableEq, Repr

/-! ### Memory levels of a die and of the package (R259 to R294) -/

/-- A line of the L2 (R265 to R271, R309). -/
structure L2Line where
  pa : Nat
  way : Nat
  remote : Bool
  dirty : Bool
  sharers : List Nat
  ten : Nat
  handle : Nat
  armed : Bool
  deriving DecidableEq, Repr

/-- A block of a stack's cache layer (R280, R281). -/
structure HbmBlock where
  stack : Nat
  blk : Nat
  way : Nat
  valid : List Nat
  dirty : List Nat
  die : Nat
  handle : Nat
  deriving DecidableEq, Repr

/-- A residency handle (R270, R300). -/
structure ResHandle where
  num : Nat
  asid : Nat
  start : Nat
  len : Nat
  prio : Nat
  deriving DecidableEq, Repr

/-- Who makes a device access: a context's instruction, a tile of its load, a queue's spill path, or a packet of a copy engine. -/
inductive Who
  | ctx (c : CtxId)
  | tile (c : CtxId) (n : Nat)
  | spill (c : CtxId) (k : Nat)
  | engine (core : CoreId) (i : Nat) (ten : Nat)
  deriving DecidableEq, Repr

/-- A walk asked for, or parked in the replay queue (R291, R292). -/
structure WalkReq where
  who : Who
  asid : Nat
  va : Nat
  rd : Bool
  wr : Bool
  /-- a release event has met the entry -/
  go : Bool
  /-- page that its last walk found, base and size, and the cycle of that walk -/
  page : Nat × Nat
  at_ : Nat
  deriving DecidableEq, Repr

/-- What a device request does at its home slice (R297, R302 to R308). -/
inductive DKind
  | read (len : Nat)
  | write (bytes : List Byte)
  | amo (op : AmoOp) (size : Nat) (v x : W64)
  | afadd (x : W32) (out64 : Bool) (readout : Bool)
  | barArr
  | barReg (e : Nat)
  | cntRead
  deriving DecidableEq, Repr

/-- Where a device request stands: on its way, at its home, performed with its answer on its way, or answered. -/
inductive DStage
  | out | home | back | done
  deriving DecidableEq, Repr

/-- A device request in flight (R297). -/
structure DReq where
  id : Nat
  /-- address of the instruction -/
  ipc : BitVec 16
  who : Who
  ten : Nat
  asid : Nat
  va : Nat
  pa : Nat
  kind : DKind
  stage : DStage
  res : W64
  data : List Byte
  fault : Option Trap
  /-- the checks of its home have been made, and it can no longer trap (R21) -/
  checked : Bool
  deriving DecidableEq, Repr

/-- A flit of the mesh (R272 to R275): the request it carries, whether it is the response, its router and input there, the cycle in which it came
there, and the routers that it has crossed in its segment, 0 once it is latched (R274). -/
structure Flit where
  req : Nat
  resp : Bool
  vc : Nat
  at_ : CoreId
  inp : Nat
  dst : CoreId
  age : Nat
  since : Nat
  hops : Nat
  deriving DecidableEq, Repr

/-- The arbiter of one router output port (R275): VC pointer, remaining count, the input pointer of each VC, and the cycle of its last grant. -/
structure PortArb where
  v : Nat
  r : Nat
  rr : List Nat
  last : Option Nat
  deriving DecidableEq, Repr

/-- One die: L2, handles, TLB, walker and replay queue. -/
structure Die where
  l2 : List L2Line
  /-- slices whose conversion after an L2REMW write is not done, with the remote ways they still use (R269) -/
  convert : Map Nat
  handles : List ResHandle
  stlb : List TlbEnt
  walks : List WalkReq
  walkFaults : List (WalkReq × Nat × Nat)
  replay : List WalkReq
  retry : List WalkReq
  deriving DecidableEq, Repr

/-- An MSI-X vector (R433): masked, its Pending Bit, records pending and the time of the first in µs, and its table entry's address and data. -/
structure MsixVec where
  masked : Bool
  pba : Bool
  pending : Nat
  since : Rat
  addr : W64
  data : W32
  deriving DecidableEq, Repr

/-- An issued collective: context, id, checksum, quantum (R131, R191). -/
structure Arr where
  ctx : CtxId
  id : Nat
  crc : W32
  q : Nat
  deriving DecidableEq, Repr

/-- A pending collective of a lease (R131, R132, R191, R203): id, checksum, those that have issued it, the cycle of the last; the cycle in which it
became pending, and those of that cycle that differ from it and lose the tie. -/
structure Coll where
  id : Nat
  crc : W32
  arrived : List Arr
  t0 : Nat
  made : Nat
  tied : List Arr
  deriving DecidableEq, Repr

/-- The saved state of one context of an evicted lease (R378, R395): context, and banks with their poison. -/
structure Saved where
  ctx : Ctx
  banks : List (Mem × List Nat)
  deriving DecidableEq, Repr

/-- A core pair of a relocation (R378): the context bank that its copy goes to, the cycle in which it started, its end. -/
structure Pair where
  dest : Option CtxId
  since : Nat
  done : Bool
  deriving DecidableEq, Repr

/-- A relocation or eviction of a lease (R377, R395): which, its target, its step (0 before step 1), the step's first cycle, its pairs. -/
structure Moving where
  evict : Bool
  toX : Nat
  toY : Nat
  step : Nat
  since : Nat
  pairs : List Pair
  deriving DecidableEq, Repr

/-- A live lease (R130 to R133, R371 to R379): contexts in row-major order, collectives, stop of its load, break, turns. -/
structure Lease where
  ten : Nat
  asid : Nat
  x : Nat
  y : Nat
  w : Nat
  h : Nat
  nb : Nat
  ctxs : List CtxId
  go : Option Coll
  bar : Option Coll
  /-- DETAIL of the first context that broke the lease, and the cycle (R133) -/
  broken : Option (Nat × Nat)
  /-- quantum of the running load and its start cycle (R192) -/
  quantum : Nat
  start : Nat
  stopAt : Option Nat
  /-- launch queue charged and index of the packet, LAUNCH packet, task block of a task payload, lease of a SPAWN requester, and g1 and g2 at start (R340, R374) -/
  queue : Option Nat
  qidx : Nat
  body : List Byte
  task : Option (Nat × Nat)
  parent : Option Nat
  args : W64 × W64
  det : Bool
  /-- contexts started; the launch complete; a context destroyed; the fault of its image (R340, R394, R411) -/
  started : Bool
  ended : Bool
  killed : Bool
  fail : Option PFault
  /-- scheduler quantum in cycles, and whether and since when it holds the turn (R375) -/
  quant : Nat
  turn : Bool
  turnStart : Nat
  moving : Option Moving
  /-- state of an evicted lease (R395) -/
  saved : List Saved
  /-- cycle since which every context of the lease is GATED, and the gated cycles of the running load (R375) -/
  frozen : Option Nat
  slip : Nat
  deriving DecidableEq, Repr

/-- A SPAWN request at Ostler, with its place in the order of arrival there (R179, R372, R374). -/
structure SpawnReq where
  seq : Nat
  ctx : CtxId
  cell : Nat
  index : Nat
  arg : W32
  ten : Nat
  deriving DecidableEq, Repr

/-- A posted remote store (R427). -/
structure RStore where
  ctx : CtxId
  lid : Nat
  pa : Nat
  sent : Nat
  deriving DecidableEq, Repr

/-- A transfer notice on its way, or returned and waiting since a cycle (R338). -/
structure KickMsg where
  kick : Kick
  dest : CtxId
  back : Option Nat
  deriving DecidableEq, Repr

/-- An acknowledgement of a pull or a refusal on its way to the sending packet (R338, R342). -/
structure PullAck where
  pkt : Nat
  fr : CtxId
  deriving DecidableEq, Repr

/-- The head packet of a launch queue (R367 to R369): slot index, packet, arrival cycle, whether it has been checked, its dependence met, the
cycle in which it was marked refused, and its refusals. -/
structure LHead where
  idx : Nat
  body : List Byte
  arrival : Nat
  checked : Bool
  met : Bool
  refused : Option Nat
  noplace : Nat
  deriving DecidableEq, Repr

/-- What stopped a queue (R345): the fault, the index, whether the fault is of an address, and whether the control line can be written. -/
structure QErr where
  fault : PFault
  idx : Nat
  hasAddr : Bool
  line : Bool
  deriving DecidableEq, Repr

/-- A server's state of a queue (R345, R364, R367): held stopped, in ERROR, an error not yet written, the head. -/
structure QState where
  held : Bool
  err : Bool
  pend : Option QErr
  head : Option LHead
  deriving DecidableEq, Repr

/-- A block in the walker (R351 to R355): ASID, tenant and address, arm cycle, snapshot, state, REM, LOST, fault, the index that its push has claimed,
and the index of its slot. -/
structure TaskBlk where
  asid : Nat
  ten : Nat
  va : Nat
  arm : Nat
  snap : List Byte
  st : Nat
  rem : Nat
  lost : Bool
  fault : Option PFault
  claim : Option Nat
  slot : Option Nat
  deriving DecidableEq, Repr

/-- A task report on its way to the walker (R330, R358): block, and the fault of a faulted packet. -/
structure TaskRep where
  asid : Nat
  va : Nat
  fault : Option PFault
  deriving DecidableEq, Repr

/-- A request of the hub about a stack, in order of arrival (R283, R422): a hand-over, or a TTAB write, with its context and its cycle of arrival. -/
inductive HubReq
  | hand (stack die : Nat) (c : CtxId) (since : Nat)
  | ttab (stack h : Nat) (v : W64) (c : CtxId) (since : Nat)
  deriving DecidableEq, Repr

/-- A record written into a ring in the present cycle: which ring, its place in the order of the cycle, and its bytes (R409, R444). -/
structure RingRec where
  ring : Nat
  key : Nat
  bytes : List Byte
  deriving DecidableEq, Repr

/-- A request through a window or from a peer that waits for its budget, and those of its tenant behind it (R430): the budget, 8 × tenant + place in
TBUD, its address, its bytes. -/
structure BudReq where
  key : Nat
  addr : Nat
  len : Nat
  deriving DecidableEq, Repr

/-- What function 0 answers to an SPDM message (R437, R439): the names of the algorithms and capabilities that R437 fixes, certificate slots, bytes
of a certificate chain, a signature or a key share, measurements by index. -/
inductive SpdmAns
  | capabilities (names : List String)
  | algorithms (base hash dhe aead : String)
  | digests (slots : List Nat)
  | certificate (slot : Nat) (chain : List Byte)
  | challenge (slot : Nat) (sig : List Byte)
  | measurements (vals : List (Nat × BitVec 512)) (sig : List Byte)
  | keyExchange (share : List Byte)
  | done
  | error
  | other (bytes : List Byte)
  deriving DecidableEq, Repr

/-- A TDISP report (R442): STATE, BAR0 and BAR2 of the VF, MSIX as table offset and number of vectors, MEAS, REGIONS by stack, ASIDS, QUEUES (launch queue q as q, CEQ n of core c as 64 + 4c + n),
FROZEN. -/
structure Report where
  state : Nat
  bar0 : Nat
  bar2 : Nat
  msix : Nat × Nat
  meas : List Nat
  regions : List Nat
  asids : List Nat
  queues : List Nat
  frozen : BitVec 512
  deriving DecidableEq, Repr

/-- The answer that the package gave last to the host, a peer or a guest (R428, R432, R433, R437, R455). -/
inductive Reply
  | none
  | data (bytes : List Byte)
  | unsupported
  | abort
  | peerFault (cls detail : Nat)
  | forward (q : PeerReq)
  | msix (f vec : Nat)
  | spdm (answer : SpdmAns)
  | report (r : Report)
  | invalidState
  deriving DecidableEq, Repr

/-- A TDISP interface (R440, R456): its bound stream, the digest of its frozen set, its refused requests, and whether a stop is under way. -/
structure Tdi where
  stream : Nat
  digest : BitVec 512
  refused : Nat
  stopping : Bool
  deriving DecidableEq, Repr

/-- A compaction under way (R376): the leases still to visit, and the one that moves. -/
structure Compact where
  todo : List Nat
  moving : Option Nat
  deriving DecidableEq, Repr


/-! ### The package -/

/-- A move of the model's agenda: a control word of a core's next context (R19); an internal step; the bank access or the check of an operation that
completes later (R21); an element of a started chain of the pass unit, read or written (R27); a K-step of a command of the matrix node (R214); an element of a
started packet of a copy engine, read or written (R329, R336); a status word of a task block that has waited for its translation (R352); a single-bit error that a bank has corrected (R24); the
training of the PCIe link (R460). -/
inductive Move
  | issue (core : CoreId)
  | act (i : Instr)
  | access (c : CtxId) (i : Nat)
  | chainRead (core : CoreId) (k : Nat)
  | chainWrite (core : CoreId) (k i : Nat)
  | kStep (c : CtxId) (i : Nat)
  | statWrite (i : Nat)
  | ceRead (core : CoreId) (i n : Nat)
  | ceWrite (core : CoreId) (i n : Nat)
  | corrected (core : CoreId) (bank : Nat)
  | linkUp
  deriving DecidableEq, Repr

/-- The state. -/
structure State where
  /-- the model's own: the moves to take, each with the cycles it takes; the schedule and all outside inputs -/
  agenda : List (Nat × Move)
  /-- the model's own: the context for which control words act -/
  cur : CtxId
  /-- the model's own: how many free values have been taken -/
  free : Nat
  /-- CLK cycles since device reset (R409) -/
  time : Nat
  ctxs : Map Ctx
  cores : Map Core
  dies : Map Die
  mem : Mem
  /-- ranges of device memory whose content is unspecified (R283, R332, R427, R436): start, end, use -/
  unspec : List (Nat × Nat × Nat)
  /-- HBM words with a double-bit error (R404) -/
  hbmPoison : List Nat
  /-- by memory line, the cycle in which the last write that changed a packet header's TYPE or SEQ took effect (R344, R367) -/
  hdrs : Map Nat
  /-- arbiters of the cells and matrix nodes, by 512 × core + cell, 512 × core + 256 for the node: the bank served last, and its cycle (R116, R207) -/
  turns : Map (Nat × Nat)
  hbm : List HbmBlock
  /-- contexts registered at barrier and counter lines: line, context (R306, R308) -/
  barWaiters : List (Nat × CtxId)
  dreqs : List DReq
  dreqN : Nat
  flits : List Flit
  ports : Map PortArb
  acnMsgs : List AcnMsg
  /-- management registers that differ from their reset value (R277, R400) -/
  mg : Map W64
  /-- the cycle of the last MGW to a register, and its context (R400) -/
  mgLast : Map (Nat × List (CtxId × W64))
  /-- the cycle in which a ring was written last, and its records (R409, R444) -/
  recs : Nat × List RingRec
  /-- MSI-X vectors by 64 × function + vector (R433) -/
  msix : Map MsixVec
  /-- producer indices of the VF event rings (R433, R448) -/
  vfHead : Map Nat
  /-- functions whose VF is enabled, by tenant (R435) -/
  vfs : List Nat
  /-- live leases by id (R371 to R373) -/
  leases : Map Lease
  /-- SPAWN requests, oldest first (R374), and the requests that Ostler has got, restores among them (R372, R395) -/
  spawns : List SpawnReq
  ostN : Nat
  /-- the cycle after the last change of Ostler's map, in which the refused marks made before it are cleared (R369) -/
  mapAt : Nat
  /-- leases that are no longer live, and whose completion is still to be made (R340 step 4, R373) -/
  finals : Map Lease
  /-- ranges of device memory that hold the poison pattern of a lost page (R446) -/
  lost : List (Nat × Nat × Nat)
  /-- ranges of device memory that hold elements of channel queues, as far as no other agent has written them since (R264) -/
  spilled : List (Nat × Nat × Nat)
  /-- posted remote stores not yet acknowledged (R427) -/
  rstores : List RStore
  /-- packets numbered so far, transfer notices, acknowledgements (R338, R342) -/
  pktN : Nat
  kickMsgs : List KickMsg
  pullAcks : List PullAck
  /-- bytes of an MCAST's source that have been read for its receivers, by number of the packet (R339) -/
  mcasts : Map (List Byte)
  /-- queues: launch queue q at q, queue n of core c at 64 + 4c + n (R341, R346, R367) -/
  queues : Map QState
  /-- the task walker, killed slots (ASID, control line, index), and reports on their way (R352) -/
  walker : List TaskBlk
  killedSlots : List (Nat × Nat × Nat)
  reports : List TaskRep
  /-- status words of blocks that wait for their translation (R352) -/
  stats : List TaskBlk
  /-- the launch queue whose head Ostler holds; the last lease id given; a compaction under way (R368, R373, R376) -/
  ost : Option Nat
  lastLid : Nat
  compact : Option Compact
  /-- evicted leases whose restore waits for Ostler, with their places in the order of arrival (R372, R395) -/
  restores : List (Nat × Nat)
  /-- hand-overs and TTAB writes at the hub (R422) -/
  hubQ : List HubReq
  /-- tenants in a partition reset, with the step reached (R396) -/
  resets : Map Nat
  /-- TDISP interfaces of VFs (R440) -/
  tdis : Map Tdi
  /-- configuration space of VFs as written by the host: 4096 × tenant + offset (R441) -/
  vfCfg : Map Byte
  /-- Jexlink ports: 0 not trained, 1 trained, 2 lasting-failed (R425) -/
  jex : Map Nat
  /-- UCIe modules of each seam that have been taken out of service (R419) -/
  ucie : Map Nat
  /-- links that are lasting-failed (R405, R419) -/
  dead : List DeadLink
  /-- the answer given last at the package's edge -/
  reply : Reply
  /-- dies above 115 degrees whose event is not armed again (R459) -/
  hot : List Nat
  /-- power removed by the package (R459) -/
  off : Bool
  /-- the PCIe link has trained (R460) -/
  link : Bool
  /-- fractions of TENG and LQENG in µJ, by register number (R383) -/
  frac : Map Rat
  /-- the cycle of the last change of CLK, and the µs passed until then; the 10 µs intervals that have ended (R382, R385) -/
  clkBase : Nat × Rat
  intervals : Nat
  /-- events of this interval that energy is shared by, by 512 × lease id + 8 × tenant + kind (R382) -/
  events : Map Nat
  /-- DUTY of a tenant that takes effect at a cycle: the value and the cycle (R384) -/
  dutyNext : Map (Nat × Nat)
  /-- bytes and walks used in this interval, by 8 × tenant + place of the budget in TBUD (R430) -/
  spent : Map Nat
  /-- requests that wait for their budget, in order of arrival (R430) -/
  budgetQ : List BudReq
  /-- key pairs of the tenants, by the number of their installation (R284) -/
  keys : Map Nat
  /-- measurements by index (R437, R460); whether an SPDM session is open, and the IDE streams whose keys have been programmed in one (R439) -/
  meas : Map (BitVec 512)
  session : Bool
  ideKeys : List Nat
  /-- the fuses of firmware: digest of the public key, rollback counter (R438). At reset 0: DESIGN CHOICE (log 141) -/
  fuse : BitVec 512 × Nat
  deriving DecidableEq, Repr

/-! ### Reset (R33, R460) -/

/-- An EMPTY slot (R33). -/
def Slot.blank : Slot := { st := .empty, id := 0, crc := 0, sect := [], endSt := 0, bad := [] }

/-- No fabric load. -/
def Fab.blank : Fab :=
  { start := 0, cb := List.replicate 32 0, cells := [], tiles := [], ports := [], segs := [], held := false, stopAt := none, stopped := false,
    again := [] }

/-- A context bank as device reset leaves it: EMPTY. Its registers have their values at context start (R14, R33). A context that starts in the middle
of a round (R19) has the credit 1: DESIGN CHOICE (log 96). -/
def Ctx.blank : Ctx :=
  { st := .empty, gated := false, gsrc := 0, g := Vector.replicate 32 0, p := 1, ipc := 0, lx := 0, ly := 0, lw := 1, lh := 1,
    ten := 0, asid := 0, shape := 0, trapc := 0, trapv := 0, trapa := 0, stop := (0, 0), flags := 0, flagNew := none, istore := [], ilen := 0,
    ipoison := [], banks := [], ops := [], opN := 0, tlq := [], tlN := 0, cpq := [], cpN := 0, cov := [], wait := none, raised := [],
    weight := 1, credit := 1, skip := false, yielded := false, lease := 0, near := [], joins := [], joinN := 0, achInt := none, kicks := [], lsn := 0, rso := 0
    ,
    cur := Slot.blank, nxt := Slot.blank, ran := false, miss := false, missed := [], fab := Fab.blank, mn := Mn.blank, det := false, wake := 0,
    gateReq := 0, gateAt := 0, doom := false, drain := false, leaving := false }

/-- A core at reset: its banks are zero (R460). -/
def Core.blank : Core :=
  { sram := [], poison := [], lastBank := 3, issued := none, divBusy := false, chains := [], utlb := [], sinks := [], acnNext := 0
    ,
    ceCmds := [], shapeQ := [], subs := [], pkts := [], ceLast := 7 }

/-- A die at reset. -/
def Die.blank : Die :=
  { l2 := [], convert := [], handles := [], stlb := [], walks := [], walkFaults := [], replay := [],
    retry := [] }

/-- The package right after device reset, at boot stage 0 (R460): every context EMPTY, every register at its reset value. -/
def State.reset : State :=
  { agenda := [], cur := 0, free := 0, time := 0, ctxs := [], cores := [], dies := [], mem := [], unspec := [], hbmPoison := [], hdrs := [], turns := [], hbm := [],
    barWaiters := [], dreqs := [], dreqN := 0, flits := [], ports := [], acnMsgs := [], mg := [], mgLast := [], recs := (0, []), msix := [], vfHead := [], vfs := [], leases := [], spawns := [], ostN := 0, mapAt := 0, finals := [], lost := [], spilled := [], rstores := [],
    pktN := 0, kickMsgs := [], pullAcks := [], mcasts := [], queues := [], walker := [], killedSlots := [], reports := [], stats := [], ost := none, lastLid := 0,
    compact := none, restores := [], hubQ := [], resets := [], tdis := [], vfCfg := [], jex := [], ucie := [], dead := [], reply := .none, hot := [], off := false, link := false,
    frac := [], dutyNext := [], clkBase := (0, 0), intervals := 0, events := [], spent := [], budgetQ := [], keys := [], meas := [], session := false, ideKeys := [], fuse := (0, 0) }

/-! ### Faults and refusals -/

/-- Why a step stops. The machine's own faults are traps, which are next states; none of these is raised by an instruction of the table. -/
inductive Fault where
  /-- Raised by no step: kept so that the interface has a fault to name. Safe. -/
  | none
  deriving DecidableEq, Repr

/-- Why an operation has no meaning. -/
inductive Refusal where
  /-- An operation of the table that the model has not reached; raised by its arm in exec. Safe: the run stops there. -/
  | notModelled (mnemonic : String)
  deriving DecidableEq, Repr

end Sys2Proof.Machine
end

