-- ==== Sys2Proof/Machine/Ops.lean ====
section
/-! DEFINITION. The named operations over tables, memory, registers, translation, events and traps. Every family of instructions is written
over these. -/

namespace Sys2Proof.Machine

/-! ### Tables -/

/-- Entry k of a table, if listed. -/
def Map.get? {α : Type} : Map α → Nat → Option α
  | [], _ => none
  | (i, v) :: t, k => if k = i then some v else Map.get? t k

/-- Entry k of a table set, keys kept rising. -/
def Map.set {α : Type} : Map α → Nat → α → Map α
  | [], k, v => [(k, v)]
  | (i, w) :: t, k, v => if k < i then (k, v) :: (i, w) :: t else if k = i then (k, v) :: t else (i, w) :: Map.set t k v

/-- Entry k of a table removed. -/
def Map.erase {α : Type} (m : Map α) (k : Nat) : Map α := m.filter (fun e => e.1 != k)

/-- The first element that satisfies a test, changed; the others kept. -/
def updFirst {α : Type} (p : α → Bool) (f : α → α) : List α → List α
  | [] => []
  | x :: t => if p x then f x :: t else x :: updFirst p f t

/-- Element i of a list replaced by f of it. -/
def modAt {α : Type} (f : α → α) : List α → Nat → List α
  | [], _ => []
  | x :: t, 0 => f x :: t
  | x :: t, n + 1 => x :: modAt f t n

/-- The numbers 0 to n-1 with a starting offset. -/
def upto (start n : Nat) : List Nat := (List.range n).map (start + ·)

/-! ### Memory -/

/-- A byte of memory; a byte that is not listed reads 0 (R25, R460). -/
def Mem.get : Mem → Nat → Byte
  | [], _ => 0
  | (k, v) :: t, a => if a = k then v else if a < k then 0 else Mem.get t a

/-- A byte of memory written; the form keeps no byte 0. -/
def Mem.set : Mem → Nat → Byte → Mem
  | [], a, b => if b = 0 then [] else [(a, b)]
  | (k, v) :: t, a, b =>
    if a < k then (if b = 0 then (k, v) :: t else (a, b) :: (k, v) :: t)
    else if a = k then (if b = 0 then t else (a, b) :: t)
    else (k, v) :: Mem.set t a b

/-- Is the list in canonical form from address lo on? -/
def Mem.wfFrom : Nat → Mem → Bool
  | _, [] => true
  | lo, (k, v) :: t => lo ≤ k && v != 0 && Mem.wfFrom (k + 1) t

/-- The canonical form: addresses strictly rising, no byte equal to what an unlisted address reads as. -/
def Mem.wf (m : Mem) : Bool := Mem.wfFrom 0 m

/-- n bytes from address a. -/
def Mem.bytes (m : Mem) (a n : Nat) : List Byte := (List.range n).map (fun i => m.get (a + i))

/-- Bytes written from address a. -/
def Mem.setBytes (m : Mem) (a : Nat) : List Byte → Mem
  | [] => m
  | b :: t => Mem.setBytes (m.set a b) (a + 1) t

/-- Every byte of a range set to 0. -/
def Mem.zero (m : Mem) (a n : Nat) : Mem := m.filter (fun e => e.1 < a || a + n ≤ e.1)

/-- The number whose little-endian bytes these are (R5). -/
def ofBytes : List Byte → Nat
  | [] => 0
  | b :: t => b.toNat + 256 * ofBytes t

/-- The n little-endian bytes of a number (R5). -/
def toBytes : Nat → Nat → List Byte
  | 0, _ => []
  | n + 1, v => BitVec.ofNat 8 v :: toBytes n (v / 256)

/-- A 64-bit word from bytes. -/
def w64 (l : List Byte) : W64 := BitVec.ofNat 64 (ofBytes l)
/-- A 32-bit word from bytes. -/
def w32 (l : List Byte) : W32 := BitVec.ofNat 32 (ofBytes l)

/-- Bits [hi:lo] of a word as a number. -/
def bits (v : W64) (hi lo : Nat) : Nat := v.toNat / 2 ^ lo % 2 ^ (hi + 1 - lo)

/-- Bits [hi:lo] of a word replaced. -/
def setBits (v : W64) (hi lo x : Nat) : W64 :=
  BitVec.ofNat 64 (v.toNat - bits v hi lo * 2 ^ lo + x % 2 ^ (hi + 1 - lo) * 2 ^ lo)

/-! ### Contexts, cores, dies -/

/-- A context bank; one that nothing has changed is EMPTY. -/
def State.ctx (s : State) (c : CtxId) : Ctx := (s.ctxs.get? c).getD Ctx.blank
/-- A context bank replaced. -/
def State.setCtx (s : State) (c : CtxId) (x : Ctx) : State := { s with ctxs := s.ctxs.set c x }
/-- A context bank changed. -/
def State.updCtx (s : State) (c : CtxId) (f : Ctx → Ctx) : State := s.setCtx c (f (s.ctx c))
/-- A core. -/
def State.core (s : State) (k : CoreId) : Core := (s.cores.get? k).getD Core.blank
/-- A core replaced. -/
def State.setCore (s : State) (k : CoreId) (x : Core) : State := { s with cores := s.cores.set k x }
/-- A core changed. -/
def State.updCore (s : State) (k : CoreId) (f : Core → Core) : State := s.setCore k (f (s.core k))
/-- A die. -/
def State.die (s : State) (d : Nat) : Die := (s.dies.get? d).getD Die.blank
/-- A die replaced. -/
def State.setDie (s : State) (d : Nat) (x : Die) : State := { s with dies := s.dies.set d x }
/-- A die changed. -/
def State.updDie (s : State) (d : Nat) (f : Die → Die) : State := s.setDie d (f (s.die d))

/-- The core that holds a context bank. -/
def coreOf (c : CtxId) : CoreId := c / 4
/-- Package column of a core: core number 20y + x (R400). -/
def coreX (k : CoreId) : Nat := k % 20
/-- Package row of a core. -/
def coreY (k : CoreId) : Nat := k / 20
/-- The compute die of a core: CD0 north-west, CD1 north-east, CD2 south-west, CD3 south-east (scope, R415). -/
def dieOf (k : CoreId) : Nat := coreX k / 10 + 2 * (coreY k / 8)
/-- The core at a package position. -/
def coreAt (x y : Nat) : CoreId := 20 * y + x
/-- Number of cores of the package. -/
def numCores : Nat := 320

/-! ### Registers -/

/-- A general register; g0 reads 0 (R13). -/
def Ctx.reg (c : Ctx) (i : BitVec 5) : W64 := if i = 0 then 0 else c.g.get i.toFin
/-- A general register written; a write to g0 is discarded (R13). -/
def Ctx.setReg (c : Ctx) (i : BitVec 5) (v : W64) : Ctx := if i = 0 then c else { c with g := c.g.set i.toNat v i.isLt }
/-- A predicate; p0 reads true (R13). -/
def Ctx.pred (c : Ctx) (i : BitVec 3) : Bool := i = 0 || c.p.getLsbD i.toNat
/-- A predicate written; a write to p0 is discarded (R13). -/
def Ctx.setPred (c : Ctx) (i : BitVec 3) (b : Bool) : Ctx :=
  if i = 0 then c else { c with p := (c.p &&& ~~~(1#8 <<< i.toNat)) ||| ((BitVec.ofBool b).setWidth 8 <<< i.toNat) }
/-- The guard of R9 and R55: the predicate, inverted when N is 1. -/
def Ctx.guard (c : Ctx) (g : Guard) : Bool := c.pred g.idx != (g.neg == 1#1)
/-- Sequential flow (R20). -/
def Ctx.advance (c : Ctx) : Ctx := { c with ipc := c.ipc + 4 }
/-- CNT.LD (R17): loads and atomics that are counted. -/
def Ctx.cntLd (c : Ctx) : Nat := (c.ops.filter (fun o => !o.isStore)).length
/-- CNT.ST (R17): stores that are counted. -/
def Ctx.cntSt (c : Ctx) : Nat := (c.ops.filter (fun o => o.isStore)).length
/-- CNT.CP (R17). -/
def Ctx.cntCp (c : Ctx) : Nat := c.cpq.length
/-- CNT.TL (R17). -/
def Ctx.cntTl (c : Ctx) : Nat := c.tlq.length

/-- Flags ORed into the flag word in a cycle (R45). -/
def Ctx.addFlags (c : Ctx) (t : Nat) (fl : W32) : Ctx :=
  if fl = 0 then c
  else
    let (old, new) := match c.flagNew with
      | some (n, old, new) => if n = t then (old, new) else (c.flags, 0)
      | none => (c.flags, 0)
    { c with flags := c.flags ||| fl, flagNew := some (t, old, new ||| fl) }

/-- The flag word read and cleared in a cycle: flags set in the same cycle are not returned, and stay (R45, R76). -/
def Ctx.takeFlags (c : Ctx) (t : Nat) : W32 × Ctx :=
  match c.flagNew with
  | some (n, old, new) => if n = t then (old, { c with flags := new, flagNew := some (t, 0, new) }) else (c.flags, { c with flags := 0, flagNew := none })
  | none => (c.flags, { c with flags := 0 })

/-- Is register i the destination of a pending writer (R21), a store among them where it is the slot write of a CQ.SUB (R348)? A pending writer whose destination is g0 holds no word: R13 judges the hold on the
destination field, R21 on the register, and nothing is written to g0. DEDUCED (log 93). -/
def Ctx.pends (c : Ctx) (i : BitVec 5) : Bool := i != 0 && c.ops.any (fun o => o.dst == i)

/-- Counted-out operations leave their class oldest first (R69). -/
def sweepOps (isStore : Bool) : List MemOp → List MemOp
  | [] => []
  | o :: t => if o.isStore == isStore then (if o.done then sweepOps isStore t else o :: t) else o :: sweepOps isStore t

/-- An operation of a context marked complete, and its class swept (R69). -/
def Ctx.finishOp (c : Ctx) (id : Nat) : Ctx :=
  let ops := updFirst (fun o => o.id == id) (fun o => { o with done := true }) c.ops
  { c with ops := sweepOps true (sweepOps false ops) }

/-- Flags raised for a context in this cycle (R45). -/
def State.addFlags (s : State) (c : CtxId) (fl : W32) : State := s.updCtx c (fun x => x.addFlags s.time fl)

/-- CTX of R15. -/
def ctxReg (c : CtxId) : W64 := BitVec.ofNat 64 (coreY (coreOf c) * 128 + coreX (coreOf c) * 4 + c % 4)

/-- The special registers of R14 Table 1, zero-extended. -/
def Ctx.sreg (c : Ctx) (id : CtxId) (n : BitVec 4) : W64 :=
  match n.toNat with
  | 0 => c.ipc.zeroExtend 64
  | 1 => c.lx.zeroExtend 64
  | 2 => c.ly.zeroExtend 64
  | 3 => c.lw.zeroExtend 64
  | 4 => c.lh.zeroExtend 64
  | 5 => ctxReg id
  | 6 => c.ten.zeroExtend 64
  | 7 => c.asid.zeroExtend 64
  | 8 => BitVec.ofNat 64 c.cntLd
  | 9 => BitVec.ofNat 64 c.cntSt
  | 10 => BitVec.ofNat 64 c.cntCp
  | 11 => BitVec.ofNat 64 c.cntTl
  | 12 => c.shape
  | 13 => c.trapc
  | 14 => c.trapv
  | _ => c.trapa.zeroExtend 64

/-- SRWR on a special register (R75): the writable fields take the value; every other register ignores it. -/
def Ctx.setSreg (c : Ctx) (n : BitVec 4) (v : W64) : Ctx :=
  match n.toNat with
  | 13 => { c with trapc := (c.trapc &&& 0xFFFFFFFF0000FF00#64) ||| (v &&& 0x00000000FFFF00FF#64) }
  | 14 => { c with trapv := v }
  | 15 => { c with trapa := v.truncate 16 &&& 0xFFFC#16 }
  | _ => c

/-- TRAPC.ACTIVE (R16). -/
def Ctx.active (c : Ctx) : Bool := c.trapc.getLsbD 8

/-! ### Management registers: stored part (R277) -/

/-- The stored reset value of a management register (Reset columns of R277, R294, R346, R387, R410, R448, R461). -/
def mgReset (n : Nat) : W64 :=
  if 0x0100 ≤ n && n < 0x0140 then
    (if n % 16 == 0 then 4 else if n % 16 == 1 then 0x1214 else if n % 16 == 2 then 48 else 0)
  else if 0x0800 ≤ n && n < 0x0840 then 0xF301
  else if n == 0x09C0 then 0x01000001
  else if 0x8000 ≤ n && n < 0x8010 then
    (let s := n - 0x8000
     if s / 4 == 0 then (if s % 4 < 2 then 0 else 1)
     else if s / 4 == 1 then (if s % 4 < 2 then 1 else 3)
     else if s / 4 == 2 then (if s % 4 < 2 then 2 else 3)
     else (if s % 4 < 2 then 0 else 2))
  else if n == 0x9000 then 0x0A41004A#64 ||| (Config.rev.zeroExtend 64 <<< 8)
  else if n == 0x9002 then 1100
  else 0

/-- The stored value of a management register. -/
def State.mgv (s : State) (n : Nat) : W64 := (s.mg.get? n).getD (mgReset n)
/-- The stored value of a management register set; a value equal to reset is not listed. -/
def State.setMg (s : State) (n : Nat) (v : W64) : State :=
  { s with mg := if v = mgReset n then s.mg.erase n else s.mg.set n v }

/-- This package's node id (R426). -/
def State.node (s : State) : Nat := bits (s.mgv 0x8010) 12 0
/-- Is a physical address local (R278, R289)? -/
def State.isLocal (s : State) (pa : Nat) : Bool := pa / 2 ^ 48 == s.node && pa / 2 ^ 40 % 256 == 0
/-- Key of a local physical address in device memory. -/
def memKey (pa : Nat) : Nat := pa % 2 ^ 40
/-- Stack of a local address (R278). -/
def stackOf (pa : Nat) : Nat := pa / 2 ^ 36 % 16
/-- Region of a local address (R278). -/
def regionOf (pa : Nat) : Nat := pa / 2 ^ 32 % 16
/-- Channel of a local address (R278). -/
def channelOf (pa : Nat) : Nat := (pa / 2 ^ 8 % 32) ^^^ (pa / 2 ^ 13 % 32)
/-- The tenant that TTAB gives a region of a stack (R282, R294). -/
def State.ttab (s : State) (stack region : Nat) : Nat :=
  bits (s.mgv (0x0180 + 2 * stack + region / 8)) (6 * (region % 8) + 5) (6 * (region % 8))
/-- The tenant that owns a local address. -/
def State.ownerTen (s : State) (pa : Nat) : Nat := s.ttab (stackOf pa) (regionOf pa)
/-- Owner die of a stack: the home die of its lines (R265, R421). -/
def State.ownerDie (s : State) (stack : Nat) : Nat := bits (s.mgv (0x8000 + stack)) 1 0
/-- Home slice of a line in its home die (R265). -/
def sliceOf (pa : Nat) : Nat := ((pa / 2 ^ 6 % 2 ^ 16) ^^^ (pa / 2 ^ 22 % 2 ^ 16) ^^^ (pa / 2 ^ 38 % 2 ^ 10)) % 80
/-- L2 set of a line (R265). -/
def l2Set (pa : Nat) : Nat := (pa / 2 ^ 6 % 2 ^ 13) ^^^ (pa / 2 ^ 19 % 2 ^ 13)
/-- The line that holds an address. -/
def lineOf (pa : Nat) : Nat := pa / 64 * 64
/-- The mesh stop of a slice of a die, as a core number (R265). -/
def sliceCore (die slice : Nat) : CoreId := coreAt (10 * (die % 2) + slice % 10) (8 * (die / 2) + slice / 10)
/-- The stop at which a line is performed. -/
def State.homeCore (s : State) (pa : Nat) : CoreId := sliceCore (s.ownerDie (stackOf pa)) (sliceOf pa)

/-! ### Device memory -/

/-- A byte of device memory: free where the manual leaves its content unspecified (R283, R332, R427, R436). -/
def State.devByte (s : State) (pa : Nat) : Byte :=
  match s.unspec.find? (fun r => r.1 ≤ pa && pa < r.2.1) with
  | some r => Config.unspecByte r.2.2 pa
  | none => s.mem.get pa

/-- n bytes of device memory at a local physical address. -/
def State.devBytes (s : State) (pa n : Nat) : List Byte := (List.range n).map (fun i => s.devByte (memKey pa + i))

/-- A range of a list of unspecified ranges made specified. -/
def cutRange (lo hi : Nat) : List (Nat × Nat × Nat) → List (Nat × Nat × Nat)
  | [] => []
  | (a, b, u) :: t =>
    (if a < min lo b then [(a, min lo b, u)] else []) ++ (if max hi a < b then [(max hi a, b, u)] else []) ++ cutRange lo hi t

/-- TYPE and SEQ of the packet header in the line of a byte (R334). -/
def State.hdrAt (s : State) (a : Nat) : List Byte := [0, 6, 7].map (fun i => s.devByte (a / 64 * 64 + i))

/-- Bytes of device memory written, with no other effect than on content, poison (R404), the elements of channel queues (R264) and the cycle of a
header (R367). -/
def State.poke (s : State) (pa : Nat) (bs : List Byte) : State :=
  let a := memKey pa
  let t := { s with
    mem := s.mem.setBytes a bs
    unspec := cutRange a (a + bs.length) s.unspec
    lost := cutRange ((a + 7) / 8 * 8) (max ((a + 7) / 8 * 8) ((a + bs.length) / 8 * 8)) s.lost
    spilled := cutRange a (a + bs.length) s.spilled
    hbmPoison := s.hbmPoison.filter (fun w => !(a ≤ w && w + 8 ≤ a + bs.length)) }
  { t with hdrs := if t.hdrAt a == s.hdrAt a then s.hdrs else s.hdrs.set (a / 64) s.time }

/-- The content of a range becomes unspecified, under a fresh free value. -/
def State.lose (s : State) (pa n : Nat) : State :=
  let a := memKey pa
  { s with unspec := (a, a + n, s.free) :: cutRange a (a + n) s.unspec, free := s.free + 1 }

/-- Does a range hold a poisoned HBM word (R404)? -/
def State.hbmBad (s : State) (pa n : Nat) : Bool :=
  s.hbmPoison.any (fun w => w < memKey pa + n && memKey pa < w + 8)

/-- The L2 line of an address at its home, if the L2 holds it. -/
def State.homeLine (s : State) (pa : Nat) : Option L2Line :=
  (s.die (s.ownerDie (stackOf pa))).l2.find? (fun l => l.pa == lineOf pa && !l.remote)

/-- The L2 line of an address at its home changed. -/
def State.updHomeLine (s : State) (pa : Nat) (f : L2Line → L2Line) : State :=
  s.updDie (s.ownerDie (stackOf pa)) (fun d => { d with l2 := updFirst (fun l => l.pa == lineOf pa && !l.remote) f d.l2 })

/-- Every waiter registered at a line is released with a status; the message is on its way (R308, R309). -/
def State.releaseBar (s : State) (line : Nat) (ok : Bool) : State :=
  let s := (s.barWaiters.filter (fun w => w.1 == line)).foldl (fun s w =>
    s.updCtx w.2 (fun c => { c with wait := match c.wait with
      | some (.barrier d va pa _ none) => some (.barrier d va pa none (some ok))
      | x => x })) s
  { s with barWaiters := s.barWaiters.filter (fun w => w.1 != line) }

/-- Remote copies of a line invalidated in the dies of its sharer set (R267). -/
def State.dropCopies (s : State) (line : Nat) : State :=
  let s := (List.range 4).foldl (fun s d => s.updDie d (fun x => { x with l2 := x.l2.filter (fun l => !(l.pa == line && l.remote)) })) s
  s.updHomeLine line (fun l => { l with sharers := [] })

/-- A write of one line's bytes performed at its home slice: remote copies first, then the bytes; an armed line is broken (R267, R309). -/
def State.homeWrite (s : State) (pa : Nat) (bs : List Byte) (breaks : Bool) : State :=
  let line := lineOf pa
  let s := s.dropCopies line
  let armed := match s.homeLine line with
    | some l => l.armed
    | none => false
  let s := (s.poke pa bs).updHomeLine line (fun l => { l with dirty := true })
  if armed && breaks then (s.updHomeLine line (fun l => { l with armed := false })).releaseBar line false else s

/-- The lines of a range written with content that the model does not hold as bytes: copies invalidated, armed lines broken (R267, R309). -/
def State.breakRange (s : State) (pa n : Nat) : State :=
  let inR (l : L2Line) : Bool := memKey l.pa < memKey pa + n && memKey pa < memKey l.pa + 64
  let lines := ((List.range 4).map (fun d => (s.die d).l2.filter inR)).flatten
  lines.foldl (fun s l =>
    if l.remote then s.dropCopies l.pa
    else if l.armed then (s.updHomeLine l.pa (fun l => { l with armed := false, dirty := true })).releaseBar l.pa false
    else s.updHomeLine l.pa (fun l => { l with dirty := true })) s

/-- The bytes of a write cut at line boundaries, in address order. -/
def cutLines (pa : Nat) : List Byte → List (Nat × List Byte)
  | [] => []
  | b :: t =>
    match cutLines (pa + 1) t with
    | [] => [(pa, [b])]
    | (a, l) :: r => if (pa + 1) % 64 == 0 then (pa, [b]) :: (a, l) :: r else (pa, b :: l) :: r

/-- Bytes written to device memory, line by line at the home slices (R267). -/
def State.devWrite (s : State) (pa : Nat) (bs : List Byte) : State :=
  (cutLines pa bs).foldl (fun s w => s.homeWrite w.1 w.2 true) s

/-- 64-bit word of device memory. -/
def State.dev64 (s : State) (pa : Nat) : W64 := w64 (s.devBytes pa 8)

/-! ### Translation (R289, R290) -/

/-- A leaf found by a walk: page base, size, physical base, permissions, MIG, level. -/
structure Leaf where
  va : Nat
  size : Nat
  pa : Nat
  rd : Bool
  wr : Bool
  mig : Bool
  lvl : Nat
  deriving DecidableEq, Repr

/-- Is an address that an entry names one that a page table may stand at (R289)? -/
def State.tableOk (s : State) (pa : Nat) : Bool := s.isLocal pa

/-- The checks on a leaf, and the page it maps (R289 Table 2, R290): cause and level on failure. A leaf beyond every package raises cause 5 here, before
its permissions are looked at, and one of another node's page after them: DESIGN CHOICE (log 119). -/
def State.leafOf (s : State) (e : W64) (va lvl idx : Nat) : Except (Nat × Nat) Leaf :=
  let addr := bits e 63 16 * 2 ^ 16
  let size := if lvl == 1 then 2 ^ 30 else 2 ^ 17
  let ct := e.getLsbD 4
  let gsize := if ct then 32 * size else size
  let back := if ct then idx % 32 * size else 0
  let base := addr - back
  if addr % size != 0 || addr < back || base % gsize != 0 then .error (3, lvl)
  else if addr / 2 ^ 40 % 256 != 0 || addr / 2 ^ 48 > 8191 then .error (5, lvl)
  else .ok { va := va / gsize * gsize, size := gsize, pa := base, rd := e.getLsbD 2, wr := e.getLsbD 3, mig := e.getLsbD 5, lvl := lvl }

/-- The cause that stands for an uncorrectable word of an entry; the level beside it then is the stack (R279). -/
def walkEcc : Nat := 0

/-- An entry of a page table read through the L2 home slice (R279, R289). -/
def State.pte (s : State) (pa : Nat) : Except (Nat × Nat) W64 := if s.hbmBad pa 8 then .error (walkEcc, stackOf pa) else .ok (s.dev64 pa)

/-- The levels of a walk from the table at t (R289). Fuel 3 is one unit a level. -/
def State.walkFrom (s : State) (va : Nat) : Nat → Nat → Nat → Except (Nat × Nat) Leaf
  | 0, _, lvl => .error (3, lvl)
  | fuel + 1, t, lvl =>
    let idx := va / 2 ^ (43 - 13 * lvl) % 2 ^ 13
    match s.pte (t + 8 * idx) with
    | .error f => .error f
    | .ok e =>
      if !e.getLsbD 0 then .error (2, lvl)
      else if bits e 15 6 != 0 then .error (3, lvl)
      else if e.getLsbD 1 then
        (if lvl == 0 then .error (3, lvl) else s.leafOf e va lvl idx)
      else if lvl == 2 || bits e 5 2 != 0 then .error (3, lvl)
      else if !s.tableOk (bits e 63 16 * 2 ^ 16) then .error (5, lvl)
      else s.walkFrom va fuel (bits e 63 16 * 2 ^ 16) (lvl + 1)

/-- A walk of a die for an address of an ASID (R289). Level 3 stands for the root. The root array stands at the low 40 bits of ASRT, whatever its
other bits name: DESIGN CHOICE (log 119). -/
def State.walk (s : State) (die asid va : Nat) : Except (Nat × Nat) Leaf :=
  match s.pte ((s.mgv (0x0100 + 16 * die + 3)).toNat + 8 * asid) with
  | .error f => .error f
  | .ok e =>
    if !e.getLsbD 0 then .error (1, 3)
    else if bits e 15 1 != 0 then .error (3, 3)
    else if !s.tableOk (bits e 63 16 * 2 ^ 16) then .error (5, 3)
    else s.walkFrom va 3 (bits e 63 16 * 2 ^ 16) 0

/-- XLAT_FAULT (R293). -/
def xlatTrap (va cause lvl : Nat) (wr : Bool) : Trap :=
  { cls := 0x14, val := BitVec.ofNat 64 va, detail := BitVec.ofNat 16 (cause + 16 * (if cause == 6 then 0 else lvl) + (if wr then 64 else 0)) }

/-- MEM_TENANT (R293). -/
def tenantTrap (va pa : Nat) : Trap :=
  { cls := 0x15, val := BitVec.ofNat 64 va, detail := BitVec.ofNat 16 (stackOf pa + 16 * regionOf pa) }

/-- STK_NOT_OWNER (R421, R447): stack, owner, requester's die. -/
def ownerTrap (va stack owner die : Nat) : Trap :=
  { cls := 0x1E, val := BitVec.ofNat 64 va, detail := BitVec.ofNat 16 (stack + 16 * owner + 64 * die) }

/-- ECC_UNCORR of device memory (R29, R279). -/
def hbmTrap (va pa : Nat) : Trap := { cls := 0x05, val := BitVec.ofNat 64 va, detail := BitVec.ofNat 16 (stackOf pa + 64) }

/-- The trap of a failed walk: XLAT_FAULT, or ECC_UNCORR of a word of the page table (R279, R293). -/
def walkTrap (va : Nat) (f : Nat × Nat) (wr : Bool) : Trap :=
  if f.1 == walkEcc then { cls := 0x05, val := BitVec.ofNat 64 va, detail := BitVec.ofNat 16 (f.2 + 64) } else xlatTrap va f.1 f.2 wr

/-- A refusal by a channel updates TLOG (R282, R294). -/
def State.tlog (s : State) (ten pa : Nat) : State :=
  let n := 0x01A0 + stackOf pa
  let cnt := min 65535 (bits (s.mgv n) 63 48 + 1)
  s.setMg n (BitVec.ofNat 64 (cnt * 2 ^ 48 + ten * 2 ^ 42 + regionOf pa * 2 ^ 38 + s.ownerTen pa * 2 ^ 32 + pa / 16 % 2 ^ 32))

/-- Does a covering access need read, write or both permissions (R290)? -/
structure Need where
  rd : Bool
  wr : Bool
  deriving DecidableEq, Repr

/-- The first uncorrectable word of a range (R29, R404). -/
def State.badWord (s : State) (pa n : Nat) : Option Nat :=
  (s.hbmPoison.filter (fun w => w < memKey pa + n && memKey pa < w + 8)).foldl (fun r w => some (match r with | some v => min v w | none => w)) none

/-- What a read of a range meets: a word of a lost page or an uncorrectable word; the trap of the second names the word's first byte that is read (R29,
R279, R287, R404, R446). -/
def State.dataFault (s : State) (va pa len : Nat) : Option Trap :=
  if s.lost.any (fun r => r.1 < memKey pa + len && memKey pa < r.2.1) then some ⟨0x20, BitVec.ofNat 64 va, 1⟩
  else (s.badWord pa len).map (fun w => hbmTrap (max va (va + w - memKey pa)) pa)

/-- EXCL for a request of a unit on a die, at the requester, and then the tenant wall at the channel or the L2 (R268, R282, R421). die is none for a
request of the hub or the host, exempt from EXCL. -/
def State.wallFault (s : State) (ten : Nat) (die : Option Nat) (va pa : Nat) : Option Trap :=
  let st := stackOf pa
  match die with
  | some d =>
    if (s.mgv (0x8000 + st)).getLsbD 8 && ten != 0 && s.ownerDie st != d then some (ownerTrap va st (s.ownerDie st) d)
    else if s.ownerTen pa != ten then some (tenantTrap va pa) else none
  | none => if s.ownerTen pa != ten then some (tenantTrap va pa) else none

/-- The checks after translation of a read by a tenant on a die: EXCL, tenant wall, ECC (R282, R296, R421). -/
def State.accessFault (s : State) (ten : Nat) (die : Option Nat) (va pa len : Nat) : Option Trap :=
  match s.wallFault ten die va pa with
  | some t => some t
  | none => s.dataFault va pa len

/-- The checks after translation of an access: one that only writes meets no uncorrectable or lost word, which a write of the whole word clears (R279,
R404, R446). -/
def State.grantFault (s : State) (ten : Nat) (die : Option Nat) (va pa len : Nat) (need : Need) : Option Trap :=
  if need.rd then s.accessFault ten die va pa len else s.wallFault ten die va pa

/-- Translation by an engine in one go, permissions included: the physical address, or the fault, or MIG (R289 to R292). -/
inductive Xlat
  | ok (pa : Nat)
  | fault (t : Trap)
  | mig
  deriving DecidableEq, Repr

/-- Does a cached translation cover an address of an ASID (R291)? -/
def TlbEnt.covers (e : TlbEnt) (asid va : Nat) : Bool := e.asid == asid && e.va ≤ va && va < e.va + e.size

/-- The cached translation of an address for a core and the die that walks for it: micro-TLB, then shared TLB (R289, R291). -/
def State.tlbHit (s : State) (core : CoreId) (die asid va : Nat) : Option TlbEnt :=
  match (s.core core).utlb.find? (·.covers asid va) with
  | some e => some e
  | none => (s.die die).stlb.find? (·.covers asid va)

/-- A translation entered in a die's TLBs for a core (R291): the oldest leave. -/
def State.fillTlb (s : State) (die : Nat) (core : CoreId) (asid : Nat) (l : Leaf) : State :=
  let e : TlbEnt := ⟨asid, l.va, l.size, l.pa, l.rd, l.wr, l.lvl⟩
  let put (n : Nat) (t : List TlbEnt) : List TlbEnt := let t := t.filter (· != e) ++ [e]; t.drop (t.length - n)
  let s := s.updDie die (fun d => { d with stlb := put 16384 d.stlb })
  if core < numCores then s.updCore core (fun k => { k with utlb := put 64 k.utlb }) else s

/-- A unit's translation of one address: the TLBs, else a walk (R289 to R292). -/
def State.xlate (s : State) (core : CoreId) (die asid va : Nat) (need : Need) (isWr : Bool) : Xlat :=
  if va ≥ 2 ^ 56 then .fault (xlatTrap va 6 0 isWr)
  else match s.tlbHit core die asid va with
  | some e => if (need.rd && !e.rd) || (need.wr && !e.wr) then .fault (xlatTrap va 4 e.lvl isWr) else .ok (e.pa + (va - e.va))
  | none =>
    match s.walk die asid va with
    | .error f => .fault (walkTrap va f isWr)
    | .ok l =>
      if (need.rd && !l.rd) || (need.wr && !l.wr) then .fault (xlatTrap va 4 l.lvl isWr)
      else if l.mig then .mig
      else .ok (l.pa + (va - l.va))

/-! ### The L2 and the cache layer (R265 to R271, R280, R281) -/

/-- Remote ways of a die's slice that fills respect: those of a conversion under way and those of L2REMW (R266, R269). -/
def State.remw (s : State) (die slice : Nat) : Nat × Nat :=
  let new := bits (s.mgv (0x0100 + 16 * die)) 3 0
  let old := ((s.die die).convert.get? slice).getD new
  (min old new, max old new)

/-- Lines of a slice's set on a die. -/
def State.setLines (s : State) (die pa : Nat) : List L2Line :=
  (s.die die).l2.filter (fun l => sliceOf l.pa == sliceOf pa && l2Set l.pa == l2Set pa)

/-- Priority of a handle of a die. -/
def State.handlePrio (s : State) (die h : Nat) : Nat := (((s.die die).handles.find? (fun r => r.num == h)).map (·.prio)).getD 0

/-- The least value of f over a list, and the first element that has it. -/
def firstMin {α : Type} (f : α → Nat) : List α → Option α
  | [] => none
  | x :: t =>
    match firstMin f t with
    | some y => if f y < f x then some y else some x
    | none => some x

/-- The handle of a die whose range holds an address of an ASID, 0 for none (R270). -/
def State.handleOf (s : State) (die asid va : Nat) : Nat :=
  (((s.die die).handles.find? (fun h => h.asid == asid && h.start ≤ va && va < h.start + h.len)).map (·.num)).getD 0

/-- A cache-layer access of a sector under a handle of a die: a hit makes its block the most recently used; a miss fills the sector, and allocates the
block, its victim chosen under R281. A write marks the sector dirty (R280, R281). The list keeps the most recently used block last. -/
def State.layerUse (s : State) (pa die handle : Nat) (wr : Bool) : State :=
  let blk := memKey pa / 4096 * 4096
  let sector := memKey pa / 256 % 16
  let same (b : HbmBlock) : Bool := b.stack == stackOf pa && b.blk / 4096 % 2 ^ 18 == blk / 4096 % 2 ^ 18
  let mark (l : List Nat) : List Nat := if l.contains sector then l else l ++ [sector]
  match s.hbm.find? (fun b => b.blk == blk) with
  | some b =>
    let b' := { b with valid := mark b.valid, dirty := if wr then mark b.dirty else b.dirty, die := if wr && handle != 0 then die else b.die,
                       handle := if wr && handle != 0 then handle else b.handle }
    { s with hbm := s.hbm.erase b ++ [b'] }
  | none =>
    let new (w : Nat) : HbmBlock :=
      { stack := stackOf pa, blk := blk, way := w, valid := [sector], dirty := if wr then [sector] else [], die := die, handle := handle }
    let here := s.hbm.filter same
    match (List.range 4).find? (fun w => here.all (fun b => b.way != w)) with
    | some w => { s with hbm := s.hbm ++ [new w] }
    | none =>
      match here.find? (fun b => b.handle == 0) with
      | some v => { s with hbm := s.hbm.erase v ++ [new v.way] }
      | none =>
        match firstMin (fun b => s.handlePrio b.die b.handle) here with
        | some v => { s with hbm := s.hbm.filter (fun b => !(b.die == v.die && b.handle == v.handle)) ++ [new v.way] }
        | none => s

/-- A line leaves the L2 of a die: a dirty line is written into its stack's cache layer, where it stays tagged; the copies of a line leave with it, and
a copy leaves the sharer set (R266, R267, R271, R281). -/
def State.l2Evict (s : State) (die : Nat) (l : L2Line) : State :=
  let s := if l.remote then s.updHomeLine l.pa (fun h => { h with sharers := h.sharers.filter (· != die) })
    else if l.sharers.isEmpty then s else s.dropCopies l.pa
  let s := s.updDie die (fun d => { d with l2 := d.l2.filter (fun k => !(k.pa == l.pa && k.remote == l.remote)) })
  if l.dirty then s.layerUse l.pa die l.handle true else s

/-- A handle is demoted from the L2 of a die: each of its lines is written back and invalidated (R271). An armed line keeps its residence, clean and
untagged: DEDUCED from R309 (log 108). -/
def State.demoteL2 (s : State) (die h : Nat) : State :=
  ((s.die die).l2.filter (fun l => l.handle == h)).foldl (fun s l =>
    if l.armed then
      (if l.dirty then s.layerUse l.pa die h true else s).updDie die (fun d =>
        { d with l2 := updFirst (fun k => k.pa == l.pa && k.remote == l.remote) (fun k => { k with handle := 0, dirty := false }) d.l2 })
    else s.l2Evict die l) s

/-- A line enters one of the given ways of its set on a die, its victim chosen under R271; the list keeps the most recently used line last. No way: no
line enters. -/
def State.l2Insert (s : State) (die : Nat) (ways : List Nat) (line : L2Line) : State :=
  let here := s.setLines die line.pa
  let put (s : State) (w : Nat) : State := s.updDie die (fun d => { d with l2 := d.l2 ++ [{ line with way := w }] })
  match ways.find? (fun w => here.all (fun l => l.way != w)) with
  | some w => put s w
  | none =>
    let cand := here.filter (fun l => ways.contains l.way && !l.armed)
    match cand.find? (fun l => l.handle == 0) with
    | some v => put (s.l2Evict die v) v.way
    | none =>
      match firstMin (fun l => s.handlePrio die l.handle) cand with
      | some v => put (s.demoteL2 die v.handle) v.way
      | none => s

/-- A line filled into the L2 of a die for an access of an ASID, tagged with the handle of its range (R266, R268, R270, R271). -/
def State.l2Put (s : State) (die asid va pa : Nat) : State :=
  let line := lineOf pa
  let remote := s.ownerDie (stackOf pa) != die
  let (lo, hi) := s.remw die (sliceOf line)
  let t := s.l2Insert die (if remote then upto (16 - lo) lo else List.range (16 - hi))
    { pa := line, way := 0, remote := remote, dirty := false, sharers := [], ten := s.ownerTen line, handle := s.handleOf die asid va, armed := false }
  if remote && (t.die die).l2.any (fun l => l.pa == line && l.remote) then t.updHomeLine line (fun l => { l with sharers := l.sharers ++ [die] }) else t

/-- A line used at its home: it becomes the most recently used of its die. -/
def State.touch (s : State) (pa : Nat) : State :=
  match s.homeLine pa with
  | some l => s.updDie (s.ownerDie (stackOf pa)) (fun d => { d with l2 := d.l2.erase l ++ [l] })
  | none => s

/-- An access at the home slice of a line: on a miss its sector is read through the cache layer and the line filled (R265, R270, R271, R280). -/
def State.l2Home (s : State) (asid va pa : Nat) : State :=
  let d := s.ownerDie (stackOf pa)
  if (s.homeLine pa).isSome then s.touch pa else (s.layerUse pa d (s.handleOf d asid va) false).l2Put d asid va pa

/-- A unit's access to a line: a read of another die's line looks up the remote ways of its own die first, and fills one on a miss; a write goes to the
home slice (R266, R267). die is that of the requester; none for the hub and the host. -/
def State.l2Use (s : State) (die : Option Nat) (asid va pa : Nat) (wr : Bool) : State :=
  match if wr then none else die with
  | none => s.l2Home asid va pa
  | some d =>
    if d == s.ownerDie (stackOf pa) then s.l2Home asid va pa
    else match (s.die d).l2.find? (fun l => l.pa == lineOf pa && l.remote) with
      | some l => s.updDie d (fun k => { k with l2 := k.l2.erase l ++ [l] })
      | none => (s.l2Home asid va pa).l2Put d asid va pa

/-- The lines of a unit's access of n bytes used, one after the other. -/
def State.l2Span (s : State) (die : Option Nat) (asid va pa n : Nat) (wr : Bool) : State :=
  (List.range ((pa % 64 + n + 63) / 64)).foldl (fun s i => s.l2Use die asid (va / 64 * 64 + 64 * i) (lineOf pa + 64 * i) wr) s

/-! ### Events (R409) and interrupts (R433) -/

/-- The time since device reset in µs, at whatever frequencies CLK has run (R382, R385). -/
def State.micros (s : State) : Rat := s.clkBase.2 + ((s.time : Rat) - (s.clkBase.1 : Rat)) / ((bits (s.mgv 0x9002) 15 0 : Nat) : Rat)

/-- The 32-byte record of R409 Table 7, without its number. -/
def eventRecord (s : State) (typ ten lid cls detail core bank : Nat) (info : W64) : List Byte :=
  toBytes 8 (lid + ten * 2 ^ 34 + typ * 2 ^ 40)
    ++ toBytes 8 (bank * 2 ^ 29 + core * 2 ^ 31 + cls * 2 ^ 40 + detail * 2 ^ 48)
    ++ toBytes 8 info.toNat ++ toBytes 8 s.time

/-- A vector's pending interrupt count raised by one (R433). -/
def State.pend (s : State) (f vec : Nat) : State :=
  { s with msix := s.msix.set (64 * f + vec) (match s.msix.get? (64 * f + vec) with
      | some m => { m with pending := m.pending + 1, since := if m.pending == 0 then s.micros else m.since }
      | none => { masked := true, pba := false, pending := 1, since := s.micros, addr := 0, data := 0 }) }

/-- A record's bytes with its number in the ring in bits [63:48] of its first word (R409). -/
def numbered (h : Nat) (bs : List Byte) : List Byte := bs.take 6 ++ toBytes 2 h ++ bs.drop 8

/-- A ring's record written to device memory by the hub, through the home slice of its line (R265, R280, R409, R444). No tenant id goes with it, and
the tenant wall does not test it: DESIGN CHOICE (log 120). -/
def State.ringWrite (s : State) (pa : Nat) (bs : List Byte) : State := (s.l2Span none 2048 pa pa bs.length true).devWrite pa bs

/-- A record appended to a ring whose producer index is h and whose slot i lies at slot i. Among the records of one cycle the order is by key, so that
those of the cycle with a greater key go one slot on (R409, R444). -/
def State.ringPut (s : State) (ring key h : Nat) (slot : Nat → Nat) (num : Bool) (bs : List Byte) : State :=
  let now := if s.recs.1 == s.time then s.recs.2 else []
  let old := now.filter (·.ring == ring)
  let r : RingRec := ⟨ring, key, bs⟩
  let after := old.filter (key < ·.key)
  let s := (r :: after).zipIdx.foldl (fun s e =>
    let i := h - after.length + e.2
    s.ringWrite (slot i) (if num then numbered i e.1.bytes else e.1.bytes)) s
  { s with recs := (s.time, now.filter (·.ring != ring) ++ old.filter (·.key ≤ key) ++ r :: after) }

/-- The records of the present cycle in a ring without the last of them, if that one comes after a key (R409). -/
def State.dropLast (s : State) (ring key : Nat) : Option (List RingRec) :=
  let now := if s.recs.1 == s.time then s.recs.2 else []
  match (now.filter (·.ring == ring)).getLast? with
  | some r => if key < r.key then some (now.filter (· != r)) else none
  | none => none

/-- An event into the PF ring. Where the ring has no room, the last record of the cycle in R409's order is lost. -/
def State.pfEvent (s : State) (typ ten lid cls detail core bank : Nat) (info : W64) : State :=
  let q := s.mgv 0x0A40
  let h := (s.mgv 0x0A41).toNat
  let t := (s.mgv 0x0A42).toNat
  let size := 2 ^ (bits q 3 0 + 7)
  let key := 512 * typ + core
  let put (s : State) (h : Nat) : State :=
    s.ringPut 0 key h (fun i => bits q 47 12 * 2 ^ 12 + 32 * (i % size)) true (eventRecord s typ ten lid cls detail core bank info)
  if (h + 2 ^ 64 - t) % 2 ^ 64 < size then ((put s h).setMg 0x0A41 (BitVec.ofNat 64 (h + 1))).pend 0 0
  else
    let s := s.setMg 0x0A43 (s.mgv 0x0A43 + 1)
    match s.dropLast 0 key with
    | some l => put { s with recs := (s.time, l) } (h - 1)
    | none => s

/-- Has the VF ring of a tenant room for a record (R433, R448)? -/
def State.vfRoom (s : State) (ten : Nat) : Bool :=
  ((s.vfHead.get? ten).getD 0 + 2 ^ 64 - (s.mgv (0x81A1 + 2 * ten)).toNat) % 2 ^ 64 < 2 ^ (bits (s.mgv (0x81A0 + 2 * ten)) 3 0 + 7)

/-- The virtual address of the next record in the VF ring of a tenant (R433, R448). -/
def State.vfSlot (s : State) (ten : Nat) : Nat :=
  let q := s.mgv (0x81A0 + 2 * ten)
  bits q 55 12 * 2 ^ 12 + 32 * ((s.vfHead.get? ten).getD 0 % 2 ^ (bits q 3 0 + 7))

/-- The ASID of the aperture of a function (R432, R448). -/
def State.apAsid (s : State) (f : Nat) : Nat := bits (s.mgv (0x82A0 + f)) 10 0

/-- A tenant's record written at pa in its VF ring, whose producer index advances (R433, R448). -/
def State.vfRecord (s : State) (ten vec pa : Nat) (bs : List Byte) : State :=
  let h := (s.vfHead.get? ten).getD 0
  let t := (s.l2Span none (s.apAsid ten) (s.vfSlot ten) pa 32 true).devWrite pa (numbered h bs)
  { t with vfHead := t.vfHead.set ten (h + 1) }.pend ten vec

/-- A record for the VF ring of a tenant at what its translation gives: the state after it, or the fault of the access, or none for a migrating page. -/
def State.vfAt (s : State) (ten vec : Nat) (bs : List Byte) : Xlat → Except (State × Option Trap) State
  | .mig => .error (s, none)
  | .fault t => .error (s, some t)
  | .ok pa =>
    if !s.isLocal pa then .error (s, some (xlatTrap (s.vfSlot ten) 5 2 true))
    else if s.ownerTen pa == ten then .ok (s.vfRecord ten vec pa bs)
    else .error ((s.tlog ten pa).pfEvent 7 ten 0 0 0 0 0 ((s.tlog ten pa).mgv (0x01A0 + stackOf pa)), some (tenantTrap (s.vfSlot ten) pa))

/-- A record into the VF ring of a tenant, at virtual addresses of APC.ASID, an access of the tenant that die 0 translates (R282, R289, R426, R433,
R448). -/
def State.vfPut (s : State) (typ ten lid cls detail core bank vec : Nat) (info : W64) : Except (State × Option Trap) State :=
  if s.vfRoom ten then
    s.vfAt ten vec (eventRecord s typ ten lid cls detail core bank info) (s.xlate numCores 0 (s.apAsid ten) (s.vfSlot ten) ⟨false, true⟩ true)
  else .ok s

/-- The state that a record into a VF ring leads to, with or without a fault. -/
def vfState : Except (State × Option Trap) State → State
  | .ok t => t
  | .error (t, _) => t

/-- An event into the VF ring of a tenant; one whose access faults is lost (R282, R433, R448). -/
def State.vfEvent (s : State) (typ ten lid cls detail core bank vec : Nat) (info : W64) : State :=
  vfState (s.vfPut typ ten lid cls detail core bank vec info)

/-- An event: into the PF ring, and for types 1, 2 and 5 of a tenant with a VF into its ring too (R433). -/
def State.event (s : State) (typ ten lid cls detail core bank : Nat) (info : W64) : State :=
  let s := s.pfEvent typ ten lid cls detail core bank info
  if (typ == 1 || typ == 2 || typ == 5) && ten != 0 && s.vfs.contains ten then s.vfEvent typ ten lid cls detail core bank 0 info else s

/-- A trap that is a refusal by the tenant wall updates TLOG and writes event 7 (R268, R282, R409). -/
def State.noteRefusal (s : State) (core ten pa : Nat) (t : Trap) : State :=
  if t.cls == 0x15 then
    let s := s.tlog ten pa
    s.event 7 ten 0 0 0 (if core < numCores then core else 0) 0 (s.mgv (0x01A0 + stackOf pa))
  else s

/-! ### Traps (R30) -/

/-- A registration of a waiting context is withdrawn, and its line's armed bit follows (R297, R309). -/
def State.withdraw (s : State) (c : CtxId) : State :=
  match (s.ctx c).wait with
  | some (.barrier _ _ pa _ none) =>
    let line := lineOf pa
    let s := { s with barWaiters := s.barWaiters.filter (fun w => w.2 != c)
                      dreqs := s.dreqs.filter (fun r => r.who != .ctx c || match r.kind with | .barReg _ => false | _ => true) }
    let w := s.dev64 pa
    if s.barWaiters.any (fun w => w.1 == line) || bits w 15 0 < bits w 31 16 then s
    else s.updHomeLine line (fun l => { l with armed := false })
  | _ => s

/-- Entry into the handler (R30). -/
def Ctx.enter (c : Ctx) (t : Trap) : Ctx :=
  { c with
    st := .ready
    wait := none
    achInt := match c.wait with
      | some (.achWait _ cid) => some (c.ipc, cid)
      | _ => none
    trapa := c.ipc
    trapv := t.val
    trapc := (t.detail.zeroExtend 64 <<< 16) ||| 0x100#64 ||| t.cls.zeroExtend 64
    ipc := 0x20 }

/-- A context enters STOPPED or is destroyed: its lease is broken; of those of one cycle, the first by LY and then LX is named (R133). -/
def State.breakLease (s : State) (c : CtxId) : State :=
  let x := s.ctx c
  match s.leases.get? x.lease with
  | some l =>
    let d := x.ly.toNat * 32 + x.lx.toNat
    match l.broken with
    | some (e, t) => if t == s.time && d < e then { s with leases := s.leases.set x.lease { l with broken := some (d, t) } } else s
    | none => { s with leases := s.leases.set x.lease { l with broken := some (d, s.time) } }
  | none => s

/-- Is a lease gated: some of its contexts is GATED, and every one that is neither EMPTY nor STOPPED (R375)? -/
def State.leaseGated (s : State) (l : Lease) : Bool :=
  l.ctxs.any (fun c => (s.ctx c).gated)
    && l.ctxs.all (fun c => (s.ctx c).gated || (s.ctx c).st == .empty || (s.ctx c).st == .stopped)

/-- The counts of a lease stop while it is gated, and go on from where they stood (R375). -/
def State.refreeze (s : State) (lid : Nat) : State :=
  match s.leases.get? lid with
  | none => s
  | some l =>
    match s.leaseGated l, l.frozen with
    | true, none => { s with leases := s.leases.set lid { l with frozen := some s.time } }
    | false, some t =>
      let d := s.time - t
      let later (k : Option Coll) : Option Coll := k.map (fun k => { k with t0 := k.t0 + d })
      { s with leases := s.leases.set lid { l with
          frozen := none
          slip := l.slip + d
          go := later l.go
          bar := later l.bar
          stopAt := l.stopAt.map (· + d) } }
    | _, _ => s

/-- A trap taken with ACTIVE = 1: STOPPED, with the stop record, and event 1 (R30, R409). -/
def State.stopTrap (s : State) (c : CtxId) (t : Trap) : State :=
  let x := s.ctx c
  let s := (((s.withdraw c).updCtx c (fun x => { x with st := .stopped, wait := none, raised := [], stop := (t.cls, x.ipc) })).breakLease c).refreeze x.lease
  s.event 1 x.ten.toNat x.lease t.cls.toNat t.detail.toNat (coreOf c) (c % 4) (x.ipc.zeroExtend 64)

/-- The oldest raised trap of a context, taken where R30 allows it: at a boundary, not gated before this cycle (R391, R402), with CNT.LD = CNT.ST = 0 unless it stops
the context. -/
def State.trapEntry (s : State) (c : CtxId) : State :=
  let x := s.ctx c
  match x.raised with
  | [] => s
  | t :: rest =>
    if (x.gated && x.gateAt != s.time) || (x.st != .ready && x.st != .waiting) then s
    else if x.active then s.stopTrap c t
    else if x.cntLd == 0 && x.cntSt == 0 then (s.withdraw c).updCtx c (fun x => { x with raised := rest }.enter t)
    else s

/-- A trap raised for a context, and taken at once where that is allowed. A STOPPED or EMPTY context takes none. -/
def State.raise (s : State) (c : CtxId) (t : Trap) : State :=
  let x := s.ctx c
  if x.st == .ready || x.st == .waiting then (s.updCtx c (fun x => { x with raised := x.raised ++ [t] })).trapEntry c else s

/-! ### Lasting-failed links (R405, R408, R419) -/

/-- HW_ERROR with its source (R407 Table 6). -/
def hwTrap (src : Nat) (val : W64) : Trap := { cls := 0x1D, val := val, detail := BitVec.ofNat 16 src }

/-- The next link of a dimension-ordered route, x first: side 0 N, 1 E, 2 S, 3 W, and the core beyond. -/
def nextLink (fr dst : CoreId) : Option (Nat × CoreId) :=
  if coreX fr < coreX dst then some (1, fr + 1) else if coreX dst < coreX fr then some (3, fr - 1)
  else if coreY fr < coreY dst then some (2, fr + 20) else if coreY dst < coreY fr then some (0, fr - 20) else none

/-- The source of a failed link of a core's side. -/
def State.deadAt (s : State) (k : CoreId) (side : Nat) (mesh : Bool) : Option Nat :=
  (s.dead.find? (fun d => d.core == k && d.side == side && d.mesh == mesh)).map (·.src)

/-- The source of the first failed link of a route; the fuel covers the longest route. -/
def State.deadOn (s : State) (mesh : Bool) : Nat → CoreId → CoreId → Option Nat
  | 0, _, _ => none
  | n + 1, fr, dst =>
    match nextLink fr dst with
    | none => none
    | some (side, k) => (s.deadAt fr side mesh).orElse (fun _ => s.deadOn mesh n k dst)

/-- A free address word for HW_ERROR or event 4. -/
def State.freeAddr (s : State) : W64 × State := (Config.hwAddr s.free, { s with free := s.free + 1 })

/-- A message of a context that has no address of its own cannot cross a link (R405). -/
def State.lostMessage (s : State) (c : CtxId) (src : Nat) : State :=
  let (v, s) := s.freeAddr
  s.raise c (hwTrap src v)

/-! ### The issue of a control word -/

/-- The frame of every control word: conditions that hold it whatever its guard (R13), then the guard, then its effect. -/
def State.issue (s : State) (g : Guard) (hold : Ctx → Bool) (eff : Ctx → State) : Host.Outcome State Fault Refusal :=
  let c := s.ctx s.cur
  if hold c then .next s
  else if c.guard g then .next (eff c)
  else .next (s.setCtx s.cur c.advance)

/-- A word whose only effect is on its own context, which then goes on. -/
def State.simple (s : State) (g : Guard) (hold : Ctx → Bool) (eff : Ctx → Ctx) : Host.Outcome State Fault Refusal :=
  s.issue g hold (fun c => s.setCtx s.cur (eff c).advance)

/-- A context enters WAITING at the word it has issued (R18). -/
def State.waitFor (s : State) (c : CtxId) (w : Wait) : State := s.updCtx c (fun x => { x with st := .waiting, wait := some w })

/-- A waiting context's word retires: READY at the next word in the next cycle (R18). -/
def State.retire (s : State) (c : CtxId) (f : Ctx → Ctx) : State :=
  s.updCtx c (fun x => { f x with st := .ready, wait := none, wake := s.time + 1 }.advance)

/-- A trap of the word at the context's IPC. -/
def State.trapAt (s : State) (cls : BitVec 8) (val : W64) (detail : Nat) : State :=
  s.raise s.cur { cls := cls, val := val, detail := BitVec.ofNat 16 detail }

end Sys2Proof.Machine
end

