-- ==== Sys2Proof/Machine/Fetch.lean ====
section
/-! DEFINITION. Fetch of a control word (R20, R24, R59), and the cycles open to a tenant under its duty (R384). -/

namespace Sys2Proof.Machine

/-- The control word that the instruction store of a context holds at a byte offset (R5, R20). -/
def Ctx.wordAt (c : Ctx) (off : Nat) : W32 := bytesWord (c.istore.bytes off 4)

/-- The word at IPC decoded, or the trap of the fetch or of R59. -/
def Ctx.fetch (c : Ctx) : Except Trap Instr :=
  let a := c.ipc.toNat
  if a ≥ c.ilen then .error ⟨0x06, c.ipc.zeroExtend 64, 0⟩
  else if c.ipoison.contains (a / 8 * 8) then .error ⟨0x05, c.ipc.zeroExtend 64, 0x80⟩
  else match decodeWord (c.wordAt a) with
    | .ok i => .ok i
    | .error _ => .error ⟨0x01, (c.wordAt a).zeroExtend 64, 0⟩

/-- A trap that names its instruction word (R205). -/
def wordTrap (i : Instr) (cls : BitVec 8) (detail : Nat) : Trap := ⟨cls, (encodeWord i).zeroExtend 64, BitVec.ofNat 16 detail⟩
/-- DET_ORDER (R443, R447): the opcode. -/
def detOrder (i : Instr) : Trap := wordTrap i 0x21 ((encodeWord i).toNat / 2 ^ 21 % 128)

/-- SYS_ONLY (R389): the opcode. -/
def sysOnly (i : Instr) : Trap := wordTrap i 0x1C ((encodeWord i).toNat / 2 ^ 21 % 128)

/-- Is cycle c open to a duty of d sixteenths (R384)? -/
def dutyCycle (d c : Nat) : Bool := (c % 16 + 1) * d / 16 > c % 16 * d / 16

/-- Duty d of a tenant (R384, R387). -/
def State.duty (s : State) (t : Nat) : Nat :=
  match s.dutyNext.get? t with
  | some (d, c) => if s.time < c then bits (s.mgv (0x0800 + t)) 15 12 + 1 else d + 1
  | none => bits (s.mgv (0x0800 + t)) 15 12 + 1

/-- May a tenant's contexts issue and its cells fire in this cycle (R384)? -/
def State.isOpen (s : State) (t : Nat) : Bool := dutyCycle (s.duty t) s.time

/-- Can an outstanding operation no longer trap (R21): its bank access made, or its device access checked or performed without a fault? CQ.SUB, whose
slot write counts in CNT.ST, is no pending writer: it retires with its destination written, so that the next instruction reads it (R21, R348). -/
def State.retired (s : State) (o : MemOp) : Bool :=
  o.done || match o.body with
  | .store _ _ _ => true
  | .load _ _ _ | .amo _ _ _ _ _ => o.res.isSome
  | .dev r =>
    match s.dreqs.find? (fun q => q.id == r) with
    | some q => !(o.isStore && o.dst != 0) && (q.checked || ((q.stage == .back || q.stage == .done) && q.fault.isNone))
    | none => true

/-- May a context issue in this cycle: READY and past the cycle of its wait's end, not at END, not gated, no trap waiting to be taken, every older
operation retired, its tenant's cycle open (R18, R21, R30, R384, R391)? -/
def State.canIssue (s : State) (c : CtxId) : Bool :=
  let x := s.ctx c
  x.st == .ready && x.wait.isNone && x.wake ≤ s.time && !x.gated && x.raised.isEmpty && x.ops.all s.retired && s.isOpen x.ten.toNat

end Sys2Proof.Machine
end

