-- ==== Sys2Proof/Machine/Flags.lean ====
section
/-! DEFINITION. The flag word (R45) and all arithmetic that sets it: rounding, overflow, tininess, special values (R34 to R53), the approximate
functions (R182, R183) and the anchored format (R50 to R52). A bit pattern of a format is a Nat here, since the formats have three widths. -/

namespace Sys2Proof.Machine

/-- The flags of R45 Table 4. -/
def flagNX : W32 := 1
/-- Tiny inexact result (R41, R45). -/
def flagUF : W32 := 2
/-- Overflow or saturation (R40, R45, R46). -/
def flagOF : W32 := 4
/-- Division of a finite value by zero (R45). -/
def flagDZ : W32 := 8
/-- Invalid operation or signalling NaN (R42, R45). -/
def flagNV : W32 := 16
/-- A saturation whose token could not be sent (R45, R47). -/
def flagSAT : W32 := 32

/-- The floating-point formats of R34 Table 1. -/
inductive Fmt | fp32 | bf16 | fp16
  deriving DecidableEq, Repr

/-- The rounding modes of R38 Table 3. -/
inductive Round | rne | rtz | rup | rdn
  deriving DecidableEq, Repr

/-- The rounding mode of a 2-bit code (R38). -/
def Round.ofCode (c : BitVec 2) : Round :=
  if c == 0 then .rne else if c == 1 then .rtz else if c == 2 then .rup else .rdn

/-- Fraction bits (R34). -/
def Fmt.frac : Fmt → Nat
  | .fp32 => 23
  | .bf16 => 7
  | .fp16 => 10

/-- Exponent bits (R34). -/
def Fmt.expBits : Fmt → Nat
  | .fp32 => 8
  | .bf16 => 8
  | .fp16 => 5

/-- Exponent bias (R34). -/
def Fmt.bias : Fmt → Int
  | .fp32 => 127
  | .bf16 => 127
  | .fp16 => 15

/-- Width in bits. -/
def Fmt.width (f : Fmt) : Nat := f.frac + f.expBits + 1

/-- Pattern of +infinity. -/
def Fmt.inf (f : Fmt) : Nat := (2 ^ f.expBits - 1) * 2 ^ f.frac
/-- Pattern of the largest finite value. -/
def Fmt.maxFinite (f : Fmt) : Nat := f.inf - 1
/-- The canonical NaN (R34, R42). -/
def Fmt.nan (f : Fmt) : Nat := f.inf + 2 ^ (f.frac - 1)
/-- The sign bit of a pattern, as a summand. -/
def Fmt.sign (f : Fmt) (neg : Bool) : Nat := if neg then 2 ^ (f.width - 1) else 0

/-- An exact value: a NaN (signalling or quiet), an infinity, or (-1)^neg * m * 2^e. -/
inductive Val
  | nan (signalling : Bool)
  | inf (neg : Bool)
  | fin (neg : Bool) (m : Nat) (e : Int)
  deriving DecidableEq, Repr

/-- The value of a pattern (R34), a BF16 subnormal flushed to a zero of its sign (R41). -/
def Fmt.val (f : Fmt) (x : Nat) : Val :=
  let neg := x / 2 ^ (f.width - 1) % 2 == 1
  let ex := x / 2 ^ f.frac % 2 ^ f.expBits
  let fr := x % 2 ^ f.frac
  if ex == 2 ^ f.expBits - 1 then
    if fr == 0 then .inf neg else .nan (fr / 2 ^ (f.frac - 1) == 0)
  else if ex == 0 then
    .fin neg (if f == .bf16 then 0 else fr) (1 - f.bias - f.frac)
  else .fin neg (2 ^ f.frac + fr) ((ex : Int) - f.bias - f.frac)

/-- flushbf() of R41 on a BF16 pattern. -/
def flushbf (x : Nat) : Nat :=
  if x / 2 ^ 7 % 2 ^ 8 == 0 then x / 2 ^ 15 % 2 * 2 ^ 15 else x % 2 ^ 16

/-- Does the quotient with this remainder round away from zero (R38)? -/
def roundsUp (mode : Round) (neg : Bool) (q rem unit : Nat) : Bool :=
  match mode with
  | .rne => 2 * rem > unit || (2 * rem == unit && q % 2 == 1)
  | .rtz => false
  | .rup => rem != 0 && !neg
  | .rdn => rem != 0 && neg

/-- m * 2^e rounded to a multiple of 2^q: the multiple, and whether it is inexact. -/
def roundAt (mode : Round) (neg : Bool) (m : Nat) (e q : Int) : Nat × Bool :=
  if q ≤ e then (m * 2 ^ (e - q).toNat, false)
  else
    let unit := 2 ^ (q - e).toNat
    let fl := m / unit
    let rem := m % unit
    (if roundsUp mode neg fl rem unit then fl + 1 else fl, rem != 0)

/-- The result of an overflow in each mode (R40). -/
def Fmt.overflow (f : Fmt) (mode : Round) (neg : Bool) : Nat :=
  f.sign neg + match mode with
    | .rne => f.inf
    | .rtz => f.maxFinite
    | .rup => if neg then f.maxFinite else f.inf
    | .rdn => if neg then f.inf else f.maxFinite

/-- (-1)^neg * m * 2^e rounded once to the format (R39 to R43): pattern, flags, and whether it overflowed. sat saturates (R46). -/
def Fmt.round (f : Fmt) (mode : Round) (sat neg : Bool) (m : Nat) (e : Int) : Nat × W32 × Bool :=
  if m == 0 then (f.sign neg, 0, false)
  else
    let q := e + Nat.log2 m - f.frac
    let (n, inx) := roundAt mode neg m e q
    let top := q + Nat.log2 n
    if top > f.bias then
      (if sat then f.sign neg + f.maxFinite else f.overflow mode neg, flagOF ||| flagNX, true)
    else if top < 1 - f.bias then
      if f == .bf16 then (f.sign neg, flagUF ||| flagNX, false)
      else
        let (n', inx') := roundAt mode neg m e (1 - f.bias - f.frac)
        (f.sign neg + n', if inx' then flagUF ||| flagNX else 0, false)
    else
      (f.sign neg + ((q + f.frac + f.bias - 1) * 2 ^ f.frac + n).toNat, if inx then flagNX else 0, false)

/-- A value rounded to the format; infinities and NaNs are not overflows (R40, R42). -/
def Fmt.roundVal (f : Fmt) (mode : Round) : Val → Nat × W32
  | .nan _ => (f.nan, 0)
  | .inf neg => (f.sign neg + f.inf, 0)
  | .fin neg m e => let (r, fl, _) := f.round mode false neg m e; (r, fl)

/-- NV when the operand is a signalling NaN (R42). -/
def Val.nv : Val → W32
  | .nan true => flagNV
  | _ => 0

/-- Is it a NaN? -/
def Val.isNan : Val → Bool
  | .nan _ => true
  | _ => false

/-- The value with its sign flipped. -/
def Val.neg : Val → Val
  | .nan s => .nan s
  | .inf n => .inf (!n)
  | .fin n m e => .fin (!n) m e

/-- The sign of a value that is no NaN. -/
def Val.isNeg : Val → Bool
  | .nan _ => false
  | .inf n => n
  | .fin n _ _ => n

/-- m * 2^e as an integer multiple of 2^q, for q ≤ e. -/
def scaled (neg : Bool) (m : Nat) (e q : Int) : Int :=
  let k : Int := (m * 2 ^ (e - q).toNat : Nat)
  if neg then -k else k

/-- The exact product, and NV for 0 times infinity (R42, R43). Signalling operands are flagged by the caller. -/
def Val.mul : Val → Val → Val × W32
  | .nan _, _ => (.nan false, 0)
  | _, .nan _ => (.nan false, 0)
  | .inf a, .inf b => (.inf (a != b), 0)
  | .inf a, .fin b m _ => if m == 0 then (.nan false, flagNV) else (.inf (a != b), 0)
  | .fin a m _, .inf b => if m == 0 then (.nan false, flagNV) else (.inf (a != b), 0)
  | .fin a m e, .fin b m' e' => (.fin (a != b) (m * m') (e + e'), 0)

/-- The exact sum with the zero signs of R43, and NV for infinities of opposite signs (R42). -/
def Val.add (mode : Round) : Val → Val → Val × W32
  | .nan _, _ => (.nan false, 0)
  | _, .nan _ => (.nan false, 0)
  | .inf a, .inf b => if a == b then (.inf a, 0) else (.nan false, flagNV)
  | .inf a, .fin _ _ _ => (.inf a, 0)
  | .fin _ _ _, .inf b => (.inf b, 0)
  | .fin a m e, .fin b m' e' =>
    let q := min e e'
    let s := scaled a m e q + scaled b m' e' q
    if s == 0 then
      (.fin (if m == 0 && m' == 0 && a == b then a else mode == .rdn) 0 q, 0)
    else (.fin (s < 0) s.natAbs q, 0)

/-- round(a + b) (R158). -/
def Fmt.fadd (f : Fmt) (mode : Round) (a b : Nat) : Nat × W32 :=
  let x := f.val a
  let y := f.val b
  let (v, nv) := x.add mode y
  let (r, fl) := f.roundVal mode v
  (r, x.nv ||| y.nv ||| nv ||| fl)

/-- The pattern with its sign flipped: subtraction adds it. -/
def Fmt.flip (f : Fmt) (x : Nat) : Nat :=
  if x / 2 ^ (f.width - 1) % 2 == 1 then x - 2 ^ (f.width - 1) else x + 2 ^ (f.width - 1)

/-- round(a - b) (R158). -/
def Fmt.fsub (f : Fmt) (mode : Round) (a b : Nat) : Nat × W32 := f.fadd mode a (f.flip b)

/-- round(a * b) (R158). -/
def Fmt.fmul (f : Fmt) (mode : Round) (a b : Nat) : Nat × W32 :=
  let x := f.val a
  let y := f.val b
  let (v, nv) := x.mul y
  let (r, fl) := f.roundVal mode v
  (r, x.nv ||| y.nv ||| nv ||| fl)

/-- Values a, b, c fused: round(a * b + c), the product unrounded (R39, R158). -/
def Fmt.fusedVal (f : Fmt) (mode : Round) (x y z : Val) : Nat × W32 :=
  let (p, nv) := x.mul y
  let (v, nv') := p.add mode z
  let (r, fl) := f.roundVal mode v
  (r, x.nv ||| y.nv ||| z.nv ||| nv ||| nv' ||| fl)

/-- round(a * b + c) (R158). -/
def Fmt.fma (f : Fmt) (mode : Round) (a b c : Nat) : Nat × W32 := f.fusedVal mode (f.val a) (f.val b) (f.val c)

/-- round(a * b - c) (R158). -/
def Fmt.fms (f : Fmt) (mode : Round) (a b c : Nat) : Nat × W32 := f.fusedVal mode (f.val a) (f.val b) (f.val c).neg

/-- Is x less than y, both ordered, with -0 equal to +0 (R44)? -/
def Val.lt : Val → Val → Bool
  | .nan _, _ => false
  | _, .nan _ => false
  | .inf a, .inf b => a && !b
  | .inf a, .fin _ _ _ => a
  | .fin _ _ _, .inf b => !b
  | .fin a m e, .fin b m' e' => let q := min e e'; scaled a m e q < scaled b m' e' q

/-- Are x and y equal, with -0 equal to +0 (R44)? -/
def Val.eq : Val → Val → Bool
  | .nan _, _ => false
  | _, .nan _ => false
  | .inf a, .inf b => a == b
  | .inf _, .fin _ _ _ => false
  | .fin _ _ _, .inf _ => false
  | .fin a m e, .fin b m' e' => let q := min e e'; scaled a m e q == scaled b m' e' q

/-- A BF16 pattern with flushing applied; other formats keep the pattern (R41). -/
def Fmt.flushed (f : Fmt) (x : Nat) : Nat := if f == .bf16 then flushbf x else x

/-- Minimum under R44. -/
def Fmt.fmin (f : Fmt) (a b : Nat) : Nat × W32 :=
  let x := f.val a
  let y := f.val b
  let fl := x.nv ||| y.nv
  if x.isNan || y.isNan then (f.nan, fl)
  else if x.lt y || (x.eq y && x.isNeg) then (f.flushed a, fl) else (f.flushed b, fl)

/-- Maximum under R44. -/
def Fmt.fmax (f : Fmt) (a b : Nat) : Nat × W32 :=
  let x := f.val a
  let y := f.val b
  let fl := x.nv ||| y.nv
  if x.isNan || y.isNan then (f.nan, fl)
  else if y.lt x || (x.eq y && !x.isNeg) then (f.flushed a, fl) else (f.flushed b, fl)

/-- The sign bit cleared; a NaN gives the canonical NaN (R95, R158). -/
def Fmt.fabs (f : Fmt) (a : Nat) : Nat × W32 :=
  let x := f.val a
  if x.isNan then (f.nan, x.nv) else (f.flushed a % 2 ^ (f.width - 1), 0)

/-- The sign bit flipped; a NaN gives the canonical NaN (R95, R158). -/
def Fmt.fneg (f : Fmt) (a : Nat) : Nat × W32 :=
  let x := f.val a
  if x.isNan then (f.nan, x.nv) else (f.flip (f.flushed a), 0)

/-- A format of R46: floating or an integer of a width and signedness. -/
inductive NumFmt
  | flt (f : Fmt)
  | int (w : Nat) (signed : Bool)
  deriving DecidableEq, Repr

/-- Cause of an overflow token (R47 Table 6): 0 above, 1 below, 2 NaN to integer. -/
abbrev SatCause := Nat

/-- Least value of an integer format. -/
def intMin (w : Nat) (signed : Bool) : Int := if signed then -(2 ^ (w - 1) : Nat) else 0
/-- Greatest value of an integer format. -/
def intMax (w : Nat) (signed : Bool) : Int := if signed then ((2 ^ (w - 1) : Nat) : Int) - 1 else ((2 ^ w : Nat) : Int) - 1
/-- The pattern of an integer modulo 2^w. -/
def intPat (w : Nat) (v : Int) : Nat := (v % (2 ^ w : Nat)).toNat
/-- A pattern of w bits read with a signedness. -/
def patInt (w : Nat) (signed : Bool) (x : Nat) : Int :=
  let y := x % 2 ^ w
  if signed && y / 2 ^ (w - 1) == 1 then (y : Int) - (2 ^ w : Nat) else y

/-- An integer value into an integer format, saturating (R46); inx is the inexactness of its rounding. -/
def satInt (w : Nat) (signed : Bool) (v : Int) (inx : Bool) : Nat × W32 × Option SatCause :=
  if v > intMax w signed then (intPat w (intMax w signed), flagOF ||| flagNX, some 0)
  else if v < intMin w signed then (intPat w (intMin w signed), flagOF ||| flagNX, some 1)
  else (intPat w v, if inx then flagNX else 0, none)

/-- A value into a format under R46: pattern, flags, and the cause of a saturation or NaN-to-integer conversion. -/
def convertVal (mode : Round) (dst : NumFmt) (v : Val) : Nat × W32 × Option SatCause :=
  match dst, v with
  | .flt f, .nan s => (f.nan, (Val.nan s).nv, none)
  | .flt f, .inf neg => (f.sign neg + f.inf, 0, none)
  | .flt f, .fin neg m e =>
    let (r, fl, ov) := f.round mode true neg m e
    (r, fl, if ov then some (if neg then 1 else 0) else none)
  | .int _ _, .nan _ => (0, flagNV ||| flagOF, some 2)
  | .int w sg, .inf neg => (intPat w (if neg then intMin w sg else intMax w sg), flagOF ||| flagNX, some (if neg then 1 else 0))
  | .int w sg, .fin neg m e =>
    let (n, inx) := roundAt mode neg m e 0
    satInt w sg (if neg then -(n : Int) else n) inx

/-- The exact value of a pattern of a format. -/
def NumFmt.val : NumFmt → Nat → Val
  | .flt f, x => f.val x
  | .int w sg, x => let v := patInt w sg x; .fin (v < 0) v.natAbs 0

/-- One conversion of R46. -/
def convert (mode : Round) (src dst : NumFmt) (x : Nat) : Nat × W32 × Option SatCause :=
  convertVal mode dst (src.val x)

/-! ### Approximate functions (R182, R183) -/

/-- Floor of the square root, one bit of the answer per unit of fuel. -/
def isqrtAux (n : Nat) : Nat → Nat → Nat
  | 0, r => r
  | k + 1, r => let c := r + 2 ^ k; isqrtAux n k (if c * c ≤ n then c else r)

/-- Floor of the square root. -/
def isqrt (n : Nat) : Nat := isqrtAux n (Nat.log2 n / 2 + 1) 0

/-- 1 / (m * 2^e), m > 0, as a truncated significand with a sticky last bit, and its exponent. -/
def rcpExact (m : Nat) (e : Int) : Nat × Int :=
  let k := Nat.log2 m + 64
  let q := 2 ^ k / m
  if 2 ^ k % m == 0 then (q, -e - k) else (2 * q + 1, -e - k - 1)

/-- 1 / sqrt(m * 2^e), m > 0, in the same form. -/
def rsqExact (m : Nat) (e : Int) : Nat × Int :=
  let m' := if e % 2 == 0 then m else 2 * m
  let e' := if e % 2 == 0 then e else e - 1
  let k := Nat.log2 m' / 2 + 65
  let x := 2 ^ (2 * k)
  let r := isqrt (x / m')
  if r * r * m' == x then (r, -(e' / 2) - k) else (2 * r + 1, -(e' / 2) - k - 1)

/-- ln 2 in units of 2^-128, rounded down. -/
def ln2Fixed : Nat := 235865763225513294137944142764154484399

/-- exp of a fixed-point value with 128 fraction bits, by its power series. -/
def expFixed (x : Nat) : Nat :=
  ((List.range 48).foldl (fun (acc : Nat × Nat) k =>
    let t := acc.2 * x / 2 ^ 128 / (k + 1)
    (acc.1 + t, t)) (2 ^ 128, 2 ^ 128)).1

/-- 2^a for a = (-1)^neg * m * 2^e with a not 0, in the form of rcpExact; the caller keeps |a| below 1024. -/
def exp2Exact (neg : Bool) (m : Nat) (e : Int) : Nat × Int :=
  if e + Nat.log2 m < -60 then (if neg then (2 ^ 80 - 1, -80) else (2 ^ 80 + 1, -80))
  else
    let fx : Int := scaled neg m (e + 128) 0
    let n := fx / 2 ^ 128
    let fr := (fx % 2 ^ 128).toNat
    if fr == 0 then (1, n) else (2 * expFixed (fr * ln2Fixed / 2 ^ 128) + 1, n - 129)

/-- The binary fraction digits of log2 of y / 2^192, for y / 2^192 from 1 up to 2. -/
def log2Digits : Nat → Nat → Nat → Nat
  | 0, _, acc => acc
  | k + 1, y, acc =>
    let s := y * y / 2 ^ 192
    if s ≥ 2 ^ 193 then log2Digits k (s / 2) (2 * acc + 1) else log2Digits k s (2 * acc)

/-- log2(m * 2^e), m > 0, as sign, significand and exponent in the form of rcpExact. -/
def log2Exact (m : Nat) (e : Int) : Bool × Nat × Int :=
  let l := Nat.log2 m
  let n := e + l
  if m == 2 ^ l then (n < 0, n.natAbs, 0)
  else
    let y := m * 2 ^ 192 / 2 ^ l
    let v := n * 2 ^ 128 + log2Digits 128 y 0
    let d := 2 * v + 1
    (d < 0, d.natAbs, -129)

/-- The approximate functions. -/
inductive ApxFn | rcp | rsq | exp2 | log2
  deriving DecidableEq, Repr

/-- The number under which Config.approx is asked for a function. -/
def ApxFn.code : ApxFn → Nat
  | .rcp => 0x2C
  | .rsq => 0x2D
  | .exp2 => 0x2E
  | .log2 => 0x2F

/-- |x - y| ≤ 2^k for finite values. -/
def nearBy (x y : Val) (k : Int) : Bool :=
  match x, y with
  | .fin a m e, .fin b m' e' =>
    let q := min (min e e') k
    ((scaled a m e q - scaled b m' e' q).natAbs : Int) ≤ scaled false 1 k q
  | _, _ => false

/-- Is the fp32 pattern r allowed for the exact value by Table 7 of R182? -/
def apxAllowed (fn : ApxFn) (neg : Bool) (m : Nat) (e : Int) (r : Nat) : Bool :=
  let mag := e + Nat.log2 m
  let ulp : Int := max (mag - 23) (-149)
  match fn with
  | .rcp | .rsq => r == (Fmt.fp32.round .rdn false neg m e).1 || r == (Fmt.fp32.round .rup false neg m e).1
  | .exp2 => nearBy (Fmt.fp32.val r) (.fin neg m e) (ulp + 1)
  | .log2 => nearBy (Fmt.fp32.val r) (.fin neg m e) (if mag ≥ -10 then ulp + 1 else -33)

/-- The result for an exact, finite, non-zero value: rounded to nearest for the 16-bit formats; for fp32 the device's own value where it lies
within Table 7, else the nearest. exactCase holds for the exact cases of Table 8. -/
def apxRound (f : Fmt) (fn : ApxFn) (x : Nat) (exactCase neg : Bool) (m : Nat) (e : Int) : Nat × W32 :=
  let (r, fl, ov) := f.round .rne false neg m e
  let own := (Config.approx fn.code (BitVec.ofNat 32 x)).toNat
  if f == .fp32 && !exactCase && !ov && r % 2 ^ 31 != 0 && own % 2 ^ 31 < Fmt.fp32.inf && apxAllowed fn neg m e own then
    (own, if own % 2 ^ 31 < 2 ^ 23 then fl ||| flagNX ||| flagUF else fl ||| flagNX)
  else (r, fl)

/-- One approximate function on one sub-element (R182, R183 Table 8). -/
def Fmt.apx (f : Fmt) (fn : ApxFn) (x : Nat) : Nat × W32 :=
  match fn, f.val x with
  | _, .nan s => (f.nan, (Val.nan s).nv)
  | .rcp, .inf n => (f.sign n, 0)
  | .rcp, .fin n m e =>
    if m == 0 then (f.sign n + f.inf, flagDZ)
    else let (m', e') := rcpExact m e; apxRound f .rcp x (m == 2 ^ Nat.log2 m) n m' e'
  | .rsq, .inf n => if n then (f.nan, flagNV) else (0, 0)
  | .rsq, .fin n m e =>
    if m == 0 then (f.sign n + f.inf, flagDZ)
    else if n then (f.nan, flagNV)
    else let (m', e') := rsqExact m e; apxRound f .rsq x (m == 2 ^ Nat.log2 m && (e + Nat.log2 m) % 2 == 0) false m' e'
  | .exp2, .inf n => if n then (0, 0) else (f.inf, 0)
  | .exp2, .fin n m e =>
    if m == 0 then ((f.round .rne false false 1 0).1, 0)
    else if e + Nat.log2 m ≥ 9 then (if n then (0, flagUF ||| flagNX) else (f.inf, flagOF ||| flagNX))
    else let (m', e') := exp2Exact n m e; apxRound f .exp2 x (m' == 1) false m' e'
  | .log2, .inf n => if n then (f.nan, flagNV) else (f.inf, 0)
  | .log2, .fin n m e =>
    if m == 0 then (f.sign true + f.inf, flagDZ)
    else if n then (f.nan, flagNV)
    else
      let (n', m', e') := log2Exact m e
      if m' == 0 then (0, 0) else apxRound f .log2 x (m == 2 ^ Nat.log2 m) n' m' e'

/-! ### The anchored format (R50 to R52) -/

/-- Is the anchor byte within -126 to 126 (R50)? -/
def anchorOk (a : BitVec 8) : Bool := -126 ≤ a.toInt && a.toInt ≤ 126

/-- The contribution of an fp32 value to an anchored sum, and its chain flags: 1 range, 2 loss, 4 NaN (R51). -/
def anchorOf (a : BitVec 8) (x : W32) : BitVec 64 × BitVec 3 :=
  match Fmt.fp32.val x.toNat with
  | .nan _ => (0, 4)
  | .inf false => (BitVec.ofInt 64 (2 ^ 63 - 1), 1)
  | .inf true => (BitVec.ofInt 64 (-2 ^ 63), 1)
  | .fin neg m e =>
    let (n, inx) := roundAt .rne neg m e (a.toInt - 62)
    let q : Int := if neg then -(n : Int) else n
    if q > 2 ^ 63 - 1 then (BitVec.ofInt 64 (2 ^ 63 - 1), 3)
    else if q < -2 ^ 63 then (BitVec.ofInt 64 (-2 ^ 63), 3)
    else (BitVec.ofInt 64 q, if inx then 2 else 0)

/-- Addition into the 80-bit element (R52). -/
def anchorAdd (e : BitVec 80) (i : BitVec 64) : BitVec 80 := e + i.signExtend 80

/-- Read-out to 64 bits, with the range flag (R52). -/
def anchorOut64 (e : BitVec 80) : BitVec 64 × BitVec 3 :=
  if e.toInt > 2 ^ 63 - 1 then (BitVec.ofInt 64 (2 ^ 63 - 1), 1)
  else if e.toInt < -2 ^ 63 then (BitVec.ofInt 64 (-2 ^ 63), 1)
  else (e.truncate 64, 0)

/-- Read-out to fp32, with the range flag (R52). -/
def anchorOut32 (a : BitVec 8) (e : BitVec 80) : W32 × BitVec 3 :=
  let (i, fl) := anchorOut64 e
  (BitVec.ofNat 32 (Fmt.fp32.round .rne false (i.toInt < 0) i.toInt.natAbs (a.toInt - 62)).1, fl)

/-! ### Products and K-groups of the matrix node (R48, R49), and SCACC (R53) -/

/-- An exact sum of products: what the group holds so far. -/
structure GroupSum where
  nv : W32
  nan : Bool
  posInf : Bool
  negInf : Bool
  allNegZero : Bool
  num : Int
  exp : Int
  deriving DecidableEq, Repr

/-- No term yet. The exponent lies below every product's. -/
def GroupSum.empty : GroupSum := ⟨0, false, false, false, true, 0, -400⟩

/-- One product into the exact sum (R48, R49). -/
def GroupSum.term (s : GroupSum) (x y : Val) : GroupSum :=
  let (p, nv) := x.mul y
  let s := { s with nv := s.nv ||| x.nv ||| y.nv ||| nv }
  match p with
  | .nan _ => { s with nan := true, allNegZero := false }
  | .inf n => if n then { s with negInf := true, allNegZero := false } else { s with posInf := true, allNegZero := false }
  | .fin n m e => { s with allNegZero := s.allNegZero && n && m == 0, num := s.num + scaled n m e s.exp }

/-- The group's exact sum as a value, with NV for both infinities (R49). -/
def GroupSum.val (s : GroupSum) : Val × W32 :=
  if s.nan then (.nan false, if s.posInf && s.negInf then s.nv ||| flagNV else s.nv)
  else if s.posInf && s.negInf then (.nan false, s.nv ||| flagNV)
  else if s.posInf then (.inf false, s.nv)
  else if s.negInf then (.inf true, s.nv)
  else if s.num == 0 then (.fin s.allNegZero 0 0, s.nv)
  else (.fin (s.num < 0) s.num.natAbs s.exp, s.nv)

/-- One K-group into an accumulator: replace, or add with its second rounding (R49). -/
def groupAcc (replace : Bool) (acc : W32) (terms : List (Val × Val)) : W32 × W32 :=
  let (v, nv) := (terms.foldl (fun s t => s.term t.1 t.2) GroupSum.empty).val
  let (g, fl) := Fmt.fp32.roundVal .rne v
  if replace then (BitVec.ofNat 32 g, nv ||| fl)
  else
    let (r, fl') := Fmt.fp32.fadd .rne acc.toNat g
    (BitVec.ofNat 32 r, nv ||| fl ||| fl')

/-- One SCACC step: scale, then fused accumulate (R53, R165). -/
def scaccStep (acc p bs ts : W32) : W32 × W32 :=
  let x := Fmt.bf16.val (bs.toNat % 2 ^ 16)
  let y := Fmt.fp32.val ts.toNat
  let (v, nv) := x.mul y
  let (s, fl) := Fmt.fp32.roundVal .rne v
  let (r, fl') := Fmt.fp32.fma .rne p.toNat s acc.toNat
  (BitVec.ofNat 32 r, x.nv ||| y.nv ||| nv ||| fl ||| fl')

end Sys2Proof.Machine
end

