-- ==== Sys2Proof/Machine/Operands.lean ====
section
/-! DEFINITION. Operand forms: immediates and addresses of control words (R57, R73, R74), and elements as sub-elements of their type (R36), with
the integer arithmetic on them (R44, R157). -/

namespace Sys2Proof.Machine

/-- sext(imm11, 11) (R73). -/
def imm11 (i : BitVec 11) : W64 := i.signExtend 64

/-- The effective address of MEM format (R57). -/
def effAddr (base : W64) (size : Nat) (off : BitVec 11) : W64 := base + BitVec.ofNat 64 size * off.signExtend 64

/-- The target of a taken branch (R57). -/
def brTarget {n : Nat} (ipc : BitVec 16) (off : BitVec n) : BitVec 16 := ipc + 4 * BitVec.ofInt 16 off.toInt

/-- The low 32 bits sign-extended: the W forms (R71). -/
def sextW (v : W64) : W64 := (v.truncate 32).signExtend 64

/-- Bits [lo+15:lo] replaced by a 16-bit immediate (R74). -/
def putHalf (v : W64) (lo : Nat) (i : BitVec 16) : W64 :=
  (v &&& ~~~(0xFFFF#64 <<< lo)) ||| (i.zeroExtend 64 <<< lo)

/-- Leading zero bits (R71). -/
def clz64 (v : W64) : W64 := if v = 0 then 64 else BitVec.ofNat 64 (63 - Nat.log2 v.toNat)

/-- Trailing zero bits counted over n positions from i. -/
def ctzFrom (v : W64) : Nat → Nat → Nat
  | 0, i => i
  | n + 1, i => if v.getLsbD i then i else ctzFrom v n (i + 1)

/-- Trailing zero bits (R71). -/
def ctz64 (v : W64) : W64 := BitVec.ofNat 64 (ctzFrom v 64 0)

/-- One bits among the low n bits (R71). -/
def popFrom (v : Nat) : Nat → Nat
  | 0 => 0
  | n + 1 => v % 2 + popFrom (v / 2) n

/-- The four divisions with the special cases of R72 Table 2. -/
def divS (a b : W64) : W64 := if b = 0 then BitVec.allOnes 64 else a.sdiv b
/-- DIVU (R72). -/
def divU (a b : W64) : W64 := if b = 0 then BitVec.allOnes 64 else a / b
/-- REM (R72). -/
def remS (a b : W64) : W64 := if b = 0 then a else a.srem b
/-- REMU (R72). -/
def remU (a b : W64) : W64 := if b = 0 then a else a % b

/-! ### Elements -/

/-- The element types of R36 Table 2. -/
inductive ElTy | int32 | int16x2 | int8x4 | fp32 | bf16x2 | fp16x2 | cb4x8 | pred
  deriving DecidableEq, Repr

/-- The type of a code (R36). -/
def ElTy.ofCode (n : Nat) : ElTy :=
  match n with
  | 0 => .int32
  | 1 => .int16x2
  | 2 => .int8x4
  | 3 => .fp32
  | 4 => .bf16x2
  | 5 => .fp16x2
  | 6 => .cb4x8
  | _ => .pred

/-- Width of a sub-element (R36). -/
def ElTy.width : ElTy → Nat
  | .int32 => 32
  | .int16x2 => 16
  | .int8x4 => 8
  | .fp32 => 32
  | .bf16x2 => 16
  | .fp16x2 => 16
  | .cb4x8 => 4
  | .pred => 32

/-- Sub-elements of an element (R36). -/
def ElTy.count (t : ElTy) : Nat := 32 / t.width

/-- Is the type floating? -/
def ElTy.fmt? : ElTy → Option Fmt
  | .fp32 => some .fp32
  | .bf16x2 => some .bf16
  | .fp16x2 => some .fp16
  | _ => none

/-- The number format of a sub-element, integers with a given signedness (R46). -/
def ElTy.num (t : ElTy) (signed : Bool) : NumFmt :=
  match t.fmt? with
  | some f => .flt f
  | none => .int t.width signed

/-- Sub-elements of an element, index rising (R36). -/
def ElTy.subs (t : ElTy) (x : W32) : List Nat := (List.range t.count).map (fun i => x.toNat / 2 ^ (t.width * i) % 2 ^ t.width)

/-- The element of its sub-elements (R36). -/
def ElTy.join (t : ElTy) : List Nat → W32
  | [] => 0
  | x :: r => BitVec.ofNat 32 (x % 2 ^ t.width) ||| (ElTy.join t r <<< t.width)

/-- One value in every sub-element. -/
def ElTy.splat (t : ElTy) (x : Nat) : W32 := t.join (List.replicate t.count x)

/-- A sub-element operation of one operand over an element, flags joined (R39). -/
def ElTy.map1 (t : ElTy) (f : Nat → Nat × W32) (x : W32) : W32 × W32 :=
  let r := (t.subs x).map f
  (t.join (r.map (·.1)), r.foldl (fun a b => a ||| b.2) 0)

/-- A sub-element operation of two operands. -/
def ElTy.map2 (t : ElTy) (f : Nat → Nat → Nat × W32) (x y : W32) : W32 × W32 :=
  let r := List.zipWith f (t.subs x) (t.subs y)
  (t.join (r.map (·.1)), r.foldl (fun a b => a ||| b.2) 0)

/-- A sub-element operation of three operands. -/
def ElTy.map3 (t : ElTy) (f : Nat → Nat → Nat → Nat × W32) (x y z : W32) : W32 × W32 :=
  let r := List.zipWith (fun a bc => f a bc.1 bc.2) (t.subs x) ((t.subs y).zip (t.subs z))
  (t.join (r.map (·.1)), r.foldl (fun a b => a ||| b.2) 0)

/-- Low w bits of an integer result; no flag (R44). -/
def wrapI (w : Nat) (v : Int) : Nat × W32 := (intPat w v, 0)

/-- Signed reading of a sub-element. -/
abbrev sgn (w x : Nat) : Int := patInt w true x

/-- Signed saturation without flags: ADDS and SUBS (R157). -/
def clampI (w : Nat) (v : Int) : Nat × W32 :=
  (intPat w (if v > intMax w true then intMax w true else if v < intMin w true then intMin w true else v), 0)

/-- Leading zeros of a sub-element within its width (R157). -/
def clzSub (w x : Nat) : Nat := if x % 2 ^ w == 0 then w else w - 1 - Nat.log2 (x % 2 ^ w)

end Sys2Proof.Machine
end

