-- ==== Sys2Proof/Machine/Scalar.lean ====
section
/-! DEFINITION. Scalar and flow instructions: R71 to R83. -/

namespace Sys2Proof.Machine

/-- The outcome of a step. -/
abbrev Out := Host.Outcome State Fault Refusal

/-- A word that writes g[d] from the context (R71 to R74); it holds while d is a pending destination (R21). -/
def State.wrReg (s : State) (g : Guard) (d : BitVec 5) (f : Ctx → W64) : Out :=
  s.simple g (fun c => c.pends d) (fun c => c.setReg d (f c))

/-- An operation of two registers (R71). -/
def State.alu (s : State) (g : Guard) (d a b : BitVec 5) (f : W64 → W64 → W64) : Out := s.wrReg g d (fun c => f (c.reg a) (c.reg b))

/-- An operation of one register and an immediate (R73). -/
def State.aluI (s : State) (g : Guard) (d a : BitVec 5) (f : W64 → W64) : Out := s.wrReg g d (fun c => f (c.reg a))

/-- A division: it holds while the core's divider is busy, and then occupies it (R72). -/
def State.divide (s : State) (g : Guard) (d a b : BitVec 5) (f : W64 → W64 → W64) : Out :=
  s.issue g (fun c => c.pends d || (s.core (coreOf s.cur)).divBusy) (fun c =>
    (s.setCtx s.cur (c.setReg d (f (c.reg a) (c.reg b))).advance).updCore (coreOf s.cur) (fun k => { k with divBusy := true }))

/-- A compare into a predicate (R77, R78). -/
def State.cmp (s : State) (g : Guard) (d : BitVec 3) (f : Ctx → Bool) : Out := s.simple g (fun _ => false) (fun c => c.setPred d (f c))

/-- A compare-and-branch (R83). -/
def State.brIf (s : State) (g : Guard) (a b : BitVec 5) (off : BitVec 11) (f : W64 → W64 → Bool) : Out :=
  s.issue g (fun _ => false) (fun c =>
    s.setCtx s.cur (if f (c.reg a) (c.reg b) then { c with ipc := brTarget c.ipc off } else c.advance))

/-- ADD (R71). -/
def execAdd (g : Guard) (d a b : BitVec 5) (s : State) : Out := s.alu g d a b (fun x y => x + y)
/-- SUB (R71). -/
def execSub (g : Guard) (d a b : BitVec 5) (s : State) : Out := s.alu g d a b (fun x y => x - y)
/-- AND (R71). -/
def execAnd (g : Guard) (d a b : BitVec 5) (s : State) : Out := s.alu g d a b (fun x y => x &&& y)
/-- OR (R71). -/
def execOr (g : Guard) (d a b : BitVec 5) (s : State) : Out := s.alu g d a b (fun x y => x ||| y)
/-- XOR (R71). -/
def execXor (g : Guard) (d a b : BitVec 5) (s : State) : Out := s.alu g d a b (fun x y => x ^^^ y)
/-- ANDN (R71). -/
def execAndn (g : Guard) (d a b : BitVec 5) (s : State) : Out := s.alu g d a b (fun x y => x &&& ~~~y)
/-- ORN (R71). -/
def execOrn (g : Guard) (d a b : BitVec 5) (s : State) : Out := s.alu g d a b (fun x y => x ||| ~~~y)
/-- SHL (R71). -/
def execShl (g : Guard) (d a b : BitVec 5) (s : State) : Out := s.alu g d a b (fun x y => x <<< (y.toNat % 64))
/-- SHR (R71). -/
def execShr (g : Guard) (d a b : BitVec 5) (s : State) : Out := s.alu g d a b (fun x y => x >>> (y.toNat % 64))
/-- SRA (R71). -/
def execSra (g : Guard) (d a b : BitVec 5) (s : State) : Out := s.alu g d a b (fun x y => x.sshiftRight (y.toNat % 64))
/-- ROL (R71). -/
def execRol (g : Guard) (d a b : BitVec 5) (s : State) : Out := s.alu g d a b (fun x y => x.rotateLeft (y.toNat % 64))
/-- ROR (R71). -/
def execRor (g : Guard) (d a b : BitVec 5) (s : State) : Out := s.alu g d a b (fun x y => x.rotateRight (y.toNat % 64))
/-- MUL (R71). -/
def execMul (g : Guard) (d a b : BitVec 5) (s : State) : Out := s.alu g d a b (fun x y => x * y)
/-- MULH (R71). -/
def execMulh (g : Guard) (d a b : BitVec 5) (s : State) : Out := s.alu g d a b (fun x y => BitVec.ofInt 64 (x.toInt * y.toInt / 2 ^ 64))
/-- MULHU (R71). -/
def execMulhu (g : Guard) (d a b : BitVec 5) (s : State) : Out := s.alu g d a b (fun x y => BitVec.ofNat 64 (x.toNat * y.toNat / 2 ^ 64))
/-- DIV (R72). -/
def execDiv (g : Guard) (d a b : BitVec 5) (s : State) : Out := s.divide g d a b divS
/-- DIVU (R72). -/
def execDivu (g : Guard) (d a b : BitVec 5) (s : State) : Out := s.divide g d a b divU
/-- REM (R72). -/
def execRem (g : Guard) (d a b : BitVec 5) (s : State) : Out := s.divide g d a b remS
/-- REMU (R72). -/
def execRemu (g : Guard) (d a b : BitVec 5) (s : State) : Out := s.divide g d a b remU
/-- MIN (R71). -/
def execMin (g : Guard) (d a b : BitVec 5) (s : State) : Out := s.alu g d a b (fun x y => if x.slt y then x else y)
/-- MAX (R71). -/
def execMax (g : Guard) (d a b : BitVec 5) (s : State) : Out := s.alu g d a b (fun x y => if x.slt y then y else x)
/-- MINU (R71). -/
def execMinu (g : Guard) (d a b : BitVec 5) (s : State) : Out := s.alu g d a b (fun x y => if x.ult y then x else y)
/-- MAXU (R71). -/
def execMaxu (g : Guard) (d a b : BitVec 5) (s : State) : Out := s.alu g d a b (fun x y => if x.ult y then y else x)
/-- ADDW (R71). -/
def execAddw (g : Guard) (d a b : BitVec 5) (s : State) : Out := s.alu g d a b (fun x y => sextW (x + y))
/-- SUBW (R71). -/
def execSubw (g : Guard) (d a b : BitVec 5) (s : State) : Out := s.alu g d a b (fun x y => sextW (x - y))
/-- MULW (R71). -/
def execMulw (g : Guard) (d a b : BitVec 5) (s : State) : Out := s.alu g d a b (fun x y => sextW (x * y))
/-- CLZ (R71). -/
def execClz (g : Guard) (d a : BitVec 5) (s : State) : Out := s.aluI g d a clz64
/-- CTZ (R71). -/
def execCtz (g : Guard) (d a : BitVec 5) (s : State) : Out := s.aluI g d a ctz64
/-- POPC (R71). -/
def execPopc (g : Guard) (d a : BitVec 5) (s : State) : Out := s.aluI g d a (fun x => BitVec.ofNat 64 (popFrom x.toNat 64))
/-- ADDI (R73). -/
def execAddi (g : Guard) (d a : BitVec 5) (imm : BitVec 11) (s : State) : Out := s.aluI g d a (fun x => x + imm11 imm)
/-- ANDI (R73). -/
def execAndi (g : Guard) (d a : BitVec 5) (imm : BitVec 11) (s : State) : Out := s.aluI g d a (fun x => x &&& imm11 imm)
/-- ORI (R73). -/
def execOri (g : Guard) (d a : BitVec 5) (imm : BitVec 11) (s : State) : Out := s.aluI g d a (fun x => x ||| imm11 imm)
/-- XORI (R73). -/
def execXori (g : Guard) (d a : BitVec 5) (imm : BitVec 11) (s : State) : Out := s.aluI g d a (fun x => x ^^^ imm11 imm)
/-- SHLI (R73). -/
def execShli (g : Guard) (d a : BitVec 5) (sh : BitVec 6) (s : State) : Out := s.aluI g d a (fun x => x <<< sh.toNat)
/-- SHRI (R73). -/
def execShri (g : Guard) (d a : BitVec 5) (sh : BitVec 6) (s : State) : Out := s.aluI g d a (fun x => x >>> sh.toNat)
/-- SRAI (R73). -/
def execSrai (g : Guard) (d a : BitVec 5) (sh : BitVec 6) (s : State) : Out := s.aluI g d a (fun x => x.sshiftRight sh.toNat)
/-- MULI (R73). -/
def execMuli (g : Guard) (d a : BitVec 5) (imm : BitVec 11) (s : State) : Out := s.aluI g d a (fun x => x * imm11 imm)
/-- ADDWI (R73). -/
def execAddwi (g : Guard) (d a : BitVec 5) (imm : BitVec 11) (s : State) : Out := s.aluI g d a (fun x => sextW (x + imm11 imm))
/-- MOVI (R74). -/
def execMovi (g : Guard) (d : BitVec 5) (imm : BitVec 16) (s : State) : Out := s.wrReg g d (fun _ => imm.signExtend 64)
/-- MOVZ (R74). -/
def execMovz (g : Guard) (d : BitVec 5) (imm : BitVec 16) (s : State) : Out := s.wrReg g d (fun _ => imm.zeroExtend 64)
/-- MOVK16 (R74). -/
def execMovk16 (g : Guard) (d : BitVec 5) (imm : BitVec 16) (s : State) : Out := s.wrReg g d (fun c => putHalf (c.reg d) 16 imm)
/-- MOVK32 (R74). -/
def execMovk32 (g : Guard) (d : BitVec 5) (imm : BitVec 16) (s : State) : Out := s.wrReg g d (fun c => putHalf (c.reg d) 32 imm)
/-- MOVK48 (R74). -/
def execMovk48 (g : Guard) (d : BitVec 5) (imm : BitVec 16) (s : State) : Out := s.wrReg g d (fun c => putHalf (c.reg d) 48 imm)

/-- SRRD (R75); in a deterministic lease CTX raises DET_ORDER (R443). -/
def execSrrd (g : Guard) (d : BitVec 5) (sr : BitVec 4) (s : State) : Out :=
  s.issue g (fun c => c.pends d) (fun c =>
    if c.det && sr == 5 then s.raise s.cur (detOrder (.srrd g d sr))
    else s.setCtx s.cur (c.setReg d (c.sreg s.cur sr)).advance)
/-- SRWR (R75). -/
def execSrwr (g : Guard) (d : BitVec 5) (sr : BitVec 4) (s : State) : Out := s.simple g (fun _ => false) (fun c => c.setSreg sr (c.reg d))
/-- FLGRD: the flag word read and cleared (R45, R76). -/
def execFlgrd (g : Guard) (d : BitVec 5) (s : State) : Out :=
  s.simple g (fun c => c.pends d) (fun c => (c.takeFlags s.time).2.setReg d ((c.takeFlags s.time).1.zeroExtend 64))

/-- BR (R81). -/
def execBr (g : Guard) (off : BitVec 21) (s : State) : Out :=
  s.issue g (fun _ => false) (fun c => s.setCtx s.cur { c with ipc := brTarget c.ipc off })
/-- CALL (R81). -/
def execCall (g : Guard) (off : BitVec 21) (s : State) : Out :=
  s.issue g (fun c => c.pends 31#5) (fun c =>
    s.setCtx s.cur { c.setReg 31#5 ((c.ipc + 4).zeroExtend 64) with ipc := brTarget c.ipc off })
/-- JALR (R82). -/
def execJalr (g : Guard) (d a : BitVec 5) (imm : BitVec 11) (s : State) : Out :=
  s.issue g (fun c => c.pends d) (fun c =>
    s.setCtx s.cur { c.setReg d ((c.ipc + 4).zeroExtend 64) with ipc := (c.reg a + 4 * imm11 imm).truncate 16 &&& 0xFFFC#16 })
/-- BEQ (R83). -/
def execBeq (g : Guard) (a b : BitVec 5) (off : BitVec 11) (s : State) : Out := s.brIf g a b off (fun x y => x == y)
/-- BNE (R83). -/
def execBne (g : Guard) (a b : BitVec 5) (off : BitVec 11) (s : State) : Out := s.brIf g a b off (fun x y => x != y)
/-- BLT (R83). -/
def execBlt (g : Guard) (a b : BitVec 5) (off : BitVec 11) (s : State) : Out := s.brIf g a b off (fun x y => x.slt y)
/-- BGE (R83). -/
def execBge (g : Guard) (a b : BitVec 5) (off : BitVec 11) (s : State) : Out := s.brIf g a b off (fun x y => !x.slt y)
/-- BLTU (R83). -/
def execBltu (g : Guard) (a b : BitVec 5) (off : BitVec 11) (s : State) : Out := s.brIf g a b off (fun x y => x.ult y)
/-- BGEU (R83). -/
def execBgeu (g : Guard) (a b : BitVec 5) (off : BitVec 11) (s : State) : Out := s.brIf g a b off (fun x y => !x.ult y)

/-- CMP.EQ (R77). -/
def execCmpEq (g : Guard) (d : BitVec 3) (a b : BitVec 5) (s : State) : Out := s.cmp g d (fun c => c.reg a == c.reg b)
/-- CMP.NE (R77). -/
def execCmpNe (g : Guard) (d : BitVec 3) (a b : BitVec 5) (s : State) : Out := s.cmp g d (fun c => c.reg a != c.reg b)
/-- CMP.LT (R77). -/
def execCmpLt (g : Guard) (d : BitVec 3) (a b : BitVec 5) (s : State) : Out := s.cmp g d (fun c => (c.reg a).slt (c.reg b))
/-- CMP.GE (R77). -/
def execCmpGe (g : Guard) (d : BitVec 3) (a b : BitVec 5) (s : State) : Out := s.cmp g d (fun c => !(c.reg a).slt (c.reg b))
/-- CMP.LTU (R77). -/
def execCmpLtu (g : Guard) (d : BitVec 3) (a b : BitVec 5) (s : State) : Out := s.cmp g d (fun c => (c.reg a).ult (c.reg b))
/-- CMP.GEU (R77). -/
def execCmpGeu (g : Guard) (d : BitVec 3) (a b : BitVec 5) (s : State) : Out := s.cmp g d (fun c => !(c.reg a).ult (c.reg b))
/-- CMP.TST (R77). -/
def execCmpTst (g : Guard) (d : BitVec 3) (a b : BitVec 5) (s : State) : Out := s.cmp g d (fun c => c.reg a &&& c.reg b != 0)
/-- CMPI.EQ (R78). -/
def execCmpiEq (g : Guard) (d : BitVec 3) (a : BitVec 5) (imm : BitVec 11) (s : State) : Out := s.cmp g d (fun c => c.reg a == imm11 imm)
/-- CMPI.LT (R78). -/
def execCmpiLt (g : Guard) (d : BitVec 3) (a : BitVec 5) (imm : BitVec 11) (s : State) : Out := s.cmp g d (fun c => (c.reg a).slt (imm11 imm))
/-- CMPI.LTU (R78). -/
def execCmpiLtu (g : Guard) (d : BitVec 3) (a : BitVec 5) (imm : BitVec 11) (s : State) : Out := s.cmp g d (fun c => (c.reg a).ult (imm11 imm))
/-- PAND (R79). -/
def execPand (g : Guard) (d a b : BitVec 3) (s : State) : Out := s.cmp g d (fun c => c.pred a && c.pred b)
/-- POR (R79). -/
def execPor (g : Guard) (d a b : BitVec 3) (s : State) : Out := s.cmp g d (fun c => c.pred a || c.pred b)
/-- PXOR (R79). -/
def execPxor (g : Guard) (d a b : BitVec 3) (s : State) : Out := s.cmp g d (fun c => c.pred a != c.pred b)
/-- PANDN (R79). -/
def execPandn (g : Guard) (d a b : BitVec 3) (s : State) : Out := s.cmp g d (fun c => c.pred a && !c.pred b)
/-- PNOT (R79). -/
def execPnot (g : Guard) (d a : BitVec 3) (s : State) : Out := s.cmp g d (fun c => !c.pred a)
/-- PMOV (R79). -/
def execPmov (g : Guard) (d a : BitVec 3) (s : State) : Out := s.cmp g d (fun c => c.pred a)
/-- PGET (R80). -/
def execPget (g : Guard) (d : BitVec 5) (s : State) : Out := s.wrReg g d (fun c => (c.p ||| 1).zeroExtend 64)
/-- PPUT (R80). -/
def execPput (g : Guard) (a : BitVec 5) (s : State) : Out :=
  s.simple g (fun _ => false) (fun c => { c with p := (c.reg a).truncate 8 ||| 1 })

/-- DIVIDER_COMPLETE: the divider frees itself (R72). -/
def execDividerComplete (core : CoreId) (s : State) : Out := .next (s.updCore core (fun k => { k with divBusy := false }))

end Sys2Proof.Machine
end

