-- ==== Sys2Proof/Machine/Spad.lean ====
section
/-! DEFINITION. The scratchpad, its loads, stores and atomics, WAIT and NOP, and the pass unit: R22 to R28, R84 to R99, with the bank modes of
R257 and the locks of R231. -/

namespace Sys2Proof.Machine

/-! ### Addresses and checks -/

/-- Does a 64-bit bank-relative access stay in a bank's low bits: the budget index of an address (R22). -/
def bankIx (a : Nat) : Nat := a / 2 ^ 17

/-- The bank at a budget index. -/
def Ctx.bank? (c : Ctx) (k : Nat) : Option BudBank := c.banks[k]?

/-- Bytes of a context's budget (R22). -/
def Ctx.budget (c : Ctx) : Nat := c.banks.length * 2 ^ 17

/-- SRAM address of a budget address (R22). -/
def Ctx.sramAddr (c : Ctx) (a : Nat) : Nat :=
  match c.bank? (bankIx a) with
  | some b => b.bank * 2 ^ 17 + a % 2 ^ 17
  | none => a

/-- Bytes of the context's scratchpad. -/
def State.spadBytes (s : State) (c : CtxId) (a n : Nat) : List Byte :=
  let x := s.ctx c
  let m := (s.core (coreOf c)).sram
  (List.range n).map (fun i => m.get (x.sramAddr (a + i)))

/-- Bytes written to the scratchpad; a wholly replaced 8-byte word loses its poison (R404). -/
def State.spadWrite (s : State) (c : CtxId) (a : Nat) (bs : List Byte) : State :=
  let x := s.ctx c
  s.updCore (coreOf c) (fun k =>
    { k with
      sram := (bs.foldl (fun (acc : Mem × Nat) b => (acc.1.set (x.sramAddr acc.2) b, acc.2 + 1)) (k.sram, a)).1
      poison := k.poison.filter (fun w =>
        !((List.range (bs.length / 8 + 1)).any (fun i =>
          let b := (a + 7) / 8 * 8 + 8 * i
          b + 8 ≤ a + bs.length && x.sramAddr b == w))) })

/-- 32-bit element of the scratchpad. -/
def State.spad32 (s : State) (c : CtxId) (a : Nat) : W32 := w32 (s.spadBytes c a 4)

/-- Parameter fields of an accumulate chain (R244 Table 6): length. -/
def parL (p : W64) : Nat := bits p 19 0
/-- KC. -/
def parKC (p : W64) : Nat := bits p 38 22
/-- n, the positions. -/
def parN (p : W64) : Nat := bits p 47 39 + 1
/-- W, the window. -/
def parW (p : W64) : Nat := bits p 50 48 + 1
/-- Is the chain ANCHORED? -/
def parAnch (p : W64) : Bool := p.getLsbD 51
/-- Blocks of the chain (R229). -/
def parB (p : W64) : Nat := (parL p + 15) / 16
/-- Bytes of the result area (R230). -/
def parRa (p : W64) : Nat := if parAnch p then 16 * parL p else 64 * parB p
/-- Bytes of the region (R230). -/
def parZ (p : W64) : Nat := parRa p + 64 * parW p * parN p

/-- Is a byte range of the context's budget in a region locked under R231? -/
def State.locked (s : State) (c : CtxId) (a n : Nat) : Bool :=
  (s.core (coreOf c)).sinks.any (fun e => e.2.ctx == c && e.2.st != 2 && a < e.2.base + parZ e.2.param && e.2.base < a + n)

/-- The first byte of a range that lies in a bank not in SPAD mode (R257). -/
def Ctx.badBank (c : Ctx) (a n : Nat) : Option Nat :=
  ((List.range (bankIx (a + n - 1) - bankIx a + 1)).find? (fun i =>
    match c.bank? (bankIx a + i) with
    | some b => b.mode != .spad
    | none => true)).map (fun i => max a ((bankIx a + i) * 2 ^ 17))

/-- An access that was checked when it was accepted meets a bank that is no longer in SPAD mode (R257, R258). -/
def State.modeFault (s : State) (c : CtxId) (a n : Nat) : Option Trap := ((s.ctx c).badBank a n).map (fun b => ⟨0x13, BitVec.ofNat 64 b, 1⟩)

/-- The checks of R22, R257 and R231 on a byte range, alignment included: the first that fails. unit names who accesses (R252). -/
def State.spadFault (s : State) (c : CtxId) (addr : W64) (align len unit : Nat) : Option Trap :=
  let x := s.ctx c
  let a := addr.toNat
  if a % align != 0 then some ⟨0x02, addr, BitVec.ofNat 16 align⟩
  else if a + len > x.budget then some ⟨0x03, addr, BitVec.ofNat 16 align⟩
  else match x.badBank a len with
    | some b => some ⟨0x13, BitVec.ofNat 64 b, 1⟩
    | none => if s.locked c a len then some ⟨0x11, addr, BitVec.ofNat 16 (4 + 16 * unit)⟩ else none

/-- The poisoned 8-byte word that a range touches, as the trap that names it (R24, R29). -/
def State.spadEcc (s : State) (c : CtxId) (a n : Nat) (atWait : Bool) : Option Trap :=
  let x := s.ctx c
  ((List.range ((a + n - 1) / 8 - a / 8 + 1)).find? (fun i => (s.core (coreOf c)).poison.contains (x.sramAddr ((a / 8 + i) * 8)))).map (fun i =>
    let w := (a / 8 + i) * 8
    ⟨0x05, BitVec.ofNat 64 w, BitVec.ofNat 16 (x.sramAddr w / 2 ^ 17 + (if atWait then 32 else 0))⟩)

/-- Does a byte range lie in a bank that is still being zeroed (R258)? -/
def Ctx.zeroing (c : Ctx) (a n : Nat) : Bool :=
  c.banks.any (·.zeroing) && (List.range (bankIx (a + n - 1) - bankIx a + 1)).any (fun i =>
    match c.bank? (bankIx a + i) with
    | some b => b.zeroing
    | none => false)

/-- The sequencer's number as a unit (R252). -/
def unitSeq : Nat := 0x3FF

/-! ### Outstanding operations -/

/-- An operation issued: counted, the word retired. -/
def Ctx.pushOp (c : Ctx) (isStore : Bool) (dst : BitVec 5) (body : OpBody) : Ctx :=
  { c with ops := c.ops ++ [⟨c.opN, isStore, dst, body, false, c.ipc, none⟩], opN := c.opN + 1 }

/-- Byte range of a scratchpad operation. -/
def OpBody.range : OpBody → Option (Nat × Nat)
  | .load a n _ => some (a, n)
  | .store a n _ => some (a, n)
  | .amo _ n a _ _ => some (a, n)
  | .dev _ => none

/-- Do two operations touch a common byte, so that they take effect in program order (R23, R315)? -/
def OpBody.conflicts (x y : OpBody) : Bool :=
  match x.range, y.range with
  | some (a, n), some (b, m) => a < b + m && b < a + n
  | _, _ => false

/-- May operation id be performed: no older operation of the context that conflicts with it is still to be performed (R23)? -/
def opReady (id : Nat) (body : OpBody) : List MemOp → Bool
  | [] => true
  | o :: t => if o.id == id then true else (o.done || !o.body.conflicts body) && opReady id body t

/-- The atomics' new value at a width in bytes (R86, R87). x is the new value of CAS. -/
def amoNew (op : AmoOp) (size : Nat) (old v x : Nat) : Nat :=
  let w := 8 * size
  match op with
  | .swap => v
  | .add => (old + v) % 2 ^ w
  | .and => old &&& v
  | .or => old ||| v
  | .xor => old ^^^ v
  | .min => if sgn w old ≤ sgn w v then old else v
  | .max => if sgn w old ≤ sgn w v then v else old
  | .minu => min old v
  | .maxu => max old v
  | .cas => if old == v then x else old

/-! ### The pass unit's stages (R92 to R96) -/

/-- Bits of a chain descriptor. -/
def dbits (d : BitVec 512) (hi lo : Nat) : Nat := d.toNat / 2 ^ lo % 2 ^ (hi + 1 - lo)
/-- Stage word j (R92). -/
def stageWord (d : BitVec 512) (j : Nat) : Nat := dbits d (287 + 32 * j) (256 + 32 * j)
/-- A signed 16-bit stride in elements (R93). -/
def stride (v : Nat) : Int := patInt 16 true v

/-- Does a stage operation use Y? -/
def stageUsesY (op : Nat) : Bool := op != 0x09 && op != 0x0A && op != 0x10
/-- Is a stage operation integer only? -/
def stageIntOnly (op : Nat) : Bool := op == 0x0E || op == 0x0F

/-- The lowest PASS_DESC cause of a stage word, 0 when it is valid (R94 to R97, R99). -/
def stageCause (w : Nat) (s1 : Bool) : Nat :=
  let op := w / 2 ^ 26 % 64
  let ty := w / 2 ^ 23 % 8
  let u := w / 2 ^ 22 % 2
  let ysel := w / 2 ^ 20 % 4
  let zsel := w / 2 ^ 18 % 4
  let rsv := w / 2 ^ 12 % 64
  let imm := w % 2 ^ 12
  let isInt := ty < 3
  let badSel (used : Bool) (sel : Nat) : Bool :=
    if used then (sel == 0 && !s1) || (sel == 3 && !isInt) else sel != 0
  if op == 0 || op > 0x10 then 1
  else if ty > 5 || (stageIntOnly op && !isInt) then 2
  else if badSel (stageUsesY op) ysel || badSel (op == 0x06) zsel then 3
  else if rsv != 0 || (op != 0x10 && imm != 0 && !((stageUsesY op && ysel == 3) || (op == 0x06 && zsel == 3))) || (u == 1 && !isInt) then 4
  else if op == 0x10 && (imm % 8 > 5 || imm / 16 != 0 || (imm / 8 % 2 == 1 && imm % 8 ≥ 3)) then 5
  else 0

/-- The first invalid stage of a descriptor: index and cause (R97). -/
def firstBadStage (d : BitVec 512) : List Nat → Option (Nat × Nat)
  | [] => none
  | j :: t =>
    let c := stageCause (stageWord d j) (dbits d 131 131 == 1)
    if c != 0 then some (j, c) else firstBadStage d t

/-- PASS_DESC DETAIL of a descriptor, if it is invalid (R97, R99). -/
def descFault (d : BitVec 512) : Option Nat :=
  if dbits d 143 132 != 0 then some 6
  else (firstBadStage d (List.range (dbits d 130 128 + 1))).map (fun jc => jc.1 * 16 + jc.2)

/-- Conversion of a whole element in the pass unit (R96): flags, SAT for every saturation. -/
def stageCvt (ty : ElTy) (signed : Bool) (dst : ElTy) (dSigned : Bool) (v : W32) : W32 × W32 :=
  let r := (ty.subs v).map (convert .rne (ty.num signed) (dst.num dSigned))
  let r := r.take dst.count
  (dst.join (r.map (·.1)), r.foldl (fun a b => a ||| b.2.1 ||| (if b.2.2.isSome then flagSAT else 0)) 0)

/-- One operation of a stage on sub-elements of a floating format (R95). -/
def stageF (f : Fmt) (op : Nat) (x y z : Nat) : Nat × W32 :=
  if op == 0x01 then (y, 0)
  else if op == 0x02 then f.fadd .rne x y
  else if op == 0x03 then f.fsub .rne x y
  else if op == 0x04 then f.fsub .rne y x
  else if op == 0x05 then f.fmul .rne x y
  else if op == 0x06 then f.fma .rne x y z
  else if op == 0x07 then f.fmin x y
  else if op == 0x08 then f.fmax x y
  else if op == 0x09 then f.fabs x
  else if op == 0x0A then f.fneg x
  else if op == 0x0B then (x &&& y, 0)
  else if op == 0x0C then (x ||| y, 0)
  else (x ^^^ y, 0)

/-- One operation of a stage on integer sub-elements (R95). -/
def stageI (w : Nat) (u : Bool) (op : Nat) (x y z : Nat) : Nat × W32 :=
  if op == 0x01 then (y, 0)
  else if op == 0x02 then wrapI w (x + y)
  else if op == 0x03 then wrapI w ((x : Int) - y)
  else if op == 0x04 then wrapI w ((y : Int) - x)
  else if op == 0x05 then wrapI w (x * y)
  else if op == 0x06 then wrapI w (x * y + z)
  else if op == 0x07 then (if patInt w (!u) x ≤ patInt w (!u) y then x else y, 0)
  else if op == 0x08 then (if patInt w (!u) x ≤ patInt w (!u) y then y else x, 0)
  else if op == 0x09 then wrapI w (sgn w x).natAbs
  else if op == 0x0A then wrapI w (-(x : Int))
  else if op == 0x0B then (x &&& y, 0)
  else if op == 0x0C then (x ||| y, 0)
  else if op == 0x0D then (x ^^^ y, 0)
  else if op == 0x0E then wrapI w (x * 2 ^ (y % w) : Nat)
  else (x / 2 ^ (y % w), 0)

/-- A stage on an element (R94 to R96, R98). -/
def stageEl (w : Nat) (v y1 k0 k1 : W32) : W32 × W32 :=
  let op := w / 2 ^ 26 % 64
  let ty := ElTy.ofCode (w / 2 ^ 23 % 8)
  let u := w / 2 ^ 22 % 2 == 1
  let imm := w % 2 ^ 12
  let sel (n : Nat) : W32 :=
    if n == 0 then y1 else if n == 1 then k0 else if n == 2 then k1 else ty.splat (intPat ty.width (patInt 12 true imm))
  if op == 0x10 then stageCvt ty (!u) (ElTy.ofCode (imm % 8)) (imm / 8 % 2 == 0) v
  else
    let y := sel (w / 2 ^ 20 % 4)
    let z := sel (w / 2 ^ 18 % 4)
    match ty.fmt? with
    | some f => ty.map3 (stageF f op) v y z
    | none => ty.map3 (stageI ty.width u op) v y z

/-- Number of stages of a chain. -/
def Chain.stages (k : Chain) : Nat := dbits k.desc 130 128 + 1
/-- Does the chain read source 1? -/
def Chain.s1 (k : Chain) : Bool := dbits k.desc 131 131 == 1
/-- The stride of a stream, 0 for VPASS (R90, R98). -/
def Chain.str (k : Chain) (hi lo : Nat) : Int := if k.strided then stride (dbits k.desc hi lo) else 0
/-- Address of an element of a stream. -/
def elAt (start : Nat) (str : Int) (j i : Nat) : Nat := ((start : Int) + 4 * (j * str + i)).toNat
/-- Source 0, source 1 and destination addresses of element i of repetition j. -/
def Chain.src0 (k : Chain) (j i : Nat) : Nat := elAt (dbits k.desc 63 0) (k.str 159 144) j i
/-- Source 1. -/
def Chain.src1 (k : Chain) (j i : Nat) : Nat := elAt (dbits k.desc 127 64) (k.str 175 160) j i
/-- Destination. -/
def Chain.dstAt (k : Chain) (j i : Nat) : Nat := elAt k.dst (k.str 191 176) j i

/-- Where a running chain stands: state, flags, and the error that stopped it. -/
structure ChainRun where
  s : State
  flags : W32
  err : Option Trap

/-- What the read of an element of a stream meets: a bank whose mode has changed since the acceptance (R257, R258), or a double-bit error (R27). Both
stop the chain as R27 says: DESIGN CHOICE for the first (log 122). -/
def State.chainRdFault (s : State) (c : CtxId) (a : Nat) : Option Trap :=
  match s.modeFault c a 4 with
  | some t => some t
  | none => s.spadEcc c a 4 true

/-- What the reads of an element meet (R27, R257). -/
def State.chainFault (s : State) (k : Chain) (j i : Nat) : Option Trap :=
  match s.chainRdFault k.ctx (k.src0 j i) with
  | some t => some t
  | none => if k.s1 then s.chainRdFault k.ctx (k.src1 j i) else none

/-- The result of an element, and the flags it raises (R98). -/
def State.chainVal (s : State) (k : Chain) (j i : Nat) : W32 × W32 :=
  let y1 := if k.s1 then s.spad32 k.ctx (k.src1 j i) else 0
  let k0 := BitVec.ofNat 32 (dbits k.desc 223 192)
  let k1 := BitVec.ofNat 32 (dbits k.desc 255 224)
  (List.range k.stages).foldl (fun (acc : W32 × W32) n =>
    let (v, fl) := stageEl (stageWord k.desc n) acc.1 y1 k0 k1
    (v, acc.2 ||| fl)) (s.spad32 k.ctx (k.src0 j i), 0)

/-- Has the chain read element i of repetition j? -/
def Chain.past (k : Chain) (j i : Nat) : Bool := j < k.rep || (j == k.rep && i < k.next)

/-- The result of an element written; a bank that is no longer in SPAD mode stops the chain (R98, R257). -/
def chainPut (k : Chain) (r : ChainRun) (j i : Nat) (v : W32) : ChainRun :=
  match r.s.modeFault k.ctx (k.dstAt j i) 4 with
  | some t => { r with err := some t }
  | none => { r with s := r.s.spadWrite k.ctx (k.dstAt j i) (toBytes 4 v.toNat) }

/-- One element of a chain that it has not read before (R98); a fault of its accesses stops it (R27). -/
def chainEl (k : Chain) (r : ChainRun) (j i : Nat) : ChainRun :=
  if r.err.isSome || k.past j i then r
  else match r.s.chainFault k j i with
    | some t => { r with err := some t }
    | none =>
      let (v, fl) := r.s.chainVal k j i
      chainPut k { r with flags := r.flags ||| fl } j i v

/-- The results that a chain has computed, written. -/
def chainFlush (k : Chain) (s : State) : ChainRun := k.hold.foldl (fun r e => chainPut k r k.rep e.1 e.2) ⟨s, k.flags, k.err⟩

/-- The rest of a chain, repetitions rising (R98). -/
def chainRun (k : Chain) (s : State) : ChainRun :=
  (List.range k.reps).foldl (fun r j => (List.range k.n).foldl (fun r i => chainEl k r j i) r) (chainFlush k s)

/-- The next repetition of a chain, once every element of the one under way is written (R98). -/
def Chain.turn (k : Chain) : Chain := if k.next == k.n && k.hold.isEmpty then { k with rep := k.rep + 1, next := 0 } else k

/-- A chain changed. -/
def State.updChain (s : State) (core : CoreId) (i : Nat) (k : Chain) : State :=
  s.updCore core (fun x => { x with chains := modAt (fun _ => k) x.chains i })

/-- A started chain reads its next element (R98), beside all else that acts on the scratchpad (R27, R316). -/
def State.chainRead (s : State) (core : CoreId) (i : Nat) : State :=
  match (s.core core).chains[i]? with
  | none => s
  | some k =>
    let k := k.turn
    let x := s.ctx k.ctx
    if !k.started || k.err.isSome || k.rep ≥ k.reps || k.next ≥ k.n || x.zeroing (k.src0 k.rep k.next) 4
        || (k.s1 && x.zeroing (k.src1 k.rep k.next) 4) then s
    else match s.chainFault k k.rep k.next with
      | some t => s.updChain core i { k with err := some t }
      | none =>
        let (v, fl) := s.chainVal k k.rep k.next
        s.updChain core i { k with next := k.next + 1, hold := k.hold.set k.next v, flags := k.flags ||| fl }

/-- A result that a chain has computed is written. -/
def State.chainWrite (s : State) (core : CoreId) (i el : Nat) : State :=
  match (s.core core).chains[i]? with
  | none => s
  | some k =>
    match k.hold.get? el with
    | none => s
    | some v =>
      if (s.ctx k.ctx).zeroing (k.dstAt k.rep el) 4 then s
      else
        let r := chainPut k ⟨s, k.flags, k.err⟩ k.rep el v
        r.s.updChain core i { k with hold := if r.err == k.err then k.hold.erase el else [], err := r.err }

/-! ### Issue of loads, stores and atomics -/

/-- A scratchpad load (R84): the checks at issue, then CNT.LD gains 1. -/
def State.load (s : State) (g : Guard) (t a : BitVec 5) (off : BitVec 11) (size : Nat) (signed : Bool) : Out :=
  s.issue g (fun c => c.pends t || c.cntLd ≥ 31) (fun c =>
    let ea := effAddr (c.reg a) size off
    match s.spadFault s.cur ea size size unitSeq with
    | some f => s.raise s.cur f
    | none => s.setCtx s.cur (c.pushOp false t (.load ea.toNat size signed)).advance)

/-- A scratchpad store (R85). -/
def State.store (s : State) (g : Guard) (t a : BitVec 5) (off : BitVec 11) (size : Nat) : Out :=
  s.issue g (fun c => c.cntSt ≥ 31) (fun c =>
    let ea := effAddr (c.reg a) size off
    match s.spadFault s.cur ea size size unitSeq with
    | some f => s.raise s.cur f
    | none => s.setCtx s.cur (c.pushOp true 0 (.store ea.toNat size (c.reg t))).advance)

/-- A local atomic (R86, R87). -/
def State.amo (s : State) (g : Guard) (t a : BitVec 5) (op : AmoOp) (size : Nat) : Out :=
  s.issue g (fun c => c.pends t || c.cntLd ≥ 31) (fun c =>
    let ea := c.reg a
    let v := BitVec.ofNat 64 ((c.reg t).toNat % 2 ^ (8 * size))
    let x := if size == 4 then c.reg t >>> 32 else c.reg (t + 1)
    match s.spadFault s.cur ea size size unitSeq with
    | some f => s.raise s.cur f
    | none => s.setCtx s.cur (c.pushOp false t (.amo op size ea.toNat v x)).advance)

/-- LDB (R84). -/
def execLdb (g : Guard) (t a : BitVec 5) (off : BitVec 11) (s : State) : Out := s.load g t a off 1 false
/-- LDBS (R84). -/
def execLdbs (g : Guard) (t a : BitVec 5) (off : BitVec 11) (s : State) : Out := s.load g t a off 1 true
/-- LDH (R84). -/
def execLdh (g : Guard) (t a : BitVec 5) (off : BitVec 11) (s : State) : Out := s.load g t a off 2 false
/-- LDHS (R84). -/
def execLdhs (g : Guard) (t a : BitVec 5) (off : BitVec 11) (s : State) : Out := s.load g t a off 2 true
/-- LDW (R84). -/
def execLdw (g : Guard) (t a : BitVec 5) (off : BitVec 11) (s : State) : Out := s.load g t a off 4 false
/-- LDWS (R84). -/
def execLdws (g : Guard) (t a : BitVec 5) (off : BitVec 11) (s : State) : Out := s.load g t a off 4 true
/-- LDD (R84). -/
def execLdd (g : Guard) (t a : BitVec 5) (off : BitVec 11) (s : State) : Out := s.load g t a off 8 false
/-- STB (R85). -/
def execStb (g : Guard) (t a : BitVec 5) (off : BitVec 11) (s : State) : Out := s.store g t a off 1
/-- STH (R85). -/
def execSth (g : Guard) (t a : BitVec 5) (off : BitVec 11) (s : State) : Out := s.store g t a off 2
/-- STW (R85). -/
def execStw (g : Guard) (t a : BitVec 5) (off : BitVec 11) (s : State) : Out := s.store g t a off 4
/-- STD (R85). -/
def execStd (g : Guard) (t a : BitVec 5) (off : BitVec 11) (s : State) : Out := s.store g t a off 8
/-- AMO.SWAP.W (R86). -/
def execAmoSwapW (g : Guard) (t a : BitVec 5) (s : State) : Out := s.amo g t a .swap 4
/-- AMO.ADD.W (R86). -/
def execAmoAddW (g : Guard) (t a : BitVec 5) (s : State) : Out := s.amo g t a .add 4
/-- AMO.AND.W (R86). -/
def execAmoAndW (g : Guard) (t a : BitVec 5) (s : State) : Out := s.amo g t a .and 4
/-- AMO.OR.W (R86). -/
def execAmoOrW (g : Guard) (t a : BitVec 5) (s : State) : Out := s.amo g t a .or 4
/-- AMO.XOR.W (R86). -/
def execAmoXorW (g : Guard) (t a : BitVec 5) (s : State) : Out := s.amo g t a .xor 4
/-- AMO.MIN.W (R86). -/
def execAmoMinW (g : Guard) (t a : BitVec 5) (s : State) : Out := s.amo g t a .min 4
/-- AMO.MAX.W (R86). -/
def execAmoMaxW (g : Guard) (t a : BitVec 5) (s : State) : Out := s.amo g t a .max 4
/-- AMO.MINU.W (R86). -/
def execAmoMinuW (g : Guard) (t a : BitVec 5) (s : State) : Out := s.amo g t a .minu 4
/-- AMO.MAXU.W (R86). -/
def execAmoMaxuW (g : Guard) (t a : BitVec 5) (s : State) : Out := s.amo g t a .maxu 4
/-- AMO.CAS.W (R86, R87). -/
def execAmoCasW (g : Guard) (t a : BitVec 5) (s : State) : Out := s.amo g t a .cas 4
/-- AMO.SWAP.D (R86). -/
def execAmoSwapD (g : Guard) (t a : BitVec 5) (s : State) : Out := s.amo g t a .swap 8
/-- AMO.ADD.D (R86). -/
def execAmoAddD (g : Guard) (t a : BitVec 5) (s : State) : Out := s.amo g t a .add 8
/-- AMO.AND.D (R86). -/
def execAmoAndD (g : Guard) (t a : BitVec 5) (s : State) : Out := s.amo g t a .and 8
/-- AMO.OR.D (R86). -/
def execAmoOrD (g : Guard) (t a : BitVec 5) (s : State) : Out := s.amo g t a .or 8
/-- AMO.XOR.D (R86). -/
def execAmoXorD (g : Guard) (t a : BitVec 5) (s : State) : Out := s.amo g t a .xor 8
/-- AMO.MIN.D (R86). -/
def execAmoMinD (g : Guard) (t a : BitVec 5) (s : State) : Out := s.amo g t a .min 8
/-- AMO.MAX.D (R86). -/
def execAmoMaxD (g : Guard) (t a : BitVec 5) (s : State) : Out := s.amo g t a .max 8
/-- AMO.MINU.D (R86). -/
def execAmoMinuD (g : Guard) (t a : BitVec 5) (s : State) : Out := s.amo g t a .minu 8
/-- AMO.MAXU.D (R86). -/
def execAmoMaxuD (g : Guard) (t a : BitVec 5) (s : State) : Out := s.amo g t a .maxu 8
/-- AMO.CAS.D (R86, R87). -/
def execAmoCasD (g : Guard) (t a : BitVec 5) (s : State) : Out := s.amo g t a .cas 8

/-! ### Completion of loads, stores and atomics (R69, R84 to R87) -/

/-- The index-th outstanding operation of a class that a completion step names. -/
def Ctx.opAt (c : Ctx) (i : Nat) : Option MemOp := c.ops[i]?

/-- The operation of c with an id changed. -/
def State.updOp (s : State) (c : CtxId) (id : Nat) (f : MemOp → MemOp) : State :=
  s.updCtx c (fun x => { x with ops := updFirst (fun o => o.id == id) f x.ops })

/-- An operation traps before it retires: it is not counted, and no younger word has had an effect (R21, R24, R30). -/
def State.lateTrap (s : State) (c : CtxId) (id : Nat) (ipc : BitVec 16) (t : Trap) : State :=
  (s.updCtx c (fun x => { x with ops := x.ops.filter (fun o => o.id != id), ipc := ipc })).raise c t

/-- What a load's bytes give (R84). -/
def loadVal (n : Nat) (sg : Bool) (bs : List Byte) : W64 :=
  if sg then BitVec.ofInt 64 (patInt (8 * n) true (ofBytes bs)) else BitVec.ofNat 64 (ofBytes bs)

/-- The bank access of an operation: a load reads, an atomic reads and writes, indivisibly; a double-bit error traps (R23, R24, R84, R86). After it the
operation can no longer trap. -/
def State.bankAccess (s : State) (c : CtxId) (o : MemOp) : State :=
  let x := s.ctx c
  match o.body.range with
  | none => s
  | some (a, n) =>
    if o.isStore || o.done || o.res.isSome || !opReady o.id o.body x.ops || x.zeroing a n then s
    else match s.spadEcc c a n false with
      | some t => s.lateTrap c o.id o.ipc t
      | none =>
        let bs := s.spadBytes c a n
        match o.body with
        | .load _ _ sg => s.updOp c o.id (fun o => { o with res := some (loadVal n sg bs) })
        | .amo op _ _ v w =>
          (s.spadWrite c a (toBytes n (amoNew op n (ofBytes bs) v.toNat w.toNat))).updOp c o.id
            (fun o => { o with res := some (BitVec.ofNat 64 (ofBytes bs)) })
        | _ => s

/-- The completion of an operation whose value has been read: g[t] is written and the operation counted out (R69, R84, R86). -/
def State.opWrite (s : State) (c : CtxId) (id : Nat) : State :=
  match (s.ctx c).ops.find? (fun o => o.id == id) with
  | some ⟨_, _, dst, _, _, _, some v⟩ => s.updCtx c (fun x => (x.setReg dst v).finishOp id)
  | _ => s

/-- SPAD_LOAD_COMPLETE: the i-th outstanding operation of c, a load, has read its bank and writes g[t] (R23, R84). -/
def execSpadLoadComplete (c : CtxId) (i : Nat) (s : State) : Out :=
  match (s.ctx c).opAt i with
  | some o =>
    (match o.body with
     | .load _ _ _ => if o.done then .next s else .next ((s.bankAccess c o).opWrite c o.id)
     | _ => .next s)
  | none => .next s

/-- SPAD_STORE_COMPLETE: a store writes its bank (R23, R85). -/
def execSpadStoreComplete (c : CtxId) (i : Nat) (s : State) : Out :=
  let x := s.ctx c
  match x.opAt i with
  | some o =>
    (match o.body with
     | .store a n v =>
       if o.done || !opReady o.id o.body x.ops || x.zeroing a n then .next s
       else .next ((s.spadWrite c a (toBytes n v.toNat)).updCtx c (fun x => x.finishOp o.id))
     | _ => .next s)
  | none => .next s

/-- AMO_COMPLETE: an atomic has performed its indivisible access and writes the old value (R86, R87). -/
def execAmoComplete (c : CtxId) (i : Nat) (s : State) : Out :=
  match (s.ctx c).opAt i with
  | some o =>
    (match o.body with
     | .amo _ _ _ _ _ => if o.done then .next s else .next ((s.bankAccess c o).opWrite c o.id)
     | _ => .next s)
  | none => .next s

/-! ### WAIT and NOP (R88, R89) -/

/-- The condition of a WAIT (R88). -/
def Ctx.waitDone (c : Ctx) (all : Bool) (ld st cp tl : Nat) : Bool :=
  let a := c.cntLd ≤ ld
  let b := c.cntSt ≤ st
  let d := c.cntCp ≤ cp
  let e := c.cntTl ≤ tl
  if all then a && b && d && e
  else if ld == 31 && st == 31 && cp == 31 && tl == 31 then true
  else (ld != 31 && a) || (st != 31 && b) || (cp != 31 && d) || (tl != 31 && e)

/-- Does a satisfied WAIT cover the fault (R88)? -/
def Ctx.covers (c : Ctx) (all : Bool) (ld st cp tl : Nat) (f : CovFault) : Bool :=
  let k := if f.copy then cp else tl
  let younger := (if f.copy then c.cpN else c.tlN) - f.seq - 1
  let single := ([ld, st, cp, tl].filter (· != 31)).length == 1
  (all || (single && k != 31)) && k ≤ younger

/-- A satisfied WAIT retires, or raises the oldest fault it covers (R27, R88, R332). -/
def State.waitRetire (s : State) (c : CtxId) (all : Bool) (ld st cp tl : Nat) : State :=
  let x := s.ctx c
  match x.cov.find? (fun f => x.covers all ld st cp tl f) with
  | some f => (s.updCtx c (fun x => { x with cov := x.cov.erase f })).raise c f.trap
  | none => s.retire c id

/-- WAIT and WAIT.ALL at issue (R88). -/
def State.waitOp (s : State) (g : Guard) (all : Bool) (ld st cp tl : BitVec 5) : Out :=
  s.issue g (fun _ => false) (fun c =>
    if c.waitDone all ld.toNat st.toNat cp.toNat tl.toNat then s.waitRetire s.cur all ld.toNat st.toNat cp.toNat tl.toNat
    else s.waitFor s.cur (.counts all ld.toNat st.toNat cp.toNat tl.toNat))

/-- WAIT (R88). -/
def execWait (g : Guard) (ld st cp tl : BitVec 5) (s : State) : Out := s.waitOp g false ld st cp tl
/-- WAIT.ALL (R88). -/
def execWaitAll (g : Guard) (ld st cp tl : BitVec 5) (s : State) : Out := s.waitOp g true ld st cp tl
/-- NOP (R89). -/
def execNop (g : Guard) (s : State) : Out := s.simple g (fun _ => false) id

/-! ### VPASS and VPASSR (R90 to R99) -/

/-- Least and greatest byte of a stream's hull (R97). -/
def hull (start : Nat) (str : Int) (n reps : Nat) : Int × Int :=
  let last : Int := ((reps : Int) - 1) * str
  ((start : Int) + 4 * min 0 last, (start : Int) + 4 * (max 0 last + n) - 1)

/-- The checks of R97 step 4 on one stream. R97 names neither the bank mode (R257) nor the lock (R231): they are tested after SPAD_BOUNDS, before the
next stream and before OVERLAP. DESIGN CHOICE (log 95). -/
def State.streamFault (s : State) (c : CtxId) (start : W64) (str : Int) (n reps : Nat) : Option Trap :=
  let x := s.ctx c
  let (lo, hi) := hull start.toNat str n reps
  if start.toNat % 4 != 0 then some ⟨0x02, start, 4⟩
  else if lo < 0 || hi ≥ x.budget then some ⟨0x03, start, 4⟩
  else match x.badBank lo.toNat (hi - lo + 1).toNat with
    | some b => some ⟨0x13, BitVec.ofNat 64 b, 1⟩
    | none => if s.locked c lo.toNat (hi - lo + 1).toNat then some ⟨0x11, start, BitVec.ofNat 16 (4 + 16 * unitSeq)⟩ else none

/-- Does the destination overlap a source in a forbidden way (R97 step 5)? -/
def badOverlap (src dst : Nat) (sstr dstr : Int) (n reps : Nat) : Bool :=
  let (a, b) := hull src sstr n reps
  let (x, y) := hull dst dstr n reps
  a ≤ y && x ≤ b && !(src == dst && (reps == 1 || sstr == dstr))

/-- VPASS and VPASSR (R90, R91, R97). A double-bit error in the descriptor, which no rule names, raises ECC_UNCORR at the command, after step 1 of R97
and before PASS_DESC: DESIGN CHOICE (log 94). -/
def State.vpassOp (s : State) (g : Guard) (d a b : BitVec 5) (rep : Bool) : Out :=
  s.issue g (fun c => c.cntSt != 0 || (s.core (coreOf s.cur)).chains.length ≥ 4 || c.cntTl ≥ 31) (fun c =>
    let da := c.reg a
    let n := if rep then bits (c.reg b) 31 0 else (c.reg b).toNat
    let reps := if rep then bits (c.reg b) 63 32 else 1
    match s.spadFault s.cur da 64 64 unitSeq with
    | some f => s.raise s.cur f
    | none =>
    match s.spadEcc s.cur da.toNat 64 false with
    | some f => s.raise s.cur f
    | none =>
      let desc := BitVec.ofNat 512 (ofBytes (s.spadBytes s.cur da.toNat 64))
      match descFault desc with
      | some det => s.raise s.cur ⟨0x08, da, BitVec.ofNat 16 det⟩
      | none =>
        if n == 0 || reps == 0 then s.setCtx s.cur c.advance
        else
          let k : Chain := ⟨s.cur, c.tlN, desc, (c.reg d).toNat, n, reps, rep, false, 0, 0, [], 0, none⟩
          let src0 := BitVec.ofNat 64 (dbits desc 63 0)
          let src1 := BitVec.ofNat 64 (dbits desc 127 64)
          let f := match s.streamFault s.cur src0 (k.str 159 144) n reps with
            | some t => some t
            | none => match if k.s1 then s.streamFault s.cur src1 (k.str 175 160) n reps else none with
              | some t => some t
              | none => s.streamFault s.cur (c.reg d) (k.str 191 176) n reps
          match f with
          | some t => s.raise s.cur t
          | none =>
            if badOverlap src0.toNat k.dst (k.str 159 144) (k.str 191 176) n reps
                || (k.s1 && badOverlap src1.toNat k.dst (k.str 175 160) (k.str 191 176) n reps) then
              s.raise s.cur ⟨0x04, c.reg d, 0⟩
            else
              (s.setCtx s.cur { c with tlq := c.tlq ++ [TlOp.mk c.tlN false false], tlN := c.tlN + 1 }.advance).updCore (coreOf s.cur)
                (fun x => { x with chains := x.chains ++ [k] }))

/-- VPASS (R90). -/
def execVpass (g : Guard) (d a b : BitVec 5) (s : State) : Out := s.vpassOp g d a b false
/-- VPASSR (R90). -/
def execVpassr (g : Guard) (d a b : BitVec 5) (s : State) : Out := s.vpassOp g d a b true

/-- Counted-out tile operations leave oldest first (R69). -/
def sweepTl : List TlOp → List TlOp
  | [] => []
  | o :: t => if o.done then sweepTl t else o :: t

/-- A tile operation completes (R69). -/
def Ctx.finishTl (c : Ctx) (id : Nat) : Ctx :=
  { c with tlq := sweepTl (updFirst (fun o => o.id == id) (fun o => { o with done := true }) c.tlq) }

/-- PASS_CHAIN_START: the oldest accepted chain that has not started starts (R26). -/
def execPassChainStart (core : CoreId) (s : State) : Out :=
  .next (s.updCore core (fun k => { k with chains := updFirst (fun h => !h.started) (fun h => { h with started := true }) k.chains }))

/-- Does a chain reach a bank that is still being zeroed (R258)? -/
def State.chainZeroing (s : State) (k : Chain) : Bool :=
  let z (start : Nat) (str : Int) : Bool :=
    let h := hull start str k.n k.reps
    (s.ctx k.ctx).zeroing h.1.toNat (h.2 - h.1 + 1).toNat
  z (dbits k.desc 63 0) (k.str 159 144) || (k.s1 && z (dbits k.desc 127 64) (k.str 175 160)) || z k.dst (k.str 191 176)

/-- PASS_CHAIN_COMPLETE: the oldest started chain writes its destination, ORs in its flags and is counted out; an uncorrectable error is kept
for the covering WAIT (R27, R45, R98). -/
def execPassChainComplete (core : CoreId) (s : State) : Out :=
  match (s.core core).chains with
  | [] => .next s
  | k :: rest =>
    if !k.started || s.chainZeroing k then .next s
    else
      let r := chainRun k s
      let s := r.s.updCore core (fun x => { x with chains := rest })
      .next ((s.addFlags k.ctx r.flags).updCtx k.ctx (fun c =>
        { (c.finishTl k.id) with
          cov := match r.err with
            | some t => c.cov ++ [CovFault.mk false k.id t]
            | none => c.cov }))

/-- BANK_ZERO_DONE: the zeroing of a core's bank ends (R258). -/
def execBankZeroDone (core : CoreId) (bank : Nat) (s : State) : Out :=
  .next ((List.range 4).foldl (fun s b => s.updCtx (4 * core + b) (fun c =>
    { c with banks := c.banks.map (fun x => if x.bank == bank then { x with zeroing := false } else x) })) s)

end Sys2Proof.Machine
end

