-- ==== Sys2Proof/Machine/Fabric.lean ====
section
/-! DEFINITION. Streams on the fabric: partitions, routes, demand, packets, the firewall at the lease's edge, and the faults of a load
(R100 to R121, R135, R204, R380, R381, R417). -/

namespace Sys2Proof.Machine

/-! ### Partitions (R107 to R109, R113) -/

/-- An empty partition with credits to demand. -/
def Part.blank (credits : Nat) : Part := { items := [], owed := credits, eosIn := false, eosOut := false, ty := 0 }

/-- The entries of a packet. -/
def packetItems (p : Packet) : List QItem :=
  if p.mark != 0 then [.marker p.mark]
  else (List.range p.els.length).map (fun i => .el (p.els.getD i 0) (i + 1 == p.els.length))

/-- A packet accepted, behind what is there (R107). -/
def Part.accept (q : Part) (p : Packet) : Part :=
  { q with items := q.items ++ packetItems p, eosIn := q.eosIn || p.mark == 2, ty := if p.mark == 0 then p.ty else q.ty }

/-- The elements at the head, up to the first marker. -/
def headEls : List QItem → List W32
  | .el v _ :: t => v :: headEls t
  | _ => []

/-- The elements available before the next marker (R118). -/
def Part.els (q : Part) : List W32 := headEls q.items

/-- The marker at the head, if one stands there. -/
def Part.marker? (q : Part) : Option Nat :=
  match q.items with
  | .marker k :: _ => some k
  | _ => none

/-- Packets that end within the first k entries: the credits their consumption frees (R109). -/
def freedBy (k : Nat) (l : List QItem) : Nat :=
  ((l.take k).filter (fun i => match i with | .el _ last => last | .marker _ => true)).length

/-- k entries consumed; their credits are freed (R109). After EOS no demand is owed. -/
def Part.pop (q : Part) (k : Nat) : Part :=
  let eos := (q.items.take k).any (fun i => i == .marker 2)
  { q with items := q.items.drop k
           owed := if q.eosOut || eos then 0 else q.owed + freedBy k q.items
           eosOut := q.eosOut || eos }

/-! ### Routes and demand (R108 to R112) -/

/-- The demand count D of the producer at the head of this part of a route: the least branch demand less the packets closed (R110, R111). -/
def Seg.least (g : Seg) : Nat :=
  match g.branches with
  | [] => 0
  | b :: t => t.foldl (fun m x => min m x.cum) b.cum

/-- D of R110. -/
def Seg.demand (g : Seg) : Nat := g.least - g.closed

/-- A packet on its way to every branch of a route (R111). -/
def Seg.carry (g : Seg) (p : Packet) : Seg :=
  { g with branches := g.branches.map (fun b => { b with fly := b.fly ++ [p] }), eos := g.eos || p.mark == 2 }

/-- A packet enters the route and is on its way to every branch: it uses one of its producer's demand (R110, R111). -/
def Seg.enter (g : Seg) (p : Packet) : Seg := { g.carry p with closed := g.closed + 1 }

/-- The route that a producer drives. -/
def Fab.seg? (f : Fab) (src : Source) : Option Seg := f.segs.find? (fun g => g.src == .unit src)

/-- Is the producer's output routed? -/
def Fab.routed (f : Fab) (src : Source) : Bool := (f.seg? src).isSome

/-- Can the producer close n packets: unrouted, or D ≥ n (R110, R117)? -/
def Fab.canClose (f : Fab) (src : Source) (n : Nat) : Bool :=
  match f.seg? src with
  | none => true
  | some g => g.demand ≥ n

/-- A packet closed by a producer; an unrouted output sends nothing. -/
def Fab.close (f : Fab) (src : Source) (p : Packet) : Fab :=
  { f with segs := updFirst (fun g => g.src == .unit src) (fun g => g.enter p) f.segs }

/-- Packets closed in order. -/
def Fab.closeAll (f : Fab) (src : Source) (ps : List Packet) : Fab := ps.foldl (fun f p => f.close src p) f

/-- The branch that ends at a consumer: route index and branch index. -/
def Fab.branchTo (f : Fab) (e : BrEnd) : Option (Nat × Nat) :=
  (List.range f.segs.length).findSome? (fun i =>
    match f.segs[i]? with
    | some g => ((List.range g.branches.length).find? (fun j => (g.branches[j]?).any (fun b => b.dst == e))).map (fun j => (i, j))
    | none => none)

/-- A branch changed. -/
def Fab.updBranch (f : Fab) (i j : Nat) (h : Branch → Branch) : Fab :=
  { f with segs := modAt (fun g => { g with branches := modAt h g.branches j }) f.segs i }

/-- The part of a route that a cross-core link drives, changed. -/
def Fab.updLink (f : Fab) (side pos : Nat) (h : Seg → Seg) : Fab := { f with segs := updFirst (fun g => g.src == .link side pos) h f.segs }

/-- A demand message for n packets sent upstream on a branch. -/
def Fab.demandOn (f : Fab) (i j n : Nat) : Fab := f.updBranch i j (fun b => { b with rev := b.rev ++ [n] })

/-! ### Units of a load -/

/-- A context's load changed. -/
def State.updFab (s : State) (c : CtxId) (f : Fab → Fab) : State := s.updCtx c (fun x => { x with fab := f x.fab })

/-- May the units of the context's load act: RUNNING, not stopped, no fault hold (R390), firing enable 1 (R117, R392)? -/
def Ctx.active? (c : Ctx) : Bool :=
  c.cur.st == .running && !c.fab.stopped && !c.fab.held && (c.drain || !(c.gated || (c.st == .stopped && c.gsrc != 0)))

/-- A cell of the load. -/
def Fab.cell? (f : Fab) (n : Nat) : Option Cell := f.cells.get? n
/-- A cell of the load replaced. -/
def Fab.setCell (f : Fab) (n : Nat) (x : Cell) : Fab := { f with cells := f.cells.set n x }
/-- A tile of the load replaced. -/
def Fab.setTile (f : Fab) (n : Nat) (x : Tile) : Fab := { f with tiles := f.tiles.set n x }
/-- A port of the load. -/
def Fab.port? (f : Fab) (p : Nat) : Option Port := f.ports.get? p
/-- A port of the load replaced. -/
def Fab.setPort (f : Fab) (p : Nat) (x : Port) : Fab := { f with ports := f.ports.set p x }

/-- Unit number of a cell (R135 Table 4). -/
def unitCell (n : Nat) : Nat := n
/-- Unit number of a tile. -/
def unitTile (n : Nat) : Nat := 0x100 + n
/-- Unit number of a ring port (R205, R227): a tile's ports are its tile. -/
def unitPort (p : Nat) : Nat := 0x200 + p
/-- Unit number of a consumer. -/
def BrEnd.unit : BrEnd → Nat
  | .queue n _ => unitCell n
  | .port p => if p < 48 then unitTile (p % 16) else unitPort p
  | .exit _ _ => 0

/-- The fault hold of a load released: what faulted is attempted again (R390). -/
def Fab.release (f : Fab) : Fab :=
  { f with held := false, cells := f.cells.map (fun e => (e.1, { e.2 with acc := e.2.acc.map (fun a => { a with failed := false }) })) }

/-- STREAM_ALIGN (R135). -/
def alignTrap (unit cause : Nat) : Trap := { cls := 0x09, val := BitVec.ofNat 64 unit, detail := BitVec.ofNat 16 cause }

/-- A fault raised in a context's load: the load on that core is held and the context takes the trap (R135, R390). -/
def State.fabFault (s : State) (c : CtxId) (t : Trap) : State := (s.updFab c (fun f => { f with held := true })).raise c t

/-- A packet or demand message of a load cannot cross a failed link (R390, R405). -/
def State.linkFault (s : State) (c : CtxId) (src : Nat) : State :=
  let (v, s) := s.freeAddr
  s.fabFault c (hwTrap src v)

/-- The partition or port store that a consumer is, changed. -/
def Fab.updSink (f : Fab) (e : BrEnd) (h : Part → Part) : Fab :=
  match e with
  | .queue n q =>
    match f.cells.get? n with
    | some x => f.setCell n { x with q := modAt h x.q q }
    | none => f
  | .port p =>
    if 16 ≤ p && p < 32 then
      match f.tiles.get? (p - 16) with
      | some x => f.setTile (p - 16) { x with inp := h x.inp }
      | none => f
    else if 32 ≤ p && p < 48 then
      match f.tiles.get? (p - 32) with
      | some x => f.setTile (p - 32) { x with par := h x.par }
      | none => f
    else match f.ports.get? p with
      | some x => f.setPort p { x with part := h x.part }
      | none => f
  | .exit _ _ => f

/-- The partition or port store that a consumer is. -/
def Fab.sink? (f : Fab) (e : BrEnd) : Option Part :=
  match e with
  | .queue n q => (f.cells.get? n).bind (fun x => x.q[q]?)
  | .port p =>
    if 16 ≤ p && p < 32 then (f.tiles.get? (p - 16)).map (·.inp)
    else if 32 ≤ p && p < 48 then (f.tiles.get? (p - 32)).map (·.par)
    else (f.ports.get? p).map (·.part)
  | .exit _ _ => none

/-- Is the consumer an x1 port (R112)? -/
def BrEnd.isX1 : BrEnd → Bool
  | .port p => 32 ≤ p && p < 48
  | _ => false

/-! ### Cross-core links (R102, R380, R416, R417) -/

/-- The lease of a context. -/
def State.leaseOf (s : State) (c : CtxId) : Option Lease := s.leases.get? (s.ctx c).lease

/-- A lease changed. -/
def State.updLease (s : State) (lid : Nat) (f : Lease → Lease) : State :=
  match s.leases.get? lid with
  | some l => { s with leases := s.leases.set lid (f l) }
  | none => s

/-- Crossings of die boundaries by a lease's rectangle: k of R418. -/
def Lease.seams (l : Lease) : Nat :=
  (if l.x < 10 && 10 < l.x + l.w then 1 else 0) + (if l.y < 8 && 8 < l.y + l.h then 1 else 0)

/-- Cycles of a collective across the lease (R131, R418). -/
def Lease.span (l : Lease) : Nat := 4 + (l.w - 1) + (l.h - 1) + 12 * l.seams

/-- The context of the same lease on the core beyond a side (0 N, 1 E, 2 S, 3 W). -/
def State.neighbor (s : State) (c : CtxId) (side : Nat) : Option CtxId :=
  match s.leaseOf c with
  | none => none
  | some l =>
    let x := (s.ctx c).lx.toNat
    let y := (s.ctx c).ly.toNat
    if side == 0 then (if y == 0 then none else l.ctxs[(y - 1) * l.w + x]?)
    else if side == 1 then (if x + 1 ≥ l.w then none else l.ctxs[y * l.w + x + 1]?)
    else if side == 2 then (if y + 1 ≥ l.h then none else l.ctxs[(y + 1) * l.w + x]?)
    else (if x == 0 then none else l.ctxs[y * l.w + x - 1]?)

/-- The side from which a message sent over a side arrives. -/
def oppSide (side : Nat) : Nat := (side + 2) % 4

/-- A packet dropped at a firewall: FWLOG and event 3 (R381, R409). kind is 1 for ACN messages and kick notices. -/
def State.fwDrop (s : State) (ten cb core side kind : Nat) (bten : Nat) : State :=
  let cnt := min 65535 (bits (s.mgv 0x09C2) 63 48 + 1)
  let v := BitVec.ofNat 64 (cnt * 2 ^ 48 + ten * 2 ^ 42 + cb * 2 ^ 40 + coreX core * 2 ^ 35 + coreY core * 2 ^ 31 + side * 2 ^ 29
    + kind * 2 ^ 28 + bten * 2 ^ 22)
  (s.setMg 0x09C2 v).event 3 ten 0 0 0 core cb v

/-- A configuration miss: the packet is held, and the first one raises CFG_MISS (R204). -/
def State.holdMiss (s : State) (c : CtxId) (e : BrEnd) (p : Packet) : State :=
  let x := s.ctx c
  let s := s.updCtx c (fun x => { x with missed := x.missed ++ [(e, p)], miss := true })
  if x.miss then s
  else s.raise c { cls := 0x0F, val := BitVec.ofNat 64 (match e with | .port q => unitPort q | e => e.unit), detail := 0 }

/-- Does a load of context d's lease still run on some core of it? -/
def State.loadRuns (s : State) (d : CtxId) : Bool :=
  ((s.leaseOf d).map (·.ctxs)).getD [d] |>.any (fun c =>
    (s.ctx c).cur.st == .running && (s.ctx c).fab.start == (s.ctx d).fab.start && !(s.ctx c).fab.stopped)

/-- The bound bit of an edge box of context d: the load that started in the given cycle binds the link, and runs on some core of the lease. A core
that a stream only crosses binds its links for as long as that: its own part has ended in its first cycle (R131, R134, R380). DEDUCED (log 113). -/
def State.bound (s : State) (d : CtxId) (side pos start : Nat) : Bool :=
  let y := s.ctx d
  y.st != .empty && y.ran && y.fab.start == start && y.fab.segs.any (fun g => g.src == .link side pos) && s.loadRuns d

/-- The firewall test of the receiving edge box (R380): a packet of a stopped load is discarded, one that passes is carried on its route, and every
other is dropped and logged (R381). -/
def State.boxTest (s : State) (d : CtxId) (side pos start : Nat) (p : Packet) : State :=
  let y := s.ctx d
  let mine := y.st != .empty && y.ten.toNat == p.ten
  if mine && y.ran && y.fab.start == start && y.fab.stopped then s
  else if mine && s.bound d side pos start then
    s.updFab d (fun f => f.updLink side pos (fun g => g.carry p))
  else s.fwDrop p.ten (d % 4) (coreOf d) side 0 (if y.st == .empty then 0 else y.ten.toNat)

/-- What a relay at a seam forwards while it holds packets and demand; the firewall's test comes after it (R417). The place of a packet that the
test drops is free again at the relay, which has passed it on: DEDUCED (log 113). -/
def State.relayDrain (s : State) (d : CtxId) (side pos : Nat) : Nat → State
  | 0 => s
  | k + 1 =>
    match (s.ctx d).fab.segs.find? (fun g => g.src == .link side pos) with
    | some g =>
      (match g.relay with
       | some (p :: t) =>
         if g.demand == 0 then s
         else
           let s := s.updFab d (fun f => f.updLink side pos (fun g => { g with relay := some t, relayOwed := g.relayOwed + 1, closed := g.closed + 1 }))
           (s.boxTest d side pos (s.ctx d).fab.start p).relayDrain d side pos k
       | _ => s)
    | none => s

/-- A packet crosses a link of context c to its lease's context beyond: through the relay at a seam, then the firewall (R380, R416, R417). -/
def State.cross (s : State) (c : CtxId) (side pos : Nat) (p : Packet) : State :=
  match s.neighbor c side with
  | none => s
  | some d =>
    let y := s.ctx d
    let start := (s.ctx c).fab.start
    match if y.ran && y.fab.start == start then y.fab.segs.find? (fun g => g.src == .link (oppSide side) pos) else none with
    | some { relay := some l, .. } =>
      (s.updFab d (fun f => f.updLink (oppSide side) pos (fun g => { g with relay := some (l ++ [p]) }))).relayDrain d (oppSide side) pos (l.length + 1)
    | _ => s.boxTest d (oppSide side) pos start p

/-- The increase of a link's least branch demand is sent over the link to the sender's side, in messages of at most two (R108, R111). A relay
has its own credits instead. -/
def State.forwardDemand (s : State) (c : CtxId) (i : Nat) : State :=
  match (s.ctx c).fab.segs[i]? with
  | some g =>
    match g.src, g.relay with
    | .link side pos, none =>
      let inc := g.least - g.fwd
      if inc == 0 then s
      else
        let s := s.updFab c (fun f => { f with segs := modAt (fun g => { g with fwd := g.least }) f.segs i })
        match s.neighbor c side with
        | none => s
        | some d =>
          match (s.ctx d).fab.branchTo (.exit (oppSide side) pos) with
          | none => s
          | some (a, b) =>
            let msgs := List.replicate (inc / 2) 2 ++ (if inc % 2 == 1 then [1] else [])
            s.updFab d (fun f => msgs.foldl (fun f n => f.demandOn a b n) f)
    | _, _ => s
  | none => s

/-! ### The steps of streams -/

/-- The elements of an x4 packet that a lane field lets through to an x1 port, from an index (R112). -/
def laneEls (lane : Nat) : Nat → List W32 → List W32
  | _, [] => []
  | i, v :: t => if i % 4 == lane then v :: laneEls lane (i + 1) t else laneEls lane (i + 1) t

/-- Does a checking port refuse the TYPE of a packet (R206, R227, R327)? -/
def badType (e : BrEnd) (p : Packet) : Bool :=
  match e with
  | .port 48 | .port 53 => p.ty != 0
  | _ => false

/-- Elements behind the last marker of a store. -/
def tailEls (l : List QItem) : Nat := (l.reverse.takeWhile (fun i => match i with | .el _ _ => true | .marker _ => false)).length

/-- The copy commands that n more elements complete at the ce.cmd store: each waits at the engine from this cycle on (R180, R327). -/
def State.cmdArrive (s : State) (c : CtxId) (e : BrEnd) (l : List QItem) (n : Nat) : State :=
  if e == .port 53 then
    s.updCore (coreOf c) (fun k => { k with ceCmds := k.ceCmds ++ List.replicate ((tailEls l % 16 + n) / 16) ⟨c, none, s.time⟩ })
  else s

/-- PACKET_ARRIVE: the oldest packet in flight on a branch reaches its consumer, or crosses to the next core (R107, R112, R135, R194, R204, R380). A
stream is cut at the point of R377 step 2, behind a marker or before its first packet, where R115 names the point before one: DESIGN CHOICE (log 114). -/
def execPacketArrive (c : CtxId) (seg br : Nat) (s : State) : Out :=
  let x := s.ctx c
  match (x.fab.segs[seg]?).bind (fun g => g.branches[br]?) with
  | none => .next s
  | some b =>
    match b.fly with
    | [] => .next s
    | p :: rest =>
      let took := s.updFab c (fun f => f.updBranch seg br (fun b => { b with fly := rest }))
      if x.fab.stopped then .next took
      else match b.dst with
        | .exit side pos =>
          match s.deadAt (coreOf c) side false with
          | some src => if x.fab.held then .next s else .next (took.linkFault c src)
          | none =>
          if b.cut && !b.mid && (s.leaseOf c).any (fun l => l.moving.any (fun m => m.step ≥ 2)) then .next s
          else .next ((took.updFab c (fun f => f.updBranch seg br (fun b => { b with mid := p.mark == 0 }))).cross c side pos p)
        | e =>
          match if x.cur.st == .running then x.fab.sink? e else none with
          | none => .next (took.holdMiss c e p)
          | some q =>
            if badType e p || q.eosIn then
              if x.fab.held then .next s else .next (s.fabFault c (alignTrap e.unit (if badType e p then 8 else 3)))
            else if e.isX1 && !p.x1 && p.mark == 0 then
              let els := laneEls b.lane b.skip p.els
              let took := took.updFab c (fun f => f.updBranch seg br (fun b =>
                { b with skip := b.skip + p.els.length, skipOwed := if els.isEmpty then b.skipOwed + 1 else b.skipOwed }))
              if els.isEmpty then .next took
              else .next (took.updFab c (fun f => f.updSink e (fun q => q.accept { p with els := els })))
            else
              let took := if p.mark != 0 then took.updFab c (fun f => f.updBranch seg br (fun b => { b with skip := 0 })) else took
              .next ((took.updFab c (fun f => f.updSink e (fun q => q.accept p))).cmdArrive c e q.items p.els.length)

/-- LANE_SKIP_DEMAND: the box at which a lane-filtered route ends demands one packet for one that delivered nothing (R112). -/
def execLaneSkipDemand (c : CtxId) (seg br : Nat) (s : State) : Out :=
  match (((s.ctx c).fab.segs[seg]?).bind (fun g => g.branches[br]?)) with
  | none => .next s
  | some b =>
    if b.skipOwed == 0 then .next s
    else .next (s.updFab c (fun f => (f.updBranch seg br (fun b => { b with skipOwed := b.skipOwed - 1 })).demandOn seg br 1))

/-- Does a route's part count the demand that reaches it? A producer that has closed EOS discards it, and so does a load that has ended or been
stopped; the demand of a stream that only passes through the core goes on (R110, R134, R194). -/
def Ctx.takesDemand (x : Ctx) (seg : Nat) : Bool :=
  !x.fab.stopped && (match x.fab.segs[seg]? with
    | some g => (match g.src with
      | .unit _ => !g.eos && x.cur.st == .running
      | .link _ _ => true)
    | none => false)

/-- DEMAND_ARRIVE: the oldest demand message of a branch is counted; a producer's D, or the demand that a link forwards, rises, or it is discarded
(R110, R111, R134). -/
def execDemandArrive (c : CtxId) (seg br : Nat) (s : State) : Out :=
  match (((s.ctx c).fab.segs[seg]?).bind (fun g => g.branches[br]?)) with
  | none => .next s
  | some b =>
    match b.rev with
    | [] => .next s
    | n :: rest =>
      match (match b.dst with | .exit side _ => s.deadAt (coreOf c) side false | _ => none) with
      | some src =>
        if (s.ctx c).fab.held then .next s
        else .next ((s.updFab c (fun f => f.updBranch seg br (fun b => { b with rev := rest }))).linkFault c src)
      | none =>
      if !(s.ctx c).takesDemand seg then
        .next (s.updFab c (fun f => f.updBranch seg br (fun b => { b with rev := rest })))
      else
      let s := s.updFab c (fun f => f.updBranch seg br (fun b => { b with rev := rest, cum := b.cum + n }))
      match (s.ctx c).fab.segs[seg]? with
      | some { src := .link side pos, .. } => .next ((s.relayDrain c side pos 16).forwardDemand c seg)
      | _ => .next (s.forwardDemand c seg)

/-- DEMAND_SEND: a consumer sends a demand for credits it has freed, at most two in a message (R108, R109, R417). -/
def execDemandSend (c : CtxId) (k : Sink) (s : State) : Out :=
  let x := s.ctx c
  if x.fab.stopped then .next s
  else match k with
    | .relay seg =>
      match x.fab.segs[seg]? with
      | none => .next s
      | some g =>
        match g.src with
        | .link side pos =>
          if g.relayOwed == 0 then .next s
          else
            let n := min 2 g.relayOwed
            let s := s.updFab c (fun f => { f with segs := modAt (fun g => { g with relayOwed := g.relayOwed - n }) f.segs seg })
            match s.neighbor c side with
            | none => .next s
            | some d =>
              match (s.ctx d).fab.branchTo (.exit (oppSide side) pos) with
              | none => .next s
              | some (a, b) => .next (s.updFab d (fun f => f.demandOn a b n))
        | _ => .next s
    | .queue n q => .next (sendFrom s x (.queue n q))
    | .port p => .next (sendFrom s x (.port p))
where
  /-- The credits a partition or port owes, sent on the branch that feeds it. -/
  sendFrom (s : State) (x : Ctx) (e : BrEnd) : State :=
    match x.fab.sink? e, x.fab.branchTo e with
    | some q, some (a, b) =>
      if q.owed == 0 then s
      else s.updFab c (fun f => (f.updSink e (fun q => { q with owed := q.owed - min 2 q.owed })).demandOn a b (min 2 q.owed))
    | _, _ => s

/-- The packet that a producer of a context closes. -/
def Ctx.packet (c : Ctx) (els : List W32) (mark ty : Nat) (x1 : Bool) : Packet :=
  { els := els, mark := mark, ty := ty, ten := c.ten.toNat, x1 := x1 }

/-- TYPE of a cell's packets: that of its word (R155). -/
def cellTy (w : W32) : Nat := w.toNat / 2 ^ 21 % 8

/-- Has cell n fired for context c in this cycle (R119)? -/
def State.firedNow (s : State) (c : CtxId) (n : Nat) : Bool := s.turns.get? (512 * coreOf c + n) == some (c % 4, s.time)

/-- May a cell's packer of this length close now: it is full, or it is not empty and the cell has not fired for the context in this cycle (R119)? -/
def State.mayClose (s : State) (c : CtxId) (n len : Nat) : Bool := len != 0 && (len ≥ 8 || !s.firedNow c n)

/-- PACKER_CLOSE: a producer whose packer is not empty closes its packet under demand, and a unit's port its next completion token (R110, R119, R155,
R201, R224, R240, R330). -/
def execPackerClose (c : CtxId) (p : Source) (s : State) : Out :=
  let x := s.ctx c
  if !x.active? then .next s
  else match p with
    | .out n =>
      match x.fab.cell? n with
      | some k =>
        if !s.mayClose c n k.pk.length || !x.fab.canClose p 1 then .next s
        else .next (s.updFab c (fun f => (f.setCell n { k with pk := [], lastIns := false }).close p (x.packet k.pk 0 (cellTy k.word) false)))
      | none => .next s
    | .aux n =>
      match x.fab.cell? n with
      | some k =>
        if !s.mayClose c n k.apk.length || !x.fab.canClose p 1 then .next s
        else .next (s.updFab c (fun f => (f.setCell n { k with apk := [] }).close p (x.packet k.apk 0 (cellTy k.word) true)))
      | none => .next s
    | .port q =>
      if q < 16 then
        match x.fab.tiles.get? q with
        | some t =>
          if t.pk.isEmpty || bits t.ctrl 4 3 != 2 || !x.fab.canClose p 1 then .next s
          else .next (s.updFab c (fun f => (f.setTile q { t with pk := [] }).close p (x.packet t.pk 0 (bits t.ctrl 2 0) false)))
        | none => .next s
      else match x.fab.port? q with
        | some t =>
          if !x.fab.canClose p 1 then .next s
          else match t.pk, t.toks with
          | [], [] => .next s
          | [], v :: rest => .next (s.updFab c (fun f => (f.setPort q { t with toks := rest }).close p (x.packet [v] 0 0 false)))
          | _, _ => .next (s.updFab c (fun f => (f.setPort q { t with pk := [] }).close p (x.packet t.pk 0 t.pkTy false)))
        | none => .next s

/-- AUX_TOKEN_SEND: a held token leaves on aux as a packet of one element, with the TYPE of the cell word (R47, R105, R120, R155). -/
def execAuxTokenSend (c : CtxId) (n : Nat) (s : State) : Out :=
  let x := s.ctx c
  if !x.active? then .next s
  else match x.fab.cell? n with
    | some k =>
      match k.held with
      | t :: rest =>
        if !x.fab.canClose (.aux n) 1 then .next s
        else
          .next (s.updFab c (fun f => (f.setCell n { k with held := rest }).close (.aux n) (x.packet [t] 0 (cellTy k.word) true)))
      | [] => .next s
    | none => .next s

end Sys2Proof.Machine
end

