-- ==== Sys2Proof/Machine/Cells.lean ====
section
/-! DEFINITION. The cells: firing (R116 to R123), markers (R113, R114), and the effect of every cell operation (R152 to R183). -/

namespace Sys2Proof.Machine

/-! ### Cell words (R139 to R141) -/

/-- Operation of a cell word. -/
def wOp (w : W32) : Nat := w.toNat / 2 ^ 24
/-- Type of a cell word. -/
def wTy (w : W32) : ElTy := ElTy.ofCode (cellTy w)
/-- Queue of operand a. -/
def wQA (w : W32) : Nat := w.toNat / 2 ^ 19 % 4
/-- Queue of operand b. -/
def wQB (w : W32) : Nat := w.toNat / 2 ^ 17 % 4
/-- Queue of operand c. -/
def wQC (w : W32) : Nat := w.toNat / 2 ^ 15 % 4
/-- Is operand b the immediate? -/
def wBI (w : W32) : Bool := w.getLsbD 14
/-- Rounding mode or guard queue. -/
def wRM (w : W32) : Nat := w.toNat / 2 ^ 12 % 4
/-- Is a guard queue configured? -/
def wGE (w : W32) : Bool := w.getLsbD 11
/-- Is aux used? -/
def wAux (w : W32) : Bool := w.getLsbD 10
/-- The immediate field. -/
def wImm (w : W32) : Nat := w.toNat % 2 ^ 10

/-- Operands that an operation reads: 1 a, 2 a and b, 3 a, b and c (R141 Table 3). -/
def opArity (op : Nat) : Nat :=
  if op == 0x06 || op == 0x23 || op == 0x24 || op == 0x29 || op == 0x3B then 3
  else if op == 0x0D || op == 0x0E || op == 0x15 || op == 0x16 || op == 0x27 || op == 0x28 || (0x2C ≤ op && op ≤ 0x2F) || op == 0x3F
      || op == 0x40 || (0x48 ≤ op && op ≤ 0x4D) || op == 0x50 || op == 0x52 || op == 0x53 || (0x56 ≤ op && op ≤ 0x58) || op == 0x60
      || (0x70 ≤ op && op ≤ 0x72) then 1
  else 2

/-- Is the operation a memory operator (R173)? -/
def opMem (op : Nat) : Bool := 0x60 ≤ op && op ≤ 0x66

/-- Does the word read operand b from a queue? -/
def wReadsB (w : W32) : Bool := opArity (wOp w) ≥ 2 && !wBI w
/-- Does the word read operand c? -/
def wReadsC (w : W32) : Bool := opArity (wOp w) == 3 || (opMem (wOp w) && w.getLsbD 0)

/-- The queues that a word reads, guard included. -/
def wQueues (w : W32) : List Nat :=
  [wQA w] ++ (if wReadsB w then [wQB w] else []) ++ (if wReadsC w then [wQC w] else []) ++ (if wGE w then [wRM w] else [])

/-- The immediate operand b (R140). -/
def immB (w : W32) : W32 :=
  let t := wTy w
  match t with
  | .fp32 => BitVec.ofNat 32 (wImm w * 2 ^ 22)
  | .bf16x2 => t.splat (wImm w * 2 ^ 6)
  | .fp16x2 => t.splat (wImm w * 2 ^ 6)
  | _ => t.splat (intPat t.width (patInt 10 true (wImm w)))

/-- The reset value of st (R154, R164, R165). -/
def stReset (w : W32) : W32 :=
  let t := wTy w
  match wOp w with
  | 0x49 => t.splat (2 ^ (t.width - 1) - 1)
  | 0x4A => t.splat (2 ^ (t.width - 1))
  | 0x4C => t.splat (match t.fmt? with | some f => f.inf | none => 0)
  | 0x4D => t.splat (match t.fmt? with | some f => f.inf + f.sign true | none => 0)
  | _ => 0

/-- A cell as a load start leaves it (R187). -/
def Cell.fresh (w : W32) : Cell :=
  { word := w, q := List.replicate 4 (Part.blank 0), pk := [], apk := [], held := [], st := stReset w, idx := 0, acc := [], buf := [], blk := 0,
    go := false, busy := none, waitBlk := [], lastIns := false, done := false }

/-! ### Firing (R116 to R119) -/

/-- Elements that one firing pairs: operands a, b, c and guard. -/
structure Tup where
  a : W32
  b : W32
  c : W32
  g : Bool
  deriving DecidableEq, Repr

/-- A queue of a cell. -/
def Cell.queue (k : Cell) (q : Nat) : Part := (k.q[q]?).getD (Part.blank 0)

/-- Entries popped from queues. -/
def Cell.popQs (k : Cell) (qs : List Nat) (n : Nat) : Cell := { k with q := qs.foldl (fun l q => modAt (fun p => p.pop n) l q) k.q }

/-- What the heads of the queues read allow. -/
inductive Heads
  | wait | misaligned | markers (kind : Nat) | kinds | data (k : Nat)
  deriving DecidableEq, Repr

/-- The heads of a list of partitions (R114, R117, R118, R135). -/
def headsOf (ps : List Part) : Heads :=
  if ps.any (fun p => p.items.isEmpty) then
    (if ps.any (fun p => p.marker?.isSome) && ps.any (fun p => !p.els.isEmpty) then .misaligned else .wait)
  else if ps.all (fun p => p.marker?.isSome) then
    (let k := ((ps.head?).bind (·.marker?)).getD 0
     if ps.all (fun p => p.marker? == some k) then .markers k else .kinds)
  else if ps.any (fun p => p.marker?.isSome) then .misaligned
  else .data (ps.foldl (fun m p => min m p.els.length) 4)

/-- The k tuples at the heads of a cell's queues. -/
def Cell.tups (k : Cell) (n : Nat) : List Tup :=
  let w := k.word
  let a := (k.queue (wQA w)).els
  let b := if wBI w then List.replicate n (immB w) else if wReadsB w then (k.queue (wQB w)).els else []
  let c := if wReadsC w then (k.queue (wQC w)).els else []
  let g := if wGE w then (k.queue (wRM w)).els.map (fun v => v.getLsbD 0) else List.replicate n true
  (List.range n).map (fun i => ⟨a.getD i 0, b.getD i 0, c.getD i 0, g.getD i true⟩)

/-- Does firing the cell hold for something besides its queues: an unsent token, an inserted EOI, a request or a block that waits (R117, R120, R172,
R179 to R181)? -/
def Cell.holds (k : Cell) : Bool := !k.held.isEmpty || (wOp k.word == 0x58 && k.go) || k.busy.isSome || !k.waitBlk.isEmpty

/-- Does an ACPUT block of the context's load wait for a credit? It holds every ACPUT cell of the context (R234). -/
def Ctx.putHeld (x : Ctx) : Bool := x.fab.cells.any (fun e => !e.2.waitBlk.isEmpty)

/-- The queues that the cell reads now: MERGE reads a up to its marker, then b, and at a marker on both it passes it (R117, R167). -/
def Cell.reads (k : Cell) : List Nat :=
  if wOp k.word != 0x51 then wQueues k.word
  else if ((k.queue (wQA k.word)).marker?).isNone then [wQA k.word] else [wQB k.word]

/-- Destination type and signedness of a CVT word (R162). -/
def cvtDst (w : W32) : ElTy × Bool := (ElTy.ofCode (wImm w % 8), wImm w / 8 % 2 == 0)

/-- Elements cut into packets of at most eight. -/
def chunk8 : List W32 → List (List W32)
  | [] => []
  | l => if l.length ≤ 8 then [l] else [l.take 8, l.drop 8]

/-- The elements that a marker makes an operation emit (R163, R164, R165). -/
def markerEls (k : Cell) : List W32 :=
  let op := wOp k.word
  if (0x48 ≤ op && op ≤ 0x4D) || op == 0x29 then [k.st]
  else if op == 0x40 && k.idx % (cvtDst k.word).1.count != 0 then [k.st]
  else []

/-- Does the cell absorb the marker at its heads: MKINS has just closed its own EOI there (R172)? -/
def Cell.absorbs (k : Cell) (kind : Nat) : Bool := wOp k.word == 0x58 && kind == 1 && k.lastIns && k.pk.isEmpty

/-- The packets that a cell closes as it passes a marker, on out and on aux: those of its packers, those of its marker action, and the marker (R114). -/
def Ctx.markerPkts (x : Ctx) (n : Nat) (k : Cell) (kind : Nat) : List Packet × List Packet :=
  let ty := cellTy k.word
  (if k.absorbs kind then [] else ((chunk8 k.pk ++ chunk8 (markerEls k)).map (fun l => x.packet l 0 ty false)) ++ [x.packet [] kind ty false],
   if wAux k.word && x.fab.routed (.aux n) then ((chunk8 k.apk).map (fun l => x.packet l 0 ty true)) ++ [x.packet [] kind ty true] else [])

/-- Can the cell pass the marker now: every packet that it closes has demand, and no started access is left (R114, R175)? -/
def Ctx.canPass (x : Ctx) (n : Nat) (k : Cell) (kind : Nat) : Bool :=
  k.acc.isEmpty && x.fab.canClose (.out n) (x.markerPkts n k kind).1.length && x.fab.canClose (.aux n) (x.markerPkts n k kind).2.length

/-- Does the cell hold a marker, which it cannot pass yet (R114)? -/
def Ctx.markerHeld (x : Ctx) (n : Nat) (k : Cell) : Bool :=
  match headsOf ((wQueues k.word).map k.queue) with
  | .markers kind => !x.canPass n k kind
  | _ => false

/-- Can cell n fire for context c under R117, in a cycle open to its tenant (R384)? An operation that sends elements to aux needs demand there. -/
def State.mayFire (s : State) (c : CtxId) (n : Nat) : Bool :=
  let x := s.ctx c
  match x.fab.cell? n with
  | none => false
  | some k =>
    let op := wOp k.word
    op != 0 && x.active? && s.isOpen x.ten.toNat && !k.holds && !(op == 0x72 && x.putHeld) && x.fab.canClose (.out n) 1
      && (!(0x52 ≤ op && op ≤ 0x55 && wAux k.word) || x.fab.canClose (.aux n) 1)
      && k.reads.all (fun q => !(k.queue q).items.isEmpty) && !x.markerHeld n k

/-- An arbiter over a core's four context banks: is bank c the first that is ready, from the one after the bank served last, in a cycle in which
none has been served (R116, R207)? Before the first service it starts at bank 0: DESIGN CHOICE (log 99). -/
def State.myTurn (s : State) (key : Nat) (ready : CtxId → Bool) (c : CtxId) : Bool :=
  let last := ((s.turns.get? key).map (·.1)).getD 3
  !((s.turns.get? key).any (fun e => e.2 == s.time))
    && (List.range ((c % 4 + 7 - last) % 4)).all (fun i => !ready (4 * coreOf c + (last + 1 + i) % 4))

/-- Is it context c's turn to fire at cell n (R116)? -/
def State.turn (s : State) (c : CtxId) (n : Nat) : Bool := s.myTurn (512 * coreOf c + n) (fun d => s.mayFire d n) c

/-- Context c has been served by an arbiter in this cycle. -/
def State.serve (s : State) (key : Nat) (c : CtxId) : State := { s with turns := s.turns.set key (c % 4, s.time) }

/-- The result of trying a data firing. -/
inductive Fire
  | no
  | bad (t : Trap)
  | yes (x : Ctx) (k : Cell) (ts : List Tup)

/-- A data firing of cell n with operation op (R116 to R118, R384): at most lim elements, and only if room allows that number. The cell returned
has not consumed anything. -/
def State.tryFire (s : State) (c : CtxId) (n op lim : Nat) (room : Cell → Nat → Bool) : Fire :=
  let x := s.ctx c
  match x.fab.cell? n with
  | none => .no
  | some k =>
    if wOp k.word != op || !x.active? || !s.isOpen x.ten.toNat || k.holds || !x.fab.canClose (.out n) 1 || !s.turn c n then .no
    else match headsOf ((wQueues k.word).map k.queue) with
      | .misaligned => .bad (alignTrap (unitCell n) 1)
      | .data m =>
        let m := min m lim
        if room k m then .yes x k (k.tups m) else .no
      | _ => .no

/-- A cell of a context's load replaced. -/
def State.putCell (s : State) (c : CtxId) (n : Nat) (k : Cell) : State := s.updFab c (fun f => f.setCell n k)

/-- A cell as its firing leaves it. -/
def State.putFired (s : State) (c : CtxId) (n : Nat) (k : Cell) : State := (s.putCell c n k).serve (512 * coreOf c + n) c

/-- The number of results fits in the packer (R119). -/
def fits (k : Cell) (m : Nat) : Bool := k.pk.length + m ≤ 8

/-- A one-to-one operation (R152): f on each tuple gives the result and flags. -/
def State.fireMap (s : State) (c : CtxId) (n op : Nat) (f : ElTy → Round → Tup → W32 × W32) : Out :=
  match s.tryFire c n op 4 fits with
  | .no => .next s
  | .bad t => .next (s.fabFault c t)
  | .yes _ k ts =>
    let r := ts.map (f (wTy k.word) (Round.ofCode (BitVec.ofNat 2 (wRM k.word))))
    let k' := k.popQs (wQueues k.word) ts.length
    .next ((s.putFired c n { k' with pk := k'.pk ++ r.map (·.1) }).addFlags c (r.foldl (fun a b => a ||| b.2) 0))

/-- An integer operation of two sub-elements (R157). -/
def intOp (f : Nat → Nat → Nat → Nat × W32) (t : ElTy) (_ : Round) (u : Tup) : W32 × W32 := t.map2 (f t.width) u.a u.b
/-- A floating operation of two sub-elements (R158). -/
def fltOp (f : Fmt → Round → Nat → Nat → Nat × W32) (t : ElTy) (r : Round) (u : Tup) : W32 × W32 :=
  match t.fmt? with
  | some m => t.map2 (f m r) u.a u.b
  | none => (0, 0)
/-- A floating operation of three sub-elements (R158). -/
def fltOp3 (f : Fmt → Round → Nat → Nat → Nat → Nat × W32) (t : ElTy) (r : Round) (u : Tup) : W32 × W32 :=
  match t.fmt? with
  | some m => t.map3 (f m r) u.a u.b u.c
  | none => (0, 0)
/-- A floating operation of one sub-element (R158, R182). -/
def fltOp1 (f : Fmt → Nat → Nat × W32) (t : ElTy) (_ : Round) (u : Tup) : W32 × W32 :=
  match t.fmt? with
  | some m => t.map1 (f m) u.a
  | none => (0, 0)
/-- An integer compare of sub-elements (R159). -/
def cmpOp (f : Nat → Nat → Nat → Bool) : ElTy → Round → Tup → W32 × W32 := intOp (fun w x y => (if f w x y then 1 else 0, 0))
/-- A floating compare of sub-elements (R44, R159). -/
def fcmpOp (f : Val → Val → Bool) : ElTy → Round → Tup → W32 × W32 :=
  fltOp (fun m _ x y => (if f (m.val x) (m.val y) then 1 else 0, (m.val x).nv ||| (m.val y).nv))
/-- A predicate operation (R161). -/
def predOp (f : Bool → Bool → Bool) (_ : ElTy) (_ : Round) (u : Tup) : W32 × W32 := (if f (u.a.getLsbD 0) (u.b.getLsbD 0) then 1 else 0, 0)

/-- CELL_ADD (R157). -/
def execCellAdd (c : CtxId) (n : Nat) (s : State) : Out := s.fireMap c n 0x01 (intOp (fun w x y => wrapI w (x + y)))
/-- CELL_SUB (R157). -/
def execCellSub (c : CtxId) (n : Nat) (s : State) : Out := s.fireMap c n 0x02 (intOp (fun w x y => wrapI w ((x : Int) - y)))
/-- CELL_RSUB (R157). -/
def execCellRsub (c : CtxId) (n : Nat) (s : State) : Out := s.fireMap c n 0x03 (intOp (fun w x y => wrapI w ((y : Int) - x)))
/-- CELL_MUL (R157). -/
def execCellMul (c : CtxId) (n : Nat) (s : State) : Out := s.fireMap c n 0x04 (intOp (fun w x y => wrapI w (x * y)))
/-- CELL_MULH (R157). -/
def execCellMulh (c : CtxId) (n : Nat) (s : State) : Out :=
  s.fireMap c n 0x05 (intOp (fun w x y => wrapI w (sgn w x * sgn w y / (2 ^ w : Nat))))
/-- CELL_MAD (R157). -/
def execCellMad (c : CtxId) (n : Nat) (s : State) : Out :=
  s.fireMap c n 0x06 (fun t _ u => t.map3 (fun x y z => wrapI t.width (x * y + z)) u.a u.b u.c)
/-- CELL_ADDS (R157). -/
def execCellAdds (c : CtxId) (n : Nat) (s : State) : Out := s.fireMap c n 0x07 (intOp (fun w x y => clampI w (sgn w x + sgn w y)))
/-- CELL_SUBS (R157). -/
def execCellSubs (c : CtxId) (n : Nat) (s : State) : Out := s.fireMap c n 0x08 (intOp (fun w x y => clampI w (sgn w x - sgn w y)))
/-- CELL_MIN (R157). -/
def execCellMin (c : CtxId) (n : Nat) (s : State) : Out := s.fireMap c n 0x09 (intOp (fun w x y => (if sgn w x ≤ sgn w y then x else y, 0)))
/-- CELL_MAX (R157). -/
def execCellMax (c : CtxId) (n : Nat) (s : State) : Out := s.fireMap c n 0x0A (intOp (fun w x y => (if sgn w x ≤ sgn w y then y else x, 0)))
/-- CELL_MINU (R157). -/
def execCellMinu (c : CtxId) (n : Nat) (s : State) : Out := s.fireMap c n 0x0B (intOp (fun _ x y => (min x y, 0)))
/-- CELL_MAXU (R157). -/
def execCellMaxu (c : CtxId) (n : Nat) (s : State) : Out := s.fireMap c n 0x0C (intOp (fun _ x y => (max x y, 0)))
/-- CELL_ABS (R157). -/
def execCellAbs (c : CtxId) (n : Nat) (s : State) : Out := s.fireMap c n 0x0D (intOp (fun w x _ => wrapI w (sgn w x).natAbs))
/-- CELL_NEG (R157). -/
def execCellNeg (c : CtxId) (n : Nat) (s : State) : Out := s.fireMap c n 0x0E (intOp (fun w x _ => wrapI w (-(x : Int))))
/-- CELL_AND (R157). -/
def execCellAnd (c : CtxId) (n : Nat) (s : State) : Out := s.fireMap c n 0x0F (intOp (fun _ x y => (x &&& y, 0)))
/-- CELL_OR (R157). -/
def execCellOr (c : CtxId) (n : Nat) (s : State) : Out := s.fireMap c n 0x10 (intOp (fun _ x y => (x ||| y, 0)))
/-- CELL_XOR (R157). -/
def execCellXor (c : CtxId) (n : Nat) (s : State) : Out := s.fireMap c n 0x11 (intOp (fun _ x y => (x ^^^ y, 0)))
/-- CELL_SHL (R157). -/
def execCellShl (c : CtxId) (n : Nat) (s : State) : Out := s.fireMap c n 0x12 (intOp (fun w x y => wrapI w (x * 2 ^ (y % w) : Nat)))
/-- CELL_SHR (R157). -/
def execCellShr (c : CtxId) (n : Nat) (s : State) : Out := s.fireMap c n 0x13 (intOp (fun w x y => (x / 2 ^ (y % w), 0)))
/-- CELL_SRA (R157). -/
def execCellSra (c : CtxId) (n : Nat) (s : State) : Out := s.fireMap c n 0x14 (intOp (fun w x y => wrapI w (sgn w x / (2 ^ (y % w) : Nat))))
/-- CELL_CLZ (R157). -/
def execCellClz (c : CtxId) (n : Nat) (s : State) : Out := s.fireMap c n 0x15 (intOp (fun w x _ => (clzSub w x, 0)))
/-- CELL_POPC (R157). -/
def execCellPopc (c : CtxId) (n : Nat) (s : State) : Out := s.fireMap c n 0x16 (intOp (fun w x _ => (popFrom x w, 0)))

/-- CELL_FADD (R158). -/
def execCellFadd (c : CtxId) (n : Nat) (s : State) : Out := s.fireMap c n 0x20 (fltOp (fun f r x y => f.fadd r x y))
/-- CELL_FSUB (R158). -/
def execCellFsub (c : CtxId) (n : Nat) (s : State) : Out := s.fireMap c n 0x21 (fltOp (fun f r x y => f.fsub r x y))
/-- CELL_FMUL (R158). -/
def execCellFmul (c : CtxId) (n : Nat) (s : State) : Out := s.fireMap c n 0x22 (fltOp (fun f r x y => f.fmul r x y))
/-- CELL_FMA (R158). -/
def execCellFma (c : CtxId) (n : Nat) (s : State) : Out := s.fireMap c n 0x23 (fltOp3 (fun f r x y z => f.fma r x y z))
/-- CELL_FMS (R158). -/
def execCellFms (c : CtxId) (n : Nat) (s : State) : Out := s.fireMap c n 0x24 (fltOp3 (fun f r x y z => f.fms r x y z))
/-- CELL_FMIN (R44, R158). -/
def execCellFmin (c : CtxId) (n : Nat) (s : State) : Out := s.fireMap c n 0x25 (fltOp (fun f _ x y => f.fmin x y))
/-- CELL_FMAX (R44, R158). -/
def execCellFmax (c : CtxId) (n : Nat) (s : State) : Out := s.fireMap c n 0x26 (fltOp (fun f _ x y => f.fmax x y))
/-- CELL_FABS (R158). -/
def execCellFabs (c : CtxId) (n : Nat) (s : State) : Out := s.fireMap c n 0x27 (fltOp1 (fun f x => f.fabs x))
/-- CELL_FNEG (R158). -/
def execCellFneg (c : CtxId) (n : Nat) (s : State) : Out := s.fireMap c n 0x28 (fltOp1 (fun f x => f.fneg x))
/-- CELL_RCP (R182, R183). -/
def execCellRcp (c : CtxId) (n : Nat) (s : State) : Out := s.fireMap c n 0x2C (fltOp1 (fun f x => f.apx .rcp x))
/-- CELL_RSQ (R182, R183). -/
def execCellRsq (c : CtxId) (n : Nat) (s : State) : Out := s.fireMap c n 0x2D (fltOp1 (fun f x => f.apx .rsq x))
/-- CELL_EXP2 (R182, R183). -/
def execCellExp2 (c : CtxId) (n : Nat) (s : State) : Out := s.fireMap c n 0x2E (fltOp1 (fun f x => f.apx .exp2 x))
/-- CELL_LOG2 (R182, R183). -/
def execCellLog2 (c : CtxId) (n : Nat) (s : State) : Out := s.fireMap c n 0x2F (fltOp1 (fun f x => f.apx .log2 x))

/-- CELL_CMP_EQ (R159). -/
def execCellCmpEq (c : CtxId) (n : Nat) (s : State) : Out := s.fireMap c n 0x30 (cmpOp (fun _ x y => x == y))
/-- CELL_CMP_NE (R159). -/
def execCellCmpNe (c : CtxId) (n : Nat) (s : State) : Out := s.fireMap c n 0x31 (cmpOp (fun _ x y => x != y))
/-- CELL_CMP_LT (R159). -/
def execCellCmpLt (c : CtxId) (n : Nat) (s : State) : Out := s.fireMap c n 0x32 (cmpOp (fun w x y => sgn w x < sgn w y))
/-- CELL_CMP_LE (R159). -/
def execCellCmpLe (c : CtxId) (n : Nat) (s : State) : Out := s.fireMap c n 0x33 (cmpOp (fun w x y => sgn w x ≤ sgn w y))
/-- CELL_CMP_LTU (R159). -/
def execCellCmpLtu (c : CtxId) (n : Nat) (s : State) : Out := s.fireMap c n 0x34 (cmpOp (fun _ x y => x < y))
/-- CELL_CMP_LEU (R159). -/
def execCellCmpLeu (c : CtxId) (n : Nat) (s : State) : Out := s.fireMap c n 0x35 (cmpOp (fun _ x y => x ≤ y))
/-- CELL_FCMP_EQ (R159). -/
def execCellFcmpEq (c : CtxId) (n : Nat) (s : State) : Out := s.fireMap c n 0x36 (fcmpOp (fun x y => x.eq y))
/-- CELL_FCMP_NE (R159). -/
def execCellFcmpNe (c : CtxId) (n : Nat) (s : State) : Out := s.fireMap c n 0x37 (fcmpOp (fun x y => !x.eq y))
/-- CELL_FCMP_LT (R159). -/
def execCellFcmpLt (c : CtxId) (n : Nat) (s : State) : Out := s.fireMap c n 0x38 (fcmpOp (fun x y => x.lt y))
/-- CELL_FCMP_LE (R159). -/
def execCellFcmpLe (c : CtxId) (n : Nat) (s : State) : Out := s.fireMap c n 0x39 (fcmpOp (fun x y => x.lt y || x.eq y))
/-- CELL_FCMP_UN (R159). -/
def execCellFcmpUn (c : CtxId) (n : Nat) (s : State) : Out := s.fireMap c n 0x3A (fcmpOp (fun x y => x.isNan || y.isNan))
/-- CELL_SEL: bits of b or c by the condition in each sub-element of a (R160). -/
def execCellSel (c : CtxId) (n : Nat) (s : State) : Out :=
  s.fireMap c n 0x3B (fun t _ u => t.map3 (fun x y z => (if x % 2 == 1 then y else z, 0)) u.a u.b u.c)
/-- CELL_PAND (R161). -/
def execCellPand (c : CtxId) (n : Nat) (s : State) : Out := s.fireMap c n 0x3C (predOp (fun x y => x && y))
/-- CELL_POR (R161). -/
def execCellPor (c : CtxId) (n : Nat) (s : State) : Out := s.fireMap c n 0x3D (predOp (fun x y => x || y))
/-- CELL_PXOR (R161). -/
def execCellPxor (c : CtxId) (n : Nat) (s : State) : Out := s.fireMap c n 0x3E (predOp (fun x y => x != y))
/-- CELL_PNOT (R161). -/
def execCellPnot (c : CtxId) (n : Nat) (s : State) : Out := s.fireMap c n 0x3F (predOp (fun x _ => !x))
/-- CELL_MOV (R166). -/
def execCellMov (c : CtxId) (n : Nat) (s : State) : Out := s.fireMap c n 0x50 (fun _ _ u => (u.a, 0))
/-- CELL_ORDJ: a token for each pair of tokens (R177). -/
def execCellOrdj (c : CtxId) (n : Nat) (s : State) : Out := s.fireMap c n 0x67 (fun _ _ _ => (1, 0))

/-- The value that CONST emits (R171). -/
def constVal (w : W32) : W32 := if wTy w == .pred then BitVec.ofNat 32 (wImm w % 2) else immB w

/-- CELL_CONST: the value for each trigger element (R171). -/
def execCellConst (c : CtxId) (n : Nat) (s : State) : Out :=
  match s.tryFire c n 0x57 4 fits with
  | .no => .next s
  | .bad t => .next (s.fabFault c t)
  | .yes _ k ts =>
    let k' := k.popQs (wQueues k.word) ts.length
    .next (s.putFired c n { k' with pk := k'.pk ++ List.replicate ts.length (constVal k.word) })

/-- CELL_SINK: elements consumed, nothing emitted (R170). -/
def execCellSink (c : CtxId) (n : Nat) (s : State) : Out :=
  match s.tryFire c n 0x56 4 (fun _ _ => true) with
  | .no => .next s
  | .bad t => .next (s.fabFault c t)
  | .yes _ k ts => .next (s.putFired c n (k.popQs (wQueues k.word) ts.length))

/-! ### Conversion (R162, R163) -/

/-- What a conversion has built: results, the element being built, flags, tokens, next index. -/
structure CvtRun where
  out : List W32
  st : W32
  idx : Nat
  flags : W32
  toks : List W32

/-- The overflow token of R47 Table 6. -/
def ovToken (cause idx : Nat) : W32 := BitVec.ofNat 32 (cause * 2 ^ 30 + idx % 2 ^ 30)

/-- One source value converted and placed (R163). -/
def cvtValue (w : W32) (aux : Bool) (r : CvtRun) (x : Nat) : CvtRun :=
  let (dt, sg) := cvtDst w
  let (v, fl, sat) := convert (Round.ofCode (BitVec.ofNat 2 (wRM w))) ((wTy w).num true) (dt.num sg) x
  let slot := r.idx % dt.count
  let st := (if slot == 0 then 0 else r.st) ||| (BitVec.ofNat 32 v <<< (slot * dt.width))
  let full := slot + 1 == dt.count
  { out := if full then r.out ++ [st] else r.out
    st := if full then 0 else st
    idx := r.idx + 1
    flags := r.flags ||| fl ||| (if sat.isSome && !aux then flagSAT else 0)
    toks := match sat with
      | some cause => if aux then r.toks ++ [ovToken cause r.idx] else r.toks
      | none => r.toks }

/-- CELL_CVT (R47, R163): at most max(1, 4u/s) source elements a firing. -/
def execCellCvt (c : CtxId) (n : Nat) (s : State) : Out :=
  let lim := match (s.ctx c).fab.cell? n with
    | some k => max 1 (4 * (cvtDst k.word).1.count / (wTy k.word).count)
    | none => 1
  match s.tryFire c n 0x40 lim (fun k m => k.pk.length + (k.idx % (cvtDst k.word).1.count + m * (wTy k.word).count) / (cvtDst k.word).1.count ≤ 8) with
  | .no => .next s
  | .bad t => .next (s.fabFault c t)
  | .yes x k ts =>
    let aux := wAux k.word && x.fab.routed (.aux n)
    let vals := (ts.map (fun u => (wTy k.word).subs u.a)).flatten
    let r := vals.foldl (cvtValue k.word aux) ⟨[], k.st, k.idx, 0, []⟩
    let k' := k.popQs (wQueues k.word) ts.length
    .next ((s.putFired c n { k' with pk := k'.pk ++ r.out, st := r.st, idx := r.idx, held := r.toks }).addFlags c r.flags)

/-! ### Reductions (R164, R165) -/

/-- A reduction: elements folded into st in index order. -/
def State.fireFold (s : State) (c : CtxId) (n op : Nat) (f : ElTy → Round → W32 → Tup → W32 × W32) : Out :=
  match s.tryFire c n op 4 (fun _ _ => true) with
  | .no => .next s
  | .bad t => .next (s.fabFault c t)
  | .yes _ k ts =>
    let (st, fl) := ts.foldl (fun (acc : W32 × W32) u =>
      let (v, fl) := f (wTy k.word) (Round.ofCode (BitVec.ofNat 2 (wRM k.word))) acc.1 u
      (v, acc.2 ||| fl)) (k.st, 0)
    .next ((s.putFired c n { k.popQs (wQueues k.word) ts.length with st := st }).addFlags c fl)

/-- A reduction step from a two-operand operation. -/
def redOp (f : ElTy → Round → Tup → W32 × W32) (t : ElTy) (r : Round) (st : W32) (u : Tup) : W32 × W32 := f t r ⟨st, u.a, 0, true⟩

/-- CELL_RADD (R164). -/
def execCellRadd (c : CtxId) (n : Nat) (s : State) : Out := s.fireFold c n 0x48 (redOp (intOp (fun w x y => wrapI w (x + y))))
/-- CELL_RMIN (R164). -/
def execCellRmin (c : CtxId) (n : Nat) (s : State) : Out := s.fireFold c n 0x49 (redOp (intOp (fun w x y => (if sgn w x ≤ sgn w y then x else y, 0))))
/-- CELL_RMAX (R164). -/
def execCellRmax (c : CtxId) (n : Nat) (s : State) : Out := s.fireFold c n 0x4A (redOp (intOp (fun w x y => (if sgn w x ≤ sgn w y then y else x, 0))))
/-- CELL_RFADD: one rounding per element (R164). -/
def execCellRfadd (c : CtxId) (n : Nat) (s : State) : Out := s.fireFold c n 0x4B (redOp (fltOp (fun f r x y => f.fadd r x y)))
/-- CELL_RFMIN (R164). -/
def execCellRfmin (c : CtxId) (n : Nat) (s : State) : Out := s.fireFold c n 0x4C (redOp (fltOp (fun f _ x y => f.fmin x y)))
/-- CELL_RFMAX (R164). -/
def execCellRfmax (c : CtxId) (n : Nat) (s : State) : Out := s.fireFold c n 0x4D (redOp (fltOp (fun f _ x y => f.fmax x y)))
/-- CELL_SCACC (R53, R165). -/
def execCellScacc (c : CtxId) (n : Nat) (s : State) : Out := s.fireFold c n 0x29 (fun _ _ st u => scaccStep st u.a u.b u.c)

/-! ### Stream shaping (R167 to R169, R172) -/

/-- CELL_MERGE: a up to its marker, then b (R167). -/
def execCellMerge (c : CtxId) (n : Nat) (s : State) : Out :=
  let x := s.ctx c
  match x.fab.cell? n with
  | none => .next s
  | some k =>
    if wOp k.word != 0x51 || !x.active? || !s.isOpen x.ten.toNat || !x.fab.canClose (.out n) 1 || !s.turn c n then .next s
    else
      let q := if (k.queue (wQA k.word)).marker?.isSome then wQB k.word else wQA k.word
      let els := (k.queue q).els.take 4
      if els.isEmpty || !fits k els.length then .next s
      else
        let k' := k.popQs [q] els.length
        .next (s.putFired c n { k' with pk := k'.pk ++ els })

/-- A firing that sends each element to out, to aux or nowhere (R168, R169): dest gives (out, aux) for an element and its index since the marker. -/
def State.fireSplit (s : State) (c : CtxId) (n op : Nat) (dest : Tup → Nat → Bool × Bool) : Out :=
  let both (x : Ctx) (k : Cell) : Bool := !(wAux k.word && x.fab.routed (.aux n)) || x.fab.canClose (.aux n) 1
  match s.tryFire c n op 4 (fun k m => k.pk.length + m ≤ 8 && k.apk.length + m ≤ 8 && both (s.ctx c) k) with
  | .no => .next s
  | .bad t => .next (s.fabFault c t)
  | .yes _ k ts =>
    let ix := (List.range ts.length).map (fun i => (dest (ts.getD i ⟨0, 0, 0, true⟩) (k.st.toNat + i), (ts.getD i ⟨0, 0, 0, true⟩).a))
    let k' := k.popQs (wQueues k.word) ts.length
    .next (s.putFired c n { k' with
      pk := k'.pk ++ (ix.filter (fun e => e.1.1)).map (·.2)
      apk := if wAux k.word then k'.apk ++ (ix.filter (fun e => e.1.2)).map (·.2) else []
      st := if op == 0x52 then BitVec.ofNat 32 ((k.st.toNat + ts.length) % 2) else 0 })

/-- CELL_SPLIT: even elements to out, odd to aux (R168). -/
def execCellSplit (c : CtxId) (n : Nat) (s : State) : Out := s.fireSplit c n 0x52 (fun _ i => (i % 2 == 0, i % 2 == 1))
/-- CELL_DUP: every element to both (R168). -/
def execCellDup (c : CtxId) (n : Nat) (s : State) : Out := s.fireSplit c n 0x53 (fun _ _ => (true, true))
/-- CELL_GATE: the element where the condition is 1 (R169). -/
def execCellGate (c : CtxId) (n : Nat) (s : State) : Out := s.fireSplit c n 0x54 (fun u _ => (u.b.getLsbD 0, false))
/-- CELL_STEER: to out or to aux by the condition (R169). -/
def execCellSteer (c : CtxId) (n : Nat) (s : State) : Out := s.fireSplit c n 0x55 (fun u _ => (u.b.getLsbD 0, !u.b.getLsbD 0))

/-- CELL_MKINS: a copy of a that closes EOI after every n elements (R172). go marks an EOI that waits for demand. -/
def execCellMkins (c : CtxId) (n : Nat) (s : State) : Out :=
  let x := s.ctx c
  match x.fab.cell? n with
  | none => .next s
  | some k =>
    if wOp k.word == 0x58 && k.go && x.active? then
      (if !x.fab.canClose (.out n) (if k.pk.isEmpty then 1 else 2) && !(x.fab.canClose (.out n) 1 && !k.pk.isEmpty) then .next s
       else if x.fab.canClose (.out n) (if k.pk.isEmpty then 1 else 2) then
        .next (s.updFab c (fun f => (f.setCell n { k with pk := [], st := 0, go := false, lastIns := true }).closeAll (.out n)
          ((if k.pk.isEmpty then [] else [x.packet k.pk 0 (cellTy k.word) false]) ++ [x.packet [] 1 (cellTy k.word) false])))
       else .next (s.updFab c (fun f => (f.setCell n { k with pk := [] }).close (.out n) (x.packet k.pk 0 (cellTy k.word) false))))
    else
      match s.tryFire c n 0x58 (wImm k.word - k.st.toNat) fits with
      | .no => .next s
      | .bad t => .next (s.fabFault c t)
      | .yes _ k ts =>
        let k' := k.popQs (wQueues k.word) ts.length
        let st := k.st.toNat + ts.length
        .next (s.putFired c n { k' with pk := k'.pk ++ ts.map (·.a), st := BitVec.ofNat 32 st, go := st == wImm k.word, lastIns := false })

/-! ### Memory operators (R173 to R176) -/

/-- Access size of a memory operator (R173 Table 6). -/
def memSize (op : Nat) : Nat := if op == 0x66 then 16 else 4

/-- Does a memory operator emit its value on out (R173)? -/
def memEmits (op : Nat) : Bool := op != 0x61 && op != 0x66

/-- A firing of a memory operator: every address that is not suppressed is checked, then the accesses start (R173). -/
def State.fireMem (s : State) (c : CtxId) (n op : Nat) : Out :=
  match s.tryFire c n op 4 (fun k m => k.pk.length + k.acc.length + m ≤ 8) with
  | .no => .next s
  | .bad t => .next (s.fabFault c t)
  | .yes _ k ts =>
    match ts.findSome? (fun u => if u.g then s.spadFault c (u.a.zeroExtend 64) (memSize op) (memSize op) (unitCell n) else none) with
    | some t => .next (s.fabFault c t)
    | none =>
      let k' := k.popQs (wQueues k.word) ts.length
      .next (s.putFired c n { k' with acc := k'.acc ++ ts.map (fun u => ⟨op, u.a.toNat, u.b, !u.g, false, none⟩) })

/-- CELL_LD (R173). -/
def execCellLd (c : CtxId) (n : Nat) (s : State) : Out := s.fireMem c n 0x60
/-- CELL_ST (R173). -/
def execCellSt (c : CtxId) (n : Nat) (s : State) : Out := s.fireMem c n 0x61
/-- CELL_AMO_ADD (R173). -/
def execCellAmoAdd (c : CtxId) (n : Nat) (s : State) : Out := s.fireMem c n 0x62
/-- CELL_AMO_MIN (R173). -/
def execCellAmoMin (c : CtxId) (n : Nat) (s : State) : Out := s.fireMem c n 0x63
/-- CELL_AMO_MAX (R173). -/
def execCellAmoMax (c : CtxId) (n : Nat) (s : State) : Out := s.fireMem c n 0x64
/-- CELL_AMO_SWAP (R173). -/
def execCellAmoSwap (c : CtxId) (n : Nat) (s : State) : Out := s.fireMem c n 0x65
/-- CELL_AMO_AFADD (R174). -/
def execCellAmoAfadd (c : CtxId) (n : Nat) (s : State) : Out := s.fireMem c n 0x66

/-- The anchored addition on the 16 bytes of a record (R174): the new bytes, or the anchor byte that is not valid. -/
def afaddRecord (rec : List Byte) (x : W32) : Except (BitVec 8) (List Byte) :=
  let e : BitVec 80 := BitVec.ofNat 80 (ofBytes (rec.take 10))
  let a : BitVec 8 := rec.getD 10 0
  let flg : BitVec 8 := rec.getD 11 0
  if !anchorOk a then .error a
  else
    let (i, f) := anchorOf a x
    .ok (toBytes 10 (anchorAdd e i).toNat ++ [a, flg ||| f.zeroExtend 8] ++ rec.drop 12)

/-- ANCHOR (R174). -/
def anchorTrap (addr : Nat) (a : BitVec 8) : Trap := { cls := 0x0C, val := BitVec.ofNat 64 addr, detail := a.zeroExtend 16 }

/-- Access i of cell n, the first not yet performed, faults: it waits for the release of the hold (R390), or ends with its stopped load (R194). -/
def State.accFault (s : State) (c : CtxId) (n : Nat) (k : Cell) (i : Nat) (t : Trap) : State :=
  if (s.ctx c).fab.stopped then (s.putCell c n { k with acc := k.acc.eraseIdx i }).raise c t
  else (s.putCell c n { k with acc := modAt (fun a => { a with failed := true }) k.acc i }).fabFault c t

/-- What one access does at its bank: memory as it leaves it, and the value that it returns; none while its bank is zeroed (R173, R174). -/
def State.accEffect (s : State) (c : CtxId) (a : CellAcc) : Option (Except Trap (State × W32)) :=
  let size := memSize a.op
  if a.skip then some (.ok (s, 0))
  else if (s.ctx c).zeroing a.addr size then none
  else match if a.op != 0x61 then s.spadEcc c a.addr size false else none with
    | some t => some (.error t)
    | none =>
      if a.op == 0x66 then
        match afaddRecord (s.spadBytes c a.addr 16) a.val with
        | .error b => some (.error (anchorTrap a.addr b))
        | .ok bs => some (.ok (s.spadWrite c a.addr bs, 0))
      else
        let old := s.spad32 c a.addr
        let new : Option W32 :=
          if a.op == 0x60 then none
          else if a.op == 0x62 then some (old + a.val)
          else if a.op == 0x63 then some (if old.slt a.val then old else a.val)
          else if a.op == 0x64 then some (if old.slt a.val then a.val else old)
          else some a.val
        match new with
        | none => some (.ok (s, old))
        | some v => some (.ok (s.spadWrite c a.addr (toBytes 4 v.toNat), old))

/-- The oldest access of a cell, with its value, leaves: its value goes to out and its ordering token to aux (R173). -/
def Cell.emit (k : Cell) (aux : Bool) (op : Nat) (v : W32) : Cell :=
  { k with acc := k.acc.tail
           pk := if memEmits op then k.pk ++ [v] else k.pk
           held := if aux then k.held ++ [1] else k.held }

/-- MEM_ACCESS_EFFECT: the first access of a memory cell that has not taken effect takes effect, in element order, and what it gives leaves the cell
(R173 to R175). While the load is fault-held, accesses take effect too, and what they give waits for the release (R173, R388, R390). Each access is
whole: a load never returns bytes of both sides of one unordered store (log 100). -/
def execMemAccessEffect (c : CtxId) (n : Nat) (s : State) : Out :=
  let x := s.ctx c
  match x.fab.cell? n with
  | none => .next s
  | some k =>
    if x.cur.st != .running then .next s
    else
      let aux := wAux k.word && x.fab.routed (.aux n)
      let i := (k.acc.takeWhile (·.res.isSome)).length
      match if x.fab.held then none else (k.acc.head?).bind (fun a => a.res.map (fun v => (a, v))) with
      | some (a, v) => .next (s.putCell c n (k.emit aux a.op v))
      | none =>
        match k.acc[i]? with
        | none => .next s
        | some a =>
          if a.failed then .next s
          else match s.accEffect c a with
            | none => .next s
            | some (.error t) => .next (s.accFault c n k i t)
            | some (.ok (s, v)) =>
              if x.fab.held then .next (s.putCell c n { k with acc := modAt (fun a => { a with res := some v }) k.acc i })
              else .next (s.putCell c n (k.emit aux a.op v))

/-! ### Operations beyond the core (R179 to R181) -/

/-- CELL_SPAWN: one element makes a configuration request, or is suppressed (R179). -/
def execCellSpawn (c : CtxId) (n : Nat) (s : State) : Out :=
  match s.tryFire c n 0x70 1 fits with
  | .no => .next s
  | .bad t => .next (s.fabFault c t)
  | .yes x k ts =>
    match ts with
    | u :: _ =>
      let k' := { k.popQs (wQueues k.word) 1 with idx := k.idx + 1 }
      if u.g then
        .next { s.putFired c n { k' with busy := some 0 } with
          spawns := s.spawns ++ [{ seq := s.ostN, ctx := c, cell := n, index := wImm k.word, arg := u.a, ten := x.ten.toNat }], ostN := s.ostN + 1 }
      else .next (s.putFired c n { k' with pk := k'.pk ++ [BitVec.allOnes 32] })
    | [] => .next s

/-- SPAWN_REPLY: the reply reaches the cell, which emits the lease id, or NOPLACE with its token (R179). -/
def execSpawnReply (c : CtxId) (n : Nat) (s : State) : Out :=
  let x := s.ctx c
  match x.fab.cell? n with
  | none => .next s
  | some k =>
    match k.busy with
    | some (r + 1) =>
      if wOp k.word != 0x70 || (s.leaseOf c).any (fun l => l.moving.any (fun m => m.step ≥ 3)) then .next s
      else
        let v := BitVec.ofNat 32 r
        .next (s.putCell c n { k with
          busy := none
          pk := k.pk ++ [v]
          held := if v == BitVec.allOnes 32 && wAux k.word && x.fab.routed (.aux n) then k.held ++ [BitVec.ofNat 32 (2 ^ 31 + (k.idx - 1) % 2 ^ 30)] else k.held })
    | _ => .next s

/-- The bytes of a copy packet that a cell has gathered (R180). -/
def packetOf (els : List W32) : List Byte := (els.map (fun e => toBytes 4 e.toNat)).flatten

/-- A packet taken in by a copy engine (R328). -/
def State.addPkt (s : State) (core : CoreId) (c : CtxId) (src : PSrc) (lsn seq stage : Nat) (b : List Byte) : State :=
  { s.updCore core (fun k => { k with pkts := k.pkts ++ [{ num := s.pktN, src := src, ctx := c, lsn := lsn, seq := seq, body := b, stage := stage,
                                                           fault := none, notice := none, acks := [], pages := [], since := 0, got := [], index := none }] }) with pktN := s.pktN + 1 }

/-- A CPY cell's command waits at the engine: behind those that came before, ahead of the ce.cmd commands of the same cycle (R180). -/
def cpyCmd (l : List CeCmd) (e : CeCmd) : List CeCmd :=
  let late (k : CeCmd) : Bool := k.time == e.time && k.cell.isNone
  l.filter (fun k => !late k) ++ [e] ++ l.filter late

/-- CELL_CPY: elements gathered into a copy packet of sixteen; the guard of the first decides it (R180). A submitted packet holds the cell until the
engine accepts it (busy); a suppressed one takes its LSN and its done token without a wait (R153, R330, R331). -/
def execCellCpy (c : CtxId) (n : Nat) (s : State) : Out :=
  let lim := match (s.ctx c).fab.cell? n with
    | some k => 16 - k.buf.length
    | none => 1
  match s.tryFire c n 0x71 lim fits with
  | .no => .next s
  | .bad t => .next (s.fabFault c t)
  | .yes x k ts =>
    let go := if k.buf.isEmpty then (ts.map (·.g)).headD true else k.go
    let buf := k.buf ++ ts.map (·.a)
    let k' := { k.popQs (wQueues k.word) ts.length with idx := k.idx + ts.length, go := go }
    if buf.length < 16 then .next (s.putFired c n { k' with buf := buf })
    else if go then
      .next ((s.putFired c n { k' with buf := buf, busy := some 0 }).updCore (coreOf c) (fun o => { o with ceCmds := cpyCmd o.ceCmds ⟨c, some n, s.time⟩ }))
    else
      .next (((s.putFired c n { k' with buf := [], pk := k'.pk ++ [0] }).updCtx c (fun x => { x with lsn := x.lsn + 1 })).addPkt (coreOf c) c
        (.local (some (some n))) x.lsn.toNat 0 4 (packetOf buf))

/-- What an ACPUT firing has done: the cell, elements consumed, and the fault that stopped it. -/
structure PutRun where
  k : Cell
  used : Nat
  err : Option Trap

/-- ACN_CHAIN (R252). -/
def chainTrap (val : W64) (cause unit : Nat) : Trap := { cls := 0x11, val := val, detail := BitVec.ofNat 16 (cause + 16 * unit) }
/-- ACN_SINK_ABSENT (R252). -/
def absentTrap (handle : W64) (cause unit : Nat) : Trap := { cls := 0x12, val := handle, detail := BitVec.ofNat 16 (cause + 16 * unit) }

/-- An unbound join slot. -/
def JoinSlot.blank : JoinSlot :=
  { key := 0, st := 0, handle := 0, pos := 0, w := 0, len := 0, anchored := false, credits := 0, sent := 0, out := 0, next := 0, gone := false }

/-- Slot s of a context's join table. -/
def Ctx.join (x : Ctx) (i : Nat) : JoinSlot := (x.joins[i]?).getD JoinSlot.blank

/-- Slot of a join table replaced. -/
def Ctx.setJoin (x : Ctx) (i : Nat) (v : JoinSlot) : Ctx :=
  { x with joins := (List.range 16).map (fun j => if j == i then v else x.join j) }

/-- What a send of block b on a slot meets (R236, R248, R251). -/
def sendFault (j : JoinSlot) (b unit : Nat) : Option Trap :=
  if j.st == 5 || j.st == 6 then some (absentTrap j.handle (if j.gone then 1 else 2) unit)
  else if j.st == 0 then some (chainTrap (BitVec.ofNat 64 (16 * b)) 5 unit)
  else if !j.anchored && b != j.next then some (chainTrap (BitVec.ofNat 64 (16 * b)) 7 unit)
  else none

/-- One element of an ACPUT firing (R181, R234, R236). A chain's offsets end at its LEN, whatever became of it. -/
def putEl (j : JoinSlot) (n : Nat) (r : PutRun) (u : Tup) : PutRun :=
  match r.err with
  | some _ => r
  | none =>
    let off := r.k.idx
    if j.st != 0 && off ≥ j.len then { r with err := some (chainTrap (BitVec.ofNat 64 (off / 16 * 16)) 6 (unitCell n)) }
    else
      let els := r.k.buf ++ [if u.g then u.a else 0]
      if off % 16 == 15 || (j.st != 0 && off + 1 == j.len) then
        match sendFault { j with next := j.next + r.k.waitBlk.length } (off / 16) (unitCell n) with
        | some t => { r with err := some t }
        | none => { r with k := { r.k with idx := off + 1, buf := [], waitBlk := r.k.waitBlk ++ [(off / 16, els)] }, used := r.used + 1 }
      else { r with k := { r.k with idx := off + 1, buf := els }, used := r.used + 1 }

/-- CELL_ACPUT: elements packed into blocks of sixteen for the slot IMM[3:0] (R181, R234). A block of the context's load that waits for a credit
holds every ACPUT cell of the context. An element that faults behind a block that this firing closes waits until the block is sent (R236): the cell
meets it again in its next firing. -/
def execCellAcput (c : CtxId) (n : Nat) (s : State) : Out :=
  if (s.ctx c).putHeld then .next s
  else match s.tryFire c n 0x72 4 (fun _ _ => true) with
  | .no => .next s
  | .bad t => .next (s.fabFault c t)
  | .yes x k ts =>
    let r := ts.foldl (putEl (x.join (wImm k.word % 16)) n) ⟨k, 0, none⟩
    match r.err with
    | some t =>
      if r.k.waitBlk.isEmpty then .next ((s.putCell c n (r.k.popQs (wQueues k.word) r.used)).fabFault c t)
      else .next (s.putFired c n (r.k.popQs (wQueues k.word) r.used))
    | none => .next (s.putFired c n (r.k.popQs (wQueues k.word) r.used))

/-! ### Markers (R113, R114) -/

/-- CELL_MARKER_PASS: every queue read holds a marker of one kind; the packer closes, the operation's marker action runs, st is reset, and the
marker is closed on out and on a routed aux, all under demand (R114, R135, R180, R234). Passing a marker is a firing (R384). -/
def execCellMarkerPass (c : CtxId) (n : Nat) (s : State) : Out :=
  let x := s.ctx c
  match x.fab.cell? n with
  | none => .next s
  | some k =>
    let op := wOp k.word
    if !x.active? || !s.isOpen x.ten.toNat || k.holds || !k.acc.isEmpty || (op == 0x72 && x.putHeld) || op == 0 || !s.turn c n then .next s
    else match headsOf ((wQueues k.word).map k.queue) with
      | .misaligned => if op == 0x51 then .next s else .next (s.fabFault c (alignTrap (unitCell n) 1))
      | .kinds => .next (s.fabFault c (alignTrap (unitCell n) 2))
      | .markers kind =>
        if op == 0x71 && !k.buf.isEmpty then .next (s.fabFault c (alignTrap (unitCell n) 7))
        else
          let put : Option Trap := if op == 0x72 && !k.buf.isEmpty then sendFault (x.join (wImm k.word % 16)) (k.idx / 16) (unitCell n) else none
          match put with
          | some t => .next (s.fabFault c t)
          | none =>
            if !x.canPass n k kind then .next s
            else
              let k' := k.popQs (wQueues k.word) 1
              let k' := { k' with
                pk := [], apk := [], st := stReset k.word, idx := 0, buf := [], lastIns := k.absorbs kind, done := k.done || kind == 2
                waitBlk := if op == 0x72 && !k.buf.isEmpty then [(k.idx / 16, k.buf ++ List.replicate (16 - k.buf.length) 0)] else [] }
              .next ((s.putFired c n k').updFab c (fun f => (f.closeAll (.out n) (x.markerPkts n k kind).1).closeAll (.aux n) (x.markerPkts n k kind).2))
      | _ => .next s

end Sys2Proof.Machine
end

