-- ==== Sys2Proof/Machine/Image.lean ====
section
/-! DEFINITION. Configuration images: the fields and checks of R139 to R150, R262 and R286, route tracing (R143), and the units that a load
starts with (R131, R187). -/

namespace Sys2Proof.Machine

/-! ### Reading an image -/

/-- An image as a function of the byte offset. -/
abbrev Img := Nat → Byte

/-- Bytes of an image. -/
def Img.bytes (m : Img) (a n : Nat) : List Byte := (List.range n).map (fun i => m (a + i))
/-- A little-endian field of n bytes. -/
def Img.num (m : Img) (a n : Nat) : Nat := ofBytes (Img.bytes m a n)

/-- Bytes of a core section (R149). -/
def sectSize : Nat := 6272

/-- CFG_IMAGE: the failing offset and the cause (R150). -/
abbrev ImgErr := Nat × Nat

/-- The first failure of a list of items in order. -/
def firstErr {α : Type} (f : α → Option ImgErr) : List α → Option ImgErr
  | [] => none
  | x :: t =>
    match f x with
    | some e => some e
    | none => firstErr f t

/-- The header's fields (R148). -/
structure ImgHeader where
  id : Nat
  lw : Nat
  lh : Nat
  ncut : Nat
  len : Nat
  deriving DecidableEq, Repr

/-- The header read. -/
def imgHeader (m : Img) : ImgHeader := { id := Img.num m 4 2, lw := Img.num m 8 1, lh := Img.num m 9 1, ncut := Img.num m 0xC 4, len := Img.num m 0x10 4 }

/-- The checks of R148 and of R190 on the header, field by field in ascending offset, then the shape of the lease. -/
def headerErr (m : Img) (lw lh : Nat) : Option ImgErr :=
  let h := imgHeader m
  if Img.num m 0 4 != 0x4A584346 then some (0, 1)
  else if Img.num m 6 2 != 0 then some (6, 1)
  else if h.lw == 0 || h.lw > 20 then some (8, 1)
  else if h.lh == 0 || h.lh > 16 then some (9, 1)
  else if Img.num m 0xA 2 != 0 then some (0xA, 1)
  else if h.ncut > 655360 then some (0xC, 1)
  else if h.len != 64 + sectSize * (h.lw * h.lh) + 4 * h.ncut then some (0x10, 1)
  else if (Img.bytes m 0x14 44).any (· != 0) then some (0x14, 1)
  else if h.lw != lw then some (8, 1)
  else if h.lh != lh then some (9, 1)
  else none

/-! ### Cell words (R140, R141) -/

/-- Is an OP assigned (R141 Table 3)? -/
def opAssigned (op : Nat) : Bool :=
  op ≤ 0x16 || (0x20 ≤ op && op ≤ 0x29) || (0x2C ≤ op && op ≤ 0x40) || (0x48 ≤ op && op ≤ 0x4D) || (0x50 ≤ op && op ≤ 0x58)
    || (0x60 ≤ op && op ≤ 0x67) || (0x70 ≤ op && op ≤ 0x72)

/-- Is a TYPE allowed for an assigned OP (R141 Table 3)? -/
def opTypeOk (op ty : Nat) : Bool :=
  let i := ty < 3
  let f := 3 ≤ ty && ty < 6
  if op == 0 then ty == 0
  else if op ≤ 0x16 || (0x30 ≤ op && op ≤ 0x35) || (0x48 ≤ op && op ≤ 0x4A) then i
  else if op == 0x29 || op == 0x66 || op == 0x72 then ty == 3
  else if (0x20 ≤ op && op ≤ 0x2F) || (0x36 ≤ op && op ≤ 0x3A) || (0x4B ≤ op && op ≤ 0x4D) then f
  else if op == 0x3B || op == 0x40 || op == 0x54 || op == 0x55 then ty < 6
  else if (0x3C ≤ op && op ≤ 0x3F) || op == 0x67 then ty == 7
  else if (0x62 ≤ op && op ≤ 0x65) || op == 0x70 || op == 0x71 then ty == 0
  else true

/-- May operand b be the immediate (the Imm column of R141)? -/
def opImmB (op : Nat) : Bool :=
  (0x01 ≤ op && op ≤ 0x05) || (0x07 ≤ op && op ≤ 0x0C) || (0x0F ≤ op && op ≤ 0x14) || (0x20 ≤ op && op ≤ 0x26) || (0x30 ≤ op && op ≤ 0x3B)

/-- Does the operation round by RM? -/
def opRounds (op : Nat) : Bool := (0x20 ≤ op && op ≤ 0x24) || op == 0x40 || op == 0x4B
/-- May aux be used? -/
def opAux (op : Nat) : Bool := op == 0x40 || op == 0x52 || op == 0x53 || op == 0x55 || opMem op || op == 0x70
/-- May a guard queue be configured? -/
def opGuard (op : Nat) : Bool := opMem op || (0x70 ≤ op && op ≤ 0x72)

/-- Is the immediate field of the word allowed (R140, R162, R171, R172, R181)? -/
def immOk (w : W32) : Bool :=
  let op := wOp w
  let imm := wImm w
  if wBI w then opImmB op
  else if op == 0x40 then imm / 16 == 0 && imm % 8 ≤ 5 && !(imm / 8 % 2 == 1 && imm % 8 ≥ 3)
  else if op == 0x57 then wTy w != .pred || imm < 2
  else if op == 0x58 then imm != 0
  else if opMem op then imm < 2
  else if op == 0x70 then true
  else if op == 0x72 then imm < 16
  else imm == 0

/-- Are the elements of a list distinct? -/
def distinct : List Nat → Bool
  | [] => true
  | x :: t => !t.contains x && distinct t

/-- The cause that a cell word raises, 0 when it is valid (R140, R150). -/
def cellCause (w : W32) : Nat :=
  let op := wOp w
  if !opAssigned op then 2
  else if !opTypeOk op (cellTy w) then 3
  else if op == 0 then (if w == 0 then 0 else 4)
  else
    let selOk := (wReadsB w || wQB w == 0) && (wReadsC w || wQC w == 0)
    let rmOk := if wGE w then opGuard op else opRounds op || wRM w == 0
    if selOk && distinct (wQueues w) && immOk w && rmOk && (!wAux w || opAux op) then 0 else 4

/-! ### Switch words and port-ring words (R103, R142, R147) -/

/-- OUT of a switch word. -/
def swOut (w : Nat) : Nat := w / 2 ^ 12 % 16
/-- SRC of a switch word. -/
def swSrc (w : Nat) : Nat := w / 2 ^ 8 % 16
/-- REP of a switch word. -/
def swRep (w : Nat) : Bool := w / 2 ^ 7 % 2 == 1
/-- LANE of a switch word. -/
def swLane (w : Nat) : Nat := w / 2 ^ 5 % 4
/-- CUT of a switch word. -/
def swCut (w : Nat) : Bool := w / 2 ^ 4 % 2 == 1

/-- Is a switch word free of cause 5? -/
def swOk (w : Nat) : Bool := if swSrc w == 0 then w == 0 else swOut w ≤ 8 && swSrc w ≤ 7 && w % 16 == 0

/-- Ring slot beside a box n = 16y + x, if there is one (R103). -/
def slotOf (n : Nat) : Option Nat :=
  let x := n % 16
  let y := n / 16
  if y == 0 then some x
  else if x == 15 && y ≤ 14 then some (y + 15)
  else if y == 15 then some (45 - x)
  else if x == 0 then some (60 - y)
  else none

/-- Does a ring port run into the fabric (R124)? -/
def portIn (p : Nat) : Bool := p < 16 || p == 49 || p == 50 || p == 52 || p == 54 || p == 56
/-- Is a port number assigned (R147)? -/
def portOk (p : Nat) : Bool := p ≤ 56

/-- Offset of a core's section. -/
def sectAt (ci : Nat) : Nat := 64 + sectSize * ci
/-- Cell word of a section. -/
def imgCell (m : Img) (base n : Nat) : W32 := BitVec.ofNat 32 (Img.num m (base + 4 * n) 4)
/-- Offset of switch word w of box n in a section: R149's 0x400 + 32n + 2w for the boxes whose words that places before 0x1400, and the free
halves between them, in order, for the boxes from 128 on. DEDUCED (log entry 20). -/
def swOff (n w : Nat) : Nat := 0x400 + 32 * (n % 128) + 16 * (n / 128) + 2 * w
/-- The box whose words stand in the j-th run of 16 bytes of the switch words. -/
def boxOfRun (j : Nat) : Nat := j / 2 + 128 * (j % 2)
/-- Switch word w of box n of a section. -/
def imgSw (m : Img) (base n w : Nat) : Nat := Img.num m (base + swOff n w) 2
/-- Port bound to slot k of a section. -/
def imgPort (m : Img) (base k : Nat) : Option Nat :=
  let w := Img.num m (base + 0x1800 + 2 * k) 2
  if w / 2 ^ 15 == 1 then some (w % 64) else none
/-- Is a port bound in a section? -/
def imgBound (m : Img) (base p : Nat) : Bool := (List.range 60).any (fun k => imgPort m base k == some p)
/-- The used words of a box with a given source. -/
def imgFrom (m : Img) (base n src : Nat) : List Nat := (List.range 8).filter (fun w => swSrc (imgSw m base n w) == src)

/-! ### Address-generator records (R145, R146, R262, R286) -/

/-- A record's fields. -/
structure AgRec where
  base : Nat
  ext : List Nat
  str : List Int
  ctrl : W64
  deriving DecidableEq, Repr

/-- The record of 64 bytes at an offset. -/
def agRec (m : Img) (a : Nat) : AgRec :=
  { base := Img.num m a 8
    ext := [0, 1, 2, 3].map (fun l => Img.num m (a + 8 + 8 * l) 4)
    str := [0, 1, 2, 3].map (fun l => patInt 32 true (Img.num m (a + 12 + 8 * l) 4))
    ctrl := BitVec.ofNat 64 (Img.num m (a + 0x28) 8) }

/-- EN of CTRL. -/
def agEn (c : W64) : Bool := c.getLsbD 5
/-- MODE of CTRL: 0 read, 1 write, 2 gather, 3 queue. -/
def agMode (c : W64) : Nat := bits c 4 3
/-- TGT of CTRL. -/
def agTgt (c : W64) : Nat := bits c 10 6
/-- DM of CTRL (R286). -/
def agDm (c : W64) : Bool := c.getLsbD 36

/-- Is record N of the section at base valid? -/
def agOk (m : Img) (base n : Nat) : Bool :=
  let a := base + 0x1400 + 64 * n
  let r := agRec m a
  let c := r.ctrl
  let bound (p : Nat) := imgBound m base (p + n)
  if !agEn c then (Img.bytes m a 64).all (· == 0) && !bound 0 && !bound 16 && !bound 32
  else
    let shape := r.base < 2 ^ 56 && r.ext.all (· < 2 ^ 24) && r.ext.getD 3 0 != 0 && (Img.bytes m (a + 0x30) 16).all (· == 0)
    let ctl := bits c 63 37 == 0 && (c.getLsbD 11 || bits c 16 12 == 0) && (agMode c == 3 || agTgt c == 0)
    let que :=
      if agMode c == 3 then
        !agDm c && r.base == 0 && r.str.all (· == 0) && bound 0 != bound 16
          && (List.range n).all (fun k =>
            let r' := (agRec m (base + 0x1400 + 64 * k)).ctrl
            !(agEn r' && agMode r' == 3 && agTgt r' == agTgt c && (imgBound m base (16 + k) == bound 16)))
      else true
    shape && ctl && que

/-! ### Pass 1 (R150) -/

/-- The first failing word, record or slot of a core section. -/
def sectErr (m : Img) (ci : Nat) : Option ImgErr :=
  let b := sectAt ci
  match firstErr (fun n => let k := cellCause (imgCell m b n); if k == 0 then none else some (b + 4 * n, k)) (List.range 256) with
  | some e => some e
  | none =>
  match firstErr (fun i => if swOk (imgSw m b (boxOfRun (i / 8)) (i % 8)) then none else some (b + 0x400 + 2 * i, 5)) (List.range 2048) with
  | some e => some e
  | none =>
  match firstErr (fun n => if agOk m b n then none else some (b + 0x1400 + 64 * n, 8)) (List.range 16) with
  | some e => some e
  | none =>
  match firstErr (fun k =>
      let w := Img.num m (b + 0x1800 + 2 * k) 2
      let ok := if w / 2 ^ 15 == 1 then w / 64 % 512 == 0 && portOk (w % 64) && (List.range k).all (fun j => imgPort m b j != some (w % 64)) else w == 0
      if ok then none else some (b + 0x1800 + 2 * k, 9)) (List.range 60) with
  | some e => some e
  | none => firstErr (fun i => if m (b + 0x1878 + i) == 0 then none else some (b + 0x1878 + i, 9)) (List.range 8)

/-- The core, box and word that a cut-point entry names (R149), or none where it names no word of the lease. -/
def cutTarget (h : ImgHeader) (e : Nat) : Option (Nat × Nat × Nat) :=
  let lx := e / 2 ^ 27
  let ly := e / 2 ^ 23 % 16
  if e % 2 ^ 12 == 0 && lx < h.lw && ly < h.lh then
    some (ly * h.lw + lx, e / 2 ^ 15 % 16 * 16 + e / 2 ^ 19 % 16, e / 2 ^ 12 % 8) else none

/-- The cut-point list checked: order, targets, and that no CUT = 1 word is missing (R149, R150). -/
def cutErr (m : Img) : Option ImgErr :=
  let h := imgHeader m
  let at0 := sectAt (h.lw * h.lh)
  let ent (i : Nat) := Img.num m (at0 + 4 * i) 4
  match firstErr (fun i =>
      let ok := match cutTarget h (ent i) with
        | some (ci, n, w) => swCut (imgSw m (sectAt ci) n w) && (i == 0 || ent (i - 1) < ent i)
        | none => false
      if ok then none else some (at0 + 4 * i, 7)) (List.range h.ncut) with
  | some e => some e
  | none =>
    let cuts := (List.range (h.lw * h.lh)).foldl (fun k ci =>
      k + ((List.range 2048).filter (fun i => swCut (imgSw m (sectAt ci) (i / 8) (i % 8)))).length) 0
    if cuts == h.ncut then none else some (h.len, 7)

/-! ### Routes (R143) -/

/-- The box beyond a side of box n of core ci of an image (0 N, 1 E, 2 S, 3 W), or none past the edge of the lease. -/
def boxBeyond (h : ImgHeader) (ci n side : Nat) : Option (Nat × Nat) :=
  let x := n % 16
  let y := n / 16
  let cx := ci % h.lw
  let cy := ci / h.lw
  if side == 0 then (if y > 0 then some (ci, n - 16) else if cy > 0 then some (ci - h.lw, 240 + x) else none)
  else if side == 1 then (if x < 15 then some (ci, n + 1) else if cx + 1 < h.lw then some (ci + 1, n - 15) else none)
  else if side == 2 then (if y < 15 then some (ci, n + 16) else if cy + 1 < h.lh then some (ci + h.lw, x) else none)
  else (if x > 0 then some (ci, n - 1) else if cx > 0 then some (ci - 1, n + 15) else none)

/-- Is an OUT a link that leaves the core? -/
def leavesCore (n out : Nat) : Bool :=
  (out == 0 && n / 16 == 0) || (out == 1 && n % 16 == 15) || (out == 2 && n / 16 == 15) || (out == 3 && n % 16 == 0)

/-- What a trace has found: boxes passed, words covered (core, box, word), and whether every rule held. -/
structure Trace where
  boxes : List (Nat × Nat)
  words : List (Nat × Nat × Nat)
  ok : Bool

/-- Does a route's word keep the rules of its end (R143: cell queues, ring slots, lane)? x1 says that the source is an aux port. -/
def endOk (m : Img) (base n : Nat) (x1 : Bool) (w : Nat) : Bool :=
  let out := swOut w
  if out < 4 then swLane w == 0
  else if out < 8 then swLane w == 0 && (wOp (imgCell m base n) != 0 && (wQueues (imgCell m base n)).contains (out - 4))
  else match (slotOf n).bind (imgPort m base) with
    | some p => !portIn p && (swLane w == 0 || (!x1 && 32 ≤ p && p < 48))
    | none => false

/-- A route traced from source src of box n of core ci. Fuel bounds the boxes passed. -/
def traceFrom (m : Img) (h : ImgHeader) (x1 : Bool) : Nat → Nat → Nat → Nat → Trace → Trace
  | 0, _, _, _, t => { t with ok := false }
  | fuel + 1, ci, n, src, t =>
    let b := sectAt ci
    let ws := imgFrom m b n src
    let loop := t.boxes.contains (ci, n)
    let repOk := ws.length ≤ 4 && ws.all (fun w => swRep (imgSw m b n w) == (ws.length ≥ 2))
    let outsOk := ws.all (fun w => ((List.range 8).filter (fun v => swSrc (imgSw m b n v) != 0 && swOut (imgSw m b n v) == swOut (imgSw m b n w))).length == 1)
    let endsOk := ws.all (fun w => endOk m b n x1 (imgSw m b n w))
    let t := { boxes := (ci, n) :: t.boxes, words := ws.map (fun w => (ci, n, w)) ++ t.words
               ok := t.ok && !loop && !ws.isEmpty && repOk && outsOk && endsOk }
    if loop then t
    else ws.foldl (fun t w =>
      let out := swOut (imgSw m b n w)
      if out < 4 then
        match boxBeyond h ci n out with
        | none => { t with ok := false }
        | some (cj, k) => traceFrom m h x1 fuel cj k ((out + 2) % 4 + 1) t
      else t) t

/-- May a box's source of code 5 out, 6 aux or 7 ring start a route (R143)? -/
def startOk (m : Img) (base n src : Nat) : Bool :=
  let c := imgCell m base n
  if src == 5 then wOp c != 0 && wOp c != 0x56
  else if src == 6 then wAux c
  else match (slotOf n).bind (imgPort m base) with
    | some p => portIn p
    | none => false

/-- The route of a source of a box. -/
def routeOf (m : Img) (h : ImgHeader) (ci n src : Nat) : Trace :=
  let t := traceFrom m h (src == 6) (h.lw * h.lh * 256 + 1) ci n src ⟨[], [], true⟩
  { t with ok := t.ok && startOk m (sectAt ci) n src }

/-- The words that lie on some route of the image, a route being a trace that keeps every rule of R143. DEDUCED (log entry 21). -/
def covered (m : Img) (h : ImgHeader) : List (Nat × Nat × Nat) :=
  ((List.range (h.lw * h.lh)).map (fun ci => ((List.range 256).map (fun n => ([5, 6, 7].map (fun src =>
    if (imgFrom m (sectAt ci) n src).isEmpty then []
    else
      let t := routeOf m h ci n src
      if t.ok then t.words else [])).flatten)).flatten)).flatten

/-- Pass 2 on one core section: cells, then switch words, in ascending offset (R143, R144, R150). -/
def routeErr (m : Img) (h : ImgHeader) (cov : List (Nat × Nat × Nat)) (ci : Nat) : Option ImgErr :=
  let b := sectAt ci
  match firstErr (fun n =>
      let c := imgCell m b n
      let fed (q : Nat) := cov.any (fun e => e.1 == ci && e.2.1 == n && swOut (imgSw m b n e.2.2) == 4 + q)
      if wOp c == 0 || (wQueues c).all fed then none else some (b + 4 * n, 6)) (List.range 256) with
  | some e => some e
  | none => firstErr (fun i =>
      let n := boxOfRun (i / 8)
      let w := imgSw m b n (i % 8)
      let src := swSrc w
      if src == 0 then none
      else if !cov.contains (ci, n, i % 8) then some (b + 0x400 + 2 * i, 6)
      else if swCut w && !(leavesCore n (swOut w) && (boxBeyond h ci n (swOut w)).isSome) then some (b + 0x400 + 2 * i, 7)
      else none) (List.range 2048)

/-- The whole check of an image whose header has passed (R150). -/
def imageErr (m : Img) : Option ImgErr :=
  let h := imgHeader m
  match firstErr (sectErr m) (List.range (h.lw * h.lh)) with
  | some e => some e
  | none =>
  match cutErr m with
  | some e => some e
  | none => firstErr (routeErr m h (covered m h)) (List.range (h.lw * h.lh))

/-! ### CRC-32C (R185, R190) -/

/-- One byte into the reflected CRC-32C register. -/
def crcByte (c : W32) (b : Byte) : W32 :=
  (List.range 8).foldl (fun c _ => if c.getLsbD 0 then (c >>> 1) ^^^ 0x82F63B78#32 else c >>> 1) (c ^^^ b.zeroExtend 32)

/-- CRC-32C of a byte string. -/
def crc32c (l : List Byte) : W32 := (l.foldl crcByte 0xFFFFFFFF#32) ^^^ 0xFFFFFFFF#32

/-! ### The units of a load (R110, R131, R143, R187) -/

/-- A section held in a slot, read as an image section at base 0. -/
def sectImg (sect : Mem) : Img := fun a => sect.get a

/-- The link position of an edge box: its column for N and S, its row for E and W. -/
def linkPos (n side : Nat) : Nat := if side % 2 == 0 then n % 16 else n / 16

/-- The box reached inside the core. -/
def boxInside (n side : Nat) : Nat := if side == 0 then n - 16 else if side == 1 then n + 1 else if side == 2 then n + 16 else n - 1

/-- The branches of a route within one core, from source src of box n (R111, R112). -/
def branchesFrom (m : Img) : Nat → Nat → Nat → List Branch
  | 0, _, _ => []
  | fuel + 1, n, src =>
    ((imgFrom m 0 n src).map (fun w =>
      let v := imgSw m 0 n w
      let out := swOut v
      let leaf (e : BrEnd) : List Branch := [{ dst := e, lane := swLane v, cut := swCut v, cum := 0, fly := [], rev := [], skip := 0, skipOwed := 0, mid := false }]
      if out < 4 then
        (if leavesCore n out then leaf (.exit out (linkPos n out)) else branchesFrom m fuel (boxInside n out) ((out + 2) % 4 + 1))
      else if out < 8 then leaf (.queue n (out - 4))
      else match (slotOf n).bind (imgPort m 0) with
        | some p => leaf (.port p)
        | none => [])).flatten

/-- The producer of a source code of a box, or the link behind an edge. -/
def srcOf (m : Img) (n src : Nat) : Option SegSrc :=
  if src == 5 then some (.unit (.out n))
  else if src == 6 then some (.unit (.aux n))
  else if src == 7 then ((slotOf n).bind (imgPort m 0)).map (fun p => .unit (.port p))
  else if leavesCore n (src - 1) then some (.link (src - 1) (linkPos n (src - 1)))
  else none

/-- The parts of routes in one core: seam says which sides are seams (R417). -/
def segsOf (m : Img) (seam : Nat → Bool) : List Seg :=
  ((List.range 256).map (fun n => ([1, 2, 3, 4, 5, 6, 7].map (fun src =>
    if (imgFrom m 0 n src).isEmpty then []
    else match srcOf m n src with
      | none => []
      | some s =>
        let relay : Bool := match s with
          | .link side _ => seam side
          | _ => false
        [{ src := s, branches := branchesFrom m 257 n src, closed := 0, fwd := 0, relay := if relay then some [] else none, relayOwed := if relay then 16 else 0,
           eos := false : Seg }])).flatten)).flatten

/-- A tile as a load start leaves it, with the record held in the slot (R187). -/
def Tile.fresh (r : AgRec) : Tile :=
  { base := r.base, ext := r.ext, str := r.str, ctrl := r.ctrl, i3 := 0, running := false, pos := 0, pk := [], inp := Part.blank 0,
    par := Part.blank 0, parm := [], dm := [], pages := [], done := false }

/-- A ring port as a load start leaves it. -/
def Port.fresh : Port := { part := Part.blank 0, pk := [], pkTy := 0, pkAt := 0, toks := [], eos := false }

/-- Cells, tiles and ports of a section. -/
def fabOf (m : Img) (seam : Nat → Bool) (start : Nat) : Fab :=
  let cells := (List.range 256).filterMap (fun n => let w := imgCell m 0 n; if wOp w == 0 then none else some (n, Cell.fresh w))
  let tiles := (List.range 16).filterMap (fun n => let r := agRec m (0x1400 + 64 * n); if agEn r.ctrl then some (n, Tile.fresh r) else none)
  let ports := ((List.range 57).filter (fun p => p ≥ 48 && imgBound m 0 p)).map (fun p => (p, Port.fresh))
  { Fab.blank with start := start, cb := 1 :: List.replicate 31 0, cells := cells, tiles := tiles, ports := ports, segs := segsOf m seam }

/-- The demand of R109 for a consumer's credits at the start of a load: one for agN.par, two for the others. -/
def credits (e : BrEnd) : Nat := if e.isX1 then 1 else 2

/-- The packets that stand at a consumer. -/
def Fab.standing (f : Fab) (e : BrEnd) : Nat :=
  match f.sink? e with
  | some q => freedBy q.items.length q.items
  | none => 0

/-- Every consumer of the load has its initial demand on the way: for its credits that no held packet occupies (R109, R204). -/
def Fab.demandAll (f : Fab) : Fab :=
  { f with segs := f.segs.map (fun g => { g with branches := g.branches.map (fun b =>
      match b.dst with
      | .exit _ _ => b
      | e => if credits e ≤ f.standing e then b else { b with rev := b.rev ++ [credits e - f.standing e] }) }) }

end Sys2Proof.Machine
end

