-- ==== Sys2Proof/Machine/Xlate.lean ====
section
/-! DEFINITION. Translation for the units and the sequencer's device operands, through the TLBs and the die's walker (R289 to R292, R296). -/

namespace Sys2Proof.Machine

/-- What a translation gives: an address, a hold while a walk is under way or its page migrates, or a fault. -/
inductive SeqX
  | ok (pa : Nat)
  | hold (s : State)
  | fault (s : State) (t : Trap)

/-- Is a walk of the requester for the 128 KiB page of an address asked for or parked? -/
def Die.walking (d : Die) (w : WalkReq) : Bool :=
  let same (r : WalkReq) : Bool := r.who == w.who && r.asid == w.asid && r.va / 2 ^ 17 == w.va / 2 ^ 17
  d.walks.any same || d.replay.any same || d.retry.any same

/-- A unit's translation (R289 to R292). A miss asks the die's walker, with which every unit's walks merge and wait alike, and holds the unit. -/
def State.unitXlate (s : State) (who : Who) (core : CoreId) (die asid va : Nat) (need : Need) : SeqX :=
  if va ≥ 2 ^ 56 then .fault s (xlatTrap va 6 0 need.wr)
  else match s.tlbHit core die asid va with
    | some e =>
      if (need.rd && !e.rd) || (need.wr && !e.wr) then .fault s (xlatTrap va 4 e.lvl need.wr) else .ok (e.pa + (va - e.va))
    | none =>
      let w : WalkReq := ⟨who, asid, va, need.rd, need.wr, false, (va / 2 ^ 17 * 2 ^ 17, 2 ^ 17), s.time⟩
      let d := s.die die
      match d.walkFaults.find? (fun f => f.1.who == who && f.1.asid == asid && f.1.va / 2 ^ 17 == va / 2 ^ 17) with
      | some f =>
        let s := s.setDie die { d with walkFaults := d.walkFaults.filter (fun g => g.1.who != who) }
        match s.walk die asid va with
        | .error f => .fault s (walkTrap va f need.wr)
        | .ok l =>
          if (need.rd && !l.rd) || (need.wr && !l.wr) then .fault s (xlatTrap va 4 l.lvl need.wr)
          else .hold (s.updDie die (fun d => { d with walks := d.walks ++ [{ f.1 with va := va }] }))
      | none => .hold (if d.walking w then s else s.setDie die { d with walks := d.walks ++ [w] })

/-- The translation of a device operand of context c. -/
def State.seqXlate (s : State) (c : CtxId) (va : Nat) (need : Need) : SeqX :=
  s.unitXlate (.ctx c) (coreOf c) (dieOf (coreOf c)) (s.ctx c).asid.toNat va need

/-- The level of the leaf that a translation has come from (R293). -/
def State.leafLevel (s : State) (core : CoreId) (die asid va : Nat) : Nat :=
  match s.tlbHit core die asid va with
  | some e => e.lvl
  | none => match s.walk die asid va with
    | .ok l => l.lvl
    | .error _ => 2

/-- A local physical address, or the fault of a unit that no remote page serves (R289, R426). -/
def State.onlyLocal (s : State) (core : CoreId) (die asid : Nat) (va : Int) (wr : Bool) : SeqX → SeqX
  | .ok pa => if s.isLocal pa then .ok pa else .fault s (xlatTrap va.toNat 5 (s.leafLevel core die asid va.toNat) wr)
  | x => x

/-- A link of the mesh between a core and the home of an address, or back, that has lasting-failed: the access completes with HW_ERROR (R405). -/
def State.meshFault (s : State) (core : CoreId) (va pa : Nat) : Option Trap :=
  if s.dead.isEmpty || core ≥ numCores then none
  else ((s.deadOn true 40 core (s.homeCore pa)).orElse (fun _ => s.deadOn true 40 (s.homeCore pa) core)).map (fun src => hwTrap src (BitVec.ofNat 64 va))

/-- A device operand: bits [62:56] must be 0 (R296); the fault is XLAT_FAULT cause 6. -/
def devHigh (ea : W64) : Bool := bits ea 62 56 != 0

end Sys2Proof.Machine
end

