-- ==== Sys2Proof/Machine/Graph.lean ====
section
/-! DEFINITION. Configurations, shapes, parameters, sequencer streams and the collectives of a lease (R130 to R136, R185 to R205, R443). -/

namespace Sys2Proof.Machine

/-! ### Leases -/

/-- A lease of one context, for a context that no live lease lists. -/
def State.solo (s : State) (c : CtxId) : Lease :=
  { ten := (s.ctx c).ten.toNat, asid := (s.ctx c).asid.toNat, x := coreX (coreOf c), y := coreY (coreOf c), w := 1, h := 1,
    nb := (s.ctx c).banks.length, ctxs := [c], go := none, bar := none, broken := none, quantum := 0, start := 0, stopAt := none, queue := none, qidx := 0,
    body := [], task := none, parent := none, args := (0, 0), det := (s.ctx c).det, started := true, ended := false, killed := false, fail := none,
    quant := 0, turn := false, turnStart := 0, moving := none, saved := [], frozen := none, slip := 0 }

/-- The id under which a context's lease is kept: a context outside every live lease has one of its own, above every lease id. -/
def State.lidOf (s : State) (c : CtxId) : Nat :=
  if (s.leases.get? (s.ctx c).lease).isSome then (s.ctx c).lease else 2 ^ 34 + c

/-- A lease by the id of lidOf. -/
def State.leaseAt (s : State) (lid : Nat) : Option Lease :=
  match s.leases.get? lid with
  | some l => some l
  | none => if 2 ^ 34 ≤ lid && (s.leases.get? (s.ctx (lid - 2 ^ 34)).lease).isNone then some (s.solo (lid - 2 ^ 34)) else none

/-- The lease of a context (R130). -/
def State.leaseFor (s : State) (c : CtxId) : Lease := (s.leaseAt (s.lidOf c)).getD (s.solo c)
/-- A lease replaced. -/
def State.putLease (s : State) (lid : Nat) (l : Lease) : State := { s with leases := s.leases.set lid l }

/-- Position of a context in the order of R131: LY, then LX. -/
def Ctx.order (x : Ctx) : Nat := x.ly.toNat * 32 + x.lx.toNat

/-- CFG_STATE (R205). -/
def cfgState (i : Instr) (cause : Nat) : Trap := wordTrap i 0x0D cause
/-- What a configuration's run of the checks of R190 or R288 gives. -/
inductive ImgRead
  | ok (m : Img)
  | hold (s : State)
  | fault (s : State) (t : Trap)

/-- CFG_IMAGE (R150). -/
def imgTrap (e : ImgErr) : Trap := ⟨0x0B, BitVec.ofNat 64 e.1, BitVec.ofNat 16 e.2⟩

/-- The first cell word of an image that a deterministic lease refuses (R443): its offset is the cell word's, DEDUCED (log entry 22). -/
def detErr (m : Img) : Option ImgErr :=
  let h := imgHeader m
  firstErr (fun ci => firstErr (fun n =>
    let w := imgCell m (sectAt ci) n
    let op := wOp w
    let routed := !(imgFrom m (sectAt ci) n 5).isEmpty
    if op == 0x70 || op == 0x65 || (0x62 ≤ op && op ≤ 0x64 && routed) then some (sectAt ci + 4 * n, 10) else none) (List.range 256))
    (List.range (h.lw * h.lh))

/-- The whole image checked after its header (R150, R443). -/
def fullErr (m : Img) (det : Bool) : Option ImgErr :=
  match imageErr m with
  | some e => some e
  | none => if det then detErr m else none

/-- An image in the scratchpad (R190). A double-bit error of any image byte comes before every fault of the image past its header: DESIGN CHOICE
(log 106). -/
def State.readSpadImage (s : State) (c : CtxId) (ea : W64) : ImgRead :=
  let x := s.ctx c
  let m : Img := fun i => (s.spadBytes c (ea.toNat + i) 1).headD 0
  match s.spadFault c ea 64 64 unitSeq with
  | some t => .fault s t
  | none =>
  match s.spadEcc c ea.toNat 64 false with
  | some t => .fault s t
  | none =>
  match headerErr m x.lw.toNat x.lh.toNat with
  | some e => .fault s (imgTrap e)
  | none =>
    let len := (imgHeader m).len
    if ea.toNat + len > x.budget then .fault s ⟨0x03, BitVec.ofNat 64 x.budget, 1⟩
    else match s.spadFault c ea 1 len unitSeq with
    | some t => .fault s t
    | none =>
    match s.spadEcc c ea.toNat len false with
    | some t => .fault s t
    | none =>
    match fullErr m x.det with
    | some e => .fault s (imgTrap e)
    | none => .ok m

/-- One page of a read of device memory translated; no remote page serves a configuration load (R288, R290, R426). -/
def State.transPage (s : State) (c : CtxId) (va : Nat) : SeqX :=
  s.onlyLocal (coreOf c) (dieOf (coreOf c)) (s.ctx c).asid.toNat va false (s.seqXlate c va ⟨true, false⟩)

/-- The checks after translation of n bytes that lie in one page, and the links of the mesh (R282, R404, R405, R421). -/
def State.readFault (s : State) (c : CtxId) (va pa n : Nat) : Option (State × Trap) :=
  ((s.accessFault (s.ctx c).ten.toNat (some (dieOf (coreOf c))) va pa n).orElse (fun _ => s.meshFault (coreOf c) va pa)).map (fun t => (s.noteRefusal (coreOf c) (s.ctx c).ten.toNat pa t, t))

/-- The part of a read of len bytes that lies in page k after its first: address and length. -/
def pagePart (va len k : Nat) : Nat × Nat :=
  let first := va / 2 ^ 17 * 2 ^ 17
  let lo := max va (first + 2 ^ 17 * k)
  (lo, min (va + len) (first + 2 ^ 17 * (k + 1)) - lo)

/-- Pages of 128 KiB from an address on, translated in ascending order: their physical addresses (R288). -/
def State.readPages (s : State) (c : CtxId) (va len : Nat) : Nat → Nat → Except SeqX (List Nat)
  | 0, _ => .ok []
  | fuel + 1, k =>
    match s.transPage c (pagePart va len k).1 with
    | .ok pa =>
      match State.readPages s c va len fuel (k + 1) with
      | .ok l => .ok ((pa - (pagePart va len k).1 % 2 ^ 17) :: l)
      | .error e => .error e
    | e => .error e

/-- An image at a virtual address (R288). -/
def State.readDevImage (s : State) (c : CtxId) (ea : W64) : ImgRead :=
  let x := s.ctx c
  let va := bits ea 55 0
  let fail : SeqX → ImgRead := fun e => match e with
    | .hold s => .hold s
    | .fault s t => .fault s t
    | .ok _ => .hold s
  if va % 64 != 0 then .fault s ⟨0x02, ea, 64⟩
  else if devHigh ea then .fault s (xlatTrap ea.toNat 6 0 false)
  else match s.transPage c va with
    | .ok pa =>
      match s.readFault c va pa 64 with
      | some (s, t) => .fault s t
      | none =>
      let hd : Img := fun i => s.devByte (memKey pa + i)
      match headerErr hd x.lw.toNat x.lh.toNat with
      | some e => .fault s (imgTrap e)
      | none =>
        let len := (imgHeader hd).len
        let n := (va + len - 1) / 2 ^ 17 - va / 2 ^ 17 + 1
        match s.readPages c va len n 0 with
        | .error e => fail e
        | .ok pages =>
          match (List.range n).findSome? (fun k =>
              let p := pagePart va len k
              s.readFault c p.1 (pages.getD k 0 + p.1 % 2 ^ 17) p.2) with
          | some (s, t) => .fault s t
          | none =>
          let m : Img := fun i => s.devByte (memKey (pages.getD ((va + i) / 2 ^ 17 - va / 2 ^ 17) 0 + (va + i) % 2 ^ 17))
          match fullErr m x.det with
          | some e => .fault s (imgTrap e)
          | none => .ok m
    | e => fail e

/-- The slot that holds a checked image, for the context's core (R185, R190). -/
def slotOfImg (m : Img) (x : Ctx) : Slot :=
  let h := imgHeader m
  let base := sectAt (x.ly.toNat * h.lw + x.lx.toNat)
  { st := .loading, id := h.id, crc := crc32c (Img.bytes m 0 h.len), sect := Mem.setBytes [] 0 (Img.bytes m base sectSize), endSt := 0, bad := [] }

/-- CFG.LD and CFG.PRE (R190, R288). -/
def State.cfgLoad (s : State) (g : Guard) (d a : BitVec 5) (imm : BitVec 11) (pre : Bool) : Out :=
  s.issue g (fun c => c.pends d || c.cntSt != 0 || c.nxt.st == .loading || (pre && c.cntTl ≥ 31)) (fun c =>
    let ea := c.reg a + 64 * imm11 imm
    match if ea.getLsbD 63 then s.readDevImage s.cur ea else s.readSpadImage s.cur ea with
    | .hold s => s
    | .fault s t => s.raise s.cur t
    | .ok m =>
      let sl := slotOfImg m c
      if pre then
        s.setCtx s.cur { (c.setReg d (BitVec.ofNat 64 sl.id)) with nxt := sl, tlq := c.tlq ++ [TlOp.mk c.tlN true false], tlN := c.tlN + 1 }.advance
      else (s.setCtx s.cur { c with nxt := sl }).waitFor s.cur (.cfgLd d (BitVec.ofNat 64 sl.id)))

/-- CFG.LD (R190). -/
def execCfgLd (g : Guard) (d a : BitVec 5) (imm : BitVec 11) (s : State) : Out := s.cfgLoad g d a imm false
/-- CFG.PRE (R190). -/
def execCfgPre (g : Guard) (d a : BitVec 5) (imm : BitVec 11) (s : State) : Out := s.cfgLoad g d a imm true

/-- Is the next slot being written for a CFG.PRE? -/
def Ctx.preLoading (x : Ctx) : Bool := x.tlq.any (fun o => o.pre && !o.done)

/-- CFG_LD_COMPLETE: the stores of the next slot are written, and a waiting CFG.LD retires, of a gated context when it is ungated (R190, R392). -/
def execCfgLdComplete (c : CtxId) (s : State) : Out :=
  let x := s.ctx c
  if x.preLoading then .next s
  else
    let s := if x.nxt.st == .loading then s.updCtx c (fun x => { x with nxt := { x.nxt with st := .ready } }) else s
    match if x.gated then none else x.wait with
    | some (.cfgLd d id) => .next (s.retire c (fun x => x.setReg d id))
    | _ => .next s

/-- CFG_PRE_COMPLETE: the stores of the next slot are written and CNT.TL falls (R69, R190). -/
def execCfgPreComplete (c : CtxId) (s : State) : Out :=
  let x := s.ctx c
  match x.tlq.find? (fun o => o.pre && !o.done) with
  | some o => if x.nxt.st != .loading then .next s else .next (s.updCtx c (fun x => { x.finishTl o.id with nxt := { x.nxt with st := .ready } }))
  | none => .next s

/-! ### Collectives (R131 to R133, R191, R203) -/

/-- What an arrival at a collective gives. -/
inductive Arrival
  | pending (k : Coll)
  | refused (other : Coll)
  | diverged (k : Coll)

/-- A context arrives at a collective (R132, R189, R191, R203). In the cycle in which an id becomes pending, the arrival of the lowest LY, and then
LX, decides the id and its checksum; those that differ lose the tie. A context that arrives again, from its handler, with another checksum no longer
counts as arrived. -/
def State.arrive (s : State) (k : Option Coll) (a : Arr) : Arrival :=
  let ord (e : Arr) : Nat := (s.ctx e.ctx).order
  let same (e : Arr) : Bool := e.id == a.id && e.crc == a.crc
  match k with
  | none => .pending { id := a.id, crc := a.crc, arrived := [a], t0 := s.time, made := s.time, tied := [] }
  | some k =>
    let tied := k.tied.filter (·.ctx != a.ctx)
    if k.id == a.id && k.arrived.any (·.ctx == a.ctx) then
      (if k.crc == a.crc then .pending { k with tied := tied } else .diverged { k with arrived := k.arrived.filter (·.ctx != a.ctx), tied := tied })
    else if k.id == a.id && k.crc == a.crc then .pending { k with arrived := k.arrived ++ [a], t0 := s.time, tied := tied }
    else if k.made != s.time then (if k.id != a.id then .refused k else .diverged k)
    else if k.arrived.all (fun e => ord a < ord e) then
      .pending { k with id := a.id, crc := a.crc, arrived := tied.filter same ++ [a], t0 := s.time, tied := tied.filter (fun e => !same e) ++ k.arrived }
    else .pending { k with tied := tied ++ [a] }

/-- GO_MISMATCH (R135, R203). -/
def goTrap (val detail : Nat) : Trap := ⟨0x0A, BitVec.ofNat 64 val, BitVec.ofNat 16 detail⟩
/-- CFG_DIVERGE (R205). -/
def divergeTrap (crc : W32) (id : Nat) : Trap := ⟨0x0E, crc.zeroExtend 64, BitVec.ofNat 16 id⟩

/-- The slot that CFG.GO targets (R191): READY or ENDED with the id; the next slot first. true names the next slot. -/
def Ctx.goSlot (x : Ctx) (id : Nat) : Option (Bool × Slot) :=
  let ok (k : Slot) : Bool := (k.st == .ready || k.st == .ended) && k.id == id
  if ok x.nxt then some (true, x.nxt) else if ok x.cur then some (false, x.cur) else none

/-- CFG.GO (R131 to R133, R191). -/
def execCfgGo (g : Guard) (d : BitVec 5) (id : BitVec 16) (s : State) : Out :=
  let n := id.toNat
  s.issue g (fun c => c.cur.st == .running || (c.nxt.st == .loading && c.nxt.id == n) || c.cntLd != 0 || c.cntSt != 0) (fun c =>
    let lid := s.lidOf s.cur
    let l := s.leaseFor s.cur
    match l.broken with
    | some det => s.raise s.cur (goTrap (0x20000 + n) det.1)
    | none =>
    match c.goSlot n with
    | none => s.raise s.cur (cfgState (.cfgGo g d id) 1)
    | some (_, sl) =>
      match s.arrive l.go ⟨s.cur, n, sl.crc, bits (c.reg d) 31 0⟩ with
      | .pending k => (s.putLease lid { l with go := some k }).waitFor s.cur (.cfgGo d n)
      | .refused k => s.raise s.cur (goTrap n k.id)
      | .diverged k => (s.putLease lid { l with go := some k }).raise s.cur (divergeTrap sl.crc n))

/-- LEASE.BAR (R203). -/
def execLeaseBar (g : Guard) (id : BitVec 16) (s : State) : Out :=
  let n := id.toNat
  s.issue g (fun c => c.cntLd != 0 || c.cntSt != 0) (fun _ =>
    let lid := s.lidOf s.cur
    let l := s.leaseFor s.cur
    match l.broken with
    | some det => s.raise s.cur (goTrap (0x30000 + n) det.1)
    | none =>
      match s.arrive l.bar ⟨s.cur, n, 0, 0⟩ with
      | .pending k => (s.putLease lid { l with bar := some k }).waitFor s.cur (.leaseBar n)
      | .refused k => s.raise s.cur (goTrap (0x10000 + n) k.id)
      | .diverged k => s.raise s.cur (goTrap (0x10000 + n) k.id))

/-- The trap of a WAITING context that has lost the tie of its collective, once the cycle of the tie has passed, with the lease that no longer
lists it (R132, R191, R203). -/
def State.tieLost (s : State) (c : CtxId) : Option (Lease × Trap) :=
  let l := s.leaseFor c
  let find (k : Option Coll) : Option (Coll × Arr) :=
    match k with
    | some k => if k.made < s.time then (k.tied.find? (·.ctx == c)).map (fun a => (k, a)) else none
    | none => none
  let drop (k : Coll) : Option Coll := some { k with tied := k.tied.filter (·.ctx != c) }
  match (s.ctx c).wait with
  | some (.cfgGo _ _) =>
    (find l.go).map (fun e => ({ l with go := drop e.1 }, if e.1.id != e.2.id then goTrap e.2.id e.1.id else divergeTrap e.2.crc e.2.id))
  | some (.leaseBar _) => (find l.bar).map (fun e => ({ l with bar := drop e.1 }, goTrap (0x10000 + e.2.id) e.1.id))
  | _ => none

/-- Has every context of the lease arrived, and the collective's count passed, with none of them gated (R131, R203, R392)? -/
def State.collReady (s : State) (l : Lease) (k : Coll) : Bool :=
  l.ctxs.all (fun c => k.arrived.any (·.ctx == c) && !(s.ctx c).gated) && k.t0 + l.span ≤ s.time && l.frozen.isNone

/-- Is a side of a core a seam between dies (R417)? -/
def seamSide (core : CoreId) (side : Nat) : Bool :=
  (coreX core == 9 && side == 1) || (coreX core == 10 && side == 3) || (coreY core == 7 && side == 2) || (coreY core == 8 && side == 0)

/-- Packets held by a miss are consumed first at the units that the new load has, in place of so many initial credits (R204). -/
def takeMissed (f : Fab) : List (BrEnd × Packet) → Fab × List (BrEnd × Packet)
  | [] => (f, [])
  | (e, p) :: t =>
    match f.sink? e with
    | none => let (f, r) := takeMissed f t; (f, (e, p) :: r)
    | some _ => takeMissed (f.updSink e (fun q => q.accept p)) t

/-- Copy commands that elements make complete, n elements of one standing before them (R327). -/
def runCmds : Nat → List QItem → Nat
  | _, [] => 0
  | n, .el _ _ :: t => (if n % 16 == 15 then 1 else 0) + runCmds (n + 1) t
  | _, .marker _ :: t => runCmds 0 t

/-- ECC_UNCORR of a configuration-store entry (R136). -/
def confTrap (unit : Nat) : Trap := ⟨0x05, BitVec.ofNat 64 unit, 0x100⟩

/-- Does a number name an entry of the configuration store: a cell, a tile, a switch box, a ring slot (R135, R136)? -/
def confUnit (u : Nat) : Bool := u < 0x110 || (0x400 ≤ u && u < 0x500) || (0x500 ≤ u && u < 0x53C)

/-- Context c starts the load in its target slot (R131, R187, R191), with the copy commands that packets held for ce.cmd complete (R204). A load that reads a faulty word of the store meets it at once (R136). END reads
0 from the start on: DESIGN CHOICE (log 103). A context that has arrived and stands in its trap handler starts too, and its CFG.GO, run again by
TRET, arrives at a new collective: DESIGN CHOICE (log 102). -/
def State.startLoad (s : State) (c : CtxId) (id : Nat) : State :=
  let x := s.ctx c
  match x.goSlot id with
  | none => s
  | some (next, sl) =>
    let (f, missed) := takeMissed (fabOf (sectImg sl.sect) (seamSide (coreOf c)) s.time) x.missed
    let f := f.demandAll
    let x := { x with
      cur := { sl with st := .running, endSt := 0 }
      nxt := if next then x.cur else x.nxt
      ran := true
      fab := f
      missed := missed
      miss := !missed.isEmpty
      near := [] }
    let ready := match f.sink? (.port 53) with
      | some q => runCmds 0 q.items
      | none => 0
    let s := (s.setCtx c x).updCore (coreOf c) (fun k => { k with ceCmds := k.ceCmds ++ List.replicate ready ⟨c, none, s.time⟩ })
    let s := match x.wait with
      | some (.cfgGo _ _) => s.retire c id_
      | _ => s
    match sl.bad with
    | u :: _ => s.fabFault c (confTrap u)
    | [] => s
where
  /-- No register is written. -/
  id_ (x : Ctx) : Ctx := x

/-- The least non-zero quantum, 0 without one (R192). -/
def leastQuantum (l : List Nat) : Nat :=
  match l.filter (· != 0) with
  | [] => 0
  | q :: t => t.foldl min q

/-- LEASE_BAR_RELEASE: every waiting context of the lease retires (R203). A context that has arrived and stands in its trap handler is passed by:
DESIGN CHOICE (log 102). -/
def execLeaseBarRelease (lid : Nat) (s : State) : Out :=
  match s.leaseAt lid with
  | none => .next s
  | some l =>
    match l.bar with
    | none => .next s
    | some k =>
      if l.broken.isSome || !s.collReady l k then .next s
      else
        let s := s.putLease lid { l with bar := none }
        .next (l.ctxs.foldl (fun s c => match (s.ctx c).wait with
          | some (.leaseBar _) => s.retire c (fun x => x)
          | _ => s) s)

/-- LEASE_BREAK: a lease with a STOPPED or destroyed context is broken (R133). -/
def execLeaseBreak (lid : Nat) (s : State) : Out :=
  match s.leases.get? lid with
  | none => .next s
  | some l =>
    match l.ctxs.findIdx? (fun c => (s.ctx c).st == .stopped || (s.ctx c).st == .empty) with
    | some i =>
      if l.broken.isSome || !l.started || !l.saved.isEmpty then .next s
      else .next (s.putLease lid { l with broken := some (i / max l.w 1 * 32 + i % max l.w 1, s.time) })
    | none => .next s

/-- COLLECTIVE_ABANDON: in a broken lease the waiting collectives raise GO_MISMATCH once and the pending ids are cleared (R133, R391). -/
def execCollectiveAbandon (lid : Nat) (s : State) : Out :=
  match s.leases.get? lid with
  | none => .next s
  | some l =>
    match l.broken with
    | none => .next s
    | some det =>
      let s := s.putLease lid { l with go := none, bar := none }
      .next (l.ctxs.foldl (fun s c => match (s.ctx c).wait with
        | some (.cfgGo _ id) => if (s.ctx c).raised.isEmpty then s.raise c (goTrap (0x20000 + id) det.1) else s
        | some (.leaseBar id) => if (s.ctx c).raised.isEmpty then s.raise c (goTrap (0x30000 + id) det.1) else s
        | _ => s) s)

/-! ### The end of a load (R134, R192 to R194) -/

/-- Has a ring port through which a route passes passed or closed EOS (R134)? -/
def Fab.portDone (f : Fab) : Bool :=
  f.segs.all (fun g =>
    (match g.src with
     | .unit (.port _) => g.eos
     | _ => true)
    && g.branches.all (fun b =>
      match b.dst with
      | .port p =>
        (match f.sink? (.port p) with
         | some q => if (32 ≤ p && p < 48) || p == 51 then q.eosIn else q.eosOut
         | none => true)
      | _ => true))

/-- Is no beat of the load in flight here (R134, R417)? -/
def Fab.quiet (f : Fab) : Bool :=
  f.segs.all (fun g => g.branches.all (fun b => b.fly.isEmpty) && (g.relay.getD []).isEmpty)

/-- Elements of a bank part (R263). -/
def bankPart : Nat := 32768

/-- Does a refill want elements that the spill block holds (R263)? -/
def ChanQ.wantsHeld (q : ChanQ) : Bool :=
  q.part.length + 16 ≤ bankPart && q.h < q.t && q.h + 4 * min 16 ((q.t - q.h) / 4) > q.t - 4 * q.held.length

/-- Is a refill due (R263)? -/
def BudBank.refillDue (b : BudBank) : Bool := b.mode == .fifo && b.q.h < b.q.t && b.q.part.length + 16 ≤ bankPart

/-- Does the load bind a queue tile to bank k (R264)? -/
def Fab.owns (f : Fab) (k : Nat) : Bool := f.tiles.any (fun e => agMode e.2.ctrl == 3 && agTgt e.2.ctrl == k)

/-- Is no memory access of the load outstanding, and no refill of its queues due (R134, R263, R264, R286)? -/
def Ctx.quiet (x : Ctx) : Bool :=
  x.fab.cells.all (fun e => e.2.acc.isEmpty && e.2.busy.isNone && e.2.waitBlk.isEmpty)
    && x.joins.all (fun j => j.out == 0)
    && x.fab.tiles.all (fun e => e.2.dm.isEmpty) && x.banks.all (fun b => b.q.held.isEmpty)
    && (x.fab.stopped || x.fab.again.isEmpty) && (x.fab.stopped || (List.range x.banks.length).all (fun k => !(x.fab.owns k && (x.banks[k]?).any (·.refillDue))))

/-- The end condition of R134. -/
def Ctx.loadDone (x : Ctx) : Bool :=
  x.fab.cells.all (fun e => e.2.done && e.2.held.isEmpty) && x.fab.portDone && x.fab.quiet && x.quiet && x.mn.cmds.isEmpty

/-- The commands of the ce.cmd port go with their load. -/
def State.dropCmds (s : State) (c : CtxId) : State :=
  s.updCore (coreOf c) (fun k => { k with ceCmds := k.ceCmds.filter (fun e => !(e.ctx == c && e.cell.isNone)) })

/-- The load of a context ends with a status. -/
def State.endLoad (s : State) (c : CtxId) (status : Nat) : State :=
  (s.updCtx c (fun x => { x with cur := { x.cur with st := .ended, endSt := status }, near := [], fab := { x.fab with held := false } })).dropCmds c

/-- A matrix-node command at a stop (R225): one not started is discarded, with a TLOAD's loaded bit restored; a started compute command is
kept to its next boundary, but one that has faulted in a load still held goes with the hold (R390); a drain reads no further. -/
def Mn.stopAll (m : Mn) (held : Bool) : Mn :=
  let undone := m.cmds.filter (fun k => !k.started)
  { m with cmds := m.cmds.filter (fun k => k.started && bits k.tok 63 60 < 6 && !(held && k.failed))
           tabs := undone.reverse.foldl (fun l k => match k.undo with
             | some b => modAt (fun t => { t with loaded := b }) l (bits k.tok 30 30)
             | none => l) m.tabs }

/-- The hold of a load released: a command that faulted is attempted again (R390). -/
def Mn.release (m : Mn) : Mn := { m with cmds := m.cmds.map (fun k => { k with failed := false }) }

/-- A cell at a stop (R194): its firing state goes, its started accesses and the request it waits for stay. A faulted access, or a copy packet
refused by the engine (busy 1), goes with the hold (R390); an access that took effect under the hold is over. A closed block of an ACPUT that has not
been sent is discarded: DESIGN CHOICE (log 127). -/
def Cell.stop (k : Cell) (held : Bool) : Cell :=
  let b := if held && wOp k.word == 0x71 && k.busy == some 1 then none else k.busy
  { Cell.fresh k.word with acc := k.acc.filter (fun a => a.res.isNone && !(held && a.failed)), busy := b, buf := if b.isSome then k.buf else [] }

/-- The stop of R194 on one core: cells, tiles and queues are discarded, started accesses stay. -/
def State.stopLoad (s : State) (c : CtxId) (status : Nat) : State :=
  (s.updCtx c (fun x =>
    { x with
      fab := { x.fab with
        stopped := true
        held := false
        again := []
        stopAt := some (s.time, status)
        cb := List.replicate 32 0
        cells := x.fab.cells.map (fun e => (e.1, e.2.stop x.fab.held))
        tiles := x.fab.tiles.map (fun e => (e.1, { e.2 with running := false, pk := [], inp := Part.blank 0, par := Part.blank 0, parm := [], dm := e.2.dm.filter (·.2.isNone) }))
        ports := x.fab.ports.map (fun e => (e.1, Port.fresh))
        segs := x.fab.segs.map (fun g => { g with branches := g.branches.map (fun b => { b with fly := [], rev := [], cum := 0 }), closed := 0, fwd := 0, relay := g.relay.map (fun _ => []), relayOwed := 0 }) }
      mn := x.mn.stopAll x.fab.held })).dropCmds c

/-- LOAD_END: the load ends on a core at the end condition, or, once stopped, when no access is outstanding (R134, R194). -/
def execLoadEnd (c : CtxId) (s : State) : Out :=
  let x := s.ctx c
  if x.cur.st != .running then .next s
  else if x.fab.stopped then
    (if x.quiet && x.mn.cmds.isEmpty then .next (s.endLoad c (x.fab.stopAt.getD (0, 2)).2) else .next s)
  else if x.fab.held || !x.loadDone then .next s
  else .next (s.endLoad c 1)

/-- QUANTUM_EXPIRE: at the end of cycle s + Q - 1 the load ends with status 1 or is stopped with status 3 (R192, R375). -/
def execQuantumExpire (lid : Nat) (s : State) : Out :=
  match s.leaseAt lid with
  | none => .next s
  | some l =>
    if l.quantum == 0 || s.time + 1 < l.start + l.quantum + l.slip || l.frozen.isSome then .next s
    else
      let s := s.putLease lid { l with quantum := 0 }
      .next (l.ctxs.foldl (fun s c =>
        let x := s.ctx c
        if x.cur.st != .running || x.fab.start != l.start || x.fab.stopped then s
        else if x.loadDone && !x.fab.held then s.endLoad c 1
        else s.stopLoad c 3) s)

/-- LOAD_STOP: at cycle e the load of the lease is stopped on every core where it still runs; where its end condition holds already it has ended
with status 1 (R194). -/
def execLoadStop (lid : Nat) (s : State) : Out :=
  match s.leaseAt lid with
  | none => .next s
  | some l =>
    match l.stopAt with
    | none => .next s
    | some e =>
      if s.time < e || l.frozen.isSome then .next s
      else .next (l.ctxs.foldl (fun s c =>
        let x := s.ctx c
        if x.cur.st != .running || x.fab.start != l.start || x.fab.stopped then s
        else if x.loadDone && !x.fab.held then s.endLoad c 1
        else s.stopLoad c 2) s)

/-- CFG.WAIT (R193). -/
def execCfgWait (g : Guard) (d : BitVec 5) (s : State) : Out :=
  s.issue g (fun c => c.pends d) (fun c =>
    if c.cur.st == .running then s.waitFor s.cur (.cfgWait d)
    else s.setCtx s.cur (c.setReg d (BitVec.ofNat 64 c.cur.endSt)).advance)

/-- CFG.STOP (R194, R204). -/
def execCfgStop (g : Guard) (s : State) : Out :=
  s.issue g (fun _ => false) (fun c =>
    let l := s.leaseFor s.cur
    let on := c.ran && l.stopAt.isNone && l.ctxs.any (fun e => (s.ctx e).cur.st == .running && (s.ctx e).fab.start == l.start && !(s.ctx e).fab.stopped)
    let s' := if on then s.putLease (s.lidOf s.cur) { l with stopAt := some (s.time + l.span) } else s
    s'.setCtx s.cur { c with missed := [], miss := false }.advance)

/-- CFG.DROP (R195, R204). END of a dropped slot is 0: DESIGN CHOICE (log 104). -/
def execCfgDrop (g : Guard) (sl : BitVec 1) (s : State) : Out :=
  s.issue g (fun _ => false) (fun c =>
    let k := if sl == 0 then c.nxt else c.cur
    if k.st == .running || k.st == .loading then s.raise s.cur (cfgState (.cfgDrop g sl) 2)
    else if sl == 0 then s.setCtx s.cur { c with nxt := Slot.blank }.advance
    else s.setCtx s.cur { c with cur := Slot.blank, missed := [], miss := false }.advance)

/-- The code of a slot state (R185). -/
def SlotSt.code : SlotSt → Nat
  | .empty => 0
  | .loading => 1
  | .ready => 2
  | .running => 3
  | .ended => 4

/-- The word of R196 Table 3. -/
def Ctx.statWord (c : Ctx) : W64 :=
  let id (k : Slot) : Nat := if k.st == .empty then 0 else k.id
  BitVec.ofNat 64 (id c.cur * 2 ^ 48 + id c.nxt * 2 ^ 32 + (if c.miss then 2 ^ 11 else 0) + c.cur.endSt * 2 ^ 8 + c.nxt.st.code * 16 + c.cur.st.code)

/-- CFG.STAT (R196, R443). -/
def execCfgStat (g : Guard) (d : BitVec 5) (s : State) : Out :=
  s.issue g (fun c => c.pends d) (fun c =>
    if c.det then s.raise s.cur (detOrder (.cfgStat g d))
    else s.setCtx s.cur (c.setReg d c.statWord).advance)

/-! ### Shapes (R197 to R199) -/

/-- Column groups of a SHAPE word, bit by bit. -/
def shapeGroups (v : W64) : Nat := if v.getLsbD 31 then bits v 35 32 else 0

/-- The column groups held on a core. -/
def State.groups (s : State) (core : CoreId) : Nat :=
  (List.range 4).foldl (fun m b => m ||| shapeGroups (s.ctx (4 * core + b)).shape) 0

/-- The lowest run of n free adjacent groups (R198). -/
def freeRun (held n : Nat) : Option Nat := (List.range (5 - n)).find? (fun i => held &&& ((2 ^ n - 1) * 2 ^ i) == 0)

/-- The grant of a request word at group i (R197, R198). -/
def grantWord (v : W64) (i : Nat) : W64 := setBits (setBits v 35 32 ((2 ^ (bits v 17 16 + 1) - 1) * 2 ^ i)) 31 31 1

/-- Is a request word valid (R198 step 2)? -/
def shapeValid (v : W64) : Bool := bits v 63 32 == 0 && !v.getLsbD 31 && bits v 30 20 == 0 && bits v 15 7 == 0

/-- A grant given: the accumulators hold +0 (R198, R213). -/
def Ctx.grant (x : Ctx) (d : BitVec 5) (v : W64) : Ctx := { x.setReg d v with shape := v, mn := Mn.blank }

/-- Contexts whose SHAPE.REQ waits, in issue order (R198). -/
def State.shapeWaiters (s : State) (core : CoreId) : List CtxId :=
  (s.core core).shapeQ.filter (fun c => match (s.ctx c).wait with | some (.shape _) => true | _ => false)

/-- SHAPE.REQ (R198). -/
def execShapeReq (g : Guard) (d : BitVec 5) (f : BitVec 1) (s : State) : Out :=
  s.issue g (fun c => c.pends d) (fun c =>
    let core := coreOf s.cur
    let v := c.reg d
    if c.cur.st == .running || c.shape.getLsbD 31 then s.raise s.cur (cfgState (.shapeReq g d f) 3)
    else if !shapeValid v then s.raise s.cur (cfgState (.shapeReq g d f) 7)
    else
      let run := if (s.shapeWaiters core).isEmpty then freeRun (s.groups core) (bits v 17 16 + 1) else none
      match run with
      | some i => s.setCtx s.cur (c.grant d (grantWord v i)).advance
      | none =>
        if f == 1 then s.setCtx s.cur (c.setReg d 0).advance
        else (s.updCore core (fun k => { k with shapeQ := k.shapeQ.filter (· != s.cur) ++ [s.cur] })).waitFor s.cur (.shape d))

/-- SHAPE_GRANT: the oldest waiting request of a core is granted, of a gated context when it is ungated (R198, R392). -/
def execShapeGrant (core : CoreId) (s : State) : Out :=
  match s.shapeWaiters core with
  | [] => .next s
  | c :: _ =>
    match if (s.ctx c).gated then none else (s.ctx c).wait with
    | some (.shape d) =>
      let v := (s.ctx c).reg d
      (match freeRun (s.groups core) (bits v 17 16 + 1) with
       | some i => .next ((s.updCore core (fun k => { k with shapeQ := k.shapeQ.filter (· != c) })).retire c (fun x => x.grant d (grantWord v i)))
       | none => .next s)
    | _ => .next s

/-- SHAPE.REL (R199). -/
def execShapeRel (g : Guard) (s : State) : Out :=
  s.issue g (fun _ => false) (fun c =>
    if c.cur.st == .running then s.raise s.cur (cfgState (.shapeRel g) 3)
    else if !c.shape.getLsbD 31 then s.setCtx s.cur c.advance
    else if c.mn.cmds.isEmpty then s.setCtx s.cur { c with shape := 0, mn := Mn.blank }.advance
    else s.waitFor s.cur .shapeRel)

/-- SHAPE_RELEASE_DONE: the node holds no token of the context, and the grant is freed, for a waiting SHAPE.REL or a STOPPED context (R199). -/
def execShapeReleaseDone (c : CtxId) (s : State) : Out :=
  let x := s.ctx c
  if !x.mn.cmds.isEmpty then .next s
  else match x.st, if x.gated then none else x.wait with
    | .stopped, _ => .next (s.setCtx c { x with shape := 0, mn := Mn.blank })
    | .waiting, some .shapeRel => .next (s.retire c (fun x => { x with shape := 0, mn := Mn.blank }))
    | _, _ => .next s

/-! ### Parameters and sequencer streams (R200 to R202) -/

/-- Is a parameter token valid (R128, R200 cause 5)? -/
def parmOk (sel val : Nat) : Bool := sel ≤ 5 && !(sel ≥ 1 && val ≥ 2 ^ 24)

/-- A record's field replaced by a parameter token (R128). -/
def sectParm (sect : Mem) (n sel val : Nat) : Mem :=
  let a := 0x1400 + 64 * n
  if sel == 0 then sect.setBytes a (toBytes 4 val)
  else if sel == 1 then sect.setBytes (a + 4) (toBytes 4 val)
  else sect.setBytes (a + 8 + 8 * (sel - 2)) (toBytes 4 val)

/-- PARM.WR (R200). Where causes 4 and 5 both apply it raises 4: DESIGN CHOICE (log 105). -/
def execParmWr (g : Guard) (tile : BitVec 4) (a b : BitVec 5) (s : State) : Out :=
  let n := tile.toNat
  let usable (c : Ctx) : Bool :=
    if c.cur.st == .running then
      !imgBound (sectImg c.cur.sect) 0 (32 + n) && (match c.fab.tiles.get? n with | some t => !t.done | none => false)
    else c.nxt.st == .ready && agEn (agRec (sectImg c.nxt.sect) (0x1400 + 64 * n)).ctrl
  s.issue g (fun c => c.cur.st == .running && usable c && (match c.fab.tiles.get? n with | some t => !t.parm.isEmpty | none => false)) (fun c =>
    let sel := bits (c.reg a) 31 0
    let val := bits (c.reg b) 31 0
    if !usable c then s.raise s.cur (cfgState (.parmWr g tile a b) 4)
    else if !parmOk sel val then s.raise s.cur (cfgState (.parmWr g tile a b) 5)
    else if c.cur.st == .running then
      match c.fab.tiles.get? n with
      | some t => s.setCtx s.cur { c with fab := c.fab.setTile n { t with parm := t.parm ++ [(BitVec.ofNat 32 sel, BitVec.ofNat 32 val)] } }.advance
      | none => s
    else s.setCtx s.cur { c with nxt := { c.nxt with sect := sectParm c.nxt.sect n sel val } }.advance)

/-- Elements entering a packer of type ty: packets that must close, oldest first, and what stays (R119, R201). wait: a cycle has passed without an
SQ.SEND, so that the packet that stands in the packer must close first. -/
def packIn (pk : List W32) (pkTy : Nat) (wait : Bool) (els : List W32) (ty : Nat) : List (List W32 × Nat) × List W32 :=
  let first := if !pk.isEmpty && (wait || pkTy != ty) then [(pk, pkTy)] else []
  let all := (if first.isEmpty then pk else []) ++ els
  if all.length ≥ 8 then (first ++ [(all.take 8, ty)], all.drop 8) else (first, all)

/-- SQ.SEND of elements or of a marker (R201). -/
def State.sqSend (s : State) (g : Guard) (i : Instr) (els : Ctx → List W32) (ty mark : Nat) : Out :=
  let port (c : Ctx) : Option Port := if c.cur.st == .running then c.fab.port? 56 else none
  let work (c : Ctx) (p : Port) : List Packet × List W32 :=
    if mark == 0 then
      let (out, rest) := packIn p.pk p.pkTy (p.pkAt + 1 < s.time) (els c) ty
      (out.map (fun q => c.packet q.1 0 q.2 false), rest)
    else ((if p.pk.isEmpty then [] else [c.packet p.pk 0 p.pkTy false]) ++ [c.packet [] mark 0 false], [])
  s.issue g (fun c => match port c with
      | some p => !p.eos && !c.fab.canClose (.port 56) (work c p).1.length
      | none => false) (fun c =>
    match port c with
    | some p =>
      if p.eos then s.raise s.cur (cfgState i 6)
      else
        let (out, rest) := work c p
        let f := (c.fab.setPort 56 { p with pk := rest, pkTy := if mark == 0 then ty else 0, pkAt := s.time, eos := mark == 2 }).closeAll (.port 56) out
        s.setCtx s.cur { c with fab := f }.advance
    | none => s.raise s.cur (cfgState i 6))

/-- SQ.SEND (R201). -/
def execSqSend (g : Guard) (a : BitVec 5) (ty : BitVec 3) (s : State) : Out :=
  s.sqSend g (.sqSend g a ty) (fun c => [(c.reg a).truncate 32]) ty.toNat 0
/-- SQ.SEND.X2 (R201). -/
def execSqSendX2 (g : Guard) (a : BitVec 5) (ty : BitVec 3) (s : State) : Out :=
  s.sqSend g (.sqSendX2 g a ty) (fun c => [(c.reg a).truncate 32, (c.reg a >>> 32).truncate 32]) ty.toNat 0
/-- SQ.SEND.EOI (R201). -/
def execSqSendEoi (g : Guard) (s : State) : Out := s.sqSend g (.sqSendEoi g) (fun _ => []) 0 1
/-- SQ.SEND.EOS (R201). -/
def execSqSendEos (g : Guard) (s : State) : Out := s.sqSend g (.sqSendEos g) (fun _ => []) 0 2

/-- The value SQ.RECV takes from a head (R202). -/
def recvValue : QItem → W64
  | .el v _ => v.zeroExtend 64
  | .marker k => BitVec.ofNat 64 (k * 2 ^ 32)

/-- The head of seq.in taken (R202). -/
def Ctx.recv (c : Ctx) (d : BitVec 5) : Option Ctx :=
  match c.fab.port? 55 with
  | some p =>
    match p.part.items with
    | i :: _ => some { (c.setReg d (recvValue i)) with fab := c.fab.setPort 55 { p with part := p.part.pop 1 } }
    | [] => none
  | none => none

/-- SQ.RECV (R202). In a load that has been stopped and not yet ended it waits, and WAIT_SATISFIED gives it the value of a stop. -/
def execSqRecv (g : Guard) (d : BitVec 5) (s : State) : Out :=
  s.issue g (fun c => c.pends d) (fun c =>
    if c.cur.st != .running || (c.fab.port? 55).isNone then s.raise s.cur (cfgState (.sqRecv g d) 6)
    else match c.recv d with
      | some c => s.setCtx s.cur c.advance
      | none => s.waitFor s.cur (.sqRecv d))

/-! ### Errors in the configuration store (R136) -/

/-- CONFIG_STORE_ECC: a running load reads an entry with a double-bit error; unit is the unit's number of R136 and R135 Table 4. -/
def execConfigStoreEcc (c : CtxId) (unit : Nat) (s : State) : Out :=
  let x := s.ctx c
  if x.cur.st != .running || x.fab.stopped || !confUnit unit then .next s
  else
    let s := s.updCtx c (fun x => { x with cur := { x.cur with bad := unit :: x.cur.bad } })
    .next (s.fabFault c (confTrap unit))

end Sys2Proof.Machine
end

