-- ==== Sys2Proof/Machine/Device.lean ====
section
/-! DEFINITION. Device memory as the sequencer reaches it: the L2, the mesh, the walker, device-scope atomics, fences, counters, barriers, residency
handles and TLB maintenance (R265 to R275, R280 to R283, R289 to R292, R295 to R310, R350, R426). -/

namespace Sys2Proof.Machine

/-! ### Routing on the mesh (R272 to R275) -/

/-- The output port towards a core: 0 L, 1 N, 2 E, 3 S, 4 W; x first, then y (R272, R415). -/
def meshPort (fr dst : CoreId) : Nat :=
  if coreX fr < coreX dst then 2 else if coreX dst < coreX fr then 4
  else if coreY fr < coreY dst then 3 else if coreY dst < coreY fr then 1 else 0

/-- The core beyond an output port. -/
def meshNext (k : CoreId) (port : Nat) : CoreId :=
  if port == 1 then k - 20 else if port == 2 then k + 1 else if port == 3 then k + 20 else if port == 4 then k - 1 else k

/-- The input at which a flit sent out of a port arrives. -/
def meshInput (port : Nat) : Nat := if port == 1 then 3 else if port == 2 then 4 else if port == 3 then 1 else if port == 4 then 2 else 0

/-- The head flit of an input and VC of a router. -/
def State.headFlit (s : State) (k : CoreId) (inp vc : Nat) : Option Flit := s.flits.find? (fun f => f.at_ == k && f.inp == inp && f.vc == vc)

/-- Flits held at an input and VC of a router. -/
def State.flitsAt (s : State) (k : CoreId) (inp vc : Nat) : Nat := (s.flits.filter (fun f => f.at_ == k && f.inp == inp && f.vc == vc)).length

/-- A flit that has passed into a router in an earlier cycle has been latched there: it is a head of age 0 (R274, R275). -/
def Flit.settle (t : Nat) (f : Flit) : Flit := if f.hops != 0 && f.since < t then { f with hops := 0, age := 0 } else f

/-- The heads that compete for an output port: latched in an earlier cycle, or passing in this one (R274, R275). -/
def State.competing (s : State) (k : CoreId) (port : Nat) : List Flit :=
  ((List.range 4).map (fun vc => (List.range 5).filterMap (fun inp =>
    match s.headFlit k inp vc with
    | some f =>
      if (f.since < s.time || f.hops != 0) && meshPort k f.dst == port
          && (port == 0 || s.flitsAt (meshNext k port) (meshInput port) vc < 4) then some f else none
    | none => none))).flatten

/-- The arbiter of an output port. -/
def State.arb (s : State) (k : CoreId) (port : Nat) : PortArb :=
  (s.ports.get? (5 * k + port)).getD ⟨0, bits (s.mgv (0x0101 + 16 * dieOf k)) 3 0, [0, 0, 0, 0], none⟩

/-- The winner of an arbitration and the arbiter after it (R275). -/
def meshGrant (a : PortArb) (weight : Nat → Nat) (ageMax : Nat) (c : List Flit) : Option (Flit × PortArb) :=
  match c with
  | [] => none
  | h :: t =>
    let old := t.foldl (fun m f => if f.age > m.age then f else m) h
    if old.age ≥ ageMax then some (old, a)
    else
      let has (v : Nat) : Bool := c.any (fun f => f.vc == v)
      let a := if a.r == 0 || !has a.v then
          (match [a.v + 1, a.v + 2, a.v + 3, a.v].find? (fun v => has (v % 4)) with
           | some v => { a with v := v % 4, r := weight (v % 4) }
           | none => a)
        else a
      let rr := a.rr.getD a.v 0
      match [rr, rr + 1, rr + 2, rr + 3, rr + 4].findSome? (fun i => c.find? (fun f => f.vc == a.v && f.inp == i % 5)) with
      | some f => some (f, { a with r := a.r - 1, rr := modAt (fun _ => (f.inp + 1) % 5) a.rr a.v })
      | none => none

/-- A request's flit sent from a core, behind what stands there (R272, R273). -/
def State.sendFlit (s : State) (req : Nat) (resp : Bool) (vc : Nat) (fr tgt : CoreId) : State :=
  { s with flits := s.flits ++ [{ req := req, resp := resp, vc := vc, at_ := fr, inp := 0, dst := tgt, age := 0, since := s.time, hops := 0 }] }

/-- A device request changed. -/
def State.updReq (s : State) (id : Nat) (f : DReq → DReq) : State := { s with dreqs := updFirst (fun r => r.id == id) f s.dreqs }

/-- The core of a requester. -/
def Who.core : Who → CoreId
  | .ctx c => coreOf c
  | .tile c _ => coreOf c
  | .spill c _ => coreOf c
  | .engine k _ _ => k

/-- The stop at which a request is performed; a remote page's requests leave by the requester's own die (R265, R426). -/
def State.performCore (s : State) (r : DReq) : CoreId := if s.isLocal r.pa then s.homeCore r.pa else r.who.core

/-- A request whose flit cannot cross a link completes at its requester with HW_ERROR; the address is that of the request (R405, R408). -/
def State.reqLost (s : State) (r : DReq) (src : Nat) : State :=
  let t := hwTrap src (BitVec.ofNat 64 r.va)
  let out (s : State) : State := { s with dreqs := s.dreqs.filter (fun q => q.id != r.id), flits := s.flits.filter (fun f => f.req != r.id) }
  match r.who with
  | .ctx c =>
    (match (s.ctx c).ops.find? (fun o => o.body == .dev r.id) with
     | some o => if s.retired o then ((out s).updCtx c (fun x => x.finishOp o.id)).raise c t else (out s).lateTrap c o.id r.ipc t
     | none => (out s).raise c t)
  | _ => out s

/-- The side of a core that a mesh port other than L leads to: 0 N, 1 E, 2 S, 3 W. -/
def portSide (port : Nat) : Nat := port - 1

/-- Does a port of a router lead over a seam (R415)? -/
def seamPort (k : CoreId) (port : Nat) : Bool := port != 0 && dieOf k != dieOf (meshNext k port)

/-- A granted flit at the next router: it passes on in this cycle, or its segment ends there and it is latched: at the destination, before a turn, at
the eighth router, at the last router before a seam, and at the first beyond it (R274, R416). -/
def Flit.cross (t : Nat) (k : CoreId) (port : Nat) (f : Flit) : Flit :=
  let n := meshNext k port
  let on := f.hops + 1 < 8 && n != f.dst && meshPort n f.dst == port && !seamPort k port && !seamPort n port
  { f with at_ := n, inp := meshInput port, since := t, hops := if on then f.hops + 1 else 0, age := if on then f.age else 0 }

/-- MESH_ARBITRATION: an output port grants one head flit in a cycle, which moves to the next router or leaves to its stop (R274, R275, R405). -/
def execMeshArbitration (core : CoreId) (port : Nat) (s₀ : State) : Out :=
  let s := { s₀ with flits := s₀.flits.map (Flit.settle s₀.time) }
  let w := s.mgv (0x0101 + 16 * dieOf core)
  let c := s.competing core port
  if (s.arb core port).last == some s.time then .next s₀
  else match meshGrant (s.arb core port) (fun v => bits w (4 * v + 3) (4 * v)) (bits (s.mgv (0x0102 + 16 * dieOf core)) 6 0) c with
  | none => .next s₀
  | some (f, a) =>
    let rest := (s.flits.erase f).map (fun g => if c.contains g then { g with age := min (g.age + 1) 127 } else g)
    let s := { s with flits := rest, ports := s.ports.set (5 * core + port) { a with last := some s.time } }
    if port != 0 then
      match s.deadAt core (portSide port) true with
      | some src => .next (match s.dreqs.find? (fun r => r.id == f.req) with | some r => s.reqLost r src | none => s)
      | none => .next { s with flits := s.flits ++ [f.cross s.time core port] }
    else match s.dreqs.find? (fun r => r.id == f.req) with
      | none => .next s
      | some r =>
        if f.resp then .next (s.updReq r.id (fun r => { r with stage := .done }))
        else if s.performCore r != core then .next (s.sendFlit r.id false f.vc core (s.performCore r))
        else .next (s.updReq r.id (fun r => { r with stage := .home }))

/-! ### Requests of the sequencer (R296, R297, R302) -/

/-- Steps 1 to 3 of R296 on an operand: alignment, high bits from hi down, translation; a page of another package for the units of R426 alone. -/
def State.devTrans (s : State) (c : CtxId) (ea : W64) (size hi : Nat) (need : Need) (remote : Bool) : SeqX :=
  if ea.toNat % size != 0 then .fault s ⟨0x02, ea, BitVec.ofNat 16 size⟩
  else if bits ea hi 56 != 0 then .fault s (xlatTrap ea.toNat 6 0 need.wr)
  else
    let va := bits ea 55 0
    let x := s.seqXlate c va need
    if remote then x else s.onlyLocal (coreOf c) (dieOf (coreOf c)) (s.ctx c).asid.toNat va need.wr x

/-- Operand checks of R296: the operand's alignment, its high bits from hi down, translation, tenant, ECC. unstarted translations hold. -/
def State.devOperand (s : State) (c : CtxId) (ea : W64) (size hi : Nat) (need : Need) (remote : Bool) : SeqX :=
  match s.devTrans c ea size hi need remote with
  | .ok pa =>
    if !s.isLocal pa then .ok pa
    else match s.accessFault (s.ctx c).ten.toNat (some (dieOf (coreOf c))) (bits ea 55 0) pa size with
      | some t => .fault (s.noteRefusal (coreOf c) (s.ctx c).ten.toNat pa t) t
      | none => .ok pa
  | x => x

/-- A request entered, on its way to its home slice, counted in CNT.LD or CNT.ST (R295). -/
def State.devSend (s : State) (c : CtxId) (isStore : Bool) (d : BitVec 5) (va pa : Nat) (kind : DKind) (vc : Nat) : State :=
  let x := s.ctx c
  let id := s.dreqN
  let r : DReq := { id := id, ipc := x.ipc, who := .ctx c, ten := x.ten.toNat, asid := x.asid.toNat, va := va, pa := pa, kind := kind, stage := .out,
                    res := 0, data := [], fault := none, checked := false }
  let s := { s with dreqs := s.dreqs ++ [r], dreqN := id + 1 }
  (s.sendFlit id false vc (coreOf c) (s.performCore r)).setCtx c (x.pushOp isStore d (.dev id)).advance

/-- Does a request precede another of the same requester on the same line (R297)? -/
def State.blockedReq (s : State) (r : DReq) : Bool :=
  s.dreqs.any (fun q => q.id < r.id && q.who == r.who && lineOf q.pa == lineOf r.pa && (q.stage == .out || q.stage == .home))

/-- Has context c a request on the line of pa that is not performed? -/
def State.lineBusy (s : State) (c : CtxId) (pa : Nat) : Bool :=
  s.dreqs.any (fun q => q.who == .ctx c && lineOf q.pa == lineOf pa && (q.stage == .out || q.stage == .home))

/-- An answer on its way back (R273). -/
def State.answer (s : State) (r : DReq) (res : W64) (data : List Byte) (fault : Option Trap) : State :=
  (s.updReq r.id (fun q => { q with stage := .back, res := res, data := data, fault := fault })).sendFlit r.id true
    (if data.isEmpty && r.kind matches .write _ then 3 else 2) (s.performCore r) r.who.core

/-! ### Near cache (R259 to R261) -/

/-- Number of CACHE banks. -/
def Ctx.cacheBanks (x : Ctx) : Nat := (x.banks.filter (fun b => b.mode == .cache)).length

/-- Bank and set of a block (R259). -/
def nearSet (c pa : Nat) : Nat × Nat := (pa / 64 % c, pa / 64 % 2048)

/-- A written range updated in the near cache, never allocated (R261, R297). -/
def Ctx.nearWrite (x : Ctx) (pa : Nat) (bs : List Byte) : Ctx :=
  { x with near := x.near.map (fun b => { b with bytes := (List.range b.bytes.length).map (fun i =>
      if pa ≤ b.pa + i && b.pa + i < pa + bs.length then bs.getD (b.pa + i - pa) 0 else b.bytes.getD i 0) }) }

/-- Blocks kept in a set when a block of n words enters: the most recently used that fit with it in eight slots. -/
def nearTrim (c : Nat) (key : Nat × Nat) : Nat → List NearBlk → List NearBlk
  | _, [] => []
  | room, b :: t =>
    if nearSet c b.pa == key then
      (if b.bytes.length / 8 ≤ room then b :: nearTrim c key (room - b.bytes.length / 8) t else nearTrim c key 0 t)
    else b :: nearTrim c key room t

/-- A block entered into the near cache, least recently used blocks of its set leaving (R259, R260). -/
def Ctx.nearFill (x : Ctx) (b : NearBlk) : Ctx :=
  let c := x.cacheBanks
  { x with near := b :: nearTrim c (nearSet c b.pa) (8 - b.bytes.length / 8) (x.near.filter (fun o => !(o.pa < b.pa + b.bytes.length && b.pa < o.pa + o.bytes.length))) }

/-- The entries that a walk reads, in order (R289): the root, and one for each level reached. -/
def State.walkPath (s : State) (va : Nat) : Nat → Nat → Nat → List Nat
  | 0, _, _ => []
  | fuel + 1, t, lvl =>
    let a := t + 8 * (va / 2 ^ (43 - 13 * lvl) % 2 ^ 13)
    let e := s.dev64 a
    a :: (if !e.getLsbD 0 || e.getLsbD 1 || bits e 15 2 != 0 || lvl == 2 || !s.tableOk (bits e 63 16 * 2 ^ 16) then []
          else s.walkPath va fuel (bits e 63 16 * 2 ^ 16) (lvl + 1))

/-- What a walk's reads do to the L2 and the cache layer: each entry is read through its home slice, untagged (R280, R289). -/
def State.walkReads (s : State) (die asid va : Nat) : State :=
  let root := (s.mgv (0x0100 + 16 * die + 3)).toNat + 8 * asid
  let e := s.dev64 root
  let more := if !e.getLsbD 0 || bits e 15 1 != 0 || !s.tableOk (bits e 63 16 * 2 ^ 16) then [] else s.walkPath va 3 (bits e 63 16 * 2 ^ 16) 0
  (root :: more).foldl (fun s a => s.l2Home 2048 a a) s

/-- The translation that a unit's access has used, cached (R291). -/
def State.tlbUse (s : State) (core : CoreId) (die asid va : Nat) : State :=
  match s.tlbHit core die asid va with
  | some e => s.fillTlb die core asid ⟨e.va, e.size, e.pa, e.rd, e.wr, false, e.lvl⟩
  | none =>
    match s.walk die asid va with
    | .ok l => if l.mig then s else s.fillTlb die core asid l
    | .error _ => s

/-- What a granted access of a unit does to the TLBs, the L2 and the cache layer (R266 to R271, R280, R281, R291). die walks for it; home is its own
compute die. -/
def State.reach (s : State) (core : CoreId) (die : Nat) (home : Option Nat) (asid va pa n : Nat) (wr : Bool) : State :=
  let s := s.tlbUse core die asid va
  if s.isLocal pa then s.l2Span home asid va pa n wr else s

/-! ### Reads through the near cache (R258 to R261) -/

/-- Must an access to the near cache wait for the zeroing of the bank that an address maps to (R258, R259)? -/
def Ctx.nearWaits (x : Ctx) (pa : Nat) : Bool :=
  match (x.banks.filter (fun b => b.mode == .cache))[pa / 64 % max 1 x.cacheBanks]? with
  | some b => b.zeroing
  | none => false

/-- The value of n bytes of one 8-byte word read through a context's near cache (R259 to R261). -/
def State.nearVal (s : State) (c : CtxId) (pa n : Nat) : List Byte :=
  match (s.ctx c).near.find? (fun b => b.pa ≤ pa && pa + n ≤ b.pa + b.bytes.length) with
  | some b => (b.bytes.drop (pa - b.pa)).take n
  | none => s.devBytes pa n

/-- What such a read does: a hit makes its block the most recently used; a miss goes to the L2 and fills a block (R259, R260, R266). -/
def State.nearNote (s : State) (c : CtxId) (asid va pa n : Nat) : State :=
  let x := s.ctx c
  match x.near.find? (fun b => b.pa ≤ pa && pa + n ≤ b.pa + b.bytes.length) with
  | some b => s.setCtx c { x with near := b :: x.near.erase b }
  | none =>
    let t := s.l2Span (some (dieOf (coreOf c))) asid va pa n false
    if x.cacheBanks == 0 then t
    else
      let size := 8 * 2 ^ (Config.nearBlock s.free % 4)
      let base := pa / size * size
      { t.setCtx c ((t.ctx c).nearFill ⟨base, s.devBytes base size⟩) with free := s.free + 1 }

/-! ### The rows of the L2 and the cache layer -/

/-- Does a pending request stand at its home for a line that the L2 does not hold (R266)? -/
def State.missing (s : State) (r : DReq) : Bool := r.stage == .home && s.isLocal r.pa && (s.homeLine r.pa).isNone

/-- What refuses a request where it is performed, unless its checks have been made there (R21, R268, R282, R404, R421, R426). -/
def State.reqFault (s : State) (r : DReq) (len : Nat) : Option Trap :=
  if s.isLocal r.pa && !r.checked then s.grantFault r.ten (some (dieOf r.who.core)) r.va r.pa len ⟨!(r.kind matches .write _), true⟩ else none

/-- Bytes that a request touches. -/
def DKind.size : DKind → Nat
  | .read n => n
  | .write b => b.length
  | .amo _ n _ _ => n
  | .afadd _ _ _ => 16
  | .barArr => 64
  | .barReg _ => 64
  | .cntRead => 8

/-- L2_FILL: the line of a request that has missed enters its home slice, once the cache layer holds its sector, and only for a request that the
channel accepts (R266, R270, R271, R282). -/
def execL2Fill (die pa handle : Nat) (s : State) : Out :=
  match s.dreqs.find? (fun r => s.missing r && lineOf r.pa == lineOf pa && s.ownerDie (stackOf r.pa) == die && s.handleOf die r.asid r.va == handle) with
  | none => .next s
  | some r =>
    if (s.reqFault r r.kind.size).isSome then .next s
    else if s.hbm.any (fun b => b.blk == memKey r.pa / 4096 * 4096 && b.valid.contains (memKey r.pa / 256 % 16)) then .next (s.l2Put die r.asid r.va r.pa)
    else .next s

/-- L2_WAY_CONVERT: a slice converts its ways after a write to L2REMW (R269). An armed line in a way that joins remote use keeps its residence in a way
that stays local, which the limits of 8 leave free of armed lines (R309). -/
def execL2WayConvert (die slice : Nat) (s : State) : Out :=
  match (s.die die).convert.get? slice with
  | none => .next s
  | some old =>
    let new := bits (s.mgv (0x0100 + 16 * die)) 3 0
    let gone (l : L2Line) : Bool := sliceOf l.pa == slice && 16 - max old new ≤ l.way && l.way < 16 - min old new
    let lines := (s.die die).l2.filter gone
    let s := (lines.filter (fun l => !l.armed)).foldl (fun s l => s.l2Evict die l) s
    let s := s.updDie die (fun d => { d with l2 := d.l2.filter (fun l => !gone l) })
    let s := (lines.filter (·.armed)).foldl (fun s l => s.l2Insert die (List.range (16 - max old new)) l) s
    .next (s.updDie die (fun d => { d with convert := d.convert.erase slice }))

/-- CACHE_LAYER_FILL: the sector of a request that has missed the L2 is filled, its block allocated, once the channel has accepted the request (R280 to
R282). -/
def execCacheLayerFill (die pa handle : Nat) (s : State) : Out :=
  match s.dreqs.find? (fun r => s.missing r && lineOf r.pa == lineOf pa && s.ownerDie (stackOf r.pa) == die && s.handleOf die r.asid r.va == handle) with
  | none => .next s
  | some r => if (s.reqFault r r.kind.size).isSome then .next s else .next (s.layerUse r.pa die handle false)

/-- A request refused where it would be performed: the refusal goes back, and the registration of a BAR.WAIT traps its waiting context (R282, R296,
R308). -/
def State.refuseReq (s : State) (r : DReq) (t : Trap) : State :=
  let s := s.noteRefusal r.who.core r.ten r.pa t
  match r.kind, r.who with
  | .barReg _, .ctx c => { s with dreqs := s.dreqs.filter (fun q => q.id != r.id) }.raise c t
  | _, _ => s.answer r 0 [] (some t)

/-- CHANNEL_REQUEST: a request whose line is not in the L2 meets the tenant table; a refused one goes back, a served one reads its sector (R282). -/
def execChannelRequest (i : Nat) (s : State) : Out :=
  match s.dreqs[i]? with
  | none => .next s
  | some r =>
    if !s.missing r then .next s
    else match s.reqFault r r.kind.size with
      | some t => .next (s.refuseReq r t)
      | none =>
        let d := s.ownerDie (stackOf r.pa)
        .next (s.layerUse r.pa d (s.handleOf d r.asid r.va) false)

/-- The checks of a request made at its home slice, with its line there: a refusal goes back, else the request can no longer trap (R21, R268, R282,
R296, R421). What its content decides (R304, R308), and what another package decides (R428), is known only when it is performed. -/
def State.devCheck (s : State) (id : Nat) : State :=
  match s.dreqs.find? (fun r => r.id == id) with
  | none => s
  | some r =>
    if r.checked || r.stage != .home || !s.isLocal r.pa || (s.homeLine r.pa).isNone then s
    else match s.reqFault r r.kind.size with
      | some t => s.refuseReq r t
      | none =>
        match r.kind with
        | .read _ | .write _ | .amo _ _ _ _ | .cntRead => s.updReq id (fun q => { q with checked := true })
        | _ => s

/-- Is a request ready to be performed: at its home slice, its line there, no older one of its own on the line (R267, R297)? -/
def State.reqReady (s : State) (r : DReq) : Bool :=
  r.stage == .home && !s.blockedReq r && (!s.isLocal r.pa || (s.homeLine r.pa).isSome)

/-- Armed lines of a line's set, the line itself apart (R309). -/
def State.armedOthers (s : State) (pa : Nat) : Nat :=
  ((s.setLines (s.ownerDie (stackOf pa)) pa).filter (fun l => l.armed && l.pa != lineOf pa && !l.remote)).length

/-- Is a barrier word malformed (R307)? -/
def barMalformed (w : W64) : Bool :=
  bits w 63 48 != 0 || bits w 31 16 == 0 || bits w 15 0 == 0 || bits w 15 0 > bits w 31 16

/-- MEM_OPERAND (R311). -/
def operandTrap (val : W64) (cause : Nat) : Trap := ⟨0x16, val, BitVec.ofNat 16 cause⟩

/-- The request of a waiting context leaves: its answer is the wait's own (R308). -/
def State.dropReq (s : State) (r : DReq) : State := { s with dreqs := s.dreqs.filter (fun q => q.id != r.id) }

/-- The registration of a BAR.WAIT at its home slice: a trap, a generation that has passed, or the wait with the line armed (R296, R308, R309). -/
def State.barRegister (s : State) (r : DReq) (c : CtxId) (e : Nat) : State :=
  let w := s.dev64 r.pa
  let seen (st : Option Bool) (s : State) : State := s.updCtx c (fun x => { x with wait := match x.wait with
    | some (.barrier d va pa _ _) => some (.barrier d va pa none st)
    | o => o })
  if barMalformed w then (s.dropReq r).raise c (operandTrap (BitVec.ofNat 64 r.va) 4)
  else if bits w 47 32 != e then seen (some true) (s.dropReq r)
  else if !(s.homeLine r.pa).any (·.armed) && s.armedOthers r.pa ≥ 8 then (s.dropReq r).raise c (operandTrap (BitVec.ofNat 64 r.va) 5)
  else
    let s := (s.dropReq r).updHomeLine r.pa (fun l => { l with armed := true })
    seen none { s with barWaiters := s.barWaiters ++ [(lineOf r.pa, c)] }

/-- What becomes of a request to another package (R426 to R428, R446): 0 its answer comes back, 1 the peer refuses it, 2 its target or the route is
lost. A free value; with no Jexlink port trained the route is lost. -/
def State.peerOutcome (s : State) : Nat := if s.jex.any (fun e => e.2 == 1) then Config.peerAnswer s.free % 3 else 2

/-- MEM_TENANT that a peer reports, with DETAIL bit 8 (R428). -/
def peerTrap (va pa : Nat) : Trap := { tenantTrap va pa with detail := (tenantTrap va pa).detail ||| 0x100#16 }
/-- REMOTE_PAGE_LOST of a target that is lost (R446, R447). -/
def lostTrap (va : Nat) : Trap := ⟨0x20, BitVec.ofNat 64 va, 0⟩

/-- The fault of an access to another package, if its outcome is one. -/
def State.farFault (s : State) (va pa : Nat) : Option Trap :=
  if s.peerOutcome == 1 then some (peerTrap va pa) else if s.peerOutcome == 2 then some (lostTrap va) else none

/-- The answer of a request to another package: n free bytes of the target, zero-extended, or its fault (R302, R304, R426, R428, R446). -/
def State.farAnswer (s : State) (r : DReq) (n : Nat) : State :=
  let bs := (List.range n).map (fun k => Config.unspecByte s.free k)
  let t := { s with free := s.free + 1 }
  match s.farFault r.va r.pa with
  | some f => t.answer r 0 [] (some f)
  | none => t.answer r (if r.kind matches .write _ then r.res else w64 bs) (if r.kind matches .read _ then bs else []) none

/-- Bytes of the value that a request's answer carries (R302 to R304). -/
def DKind.resBytes : DKind → Nat
  | .read n => n
  | .amo _ n _ _ => n
  | .afadd _ out64 readout => if !readout then 0 else if out64 then 8 else 4
  | .cntRead => 8
  | _ => 0

/-- HOME_SLICE_READ: a read, or the registration of a BAR.WAIT, at its home slice; a refused registration traps its waiting context (R266, R296,
R308). -/
def execHomeSliceRead (i : Nat) (s : State) : Out :=
  match s.dreqs[i]? with
  | none => .next s
  | some r =>
    if !s.reqReady r then .next s
    else match s.reqFault r r.kind.size with
      | some t => .next (s.refuseReq r t)
      | none =>
        let s := s.touch r.pa
        match r.kind, r.who with
        | .read n, _ =>
          if s.isLocal r.pa then .next (s.answer r (w64 (s.devBytes r.pa n)) (s.devBytes r.pa n) none)
          else .next (s.farAnswer r n)
        | .cntRead, _ => .next (s.answer r (s.dev64 r.pa) (s.devBytes r.pa 8) none)
        | .barReg e, .ctx c => .next (s.barRegister r c e)
        | _, _ => .next s

/-- An atomic addition of an FP32 value with its optional read-out (R304): new bytes and result, or the invalid anchor. -/
def afaddOut (rec : List Byte) (v : W32) (out64 readout : Bool) : Except (BitVec 8) (List Byte × W64) :=
  match afaddRecord rec v with
  | .error a => .error a
  | .ok bs =>
    if !readout then .ok (bs, 0)
    else
      let e : BitVec 80 := BitVec.ofNat 80 (ofBytes (bs.take 10))
      let (v, fl) := if out64 then anchorOut64 e else let (x, f) := anchorOut32 (bs.getD 10 0) e; (x.zeroExtend 64, f)
      .ok (bs.take 11 ++ [bs.getD 11 0 ||| fl.zeroExtend 8] ++ bs.drop 12, v)

/-- A write of a request performed, with the near cache of the issuing context updated (R297). -/
def State.reqWrite (s : State) (r : DReq) (bs : List Byte) : State :=
  let s := s.devWrite r.pa bs
  match r.who with
  | .ctx c => s.updCtx c (fun x => x.nearWrite r.pa bs)
  | _ => s

/-- HOME_SLICE_WRITE: a write, an atomic or an arrival performed at its home slice, remote copies first (R267, R302 to R304, R308, R309). -/
def execHomeSliceWrite (i : Nat) (s : State) : Out :=
  match s.dreqs[i]? with
  | none => .next s
  | some r =>
    if !s.reqReady r then .next s
    else match s.reqFault r r.kind.size with
      | some t => .next (s.refuseReq r t)
      | none =>
        let s := s.touch r.pa
        if !s.isLocal r.pa then .next (s.farAnswer r r.kind.resBytes)
        else match r.kind with
        | .write bs => .next ((s.reqWrite r bs).answer r r.res [] none)
        | .amo op n v x =>
          let old := ofBytes (s.devBytes r.pa n)
          let v := v.toNat % 2 ^ (8 * n)
          let s' := if op == .cas && old != v then s.dropCopies (lineOf r.pa) else s.reqWrite r (toBytes n (amoNew op n old v x.toNat))
          .next (s'.answer r (BitVec.ofNat 64 old) [] none)
        | .afadd v out64 readout =>
          (match afaddOut (s.devBytes r.pa 16) v out64 readout with
           | .error a => .next (s.answer r 0 [] (some (anchorTrap r.va a)))
           | .ok (bs, res) => .next ((s.reqWrite r bs).answer r res [] none))
        | .barArr =>
          let w := s.dev64 r.pa
          let left := bits w 15 0
          let total := bits w 31 16
          let gen := bits w 47 32
          if barMalformed w then .next (s.answer r 0 [] (some (operandTrap (BitVec.ofNat 64 r.va) 4)))
          else if left != 1 && !(s.homeLine r.pa).any (·.armed) && s.armedOthers r.pa ≥ 8 then
            .next (s.answer r 0 [] (some (operandTrap (BitVec.ofNat 64 r.va) 5)))
          else
            let new := if left == 1 then setBits (setBits w 47 32 (gen + 1)) 15 0 total else setBits w 15 0 (left - 1)
            let s := s.homeWrite r.pa (toBytes 8 new.toNat) false
            let s := s.updHomeLine r.pa (fun l => { l with armed := left != 1 })
            .next ((if left == 1 then s.releaseBar (lineOf r.pa) true else s).answer r (BitVec.ofNat 64 gen) [] none)
        | _ => .next s

/-- DEVICE_RESPONSE: the answer of a request reaches its context: g[d] is written and the counter falls, or the instruction, which has not retired,
traps (R21, R295, R296, R302). -/
def execDeviceResponse (i : Nat) (s : State) : Out :=
  match s.dreqs[i]? with
  | none => .next s
  | some r =>
    if r.stage != .done then .next s
    else match r.who with
      | .ctx c =>
        let x := s.ctx c
        let s := { s with dreqs := s.dreqs.filter (fun q => q.id != r.id) }
        (match x.ops.find? (fun o => o.body == .dev r.id) with
         | none => .next s
         | some o =>
           match r.fault with
           | none => .next (s.setCtx c ((x.setReg o.dst r.res).finishOp o.id))
           | some t => .next (s.lateTrap c o.id r.ipc t))
      | _ => .next { s with dreqs := s.dreqs.filter (fun q => q.id != r.id) }

/-! ### AMD (R302 to R304) -/

/-- The operation of a device-scope atomic in a deterministic lease (R443 Table 4). -/
def amdDet (op : AmoOp) (d : BitVec 5) : Bool := d != 0 || op == .swap || op == .cas

/-- An AMD atomic (R296, R302, R303). -/
def State.amd (s : State) (i : Instr) (g : Guard) (d a b : BitVec 5) (op : AmoOp) (size : Nat) : Out :=
  s.issue g (fun c => c.pends d || c.cntLd ≥ 31) (fun c =>
    if c.det && amdDet op d then s.raise s.cur (detOrder i)
    else match s.devOperand s.cur (c.reg a) size 63 ⟨true, true⟩ true with
      | .hold s => s
      | .fault s t => s.raise s.cur t
      | .ok pa =>
        let x := if size == 4 then c.reg b >>> 32 else c.reg (b + 1)
        s.devSend s.cur false d (bits (c.reg a) 55 0) pa (.amo op size (BitVec.ofNat 64 ((c.reg b).toNat % 2 ^ (8 * size))) x) 0)

/-- AMD.SWAP.W (R302). -/
def execAmdSwapW (g : Guard) (d a b : BitVec 5) (s : State) : Out := s.amd (.amdSwapW g d a b) g d a b .swap 4
/-- AMD.ADD.W (R302). -/
def execAmdAddW (g : Guard) (d a b : BitVec 5) (s : State) : Out := s.amd (.amdAddW g d a b) g d a b .add 4
/-- AMD.AND.W (R302). -/
def execAmdAndW (g : Guard) (d a b : BitVec 5) (s : State) : Out := s.amd (.amdAndW g d a b) g d a b .and 4
/-- AMD.OR.W (R302). -/
def execAmdOrW (g : Guard) (d a b : BitVec 5) (s : State) : Out := s.amd (.amdOrW g d a b) g d a b .or 4
/-- AMD.XOR.W (R302). -/
def execAmdXorW (g : Guard) (d a b : BitVec 5) (s : State) : Out := s.amd (.amdXorW g d a b) g d a b .xor 4
/-- AMD.MIN.W (R302). -/
def execAmdMinW (g : Guard) (d a b : BitVec 5) (s : State) : Out := s.amd (.amdMinW g d a b) g d a b .min 4
/-- AMD.MAX.W (R302). -/
def execAmdMaxW (g : Guard) (d a b : BitVec 5) (s : State) : Out := s.amd (.amdMaxW g d a b) g d a b .max 4
/-- AMD.MINU.W (R302). -/
def execAmdMinuW (g : Guard) (d a b : BitVec 5) (s : State) : Out := s.amd (.amdMinuW g d a b) g d a b .minu 4
/-- AMD.MAXU.W (R302). -/
def execAmdMaxuW (g : Guard) (d a b : BitVec 5) (s : State) : Out := s.amd (.amdMaxuW g d a b) g d a b .maxu 4
/-- AMD.CAS.W (R303). -/
def execAmdCasW (g : Guard) (d a b : BitVec 5) (s : State) : Out := s.amd (.amdCasW g d a b) g d a b .cas 4
/-- AMD.SWAP.D (R302). -/
def execAmdSwapD (g : Guard) (d a b : BitVec 5) (s : State) : Out := s.amd (.amdSwapD g d a b) g d a b .swap 8
/-- AMD.ADD.D (R302). -/
def execAmdAddD (g : Guard) (d a b : BitVec 5) (s : State) : Out := s.amd (.amdAddD g d a b) g d a b .add 8
/-- AMD.AND.D (R302). -/
def execAmdAndD (g : Guard) (d a b : BitVec 5) (s : State) : Out := s.amd (.amdAndD g d a b) g d a b .and 8
/-- AMD.OR.D (R302). -/
def execAmdOrD (g : Guard) (d a b : BitVec 5) (s : State) : Out := s.amd (.amdOrD g d a b) g d a b .or 8
/-- AMD.XOR.D (R302). -/
def execAmdXorD (g : Guard) (d a b : BitVec 5) (s : State) : Out := s.amd (.amdXorD g d a b) g d a b .xor 8
/-- AMD.MIN.D (R302). -/
def execAmdMinD (g : Guard) (d a b : BitVec 5) (s : State) : Out := s.amd (.amdMinD g d a b) g d a b .min 8
/-- AMD.MAX.D (R302). -/
def execAmdMaxD (g : Guard) (d a b : BitVec 5) (s : State) : Out := s.amd (.amdMaxD g d a b) g d a b .max 8
/-- AMD.MINU.D (R302). -/
def execAmdMinuD (g : Guard) (d a b : BitVec 5) (s : State) : Out := s.amd (.amdMinuD g d a b) g d a b .minu 8
/-- AMD.MAXU.D (R302). -/
def execAmdMaxuD (g : Guard) (d a b : BitVec 5) (s : State) : Out := s.amd (.amdMaxuD g d a b) g d a b .maxu 8
/-- AMD.CAS.D (R303). -/
def execAmdCasD (g : Guard) (d a b : BitVec 5) (s : State) : Out := s.amd (.amdCasD g d a b) g d a b .cas 8

/-- AMD.AFADD; an invalid anchor is found at the home slice (R304). -/
def execAmdAfadd (g : Guard) (d a b : BitVec 5) (s : State) : Out :=
  s.issue g (fun c => c.pends d || c.cntLd ≥ 31) (fun c =>
    match s.devOperand s.cur (c.reg a) 16 63 ⟨true, true⟩ true with
    | .hold s => s
    | .fault s t => s.raise s.cur t
    | .ok pa => s.devSend s.cur false d (bits (c.reg a) 55 0) pa (.afadd ((c.reg b).truncate 32) ((c.reg b).getLsbD 32) (d != 0)) 0)

/-! ### Fences (R305, R429) -/

/-- Has the context posted remote stores or unanswered remote accesses (R429)? -/
def State.remoteBusy (s : State) (c : CtxId) : Bool :=
  (s.ctx c).rso != 0 || s.dreqs.any (fun r => r.who == .ctx c && !s.isLocal r.pa)

/-- Is a FENCE's wait over (R305, R429)? -/
def State.fenceDone (s : State) (c : CtxId) (scope : Nat) : Bool :=
  (s.ctx c).cntLd == 0 && (s.ctx c).cntSt == 0 && (scope < 4 || !s.remoteBusy c)

/-- The acquire of a fence: scopes from LEASE on drop the near cache (R261, R305). -/
def Ctx.acquire (scope : Nat) (x : Ctx) : Ctx := if scope ≥ 1 then { x with near := [] } else x

/-- FENCE (R305). -/
def execFence (g : Guard) (scope : BitVec 3) (s : State) : Out :=
  s.issue g (fun _ => false) (fun c =>
    if s.fenceDone s.cur scope.toNat then s.setCtx s.cur (c.acquire scope.toNat).advance
    else s.waitFor s.cur (.fence scope.toNat))

/-! ### Counters (R306, R350) -/

/-- A counter of the scratchpad, or an older store on it that is still to be performed (R23). -/
def Ctx.spadBusy (x : Ctx) (a n : Nat) : Bool := x.ops.any (fun o => !o.done && o.body.conflicts (.load a n false))

/-- The counter that an operand names: a budget address, or a physical address (R306). -/
inductive Counter
  | spad (a : Nat)
  | dev (va pa : Nat)

/-- The checks on a counter operand (R306, R350). A double-bit error of a scratchpad counter is met by the access itself (R24). -/
def State.counterOf (s : State) (c : CtxId) (v : W64) (need : Need) (remote : Bool) : Except (State × Option Trap) Counter :=
  if v.getLsbD 63 then
    match s.devOperand c v 8 62 need remote with
    | .ok pa => .ok (.dev (bits v 55 0) pa)
    | .hold s => .error (s, none)
    | .fault s t => .error (s, some t)
  else match s.spadFault c v 8 8 unitSeq with
    | some t => .error (s, some t)
    | none => .ok (.spad v.toNat)

/-- The end of an issue whose operand held or failed. -/
def afterError (e : State × Option Trap) : State :=
  match e.2 with
  | some t => e.1.raise e.1.cur t
  | none => e.1

/-- CNT.ADD (R350). -/
def execCntAdd (g : Guard) (d a b : BitVec 5) (s : State) : Out :=
  s.issue g (fun c => c.pends d || c.cntLd != 0 || c.cntSt != 0 || c.cntCp != 0) (fun c =>
    if c.det && d != 0 then s.raise s.cur (detOrder (.cntAdd g d a b))
    else match s.counterOf s.cur (c.reg a) ⟨true, true⟩ true with
      | .error e => afterError e
      | .ok (.dev va pa) => s.devSend s.cur false d va pa (.amo .add 8 (c.reg b) 0) 0
      | .ok (.spad x) => s.setCtx s.cur (c.pushOp false d (.amo .add 8 x (c.reg b) 0)).advance)

/-- CNT.RD (R350). -/
def execCntRd (g : Guard) (d a : BitVec 5) (s : State) : Out :=
  s.issue g (fun c => c.pends d || c.cntLd ≥ 31) (fun c =>
    if c.det then s.raise s.cur (detOrder (.cntRd g d a))
    else match s.counterOf s.cur (c.reg a) ⟨true, false⟩ false with
      | .error e => afterError e
      | .ok (.dev va pa) => s.devSend s.cur false d va pa .cntRead 0
      | .ok (.spad x) => s.setCtx s.cur (c.pushOp false d (.load x 8 false)).advance)

/-- CNT.WAIT (R306): an acquire of scope PKG. -/
def execCntWait (g : Guard) (d a b : BitVec 5) (s : State) : Out :=
  s.issue g (fun c => c.pends d) (fun c =>
    if c.det && d != 0 then s.raise s.cur (detOrder (.cntWait g d a b))
    else
      let target := c.reg b
      match s.counterOf s.cur (c.reg a) ⟨true, false⟩ false with
      | .error e => afterError e
      | .ok (.dev va pa) =>
        let v := s.dev64 pa
        if let some t := s.meshFault (coreOf s.cur) va pa then s.raise s.cur t
        else if !s.lineBusy s.cur pa && target ≤ v then s.setCtx s.cur ((c.setReg d v).acquire 3).advance
        else s.waitFor s.cur (.cntMem d va target none)
      | .ok (.spad x) =>
        let v := w64 (s.spadBytes s.cur x 8)
        if let some t := if c.spadBusy x 8 then none else s.spadEcc s.cur x 8 false then s.raise s.cur t
        else if !c.spadBusy x 8 && target ≤ v then s.setCtx s.cur ((c.setReg d v).acquire 3).advance
        else s.waitFor s.cur (.cntSpad d x target))

/-- The value of a waiting CNT.WAIT is kept for its retirement. -/
def State.counted (s : State) (c : CtxId) (d : BitVec 5) (a : Nat) (target v : W64) : State :=
  if target ≤ v then s.updCtx c (fun x => { x with wait := some (.cntMem d a target (some v)) }) else s

/-- COUNTER_REREAD: a waiting CNT.WAIT reads its counter again, under the checks of its operand; a value that suffices is kept for its retirement
(R296, R306). A page under migration parks the waiter (R292); a failed link on the way gives HW_ERROR (R405). -/
def execCounterReread (c : CtxId) (s : State) : Out :=
  let x := s.ctx c
  let core := coreOf c
  match x.wait with
  | some (.cntMem d va target none) =>
    (match s.onlyLocal core (dieOf core) x.asid.toNat va false (s.seqXlate c va ⟨true, false⟩) with
     | .hold s => .next s
     | .fault s t => .next (s.raise c t)
     | .ok pa =>
       if s.lineBusy c pa then .next s
       else match (s.accessFault x.ten.toNat (some (dieOf core)) va pa 8).orElse (fun _ => s.meshFault core va pa) with
         | some t => .next ((s.noteRefusal core x.ten.toNat pa t).raise c t)
         | none => .next (s.counted c d va target (s.dev64 pa)))
  | some (.cntSpad d a target) =>
    if x.spadBusy a 8 then .next s
    else match s.spadFault c (BitVec.ofNat 64 a) 8 8 unitSeq with
      | some t => .next (s.raise c t)
      | none =>
        match s.spadEcc c a 8 false with
        | some t => .next (s.raise c t)
        | none => .next (s.counted c d a target (w64 (s.spadBytes c a 8)))
  | _ => .next s

/-! ### Barriers (R307 to R309) -/

/-- BAR.ARR; the word is judged at the home slice (R308). -/
def execBarArr (g : Guard) (d a : BitVec 5) (s : State) : Out :=
  s.issue g (fun c => c.pends d || c.cntLd != 0 || c.cntSt != 0) (fun c =>
    match s.devOperand s.cur (c.reg a) 64 63 ⟨true, true⟩ false with
    | .hold s => s
    | .fault s t => s.raise s.cur t
    | .ok pa => s.devSend s.cur false d (bits (c.reg a) 55 0) pa .barArr 0)

/-- BAR.WAIT (R308): the registration travels to the home slice, in order behind the context's own requests on the line (R297). -/
def execBarWait (g : Guard) (d a b : BitVec 5) (s : State) : Out :=
  s.issue g (fun c => c.pends d) (fun c =>
    match s.devOperand s.cur (c.reg a) 64 63 ⟨true, false⟩ false with
    | .hold s => s
    | .fault s t => s.raise s.cur t
    | .ok pa =>
      if barMalformed (s.dev64 pa) && !s.lineBusy s.cur pa then s.raise s.cur (operandTrap (c.reg a) 4)
      else if !s.lineBusy s.cur pa && bits (s.dev64 pa) 47 32 != bits (c.reg b) 15 0 then
        s.setCtx s.cur ((c.setReg d 0).acquire 3).advance
      else
        let id := s.dreqN
        let r : DReq := { id := id, ipc := c.ipc, who := .ctx s.cur, ten := c.ten.toNat, asid := c.asid.toNat, va := bits (c.reg a) 55 0, pa := pa,
                          kind := .barReg (bits (c.reg b) 15 0), stage := .out, res := 0, data := [], fault := none, checked := false }
        let s := { s with dreqs := s.dreqs ++ [r], dreqN := id + 1 }
        (s.sendFlit id false 0 (coreOf s.cur) (s.performCore r)).waitFor s.cur (.barrier d r.va pa (some id) none))

/-- BARRIER_RELEASE_MSG: a release or break reaches its waiter, and BAR.WAIT completes as an acquire of scope PKG, of a gated context when it is
ungated (R297, R308, R309); over a failed link it completes with HW_ERROR (R405). -/
def execBarrierReleaseMsg (c : CtxId) (s : State) : Out :=
  match if (s.ctx c).gated then none else (s.ctx c).wait with
  | some (.barrier d va pa _ (some ok)) =>
    (match s.meshFault (coreOf c) va pa with
     | some t => .next (s.raise c t)
     | none => .next (s.retire c (fun x => (x.setReg d (if ok then 0 else 1)).acquire 3)))
  | _ => .next s

/-! ### Residency handles (R300, R301) -/

/-- The lowest free handle number of a die. -/
def Die.freeHandle (d : Die) : Option Nat := (upto 1 255).find? (fun n => d.handles.all (fun h => h.num != n))

/-- RES.OPEN (R300). g[a] is looked at before g[b], and a range past 2^56 names g[b] in TRAPV: DESIGN CHOICE (log 121). -/
def execResOpen (g : Guard) (d a b : BitVec 5) (s : State) : Out :=
  s.issue g (fun c => c.pends d) (fun c =>
    let die := dieOf (coreOf s.cur)
    let start := (c.reg a).toNat
    let len := (c.reg b).toNat / 2 ^ 17 * 2 ^ 17
    let asid := c.asid.toNat
    if start % 2 ^ 17 != 0 then s.raise s.cur (operandTrap (c.reg a) 1)
    else if bits (c.reg b) 16 3 != 0 || len == 0 || start + len > 2 ^ 56 then s.raise s.cur (operandTrap (c.reg b) 1)
    else if (s.die die).handles.any (fun h => h.asid == asid && h.start < start + len && start < h.start + h.len) then
      s.raise s.cur (operandTrap (c.reg a) 3)
    else match (s.die die).freeHandle with
      | none => s.setCtx s.cur (c.setReg d 0).advance
      | some n =>
        (s.updDie die (fun k => { k with handles := k.handles ++ [⟨n, asid, start, len, bits (c.reg b) 2 0⟩] })).setCtx s.cur
          (c.setReg d (BitVec.ofNat 64 n)).advance)

/-- Is a number a handle open on the die for the ASID? -/
def Die.opened (d : Die) (n asid : Nat) : Bool := d.handles.any (fun h => h.num == n && h.asid == asid)

/-- RES.PRIO (R301). -/
def execResPrio (g : Guard) (a b : BitVec 5) (s : State) : Out :=
  s.issue g (fun _ => false) (fun c =>
    let die := dieOf (coreOf s.cur)
    let n := (c.reg a).toNat
    if !(s.die die).opened n c.asid.toNat then s.raise s.cur (operandTrap (c.reg a) 2)
    else if bits (c.reg b) 63 3 != 0 then s.raise s.cur (operandTrap (c.reg b) 1)
    else (s.updDie die (fun k => { k with handles := k.handles.map (fun h => if h.num == n then { h with prio := bits (c.reg b) 2 0 } else h) })).setCtx
      s.cur c.advance)

/-- A handle closed: its lines and blocks are untagged (R301). -/
def State.dropHandle (s : State) (die n : Nat) : State :=
  let s := s.updDie die (fun k => { k with handles := k.handles.filter (fun h => h.num != n)
                                           l2 := k.l2.map (fun l => if l.handle == n then { l with handle := 0 } else l) })
  { s with hbm := s.hbm.map (fun b => if b.die == die && b.handle == n then { b with handle := 0 } else b) }

/-- RES.DROP (R301). -/
def execResDrop (g : Guard) (a : BitVec 5) (s : State) : Out :=
  s.issue g (fun _ => false) (fun c =>
    let die := dieOf (coreOf s.cur)
    let n := (c.reg a).toNat
    if !(s.die die).opened n c.asid.toNat then s.raise s.cur (operandTrap (c.reg a) 2)
    else (s.dropHandle die n).setCtx s.cur c.advance)

/-! ### Walks and stop-and-copy migration (R289 to R292, R446) -/

/-- The tenant of a requester. -/
def State.whoTen (s : State) : Who → Nat
  | .ctx c => (s.ctx c).ten.toNat
  | .tile c _ => (s.ctx c).ten.toNat
  | .spill c _ => (s.ctx c).ten.toNat
  | .engine _ _ t => t

/-- A requester parks in the die's replay queue on a page, or waits to try again when it is full; in post-copy mode a type-8 record is written (R292,
R446). -/
def State.park (s : State) (die : Nat) (w : WalkReq) (l : Leaf) : State :=
  let d := s.die die
  let w := { w with go := false, page := (l.va, l.size), at_ := s.time }
  if d.replay.length ≥ 256 then s.setDie die { d with retry := d.retry ++ [w] }
  else
    let s := s.setDie die { d with replay := d.replay ++ [w] }
    let ten := s.whoTen w.who
    if (s.mgv (0x80A0 + ten)).getLsbD 2 then s.pfEvent 8 ten 0 0 0 w.who.core 0 (BitVec.ofNat 64 w.va) else s

/-- One walk for a requester, its entries read through the L2: its translation cached, its fault recorded, or its parking; the permissions come before MIG
(R290, R292). The spec gives the walker no stop on the mesh, so that no failed link lies on its way: DESIGN CHOICE (log 131). -/
def State.walkFor (s : State) (die : Nat) (w : WalkReq) : State :=
  let fault (cause lvl : Nat) : State := s.updDie die (fun d => { d with walkFaults := d.walkFaults ++ [(w, cause, lvl)] })
  let s := s.walkReads die w.asid w.va
  match s.walk die w.asid w.va with
  | .error (cause, lvl) => fault cause lvl
  | .ok l =>
    if (w.rd && !l.rd) || (w.wr && !l.wr) then fault 4 l.lvl
    else if l.mig then s.park die w l
    else s.fillTlb die w.who.core w.asid l

/-- The walks that the walker of a die runs: those of the 64 oldest (ASID, page) pairs asked for (R291). -/
def Die.running (d : Die) : List (Nat × Nat) :=
  (d.walks.foldl (fun l w => if l.contains (w.asid, w.va / 2 ^ 17) then l else l ++ [(w.asid, w.va / 2 ^ 17)]) []).take 64

/-- PAGE_WALK: the die's walker translates an address for every requester that asked for its page (R289, R291). -/
def execPageWalk (die asid va : Nat) (s : State) : Out :=
  let d := s.die die
  let mine (w : WalkReq) : Bool := w.asid == asid && w.va / 2 ^ 17 == va / 2 ^ 17
  if !d.running.contains (asid, va / 2 ^ 17) then .next s
  else .next ((d.walks.filter mine).foldl (fun s w => s.walkFor die w) (s.setDie die { d with walks := d.walks.filter (fun w => !mine w) }))

/-- REPLAY_RETRY: a requester that found the replay queue full walks again 64 cycles later (R292). -/
def execReplayRetry (die i : Nat) (s : State) : Out :=
  let d := s.die die
  match d.retry[i]? with
  | none => .next s
  | some w => if s.time < w.at_ + 64 then .next s else .next ((s.setDie die { d with retry := d.retry.eraseIdx i }).walkFor die w)

/-- Does a parked requester wait for the page that holds an address of an ASID? -/
def WalkReq.onPage (w : WalkReq) (asid va : Nat) : Bool := w.asid == asid && w.page.1 ≤ va && va < w.page.1 + w.page.2

/-- REPLAY_RELEASE: of the requesters of a page that a release event has met, the first in the queue walks again, and resumes: they do so one after the
other, in queue order (R292). -/
def execReplayRelease (die asid va : Nat) (s : State) : Out :=
  let d := s.die die
  match d.replay.find? (fun w => w.go && w.onPage asid va) with
  | none => .next s
  | some w => .next ((s.setDie die { d with replay := d.replay.erase w }).walkFor die w)

/-- Does a maintenance operation cover an address of an ASID (R310)? sel 0 one address, 1 an ASID, 2 everything. -/
def tlbCovers (sel asid va : Nat) (e : TlbEnt) : Bool :=
  sel == 2 || (e.asid == asid && (sel == 1 || (e.va ≤ va && va < e.va + e.size)))

/-- Does it cover a walk's page? -/
def walkCovers (sel asid va : Nat) (w : WalkReq) : Bool := sel == 2 || (w.asid == asid && (sel == 1 || w.onPage asid va))

/-- A tile's translations that a maintenance operation covers leave: its next element in such a page is translated again (R286, R291). -/
def Ctx.dropPages (sel asid va : Nat) (x : Ctx) : Ctx :=
  if sel != 2 && x.asid.toNat != asid then x
  else { x with fab := { x.fab with tiles := x.fab.tiles.map (fun e =>
    (e.1, { e.2 with pages := e.2.pages.filter (fun p => sel == 0 && !(p.1 ≤ va && va < p.1 + p.2.1)) })) } }

/-- Translations removed from every TLB of the package, and from the tiles; results of walks that they cover are discarded (R310). -/
def State.tlbRemove (s : State) (sel asid va : Nat) : State :=
  let keep (l : List TlbEnt) : List TlbEnt := l.filter (fun e => !tlbCovers sel asid va e)
  { s with
    ctxs := s.ctxs.map (fun e => (e.1, e.2.dropPages sel asid va))
    cores := s.cores.map (fun e => (e.1, { e.2 with utlb := keep e.2.utlb }))
    dies := s.dies.map (fun e => (e.1, { e.2 with stlb := keep e.2.stlb, walkFaults := e.2.walkFaults.filter (fun f => !walkCovers sel asid va f.1) })) }

/-- A release event for every page covered (R292, R310). -/
def State.releaseEvent (s : State) (sel asid va : Nat) : State :=
  { s with dies := s.dies.map (fun e => (e.1, { e.2 with replay := e.2.replay.map (fun w => if walkCovers sel asid va w then { w with go := true } else w) })) }

/-- The widest page of the cached translations of an address, else its granule: base and size (R310). -/
def State.widestPage (s : State) (asid va : Nat) : Nat × Nat :=
  let l := (s.cores.map (fun e => e.2.utlb)).flatten ++ (s.dies.map (fun e => e.2.stlb)).flatten
  (l.filter (·.covers asid va)).foldl (fun p e => if p.2 < e.size then (e.va, e.size) else p) (va / 2 ^ 17 * 2 ^ 17, 2 ^ 17)

/-- Is an access that used a covered translation still to take effect (R291)? -/
def State.tlbBusy (s : State) (sel asid : Nat) (page : Nat × Nat) : Bool :=
  s.dreqs.any (fun r => (sel == 2 || (r.asid == asid && (sel == 1 || (page.1 ≤ r.va && r.va < page.1 + page.2)))) && (r.stage == .out || r.stage == .home))

/-- A maintenance instruction after its checks (R310). -/
def State.tlbOp (s : State) (sel asid va : Nat) : State :=
  let page := s.widestPage asid va
  let s := s.tlbRemove sel asid va
  if s.tlbBusy sel asid page then s.waitFor s.cur (.tlb sel asid va page)
  else (s.setCtx s.cur ((s.ctx s.cur).acquire 3).advance).releaseEvent sel asid va

/-- The ASID operand's checks (R310). -/
def asidBad (c : Ctx) (v : W64) : Bool := bits v 63 11 != 0 || (c.ten != 0 && bits v 10 0 != c.asid.toNat)

/-- TLB.INVA (R296 check 2, R310). -/
def execTlbInva (g : Guard) (a b : BitVec 5) (s : State) : Out :=
  s.issue g (fun _ => false) (fun c =>
    if bits (c.reg a) 63 56 != 0 then s.raise s.cur (xlatTrap (c.reg a).toNat 6 0 false)
    else if asidBad c (c.reg b) then s.raise s.cur (operandTrap (c.reg b) 6)
    else s.tlbOp 0 (bits (c.reg b) 10 0) (c.reg a).toNat)

/-- TLB.INVS (R310). -/
def execTlbInvs (g : Guard) (a : BitVec 5) (s : State) : Out :=
  s.issue g (fun _ => false) (fun c =>
    if asidBad c (c.reg a) then s.raise s.cur (operandTrap (c.reg a) 6)
    else s.tlbOp 1 (bits (c.reg a) 10 0) 0)

/-- TLB.INVALL: system-only (R310, R401). -/
def execTlbInvall (g : Guard) (s : State) : Out :=
  s.issue g (fun _ => false) (fun c =>
    if c.ten != 0 then s.raise s.cur (sysOnly (.tlbInvall g)) else s.tlbOp 2 0 0)

end Sys2Proof.Machine
end

