-- ==== Sys2Proof/Machine/Tiles.lean ====
section
/-! DEFINITION. Address-generator tiles, decoupled tiles, and the channel queues of FIFO banks (R125 to R129, R178, R262 to R264, R286, R287, R427). -/

namespace Sys2Proof.Machine

/-! ### Loop nests (R125) -/

/-- Extent of a level. -/
def Tile.e (t : Tile) (l : Nat) : Nat := t.ext.getD l 0
/-- Stride of a level. -/
def Tile.st (t : Tile) (l : Nat) : Int := t.str.getD l 0
/-- Elements of a tile. -/
def Tile.count (t : Tile) : Nat := t.e 0 * t.e 1 * t.e 2
/-- Address of element p of the tile (R125). -/
def Tile.addr (t : Tile) (p : Nat) : Int :=
  let i0 := p % max 1 (t.e 0)
  let i1 := p / max 1 (t.e 0) % max 1 (t.e 1)
  let i2 := p / max 1 (t.e 0 * t.e 1)
  t.base + 4 * (i0 * t.st 0 + i1 * t.st 1 + i2 * t.st 2 + t.i3 * t.st 3)
/-- Is the tile the last (R126, R145)? -/
def Tile.last (t : Tile) : Bool := t.i3 + 1 ≥ t.e 3
/-- The marker that ends the tile: 1 EOI, 2 EOS. -/
def Tile.endMark (t : Tile) : Nat := if t.last then 2 else 1
/-- Does a queue tile push (R262)? -/
def Ctx.pushes (x : Ctx) (n : Nat) : Bool := imgBound (sectImg x.cur.sect) 0 (16 + n)

/-! ### Start (R126 to R128, R178, R262) -/

/-- The first check of R126 that an address range of tile n fails; a locked region names the unit (R231, R252). -/
def Ctx.tileFault (s : State) (c : CtxId) (n : Nat) (t : Tile) : Option Trap :=
  let x := s.ctx c
  let ps := List.range t.count
  if t.count == 0 then none
  else if t.base % 4 != 0 then some ⟨0x02, BitVec.ofNat 64 t.base, 4⟩
  else match ps.find? (fun p => t.addr p < 0 || t.addr p + 4 > x.budget) with
    | some p => some ⟨0x03, BitVec.ofInt 64 (t.addr p), 4⟩
    | none =>
    match ps.findSome? (fun p => x.badBank (t.addr p).toNat 4) with
    | some b => some ⟨0x13, BitVec.ofNat 64 b, 1⟩
    | none => (ps.find? (fun p => s.locked c (t.addr p).toNat 4)).map (fun p => ⟨0x11, BitVec.ofInt 64 (t.addr p), BitVec.ofNat 16 (4 + 16 * unitTile n)⟩)

/-- The parameter tokens that have arrived, and whether only half of one stands there (R128). Markers of agN.par before a token carry nothing. -/
def parTokens : List QItem → List (W32 × W32) × Bool
  | .el a _ :: .el b _ :: t => let (l, h) := parTokens t; ((a, b) :: l, h)
  | .el _ _ :: _ => ([], true)
  | .marker _ :: t => parTokens t
  | [] => ([], false)

/-- A parameter token applied to the tile (R128). -/
def Tile.apply (t : Tile) (k : W32 × W32) : Tile :=
  let v := k.2.toNat
  let sel := k.1.toNat
  if sel == 0 then { t with base := t.base / 2 ^ 32 * 2 ^ 32 + v }
  else if sel == 1 then { t with base := t.base % 2 ^ 32 + v * 2 ^ 32 }
  else { t with ext := modAt (fun _ => v) t.ext (sel - 2) }

/-- The arcs of a record (R146). -/
def arcsOf (c : W64) : List Nat := (if c.getLsbD 28 then [bits c 27 22] else []) ++ (if c.getLsbD 35 then [bits c 34 29] else [])

/-- May tile n start its next tile under its arcs (R178)? A member's i3 counts its completed tiles. -/
def Fab.arcsOk (f : Fab) (n : Nat) (t : Tile) : Bool :=
  (arcsOf t.ctrl).all (fun a =>
    let mem := f.tiles.filter (fun e => (arcsOf e.2.ctrl).contains a && !e.2.done)
    mem.all (fun e => if e.1 < n then e.2.i3 > t.i3 else true)
      && (match mem.head?, mem.getLast? with
          | some h, some l => h.1 != n || l.2.i3 ≥ t.i3
          | _, _ => true))

/-- A tile that may start starts: parameters applied, start token consumed, addresses checked (R126 to R128, R178, R262). -/
def State.tileStart (s : State) (c : CtxId) (n : Nat) : State :=
  let x := s.ctx c
  match x.fab.tiles.get? n with
  | none => s
  | some t =>
    let start := bits t.ctrl 16 12
    let (toks, half) := parTokens t.par.items
    let toks := toks ++ t.parm
    let ste := t.ctrl.getLsbD 11
    if !x.active? || t.running || t.done || half || (ste && x.fab.cb.getD start 0 == 0) || !x.fab.arcsOk n t then s
    else if toks.any (fun k => !parmOk k.1.toNat k.2.toNat) then s.fabFault c (alignTrap (unitTile n) 6)
    else
      let t' := { toks.foldl Tile.apply t with par := t.par.pop t.par.items.length, parm := [], running := true, pos := 0, pages := [] }
      let bad : Option Trap :=
        if agMode t.ctrl == 3 then
          (match x.bank? (agTgt t.ctrl) with
           | some b => if b.mode == .fifo then none else some ⟨0x13, BitVec.ofNat 64 (unitTile n), 2⟩
           | none => some ⟨0x13, BitVec.ofNat 64 (unitTile n), 2⟩)
        else if agDm t.ctrl then none
        else if agMode t.ctrl == 2 then (if t'.base % 4 != 0 then some ⟨0x02, BitVec.ofNat 64 t'.base, 4⟩ else none)
        else Ctx.tileFault s c n t'
      match bad with
      | some tr => s.fabFault c tr
      | none => s.updFab c (fun f => { f.setTile n t' with cb := if ste then modAt (fun k => k - 1) f.cb start else f.cb })

/-- AG_TILE_START (R126 to R128, R178, R262). -/
def execAgTileStart (c : CtxId) (n : Nat) (s : State) : Out := .next (s.tileStart c n)

/-- The tiles of a load start with it: those that name no start bit, and, of those that name cb0, the lowest takes its token. The order among several
tiles of cb0 is a DESIGN CHOICE (log 107) (R127, R131). -/
def State.startTiles (s : State) (c : CtxId) : State := (s.ctx c).fab.tiles.foldl (fun s e => s.tileStart c e.1) s

/-- LOAD_START: the load starts on every core of the lease in one cycle (R131, R191). -/
def execLoadStart (lid : Nat) (s : State) : Out :=
  match s.leaseAt lid with
  | none => .next s
  | some l =>
    match l.go with
    | none => .next s
    | some k =>
      if l.broken.isSome || !s.collReady l k then .next s
      else
        let s := s.putLease lid { l with go := none, quantum := leastQuantum (k.arrived.map (·.q)), start := s.time, stopAt := none, slip := 0 }
        let s := l.ctxs.foldl (fun s c => s.startLoad c k.id) s
        .next (l.ctxs.foldl (fun s c => s.startTiles c) s)

/-- Does a tile stand in a tile of its nest and may it act? -/
def State.tileOf (s : State) (c : CtxId) (n mode : Nat) : Option Tile :=
  let x := s.ctx c
  if !x.active? then none
  else match x.fab.tiles.get? n with
    | some t => if t.running && agMode t.ctrl == mode then some t else none
    | none => none

/-- An element into the tile's packer; the packet closes at eight elements, or with last, under demand (R126). none where it would have to wait. -/
def Ctx.tilePack (x : Ctx) (n : Nat) (t : Tile) (v : W32) (last : Bool) : Option Fab :=
  let pk := t.pk ++ [v]
  if pk.length ≥ 8 || last then
    (if x.fab.canClose (.port n) 1 then some ((x.fab.setTile n { t with pk := [] }).close (.port n) (x.packet pk 0 (bits t.ctrl 2 0) false)) else none)
  else some (x.fab.setTile n { t with pk := pk })

/-! ### Decoupled tiles (R286, R287) -/

/-- The physical address that a tile has translated for an address in this tile (R286). -/
def Tile.known (t : Tile) (va : Nat) : Option Nat := (t.pages.find? (fun p => p.1 ≤ va && va < p.1 + p.2.1)).map (fun p => p.2.2 + (va - p.1))

/-- The checks of a unit's access after its translation: tenant wall, EXCL, ECC, and the links of the mesh; of a read of another package, its answer
(R282, R287, R405, R421, R428, R446). -/
def State.unitChecks (s : State) (c : CtxId) (va n pa : Nat) (need : Need) : SeqX :=
  let x := s.ctx c
  if !s.isLocal pa then
    (match if need.rd then s.farFault va pa else none with
     | some t => .fault { s with free := s.free + 1 } t
     | none => .ok pa)
  else match s.grantFault x.ten.toNat (some (dieOf (coreOf c))) va pa n need with
    | some t => .fault (s.noteRefusal (coreOf c) x.ten.toNat pa t) t
    | none =>
      match s.meshFault (coreOf c) va pa with
      | some t => .fault s t
      | none => .ok pa

/-- A unit's translation of a virtual address: the page, the fault, or a hold while a walk is under way or its page migrates (R286, R287, R292). -/
def State.unitTrans (s : State) (w : Who) (c : CtxId) (va : Int) (need : Need) : SeqX :=
  if va < 0 || va ≥ 2 ^ 56 then .fault s { xlatTrap 0 6 0 need.wr with val := BitVec.ofInt 64 va }
  else s.unitXlate w (coreOf c) (dieOf (coreOf c)) (s.ctx c).asid.toNat va.toNat need

/-- A unit's access of n bytes at a virtual address: translated, parked, or checked (R286, R287, R292). -/
def State.unitAccess (s : State) (w : Who) (c : CtxId) (va : Int) (n : Nat) (need : Need) : SeqX :=
  match s.unitTrans w c va need with
  | .ok pa => s.unitChecks c va.toNat n pa need
  | x => x

/-- A decoupled tile's access of its next element: a page that it has translated in this tile is not translated again (R286). -/
def State.tileAccess (s : State) (c : CtxId) (n : Nat) (t : Tile) (va : Int) (need : Need) : SeqX :=
  match if va < 0 then none else t.known va.toNat with
  | some pa => s.unitChecks c va.toNat 4 pa need
  | none => s.unitAccess (.tile c n) c va 4 need

/-- The page of an access that a tile has made, kept for the rest of the tile (R286). -/
def State.tilePage (s : State) (c : CtxId) (t : Tile) (va : Nat) : Tile :=
  if (t.known va).isSome then t
  else match s.tlbHit (coreOf c) (dieOf (coreOf c)) (s.ctx c).asid.toNat va with
    | some e => { t with pages := t.pages ++ [(e.va, e.size, e.pa)] }
    | none => t

/-- Has a decoupled tile emitted every element before the one that faults, or can it now (R287)? -/
def Ctx.dmClear (x : Ctx) (n : Nat) (t : Tile) : Bool := t.dm.isEmpty && (t.pk.isEmpty || x.fab.canClose (.port n) 1)

/-- A fault of a decoupled tile: every earlier element has been emitted (R287), so it waits for the buffer and closes the packer first. -/
def State.dmFault (s : State) (c : CtxId) (n : Nat) (t : Tile) (tr : Trap) : State :=
  let x := s.ctx c
  if t.pk.isEmpty then s.fabFault c tr
  else (s.updFab c (fun f => (f.setTile n { t with pk := [] }).close (.port n) (x.packet t.pk 0 (bits t.ctrl 2 0) false))).fabFault c tr

/-- The address of the next element that a decoupled read or gather tile asks for, with the tile after taking its index. -/
def Tile.dmNext (t : Tile) : Option (Int × Tile) :=
  if agMode t.ctrl == 0 then
    (if t.pos + t.dm.length < t.count then some (t.addr (t.pos + t.dm.length), t) else none)
  else match t.inp.items with
    | .el v _ :: _ => some (t.base + 4 * v.toInt, { t with inp := t.inp.pop 1 })
    | _ => none

/-- DM_READ_RETURN: an element of device memory comes back to a decoupled read or gather tile, in loop order (R286, R287). -/
def execDmReadReturn (c : CtxId) (n : Nat) (s : State) : Out :=
  let x := s.ctx c
  match x.fab.tiles.get? n with
  | none => .next s
  | some t =>
    if !x.active? || !t.running || !agDm t.ctrl || (agMode t.ctrl != 0 && agMode t.ctrl != 2) || t.dm.length ≥ 512 then .next s
    else match t.dmNext with
      | none => .next s
      | some (va, t') =>
        if t.base % 4 != 0 then .next (if x.dmClear n t then s.dmFault c n t ⟨0x02, BitVec.ofNat 64 t.base, 4⟩ else s)
        else match s.tileAccess c n t va ⟨true, false⟩ with
          | .hold s => .next s
          | .fault s' tr => .next (if x.dmClear n t then s'.dmFault c n t tr else s)
          | .ok pa =>
            if s.isLocal pa && x.nearWaits pa then .next s
            else
              let asid := x.asid.toNat
              let s := s.tlbUse (coreOf c) (dieOf (coreOf c)) asid va.toNat
              let t' := s.tilePage c t' va.toNat
              let bs := if s.isLocal pa then s.nearVal c pa 4 else (List.range 4).map (fun k => Config.unspecByte s.free k)
              let s := if s.isLocal pa then s.nearNote c asid va.toNat pa 4 else { s with free := s.free + 1 }
              .next (s.updFab c (fun f => f.setTile n { t' with dm := t.dm ++ [(va.toNat, some (w32 bs))] }))

/-! ### The modes (R126) -/

/-- AG_READ_EMIT: a read tile takes its next element; the packet closes at eight and at the tile's end, under demand (R126, R286). Each access meets the
bank's mode and the locks as they then stand (R231, R257). -/
def execAgReadEmit (c : CtxId) (n : Nat) (s : State) : Out :=
  match s.tileOf c n 0 with
  | none => .next s
  | some t =>
    let x := s.ctx c
    if t.pos ≥ t.count then .next s
    else if agDm t.ctrl then
      match t.dm with
      | (_, some v) :: rest =>
        (match x.tilePack n { t with dm := rest, pos := t.pos + 1 } v (t.pos + 1 == t.count) with
         | some f => .next (s.updFab c (fun _ => f))
         | none => .next s)
      | _ => .next s
    else
      let a := (t.addr t.pos).toNat
      match s.spadFault c (BitVec.ofNat 64 a) 4 4 (unitTile n) with
      | some tr => .next (s.fabFault c tr)
      | none =>
      if x.zeroing a 4 then .next s
      else match s.spadEcc c a 4 false with
        | some tr => .next (s.fabFault c tr)
        | none =>
          match x.tilePack n { t with pos := t.pos + 1 } (s.spad32 c a) (t.pos + 1 == t.count) with
          | some f => .next (s.updFab c (fun _ => f))
          | none => .next s

/-- A posted remote store of a decoupled tile (R427). -/
def State.postRemote (s : State) (c : CtxId) (pa : Nat) : State :=
  { s.updCtx c (fun x => { x with rso := x.rso + 1 }) with
    rstores := s.rstores ++ [{ ctx := c, lid := (s.ctx c).lease, pa := pa, sent := s.time }] }

/-- What the head of agN.in is to a tile that consumes: an element it may take, or the cause of STREAM_ALIGN (R126, R135 Table 5). -/
def Tile.inHead (t : Tile) : Option (Except Nat W32) :=
  match t.inp.items with
  | .el v _ :: _ => if t.pos < t.count then some (.ok v) else some (.error 5)
  | .marker k :: _ => if t.pos < t.count || k != t.endMark then some (.error 4) else none
  | [] => none

/-- AG_WRITE_CONSUME: a write tile writes its next element (R126, R286, R287). -/
def execAgWriteConsume (c : CtxId) (n : Nat) (s : State) : Out :=
  match s.tileOf c n 1 with
  | none => .next s
  | some t =>
    let x := s.ctx c
    match t.inHead with
    | none => .next s
    | some (.error k) => .next (s.fabFault c (alignTrap (unitTile n) k))
    | some (.ok v) =>
      let t' := { t with inp := t.inp.pop 1, pos := t.pos + 1 }
      if agDm t.ctrl then
        if t.base % 4 != 0 then .next (s.fabFault c ⟨0x02, BitVec.ofNat 64 t.base, 4⟩)
        else match s.tileAccess c n t (t.addr t.pos) ⟨false, true⟩ with
          | .hold s => .next s
          | .fault s tr => .next (s.fabFault c tr)
          | .ok pa =>
            let va := (t.addr t.pos).toNat
            let bs := toBytes 4 v.toNat
            let s := s.reach (coreOf c) (dieOf (coreOf c)) (some (dieOf (coreOf c))) x.asid.toNat va pa 4 true
            let t' := s.tilePage c t' va
            let s := if s.isLocal pa then (s.devWrite pa bs).updCtx c (fun x => x.nearWrite pa bs) else s.postRemote c pa
            .next (s.updFab c (fun f => f.setTile n t'))
      else
        let a := (t.addr t.pos).toNat
        match s.spadFault c (BitVec.ofNat 64 a) 4 4 (unitTile n) with
        | some tr => .next (s.fabFault c tr)
        | none =>
        if x.zeroing a 4 then .next s
        else .next ((s.spadWrite c a (toBytes 4 v.toNat)).updFab c (fun f => f.setTile n t'))

/-- AG_GATHER: a gather tile reads the element that an index names, or emits one that came back from device memory (R126, R286). -/
def execAgGather (c : CtxId) (n : Nat) (s : State) : Out :=
  match s.tileOf c n 2 with
  | none => .next s
  | some t =>
    let x := s.ctx c
    if agDm t.ctrl then
      match t.dm with
      | (_, some v) :: rest =>
        (match x.tilePack n { t with dm := rest, pos := t.pos + 1 } v false with
         | some f => .next (s.updFab c (fun _ => f))
         | none => .next s)
      | _ => .next s
    else match t.inp.items with
      | .el v _ :: _ =>
        let addr := BitVec.ofInt 64 (t.base + 4 * v.toInt)
        (match s.spadFault c addr 4 4 (unitTile n) with
         | some tr => .next (s.fabFault c tr)
         | none =>
           if x.zeroing addr.toNat 4 then .next s
           else match s.spadEcc c addr.toNat 4 false with
             | some tr => .next (s.fabFault c tr)
             | none =>
               match x.tilePack n { t with inp := t.inp.pop 1, pos := t.pos + 1 } (s.spad32 c addr.toNat) false with
               | some f => .next (s.updFab c (fun _ => f))
               | none => .next s)
      | _ => .next s

/-- AG_TILE_END: a tile ends: EOI or EOS is closed or consumed, and the done token is added (R126, R127, R178). A gather tile ends at the marker that
it passes: DEDUCED (log entry 23). -/
def execAgTileEnd (c : CtxId) (n : Nat) (s : State) : Out :=
  let x := s.ctx c
  match x.fab.tiles.get? n with
  | none => .next s
  | some t =>
    let done := bits t.ctrl 21 17
    let mode := agMode t.ctrl
    if !x.active? || !t.running || x.fab.cb.getD done 0 ≥ 15 then .next s
    else
      let ends (f : Fab) (t : Tile) (kind : Nat) : State :=
        s.updFab c (fun _ => { f.setTile n { t with running := false, i3 := t.i3 + 1, pos := 0, done := kind == 2 } with cb := modAt (· + 1) f.cb done })
      if mode == 0 || (mode == 3 && !x.pushes n) then
        if t.pos < t.count || !t.pk.isEmpty || !t.dm.isEmpty || !x.fab.canClose (.port n) 1 then .next s
        else .next (ends (x.fab.close (.port n) (x.packet [] t.endMark (bits t.ctrl 2 0) false)) t t.endMark)
      else match t.inp.marker? with
        | none => .next s
        | some k =>
          if mode == 2 then
            let out := (if t.pk.isEmpty then [] else [x.packet t.pk 0 (bits t.ctrl 2 0) false]) ++ [x.packet [] k (bits t.ctrl 2 0) false]
            if !t.dm.isEmpty || !x.fab.canClose (.port n) out.length then .next s
            else .next (ends (x.fab.closeAll (.port n) out) { t with inp := t.inp.pop 1, pk := [] } k)
          else if t.pos < t.count || k != t.endMark then .next (s.fabFault c (alignTrap (unitTile n) 4))
          else .next (ends x.fab { t with inp := t.inp.pop 1 } k)

/-! ### Channel queues (R262 to R264) -/

/-- A bank of a context's budget changed. -/
def State.updBank (s : State) (c : CtxId) (k : Nat) (f : BudBank → BudBank) : State := s.updCtx c (fun x => { x with banks := modAt f x.banks k })

/-- The place in device memory of an address of a ring, as the page tables now stand (R264). -/
def State.ringPlace (s : State) (c : CtxId) (va : Nat) : Option Nat :=
  match s.walk (dieOf (coreOf c)) (s.ctx c).asid.toNat va with
  | .ok l => some (memKey (l.pa + (va - l.va)))
  | .error _ => none

/-- The places of elements of channel queues, noted as not written by another agent (R264). -/
def State.noteRing (s : State) (l : List (W32 × Option Nat)) : State :=
  { s with spilled := l.filterMap (fun e => e.2.map (fun a => (a, a + 4, 0))) ++ s.spilled }

/-- Has another agent written an element's place in the ring (R264)? -/
def State.ringHit (s : State) (e : W32 × Option Nat) : Bool :=
  match e.2 with
  | some a => !(List.range 4).all (fun i => s.spilled.any (fun r => r.1 ≤ a + i && a + i < r.2.1))
  | none => false

/-- QUEUE_PUSH: a push tile appends its next element to the bank part, or to the ring through the spill block (R263). -/
def execQueuePush (c : CtxId) (n : Nat) (s : State) : Out :=
  match s.tileOf c n 3 with
  | none => .next s
  | some t =>
    let x := s.ctx c
    let k := agTgt t.ctrl
    match t.inHead, x.bank? k with
    | some (.error e), _ => if x.pushes n then .next (s.fabFault c (alignTrap (unitTile n) e)) else .next s
    | some (.ok v), some b =>
      if !x.pushes n || b.mode != .fifo || b.zeroing then .next s
      else
        let q := b.q
        let go (q : ChanQ) : State := (s.updBank c k (fun b => { b with q := q })).updFab c (fun f => f.setTile n { t with inp := t.inp.pop 1, pos := t.pos + 1 })
        if q.t == q.h && q.part.length < bankPart then .next (go { q with part := q.part ++ [v] })
        else if q.t - q.h < q.rs && !(q.t % 64 == 0 && !q.held.isEmpty) then (let e := (v, s.ringPlace c (q.rb + q.t % max 1 q.rs)); .next ((go { q with held := q.held ++ [e], t := q.t + 4 }).noteRing [e]))
        else .next s
    | _, _ => .next s

/-- QUEUE_POP: a pop tile takes the head of the bank part (R262, R263). -/
def execQueuePop (c : CtxId) (n : Nat) (s : State) : Out :=
  match s.tileOf c n 3 with
  | none => .next s
  | some t =>
    let x := s.ctx c
    let k := agTgt t.ctrl
    match x.bank? k with
    | some b =>
      if x.pushes n || b.mode != .fifo || b.zeroing || t.pos ≥ t.count then .next s
      else match b.q.part with
        | v :: rest =>
          (match x.tilePack n { t with pos := t.pos + 1 } v (t.pos + 1 == t.count) with
           | some f => .next ((s.updBank c k (fun b => { b with q := { b.q with part := rest } })).updFab c (fun _ => f))
           | none => .next s)
        | [] => .next s
    | none => .next s

/-- Has every push tile of a bank closed, or the load been stopped? -/
def Ctx.pushesDone (x : Ctx) (k : Nat) : Bool :=
  x.fab.stopped || x.fab.tiles.all (fun e => !(agMode e.2.ctrl == 3 && agTgt e.2.ctrl == k && x.pushes e.1) || e.2.done)

/-- A unit's access for which no remote page serves (R426). -/
def State.spillAccess (s : State) (c : CtxId) (k : Nat) (va n : Nat) (need : Need) : SeqX :=
  s.onlyLocal (coreOf c) (dieOf (coreOf c)) (s.ctx c).asid.toNat va need.wr (s.unitAccess (.spill c k) c va n need)

/-- The addresses of the elements of a ring range: those of its end wrap to its base (R263). -/
def ChanQ.ringAddrs (q : ChanQ) (at_ m : Nat) : List Nat := (List.range m).map (fun i => q.rb + (at_ + 4 * i) % max 1 q.rs)

/-- SPILL_WRITE: the spill path writes its block into the ring: when it is full, when a refill needs it, or when the load ends (R263, R298). -/
def execSpillWrite (c : CtxId) (k : Nat) (s : State) : Out :=
  let x := s.ctx c
  match x.bank? k with
  | none => .next s
  | some b =>
    let q := b.q
    if x.cur.st != .running || x.fab.held || b.mode != .fifo || q.held.isEmpty then .next s
    else if !(q.t % 64 == 0 || q.wantsHeld || x.pushesDone k) then .next s
    else
      let at_ := q.rb + (q.t - 4 * q.held.length) % max 1 q.rs
      match s.spillAccess c k at_ (4 * q.held.length) ⟨false, true⟩ with
      | .hold s => .next s
      | .fault s t => .next (s.fabFault c t)
      | .ok pa =>
        let bs := (q.held.map (fun e => toBytes 4 e.1.toNat)).flatten
        let new := q.held.zipIdx.map (fun e => (e.1.1, some (memKey pa + 4 * e.2)))
        let good := new.take (q.held.takeWhile (fun e => !s.ringHit e)).length
        let s := (s.reach (coreOf c) (dieOf (coreOf c)) (some (dieOf (coreOf c))) x.asid.toNat at_ pa (4 * q.held.length) true).devWrite pa bs
        .next ((s.noteRing good).updBank c k (fun b => { b with q := { b.q with held := [], ring := b.q.ring ++ new } }))

/-- The elements of a ring range translated and checked one after the other: their physical addresses (R263, R298). -/
def State.ringAccess (s : State) (c : CtxId) (k : Nat) : List Nat → Except SeqX (List Nat)
  | [] => .ok []
  | va :: t =>
    match s.spillAccess c k va 4 ⟨true, false⟩ with
    | .ok pa =>
      match State.ringAccess s c k t with
      | .ok l => .ok (pa :: l)
      | .error e => .error e
    | e => .error e

/-- The elements that a refill takes, each with its place now: those read, but from the first that another agent has written, or that follows such a one,
on, free values. An element whose page has moved since is one that another agent has written if its value has changed: DESIGN CHOICE (log 12). -/
def State.refillEls (s : State) (lost h free : Nat) : List (W32 × Nat) → List (W32 × Option Nat) → Bool → List W32 × Bool
  | [], _, b => ([], b)
  | (v, pa) :: t, ring, b =>
    let b := b || h < lost || (match ring.head? with
      | some r => r.1 != v || (r.2 == some pa && s.ringHit r)
      | none => true)
    let (l, e) := s.refillEls lost (h + 4) free t (ring.drop 1) b
    ((if b then w32 ((List.range 4).map (fun i => Config.unspecByte free (h + i))) else v) :: l, e)

/-- RING_REFILL: with sixteen free slots, elements move from the ring to the bank part's tail (R263). From the first element on that another agent has
written, the contents up to the tail are free values (R264). -/
def execRingRefill (c : CtxId) (k : Nat) (s : State) : Out :=
  let x := s.ctx c
  match x.bank? k with
  | none => .next s
  | some b =>
    let q := b.q
    if x.cur.st != .running || x.fab.stopped || x.fab.held || !x.fab.owns k || !b.refillDue || q.wantsHeld then .next s
    else
      let m := min 16 ((q.t - q.h) / 4)
      let vas := q.ringAddrs q.h m
      match s.ringAccess c k vas with
      | .error (.hold s) => .next s
      | .error (.fault s t) => .next (s.fabFault c t)
      | .error (.ok _) => .next s
      | .ok pas =>
        let (els, bad) := s.refillEls q.lost q.h s.free (pas.map (fun pa => (w32 (s.devBytes pa 4), memKey pa))) q.ring false
        let s := (vas.zip pas).foldl (fun s p => s.reach (coreOf c) (dieOf (coreOf c)) (some (dieOf (coreOf c))) x.asid.toNat p.1 p.2 4 false) s
        .next ({ s with free := if bad then s.free + 1 else s.free }.updBank c k (fun b => { b with q := { b.q with
          part := b.q.part ++ els, h := b.q.h + 4 * m, ring := b.q.ring.drop m, lost := if bad then b.q.t else b.q.lost } }))

/-! ### BANK.MODE and the RING group (R258, R298, R299) -/

/-- BANK_MODE (R276, R311). -/
def bankTrap (val cause : Nat) : Trap := ⟨0x13, BitVec.ofNat 64 val, BitVec.ofNat 16 cause⟩

/-- Is an access of the context to a bank outstanding (R258 step 1)? -/
def State.bankBusy (s : State) (c : CtxId) (k : Nat) : Bool :=
  let x := s.ctx c
  let lo := k * 2 ^ 17
  x.ops.any (fun o => !o.done && (match o.body.range with | some (a, n) => a < lo + 2 ^ 17 && lo < a + n | none => false))
    || (s.core (coreOf c)).chains.any (fun h => h.ctx == c && h.started)
    || x.fab.cells.any (fun e => e.2.acc.any (fun a => bankIx a.addr == k))
    || x.mn.cmds.any (fun m => m.started && bits m.tok 63 60 < 6)

/-- The change of mode, with its zeroing begun (R258 steps 2 and 3, R261). -/
def State.setMode (s : State) (c : CtxId) (k : Nat) (m : BankMode) (rb rs : Nat) : State :=
  match (s.ctx c).bank? k with
  | none => s
  | some b =>
    let base := b.bank * 2 ^ 17
    let s := s.updCore (coreOf c) (fun o => { o with sram := o.sram.zero base (2 ^ 17), poison := o.poison.filter (fun w => !(base ≤ w && w < base + 2 ^ 17)) })
    let s := s.updBank c k (fun b => { b with mode := m, zeroing := true, q := { rb := rb, rs := rs, h := 0, t := 0, part := [], held := [], ring := [], lost := 0 } })
    if b.mode == .cache || m == .cache then s.updCtx c (fun x => { x with near := [] }) else s

/-- Is a change of a bank's mode refused (R258)? -/
def State.modeRefused (s : State) (c : CtxId) (k : Nat) : Bool :=
  let x := s.ctx c
  match x.bank? k with
  | none => true
  | some b =>
    (b.mode == .fifo && (!b.q.part.isEmpty || b.q.t != b.q.h || !b.q.held.isEmpty
        || (x.cur.st == .running && x.fab.tiles.any (fun e => agMode e.2.ctrl == 3 && agTgt e.2.ctrl == k))))
      || s.locked c (k * 2 ^ 17) (2 ^ 17)

/-- The pages of a ring translated for reading and writing under steps 3 and 4 of R296 (R298). -/
def State.ringPages (s : State) (c : CtxId) (rb : Nat) : Nat → Option SeqX
  | 0 => none
  | n + 1 =>
    match State.ringPages s c rb n with
    | some e => some e
    | none =>
      let va := max rb ((rb / 2 ^ 17 + n) * 2 ^ 17)
      match s.devTrans c (BitVec.ofNat 64 va) 1 63 ⟨true, true⟩ false with
      | .ok pa =>
        (match s.wallFault (s.ctx c).ten.toNat (some (dieOf (coreOf c))) (bits (BitVec.ofNat 64 va) 55 0) pa with
         | some t => some (.fault (s.noteRefusal (coreOf c) (s.ctx c).ten.toNat pa t) t)
         | none => none)
      | e => some e

/-- Mode codes (R256). -/
def BankMode.ofCode (n : Nat) : BankMode := if n == 0 then .spad else if n == 1 then .cache else if n == 2 then .fifo else .free
/-- The code of a mode. -/
def BankMode.code : BankMode → Nat
  | .spad => 0
  | .cache => 1
  | .fifo => 2
  | .free => 3

/-- BANK.MODE (R298). -/
def execBankMode (g : Guard) (d a : BitVec 5) (rsz : BitVec 4) (mode : BitVec 2) (k : BitVec 5) (s : State) : Out :=
  let kn := k.toNat
  let m := BankMode.ofCode mode.toNat
  s.issue g (fun c => c.pends d) (fun c =>
    let rb := (c.reg a).toNat
    let rs := 2 ^ (16 + rsz.toNat)
    match c.bank? kn with
    | none => s.raise s.cur (bankTrap kn 5)
    | some b =>
      if m == .fifo && (rb % 2 ^ 16 != 0 || rb ≥ 2 ^ 56) then s.raise s.cur (bankTrap rb 4)
      else match if m == .fifo then s.ringPages s.cur rb ((rb % 2 ^ 17 + rs + 2 ^ 17 - 1) / 2 ^ 17) else none with
        | some (.fault s t) => s.raise s.cur t
        | some (.hold s) => s
        | _ =>
          if s.modeRefused s.cur kn then s.raise s.cur (bankTrap kn 3)
          else if s.bankBusy s.cur kn then s.waitFor s.cur (.bankMode d kn m rb rs)
          else (s.setMode s.cur kn m rb rs).updCtx s.cur (fun c => (c.setReg d (BitVec.ofNat 64 b.mode.code)).advance))

/-- The checks of the RING group (R299): the bank, or the trap. An index whose bits [63:5] are not 0 names no bank, and raises cause 5 with all of it in
TRAPV: DESIGN CHOICE (log 128). -/
def Ctx.ringBank (c : Ctx) (v : W64) : Except Trap BudBank :=
  match c.bank? v.toNat with
  | none => .error (bankTrap v.toNat 5)
  | some b => if b.mode == .fifo then .ok b else .error (bankTrap v.toNat 6)

/-- RING.HEAD and RING.TAIL (R299, R443). -/
def State.ringRead (s : State) (i : Instr) (g : Guard) (d a : BitVec 5) (f : ChanQ → Nat) : Out :=
  s.issue g (fun c => c.pends d) (fun c =>
    if c.det then s.raise s.cur (detOrder i)
    else match c.ringBank (c.reg a) with
      | .error t => s.raise s.cur t
      | .ok b => s.setCtx s.cur (c.setReg d (BitVec.ofNat 64 (f b.q))).advance)

/-- RING.HEAD (R299). -/
def execRingHead (g : Guard) (d a : BitVec 5) (s : State) : Out := s.ringRead (.ringHead g d a) g d a (fun q => q.h)
/-- RING.TAIL (R299). -/
def execRingTail (g : Guard) (d a : BitVec 5) (s : State) : Out := s.ringRead (.ringTail g d a) g d a (fun q => q.t)

/-- RING.RESET (R299). -/
def execRingReset (g : Guard) (d a : BitVec 5) (s : State) : Out :=
  s.issue g (fun c => c.pends d) (fun c =>
    match c.ringBank (c.reg a) with
    | .error t => s.raise s.cur t
    | .ok b =>
      let k := (c.reg a).toNat
      if c.cur.st == .running && c.fab.tiles.any (fun e => agMode e.2.ctrl == 3 && agTgt e.2.ctrl == k) then s.raise s.cur (bankTrap k 7)
      else
        let n := b.q.part.length + (b.q.t - b.q.h) / 4
        (s.updBank s.cur k (fun b => { b with q := { b.q with part := [], held := [], h := 0, t := 0, ring := [], lost := 0 } })).updCtx s.cur
          (fun c => (c.setReg d (BitVec.ofNat 64 n)).advance))

/-! ### Remote stores (R427) -/

/-- A posted remote store ends: RSO falls. -/
def State.endRemote (s : State) (i : Nat) : State :=
  match s.rstores[i]? with
  | none => s
  | some r => { s.updCtx r.ctx (fun x => { x with rso := if x.lease == r.lid then x.rso - 1 else x.rso }) with rstores := s.rstores.eraseIdx i }

/-- REMOTE_STORE_ACK (R427). -/
def execRemoteStoreAck (i : Nat) (s : State) : Out := .next (s.endRemote i)

/-- REMOTE_STORE_LOST: unacknowledged for 1,048,576 cycles; event 11 (R409, R427). -/
def execRemoteStoreLost (i : Nat) (s : State) : Out :=
  match s.rstores[i]? with
  | none => .next s
  | some r =>
    if s.time < r.sent + 1048576 then .next s
    else .next ((s.endRemote i).event 11 (s.ctx r.ctx).ten.toNat r.lid 0 0 (coreOf r.ctx) (r.ctx % 4) (BitVec.ofNat 64 r.pa))

end Sys2Proof.Machine
end

