-- ==== Sys2Proof/Machine/Acn.lean ====
section
/-! DEFINITION. The accumulate network: chains, joins, blocks, the sink adder, completion and the ACH instructions (R228 to R252, R361). -/

namespace Sys2Proof.Machine

/-! ### Messages (R232, R233) -/

/-- The context at a lease position. -/
def Lease.at? (l : Lease) (p : Nat × Nat) : Option CtxId := if p.1 < l.w && p.2 < l.h then l.ctxs[p.2 * l.w + p.1]? else none

/-- The contributor or joiner that a message concerns. -/
def AcnBody.ctx : AcnBody → CtxId
  | .data b => b.src
  | .credit c _ => c
  | .joinReq c _ _ _ _ => c
  | .joinRep c _ _ _ _ _ _ _ => c
  | .abort c _ => c
  | .refusal c _ _ _ _ => c

/-- A message cannot cross a failed link: a join's context takes HW_ERROR, and for every other message its load is fault-held too. -/
def State.acnLost (s : State) (b : AcnBody) (src : Nat) : State :=
  match b with
  | .joinReq c _ _ _ _ => s.lostMessage c src
  | .joinRep c _ _ _ _ _ _ _ => s.lostMessage c src
  | b => s.linkFault b.ctx src

/-- A message sent between cores of a lease; over a failed link it completes with HW_ERROR at the context that it concerns (R233, R405). -/
def State.acnSend (s : State) (lid : Nat) (fr dest : CoreId) (b : AcnBody) : State :=
  match s.deadOn false 40 fr dest with
  | some src => s.acnLost b src
  | none => { s with acnMsgs := s.acnMsgs ++ [{ lid := lid, fr := fr, dest := dest, body := b }] }

/-- Lane of a message (R232 Table 2). -/
def AcnBody.lane : AcnBody → Nat
  | .data _ => 0
  | .credit _ _ => 1
  | .joinReq _ _ _ _ _ => 2
  | .joinRep _ _ _ _ _ _ _ _ => 2
  | .abort _ _ => 3
  | .refusal _ _ _ _ _ => 3

/-- Message i, if it is the next of its pair of cores and lane to arrive (R233). -/
def State.acnNextMsg (s : State) (i : Nat) : Option AcnMsg :=
  match s.acnMsgs[i]? with
  | none => none
  | some m => if (s.acnMsgs.take i).any (fun k => k.fr == m.fr && k.dest == m.dest && k.body.lane == m.body.lane) then none else some m

/-- Message i taken off the network. -/
def State.acnTake (s : State) (i : Nat) : State := { s with acnMsgs := s.acnMsgs.eraseIdx i }

/-- Does a lease copy or re-bind, so that messages to it are held (R251, R377)? -/
def State.acnHeld (s : State) (lid : Nat) : Bool := (s.leases.get? lid).any (fun l => l.moving.any (fun m => m.step ≥ 4))
/-- Is the lease past its drain, so that blocks not yet sent are held at their ports (R377 step 3)? -/
def State.acnStop (s : State) (lid : Nat) : Bool := (s.leases.get? lid).any (fun l => l.moving.any (fun m => m.step ≥ 3))

/-! ### Chains of a core (R228 to R231, R249) -/

/-- A chain of a core. -/
def State.chain? (s : State) (core : CoreId) (cid : Nat) : Option SinkChain := (s.core core).sinks.get? cid
/-- A chain replaced. -/
def State.putChain (s : State) (core : CoreId) (cid : Nat) (k : SinkChain) : State := s.updCore core (fun o => { o with sinks := o.sinks.set cid k })
/-- A chain id freed. -/
def State.freeChain (s : State) (core : CoreId) (cid : Nat) : State := s.updCore core (fun o => { o with sinks := o.sinks.erase cid })
/-- The chain with an id, if context c holds it. -/
def State.ownChain (s : State) (c : CtxId) (cid : Nat) : Option SinkChain :=
  match s.chain? (coreOf c) cid with
  | some k => if k.ctx == c then some k else none
  | none => none

/-- The status word of a chain, 0 for an id that is not held (R249). -/
def chainWord : Option SinkChain → W64
  | none => 0
  | some k => BitVec.ofNat 64 (k.added * 2 ^ 32 + k.flags.toNat * 2 ^ 16 + (if parAnch k.param then 128 else 0) + (if k.st == 2 then 2 else 1))

/-- The status word of a slot (R249). -/
def slotWord (j : JoinSlot) : W64 :=
  if j.st == 0 then 0
  else BitVec.ofNat 64 (j.sent * 2 ^ 32 + j.out * 2 ^ 24 + (if j.anchored then 128 else 0) + j.st)

/-- ACN_CHAIN at an instruction (R252). -/
def seqChain (v : W64) (cause : Nat) : Trap := chainTrap v cause unitSeq

/-! ### Instructions (R243 to R249) -/

/-- Step 1 of R244: is the parameter word valid? -/
def parOk (p : W64) : Bool :=
  let anch := parAnch p
  let a := (p >>> 56).truncate 8
  bits p 21 20 == 0 && parL p != 0 && 1 ≤ parKC p && parKC p ≤ 65536
    && (if anch then anchorOk a && bits p 55 54 != 3 && !p.getLsbD 53 else a == 0 && bits p 55 54 == 0 && parKC p == parN p * parB p)

/-- Step 1 of R244 on the address word. -/
def achAddrOk (p v : W64) : Bool :=
  bits v 31 22 == 0 && bits v 62 54 == 0 && (p.getLsbD 52 || (bits v 53 32 == 0 && !v.getLsbD 63))

/-- The checks of R244 and R361. TRAPV of cause 3 is the parameter word: DESIGN CHOICE (log 125). -/
def State.openFault (s : State) (c : CtxId) (p v : W64) : Option Trap :=
  let x := s.ctx c
  let ba := bits v 21 0
  let ca := bits v 53 32
  let ce := p.getLsbD 52
  let z := parZ p
  let held := (s.core (coreOf c)).sinks
  let own := held.filter (fun e => e.2.ctx == c)
  let meets (a n : Nat) : Bool := own.any (fun e => a < e.2.base + parZ e.2.param && e.2.base < a + n)
  let word := w64 (s.spadBytes c ca 8)
  if !parOk p then some (seqChain p 1)
  else if !achAddrOk p v then some (seqChain v 1)
  else if ba % 64 != 0 then some ⟨0x02, BitVec.ofNat 64 ba, 64⟩
  else if ca % 8 != 0 then some ⟨0x02, BitVec.ofNat 64 ca, 8⟩
  else if ba + z > x.budget then some ⟨0x03, BitVec.ofNat 64 ba, 64⟩
  else if ce && ca + 8 > x.budget then some ⟨0x03, BitVec.ofNat 64 ca, 8⟩
  else match x.badBank ba z with
    | some b => some ⟨0x13, BitVec.ofNat 64 b, 1⟩
    | none =>
    match if ce then x.badBank ca 8 else none with
    | some b => some ⟨0x13, BitVec.ofNat 64 b, 1⟩
    | none =>
      if meets ba z then some (seqChain (BitVec.ofNat 64 ba) 2)
      else if ce && (meets ca 8 || (ca < ba + z && ba < ca + 8)) then some (seqChain (BitVec.ofNat 64 ca) 2)
      else if held.length ≥ 4 then some (seqChain p 3)
      else if v.getLsbD 63 && (!word.getLsbD 63 || bits word 62 56 != 0 || word.toNat % 8 != 0) then some (seqChain word 1)
      else none

/-- ACH.OPEN (R244). -/
def execAchOpen (g : Guard) (d a b : BitVec 5) (s : State) : Out :=
  s.issue g (fun c => c.pends d || c.cntSt != 0) (fun c =>
    let p := c.reg a
    let v := c.reg b
    match s.openFault s.cur p v with
    | some t => s.raise s.cur t
    | none =>
      let core := coreOf s.cur
      let cid := ((List.range 16).find? (fun i => (s.chain? core i).isNone)).getD 0
      let ba := bits v 21 0
      let far := v.getLsbD 63
      let cnt := if far then bits (w64 (s.spadBytes s.cur (bits v 53 32) 8)) 55 0 else bits v 53 32
      let k : SinkChain := { ctx := s.cur, st := 1, param := p, base := ba, cnt := cnt, far := far, added := 0, flags := 0, joined := [], staged := [],
                             next := [] }
      let s := if parAnch p then s.spadWrite s.cur ba (List.replicate (parRa p) 0) else s
      (s.putChain core cid k).updCtx s.cur (fun c =>
        (c.setReg d (BitVec.ofNat 64 (c.ly.toNat * 2 ^ 9 + c.lx.toNat * 2 ^ 4 + cid))).advance))

/-- Slot, sink position and chain id of a handle (R244 Table 7). -/
def handleSlot (h : W64) : Nat := bits h 19 16
/-- Sink position of a handle. -/
def handleSink (h : W64) : Nat × Nat := (bits h 8 4, bits h 12 9)
/-- Chain id of a handle. -/
def handleCid (h : W64) : Nat := bits h 3 0

/-- ACH.JOIN (R245). -/
def execAchJoin (g : Guard) (d a b : BitVec 5) (s : State) : Out :=
  s.issue g (fun c => c.pends d) (fun c =>
    let h := c.reg a
    let p := c.reg b
    let l := s.leaseFor s.cur
    if bits h 63 20 != 0 || bits h 15 13 != 0 || (handleSink h).1 ≥ l.w || (handleSink h).2 ≥ l.h then s.raise s.cur (seqChain h 1)
    else if p.toNat > 511 then s.raise s.cur (seqChain p 1)
    else if (c.join (handleSlot h)).st != 0 then s.raise s.cur (seqChain h 5)
    else
      let sink := (l.at? (handleSink h)).getD s.cur
      let s := s.setCtx s.cur { c with joinN := c.joinN + 1 }
      (s.acnSend (s.lidOf s.cur) (coreOf s.cur) (coreOf sink) (.joinReq s.cur d h p.toNat (16 * c.joinN + handleSlot h))).waitFor s.cur (.achJoin d none))

/-- ACH.WAIT (R246). A wait that a trap interrupted, and whose id the trap's handler has emptied with ACH.ABORT, ends when TRET runs it again. -/
def execAchWait (g : Guard) (d : BitVec 5) (cid : BitVec 4) (s : State) : Out :=
  s.issue g (fun c => c.pends d) (fun c =>
    match s.ownChain s.cur cid.toNat with
    | none =>
      if c.achInt == some (c.ipc, cid.toNat) then s.setCtx s.cur { c.setReg d 0 with achInt := none }.advance
      else s.raise s.cur (seqChain (cid.zeroExtend 64) 8)
    | some k =>
      let c := { c with achInt := none }
      if k.st == 2 then s.setCtx s.cur (c.setReg d (chainWord (some k))).advance else (s.setCtx s.cur c).waitFor s.cur (.achWait d cid.toNat))

/-- ACH.WAIT.J (R246). -/
def execAchWaitJ (g : Guard) (d : BitVec 5) (slot : BitVec 4) (s : State) : Out :=
  s.issue g (fun c => c.pends d) (fun c =>
    let j := c.join slot.toNat
    if j.out == 0 then s.setCtx s.cur (c.setReg d (slotWord j)).advance else s.waitFor s.cur (.achWaitJ d slot.toNat))

/-- ACH.CLOSE (R247). -/
def execAchClose (g : Guard) (cid : BitVec 4) (s : State) : Out :=
  s.issue g (fun _ => false) (fun c =>
    match s.ownChain s.cur cid.toNat with
    | some k =>
      if k.st == 2 then
        (s.freeChain (coreOf s.cur) cid.toNat).setCtx s.cur { c with achInt := c.achInt.filter (fun e => e.2 != cid.toNat) }.advance
      else s.raise s.cur (seqChain (cid.zeroExtend 64) 8)
    | none => s.raise s.cur (seqChain (cid.zeroExtend 64) 8))

/-- ACH.CLOSE.J (R247). -/
def execAchCloseJ (g : Guard) (slot : BitVec 4) (s : State) : Out :=
  s.issue g (fun c => (c.join slot.toNat).out != 0) (fun c => s.setCtx s.cur (c.setJoin slot.toNat JoinSlot.blank).advance)

/-- A block refused: its credit returns on lane 1, and a refusal on lane 3, with cause 1 for an absent sink and 2 for a chain that is not open
(R232, R248, R251, R252). -/
def State.refuse (s : State) (lid : Nat) (fr : CoreId) (cause : Nat) (b : AcnBlock) : State :=
  (s.acnSend lid fr (coreOf b.src) (.refusal b.src b.key b.unit cause b)).acnSend lid fr (coreOf b.src) (.credit b.src b.key)

/-- A chain torn down: staged blocks refused, the id freed; an abort sends notices to the joined slots, a sink that goes sends none (R248, R251). -/
def State.tearChain (s : State) (core : CoreId) (cid : Nat) (k : SinkChain) (notify : Bool) : State :=
  let lid := s.lidOf k.ctx
  let s := if notify then k.joined.foldl (fun s j => s.acnSend lid core (coreOf j.2.1) (.abort j.2.1 j.2.2)) s else s
  (k.staged.foldl (fun s b => s.refuse lid core (if notify then 2 else 1) b) s).freeChain core cid

/-- ACH.ABORT (R248). -/
def execAchAbort (g : Guard) (cid : BitVec 4) (s : State) : Out :=
  s.issue g (fun _ => false) (fun c =>
    match s.ownChain s.cur cid.toNat with
    | none => s.raise s.cur (seqChain (cid.zeroExtend 64) 8)
    | some k =>
      ((s.tearChain (coreOf s.cur) cid.toNat k true).spadWrite s.cur k.base (List.replicate (parZ k.param) 0)).setCtx s.cur c.advance)

/-- Every chain whose sink a context is, destroyed (R251, R394 step 5). -/
def State.tearChains (s : State) (c : CtxId) : State :=
  ((s.core (coreOf c)).sinks.filter (fun e => e.2.ctx == c)).foldl (fun s e => s.tearChain (coreOf c) e.1 e.2 false) s

/-- ACH.STAT (R249, R443). -/
def execAchStat (g : Guard) (d : BitVec 5) (cid : BitVec 4) (s : State) : Out :=
  s.issue g (fun c => c.pends d) (fun c =>
    if c.det then s.raise s.cur (detOrder (.achStat g d cid))
    else s.setCtx s.cur (c.setReg d (chainWord (s.ownChain s.cur cid.toNat))).advance)

/-- ACH.STAT.J (R249, R443). -/
def execAchStatJ (g : Guard) (d : BitVec 5) (slot : BitVec 4) (s : State) : Out :=
  s.issue g (fun c => c.pends d) (fun c =>
    if c.det then s.raise s.cur (detOrder (.achStatJ g d slot))
    else s.setCtx s.cur (c.setReg d (slotWord (c.join slot.toNat))).advance)

/-! ### Joins and blocks (R234 to R238, R245, R251) -/

/-- ACN_JOIN_REQUEST: the request reaches the sink, which replies; a chain in its finalisation is still OPEN (R240, R245). -/
def execAcnJoinRequest (i : Nat) (s : State) : Out :=
  match s.acnNextMsg i with
  | some ⟨lid, fr, dest, .joinReq c d h p key⟩ =>
    if s.acnHeld lid then .next s
    else
      let l := (s.leaseAt lid).getD (s.leaseFor c)
      let reply (s : State) (fail : Option Trap) (w len : Nat) (an : Bool) : State :=
        (s.acnTake i).acnSend lid dest fr (.joinRep c key fail w len an h p)
      let absent (k : Nat) : Trap := absentTrap h k unitSeq
      (match l.at? (handleSink h) with
       | none => .next (reply s (some (absent 1)) 0 0 false)
       | some sink =>
         let x := s.ctx sink
         if x.st == .empty then .next (reply s (some (absent 1)) 0 0 false)
         else if x.ten != (s.ctx c).ten then .next ((s.acnTake i).fwDrop (s.ctx c).ten.toNat (sink % 4) (coreOf sink) 0 1 x.ten.toNat)
         else match s.ownChain sink (handleCid h) with
           | none => .next (reply s (some (absent 2)) 0 0 false)
           | some k =>
             if k.st == 2 then .next (reply s (some (absent 2)) 0 0 false)
             else if p ≥ parN k.param || k.joined.any (fun j => j.1 == p) then .next (reply s (some (seqChain (BitVec.ofNat 64 p) 1)) 0 0 false)
             else
               let s := s.putChain (coreOf sink) (handleCid h) { k with joined := k.joined ++ [(p, c, key)] }
               .next (reply s none (parW k.param) (parL k.param) (parAnch k.param)))
  | _ => .next s

/-- ACN_JOIN_REPLY: the reply binds the slot, or the join faults (R245). -/
def execAcnJoinReply (i : Nat) (s : State) : Out :=
  match s.acnNextMsg i with
  | some ⟨_, _, _, .joinRep c key fail w len an h p⟩ =>
    let s := s.acnTake i
    let d := match (s.ctx c).wait with
      | some (.achJoin d _) => some d
      | _ => none
    (match fail with
     | some t => if d.isSome && (s.ctx c).raised.isEmpty then .next (s.raise c t) else .next s
     | none =>
       let j : JoinSlot := { key := key, st := 4, handle := h, pos := p, w := w, len := len, anchored := an, credits := w, sent := 0, out := 0, next := 0, gone := false }
       let s := s.updCtx c (fun x => x.setJoin (key % 16) j)
       match d with
       | some d => .next (s.retire c (fun x => x.setReg d (BitVec.ofNat 64 w)))
       | none => .next s)
  | _ => .next s

/-- A closed block sent on a slot, which spends a credit (R232, R234). -/
def State.sendBlock (s : State) (c : CtxId) (slot unit blk : Nat) (els : List W32) : State :=
  let x := s.ctx c
  let j := x.join slot
  let sink := handleSink j.handle
  let dest := (((s.leaseFor c).at? sink).map coreOf).getD (coreOf c)
  let b : AcnBlock := { src := c, key := j.key, unit := unit, ten := x.ten.toNat, sink := sink, cid := handleCid j.handle, pos := j.pos, blk := blk, els := els, room := 0 }
  (s.setCtx c (x.setJoin slot { j with credits := j.credits - 1, sent := j.sent + 1, out := j.out + 1, next := blk + 1 })).acnSend (s.lidOf c)
    (coreOf c) dest (.data b)

/-- A closed block is sent on a credit, or meets a slot that refuses it. s' is the state without the block in its place (R234, R236, R248). -/
def State.sendClosed (s s' : State) (c : CtxId) (slot unit b : Nat) (els : List W32) : Out :=
  let x := s.ctx c
  let j := x.join slot
  if x.fab.stopped || x.cur.st != .running || s.acnStop x.lease then .next s
  else match sendFault { j with next := b } b unit with
    | some t => if x.fab.held then .next s else .next (s.fabFault c t)
    | none => if j.credits == 0 then .next s else .next (s'.sendBlock c slot unit b els)

/-- ACN_BLOCK_SEND: the oldest closed block that waits on a slot is sent on a credit, or meets a slot that refuses it: one that the sink has refused
before, once the load is no longer held (R390), or else one at an ACPUT cell. A fault of its load does not keep the latter back: the block had been
closed before (R234, R236, R248, R251). -/
def execAcnBlockSend (c : CtxId) (slot : Nat) (s : State) : Out :=
  let x := s.ctx c
  match x.fab.again.find? (fun e => e.1 == slot) with
  | some e =>
    if x.fab.held then .next s
    else s.sendClosed (s.updFab c (fun f => { f with again := f.again.erase e })) c slot e.2.1 e.2.2.1 e.2.2.2
  | none =>
    match x.fab.cells.find? (fun e => wOp e.2.word == 0x72 && wImm e.2.word % 16 == slot && !e.2.waitBlk.isEmpty) with
    | none => .next s
    | some (n, k) =>
      match k.waitBlk with
      | [] => .next s
      | (b, els) :: rest => s.sendClosed (s.putCell c n { k with waitBlk := rest }) c slot (unitCell n) b els

/-- A data packet written into its position's staging window, and staged (R230, R237). In the window it takes the first place that is free: DESIGN CHOICE
(log 132). -/
def State.stage (s : State) (core : CoreId) (cid : Nat) (k : SinkChain) (b : AcnBlock) : State :=
  let used (r : Nat) : Bool := k.staged.any (fun q => q.pos == b.pos && q.room == r)
  let room := ((List.range (parW k.param)).find? (fun r => !used r)).getD 0
  let at_ := k.base + parRa k.param + 64 * (parW k.param * b.pos + room)
  (s.spadWrite k.ctx at_ ((b.els.map (fun v => toBytes 4 v.toNat)).flatten)).putChain core cid { k with staged := k.staged ++ [{ b with room := room }] }

/-- ACN_BLOCK_ARRIVE: a data packet is staged, discarded with its credit by a COMPLETE chain, dropped by the firewall, or refused (R237, R238, R240,
R251, R380). A block beyond the count is staged like any other until its chain is COMPLETE. -/
def execAcnBlockArrive (i : Nat) (s : State) : Out :=
  match s.acnNextMsg i with
  | some ⟨lid, _, dest, .data b⟩ =>
    if s.acnHeld lid then .next s
    else
      let s' := s.acnTake i
      (match ((s.leaseAt lid).getD (s.leaseFor b.src)).at? b.sink with
       | none => .next (s'.refuse lid dest 1 b)
       | some sink =>
         let x := s.ctx sink
         if x.st != .empty && x.ten.toNat != b.ten then .next (s'.fwDrop b.ten (sink % 4) (coreOf sink) 0 1 x.ten.toNat)
         else match s.ownChain sink b.cid with
           | none => .next (s'.refuse lid dest (if x.st == .empty then 1 else 2) b)
           | some k =>
             if k.joined.all (fun j => j.1 != b.pos) then .next (s'.refuse lid dest 2 b)
             else if k.st == 2 then .next (s'.acnSend lid dest (coreOf b.src) (.credit b.src b.key))
             else .next (s'.stage (coreOf sink) b.cid k b))
  | _ => .next s

/-- Blocks of a position that have been added (R237). -/
def SinkChain.done (k : SinkChain) (p : Nat) : Nat := ((k.next.find? (fun e => e.1 == p)).map (·.2)).getD 0

/-- The staged block that the adder may take next (R237, R239). -/
def SinkChain.ready (k : SinkChain) : Option AcnBlock :=
  if parAnch k.param then k.staged.head?
  else k.staged.find? (fun b => b.blk == k.done b.pos && (List.range b.pos).all (fun p => k.done p > b.blk))

/-- One element of an ORDERED block (R237): the sum and its flags. -/
def orderedAdd (first : Bool) (v c : W32) : W32 × W32 :=
  if first then
    (match Fmt.fp32.val c.toNat with
     | .nan sg => (BitVec.ofNat 32 Fmt.fp32.nan, if sg then flagNV else 0)
     | _ => (c, 0))
  else let (r, fl) := Fmt.fp32.fadd .rne v.toNat c.toNat; (BitVec.ofNat 32 r, fl)

/-- A block's elements added into the result area: bytes to write in order, and flags (R237, R238). -/
def State.addBlock (s : State) (k : SinkChain) (b : AcnBlock) : State × BitVec 8 :=
  let n := min 16 (parL k.param - 16 * b.blk)
  (List.range n).foldl (fun (acc : State × BitVec 8) m =>
    let c := b.els.getD m 0
    let e := 16 * b.blk + m
    if parAnch k.param then
      let a := k.base + 16 * e
      let (i, f) := anchorOf ((k.param >>> 56).truncate 8) c
      let old : BitVec 80 := BitVec.ofNat 80 (ofBytes (acc.1.spadBytes k.ctx a 10))
      (acc.1.spadWrite k.ctx a (toBytes 10 (anchorAdd old i).toNat), acc.2 ||| f.zeroExtend 8)
    else
      let a := k.base + 4 * e
      let (v, f) := orderedAdd (b.pos == 0 && !k.param.getLsbD 53) (acc.1.spad32 k.ctx a) c
      (acc.1.spadWrite k.ctx a (toBytes 4 v.toNat), acc.2 ||| f.truncate 8)) (s, k.flags)

/-- The chain id that a core's adder serves next, in round robin: the first from the one after the last served that has a block to add (R239). -/
def State.adderNext (s : State) (core : CoreId) : Option Nat :=
  ((List.range 16).map (fun i => ((s.core core).acnNext + i) % 16)).find? (fun n =>
    (s.chain? core n).any (fun k => k.st == 1 && k.added < parKC k.param && k.ready.isSome))

/-- ACN_BLOCK_ADD: the sink adder adds one block and returns its credit (R237 to R239). -/
def execAcnBlockAdd (core : CoreId) (cid : Nat) (s : State) : Out :=
  match s.chain? core cid with
  | none => .next s
  | some k =>
    if k.st != 1 || k.added ≥ parKC k.param || s.adderNext core != some cid then .next s
    else match k.ready with
      | none => .next s
      | some b =>
        let (s, fl) := s.addBlock k b
        let next := (b.pos, k.done b.pos + 1) :: k.next.filter (fun e => e.1 != b.pos)
        let s := s.putChain core cid { k with staged := k.staged.erase b, added := k.added + 1, flags := fl, next := next }
        .next ((s.updCore core (fun o => { o with acnNext := (cid + 1) % 16 })).acnSend (s.lidOf k.ctx) core (coreOf b.src) (.credit b.src b.key))

/-- ACN_CREDIT_RETURN: a credit reaches its slot (R234). -/
def execAcnCreditReturn (i : Nat) (s : State) : Out :=
  match s.acnNextMsg i with
  | some ⟨_, _, _, .credit c key⟩ =>
    .next ((s.acnTake i).updCtx c (fun x =>
      let j := x.join (key % 16)
      if j.st == 0 || j.key != key then x else x.setJoin (key % 16) { j with credits := min j.w (j.credits + 1), out := j.out - 1 }))
  | _ => .next s

/-- ACN_ABORT_NOTICE: a joined slot refuses further sends, unless it has been unbound from that chain (R248). -/
def execAcnAbortNotice (i : Nat) (s : State) : Out :=
  match s.acnNextMsg i with
  | some ⟨_, _, _, .abort c key⟩ =>
    .next ((s.acnTake i).updCtx c (fun x =>
      let j := x.join (key % 16)
      if j.st == 4 && j.key == key then x.setJoin (key % 16) { j with st := 5 } else x))
  | _ => .next s

/-- ACN_REFUSAL: the first refused block of a slot raises ACN_SINK_ABSENT at the unit that sent it, unless an abort notice came first; that block and
those after it count as not sent, and are attempted again when the hold is released (R248, R251, R252, R390). -/
def execAcnRefusal (i : Nat) (s : State) : Out :=
  match s.acnNextMsg i with
  | some ⟨_, _, _, .refusal c key unit cause b⟩ =>
    let s := s.acnTake i
    let j := (s.ctx c).join (key % 16)
    if j.st == 0 || j.key != key then .next s
    else
      let s := s.updCtx c (fun x => x.setJoin (key % 16) { j with st := if j.st == 4 then 6 else j.st, gone := if j.st == 4 then cause == 1 else j.gone, sent := j.sent - 1 })
      let s := if (j.st == 4 || j.st == 6) && (s.ctx c).cur.st == .running && !(s.ctx c).fab.stopped then
          s.updFab c (fun f => { f with again := f.again ++ [(key % 16, unit, b.blk, b.els)] })
        else s
      if j.st == 4 then .next (s.fabFault c (absentTrap j.handle cause unit)) else .next s
  | _ => .next s

/-! ### Completion (R240) -/

/-- One element of an ANCHORED result in its output format, with the range flag of its read-out (R52, R240). -/
def anchoredOut (p : W64) (fl : BitVec 8) (e : BitVec 80) : List Byte × BitVec 8 :=
  let a : BitVec 8 := (p >>> 56).truncate 8
  if bits p 55 54 == 0 then let (v, f) := anchorOut32 a e; (toBytes 4 v.toNat, f.zeroExtend 8)
  else if bits p 55 54 == 1 then let (v, f) := anchorOut64 e; (toBytes 8 v.toNat, f.zeroExtend 8)
  else (toBytes 10 e.toNat ++ [a, fl] ++ [0, 0, 0, 0], 0)

/-- ACN_FINALISE: after the KC-th addition the sums are read out, and the rest of the region is zeroed (R240). -/
def execAcnFinalise (core : CoreId) (cid : Nat) (s : State) : Out :=
  match s.chain? core cid with
  | none => .next s
  | some k =>
    if k.st != 1 || k.added < parKC k.param then .next s
    else
      let rest (s : State) (n : Nat) : State := s.spadWrite k.ctx (k.base + n) (List.replicate (parZ k.param - n) 0)
      if parAnch k.param then
        let outs := (List.range (parL k.param)).map (fun e =>
          anchoredOut k.param k.flags (BitVec.ofNat 80 (ofBytes (s.spadBytes k.ctx (k.base + 16 * e) 10))))
        let bs := (outs.map (·.1)).flatten
        let fl := outs.foldl (fun f o => f ||| o.2) k.flags
        .next ((rest (s.spadWrite k.ctx k.base bs) bs.length).putChain core cid { k with st := 3, flags := fl })
      else .next ((rest s (4 * parL k.param)).putChain core cid { k with st := 3 })

/-- An indivisible add at the counter of a chain: the state after it, with its fault, or the state in which it waits for its translation (R361); no
remote page serves it (R426). -/
def State.counterAdd (s : State) (w : Who) (c : CtxId) (dev : Bool) (a : Nat) (v : W64) : Except State (State × Option Trap) :=
  if dev then
    match s.onlyLocal (coreOf c) (dieOf (coreOf c)) (s.ctx c).asid.toNat a true (s.unitAccess w c a 8 ⟨true, true⟩) with
    | .hold s => .error s
    | .fault s t => .ok (s, some t)
    | .ok pa =>
      .ok ((s.reach (coreOf c) (dieOf (coreOf c)) (some (dieOf (coreOf c))) (s.ctx c).asid.toNat a pa 8 true).devWrite pa (toBytes 8 (s.dev64 pa + v).toNat), none)
  else .ok (s.spadWrite c a (toBytes 8 (w64 (s.spadBytes c a 8) + v).toNat), none)

/-- The completion token (R240 Table 4). -/
def chainToken (cid : Nat) (fl : BitVec 8) : W32 := BitVec.ofNat 32 (fl.toNat * 256 + cid)

/-- Does the context's running load have a port bound that has not closed EOS? -/
def Ctx.openPort (x : Ctx) (p : Nat) : Option Port :=
  if x.cur.st == .running && !x.fab.stopped then (x.fab.port? p).filter (fun q => !q.eos) else none

/-- CHAIN_COMPLETE: the region is unlocked, the chain is COMPLETE, blocks beyond the count are discarded with their credits, the counter is added, and
a token waits at acn.done (R240). With four tokens there the chain is not COMPLETE until one leaves: DESIGN CHOICE (log 126). -/
def execChainComplete (core : CoreId) (cid : Nat) (s : State) : Out :=
  match s.chain? core cid with
  | none => .next s
  | some k =>
    let x := s.ctx k.ctx
    let port := x.openPort 52
    if k.st != 3 || port.any (fun q => q.toks.length ≥ 4) then .next s
    else
      let add := if k.param.getLsbD 52 then s.counterAdd (.engine core (16 + cid) (s.ctx k.ctx).ten.toNat) k.ctx k.far k.cnt 1 else .ok (s, none)
      match add with
      | .error s => .next s
      | .ok (s, fault) =>
        let s := s.putChain core cid { k with st := 2, staged := [] }
        let s := k.staged.foldl (fun s b => s.acnSend (s.lidOf k.ctx) core (coreOf b.src) (.credit b.src b.key)) s
        let s := match port with
          | some q => s.updFab k.ctx (fun f => f.setPort 52 { q with toks := q.toks ++ [chainToken cid k.flags] })
          | none => s
        .next (match fault with
          | some t => s.raise k.ctx t
          | none => s)

/-- ACN_DONE_EOS: a routed acn.done closes EOS when the context holds no OPEN chain and no token waits (R240). -/
def execAcnDoneEos (c : CtxId) (s : State) : Out :=
  let x := s.ctx c
  match x.openPort 52 with
  | none => .next s
  | some q =>
    if !x.fab.routed (.port 52) || !q.toks.isEmpty || !x.fab.canClose (.port 52) 1
        || (s.core (coreOf c)).sinks.any (fun e => e.2.ctx == c && e.2.st != 2) then .next s
    else .next (s.updFab c (fun f => (f.setPort 52 { q with eos := true }).close (.port 52) (x.packet [] 2 0 false)))

end Sys2Proof.Machine
end

