-- ==== Sys2Proof/Machine/Matrix.lean ====
section
/-! DEFINITION. The matrix node: commands, their checks, the operations, the two pipes, and stops (R206 to R227, R235). -/

namespace Sys2Proof.Machine

/-! ### The control token (R208 to R210) -/

/-- OPC. -/
def tkOpc (t : W64) : Nat := bits t 63 60
/-- Effective rows M of a token under a grant word (R210). -/
def tkM (sh t : W64) : Nat := if t.getLsbD 59 then bits t 58 52 + 1 else bits sh 6 0 + 1
/-- Effective column groups minus 1. -/
def tkNg (sh t : W64) : Nat := if t.getLsbD 59 then bits t 51 50 else bits sh 17 16
/-- Effective columns N. -/
def tkN (sh t : W64) : Nat := 32 * (tkNg sh t + 1)
/-- Effective operand pair. -/
def tkPair (sh t : W64) : Nat := if t.getLsbD 59 then bits t 49 48 else bits sh 19 18
/-- K. -/
def tkK (t : W64) : Nat := bits t 47 33
/-- AS. -/
def tkAs (t : W64) : Nat := bits t 31 31
/-- TS. -/
def tkTs (t : W64) : Nat := bits t 30 30
/-- V of MV. -/
def tkV (t : W64) : Nat := bits t 22 20 + 1
/-- CH. -/
def tkCh (t : W64) : Nat := bits t 26 23
/-- Does the operation read a table set (R209)? -/
def tkUsesTs (sh t : W64) : Bool :=
  if tkOpc t == 1 || tkOpc t == 3 then tkPair sh t ≥ 2 else if tkOpc t == 2 then tkPair sh t == 2 else false
/-- Is the operation of the compute pipe (R221)? -/
def tkCompute (t : W64) : Bool := tkOpc t ≤ 5

/-- A mask of bits [hi:lo]. -/
def fieldMask (hi lo : Nat) : W64 := BitVec.ofNat 64 ((2 ^ (hi + 1 - lo) - 1) * 2 ^ lo)

/-- The bits that an operation uses (R209 Table 2). -/
def tkUsed (sh t : W64) : W64 :=
  let o := tkOpc t
  let m (b : Bool) (hi lo : Nat) : W64 := if b then fieldMask hi lo else 0
  let mul := o == 1 || o == 2 || o == 3
  fieldMask 63 60 ||| m (o != 4) 59 59 ||| m (o != 4 && t.getLsbD 59) 58 48 ||| m mul 47 32 ||| m (o != 4) 31 31
    ||| m (o == 4 || tkUsesTs sh t) 30 30 ||| m (o == 6) 29 27 ||| m (o == 7) 26 23 ||| m (o == 2) 22 19 ||| m (o == 6 || o == 7) 18 18
    ||| fieldMask 17 17 ||| m (t.getLsbD 17) 16 9

/-! ### Operands (R211, R215, R216) -/

/-- Bytes of n operand elements of a type: 16-bit, or CB4. -/
def elBytes (cb : Bool) (n : Nat) : Nat := if cb then (n + 1) / 2 else 2 * n
/-- Pieces per row (R211). -/
def pieces (cb : Bool) : Nat := if cb then 1 else 4
/-- Banks of the striped B operand (R211). -/
def bBanks (sh t : W64) : Nat := if tkOpc t == 2 || tkPair sh t == 2 then 8 else 4
/-- Is A of CB4? -/
def aCb (sh t : W64) : Bool := tkOpc t != 2 && tkPair sh t ≥ 2
/-- Is B, or the weights, of CB4? -/
def bCb (sh t : W64) : Bool := if tkOpc t == 2 then tkPair sh t == 2 else tkPair sh t == 3

/-- The byte ranges of a striped operand of K rows (R211). -/
def stripes (x s k : Nat) (cb : Bool) : List (Nat × Nat) :=
  (List.range s).map (fun b => ((x / 2 ^ 17 % 32 + b) * 2 ^ 17 + x % 2 ^ 17, 64 * ((k * pieces cb + s - 1) / s)))

/-- Byte j of row k of a striped operand (R211). -/
def stripeByte (x s k j : Nat) (cb : Bool) : Nat :=
  let n := k * pieces cb + j / 64
  (x / 2 ^ 17 % 32 + n % s) * 2 ^ 17 + x % 2 ^ 17 + 64 * (n / s) + j % 64

/-- Element i of a row of operand bytes. -/
def rowEl (cb : Bool) (byte : Nat → Byte) (i : Nat) : Nat :=
  if cb then (byte (i / 2)).toNat / (if i % 2 == 1 then 16 else 1) % 16 else (byte (2 * i)).toNat + 256 * (byte (2 * i + 1)).toNat

/-- A codebook entry (R37). -/
def MnTab.entry (l : List Byte) (c : Nat) : Val :=
  match Fmt.bf16.val ((l.getD (2 * c) 0).toNat + 256 * (l.getD (2 * c + 1) 0).toNat) with
  | .nan _ => .nan false
  | v => v

/-- The check of a striped operand (R211): misaligned, or out of bounds. -/
def Ctx.stripeBounds (x : Ctx) (a s k : Nat) (cb : Bool) : Bool :=
  a / 2 ^ 22 != 0 || a / 2 ^ 17 + s > x.banks.length || a % 2 ^ 17 + 64 * ((k * pieces cb + s - 1) / s) > 2 ^ 17

/-- The byte ranges that a command's X and Y name: address, alignment, ranges, whether its bounds fail. Gathered rows are not among them. -/
def Ctx.cmdRanges (x : Ctx) (t : W64) (a b : Nat) : List (Nat × Nat × List (Nat × Nat) × Bool) :=
  let sh := x.shape
  let k := tkK t
  let flat (a al n : Nat) : Nat × Nat × List (Nat × Nat) × Bool := (a, al, [(a, n)], a + n > x.budget)
  let y : Nat × Nat × List (Nat × Nat) × Bool := (b, 64, stripes b (bBanks sh t) k (bCb sh t), x.stripeBounds b (bBanks sh t) k (bCb sh t))
  match tkOpc t with
  | 1 => [(a, 64, stripes a 4 k (aCb sh t), x.stripeBounds a 4 k (aCb sh t)), y]
  | 2 => (if t.getLsbD 19 then [flat a 64 (64 * ((2 * k + 63) / 64) * tkV t)] else []) ++ [y]
  | 3 => [flat a 4 (4 * tkM sh t), y]
  | 4 => [flat a 64 64]
  | _ => []

/-! ### Acceptance (R207, R226) -/

/-- Bytes of a context's share of the operand store (R212). -/
def Ctx.mnShare (x : Ctx) : Nat := 65536 * (bits x.shape 17 16 + 1)

/-- MN_TOKEN (R226). -/
def tokenTrap (t : W64) (cause : Nat) : Trap := ⟨0x10, t, BitVec.ofNat 16 cause⟩

/-- K, type and number of the vectors resident once every accepted command has taken effect (R216, R221). -/
def Ctx.vecsLeft (x : Ctx) : Option (Nat × Nat × Nat) :=
  x.mn.cmds.foldl (fun v k =>
    if k.started then v
    else if tkOpc k.tok == 3 then none
    else if tkOpc k.tok == 2 && k.tok.getLsbD 19 then some (tkK k.tok, if tkPair x.shape k.tok == 1 then 1 else 0, tkV k.tok)
    else v) (x.mn.vecs.map (fun v => (v.k, v.ty, v.rows.length)))

/-- Cause 8 of MN_TOKEN: vectors absent or mismatched, more than M, or more than the share (R216); the vectors are those that the commands accepted
before it leave (R221). -/
def Ctx.vecsBad (x : Ctx) (t : W64) : Bool :=
  let pair := tkPair x.shape t
  let ty := if pair == 1 then 1 else 0
  tkV t > tkM x.shape t || tkV t * (64 * ((2 * tkK t + 63) / 64)) > x.mnShare
    || (!t.getLsbD 19 && (match x.vecsLeft with
        | some v => v.1 != tkK t || v.2.1 != ty || v.2.2 < tkV t
        | none => true))

/-- The first failing test of a token, in the order of R207. -/
def Ctx.tokenCause (x : Ctx) (t : W64) (a b : Nat) : Option Nat :=
  let o := tkOpc t
  let sh := x.shape
  let mul := o == 1 || o == 2 || o == 3
  let es := if aCb sh t then (tkK t + 127) / 128 else (2 * tkK t + 63) / 64
  if o == 0 || o > 7 then some 1
  else if !sh.getLsbD 31 then some 3
  else if t &&& ~~~(tkUsed sh t) != 0 || bits t 28 27 == 3 then some 2
  else if t.getLsbD 59 && bits t 51 50 > bits sh 17 16 then some 4
  else if (mul && (tkK t == 0 || tkK t > 16384)) || (o == 3 && tkM sh t * 64 * es > x.mnShare) then some 5
  else if o == 2 && tkPair sh t == 3 then some 6
  else if tkUsesTs sh t && (match x.mn.tabs[tkTs t]? with | some s => !s.loaded | none => true) then some 7
  else if o == 2 && x.vecsBad t then some 8
  else if (o ≥ 4 && b != 0) || (o ≥ 5 && a != 0) || (o == 2 && !t.getLsbD 19 && a != 0) then some 9
  else if (t.getLsbD 17 && (x.fab.port? 50).isNone) || (o == 6 && (x.fab.port? 49).isNone) then some 10
  else none

/-- The address checks of a list of operands: MISALIGN, SPAD_BOUNDS, bank modes, locks (R207, R231, R257). Of two operands that fail one test X is the
one that TRAPV names: DESIGN CHOICE (log 123). -/
def State.operandFault (s : State) (c : CtxId) (l : List (Nat × Nat × List (Nat × Nat) × Bool)) : Option Trap :=
  let x := s.ctx c
  match l.find? (fun r => r.1 % r.2.1 != 0) with
  | some r => some ⟨0x02, BitVec.ofNat 64 r.1, 64⟩
  | none =>
  match l.find? (fun r => r.2.2.2) with
  | some r => some ⟨0x03, BitVec.ofNat 64 r.1, 64⟩
  | none =>
  match l.findSome? (fun r => r.2.2.1.findSome? (fun q => if q.2 == 0 then none else x.badBank q.1 q.2)) with
  | some b => some ⟨0x13, BitVec.ofNat 64 b, 1⟩
  | none => (l.find? (fun r => r.2.2.1.any (fun q => s.locked c q.1 q.2))).map (fun r => chainTrap (BitVec.ofNat 64 r.1) 4 0x300)

/-- The chain checks of ACSEND (R235). Their TRAPV is CH for cause 5 and M × N for cause 6: DESIGN CHOICE (log 41). -/
def Ctx.acsendFault (x : Ctx) (t : W64) : Option Trap :=
  let j := x.join (tkCh t)
  let mn := tkM x.shape t * tkN x.shape t
  if tkOpc t != 7 then none
  else if j.st == 0 then some (chainTrap (BitVec.ofNat 64 (tkCh t)) 5 0x300)
  else if mn > j.len then some (chainTrap (BitVec.ofNat 64 mn) 6 0x300)
  else none

/-- The first four elements of mn.ctl past the EOIs at a command boundary: the partition without them, and the command (R206). -/
def ctlSkip : Nat → Part → Part
  | 0, q => q
  | n + 1, q => if q.marker? == some 1 then ctlSkip n (q.pop 1) else q

/-- A change of the mn.ctl partition. -/
def State.putCtl (s : State) (c : CtxId) (q : Part) : State :=
  s.updFab c (fun f => match f.port? 48 with
    | some p => f.setPort 48 { p with part := q }
    | none => f)

/-- Is the next command of a context complete at mn.ctl, and may the node take it (R207)? -/
def State.cmdReady (s : State) (c : CtxId) : Bool :=
  let x := s.ctx c
  match if x.active? then x.fab.port? 48 else none with
  | some p => (ctlSkip p.part.items.length p.part).els.length ≥ 4 && x.mn.cmds.length < 8
  | none => false

/-- Number of the node's arbiter on a core, behind those of its cells. -/
def nodeArb (c : CtxId) : Nat := 512 * coreOf c + 256

/-- Acceptance of the next command, if its operation is opc and it is the context's turn; a command of no operation is refused with MN_TOKEN (R206,
R207). -/
def State.mnAccept (s : State) (c : CtxId) (opc : Nat) : Out :=
  let x := s.ctx c
  match if x.active? then x.fab.port? 48 else none with
  | none => .next s
  | some p =>
    let q := ctlSkip p.part.items.length p.part
    match q.els with
    | e0 :: e1 :: a :: b :: _ =>
      let t : W64 := e1 ++ e0
      if (tkOpc t != opc && 1 ≤ tkOpc t && tkOpc t ≤ 7) || x.mn.cmds.length ≥ 8 || !s.myTurn (nodeArb c) s.cmdReady c then .next s
      else match x.tokenCause t a.toNat b.toNat with
        | some k => .next (s.fabFault c (tokenTrap t k))
        | none =>
        match s.operandFault c (x.cmdRanges t a.toNat b.toNat) with
        | some tr => .next (s.fabFault c tr)
        | none =>
        match x.acsendFault t with
        | some tr => .next (s.fabFault c tr)
        | none =>
          let old := (x.mn.tabs.getD (tkTs t) ⟨false, [], []⟩).loaded
          let k : MnCmd := { tok := t, x := a.toNat, y := b.toNat, started := false, pos := 0, ended := false, flags := 0, rows := [],
                             undo := if opc == 4 then some old else none, failed := false, buf := [], eoi := false, got := [] }
          let tabs := if opc == 4 then modAt (fun o => { o with loaded := true }) x.mn.tabs (tkTs t) else x.mn.tabs
          .next (((s.putCtl c (q.pop 4)).updCtx c (fun x => { x with mn := { x.mn with cmds := x.mn.cmds ++ [k], tabs := tabs } })).serve (nodeArb c) c)
    | [] => .next s
    | _ => if q.items.length > q.els.length then .next (s.fabFault c (alignTrap 0x230 9)) else .next s

/-- MN_MM: an MM command is accepted (R207, R214). -/
def execMnMm (c : CtxId) (s : State) : Out := s.mnAccept c 1
/-- MN_MV: an MV command is accepted (R207, R216). -/
def execMnMv (c : CtxId) (s : State) : Out := s.mnAccept c 2
/-- MN_GATHER_A: a GATHER-A command is accepted (R207, R215). -/
def execMnGatherA (c : CtxId) (s : State) : Out := s.mnAccept c 3
/-- MN_TLOAD: a TLOAD command is accepted, and its set's loaded bit is set (R207, R217). -/
def execMnTload (c : CtxId) (s : State) : Out := s.mnAccept c 4
/-- MN_ZERO: a ZERO command is accepted (R207, R218). -/
def execMnZero (c : CtxId) (s : State) : Out := s.mnAccept c 5
/-- MN_DRAIN: a DRAIN command is accepted (R207, R219). -/
def execMnDrain (c : CtxId) (s : State) : Out := s.mnAccept c 6
/-- MN_ACSEND: an ACSEND command is accepted (R207, R220, R235). -/
def execMnAcsend (c : CtxId) (s : State) : Out := s.mnAccept c 7

/-! ### The start of a command (R221) -/

/-- Does an earlier command k hold back command m (R221, R224)? A compute command that has started may have issued its last K-step; one with ST = 1
holds back every later command of its context. -/
def mnBlocks (sh m : W64) (k : MnCmd) : Bool :=
  let o := tkOpc m
  let sameAcc := o != 4 && tkOpc k.tok != 4 && tkAs k.tok == tkAs m
  if k.tok.getLsbD 17 then true
  else if tkCompute k.tok == tkCompute m then
    !tkCompute m || !k.started || (o == 5 && sameAcc) || o == 4 || o == 3 || (o == 2 && m.getLsbD 19)
      || (tkOpc k.tok == 4 && tkUsesTs sh m && tkTs k.tok == tkTs m)
  else sameAcc

/-- The gathered rows' addresses (R215). -/
def State.gatherIndex (s : State) (c : CtxId) (k : MnCmd) : List Nat :=
  (List.range (tkM (s.ctx c).shape k.tok)).map (fun i => (s.spad32 c (k.x + 4 * i)).toNat)

/-- The checks of the gathered rows, before any is read (R215). -/
def State.gatherFault (s : State) (c : CtxId) (k : MnCmd) : Option Trap :=
  let x := s.ctx c
  let cb := aCb x.shape k.tok
  let n := elBytes cb (tkK k.tok)
  let al := if cb then 1 else 2
  (s.gatherIndex c k).findSome? (fun a => s.spadFault c (BitVec.ofNat 64 a) al n 0x300)

/-- The rows a command loads into the operand store when it starts: GATHER-A, or MV with LDV = 1 (R215, R216). -/
def State.storeRows (s : State) (c : CtxId) (k : MnCmd) : List (Nat × Nat) :=
  let x := s.ctx c
  if tkOpc k.tok == 3 then (s.gatherIndex c k).map (fun a => (a, elBytes (aCb x.shape k.tok) (tkK k.tok)))
  else if tkOpc k.tok == 2 && k.tok.getLsbD 19 then
    (List.range (tkV k.tok)).map (fun v => (k.x + v * (64 * ((2 * tkK k.tok + 63) / 64)), 2 * tkK k.tok))
  else []

/-- Elements of a row in the scratchpad. -/
def State.readRow (s : State) (c : CtxId) (cb : Bool) (a k : Nat) : List Nat :=
  let b := s.spadBytes c a (elBytes cb k)
  (List.range k).map (rowEl cb (fun i => b.getD i 0))

/-- What a read by an accepted command meets: a bank whose mode has changed since (R257, R258), or a double-bit error (R223). -/
def State.mnReadFault (s : State) (c : CtxId) (a n : Nat) : Option Trap :=
  match s.modeFault c a n with
  | some t => some t
  | none => s.spadEcc c a n false

/-- MN_COMMAND_START: an accepted command starts in its pipe (R221); GATHER-A and an MV with LDV = 1 load the operand store (R212). -/
def execMnCommandStart (c : CtxId) (i : Nat) (s : State) : Out :=
  let x := s.ctx c
  match x.mn.cmds[i]? with
  | none => .next s
  | some k =>
    let status := match x.fab.port? 50 with
      | some p => !p.toks.isEmpty
      | none => false
    if !x.active? || k.started || status || (x.mn.cmds.take i).any (mnBlocks x.shape k.tok) then .next s
    else
      let index := if tkOpc k.tok == 3 then [(k.x, 4 * tkM x.shape k.tok)] else []
      if index.any (fun r => x.zeroing r.1 r.2) then .next s
      else match index.findSome? (fun r => s.mnReadFault c r.1 r.2) with
      | some t => .next (s.fabFault c t)
      | none =>
      match if tkOpc k.tok == 3 then s.gatherFault c k else none with
      | some t => .next (s.fabFault c t)
      | none =>
        let rs := s.storeRows c k
        if rs.any (fun r => x.zeroing r.1 r.2) then .next s
        else match rs.findSome? (fun r => s.mnReadFault c r.1 r.2) with
        | some t => .next (s.fabFault c t)
        | none =>
          let rows := rs.map (fun r => s.readRow c (aCb x.shape k.tok) r.1 (tkK k.tok))
          let vecs : Option MnVecs :=
            if tkOpc k.tok == 3 then none
            else if rs.isEmpty then x.mn.vecs
            else some { k := tkK k.tok, ty := if tkPair x.shape k.tok == 1 then 1 else 0, rows := rows }
          let cmds := (x.mn.cmds.take i).map (fun e => if tkCompute e.tok && tkCompute k.tok then { e with ended := true } else e)
            ++ [{ k with started := true, rows := if tkOpc k.tok == 3 then rows else [] }] ++ x.mn.cmds.drop (i + 1)
          .next (s.setCtx c { x with mn := { x.mn with cmds := cmds, vecs := vecs } })

/-! ### The operations (R214 to R220) -/

/-- Key of an accumulator element. -/
def accKey (acc i j : Nat) : Nat := (128 * acc + i) * 128 + j
/-- An accumulator element; +0 where nothing is listed. -/
def Mn.get (m : Mn) (acc i j : Nat) : W32 := (Map.get? m.acc (accKey acc i j)).getD 0
/-- An accumulator element set. -/
def Mn.put (m : Mn) (acc i j : Nat) (v : W32) : Mn :=
  { m with acc := if v == 0 then Map.erase m.acc (accKey acc i j) else Map.set m.acc (accKey acc i j) v }

/-- Rows that a multiplication updates: M, or V for MV. -/
def mulRows (sh t : W64) : Nat := if tkOpc t == 2 then tkV t else tkM sh t

/-- The elements that K-step n reads from the banks: of A, for an MM, and of B (R211, R214). -/
def State.stepRows (s : State) (c : CtxId) (k : MnCmd) (n : Nat) : List Nat × List Nat :=
  let sh := (s.ctx c).shape
  let row (x banks : Nat) (cb : Bool) (els : Nat) : List Nat :=
    (List.range els).map (rowEl cb (fun j => (s.spadBytes c (stripeByte x banks n j cb) 1).headD 0))
  (if tkOpc k.tok == 1 then row k.x 4 (aCb sh k.tok) (tkM sh k.tok) else [], row k.y (bBanks sh k.tok) (bCb sh k.tok) (tkN sh k.tok))

/-- The elements of K-step n of the group under way: as the step has read them, or as it reads them now. -/
def State.stepEls (s : State) (c : CtxId) (k : MnCmd) (n : Nat) : List Nat × List Nat := (k.got[n % 32]?).getD (s.stepRows c k n)

/-- Element a(i, k) of a multiplication as a value (R214 to R216). -/
def State.mulA (s : State) (c : CtxId) (k : MnCmd) (els : List Nat × List Nat) (i n : Nat) : Val :=
  let x := s.ctx c
  let cb := aCb x.shape k.tok
  let e :=
    if tkOpc k.tok == 1 then els.1.getD i 0
    else if tkOpc k.tok == 3 then (k.rows.getD i []).getD n 0
    else ((x.mn.vecs.map (·.rows)).getD []).getD i [] |>.getD n 0
  if cb then MnTab.entry (x.mn.tabs.getD (tkTs k.tok) ⟨false, [], []⟩).a e
  else if tkPair x.shape k.tok == 1 then Fmt.fp16.val e else Fmt.bf16.val e

/-- Element b(k, j) of a multiplication as a value. The weights of MV are decoded by the A codebook (R216), a CB4 B by the B codebook. -/
def State.mulB (s : State) (c : CtxId) (k : MnCmd) (els : List Nat × List Nat) (j : Nat) : Val :=
  let x := s.ctx c
  let cb := bCb x.shape k.tok
  let e := els.2.getD j 0
  let tab := x.mn.tabs.getD (tkTs k.tok) ⟨false, [], []⟩
  if cb then MnTab.entry (if tkOpc k.tok == 2 then tab.a else tab.b) e
  else if tkPair x.shape k.tok == 1 then Fmt.fp16.val e else Fmt.bf16.val e

/-- The byte ranges that the K-steps of K-group g that have not read yet read from the banks. -/
def Ctx.groupReads (x : Ctx) (k : MnCmd) (g : Nat) : List (Nat × Nat) :=
  let sh := x.shape
  let row (a s n : Nat) (cb : Bool) (els : Nat) : List (Nat × Nat) :=
    (List.range ((elBytes cb els + 63) / 64)).map (fun q => (stripeByte a s n (64 * q) cb, min 64 (elBytes cb els - 64 * q)))
  ((upto k.got.length (min 32 (tkK k.tok - 32 * g) - k.got.length)).map (fun d =>
    (if tkOpc k.tok == 1 then row k.x 4 (32 * g + d) (aCb sh k.tok) (tkM sh k.tok) else [])
      ++ row k.y (bBanks sh k.tok) (32 * g + d) (bCb sh k.tok) (tkN sh k.tok))).flatten

/-- One K-group of a multiplication: accumulators and flags (R49, R214). -/
def State.mulGroup (s : State) (c : CtxId) (k : MnCmd) (g : Nat) : Mn × W32 :=
  let x := s.ctx c
  let ns := (upto (32 * g) (min 32 (tkK k.tok - 32 * g))).map (fun n => (n, s.stepEls c k n))
  let replace := g == 0 && !k.tok.getLsbD 32
  (List.range (mulRows x.shape k.tok)).foldl (fun (r : Mn × W32) i =>
    (List.range (tkN x.shape k.tok)).foldl (fun (r : Mn × W32) j =>
      let (v, fl) := groupAcc replace (r.1.get (tkAs k.tok) i j) (ns.map (fun n => (s.mulA c k n.2 i n.1, s.mulB c k n.2 j)))
      (r.1.put (tkAs k.tok) i j v, r.2 ||| fl)) r) (x.mn, 0)

/-- Command i of a context changed, and flags raised by it (R45). -/
def State.updCmd (s : State) (c : CtxId) (i : Nat) (fl : W32) (f : MnCmd → MnCmd) : State :=
  (s.updCtx c (fun x => { x with mn := { x.mn with cmds := modAt (fun k => { f k with flags := k.flags ||| fl }) x.mn.cmds i } })).addFlags c fl

/-- Up to fuel K-groups of a multiplication from the position it has reached, to the group stop; the trap of a bad read (R223, R225). -/
def State.mulRun (c : CtxId) (i stop : Nat) : Nat → State → State × Option Trap
  | 0, s => (s, none)
  | fuel + 1, s =>
    match (s.ctx c).mn.cmds[i]? with
    | none => (s, none)
    | some k =>
      if k.pos ≥ stop then (s, none)
      else match ((s.ctx c).groupReads k k.pos).findSome? (fun r => s.mnReadFault c r.1 r.2) with
        | some t => (s, some t)
        | none =>
          let (m, fl) := s.mulGroup c k k.pos
          State.mulRun c i stop fuel ((s.updCtx c (fun x => { x with mn := m })).updCmd c i fl (fun k => { k with pos := k.pos + 1, got := [] }))

/-- May a started command work: the load active or stopping, no earlier command of its pipe, the tenant not closed (R221, R225, R384)? -/
def State.cmdWorks (s : State) (c : CtxId) (i : Nat) (k : MnCmd) : Bool :=
  let x := s.ctx c
  let o := tkOpc k.tok
  k.started && (x.active? || (x.fab.stopped && x.cur.st == .running)) && !(x.mn.cmds.take i).any (fun e => tkCompute e.tok == tkCompute k.tok)
    && !(1 ≤ o && o ≤ 3 && !s.isOpen x.ten.toNat)

/-- A K-step of a started multiplication reads its elements, beside all else that acts on the scratchpad; after the last of a K-group that is not the
last, the group is added (R214, R224, R316). -/
def State.kStep (s : State) (c : CtxId) (i : Nat) : State :=
  let x := s.ctx c
  match x.mn.cmds[i]? with
  | none => s
  | some k =>
    let n := 32 * k.pos + k.got.length
    let o := tkOpc k.tok
    if o == 0 || o > 3 || k.failed || !s.cmdWorks c i k || n ≥ tkK k.tok then s
    else if k.got.length ≥ 32 then (State.mulRun c i (k.pos + 1) 1 s).1
    else if (x.cmdRanges k.tok k.x k.y).any (fun r => r.2.2.1.any (fun q => x.zeroing q.1 q.2))
        || ((x.groupReads k k.pos).findSome? (fun r => s.mnReadFault c r.1 r.2)).isSome then s
    else s.updCmd c i 0 (fun k => { k with got := k.got ++ [s.stepRows c k n] })

/-- A command completes: its status token waits for demand on mn.aux (R224), unless the load has been stopped (R225). -/
def State.mnDone (s : State) (c : CtxId) (i : Nat) : State :=
  let x := s.ctx c
  match x.mn.cmds[i]? with
  | none => s
  | some k =>
    let w : W32 := BitVec.ofNat 32 (tkOpc k.tok * 2 ^ 28 + bits k.tok 16 9 * 2 ^ 20 + k.flags.toNat % 64 * 2 ^ 14)
    let s := s.setCtx c { x with mn := { x.mn with cmds := x.mn.cmds.eraseIdx i } }
    match if k.tok.getLsbD 17 && !x.fab.stopped then x.fab.port? 50 else none with
    | some p => s.updFab c (fun f => f.setPort 50 { p with toks := p.toks ++ [w] })
    | none => s

/-- What a DRAIN or ACSEND reads next: the four accumulator elements, or pairs of elements of a packed mode, from its position on, the flags of their
conversion, and the node after it (R219, R220, R222). -/
def Ctx.drainEls (x : Ctx) (k : MnCmd) : List W32 × W32 × Mn :=
  let sh := x.shape
  let dm := bits k.tok 28 27
  let per := if dm == 0 then tkN sh k.tok else tkN sh k.tok / 2
  let i := k.pos / per
  let conv (m : Nat) : W32 × W32 :=
    let j := k.pos % per + m
    if dm == 0 then (x.mn.get (tkAs k.tok) i j, 0)
    else
      let f : Fmt := if dm == 1 then .bf16 else .fp16
      let one (v : W32) : Nat × W32 :=
        let r := convert .rne (.flt .fp32) (.flt f) v.toNat
        (r.1, if r.2.2.isSome then r.2.1 ||| flagSAT else r.2.1)
      let lo := one (x.mn.get (tkAs k.tok) i (2 * j))
      let hi := one (x.mn.get (tkAs k.tok) i (2 * j + 1))
      (BitVec.ofNat 32 (lo.1 + hi.1 * 2 ^ 16), lo.2 ||| hi.2)
  let r := (List.range 4).map conv
  let cols := if dm == 0 then upto (k.pos % per) 4 else upto (2 * (k.pos % per)) 8
  let m := if k.tok.getLsbD 18 then cols.foldl (fun m j => m.put (tkAs k.tok) i j 0) x.mn else x.mn
  (r.map (·.1), r.foldl (fun a b => a ||| b.2) 0, m)

/-- A DRAIN or ACSEND reads: its elements wait in the port to be sent (R219, R220). -/
def State.drainRead (s : State) (c : CtxId) (i : Nat) (k : MnCmd) : State :=
  let (els, fl, m) := (s.ctx c).drainEls k
  (s.updCtx c (fun x => { x with mn := m })).updCmd c i fl (fun k => { k with pos := k.pos + 4, buf := k.buf ++ els })

/-- A DRAIN: a marker or a full packet is closed when mn.drain has demand; with neither, and with demand, the next elements are read, and a packet
that they fill is closed at once (R110, R119, R219). -/
def State.drainStep (s : State) (c : CtxId) (i : Nat) (k : MnCmd) : State :=
  let x := s.ctx c
  let dm := bits k.tok 28 27
  let per := if dm == 0 then tkN x.shape k.tok else tkN x.shape k.tok / 2
  let total := tkM x.shape k.tok * per
  if !x.fab.canClose (.port 49) 1 then s
  else if k.eoi then
    let s := (s.updCmd c i 0 (fun k => { k with eoi := false })).updFab c (fun f => f.closeAll (.port 49) [x.packet [] 1 (3 + dm) false])
    if k.pos == total then s.mnDone c i else s
  else
    let s := s.drainRead c i k
    match (s.ctx c).mn.cmds[i]? with
    | none => s
    | some k =>
      if k.buf.length < 8 then s
      else
        let last := k.pos == total || (k.tok.getLsbD 29 && k.pos % per == 0)
        (s.updCmd c i 0 (fun k => { k with buf := [], eoi := last })).updFab c (fun f => f.closeAll (.port 49) [x.packet k.buf 0 (3 + dm) false])

/-- An ACSEND: with a credit the next elements are read, and a block that they fill is sent; a block that the chain refuses is not sent (R220, R235, R236). -/
def State.acsendStep (s : State) (c : CtxId) (i : Nat) (k : MnCmd) : State :=
  let x := s.ctx c
  let j := x.join (tkCh k.tok)
  let total := tkM x.shape k.tok * tkN x.shape k.tok
  let b := k.pos / 16
  if j.st == 4 && 16 * b + 16 > j.len && 16 * b + 16 ≤ total && j.len < total then s.fabFault c (chainTrap (BitVec.ofNat 64 (16 * b)) 6 0x300)
  else if x.fab.again.any (fun e => e.1 == tkCh k.tok) then s
  else match sendFault j b 0x300 with
    | some t => s.fabFault c t
    | none =>
      if j.credits == 0 then s
      else
        let s := s.drainRead c i k
        match (s.ctx c).mn.cmds[i]? with
        | none => s
        | some k =>
          if k.buf.length < 16 then s
          else
            let s := (s.updCmd c i 0 (fun k => { k with buf := [] })).sendBlock c (tkCh k.tok) 0x300 b k.buf
            if k.pos ≥ total then s.mnDone c i else s

/-- The started command i faults: it waits for the release of the hold (R390), or ends with its stopped load (R225). -/
def State.cmdFault (s : State) (c : CtxId) (i : Nat) (t : Trap) : State :=
  if (s.ctx c).fab.stopped then (s.mnDone c i).raise c t
  else (s.updCmd c i 0 (fun k => { k with failed := true })).fabFault c t

/-- MN_COMMAND_COMPLETE: a started compute command does its work and completes; a DRAIN or ACSEND reads and sends its next elements, and completes
after the last. After a stop a multiplication ends at the end of a K-group (R214 to R225). -/
def execMnCommandComplete (c : CtxId) (i : Nat) (s : State) : Out :=
  let x := s.ctx c
  match x.mn.cmds[i]? with
  | none => .next s
  | some k =>
    let o := tkOpc k.tok
    if !s.cmdWorks c i k then .next s
    else if o == 6 then .next (s.drainStep c i k)
    else if o == 7 then .next (s.acsendStep c i k)
    else if o == 5 then
      let m := (List.range (tkM x.shape k.tok)).foldl (fun m r =>
        (List.range (tkN x.shape k.tok)).foldl (fun m j => m.put (tkAs k.tok) r j 0) m) x.mn
      .next ((s.setCtx c { x with mn := m }).mnDone c i)
    else if o == 4 then
      if x.zeroing k.x 64 then .next s
      else match s.mnReadFault c k.x 64 with
        | some t => .next (s.cmdFault c i t)
        | none =>
          let b := s.spadBytes c k.x 64
          .next ((s.setCtx c { x with mn := { x.mn with tabs := modAt (fun _ => ⟨true, b.take 32, b.drop 32⟩) x.mn.tabs (tkTs k.tok) } }).mnDone c i)
    else
      let total := (tkK k.tok + 31) / 32
      if (x.cmdRanges k.tok k.x k.y).any (fun r => r.2.2.1.any (fun q => x.zeroing q.1 q.2)) then .next s
      else
        let stop := if x.fab.stopped && !k.ended then min total (k.pos + 1 + Config.kGroups s.free) else total
        let s := if x.fab.stopped && !k.ended then { s with free := s.free + 1 } else s
        match s.mulRun c i stop total with
        | (s, some t) => .next (s.cmdFault c i t)
        | (s, none) => .next (s.mnDone c i)

/-- MN_CTL_EOS: EOS on mn.ctl is consumed once every command has completed and its outputs are closed; EOS is closed on mn.drain and mn.aux
(R206), that on mn.drain with TYPE 0: DESIGN CHOICE (log 124). An EOI before it is consumed, and a marker inside a command faults. -/
def execMnCtlEos (c : CtxId) (s : State) : Out :=
  let x := s.ctx c
  match if x.active? then x.fab.port? 48 else none with
  | none => .next s
  | some p =>
    let q := ctlSkip p.part.items.length p.part
    if q.els.length ≥ 4 then .next s
    else if !q.els.isEmpty && q.items.length > q.els.length then .next (s.fabFault c (alignTrap 0x230 9))
    else if q.marker? != some 2 then .next (s.putCtl c q)
    else
      let ports := [49, 50].filterMap (fun n => (x.fab.port? n).map (fun p => (n, p)))
      if !x.mn.cmds.isEmpty || ports.any (fun e => !e.2.toks.isEmpty) || ports.any (fun e => !x.fab.canClose (.port e.1) 1) then .next s
      else
        let s := s.putCtl c (q.pop 1)
        .next (s.updFab c (fun f => ports.foldl (fun f e => (f.setPort e.1 { e.2 with eos := true }).close (.port e.1) (x.packet [] 2 0 false)) f))

end Sys2Proof.Machine
end

