-- ==== Sys2Proof/Machine/Engine.lean ====
section
/-! DEFINITION. The copy engines: address words, packet checks, data movement, transfer notices, and completion (R327 to R342, R348, R349, R360, R362,
R434, R446). -/

namespace Sys2Proof.Machine

/-! ### Packet fields (R334, R335) -/

/-- n bytes of a packet at an offset, as a number. -/
def pk (b : List Byte) (off n : Nat) : Nat := ofBytes ((b.drop off).take n)
/-- A 64-bit field of a packet. -/
def pk64 (b : List Byte) (off : Nat) : W64 := BitVec.ofNat 64 (pk b off 8)
/-- A signed 32-bit field. -/
def pkS (b : List Byte) (off : Nat) : Int := patInt 32 true (pk b off 4)
/-- TYPE. -/
def pkType (b : List Byte) : Nat := pk b 0 1
/-- PULL. -/
def pkPull (b : List Byte) : Bool := (pk64 b 0).getLsbD 10
/-- CA. -/
def pkCA (b : List Byte) : W64 := pk64 b 8

/-- Is an address word of R327 well formed and aligned? dev: it must be a device-form word. -/
def addrOk (w : W64) (align : Nat) (dev : Bool) : Bool :=
  w.toNat % align == 0 && (if w.getLsbD 63 then bits w 62 56 == 0 else !dev && bits w 62 22 == 0)

/-- Are all bytes of a packet from offset a to offset b - 1 zero? -/
def pkZero (p : List Byte) (a b : Nat) : Bool := pk p a (b - a) == 0

/-- Reserved bytes and bits of a body that are not zero, or reserved header bits (R334, R335): cause 2. -/
def pkReserved (p : List Byte) : Bool :=
  bits (pk64 p 0) 47 12 != 0
    || (match pkType p with
        | 0x01 => !pkZero p 0x28 0x40 || (pkPull p && (bits (pk64 p 0x10) 63 32 != 0 || bits (pk64 p 0x10) 14 0 != 0))
        | 0x02 => !pkZero p 0x30 0x40
        | 0x04 => !pkZero p 0x20 0x40
        | 0x05 => !pkZero p 0x31 0x40
        | 0x06 => !pkZero p 0x31 0x40
        | 0x07 => !pkZero p 0x1D 0x20 || !pkZero p 0x24 0x40
        | 0x08 => !pkZero p 0x18 0x40
        | 0x09 => !pkZero p 0x18 0x40
        | 0x0B => !pkZero p 0x20 0x40
        | _ => false)

/-- Is a length a multiple of 4 within its limits? -/
def lenOk (n hi : Nat) : Bool := 4 ≤ n && n ≤ hi && n % 4 == 0

/-- Fields of the LAUNCH word at 0x38 (R340): NB. -/
def lwNB (p : List Byte) : Nat := bits (pk64 p 0x38) 62 57
/-- LW. -/
def lwW (p : List Byte) : Nat := bits (pk64 p 0x38) 56 52
/-- LH. -/
def lwH (p : List Byte) : Nat := bits (pk64 p 0x38) 51 47
/-- TLENW. -/
def lwText (p : List Byte) : Nat := bits (pk64 p 0x38) 46 32
/-- DLEN. -/
def lwDLen (p : List Byte) : Nat := bits (pk64 p 0x38) 31 16
/-- DOFF. -/
def lwDOff (p : List Byte) : Nat := bits (pk64 p 0x38) 15 0
/-- DET (R443). -/
def lwDet (p : List Byte) : Bool := (pk64 p 0x38).getLsbD 63

/-- A field outside its Values (R334, R335, R340, R342, R434): cause 3. -/
def pkRange (p : List Byte) : Bool :=
  (pkPull p && pkType p != 1)
    || (match pkType p with
        | 0x01 => !lenOk (pk p 0x20 8) (2 ^ 32 - 4) || (pkPull p && bits (pk64 p 0x10) 23 19 > 19)
        | 0x02 => !lenOk (pk p 0x20 4) (2 ^ 31) || pk p 0x24 4 == 0 || pk p 0x24 4 > 2 ^ 24
        | 0x03 => !lenOk (pk p 0x20 2) 65532 || pk p 0x22 2 == 0 || pk p 0x24 2 == 0 || pk p 0x26 2 == 0
        | 0x04 => !lenOk (pk p 0x18 4) (2 ^ 32 - 4)
        | 0x05 => pk p 0x28 4 == 0 || pk p 0x28 4 > 2 ^ 24 || !lenOk (pk p 0x2C 4) 65536 || pk p 0x30 1 > 4
        | 0x06 => pk p 0x28 4 == 0 || pk p 0x28 4 > 2 ^ 24 || !lenOk (pk p 0x2C 4) 65536 || pk p 0x30 1 != 0
        | 0x07 => !lenOk (pk p 0x18 4) (2 ^ 32 - 4) || pk p 0x20 1 > 19 || pk p 0x21 1 > 15 || pk p 0x22 1 == 0 || pk p 0x22 1 > 20
                    || pk p 0x23 1 == 0 || pk p 0x23 1 > 16
        | 0x08 => pkCA p == 0
        | 0x0A => lwNB p == 0 || lwNB p > 32 || lwW p == 0 || lwW p > 20 || lwH p == 0 || lwH p > 16 || lwText p == 0 || lwText p > 16384
                    || 64 * (lwDOff p + lwDLen p) > lwNB p * 2 ^ 17
        | 0x0B => pk p 0x18 8 > 63
        | _ => false)

/-- An address word malformed or misaligned (R327, R334, R340): cause 4. -/
def pkAddr (p : List Byte) : Bool :=
  let bad (off align : Nat) (dev : Bool) : Bool := !addrOk (pk64 p off) align dev
  (pkCA p != 0 && !addrOk (pkCA p) 8 (pkType p == 0x0A))
    || (match pkType p with
        | 0x01 => (!pkPull p && bad 0x10 4 false) || bad 0x18 4 false
        | 0x02 => bad 0x10 4 false || bad 0x18 4 false
        | 0x03 => bad 0x10 4 false || bad 0x18 4 false
        | 0x04 => bad 0x10 4 false
        | 0x05 => bad 0x10 4 false || bad 0x18 4 false || bad 0x20 4 false
        | 0x06 => bad 0x10 4 false || bad 0x18 4 false || bad 0x20 4 false
        | 0x07 => bad 0x10 4 false
        | 0x09 => bad 0x10 128 true
        | 0x0A => bad 0x10 4 true || bad 0x18 4 true || (pk64 p 0x28 != 0 && bad 0x28 8 true)
        | _ => false)

/-- A rectangle or a pull's sender outside a lease of w × h (R338, R342): cause 5. -/
def pkLease (p : List Byte) (w h : Nat) : Bool :=
  (pkType p == 7 && (pk p 0x20 1 + pk p 0x22 1 > w || pk p 0x21 1 + pk p 0x23 1 > h))
    || (pkType p == 1 && pkPull p && (bits (pk64 p 0x10) 23 19 ≥ w || bits (pk64 p 0x10) 18 15 ≥ h))

/-- Which types a source allows (R334 Table 3): any but LAUNCH, or LAUNCH alone. -/
def typeOk (launch : Bool) (t : Nat) : Bool := if launch then t == 0x0A else 1 ≤ t && t ≤ 0x0B && t != 0x0A

/-- The check of R334 in ascending cause. tsk: TSK is allowed. lease: the extents of the packet's lease, where they are known. -/
def pkCause (launch tsk : Bool) (lease : Option (Nat × Nat)) (p : List Byte) : Option Nat :=
  if !typeOk launch (pkType p) then some 1
  else if ((pk64 p 0).getLsbD 11 && !tsk) || pkReserved p then some 2
  else if pkRange p then some 3
  else if pkAddr p then some 4
  else match lease with
    | some (w, h) => if pkLease p w h then some 5 else none
    | none => none

/-- CE_PACKET (R362). -/
def packetTrap (val : W64) (cause : Nat) : Trap := ⟨0x18, val, BitVec.ofNat 16 cause⟩

/-! ### Accesses (R327, R332) -/

/-- An address of a packet: device or scratchpad, and where. -/
structure CeAddr where
  dev : Bool
  a : Int

/-- The address of an address word. -/
def ceAddr (w : W64) : CeAddr := if w.getLsbD 63 then ⟨true, (bits w 55 0 : Nat)⟩ else ⟨false, (bits w 21 0 : Nat)⟩
/-- An address moved by a byte offset. -/
def CeAddr.plus (x : CeAddr) (d : Int) : CeAddr := { x with a := x.a + d }
/-- The address word of an address. -/
def CeAddr.word (x : CeAddr) : W64 := if x.dev then BitVec.ofInt 64 (2 ^ 63 + x.a % 2 ^ 56) else BitVec.ofInt 64 x.a

/-- Classes whose DETAIL holds a cause in its low bits. -/
def causedClass (c : Nat) : Bool := [0x08, 0x09, 0x10, 0x11, 0x12, 0x13, 0x14, 0x16, 0x18, 0x19, 0x20].contains c

/-- The fault of a packet whose access meets a trap (R332, R362). -/
def pktFault (t : Trap) (x : CeAddr) : PFault :=
  { cls := t.cls.toNat, cause := if causedClass t.cls.toNat then t.detail.toNat % 16 else 0, detail := t.detail.toNat, addr := x.word }

/-- An engine's access of device memory: die of its walks, die that EXCL tests, ASID, tenant (R289, R292, R296, R405, R421, R426). Another package may
refuse it (R428); while it has not answered the access is held (R446). -/
def State.engAt (s : State) (w : Who) (die : Nat) (home : Option Nat) (asid ten : Nat) (va : Int) (n : Nat) (need : Need) : SeqX :=
  if va < 0 || va ≥ 2 ^ 56 then .fault s { xlatTrap 0 6 0 need.wr with val := BitVec.ofInt 64 va }
  else match s.unitXlate w w.core die asid va.toNat need with
    | .ok pa =>
      if !s.isLocal pa then
        (if s.peerOutcome == 0 then .ok pa else if s.peerOutcome == 1 then .fault { s with free := s.free + 1 } (peerTrap va.toNat pa) else .hold s)
      else match s.grantFault ten home va.toNat pa n need with
        | some t => .fault (s.noteRefusal w.core ten pa t) t
        | none =>
          match s.meshFault w.core va.toNat pa with
          | some t => .fault s t
          | none => .ok pa
    | x => x

/-- A checked access. -/
inductive PlaceRes
  | ok (p : Place)
  | hold (s : State)
  | bad (s : State) (f : PFault)

/-- A failed link between an engine and the core whose scratchpad it reaches for a pull (R342, R405). -/
def State.spadLost (s : State) (w : Who) (c : CtxId) (x : CeAddr) : Option Trap :=
  if s.dead.isEmpty || coreOf c == w.core then none
  else ((s.deadOn true 40 w.core (coreOf c)).orElse (fun _ => s.deadOn true 40 (coreOf c) w.core)).map (fun src => hwTrap src x.word)

/-- The check of one access of an engine for context c (R22, R231, R257, R327). asid and ten are those of the bytes' owner. -/
def State.place (s : State) (w : Who) (c : CtxId) (asid ten : Nat) (x : CeAddr) (n : Nat) (need : Need) : PlaceRes :=
  if x.dev then
    match s.engAt w (dieOf w.core) (some (dieOf w.core)) asid ten x.a n need with
    | .ok pa => .ok (if s.isLocal pa then .mem pa else .far pa)
    | .hold s => .hold s
    | .fault s t => .bad s (pktFault t x)
  else
    match s.spadFault c (BitVec.ofInt 64 x.a) (min 4 n) n unitSeq with
    | some t => .bad s (pktFault t x)
    | none =>
      if (s.ctx c).zeroing x.a.toNat n then .hold s
      else match (if need.rd then s.spadEcc c x.a.toNat n false else none).orElse (fun _ => s.spadLost w c x) with
        | some t => .bad s (pktFault t x)
        | none => .ok (.spad x.a.toNat)

/-- The bytes that an engine reads at a place: through the near cache of the packet's context (R259), or of the scratchpad of context c. Those of another
package are free values. -/
def State.placeBytes (s : State) (near c : CtxId) (n : Nat) : Place → List Byte
  | .spad a => s.spadBytes c a n
  | .mem pa => s.nearVal near pa n
  | .far pa => (List.range n).map (fun i => Config.unspecByte s.free (pa + i))

/-- Bytes written at a place by a packet of context c, whose near cache follows (R261); another package takes its own. -/
def State.placeWrite (s : State) (c : CtxId) (bs : List Byte) : Place → State
  | .spad a => s.spadWrite c a bs
  | .mem pa => (s.devWrite pa bs).updCtx c (fun x => x.nearWrite pa bs)
  | .far _ => { s with free := s.free + 1 }

/-- Bytes at a place made unspecified, as by a write of them (R309, R332). -/
def State.placeLose (s : State) (c : CtxId) (n : Nat) : Place → State
  | .spad a => { s.spadWrite c a ((List.range n).map (fun i => Config.unspecByte s.free i)) with free := s.free + 1 }
  | .mem pa =>
    let t := (s.lose pa n).breakRange pa n
    t.updCtx c (fun x => x.nearWrite pa (t.devBytes pa n))
  | .far _ => { s with free := s.free + 1 }

/-- A place moved by a byte offset. -/
def Place.plus (d : Nat) : Place → Place
  | .spad a => .spad (a + d)
  | .mem a => .mem (a + d)
  | .far a => .far (a + d)

/-- Do n bytes at a place and m bytes at another share a byte? The scratchpads of two contexts do not. -/
def Place.meets (n m : Nat) (same : Bool) : Place → Place → Bool
  | .spad a, .spad b => same && a < b + m && b < a + n
  | .mem a, .mem b => a < b + m && b < a + n
  | .far a, .far b => a < b + m && b < a + n
  | _, _ => false

/-- One element of a packet's work: n bytes from an address, or given, to an address. -/
structure CeUnit where
  n : Nat
  src : Option CeAddr
  val : W32
  dst : CeAddr

/-- Offsets 0, w, … below n. -/
def steps (w n : Nat) : List Nat := (List.range (n / w)).map (w * ·)
/-- Offsets 0, 4, … below n. -/
def fours (n : Nat) : List Nat := steps 4 n

/-- The bytes of an element of a strided copy: words, or bytes where a stride is no multiple of 4 (R335). -/
def copyStep (p : List Byte) (strides : List Nat) : Nat := if strides.all (fun o => pk p o 4 % 4 == 0) then 4 else 1

/-- The work of COPY, COPY2D, COPY4D and FILL in loop order (R336). -/
def copyUnits (p : List Byte) : List CeUnit :=
  let src := ceAddr (pk64 p 0x10)
  let dst := ceAddr (pk64 p 0x18)
  let run (w n : Nat) (so d : Int) : List CeUnit := (steps w n).map (fun (i : Nat) => ⟨w, some (src.plus (so + i)), 0, dst.plus (d + i)⟩)
  match pkType p with
  | 0x01 => run 4 (pk p 0x20 4) 0 0
  | 0x02 =>
    let w := copyStep p [0x28, 0x2C]
    ((List.range (pk p 0x24 4)).map (fun (r : Nat) => run w (pk p 0x20 4) (r * pkS p 0x28) (r * pkS p 0x2C))).flatten
  | 0x03 =>
    let w := copyStep p [0x28, 0x2C, 0x30, 0x34, 0x38, 0x3C]
    ((List.range (pk p 0x26 2)).map (fun (i3 : Nat) => ((List.range (pk p 0x24 2)).map (fun (i2 : Nat) => ((List.range (pk p 0x22 2)).map (fun (i1 : Nat) =>
      run w (pk p 0x20 2) (i1 * pkS p 0x28 + i2 * pkS p 0x2C + i3 * pkS p 0x30) (i1 * pkS p 0x34 + i2 * pkS p 0x38 + i3 * pkS p 0x3C))).flatten)).flatten)).flatten
  | 0x04 => (fours (pk p 0x18 4)).map (fun (i : Nat) => ⟨4, none, BitVec.ofNat 32 (pk p 0x1C 4), (ceAddr (pk64 p 0x10)).plus i⟩)
  | _ => []

/-- The work of a pull: m bytes from a notice's source (R342). -/
def pullUnits (p : List Byte) (src : W64) (m : Nat) : List CeUnit :=
  (fours m).map (fun (o : Nat) => ⟨4, some ((ceAddr src).plus o), 0, (ceAddr (pk64 p 0x18)).plus o⟩)

/-- The work of GATHER and SCATTER for the rows whose indices have been read (R337). -/
def rowUnits (p : List Byte) (idx : List (Option W32)) : List CeUnit :=
  let rsz := pk p 0x2C 4
  let tb := ceAddr (pk64 p 0x18)
  let lin := ceAddr (pk64 p 0x20)
  ((List.range idx.length).map (fun r =>
    match idx.getD r none with
    | none => []
    | some v =>
      let t : Int := v.toInt * rsz
      (fours rsz).map (fun (i : Nat) =>
        if pkType p == 5 then ⟨4, some (tb.plus (t + i)), 0, lin.plus ((r * rsz : Nat) + (i : Int))⟩
        else ⟨4, some (lin.plus ((r * rsz : Nat) + (i : Int))), 0, tb.plus (t + i)⟩))).flatten

/-- The pages of device memory that a packet's work writes, by virtual address (R330). -/
def writtenPages (us : List CeUnit) : List Nat :=
  us.foldl (fun l u => let v := u.dst.a.toNat / 2 ^ 17 * 2 ^ 17; if u.dst.dev && !l.contains v then v :: l else l) []

/-- An element of a packet's work whose accesses are good: where it reads, its bytes, where it writes. -/
structure CeGood where
  src : Option Place
  bs : List Byte
  dst : Place

/-- What a packet's checked accesses amount to. -/
inductive CeRun
  | ok (l : List CeGood)
  | hold (s : State)
  | bad (s : State) (f : PFault)

/-- Where a packet reads from: context, ASID, tenant. -/
structure CeOwner where
  ctx : CtxId
  asid : Nat
  ten : Nat

/-- The owner of a packet's own addresses. -/
def State.owner (s : State) (c : CtxId) : CeOwner := ⟨c, (s.ctx c).asid.toNat, (s.ctx c).ten.toNat⟩

/-- A source that is read: its bytes, or a wait for the zeroing of a CACHE bank (R258). -/
def State.ceRead (s : State) (w : Who) (rd wr : CeOwner) (a : CeAddr) (n : Nat) : Except CeRun (Place × List Byte) :=
  match s.place w rd.ctx rd.asid rd.ten a n ⟨true, false⟩ with
  | .hold s => .error (.hold s)
  | .bad s f => .error (.bad s f)
  | .ok p =>
    match p with
    | .mem pa => if (s.ctx wr.ctx).nearWaits pa then .error (.hold s) else .ok (p, s.placeBytes wr.ctx rd.ctx n p)
    | _ => .ok (p, s.placeBytes wr.ctx rd.ctx n p)

/-- The accesses of a packet checked one by one in loop order: each read, then its write. -/
def State.ceRun (s : State) (w : Who) (rd wr : CeOwner) : List CeUnit → CeRun
  | [] => .ok []
  | u :: rest =>
    let go (p : Option Place) (bs : List Byte) : CeRun :=
      match s.place w wr.ctx wr.asid wr.ten u.dst u.n ⟨false, true⟩ with
      | .hold s => .hold s
      | .bad s f => .bad s f
      | .ok d =>
        match State.ceRun s w rd wr rest with
        | .ok l => .ok (⟨p, bs, d⟩ :: l)
        | x => x
    match u.src with
    | none => go none (toBytes u.n u.val.toNat)
    | some a =>
      match s.ceRead w rd wr a u.n with
      | .error e => e
      | .ok (p, bs) => go (some p) bs

/-- What the good accesses of a packet do to the TLBs, the near cache of its context, the L2 and the cache layer (R259, R266, R291). -/
def State.ceReach (s : State) (w : Who) (rd wr : CeOwner) (us : List (CeUnit × CeGood)) : State :=
  let core := w.core
  let die := dieOf core
  us.foldl (fun s u =>
    let s := match u.1.src, u.2.src with
      | some a, some (.mem pa) => (s.tlbUse core die rd.asid a.a.toNat).nearNote wr.ctx rd.asid a.a.toNat pa u.1.n
      | _, some (.far _) => { s with free := s.free + 1 }
      | _, _ => s
    match u.2.dst with
    | .mem pa => s.reach core die (some die) wr.asid u.1.dst.a.toNat pa u.1.n true
    | _ => s) s

/-- Does a destination share a byte with a source of the packet, an index among them (R332)? -/
def overlaps (same : Bool) (srcs : List (Nat × Place)) (n : Nat) (d : Place) : Bool := srcs.any (fun p => p.2.meets p.1 n same d)

/-- The sources of good accesses, with their widths. -/
def goodSrcs (l : List CeGood) : List (Nat × Place) := l.filterMap (fun g => g.src.map (fun p => (g.bs.length, p)))

/-- Good accesses of a packet in effect: the bytes in loop order, and bytes that are both source and destination unspecified; srcs holds the packet's
sources, idx those that are indices (R332). -/
def State.ceWrite (s : State) (rd wr : CeOwner) (idx srcs : List (Nat × Place)) (l : List CeGood) : State :=
  l.foldl (fun s u =>
    if overlaps (rd.ctx == wr.ctx) srcs u.bs.length u.dst || overlaps true idx u.bs.length u.dst then s.placeLose wr.ctx u.bs.length u.dst
    else s.placeWrite wr.ctx u.bs u.dst) s

/-- Any subset of a faulted packet's bytes written: those whose two accesses are both good, byte by byte under free choices (R332). -/
def State.ceSome (s : State) (w : Who) (rd wr : CeOwner) (idx got : List (Nat × Place)) (us : List CeUnit) : State :=
  let good := (us.filterMap (fun u => match State.ceRun s w rd wr [u] with | .ok [g] => some g | _ => none))
  let srcs := got ++ goodSrcs good
  good.foldl (fun s u =>
    (List.range u.bs.length).foldl (fun s i =>
      let d := u.dst.plus i
      let t := if overlaps (rd.ctx == wr.ctx) srcs 1 d || overlaps true idx 1 d then s.placeLose wr.ctx 1 d
        else if Config.wrote s.free then s.placeWrite wr.ctx [u.bs.getD i 0] d else s
      { t with free := t.free + 1 }) s) s

/-! ### Packets in progress (R328, R329) -/

/-- Packet i of a core's engine. -/
def State.pkt? (s : State) (core : CoreId) (i : Nat) : Option Pkt := (s.core core).pkts[i]?
/-- A packet replaced. -/
def State.putPkt (s : State) (core : CoreId) (i : Nat) (p : Pkt) : State := s.updCore core (fun k => { k with pkts := modAt (fun _ => p) k.pkts i })

/-- Do two packets come from one source (R328)? -/
def Pkt.sameSrc (p q : Pkt) : Bool :=
  match p.src, q.src with
  | .local _, .local _ => p.ctx == q.ctx
  | .queue a _, .queue b _ => a == b
  | .queue a _, .task b _ _ _ => a == b
  | .task a _ _ _, .queue b _ => a == b
  | .task a _ _ _, .task b _ _ _ => a == b
  | _, _ => false

/-- The requester that a packet is for parking (R292). -/
def Pkt.who (p : Pkt) (s : State) (core : CoreId) : Who := .engine core p.num (s.ctx p.ctx).ten.toNat

/-- CE_PACKET_START: a packet starts, after every packet taken in before it has; with FEN once every earlier packet of its source has completed
(R329). -/
def execCePacketStart (core : CoreId) (i : Nat) (s : State) : Out :=
  match s.pkt? core i with
  | none => .next s
  | some p =>
    let before := (s.core core).pkts.take i
    if p.stage != 0 || before.any (fun q => q.stage == 0) || ((pk64 p.body 0).getLsbD 8 && before.any (fun q => q.sameSrc p)) then .next s
    else .next (s.putPkt core i { p with stage := 1, since := s.time })

/-- A started packet of a type, whose accesses are to be made. -/
def State.started (s : State) (core : CoreId) (i ty : Nat) : Option Pkt :=
  match s.pkt? core i with
  | some p => if p.stage == 1 && pkType p.body == ty then some p else none
  | none => none

/-- The elements of a packet's work that are still to be made: those read are given their bytes, those written are over (R329, R336). -/
def Pkt.todo (p : Pkt) (us : List CeUnit) : List CeUnit :=
  if p.got.isEmpty then us
  else us.zipIdx.filterMap (fun e => match p.got.get? e.2 with
    | none => some e.1
    | some d => if d.done then none else some { e.1 with src := none, val := w32 d.bs })

/-- The sources that a packet has read, with their widths. -/
def Pkt.read (p : Pkt) : List (Nat × Place) := p.got.filterMap (fun e => e.2.src.map (fun q => (e.2.bs.length, q)))

/-- A packet's work done: its bytes written, or its fault (R332). -/
def State.ceWork (s : State) (core : CoreId) (i : Nat) (p : Pkt) (rd : CeOwner) (idx : List (Nat × Place)) (us : List CeUnit) : State × Bool :=
  let wr := s.owner p.ctx
  let w := p.who s core
  let todo := p.todo us
  match s.ceRun w rd wr todo with
  | .hold s => (s, false)
  | .bad s f => ((s.ceSome w rd wr idx p.read todo).putPkt core i { p with stage := 2, fault := some f }, true)
  | .ok l =>
    let pages := if (pk64 p.body 0).getLsbD 9 then writtenPages us else []
    (((s.ceReach w rd wr (todo.zip l)).ceWrite rd wr idx (p.read ++ goodSrcs l) l).putPkt core i { p with stage := 2, pages := pages }, true)

/-- COPY, COPY2D, COPY4D and FILL (R336). -/
def State.ceMove (s : State) (core : CoreId) (i ty : Nat) : Out :=
  match s.started core i ty with
  | none => .next s
  | some p => if pkPull p.body then .next s else .next (s.ceWork core i p (s.owner p.ctx) [] (copyUnits p.body)).1

/-- CE_COPY (R336). -/
def execCeCopy (core : CoreId) (i : Nat) (s : State) : Out := s.ceMove core i 1
/-- CE_COPY2D (R336). -/
def execCeCopy2d (core : CoreId) (i : Nat) (s : State) : Out := s.ceMove core i 2
/-- CE_COPY4D (R336). -/
def execCeCopy4d (core : CoreId) (i : Nat) (s : State) : Out := s.ceMove core i 3
/-- CE_FILL (R336). -/
def execCeFill (core : CoreId) (i : Nat) (s : State) : Out := s.ceMove core i 4

/-- The indices of GATHER and SCATTER read: those that are good, with the places of all of them, and the first fault (R332, R337). -/
def State.ceIndex (s : State) (w : Who) (o : CeOwner) (p : List Byte) : Nat → Except State (List (Option W32) × List (Nat × Place) × Option (State × PFault))
  | 0 => .ok ([], [], none)
  | n + 1 =>
    match State.ceIndex s w o p n with
    | .error e => .error e
    | .ok (l, q, f) =>
      match s.ceRead w o o ((ceAddr (pk64 p 0x10)).plus (4 * n)) 4 with
      | .ok (a, bs) => .ok (l ++ [some (w32 bs)], q ++ [(4, a)], f)
      | .error (.hold s) => .error s
      | .error (.bad t g) => .ok (l ++ [none], q, match f with | some f => some f | none => some (t, g))
      | .error (.ok _) => .error s

/-- What the reads of a packet's indices, at the places q, do to the TLBs, the near cache and the L2 (R259, R266, R291). -/
def State.ceNote (s : State) (core : CoreId) (p : Pkt) (q : List (Nat × Place)) : State :=
  let o := s.owner p.ctx
  (List.range q.length).foldl (fun s n => match (q.getD n (0, .far 0)).2 with
    | .mem pa =>
      let va := ((ceAddr (pk64 p.body 0x10)).plus (4 * n)).a.toNat
      (s.tlbUse core (dieOf core) o.asid va).nearNote p.ctx o.asid va pa 4
    | _ => s) s

/-- GATHER and SCATTER (R337). An index that faults stops the packet, which may have moved other rows (R332). -/
def State.ceRows (s : State) (core : CoreId) (i ty : Nat) : Out :=
  match s.started core i ty with
  | none => .next s
  | some p =>
    let o := s.owner p.ctx
    let w := p.who s core
    match p.index with
    | some (idx, q) => .next (s.ceWork core i p o q (rowUnits p.body idx)).1
    | none =>
      match s.ceIndex w o p.body (pk p.body 0x28 4) with
      | .error s => .next s
      | .ok (idx, q, some (t, f)) => .next ((t.ceSome w o o q [] (rowUnits p.body idx)).putPkt core i { p with stage := 2, fault := some f })
      | .ok (idx, q, none) => .next ((s.ceNote core p q).ceWork core i p o q (rowUnits p.body idx)).1

/-- CE_GATHER (R337). -/
def execCeGather (core : CoreId) (i : Nat) (s : State) : Out := s.ceRows core i 5
/-- CE_SCATTER (R337). -/
def execCeScatter (core : CoreId) (i : Nat) (s : State) : Out := s.ceRows core i 6

/-- CE_CADD: CADD makes no access of its own; its add is step 3 of R330 (R334). -/
def execCeCadd (core : CoreId) (i : Nat) (s : State) : Out :=
  match s.started core i 8 with
  | none => .next s
  | some p => .next (s.putPkt core i { p with stage := 2 })

/-- CE_SIGNAL: a record of type 9 into the ring of the packet's tenant, with the vector's interrupt. The write of the record is the packet's access: it
parks on a migrating page, and its fault is the packet's (R332, R433, R434). -/
def execCeSignal (core : CoreId) (i : Nat) (s : State) : Out :=
  match s.started core i 0x0B with
  | none => .next s
  | some p =>
    let x := s.ctx p.ctx
    let ten := x.ten.toNat
    let info := pk64 p.body 0x10
    let done (s : State) (f : Option PFault) : Out := .next (s.putPkt core i { p with stage := 2, fault := f })
    if ten == 0 then done (s.pfEvent 9 0 x.lease 0 0 core (p.ctx % 4) info) none
    else
      let bad (s : State) (t : Trap) : Out := done s (some (pktFault t ⟨true, (s.vfSlot ten : Int)⟩))
      match if s.vfRoom ten then s.unitXlate (p.who s core) core 0 (bits (s.mgv (0x82A0 + ten)) 10 0) (s.vfSlot ten) ⟨false, true⟩ else .ok 0 with
      | .hold s => .next s
      | .fault s t => bad s t
      | .ok _ =>
        match s.vfPut 9 ten x.lease 0 0 core (p.ctx % 4) (pk p.body 0x18 1) info with
        | .ok s => done s none
        | .error (s, some t) => bad s t
        | .error (s, none) => .next s

/-! ### Transfer notices and pulls (R338, R339, R342, R349) -/

/-- CE_MCAST: one notice to the context at each position of the rectangle, except the sender's own (R338). -/
def execCeMcast (core : CoreId) (i : Nat) (s : State) : Out :=
  match s.started core i 7 with
  | none => .next s
  | some p =>
    let x := s.ctx p.ctx
    let b := p.body
    let l := s.leaseFor p.ctx
    let at_ := ((List.range (pk b 0x23 1)).map (fun dy => (List.range (pk b 0x22 1)).map (fun dx => (pk b 0x20 1 + dx, pk b 0x21 1 + dy)))).flatten
    let tgts := (at_.filterMap (fun q => l.at? q)).filter (· != p.ctx)
    let k : Kick := { pkt := p.num, fr := p.ctx, ten := x.ten.toNat, asid := x.asid.toNat, lx := x.lx.toNat, ly := x.ly.toNat, tag := pk b 0x1C 1,
                      len := pk b 0x18 4, src := pk64 b 0x10, gone := false }
    let s := { s with kickMsgs := s.kickMsgs ++ tgts.map (fun d => (⟨k, d, none⟩ : KickMsg)) }
    .next (s.putPkt core i { p with stage := if tgts.isEmpty then 2 else 3, acks := tgts })

/-- The packet with a number changed, wherever its engine is. -/
def State.updPktNum (s : State) (n : Nat) (f : Pkt → Pkt) : State :=
  { s with cores := s.cores.map (fun e => (e.1, { e.2 with pkts := updFirst (fun p => p.num == n) f e.2.pkts })) }

/-- The engine's own cause of COPY_FAULT: a receiver, or a sender, was absent (R338, R362, R394). -/
def absentFault (src : W64) : PFault := ⟨0, 1, 0, src⟩

/-- A notice refused or lost: its MCAST faults (R338, R405). -/
def State.refuseKick (s : State) (k : Kick) (f : PFault) : State :=
  s.updPktNum k.pkt (fun p => if p.stage == 3 then { p with stage := 2, acks := [], fault := some f } else p)

/-- The fault of a notice or an acknowledgement that cannot cross a link of the mesh (R405, R408). -/
def State.kickLost (s : State) (fr dest : CtxId) (src : W64) : Option PFault :=
  if s.dead.isEmpty then none else (s.deadOn true 40 (coreOf fr) (coreOf dest)).map (fun k => ⟨0x1D, 0, k, src⟩)

/-- Is a notice held back by an earlier one of the same engine to the same receiver (R338)? -/
def State.kickBlocked (s : State) (i : Nat) : Bool :=
  match s.kickMsgs[i]? with
  | none => true
  | some m => (s.kickMsgs.take i).any (fun k => coreOf k.kick.fr == coreOf m.kick.fr && k.dest == m.dest)

/-- A notice dropped at the firewall test of the receiving engine, which refuses it (R338, R380); bten is the TEN of the bank, 0 for an empty one. -/
def State.dropKick (s : State) (m : KickMsg) (bten : Nat) : State :=
  let s := if coreOf m.dest < numCores then s.fwDrop m.kick.ten (m.dest % 4) (coreOf m.dest) 0 1 bten else s
  s.refuseKick m.kick (absentFault m.kick.src)

/-- KICK_NOTICE_ARRIVE: a notice enters the receiver's kick FIFO, is returned by a full one, or is refused (R338, R380). -/
def execKickNoticeArrive (i : Nat) (s : State) : Out :=
  match s.kickMsgs[i]? with
  | none => .next s
  | some m =>
    let y := s.ctx m.dest
    if m.back.isSome || s.kickBlocked i || s.acnHeld y.lease then .next s
    else
      let s' := { s with kickMsgs := s.kickMsgs.eraseIdx i }
      match s.kickLost m.kick.fr m.dest m.kick.src with
      | some f => .next (s'.refuseKick m.kick f)
      | none =>
      if y.st == .empty then .next (s'.dropKick m 0)
      else if y.ten.toNat != m.kick.ten then .next (s'.dropKick m y.ten.toNat)
      else if y.kicks.length ≥ 16 then .next { s with kickMsgs := modAt (fun m => { m with back := some s.time }) s.kickMsgs i }
      else .next (s'.setCtx m.dest { y with kicks := y.kicks ++ [m.kick] })

/-- KICK_NOTICE_RESEND: a returned notice is sent again 64 cycles later (R338). -/
def execKickNoticeResend (i : Nat) (s : State) : Out :=
  match s.kickMsgs[i]? with
  | some ⟨_, _, some t⟩ => if s.time < t + 64 then .next s else .next { s with kickMsgs := modAt (fun m => { m with back := none }) s.kickMsgs i }
  | _ => .next s

/-- PULL_ACK: an acknowledgement reaches the sender, whose MCAST completes with the last (R339, R342, R405). -/
def execPullAck (i : Nat) (s : State) : Out :=
  match s.pullAcks[i]? with
  | none => .next s
  | some a =>
    let s := { s with pullAcks := s.pullAcks.eraseIdx i }
    .next (s.updPktNum a.pkt (fun p =>
      let l := p.acks.erase a.fr
      if p.stage != 3 then p
      else match s.kickLost a.fr p.ctx (pk64 p.body 0x10) with
        | some f => { p with stage := 2, acks := [], fault := some f }
        | none => { p with acks := l, stage := if l.isEmpty then 2 else 3 }))

/-- The first notice of a list that a pull word matches, and the others (R342). -/
def matchKick (w : W64) : List Kick → Option (Kick × List Kick)
  | [] => none
  | k :: t =>
    if k.tag == bits w 31 24 && k.lx == bits w 23 19 && k.ly == bits w 18 15 then some (k, t)
    else (matchKick w t).map (fun r => (r.1, k :: r.2))

/-- The work of a pull whose first bytes have been read for another receiver of the MCAST: those are given, the rest is read (R339). -/
def giveBytes (got : List Byte) (us : List CeUnit) : List CeUnit :=
  (List.range us.length).filterMap (fun i => (us[i]?).map (fun u =>
    if 4 * i + 4 ≤ got.length then { u with src := none, val := w32 ((got.drop (4 * i)).take 4) } else u))

/-- The bytes of a pull's source that can be read, from the first on, up to a fault. -/
def State.seenBytes (s : State) (w : Who) (rd wr : CeOwner) : List CeUnit → List Byte
  | [] => []
  | u :: t =>
    match u.src with
    | none => toBytes u.n u.val.toNat ++ State.seenBytes s w rd wr t
    | some a =>
      match s.ceRead w rd wr a u.n with
      | .ok (_, bs) => bs ++ State.seenBytes s w rd wr t
      | .error _ => []

/-- The bytes of an MCAST's source that have been read for its receivers, with those now read (R339). -/
def State.noteMcast (s : State) (n : Nat) (bs : List Byte) : State :=
  if ((s.mcasts.get? n).getD []).length < bs.length then { s with mcasts := s.mcasts.set n bs } else s

/-- The work of a pull from its notice's source, the bytes read for other receivers given (R339, R342). -/
def State.pullWork (s : State) (p : Pkt) (k : Kick) : CeOwner × List CeUnit :=
  (⟨k.fr, k.asid, k.ten⟩, giveBytes ((s.mcasts.get? k.pkt).getD []) (pullUnits p.body k.src (min (pk p.body 0x20 4) k.len)))

/-- Is the source of a notice gone with its sender (R394)? -/
def Kick.lost (k : Kick) : Bool := k.gone && !k.src.getLsbD 63

/-- CE_PULL: a posted receive takes the oldest matching notice, copies from its sender, and acknowledges (R342, R394). A byte of the source is read once
for all receivers (R339). The taking of a notice drops the near cache of the packet's context, whose older bytes the pull must not read (R360). -/
def execCePull (core : CoreId) (i : Nat) (s : State) : Out :=
  match s.started core i 1 with
  | none => .next s
  | some p =>
    if !pkPull p.body then .next s
    else
      let x := s.ctx p.ctx
      let found : Option (Kick × Ctx) := match p.notice with
        | some k => some (k, x)
        | none => (matchKick (pk64 p.body 0x10) x.kicks).map (fun (r : Kick × List Kick) => (r.1, { x with kicks := r.2, near := [] }))
      match found with
      | none => .next s
      | some (k, x) =>
        let s := s.setCtx p.ctx x
        let p := { p with notice := some k }
        if k.lost then .next (s.putPkt core i { p with stage := 2, fault := some (absentFault k.src) })
        else
          let (rd, us) := s.pullWork p k
          let seen := s.seenBytes (p.who s core) rd (s.owner p.ctx) us
          let (s, done) := s.ceWork core i p rd [] us
          if !done then .next (s.putPkt core i p)
          else
            let s := s.noteMcast k.pkt seen
            match s.pkt? core i with
            | some q => if q.fault.isSome then .next s else .next { s with pullAcks := s.pullAcks ++ [⟨k.pkt, p.ctx⟩] }
            | none => .next s

/-! ### The accesses of a packet one by one (R329, R336) -/

/-- The work of a started packet that moves bytes, once it is known: where it reads, the places of its indices, its elements. -/
def State.pktWork (s : State) (p : Pkt) : Option (CeOwner × List (Nat × Place) × List CeUnit) :=
  let o := s.owner p.ctx
  if p.stage != 1 then none
  else if pkType p.body == 1 && pkPull p.body then
    match p.notice with
    | some k => if k.lost then none else let w := s.pullWork p k; some (w.1, [], w.2)
    | none => none
  else if 1 ≤ pkType p.body && pkType p.body ≤ 4 then some (o, [], copyUnits p.body)
  else if pkType p.body == 5 || pkType p.body == 6 then p.index.map (fun q => (o, q.2, rowUnits p.body q.1))
  else none

/-- The state after a read of element n of a packet: its bytes are kept, and noted for an MCAST's other receivers where they are the next (R339). -/
def State.keepRead (s : State) (core : CoreId) (i n : Nat) (p : Pkt) (src : Option Place) (bs : List Byte) : State :=
  let s := s.putPkt core i { p with got := p.got.set n ⟨src, bs, false⟩ }
  match p.notice with
  | some k =>
    let old := (s.mcasts.get? k.pkt).getD []
    if old.length == 4 * n then s.noteMcast k.pkt (old ++ bs) else s
  | none => s

/-- A read of element n of a packet's work, in whatever order; of the bytes of an MCAST's source the next. Of rows the indices are read first (R336, R337,
R339). A read that fails is made again with the rest of the packet. -/
def State.ceReadAt (s : State) (core : CoreId) (i n : Nat) : State :=
  match s.pkt? core i with
  | none => s
  | some p =>
    let w := p.who s core
    let wr := s.owner p.ctx
    match s.pktWork p with
    | none =>
      if p.stage == 1 && (pkType p.body == 5 || pkType p.body == 6) then
        (match s.ceIndex w wr p.body (pk p.body 0x28 4) with
         | .ok (idx, q, none) => (s.ceNote core p q).putPkt core i { p with index := some (idx, q) }
         | .error s => s
         | .ok _ => s)
      else s
    | some (rd, _, us) =>
      match us[n]?, p.got.get? n with
      | some u, none =>
        (match u.src with
         | none => s.keepRead core i n p none (toBytes u.n u.val.toNat)
         | some a =>
           if p.notice.any (fun k => ((s.mcasts.get? k.pkt).getD []).length != 4 * n) then s
           else match s.ceRead w rd wr a u.n with
             | .ok (q, bs) => (s.ceReach w rd wr [(u, ⟨some q, bs, .far 0⟩)]).keepRead core i n p (some q) bs
             | .error (.hold s) => s
             | .error _ => s)
      | _, _ => s

/-- The write of element n of a packet's work, which has been read; an earlier element that writes one of its bytes goes first (R332, R336). -/
def State.ceWriteAt (s : State) (core : CoreId) (i n : Nat) : State :=
  match s.pkt? core i with
  | none => s
  | some p =>
    let w := p.who s core
    let wr := s.owner p.ctx
    match s.pktWork p with
    | none => s
    | some (rd, idx, us) =>
      match us[n]?, p.got.get? n with
      | some u, some d =>
        let before := (us.take n).zipIdx.any (fun e => e.1.dst.dev == u.dst.dev && e.1.dst.a < u.dst.a + u.n && u.dst.a < e.1.dst.a + e.1.n
          && !((p.got.get? e.2).any (·.done)))
        if d.done || before then s
        else match s.place w wr.ctx wr.asid wr.ten u.dst u.n ⟨false, true⟩ with
          | .ok q =>
            let more := (p.todo us).filterMap (fun u => match u.src with
              | some a => (match s.place w rd.ctx rd.asid rd.ten a u.n ⟨true, false⟩ with | .ok r => some (u.n, r) | _ => none)
              | none => none)
            let g : CeGood := ⟨none, d.bs, q⟩
            ((s.ceReach w rd wr [({ u with src := none }, g)]).ceWrite rd wr idx (p.read ++ more) [g]).putPkt core i { p with got := p.got.set n { d with done := true } }
          | .hold s => s
          | .bad _ _ => s
      | _, _ => s

/-! ### Lost packages (R446) -/

/-- The address words of a packet that moves bytes. -/
def pktWords (p : List Byte) : List W64 :=
  let t := pkType p
  if t == 1 || t == 2 || t == 3 then [pk64 p 0x10, pk64 p 0x18]
  else if t == 4 then [pk64 p 0x10]
  else if t == 5 || t == 6 then [pk64 p 0x10, pk64 p 0x18, pk64 p 0x20]
  else []

/-- The first of a packet's address words that names another package. -/
def State.farWord (s : State) (w : Who) (o : CeOwner) (p : List Byte) : Option W64 :=
  (pktWords p).find? (fun a =>
    a.getLsbD 63 && (match s.unitXlate w w.core (dieOf w.core) o.asid (bits a 55 0) ⟨false, false⟩ with | .ok pa => !s.isLocal pa | _ => false))

/-- A page of a pull that is lost: every word of it holds the poison pattern (R446). -/
def State.losePage (s : State) (pa : Nat) : State :=
  let a := memKey pa / 2 ^ 17 * 2 ^ 17
  { s with lost := (a, a + 2 ^ 17, 0) :: cutRange a (a + 2 ^ 17) s.lost }.breakRange a (2 ^ 17)

/-- REMOTE_READ_TIMEOUT: a packet's access to another package is not answered within 1,048,576 cycles, or a link has failed: the packet faults, and the
destination page of a COPY with REL = 1, the pull of a page, holds the poison pattern (R446). -/
def execRemoteReadTimeout (core : CoreId) (i : Nat) (s : State) : Out :=
  match s.pkt? core i with
  | none => .next s
  | some p =>
    let o := s.owner p.ctx
    let w := p.who s core
    if p.stage != 1 || pkPull p.body || (s.time < p.since + 1048576 && !s.jex.any (fun e => e.2 == 2)) then .next s
    else match s.farWord w o p.body with
      | none => .next s
      | some a =>
        let bad (s : State) : State := s.putPkt core i { p with stage := 2, fault := some ⟨0x20, 0, 0, a⟩ }
        match if pkType p.body == 1 && (pk64 p.body 0).getLsbD 9 then s.place w o.ctx o.asid o.ten (ceAddr (pk64 p.body 0x18)) 4 ⟨false, true⟩ else .hold s with
        | .ok (.mem pa) => .next (bad (s.losePage pa))
        | _ => .next (bad s)

/-! ### Completion (R330 to R333) -/

/-- What the counter add of a packet gives: a wait, or the add made or faulted. -/
inductive CeAdd
  | held (s : State)
  | made (s : State) (f : Option PFault)

/-- The counter add of step 3 of R330 for a context. -/
def State.ceAdd (s : State) (w : Who) (c : CtxId) (ca amt : W64) : CeAdd :=
  let o := s.owner c
  match s.place w c o.asid o.ten (ceAddr ca) 8 ⟨true, true⟩ with
  | .hold s => .held s
  | .bad s f => .made s (some f)
  | .ok (.spad a) => .made (s.spadWrite c a (toBytes 8 (w64 (s.spadBytes c a 8) + amt).toNat)) none
  | .ok (.mem pa) =>
    let s := s.reach w.core (dieOf w.core) (some (dieOf w.core)) o.asid (ceAddr ca).a.toNat pa 8 true
    .made (s.placeWrite c (toBytes 8 (s.dev64 pa + amt).toNat) (.mem pa)) none
  | .ok (.far _) => .made { s with free := s.free + 1 } none

/-- Counted packets leave CNT.CP oldest first (R331). -/
def sweepCp : List CpOp → List CpOp
  | [] => []
  | o :: t => if o.done then sweepCp t else o :: t

/-- A local packet counted out, with its fault kept for the covering WAIT; only the first fault is kept (R331, R332). -/
def Ctx.cpDone (x : Ctx) (seq : Nat) (f : Option PFault) : Ctx :=
  let x := { x with cpq := sweepCp (updFirst (fun o => o.seq == seq) (fun o => { o with done := true }) x.cpq) }
  match f with
  | some f =>
    if x.cov.any (·.copy) then x
    else { x with cov := x.cov ++ [⟨true, seq, ⟨0x17, f.addr, BitVec.ofNat 16 (f.cls % 256 + f.cause % 16 * 256)⟩⟩] }
  | none => x

/-- A queue's state changed. -/
def State.updQ (s : State) (q : Nat) (f : QState → QState) : State :=
  { s with queues := s.queues.set q (f ((s.queues.get? q).getD { held := false, err := false, pend := none, head := none })) }

/-- The fault as a queue or a block records it: the engine's own cause under the class COPY_FAULT (R338, R345, R358). -/
def PFault.recorded (f : PFault) : PFault := if f.cls == 0 then { f with cls := 0x17 } else f

/-- The end of a packet is reported to its source (R330 step 5); a queue that has stopped keeps its first error (R345). -/
def State.reportPkt (s : State) (p : Pkt) (f : Option PFault) : State :=
  match p.src with
  | .local _ => if p.stage == 4 then s else s.updCtx p.ctx (fun x => x.cpDone p.seq f)
  | .queue q idx =>
    (match f with
     | some f => s.updQ q (fun k => if k.pend.isSome || k.err || k.held then k else { k with pend := some ⟨f.recorded, idx, true, true⟩ })
     | none => s)
  | .task _ _ asid va => { s with reports := s.reports ++ [⟨asid, va, f.map PFault.recorded⟩] }

/-- The done token of a packet (R330 Table 1). -/
def doneToken (p : Pkt) (f : Option PFault) : W32 :=
  BitVec.ofNat 32 ((if p.stage == 4 then 2 else if f.isSome then 1 else 0) * 2 ^ 30 + p.lsn % 2 ^ 30)

/-- Steps 2 and 3 of R330: the release event, then the counter add; a faulted packet skips them. -/
def State.ceSteps (s : State) (core : CoreId) (i : Nat) (p : Pkt) : CeAdd :=
  if p.stage != 2 then .made s p.fault
  else if p.fault.isSome then .made (s.putPkt core i { p with stage := 5 }) p.fault
  else
    let asid := (s.ctx p.ctx).asid.toNat
    let s := p.pages.foldl (fun s v => s.releaseEvent 0 asid v) s
    let p := { p with pages := [] }
    if pkCA p.body == 0 then .made (s.putPkt core i { p with stage := 5 }) none
    else match s.ceAdd (p.who s core) p.ctx (pkCA p.body) (if pkType p.body == 8 then pk64 p.body 0x10 else 1) with
      | .held s => .held (s.putPkt core i p)
      | .made s f => .made (s.putPkt core i { p with stage := 5, fault := f }) f

/-- CE_PACKET_COMPLETE: release event, counter add, done token under demand, report (R330). -/
def execCePacketComplete (core : CoreId) (i : Nat) (s : State) : Out :=
  match s.pkt? core i with
  | none => .next s
  | some p =>
    if p.stage != 2 && p.stage != 4 && p.stage != 5 then .next s
    else match s.ceSteps core i p with
      | .held s => .next s
      | .made s f =>
        let x := s.ctx p.ctx
        let port := match p.src with
          | .local (some _) => x.openPort 54
          | _ => none
        if port.isSome && (x.fab.held || !x.fab.canClose (.port 54) 1) then .next s
        else
          let s := match port with
            | some _ => s.updFab p.ctx (fun b => b.close (.port 54) (x.packet [doneToken p f] 0 0 false))
            | none => s
          let s := s.updCore core (fun k => { k with pkts := k.pkts.eraseIdx i })
          .next ({ s with mcasts := s.mcasts.erase p.num }.reportPkt p f)

/-- CE_DONE_EOS: a routed ce.done closes EOS when ce.cmd and every CPY cell have passed EOS and every packet of theirs has its token (R330). -/
def execCeDoneEos (c : CtxId) (s : State) : Out :=
  let x := s.ctx c
  match x.openPort 54 with
  | none => .next s
  | some q =>
    let k := s.core (coreOf c)
    let cmd := match x.fab.port? 53 with
      | some p => (x.fab.branchTo (.port 53)).isNone || p.part.eosOut
      | none => true
    if !x.fab.routed (.port 54) || x.fab.held || !x.fab.canClose (.port 54) 1 || !cmd
        || x.fab.cells.any (fun e => wOp e.2.word == 0x71 && !e.2.done) || k.ceCmds.any (fun e => e.ctx == c)
        || k.pkts.any (fun p => p.ctx == c && match p.src with | .local (some _) => true | _ => false) then .next s
    else .next (s.updFab c (fun f => (f.setPort 54 { q with eos := true }).close (.port 54) (x.packet [] 2 0 false)))

end Sys2Proof.Machine
end

