-- ==== Sys2Proof/Machine/Tasks.lean ====
section
/-! DEFINITION. Queues and their servers, the intake of the copy engines, the task walker, and their instructions (R328, R331, R341 to R359, R364,
R444). -/

namespace Sys2Proof.Machine

/-! ### The hub's accesses (R289, R421) -/

/-- The hub die's number as a core: it stands below the grid, on die 4. -/
def hubCore : CoreId := 320

/-- An access of the distributor, Ostler or the walker in an ASID of a tenant: die 0 walks for it, and EXCL does not test it. -/
def State.hubAt (s : State) (i asid ten : Nat) (va : Int) (n : Nat) (need : Need) : SeqX :=
  s.onlyLocal hubCore 0 asid va need.wr (s.engAt (.engine hubCore i ten) 0 none asid ten va n need)

/-- What such an access does to die 0's TLB and to the L2 (R289, R291). -/
def State.hubUse (s : State) (asid va pa n : Nat) (wr : Bool) : State := s.reach hubCore 0 none asid va pa n wr

/-! ### Queues (R341, R343 to R346, R364, R367) -/

/-- Binding register of a queue: launch queue q, or queue n of core c at 64 + 4c + n. -/
def qReg (q : Nat) : Nat := if q < 64 then 0x0880 + 4 * q else 0xA000 + 8 * ((q - 64) / 4) + 2 * ((q - 64) % 4)
/-- LQCFG or CEQ of a queue. -/
def State.qCfg (s : State) (q : Nat) : W64 := s.mgv (qReg q)
/-- LQX or CEQX of a queue. -/
def State.qX (s : State) (q : Nat) : W64 := s.mgv (qReg q + 1)
/-- The tenant of a queue. -/
def State.qTen (s : State) (q : Nat) : Nat := bits (s.qX q) 5 0
/-- The ASID of a queue. -/
def State.qAsid (s : State) (q : Nat) : Nat := bits (s.qX q) 26 16
/-- Address of a queue's control line. -/
def State.qLine (s : State) (q : Nat) : Nat := bits (s.qCfg q) 55 6 * 64
/-- The server's state of a queue. -/
def State.qState (s : State) (q : Nat) : QState := (s.queues.get? q).getD { held := false, err := false, pend := none, head := none }
/-- The context of a CEQ queue's packets (R346). -/
def State.qCtx (s : State) (q : Nat) : CtxId := 4 * ((q - 64) / 4) + bits (s.qX q) 33 32

/-- May a tenant use an ASID (R364)? -/
def State.asidOk (s : State) (asid ten : Nat) : Bool := (s.mgv (0x1000 + asid)).getLsbD 63 && bits (s.mgv (0x1000 + asid)) 5 0 == ten

/-- Does a tenant's log ring lack room for n records while it is logged (R444)? -/
def State.mlogShort (s : State) (t n : Nat) : Bool :=
  (s.mgv (0x80A0 + t)).getLsbD 0
    && (s.mgv (0x8120 + 2 * t) - s.mgv (0x8121 + 2 * t)).toNat + n > 2 ^ (bits (s.mgv (0x80E0 + t)) 3 0 + 7)

/-- Is a tenant's log ring full while it is logged (R444)? -/
def State.mlogFull (s : State) (t : Nat) : Bool := s.mlogShort t 1

/-- Records of a write of n bytes: one for each 64 (R444). -/
def mlogCount (n : Nat) : Nat := (n + 63) / 64

/-- A log record of a tenant, while it is logged (R444). kind is 0 launch queue, 1 CEQ, 2 aperture, 3 peer. Records of one cycle stand in the order of
their cores, those of the hub last. The field of a queue's number holds its low eight bits: DESIGN CHOICE (log 133). -/
def State.mlog (s : State) (t kind q at_ : Nat) (bs : List Byte) : State :=
  if !(s.mgv (0x80A0 + t)).getLsbD 0 then s
  else
    let b := s.mgv (0x80E0 + t)
    let h := s.mgv (0x8120 + 2 * t)
    let rec_ := bs.take 64 ++ List.replicate (64 - min 64 bs.length) 0 ++ toBytes 8 (kind + q % 256 * 2 ^ 8 + min 64 bs.length * 2 ^ 16) ++ toBytes 8 at_
      ++ toBytes 8 s.time ++ List.replicate 40 0
    (s.ringPut (1 + t) (if kind == 1 then q / 4 else hubCore) h.toNat (fun i => bits b 47 12 * 2 ^ 12 + 128 * (i % 2 ^ (bits b 3 0 + 7))) false rec_).setMg
      (0x8120 + 2 * t) (h + 1)

/-- Is the intake of a tenant's queues stopped: partition reset, TDISP ERROR, or a full log (R396, R440, R444, R455)? -/
def State.intakeStopped (s : State) (t : Nat) : Bool :=
  (s.resets.get? t).isSome || bits (s.mgv (0x8260 + t)) 1 0 == 3 || s.mlogFull t

/-- An access of a queue's server (R345, R364). -/
def State.qAt (s : State) (q : Nat) (va n : Nat) (need : Need) : SeqX :=
  if q < 64 then s.hubAt q (s.qAsid q) (s.qTen q) va n need
  else
    let die := dieOf ((q - 64) / 4)
    s.onlyLocal ((q - 64) / 4) die (s.qAsid q) va need.wr
      (s.engAt (.engine ((q - 64) / 4) (2 ^ 40 + q % 4) (s.qTen q)) die (some die) (s.qAsid q) (s.qTen q) va n need)

/-- What a server finds at its queue: nothing to take, a walk to wait for, an error to record, or a ready slot with its arrival cycle (R367). -/
inductive QPeek
  | idle
  | hold (s : State)
  | bad (s : State)
  | ready (idx : Nat) (slot : List Byte) (line : Nat) (seen : Nat)

/-- A server's fault recorded, with whether the control line can be written, whether or not it can be read (R345). -/
def State.qFault (s : State) (q idx va : Nat) (t : Trap) : State :=
  let line := match s.qAt q (s.qLine q) 64 ⟨false, true⟩ with
    | .fault _ _ => false
    | _ => true
  s.updQ q (fun k => { k with pend := some ⟨pktFault t ⟨true, va⟩, idx, true, line⟩ })

/-- The slot at RDIDX of a queue, if its server may take it (R344, R345). -/
def State.qPeek (s : State) (q : Nat) : QPeek :=
  let k := s.qState q
  if !(s.qCfg q).getLsbD 63 || k.held || k.err || k.pend.isSome || s.intakeStopped (s.qTen q) || !s.asidOk (s.qAsid q) (s.qTen q) then .idle
  else match s.qAt q (s.qLine q) 64 ⟨true, true⟩ with
    | .hold s => .hold s
    | .fault s t => .bad (s.qFault q 0 (s.qLine q) t)
    | .ok line =>
      let rd := s.dev64 (line + 8)
      let qb := s.dev64 (line + 16)
      if bits (s.dev64 (line + 24)) 7 0 != 0 then .idle
      else
        let va := bits qb 55 6 * 64 + 64 * (rd.toNat % 2 ^ (bits qb 3 0 + 4))
        match s.qAt q va 64 ⟨true, false⟩ with
        | .hold s => .hold s
        | .fault s t => .bad (s.qFault q rd.toNat va t)
        | .ok pa =>
          let b := s.devBytes pa 64
          if pkType b != 0 && pk b 6 2 == rd.toNat % 65536 then .ready rd.toNat b line ((s.hdrs.get? (memKey pa / 64)).getD 0) else .idle

/-- The cycle of arrival of the packet that a queue's server would take next, if one is ready (R367). -/
def State.readyAt (s : State) (q : Nat) : Option Nat :=
  match (s.qState q).head with
  | some h => some h.arrival
  | none =>
    match s.qPeek q with
    | .ready _ _ _ seen => some seen
    | _ => none

/-- May the packet that arrived at a queue in a cycle be taken: while its tenant replays a log, only the first of all its queues is, in the order in which
the packets were written there. DESIGN CHOICE (log 134) for what R445 calls the logged order. -/
def State.inTurn (s : State) (q seen : Nat) : Bool :=
  let t := s.qTen q
  !(s.mgv (0x80A0 + t)).getLsbD 1
    || (List.range (64 + 4 * numCores)).all (fun p => p == q || !(s.qCfg p).getLsbD 63 || s.qTen p != t || (match s.readyAt p with
        | some n => seen < n || (seen == n && q < p)
        | none => true))

/-- RDIDX advanced past a slot (R344). -/
def State.qAdvance (s : State) (line idx : Nat) : State := s.devWrite (line + 8) (toBytes 8 (idx + 1))

/-! ### The walker's blocks (R351 to R355) -/

/-- NPRED of a snapshot. -/
def tcbPred (b : List Byte) : Nat := pk b 0 2
/-- NSUCC. -/
def tcbSucc (b : List Byte) : Nat := bits (pk64 b 0) 19 16
/-- Address of the ready queue's control line. -/
def tcbRQ (b : List Byte) : Nat := bits (pk64 b 0x10) 55 0
/-- The payload as a packet. -/
def tcbPayload (b : List Byte) : List Byte := (b.drop 0x18).take 64
/-- Addresses of the successors, k rising. -/
def tcbNext (va : Nat) (b : List Byte) : List Nat := (List.range (tcbSucc b)).map (fun k => ((va : Int) + 128 * pkS b (0x58 + 4 * k)).toNat)

/-- The status word of a block (R351 Table 9). -/
def TaskBlk.word (b : TaskBlk) : W64 :=
  let f := if b.st == 5 then b.fault else none
  BitVec.ofNat 64 (b.st + (if b.lost then 256 else 0) + b.rem % 65536 * 2 ^ 16
    + (match f with | some f => f.cls % 256 * 2 ^ 32 + f.cause % 16 * 2 ^ 40 | none => 0))

/-- STAT of a block written, and FADDR at a fault (R352), in order behind its status words that wait for a translation. A block that cannot be written is
left. -/
def State.putStat (s : State) (b : TaskBlk) : State :=
  let later (s : State) : State := { s with stats := s.stats ++ [b] }
  if s.stats.any (fun e => e.asid == b.asid && e.va == b.va) then later s
  else match s.hubAt 200 b.asid b.ten b.va 128 ⟨true, true⟩ with
  | .ok pa =>
    let s := (s.hubUse b.asid b.va pa 128 true).devWrite (pa + 8) (toBytes 8 b.word.toNat)
    (match if b.st == 5 then b.fault else none with
     | some f => s.devWrite (pa + 0x78) (toBytes 8 f.addr.toNat)
     | none => s)
  | .hold s => later s
  | .fault s _ => s

/-- A status word that waits is written again; it stays in its place while its translation is not there (R292, R352). -/
def State.statWrite (s : State) (i : Nat) : State :=
  match s.stats[i]? with
  | none => s
  | some b =>
    if (s.stats.take i).any (fun e => e.asid == b.asid && e.va == b.va) then s
    else
      let t := { s with stats := s.stats.filter (fun e => !(e.asid == b.asid && e.va == b.va)) }.putStat b
      if t.stats.any (fun e => e.asid == b.asid && e.va == b.va) then { t with stats := s.stats } else { t with stats := s.stats.eraseIdx i }

/-- The entry of a block. -/
def State.blk? (s : State) (asid va : Nat) : Option TaskBlk := s.walker.find? (fun b => b.asid == asid && b.va == va)
/-- An entry changed, and its STAT written. -/
def State.updBlk (s : State) (asid va : Nat) (f : TaskBlk → TaskBlk) : State :=
  match s.blk? asid va with
  | some b => ({ s with walker := updFirst (fun b => b.asid == asid && b.va == va) f s.walker }).putStat (f b)
  | none => s
/-- An entry freed with its last STAT written. -/
def State.freeBlk (s : State) (b : TaskBlk) : State :=
  ({ s with walker := s.walker.filter (fun e => !(e.asid == b.asid && e.va == b.va)) }).putStat b

/-- Is a queue bound with its control line at an address of an ASID? -/
def State.boundAt (s : State) (asid va q : Nat) : Bool := (s.qCfg q).getLsbD 63 && s.qAsid q == asid && s.qLine q == va

/-- The copy engines' queue whose control line stands at an address of an ASID. -/
def State.ceqAt (s : State) (asid va : Nat) : Option Nat := (upto 64 (4 * numCores)).find? (s.boundAt asid va)

/-- Is an address of an ASID the control line of a launch queue? -/
def State.lqAt (s : State) (asid va : Nat) : Bool := (List.range 64).any (s.boundAt asid va)

/-- The extents of the lease of a ready queue's context, against which R334 checks a payload. -/
def State.rqLease (s : State) (asid va : Nat) : Option (Nat × Nat) :=
  match s.ceqAt asid va with
  | some q => let x := s.ctx (s.qCtx q); if x.st == .empty then none else some (x.lw.toNat, x.lh.toNat)
  | none => none
/-- Is a snapshot malformed, or its payload invalid under R334 (R356 cause 3)? A LAUNCH payload is allowed where its ready queue is a launch queue, and
nothing else is there (Table 3). A lease against which cause 5 is judged is that of the context of a ready queue that is bound: DEDUCED (log 49). -/
def State.tcbBad (s : State) (asid : Nat) (b : List Byte) : Bool :=
  let p := tcbPayload b
  bits (pk64 b 0) 63 20 != 0 || tcbSucc b > 8 || !addrOk (pk64 b 0x10) 64 true
    || (upto (tcbSucc b) (8 - min 8 (tcbSucc b))).any (fun k => pk b (0x58 + 4 * k) 4 != 0)
    || pk p 6 2 != 0
    || (pkCause (s.lqAt asid (tcbRQ b)) false (s.rqLease asid (tcbRQ b)) p).isSome

/-- What arming a block gives. -/
inductive ArmRes
  | ok (s : State)
  | hold (s : State)
  | state (cause : Nat)
  | fault (s : State) (t : Trap)

/-- The snapshot taken and the block armed (R352, R353, R356). -/
def State.armBlock (s : State) (asid ten va : Nat) : ArmRes :=
  match s.hubAt 201 asid ten va 128 ⟨true, true⟩ with
  | .hold s => .hold s
  | .fault s t => .fault s t
  | .ok pa =>
    let s := s.hubUse asid va pa 128 true
    let b := s.devBytes pa 128
    let old := s.blk? asid va
    if old.any (fun e => e.st != 5) then .state 1
    else if old.isNone && s.walker.length ≥ 4096 then .state 2
    else if s.tcbBad asid b then .state 3
    else
      let rem := if old.isSome then 0 else tcbPred b
      let e : TaskBlk := { asid := asid, ten := ten, va := va, arm := s.time, snap := b, st := if rem == 0 then 2 else 1, rem := rem, lost := false,
                           fault := none, claim := none, slot := none }
      .ok (({ s with walker := s.walker.filter (fun (k : TaskBlk) => !(k.asid == asid && k.va == va)) ++ [e] }).putStat e)

/-! ### Intake (R328, R331, R344) -/


/-- A slot taken from a CEQ queue: an acquire of scope PKG for the context of its packets (R261, R344, R354); logged, RDIDX advanced, a walker's push matched to its block, and the packet checked (R334, R344, R345, R352). -/
def State.ceTake (s : State) (q idx : Nat) (b : List Byte) (line : Nat) : State :=
  let core := (q - 64) / 4
  let c := s.qCtx q
  let x := s.ctx c
  let asid := s.qAsid q
  let key : Nat × Nat × Nat := (asid, s.qLine q, idx)
  let s := ((s.mlog (s.qTen q) 1 (q - 64) idx b).qAdvance line idx).updCtx c (fun x => { x with near := [] })
  let blk := s.walker.find? (fun e => e.asid == asid && tcbRQ e.snap == s.qLine q && e.slot == some idx && e.st == 2)
  if (pk64 b 0).getLsbD 11 && s.killedSlots.contains key then { s with killedSlots := s.killedSlots.erase key }
  else
    let tsk := (pk64 b 0).getLsbD 11
    let s := match tsk, blk with
      | true, some e => s.updBlk e.asid e.va (fun e => { e with st := 3 })
      | _, _ => s
    match pkCause false (tsk && blk.isSome) (some (x.lw.toNat, x.lh.toNat)) b, tsk, blk with
    | some k, true, some e => { s with reports := s.reports ++ [⟨e.asid, e.va, some ⟨0x18, k, k, 0⟩⟩] }
    | some k, _, _ => s.updQ q (fun t => { t with pend := some ⟨⟨0x18, k, k, 0⟩, idx, false, true⟩ })
    | none, true, some e => s.addPkt core c (.task q idx e.asid e.va) 0 0 0 b
    | none, _, _ => s.addPkt core c (.queue q idx) 0 0 0 b

/-- A counted local submission of a context: the LSN it takes, and its place in CNT.CP (R331). -/
def Ctx.submit (x : Ctx) : Ctx := { x with lsn := x.lsn + 1, cpN := x.cpN + 1, cpq := x.cpq ++ [⟨x.cpN, false⟩] }

/-- The command that has waited longest at a core's engine for context c (R180). -/
def Core.cmd? (k : Core) (c : CtxId) : Option CeCmd := k.ceCmds.find? (fun e => e.ctx == c)
/-- A command no longer waits. -/
def State.dropCmd (s : State) (core : CoreId) (e : CeCmd) : State := s.updCore core (fun o => { o with ceCmds := o.ceCmds.erase e })

/-- The CPY cell's command accepted: the cell emits 1 and may fire again (R180). -/
def State.cpyAccept (s : State) (c : CtxId) (e : CeCmd) (n : Nat) (k : Cell) : State :=
  let x := s.ctx c
  let core := coreOf c
  let s := (s.dropCmd core e).putCell c n { k with buf := [], busy := none, pk := if x.fab.stopped then k.pk else k.pk ++ [1] }
  (s.updCtx c Ctx.submit).addPkt core c (.local (some (some n))) x.lsn.toNat x.cpN 0 (packetOf k.buf)

/-- What a source of the engine has: nothing ready; a state that has changed without a packet taken in; a packet taken in. -/
inductive Intake
  | none
  | aside (s : State)
  | took (s : State)

/-- The local intake of a context bank: submissions of instructions, then the commands of CPY cells and of ce.cmd in order of arrival (R180, R328). -/
def State.localIntake (s : State) (c : CtxId) : Intake :=
  let core := coreOf c
  let x := s.ctx c
  let k := s.core core
  if (s.leases.get? x.lease).any (fun l => l.moving.any (fun m => m.step ≥ 3)) then .none
  else match k.subs.find? (fun e => e.ctx == c) with
  | some e => .took ((s.updCore core (fun o => { o with subs := o.subs.erase e })).addPkt core c (.local none) e.lsn e.seq 0 e.body)
  | none =>
  match k.cmd? c with
  | some ⟨_, some n, t⟩ =>
    (match x.fab.cell? n with
     | some cell =>
       if cell.busy.isNone then .aside (s.dropCmd core ⟨c, some n, t⟩)
       else if x.cntCp ≥ 31 || x.fab.held then .none
       else match pkCause false false (some (x.lw.toNat, x.lh.toNat)) (packetOf cell.buf) with
         | none => .took (s.cpyAccept c ⟨c, some n, t⟩ n cell)
         | some z =>
           let tr := packetTrap (BitVec.ofNat 64 (unitCell n)) z
           if x.fab.stopped then .aside (((s.dropCmd core ⟨c, some n, t⟩).putCell c n { cell with busy := none, buf := [] }).raise c tr)
           else .aside ((s.putCell c n { cell with busy := some 1 }).fabFault c tr)
     | none => .aside (s.dropCmd core ⟨c, some n, t⟩))
  | cmd =>
  match if x.cur.st == .running && !x.fab.stopped && !x.fab.held then x.fab.port? 53 else none with
  | none => .none
  | some p =>
    let put (s : State) (n : Nat) : State := s.updFab c (fun f => f.setPort 53 { p with part := p.part.pop n })
    let els := p.part.els
    match cmd with
    | some e =>
      if els.length < 16 then .aside (s.dropCmd core e)
      else if x.cntCp ≥ 31 then .none
      else match pkCause false false (some (x.lw.toNat, x.lh.toNat)) (packetOf (els.take 16)) with
        | some z => .aside (s.fabFault c (packetTrap (BitVec.ofNat 64 (unitPort 53)) z))
        | none => .took (((put (s.dropCmd core e) 16).updCtx c Ctx.submit).addPkt core c (.local (some none)) x.lsn.toNat x.cpN 0 (packetOf (els.take 16)))
    | none =>
      if p.part.items.length > els.length then
        (if els.isEmpty then .aside (put s 1) else .aside (s.fabFault c (alignTrap (unitPort 53) 7)))
      else .none

/-- One source of a copy engine asked: 0 to 3 the local intakes, 4 to 7 the queues. -/
def State.ceSource (s : State) (core : CoreId) (k : Nat) : Intake :=
  if k < 4 then s.localIntake (4 * core + k)
  else
    let q := 64 + 4 * core + (k - 4)
    let x := s.ctx (s.qCtx q)
    if x.st == .empty || x.ten.toNat != s.qTen q || (s.leases.get? x.lease).any (fun l => l.moving.any (fun m => m.step ≥ 3)) then .none
    else match s.qPeek q with
      | .idle => .none
      | .hold s => .aside s
      | .bad s => .aside s
      | .ready idx b line seen => if s.inTurn q seen then .took (s.ceTake q idx b line) else .none

/-- The sources asked in rotation, from the one after the source served last. A source with no packet ready is skipped and leaves only its own trace:
a parked translation, an error, a marker passed. The first packet taken in ends the round (R328). -/
def State.cePick (s : State) (core : CoreId) : State × Option Nat :=
  let last := (s.core core).ceLast
  [1, 2, 3, 4, 5, 6, 7, 8].foldl (fun r i =>
    match r.2 with
    | some _ => r
    | none =>
      let k := (last + i) % 8
      match r.1.ceSource core k with
      | .none => r
      | .aside t => (t, none)
      | .took t => (t.updCore core (fun o => { o with ceLast := k }), some k)) (s, none)

/-- CE_PACKET_INTAKE: the engine takes in one packet from its eight sources in rotation (R328, R329). -/
def execCePacketIntake (core : CoreId) (s : State) : Out :=
  if (s.core core).pkts.length ≥ 8 then .next s
  else .next (s.cePick core).1

/-- QUEUE_SLOT_TAKE: a copy engine takes the ready slot of its queue when the rotation comes to it; the distributor looks at the head of a launch
queue (R344, R367, R440). -/
def execQueueSlotTake (q : Nat) (s : State) : Out :=
  if q < 64 then
    if (s.qState q).head.isSome || bits (s.mgv (0x8260 + s.qTen q)) 1 0 == 1 then .next s
    else match s.qPeek q with
      | .idle => .next s
      | .hold s => .next s
      | .bad s => .next s
      | .ready idx b _ seen => .next (s.updQ q (fun k => { k with head := some ⟨idx, b, seen, false, false, none, 0⟩ }))
  else
    let core := (q - 64) / 4
    if (s.core core).pkts.length ≥ 8 then .next s
    else match s.cePick core with
      | (t, some k) => if k == 4 + q % 4 then .next t else .next s
      | (t, none) => .next t

/-- QUEUE_ERROR: the error of a queue is written to its control line, or the queue is held stopped; event 2 (R345, R364, R409). -/
def execQueueError (q : Nat) (s : State) : Out :=
  match if (s.qState q).held || !s.asidOk (s.qAsid q) (s.qTen q) then none else (s.qState q).pend with
  | none => .next s
  | some e =>
    let core := if q < 64 then 0 else (q - 64) / 4
    let ev (s : State) : State := s.event 2 (s.qTen q) 0 e.fault.cls e.fault.detail core 0 (BitVec.ofNat 64 (2 ^ 63 + s.qLine q))
    let stop (s : State) : State := ev (s.updQ q (fun k => { k with pend := none, held := true }))
    if !e.line then .next (stop s)
    else match s.qAt q (s.qLine q) 64 ⟨false, true⟩ with
      | .hold s => .next s
      | .fault s _ => .next (stop s)
      | .ok line =>
        let s := s.devWrite (line + 0x20) (toBytes 8 e.idx)
        let s := if e.hasAddr then s.devWrite (line + 0x28) (toBytes 8 e.fault.addr.toNat) else s.lose (line + 0x28) 8
        let s := s.devWrite (line + 0x18) (toBytes 8 (1 + e.fault.cls % 256 * 2 ^ 8 + e.fault.cause % 16 * 2 ^ 16))
        .next (ev (s.updQ q (fun k => { k with pend := none, err := true })))

/-- QUEUE_RESTART: a write of STATE = 0 restarts a queue in ERROR at RDIDX (R345). -/
def execQueueRestart (q : Nat) (s : State) : Out :=
  if !(s.qState q).err || (s.qState q).held || !s.asidOk (s.qAsid q) (s.qTen q) then .next s
  else match s.qAt q (s.qLine q) 64 ⟨true, true⟩ with
    | .ok line => if bits (s.dev64 (line + 24)) 7 0 == 0 then .next (s.updQ q (fun k => { k with err := false })) else .next s
    | .hold s => .next s
    | .fault s _ => .next s

/-! ### Reports and pushes (R354, R355, R358) -/

/-- TASK_COMPLETION_REPORT: the block is DONE, and every successor that is ARMED loses a predecessor; LOST marks one that is not (R352, R354). -/
def execTaskCompletionReport (i : Nat) (s : State) : Out :=
  match s.reports[i]? with
  | some ⟨asid, va, none⟩ =>
    let s := { s with reports := s.reports.eraseIdx i }
    (match s.blk? asid va with
     | none => .next s
     | some b =>
       if b.st != 3 then .next s
       else
         let (s, lost) := (tcbNext va b.snap).foldl (fun (r : State × Bool) v =>
           match r.1.blk? asid v with
           | some n =>
             if n.st != 1 then (r.1, true)
             else (r.1.updBlk asid v (fun n => { n with rem := n.rem - 1, st := if n.rem ≤ 1 then 2 else 1 }), r.2)
           | none => (r.1, true)) (s, false)
         .next (s.freeBlk { b with st := 4, lost := lost }))
  | _ => .next s

/-- TASK_FAULT_REPORT: the block is FAULTED, with its class, cause and address (R352, R358). -/
def execTaskFaultReport (i : Nat) (s : State) : Out :=
  match s.reports[i]? with
  | some ⟨asid, va, some f⟩ =>
    let s := { s with reports := s.reports.eraseIdx i }
    (match s.blk? asid va with
     | none => .next s
     | some b => if b.st != 3 then .next s else .next (s.updBlk asid va (fun b => { b with st := 5, fault := some f })))
  | _ => .next s

/-- The index that a push has claimed, or claims now (R343 step 1, R355). -/
def State.taskClaim (s : State) (b : TaskBlk) (line : Nat) : Nat × State :=
  match b.claim with
  | some i => (i, s)
  | none =>
    let i := (s.dev64 line).toNat
    let t := (s.hubUse b.asid (tcbRQ b.snap) line 64 true).devWrite line (toBytes 8 (i + 1))
    (i, { t with walker := updFirst (fun e => e.asid == b.asid && e.va == b.va) (fun e => { e with claim := some i }) t.walker })

/-- TASK_PUSH: the walker pushes a READY block into its ready queue, the earliest armed of that queue first: it claims an index, waits for room, and
writes the slot (R343, R355). -/
def execTaskPush (i : Nat) (s : State) : Out :=
  match s.walker[i]? with
  | none => .next s
  | some b =>
    let rq := tcbRQ b.snap
    let before (e : TaskBlk) : Bool :=
      e.st == 2 && e.slot.isNone && e.asid == b.asid && tcbRQ e.snap == rq && (e.arm < b.arm || (e.arm == b.arm && e.va < b.va))
    let bad (s : State) (t : Trap) (va : Nat) : State := s.updBlk b.asid b.va (fun e => { e with st := 5, fault := some (pktFault t ⟨true, va⟩) })
    if b.st != 2 || b.slot.isSome || s.walker.any before then .next s
    else match s.hubAt 202 b.asid b.ten rq 64 ⟨true, true⟩ with
      | .hold s => .next s
      | .fault s t => .next (bad s t rq)
      | .ok line =>
        let (idx, s) := s.taskClaim b line
        let qb := s.dev64 (line + 16)
        let size := 2 ^ (bits qb 3 0 + 4)
        if idx ≥ (s.dev64 (line + 8)).toNat + size then .next s
        else
          let va := bits qb 55 6 * 64 + 64 * (idx % size)
          match s.hubAt 203 b.asid b.ten va 64 ⟨false, true⟩ with
          | .hold s => .next s
          | .fault s t => .next (bad s t va)
          | .ok pa =>
            let p := tcbPayload b.snap
            let hdr := (pk64 p 0).toNat + 2 ^ 11 + idx % 65536 * 2 ^ 48
            let s := (s.hubUse b.asid va pa 64 true).devWrite pa (toBytes 8 hdr ++ p.drop 8)
            .next { s with walker := updFirst (fun e => e.asid == b.asid && e.va == b.va) (fun e => { e with slot := some idx }) s.walker }

/-- CE_TASKARM: a TASKARM packet arms its block; a refusal faults it with class 0x19 (R356, R362). -/
def execCeTaskarm (core : CoreId) (i : Nat) (s : State) : Out :=
  match s.started core i 9 with
  | none => .next s
  | some p =>
    let o := s.owner p.ctx
    let w := pk64 p.body 0x10
    match s.armBlock o.asid o.ten (bits w 55 0) with
    | .hold s => .next s
    | .ok s => .next (s.putPkt core i { p with stage := 2 })
    | .state k => .next (s.putPkt core i { p with stage := 2, fault := some ⟨0x19, k, k, w⟩ })
    | .fault s t => .next (s.putPkt core i { p with stage := 2, fault := some (pktFault t (ceAddr w)) })

/-! ### Instructions (R347 to R349, R356, R357, R359) -/

/-- An operand that must be a device-form word: alignment, form, then the checks of R296 (R327). -/
def State.devWord (s : State) (c : CtxId) (v : W64) (size : Nat) (need : Need) (remote : Bool) : SeqX :=
  if v.toNat % size == 0 && !v.getLsbD 63 then .fault s (xlatTrap v.toNat 6 0 need.wr) else s.devOperand c v size 62 need remote

/-- A local submission by an instruction enters the intake; g[d] takes its LSN (R331, R348). -/
def State.submitLocal (s : State) (d : BitVec 5) (b : List Byte) : State :=
  let c := s.ctx s.cur
  (s.updCore (coreOf s.cur) (fun k => { k with subs := k.subs ++ [⟨s.cur, c.lsn.toNat, c.cpN, b⟩] })).setCtx s.cur
    (c.submit.setReg d (c.lsn.zeroExtend 64)).advance

/-- CQ.SUB (R348, R443). -/
def execCqSub (g : Guard) (d a b : BitVec 5) (s : State) : Out :=
  s.issue g (fun c => c.pends d || c.cntLd != 0 || c.cntSt != 0 || (c.reg a = 0 && c.cntCp ≥ 31) || c.zeroing (c.reg b).toNat 64) (fun c =>
    let v := c.reg b
    if c.reg a != 0 && c.det && d != 0 then s.raise s.cur (detOrder (.cqSub g d a b))
    else match s.spadFault s.cur v 64 64 unitSeq with
      | some t => s.raise s.cur t
      | none =>
      match s.spadEcc s.cur v.toNat 64 false with
      | some t => s.raise s.cur t
      | none =>
        let p := s.spadBytes s.cur v.toNat 64
        if c.reg a = 0 then
          match pkCause false false (some (c.lw.toNat, c.lh.toNat)) p with
          | some k => s.raise s.cur (packetTrap v k)
          | none => s.submitLocal d p
        else match s.devWord s.cur (c.reg a) 64 ⟨true, true⟩ true with
          | .hold s => s
          | .fault s t => s.raise s.cur t
          | .ok _ => s.waitFor s.cur (.cqSub d none))

/-- The MCAST that CQ.KICK submits (R349). -/
def kickPacket (a b : W64) : List Byte :=
  toBytes 8 7 ++ toBytes 8 0 ++ toBytes 8 b.toNat ++ toBytes 4 (bits a 31 0) ++ toBytes 4 (bits a 63 56) ++ toBytes 1 (bits a 55 51)
    ++ toBytes 1 (bits a 50 47) ++ [1, 1] ++ List.replicate 28 0

/-- CQ.KICK (R349). -/
def execCqKick (g : Guard) (a b : BitVec 5) (s : State) : Out :=
  s.issue g (fun c => c.cntLd != 0 || c.cntSt != 0 || c.cntCp ≥ 31) (fun c =>
    let p := kickPacket (c.reg a) (c.reg b)
    match if bits (c.reg a) 46 32 != 0 then some 2 else pkCause false false (some (c.lw.toNat, c.lh.toNat)) p with
    | some k => s.raise s.cur (packetTrap (c.reg a) k)
    | none => s.submitLocal 0 p)

/-- TASK_STATE (R362). -/
def taskTrap (v : W64) (cause : Nat) : Trap := ⟨0x19, v, BitVec.ofNat 16 cause⟩

/-- TASK.ARM (R356): the context waits for the snapshot. -/
def execTaskArm (g : Guard) (d : BitVec 5) (s : State) : Out :=
  s.issue g (fun c => c.cntLd != 0 || c.cntSt != 0) (fun c =>
    match s.devWord s.cur (c.reg d) 128 ⟨true, true⟩ false with
    | .hold s => s
    | .fault s t => s.raise s.cur t
    | .ok _ => s.waitFor s.cur (.task d false))

/-- The kill walk (R359). fuel bounds the blocks visited. A block that has claimed an index and not yet written its slot leaves the slot unwritten: DESIGN
CHOICE (log 129). -/
def State.killWalk (asid : Nat) : Nat → List Nat → State → State
  | 0, _, s => s
  | _, [], s => s
  | fuel + 1, v :: rest, s =>
    match s.blk? asid v with
    | some b =>
      if b.st == 1 || b.st == 2 || b.st == 5 then
        let s := match b.st == 2, b.slot with
          | true, some i => { s with killedSlots := (asid, tcbRQ b.snap, i) :: s.killedSlots }
          | _, _ => s
        State.killWalk asid fuel (rest ++ tcbNext v b.snap) (s.freeBlk { b with st := 6 })
      else State.killWalk asid fuel rest s
    | none => State.killWalk asid fuel rest s

/-- TASK.KILL (R353, R359): the walk acts on the walker's entries as they stand at issue, and the context waits for its end. -/
def execTaskKill (g : Guard) (d : BitVec 5) (s : State) : Out :=
  s.issue g (fun _ => false) (fun c =>
    match s.devWord s.cur (c.reg d) 128 ⟨true, true⟩ false with
    | .hold s => s
    | .fault s t => s.raise s.cur t
    | .ok _ =>
      match s.blk? c.asid.toNat (bits (c.reg d) 55 0) with
      | some b =>
        if b.st == 1 || b.st == 2 || b.st == 5 then
          (State.killWalk c.asid.toNat (9 * s.walker.length + 9) [bits (c.reg d) 55 0] s).waitFor s.cur (.task d true)
        else s.raise s.cur (taskTrap (c.reg d) 4)
      | none => s.raise s.cur (taskTrap (c.reg d) 4))

/-- TASK.STAT (R357, R443): the entry's state at issue, or the STAT word read at the home slice. -/
def execTaskStat (g : Guard) (d : BitVec 5) (s : State) : Out :=
  s.issue g (fun c => c.pends d || c.cntLd ≥ 31) (fun c =>
    if c.det then s.raise s.cur (detOrder (.taskStat g d))
    else match s.devWord s.cur (c.reg d) 128 ⟨true, true⟩ false with
      | .hold s => s
      | .fault s t => s.raise s.cur t
      | .ok pa =>
        let va := bits (c.reg d) 55 0
        match s.blk? c.asid.toNat va with
        | none => s.devSend s.cur false d (va + 8) (pa + 8) .cntRead 0
        | some b =>
          let r : DReq := { id := s.dreqN, ipc := c.ipc, who := .ctx s.cur, ten := c.ten.toNat, asid := c.asid.toNat, va := va + 8, pa := pa + 8,
                            kind := .cntRead, stage := .done, res := b.word, data := [], fault := none, checked := false }
          ({ s with dreqs := s.dreqs ++ [r], dreqN := s.dreqN + 1 }).setCtx s.cur (c.pushOp false d (.dev r.id)).advance)

/-- A waiting TASK.ARM takes its snapshot; a waiting TASK.KILL retires, its walk ended (R356, R359). -/
def State.taskWait (s : State) (c : CtxId) (d : BitVec 5) (kill : Bool) : State :=
  let x := s.ctx c
  if kill then s.retire c id
  else match s.armBlock x.asid.toNat x.ten.toNat (bits (x.reg d) 55 0) with
    | .ok s => s.retire c id
    | .hold s => s
    | .state k => s.raise c (taskTrap (x.reg d) k)
    | .fault s t => s.raise c t

/-- A waiting CQ.SUB goes on: the claim at the control line's home, then, with room, the slot's write, with which g[d] takes the index: a write refused at
its home traps at the CQ.SUB, which has then written no register (R21, R30, R343, R348). -/
def State.cqWait (s : State) (c : CtxId) (i : Instr) (d : BitVec 5) (claim : Option Nat) : State :=
  let x := s.ctx c
  match i with
  | .cqSub _ _ a b =>
    let die := dieOf (coreOf c)
    let asid := x.asid.toNat
    let at_ (va n : Nat) (need : Need) : SeqX := s.engAt (.ctx c) die (some die) asid x.ten.toNat va n need
    (match at_ (bits (x.reg a) 55 0) 64 ⟨true, true⟩ with
     | .hold s => s
     | .fault s t => s.raise c t
     | .ok line =>
       let far := !s.isLocal line
       let word (o : Nat) : W64 := if far then w64 ((List.range 8).map (fun k => Config.unspecByte s.free (line + o + k))) else s.dev64 (line + o)
       match claim with
       | none =>
         let idx := word 0
         let s := if far then { s with free := s.free + 1 }
           else (s.reach (coreOf c) die (some die) asid (bits (x.reg a) 55 0) line 8 true).devWrite line (toBytes 8 (idx + 1).toNat)
         s.updCtx c (fun x => { x with wait := some (.cqSub d (some idx.toNat)) })
       | some idx =>
         let qb := word 16
         let size := 2 ^ (bits qb 3 0 + 4)
         if idx ≥ (word 8).toNat + size then s
         else
           let va := bits qb 55 6 * 64 + 64 * (idx % size)
           match at_ va 64 ⟨false, true⟩ with
           | .hold s => s
           | .fault s t => s.raise c t
           | .ok pa =>
             let p := s.spadBytes c (x.reg b).toNat 64
             let hdr := (pk64 p 0).toNat % 2 ^ 48 + idx % 65536 * 2 ^ 48
             let id := s.dreqN
             let s := (s.updCtx c (fun x => { x with st := .ready, wait := none })).devSend c true d va pa (.write (toBytes 8 hdr ++ p.drop 8)) 1
             s.updReq id (fun r => { r with res := BitVec.ofNat 64 idx }))
  | _ => s

end Sys2Proof.Machine
end

