-- ==== Sys2Proof/Machine/Tenancy.lean ====
section
/-! DEFINITION. Gating, destruction, placement, launches, turns, relocation, eviction and partition reset (R363 to R379, R391 to R396, R411, R412). -/

namespace Sys2Proof.Machine

/-! ### Gates (R391 to R393) -/

/-- A gate request of a source (0 system, 1 turn, 2 relocation, 3 reset) on a context (R391). -/
def State.gate (s : State) (c : CtxId) (src : Nat) : State :=
  let x := s.ctx c
  let bit : BitVec 4 := 1#4 <<< src
  if x.st == .empty then s
  else if x.st == .stopped || x.gated then s.setCtx c { x with gsrc := x.gsrc ||| bit }
  else s.setCtx c { x with gateReq := x.gateReq ||| bit, gateAt := if x.gateReq == 0 then s.time else x.gateAt }

/-- A source ungates a context: it leaves GATED when no other source holds it (R391). A gate that a commanded destruction has asked for takes effect
all the same (R394): DESIGN CHOICE (log 115). -/
def State.ungate (s : State) (c : CtxId) (src : Nat) : State :=
  let x := s.ctx c
  let keep : BitVec 4 := ~~~(1#4 <<< src)
  let s := s.setCtx c { x with gsrc := x.gsrc &&& keep, gateReq := if x.doom then x.gateReq else x.gateReq &&& keep, gated := x.gated && x.gsrc &&& keep != 0 }
  (s.refreeze x.lease).trapEntry c

/-- State of a tenant's interface: 0 CONFIG_UNLOCKED, 1 CONFIG_LOCKED, 2 RUN, 3 ERROR (R440). -/
def State.tds (s : State) (t : Nat) : Nat := bits (s.mgv (0x8260 + t)) 1 0

/-! ### The occupancy map (R371, R372) -/

/-- Does a context bank hold a context, or is it kept for a lease? -/
def State.inUse (s : State) (c : CtxId) : Bool := (s.ctx c).st != .empty || (s.ctx c).lease != 0
/-- The contexts of a core, apart from some. -/
def State.held (s : State) (core : CoreId) (own : List CtxId) : List CtxId :=
  ((List.range 4).map (4 * core + ·)).filter (fun c => s.inUse c && !own.contains c)
/-- Is a core withdrawn (R407)? -/
def State.withdrawn (s : State) (core : CoreId) : Bool := (s.mgv (0x7600 + coreY core)).getLsbD (coreX core)
/-- Banks of a core that no context holds, in ascending order (R365). -/
def State.freeBanks (s : State) (core : CoreId) (own : List CtxId) : List Nat :=
  let used := ((s.held core own).map (fun c => (s.ctx c).banks.map (·.bank))).flatten
  (List.range 32).filter (fun b => !used.contains b)
/-- Is a core eligible for nb banks, the contexts own counted as gone (R371)? -/
def State.eligible (s : State) (core : CoreId) (nb : Nat) (own : List CtxId) : Bool :=
  !s.withdrawn core && (s.held core own).length < 4 && nb ≤ (s.freeBanks core own).length

/-- The grant of a context fits a core's matrix node (R376, R378). -/
def State.grantFits (s : State) (c : CtxId) (core : CoreId) (own : List CtxId) : Bool :=
  let v := (s.ctx c).shape
  let used := (s.held core own).foldl (fun m d => m ||| shapeGroups (s.ctx d).shape) 0
  !v.getLsbD 31 || (freeRun used (bits v 17 16 + 1)).isSome

/-- The chain ids of a context fit a core's sink table (R376, R378). -/
def State.chainsFit (s : State) (c : CtxId) (core : CoreId) (own : List CtxId) : Bool :=
  let mine := (s.core (coreOf c)).sinks.filter (fun e => e.2.ctx == c)
  let there := (s.core core).sinks.filter (fun e => !own.contains e.2.ctx)
  mine.isEmpty || (mine.all (fun e => there.all (fun f => f.1 != e.1)) && mine.length + there.length ≤ 4)

/-- Cores of a rectangle in row-major order. -/
def rectCores (x y w h : Nat) : List CoreId := ((List.range h).map (fun j => (List.range w).map (fun i => coreAt (x + i) (y + j)))).flatten

/-- The first origin, rows from the top and columns from the left, at which every core of the shape is good for its position (R372). -/
def firstOrigin (w h : Nat) (ok : Nat → CoreId → Bool) : Option (Nat × Nat) :=
  (((List.range (17 - h)).map (fun y => (List.range (21 - w)).map (fun x => (x, y)))).flatten).find? (fun p =>
    (rectCores p.1 p.2 w h).zipIdx.all (fun e => ok e.2 e.1))

/-- Is a head marked refused now? A mark made before the last change of the map is cleared in the cycle after that change (R369). -/
def State.refusedMark (s : State) (h : LHead) : Bool :=
  match h.refused with
  | some r => !(r < s.mapAt && s.mapAt ≤ s.time)
  | none => false

/-- Ostler's map has changed: the refused marks are cleared in the next cycle (R369). -/
def State.mapChanged (s : State) : State :=
  { s with
    queues := s.queues.map (fun e => (e.1, { e.2 with head := e.2.head.map (fun h => if s.refusedMark h then h else { h with refused := none }) }))
    mapAt := s.time + 1 }

/-- Banks of a core zeroed, check bits included (R25). -/
def State.zeroBanks (s : State) (core : CoreId) (banks : List Nat) : State :=
  s.updCore core (fun k => banks.foldl (fun k b =>
    { k with sram := k.sram.zero (b * 2 ^ 17) (2 ^ 17), poison := k.poison.filter (fun w => w / 2 ^ 17 != b) }) k)

/-- A context bank kept for a lease: the lowest free one of the core, with the nb lowest free banks, zeroed (R365). -/
def State.reserve (s : State) (core : CoreId) (nb lid : Nat) (x : Ctx) : State × CtxId :=
  let c := (((List.range 4).map (4 * core + ·)).find? (fun c => !s.inUse c)).getD (4 * core)
  let banks := (s.freeBanks core []).take nb
  let bud := banks.map (fun b => ({ bank := b, mode := .spad, zeroing := false, q := { rb := 0, rs := 0, h := 0, t := 0, part := [], held := [], ring := [], lost := 0 } } : BudBank))
  ((s.zeroBanks core banks).setCtx c { x with lease := lid, banks := bud }, c)

/-- The next lease id: rising from 1, ids of live leases skipped (R373). -/
def State.nextLid (s : State) : Nat :=
  (((List.range (s.leases.length + 1)).map (fun i => (s.lastLid + i) % (2 ^ 31 - 1) + 1)).find? (fun l => (s.leases.get? l).isNone)).getD 1

/-! ### Turns (R375) -/

/-- Do two leases share a core? -/
def Lease.shares (a b : Lease) : Bool := a.ctxs.any (fun c => b.ctxs.any (fun d => coreOf c == coreOf d))

/-- Leases with a quantum that take part in turns. -/
def State.quantLeases (s : State) : Map Lease := s.leases.filter (fun e => e.2.quant != 0 && e.2.saved.isEmpty && !e.2.ctxs.isEmpty)

/-- The leases that share a core with one of a set, the set itself included, until it grows no more. -/
def growGroup (all : Map Lease) : Nat → Map Lease → Map Lease
  | 0, g => g
  | n + 1, g => growGroup all n (all.filter (fun e => g.any (fun f => f.1 == e.1 || f.2.shares e.2)))

/-- The leases with which a lease is time-shared, itself among them. -/
def State.group (s : State) (lid : Nat) : Map Lease :=
  let all := s.quantLeases
  growGroup all all.length (all.filter (fun e => e.1 == lid))

/-- A lease gets the turn, or loses it. -/
def State.setTurn (s : State) (lid : Nat) (on : Bool) : State :=
  match s.leases.get? lid with
  | none => s
  | some l =>
    let s := { s with leases := s.leases.set lid { l with turn := on, turnStart := s.time + 1 } }
    l.ctxs.foldl (fun s c => if on then (s.updCtx c (fun x => { x with yielded := false })).ungate c 1 else s.gate c 1) s

/-- The lease that gets the turn after a lease: the next higher id of its group, else the lowest (R375). -/
def State.nextTurn (s : State) (lid : Nat) : Option Nat :=
  let g := (s.group lid).filter (fun e => e.1 != lid)
  ((g.find? (fun e => e.1 > lid)).orElse (fun _ => g.head?)).map (·.1)

/-- One lease of each group of time-shared leases holds the turn: the lowest id of several; of none, the one that is next, else the lowest id. -/
def State.giveTurns (s : State) (next : Option Nat) : State :=
  s.quantLeases.foldl (fun s e =>
    let g := s.group e.1
    match g.filter (fun f => f.2.turn) with
    | [] => (match (g.find? (fun f => next == some f.1)).orElse (fun _ => g.head?) with | some f => s.setTurn f.1 true | none => s)
    | f :: rest => rest.foldl (fun s k => if k.1 == f.1 then s else s.setTurn k.1 false) s) s

/-- The lease that takes over the turn when a lease leaves its cores. -/
def State.heir (s : State) (lid : Nat) (l : Lease) : Option Nat := if l.turn then s.nextTurn lid else none

/-! ### Destruction and release (R394, R251, R338) -/

/-- A requester that is no context any more. -/
def Who.orphan (c : CtxId) (ten : Nat) : Who → Who
  | .ctx d => if d == c then .engine (coreOf c) (2 ^ 50) ten else .ctx d
  | .tile d n => if d == c then .engine (coreOf c) (2 ^ 50) ten else .tile d n
  | .spill d n => if d == c then .engine (coreOf c) (2 ^ 50) ten else .spill d n
  | w => w

/-- Does a requester stand for a context? -/
def Who.of (c : CtxId) : Who → Bool
  | .ctx d => d == c
  | .tile d _ => d == c
  | .spill d _ => d == c
  | _ => false

/-- A context's notices and acknowledgements at an end: notices that it holds are refused, and its own senders are gone (R338, R394). -/
def State.dropKicks (s : State) (c : CtxId) : State :=
  let x := s.ctx c
  let pulls := (s.core (coreOf c)).pkts.filterMap (fun p => if p.ctx == c then p.notice else none)
  let s := (x.kicks ++ pulls).foldl (fun s k => s.refuseKick k (absentFault k.src)) s
  let goneK (k : Kick) : Kick := if k.fr == c then { k with gone := true } else k
  { s with
    ctxs := s.ctxs.map (fun e => (e.1, { e.2 with kicks := e.2.kicks.map goneK }))
    kickMsgs := s.kickMsgs.map (fun m => { m with kick := goneK m.kick }) }

/-- Steps 2 to 8 of R394: what a context has at work in other units ends. Device accesses that it has issued complete. -/
def State.endWork (s : State) (c : CtxId) : State :=
  let x := s.ctx c
  let s := (s.withdraw c).dropKicks c
  let s := s.tearChains c
  let s := s.updCore (coreOf c) (fun k => { k with
    chains := k.chains.filter (·.ctx != c)
    ceCmds := k.ceCmds.filter (·.ctx != c)
    shapeQ := k.shapeQ.filter (· != c)
    subs := k.subs.filter (·.ctx != c)
    pkts := k.pkts.filter (·.ctx != c) })
  { s with
    dreqs := (s.dreqs.filter (fun r => !(r.who == .ctx c && r.kind == .barArr && (r.stage == .out || r.stage == .home)))).map
      (fun r => { r with who := r.who.orphan c x.ten.toNat })
    dies := s.dies.map (fun e => (e.1, { e.2 with
      walks := e.2.walks.filter (fun w => !w.who.of c)
      walkFaults := e.2.walkFaults.filter (fun w => !w.1.who.of c)
      replay := e.2.replay.filter (fun w => !w.who.of c)
      retry := e.2.retry.filter (fun w => !w.who.of c) }))
    spawns := s.spawns.filter (·.ctx != c) }

/-- A context bank becomes EMPTY: its banks are zeroed, and it stays kept for its lease until the lease ends (R25, R373, R394 step 9). -/
def State.blankCtx (s : State) (c : CtxId) : State :=
  let x := s.ctx c
  let s := s.zeroBanks (coreOf c) (x.banks.map (·.bank))
  let live := (s.leases.get? x.lease).isSome
  let bud := x.banks.map (fun b => { b with mode := .spad, zeroing := false, q := { rb := 0, rs := 0, h := 0, t := 0, part := [], held := [], ring := [], lost := 0 } })
  s.setCtx c (if live then { Ctx.blank with lease := x.lease, banks := bud, ten := x.ten, asid := x.asid, lx := x.lx, ly := x.ly, lw := x.lw, lh := x.lh }
              else Ctx.blank)

/-- A reserved destination given up. -/
def State.unreserve (s : State) (b : CtxId) : State :=
  ((s.updCore (coreOf b) (fun k => { k with sinks := k.sinks.filter (fun e => e.2.ctx != b) })).zeroBanks (coreOf b)
    ((s.ctx b).banks.map (·.bank))).setCtx b Ctx.blank

/-- The destinations of a move's pairs that have not ended, given up. -/
def State.unreserveAll (s : State) (m : Moving) : State :=
  m.pairs.foldl (fun s p => match p.dest with
    | some b => if p.done then s else s.unreserve b
    | none => s) s

/-- A lease that is no longer live: its resources return to the map in one cycle (R373). -/
def State.freeLease (s : State) (lid : Nat) : State :=
  match s.leases.get? lid with
  | none => s
  | some l =>
    let next := s.heir lid l
    let s := match l.moving with | some m => s.unreserveAll m | none => s
    let s := (l.ctxs.filter (fun c => coreOf c < numCores)).foldl (fun s c => (s.zeroBanks (coreOf c) ((s.ctx c).banks.map (·.bank))).setCtx c Ctx.blank) s
    let gone := s.kickMsgs.filter (fun m => l.ctxs.contains m.dest)
    let s := gone.foldl (fun s m => s.dropKick m 0) s
    let ost := s.mgv 0x09C3
    let s := if bits ost 61 60 == 1 && bits ost 30 0 == lid then s.setMg 0x09C3 (BitVec.ofNat 64 lid) else s
    ({ s with
      leases := s.leases.erase lid
      restores := s.restores.filter (fun r => r.1 != lid)
      kickMsgs := s.kickMsgs.filter (fun m => !l.ctxs.contains m.dest)
      acnMsgs := s.acnMsgs.filter (fun m => m.lid != lid) }.mapChanged).giveTurns next

/-- A lease is live until every one of its contexts has been released (R373); its completion, if it is still to be made, is kept (R340 step 4). -/
def State.leaseOver (s : State) (lid : Nat) : State :=
  match s.leases.get? lid with
  | none => s
  | some l =>
    if (l.started || l.killed) && l.saved.isEmpty && l.ctxs.all (fun c => (s.ctx c).st == .empty) then
      (if l.ended || l.killed || l.body.isEmpty then s else { s with finals := s.finals.set lid l }).freeLease lid
    else s

/-- Is a lease one that the distributor or Ostler placed? -/
def State.placed (s : State) (lid : Nat) : Bool := lid != 0 && (s.leases.get? lid).isSome

/-- A gated or STOPPED context destroyed (R394). -/
def State.destroyCtx (s : State) (c : CtxId) : State :=
  let x := s.ctx c
  if x.st == .empty then s
  else
    let s := (s.breakLease c).endWork c
    let s := s.updLease x.lease (fun l => { l with killed := true })
    ((s.blankCtx c).refreeze x.lease).leaseOver x.lease

/-- A STOPPED context released to EMPTY (R18, R251, R412). -/
def State.releaseCtx (s : State) (c : CtxId) : State :=
  let x := s.ctx c
  if x.st != .stopped then s else (((s.endWork c).blankCtx c).refreeze x.lease).leaseOver x.lease

/-- Is every access that a STOPPED context has issued, and every packet it has submitted, at its end (R412)? -/
def State.settled (s : State) (c : CtxId) : Bool :=
  let x := s.ctx c
  x.cntLd == 0 && x.cntSt == 0 && x.cntCp == 0 && x.cntTl == 0 && !s.dreqs.any (fun r => r.who.of c && r.stage != .done)
    && !(s.core (coreOf c)).pkts.any (·.ctx == c) && !(s.core (coreOf c)).subs.any (·.ctx == c)

/-- CONTEXT_GATED: a gate request takes effect at an instruction boundary, and its latency is counted (R391, R393). -/
def execContextGated (c : CtxId) (s : State) : Out :=
  let x := s.ctx c
  if x.gateReq == 0 then .next s
  else if x.st == .empty then .next (s.setCtx c { x with gateReq := 0, doom := false })
  else
    let s' := s.setCtx c { x with gsrc := x.gsrc ||| x.gateReq, gateReq := 0, gateAt := s.time, gated := x.st != .stopped }
    let n := 0x7500 + min 15 ((s.time - x.gateAt) / 14)
    let s' := if x.st == .stopped then s' else s'.setMg n (s'.mgv n + 1)
    let s' := s'.refreeze x.lease
    .next (if x.doom then s'.destroyCtx c else s')

/-- CTXC_GATE (R391, R410). -/
def execCtxcGate (c : CtxId) (s : State) : Out := .next (s.gate c 0)
/-- CTXC_UNGATE (R391, R410). -/
def execCtxcUngate (c : CtxId) (s : State) : Out := .next (s.ungate c 0)

/-- CTXC_DESTROY: the context is gated, then destroyed (R394, R402, R410). -/
def execCtxcDestroy (c : CtxId) (s : State) : Out :=
  let x := s.ctx c
  let s := s.gate c 0
  if x.st == .stopped || x.gated then .next (s.destroyCtx c)
  else if x.st == .empty then .next s
  else .next (s.updCtx c (fun x => { x with doom := true }))

/-- CTXC_RELEASE (R410): a STOPPED context to EMPTY, once its accesses and local packets have ended: the completion of its launch, which waits for
this, carries them all (R412). DEDUCED (log 116). -/
def execCtxcRelease (c : CtxId) (s : State) : Out :=
  .next (if s.settled c then s.releaseCtx c else s.updCtx c (fun x => { x with leaving := x.leaving || x.st == .stopped }))

/-- CONTEXT_RELEASE: a context of a started lease that ended goes to EMPTY, once no remote store of the lease is in flight (R412, R427); and a
context whose commanded release waits for its last accesses. -/
def execContextRelease (c : CtxId) (s : State) : Out :=
  let x := s.ctx c
  if x.leaving then .next (if s.settled c then s.releaseCtx c else s)
  else match s.leases.get? x.lease with
  | none => .next s
  | some l =>
    if x.lease == 0 || !l.started || x.st != .stopped || x.stop.1 != 0 || l.ctxs.any (fun d => (s.ctx d).rso != 0) then .next s
    else .next (s.releaseCtx c)

/-! ### Launch (R340, R367 to R370, R374, R411) -/

/-- May the distributor take the head of a queue (R364, R368, R396, R440, R445)? -/
def State.served (s : State) (q : Nat) : Bool :=
  let k := s.qState q
  (s.qCfg q).getLsbD 63 && !k.held && !k.err && k.pend.isNone && !s.intakeStopped (s.qTen q) && s.asidOk (s.qAsid q) (s.qTen q)
    && bits (s.mgv (0x8260 + s.qTen q)) 1 0 != 1 && (match k.head with | some h => s.inTurn q h.arrival | none => true)

/-- The block of the walker that pushed a slot of a queue and is READY (R352, R355). -/
def State.pushed (s : State) (q idx : Nat) : Option TaskBlk :=
  s.walker.find? (fun e => e.asid == s.qAsid q && tcbRQ e.snap == s.qLine q && e.slot == some idx && e.st == 2)

/-- The head of a launch queue taken: logged, RDIDX advanced, its block RUNNING (R344, R352, R368, R444), or the state in which a
walk is under way. The flag is false where the control line could not be reached. -/
def State.lqTake (s : State) (q : Nat) (h : LHead) : Except State (State × Bool) :=
  match s.qAt q (s.qLine q) 64 ⟨true, true⟩ with
  | .hold s => .error s
  | .fault s t => .ok ((s.qFault q h.idx (s.qLine q) t).updQ q (fun k => { k with head := none }), false)
  | .ok line =>
    let blk := if (pk64 h.body 0).getLsbD 11 then s.pushed q h.idx else none
    let s := ((s.mlog (s.qTen q) 0 q h.idx h.body).qAdvance line h.idx).updQ q (fun k => { k with head := none })
    .ok (match blk with | some e => s.updBlk e.asid e.va (fun e => { e with st := 3 }) | none => s, true)

/-- A fault of a launch: of its task block, or of its queue (R332, R340, R345, R358). -/
def State.launchFault (s : State) (q idx : Nat) (task : Option (Nat × Nat)) (f : PFault) (hasAddr : Bool) : State :=
  match task with
  | some (asid, va) => { s with reports := s.reports ++ [⟨asid, va, some f⟩] }
  | none => s.updQ q (fun k => { k with pend := some ⟨f, idx, hasAddr, true⟩ })

/-- A launch head that faults is taken from its queue and reported. -/
def State.headFault (s : State) (q : Nat) (h : LHead) (f : PFault) (hasAddr : Bool) : State :=
  let task := if (pk64 h.body 0).getLsbD 11 then (s.pushed q h.idx).map (fun e => (e.asid, e.va)) else none
  match s.lqTake q h with
  | .error s => s
  | .ok (s, true) => s.launchFault q h.idx task f hasAddr
  | .ok (s, false) => s

/-- CE_LAUNCH: the distributor checks the LAUNCH packet at the head of launch queue i (R334, R340, R359, R367). -/
def execCeLaunch (core : CoreId) (i : Nat) (s : State) : Out :=
  match if core == hubCore && i < 64 then (s.qState i).head else none with
  | none => .next s
  | some h =>
    if h.checked || !s.served i then .next s
    else
      let tsk := (pk64 h.body 0).getLsbD 11
      let key : Nat × Nat × Nat := (s.qAsid i, s.qLine i, h.idx)
      if tsk && s.killedSlots.contains key then
        .next (match s.lqTake i h with | .ok (s, _) => { s with killedSlots := s.killedSlots.erase key } | .error s => s)
      else match pkCause true (tsk && (s.pushed i h.idx).isSome) none h.body with
        | some k => .next (s.headFault i h ⟨0x18, k, k, 0⟩ false)
        | none => .next (s.updQ i (fun t => { t with head := some { h with checked := true, met := pk64 h.body 0x28 == 0 } }))

/-- LAUNCH_DEPENDENCE_MET: the dependence counter of a head has reached its target, or its read faults (R340 step 1). -/
def execLaunchDependenceMet (q : Nat) (s : State) : Out :=
  match (s.qState q).head with
  | none => .next s
  | some h =>
    if !h.checked || h.met || !s.served q then .next s
    else
      let w := pk64 h.body 0x28
      match s.hubAt (64 + q) (s.qAsid q) (s.qTen q) (bits w 55 0) 8 ⟨true, false⟩ with
      | .hold s => .next s
      | .fault s t => .next (s.headFault q h (pktFault t (ceAddr w)) true)
      | .ok pa => if (s.dev64 pa).toNat < pk h.body 0x30 8 then .next s else .next (s.updQ q (fun t => { t with head := some { h with met := true } }))

/-- Does head a of queue p go before head b of queue q (R368)? -/
def State.goesFirst (s : State) (p : Nat) (a : LHead) (q : Nat) (b : LHead) : Bool :=
  let pr (q : Nat) : Nat := bits (s.qCfg q) 5 3
  pr p > pr q || (pr p == pr q && (a.arrival < b.arrival || (a.arrival == b.arrival && p < q)))

/-- The head that the distributor sends to Ostler (R368, R369). -/
def State.pickHead (s : State) : Option Nat :=
  let heads := s.queues.filterMap (fun e => if e.1 < 64 then e.2.head.map (fun h => (e.1, h)) else none)
  let good := heads.filter (fun e => s.served e.1 && e.2.checked && e.2.met && !s.refusedMark e.2)
  let good := if heads.any (fun e => e.2.noplace ≥ 16) then good.filter (fun e => e.2.noplace ≥ 16) else good
  (good.find? (fun e => good.all (fun f => f.1 == e.1 || s.goesFirst e.1 e.2 f.1 f.2))).map (·.1)

/-- DISTRIBUTOR_SELECT: with Ostler free, one eligible head goes to it (R368, R372, R452). -/
def execDistributorSelect (s : State) : Out :=
  if s.ost.isSome || !s.spawns.isEmpty || !s.restores.isEmpty || s.compact.isSome then .next s else .next { s with ost := s.pickHead }

/-- A compaction starts: it visits the live leases in ascending id (R369, R376). -/
def State.startCompaction (s : State) : State :=
  if s.compact.isSome then s
  else { s with compact := some { todo := (s.leases.map (·.1)).filter (fun l => l < 2 ^ 31), moving := none } }

/-- Who asks for a lease: tenant, ASID, queue with index, task block, requester's lease, g1 and g2, DET, quantum. -/
structure Request where
  ten : Nat
  asid : Nat
  queue : Option Nat
  qidx : Nat
  task : Option (Nat × Nat)
  parent : Option Nat
  args : W64 × W64
  det : Bool
  quant : Nat

/-- A lease placed at an origin, with its contexts kept (R365, R368, R373). -/
def State.placeLease (s : State) (r : Request) (b : List Byte) (x y : Nat) : State × Nat :=
  let lid := s.nextLid
  let w := lwW b
  let h := lwH b
  let at_ (s : State) (core : CoreId) (i : Nat) : State × CtxId :=
    s.reserve core (lwNB b) lid { Ctx.blank with
      lx := BitVec.ofNat 5 (i % w), ly := BitVec.ofNat 4 (i / w), lw := BitVec.ofNat 5 w, lh := BitVec.ofNat 5 h
      ten := BitVec.ofNat 6 r.ten, asid := BitVec.ofNat 11 r.asid, det := r.det }
  let (s, l) := (rectCores x y w h).zipIdx.foldl (fun (a : State × List CtxId) e => let (s, c) := at_ a.1 e.1 e.2; (s, a.2 ++ [c])) (s, [])
  let lease : Lease :=
    { ten := r.ten, asid := r.asid, x := x, y := y, w := w, h := h, nb := lwNB b, ctxs := l, go := none, bar := none, broken := none, quantum := 0,
      start := 0, stopAt := none, queue := r.queue, qidx := r.qidx, body := b, task := r.task, parent := r.parent, args := r.args, det := r.det,
      started := false, ended := false, killed := false, fail := none, quant := r.quant, turn := false, turnStart := 0, moving := none, saved := [],
      frozen := none, slip := 0 }
  (({ s with leases := s.leases.set lid lease, lastLid := lid }.mapChanged).giveTurns none, lid)

/-- OSTLER_PLACEMENT: the launch head that Ostler holds is placed at the first origin that fits, or gets NOPLACE (R368, R369, R372); none
while a compaction runs (R452). -/
def execOstlerPlacement (s : State) : Out :=
  match if s.compact.isSome then none else s.ost with
  | none => .next s
  | some q =>
    match if s.served q then (s.qState q).head else none with
    | none => .next { s with ost := none }
    | some h =>
      let b := h.body
      match firstOrigin (lwW b) (lwH b) (fun _ k => s.eligible k (lwNB b) []) with
      | none =>
        let s := { s with ost := none }.updQ q (fun k => { k with head := some { h with refused := some s.time, noplace := h.noplace + 1 } })
        .next (if (s.mgv 0x09C0).getLsbD 0 then s.startCompaction else s)
      | some (x, y) =>
        let task := if (pk64 b 0).getLsbD 11 then (s.pushed q h.idx).map (fun e => (e.asid, e.va)) else none
        match s.lqTake q h with
        | .error s => .next s
        | .ok (s, false) => .next { s with ost := none }
        | .ok (s, true) =>
          let r : Request := { ten := s.qTen q, asid := s.qAsid q, queue := some q, qidx := h.idx, task := task, parent := none,
                               args := (pk64 b 0x20, 0), det := lwDet b, quant := 64 * bits (s.qX q) 47 32 }
          .next ({ s with ost := none }.placeLease r b x y).1

/-- The key under which an evicted context is referred to: on no core of the package. -/
def evictedId (lid k : Nat) : CtxId := 2 ^ 20 + 512 * lid + k

/-- A context as it is held: on its core, or in the state of an evicted lease (R395). -/
def State.heldCtx (s : State) (c : CtxId) : Ctx :=
  if c < 2 ^ 20 then s.ctx c
  else match s.leases.get? ((c - 2 ^ 20) / 512) with
    | some l => ((l.saved[(c - 2 ^ 20) % 512]?).map (·.ctx)).getD Ctx.blank
    | none => Ctx.blank

/-- The reply to a SPAWN request reaches the requesting cell; that of an evicted lease stands there when it is restored (R179, R374, R377 step 5,
R395). -/
def State.spawnReply (s : State) (r : SpawnReq) (v : Nat) : State :=
  let put (k : Cell) : Cell := { k with busy := some (v + 1) }
  if r.ctx < 2 ^ 20 then
    match (s.ctx r.ctx).fab.cell? r.cell with
    | some k => s.putCell r.ctx r.cell (put k)
    | none => s
  else
    let upd (x : Ctx) : Ctx := match x.fab.cell? r.cell with
      | some k => { x with fab := x.fab.setCell r.cell (put k) }
      | none => x
    s.updLease ((r.ctx - 2 ^ 20) / 512) (fun l => { l with saved := modAt (fun v => { v with ctx := upd v.ctx }) l.saved ((r.ctx - 2 ^ 20) % 512) })

/-- SPAWN_PLACE: Ostler places the oldest SPAWN request from the spawn table of its tenant, in the order of arrival with the restores (R372, R374,
R395, R396, R452, R455). -/
def execSpawnPlace (s : State) : Out :=
  match s.spawns with
  | [] => .next s
  | r :: rest =>
    if s.compact.isSome || s.ost.isSome || s.restores.any (fun e => e.2 < r.seq) then .next s
    else
      let s' := { s with spawns := rest }
      let no : Out := .next (s'.spawnReply r 0xFFFFFFFF)
      let x := s.heldCtx r.ctx
      let tab := s.mgv (0x0980 + r.ten)
      if !tab.getLsbD 63 || (s.resets.get? r.ten).isSome || s.tds r.ten == 3 then no
      else match s'.hubAt 128 x.asid.toNat r.ten (bits tab 55 16 * 2 ^ 16 + 64 * r.index) 64 ⟨true, false⟩ with
        | .hold t => .next { t with spawns := s.spawns }
        | .fault t _ => .next (t.spawnReply r 0xFFFFFFFF)
        | .ok pa =>
          let b := s'.devBytes pa 64
          if (pkCause true false none b).isSome || pk64 b 0x28 != 0 then no
          else match firstOrigin (lwW b) (lwH b) (fun _ k => s'.eligible k (lwNB b) []) with
            | none => no
            | some (ox, oy) =>
              let p := s.leases.get? x.lease
              let q : Request := { ten := r.ten, asid := x.asid.toNat, queue := p.bind (·.queue), qidx := 0, task := none, parent := some x.lease,
                                   args := (r.arg.zeroExtend 64, BitVec.ofNat 64 x.lease), det := x.det || lwDet b, quant := 0 }
              let (s'', lid) := s'.placeLease q b ox oy
              .next (s''.spawnReply r lid)

/-- n 32-bit words of an image read in ascending address, or the first fault with its address (R411). -/
def State.hubWords (s : State) (asid ten : Nat) : Nat → Nat → Except (State × Option PFault) (List Byte)
  | 0, _ => .ok []
  | n + 1, va =>
    match s.hubAt 129 asid ten va 4 ⟨true, false⟩ with
    | .hold s => .error (s, none)
    | .fault s t => .error (s, some (pktFault t ⟨true, va⟩))
    | .ok pa =>
      match State.hubWords s asid ten n (va + 4) with
      | .ok l => .ok (s.devBytes pa 4 ++ l)
      | e => e

/-- A context of a lease started (R33, R340 steps 2 and 3); gated at once where its lease has not the turn, or its tenant is being reset or its
interface is in ERROR (R375, R396, R455). -/
def State.startCtx (s : State) (l : Lease) (text data : List Byte) (c : CtxId) : State :=
  let s := s.updCtx c (fun x => { x with
    st := .ready
    g := (x.g.set 1 l.args.1).set 2 l.args.2
    istore := Mem.setBytes [] 0 text
    ilen := text.length })
  let s := s.spadWrite c (64 * lwDOff l.body) data
  let s := if l.quant != 0 && !l.turn then s.gate c 1 else s
  if (s.resets.get? l.ten).isSome || s.tds l.ten == 3 then s.gate c 3 else s

/-- LAUNCH_IMAGE_PLACED: text and data are in every context of a placed lease, and the contexts start; or a read faults (R33, R340, R411). -/
def execLaunchImagePlaced (lid : Nat) (s : State) : Out :=
  match s.leases.get? lid with
  | none => .next s
  | some l =>
    if l.started || l.fail.isSome || l.moving.isSome || !l.saved.isEmpty || l.body.isEmpty then .next s
    else
      let bad (s : State) (f : PFault) : State := { s with leases := s.leases.set lid { l with fail := some f } }
      match s.hubWords l.asid l.ten (lwText l.body) (bits (pk64 l.body 0x10) 55 0) with
      | .error (s, none) => .next s
      | .error (s, some f) => .next (bad s f)
      | .ok text =>
        match s.hubWords l.asid l.ten (16 * lwDLen l.body) (bits (pk64 l.body 0x18) 55 0) with
        | .error (s, none) => .next s
        | .error (s, some f) => .next (bad s f)
        | .ok data =>
          let l := { l with started := true }
          .next (l.ctxs.foldl (fun s c => s.startCtx l text data c) { s with leases := s.leases.set lid l })

/-- LAUNCH_FAULT: a launch whose image could not be read frees its lease and is reported (R411). -/
def execLaunchFault (lid : Nat) (s : State) : Out :=
  match s.leases.get? lid with
  | none => .next s
  | some l =>
    match l.fail with
    | none => .next s
    | some f =>
      let s := s.freeLease lid
      .next (match l.parent, l.queue with
        | none, some q => s.launchFault q l.qidx l.task f true
        | _, _ => s)

/-- The lease whose completion can be made now: one whose contexts have all been released, or, with remote stores in flight, one whose contexts have
all ended (R340 step 4, R412, R427). -/
def State.toComplete (s : State) (lid : Nat) : Option Lease :=
  match s.finals.get? lid with
  | some l => some l
  | none => (s.leases.get? lid).filter (fun l =>
      l.started && !l.ended && !l.killed && l.saved.isEmpty && !l.body.isEmpty && l.ctxs.any (fun c => (s.ctx c).rso != 0)
        && l.ctxs.all (fun c => (s.ctx c).st == .empty || ((s.ctx c).st == .stopped && (s.ctx c).stop.1 == 0)))

/-- LAUNCH_COMPLETE: every context of the lease has ended, the counter add is made and the launch reported (R330, R340 step 4, R373, R412, R427). -/
def execLaunchComplete (lid : Nat) (s : State) : Out :=
  match s.toComplete lid with
  | none => .next s
  | some l =>
    let ca := pkCA l.body
    let add : Except State (State × Option PFault) :=
      if ca == 0 then .ok (s, none)
      else match s.hubAt 130 l.asid l.ten (bits ca 55 0) 8 ⟨true, true⟩ with
        | .hold s => .error s
        | .fault s t => .ok (s, some (pktFault t (ceAddr ca)))
        | .ok pa => .ok ((s.hubUse l.asid (bits ca 55 0) pa 8 true).devWrite pa (toBytes 8 (s.dev64 pa + 1).toNat), none)
    match add with
    | .error s => .next s
    | .ok (s, f) =>
      let s := match l.parent, l.task, l.queue, f with
        | none, some (asid, va), _, f => { s with reports := s.reports ++ [(⟨asid, va, f⟩ : TaskRep)] }
        | none, none, some q, some f => s.launchFault q l.qidx none f true
        | _, _, _, _ => s
      .next { s with finals := s.finals.erase lid, leases := if (s.finals.get? lid).isSome then s.leases else s.leases.set lid { l with ended := true } }

/-- SCHEDULER_TURN_END: the turn ends at its quantum, or earlier with nothing to run or every context yielded, and the next id gets it; a lease that
shares its cores with no other one gets the next turn too (R375, R399). -/
def execSchedulerTurnEnd (lid : Nat) (s : State) : Out :=
  match s.leases.get? lid with
  | none => .next s
  | some l =>
    let idle := l.ctxs.all (fun c => ((s.ctx c).st != .ready || (s.ctx c).gated) && (s.ctx c).cur.st != .running)
    let yields := l.ctxs.any (fun c => (s.ctx c).yielded) && l.ctxs.all (fun c => (s.ctx c).st != .ready || (s.ctx c).yielded)
    if !l.turn || (s.time + 1 < l.turnStart + l.quant && !idle && !yields) then .next s
    else match s.nextTurn lid with
      | none => .next (s.setTurn lid true)
      | some k => .next ((s.setTurn lid false).setTurn k true)

/-! ### Relocation and eviction (R376 to R379, R395, R453) -/

/-- Requesters of a context under a new bank. -/
def Who.ren (f : CtxId → CtxId) : Who → Who
  | .ctx c => .ctx (f c)
  | .tile c n => .tile (f c) n
  | .spill c k => .spill (f c) k
  | w => w

/-- A notice with its sender under a new bank. -/
def Kick.ren (f : CtxId → CtxId) (k : Kick) : Kick := { k with fr := f k.fr }

/-- A core's records with contexts under new banks. -/
def Core.ren (f : CtxId → CtxId) (k : Core) : Core :=
  { k with
    sinks := k.sinks.map (fun e => (e.1, { e.2 with
      ctx := f e.2.ctx
      joined := e.2.joined.map (fun j => (j.1, f j.2.1, j.2.2))
      staged := e.2.staged.map (fun b => { b with src := f b.src }) }))
    chains := k.chains.map (fun c => { c with ctx := f c.ctx })
    ceCmds := k.ceCmds.map (fun e => { e with ctx := f e.ctx })
    shapeQ := k.shapeQ.map f
    subs := k.subs.map (fun e => { e with ctx := f e.ctx })
    pkts := k.pkts.map (fun p => { p with ctx := f p.ctx, notice := p.notice.map (Kick.ren f), acks := p.acks.map f }) }

/-- A collective with contexts under new banks. -/
def Coll.ren (f : CtxId → CtxId) (k : Coll) : Coll :=
  let arr (l : List Arr) : List Arr := l.map (fun a => { a with ctx := f a.ctx })
  { k with arrived := arr k.arrived, tied := arr k.tied }

/-- A message of the accumulate network with contexts under new banks. -/
def AcnBody.ren (f : CtxId → CtxId) : AcnBody → AcnBody
  | .data b => .data { b with src := f b.src }
  | .credit c key => .credit (f c) key
  | .joinReq c d h p key => .joinReq (f c) d h p key
  | .joinRep c key t w n a h p => .joinRep (f c) key t w n a h p
  | .abort c key => .abort (f c) key
  | .refusal c key u k b => .refusal (f c) key u k { b with src := f b.src }

/-- Every reference to a context under its new bank (R377 step 5, R453). -/
def State.ren (s : State) (f : CtxId → CtxId) : State :=
  { s with
    cur := f s.cur
    ctxs := s.ctxs.map (fun e => (e.1, { e.2 with kicks := e.2.kicks.map (Kick.ren f) }))
    cores := s.cores.map (fun e => (e.1, e.2.ren f))
    dies := s.dies.map (fun e => (e.1, { e.2 with
      walks := e.2.walks.map (fun w => { w with who := w.who.ren f })
      walkFaults := e.2.walkFaults.map (fun w => ({ w.1 with who := w.1.who.ren f }, w.2))
      replay := e.2.replay.map (fun w => { w with who := w.who.ren f })
      retry := e.2.retry.map (fun w => { w with who := w.who.ren f }) }))
    barWaiters := s.barWaiters.map (fun w => (w.1, f w.2))
    dreqs := s.dreqs.map (fun r => { r with who := r.who.ren f })
    leases := s.leases.map (fun e => (e.1, { e.2 with
      ctxs := e.2.ctxs.map f
      go := e.2.go.map (Coll.ren f)
      bar := e.2.bar.map (Coll.ren f) }))
    acnMsgs := s.acnMsgs.map (fun m => { m with body := m.body.ren f })
    spawns := s.spawns.map (fun r => { r with ctx := f r.ctx })
    rstores := s.rstores.map (fun r => { r with ctx := f r.ctx })
    kickMsgs := s.kickMsgs.map (fun m => { m with dest := f m.dest, kick := m.kick.ren f })
    pullAcks := s.pullAcks.map (fun a => { a with fr := f a.fr })
    hubQ := s.hubQ.map (fun r => match r with
      | .hand st d c t => .hand st d (f c) t
      | .ttab st h v c t => .ttab st h v (f c) t)
    mgLast := s.mgLast.map (fun e => (e.1, (e.2.1, e.2.2.map (fun w => (f w.1, w.2))))) }

/-- Content of a bank: bytes and poisoned words, counted from its start. -/
def State.bankImage (s : State) (core : CoreId) (b : Nat) : Mem × List Nat :=
  let k := s.core core
  ((k.sram.filter (fun e => e.1 / 2 ^ 17 == b)).map (fun e => (e.1 - b * 2 ^ 17, e.2)),
   (k.poison.filter (fun w => w / 2 ^ 17 == b)).map (fun w => w - b * 2 ^ 17))

/-- A bank filled with a content. -/
def State.putBank (s : State) (core : CoreId) (b : Nat) (m : Mem × List Nat) : State :=
  s.updCore core (fun k => { k with
    sram := m.1.foldl (fun t e => t.set (b * 2 ^ 17 + e.1) e.2) (k.sram.zero (b * 2 ^ 17) (2 ^ 17))
    poison := k.poison.filter (fun w => w / 2 ^ 17 != b) ++ m.2.map (b * 2 ^ 17 + ·) })

/-- What moves of a context: itself, and the content of its banks; those in CACHE mode move as zeros (R378). -/
def State.saveCtx (s : State) (c : CtxId) : Saved :=
  let x := s.ctx c
  { ctx := { x with near := [] }
    banks := x.banks.map (fun b => if b.mode == .cache then ([], []) else s.bankImage (coreOf c) b.bank) }

/-- The bindings of a core's queues to a context bank follow it to its new core (R377 step 5). -/
def State.moveQueues (s : State) (a b : CtxId) : State :=
  (List.range 4).foldl (fun s n =>
    let p := 64 + 4 * coreOf a + n
    if !(s.qCfg p).getLsbD 63 || s.qCtx p != a then s
    else
      let cfg := s.qCfg p
      let x := setBits (s.qX p) 33 32 (b % 4)
      let st := s.qState p
      let s := ((s.setMg (qReg p) 0).setMg (qReg p + 1) 0)
      let s := { s with queues := s.queues.erase p }
      match ([n, 0, 1, 2, 3].map (64 + 4 * coreOf b + ·)).find? (fun q => !(s.qCfg q).getLsbD 63) with
      | some q => { (s.setMg (qReg q) cfg).setMg (qReg q + 1) x with queues := s.queues.set q st }
      | none => s) s

/-- A core's records of a context go to the core of its new bank: chain ids, commands and submissions that wait, and the messages of its lease's sums
(R377 step 5, R378). -/
def State.moveRecords (s : State) (old : CoreId) (b : CtxId) : State :=
  let k := s.core old
  let mine := k.sinks.filter (fun e => e.2.ctx == b)
  let lid := (s.ctx b).lease
  let at_ (d : CoreId) (c : CoreId) : CoreId := if c == old then d else c
  let s := s.setCore old { k with
    sinks := k.sinks.filter (fun e => e.2.ctx != b), ceCmds := k.ceCmds.filter (·.ctx != b), shapeQ := k.shapeQ.filter (· != b),
    subs := k.subs.filter (·.ctx != b) }
  let s := s.updCore (coreOf b) (fun o => { o with
    sinks := mine.foldl (fun m e => m.set e.1 e.2) (o.sinks.filter (fun e => e.2.ctx != b))
    ceCmds := o.ceCmds ++ k.ceCmds.filter (·.ctx == b), shapeQ := o.shapeQ ++ k.shapeQ.filter (· == b), subs := o.subs ++ k.subs.filter (·.ctx == b) })
  { s with acnMsgs := s.acnMsgs.map (fun m => if m.lid == lid then { m with fr := at_ (coreOf b) m.fr, dest := at_ (coreOf b) m.dest } else m) }

/-- The copy of a saved context ends at its new bank: context, bank contents, chains, and the records of its old core (R378). -/
def State.landCtx (s : State) (v : Saved) (a b : CtxId) : State :=
  let y := s.ctx b
  let f (k : CtxId) : CtxId := if k == a then b else k
  let s := s.moveQueues a b
  let s := s.ren f
  let s := s.moveRecords (coreOf a) b
  let s := (y.banks.zip v.banks).foldl (fun s e => s.putBank (coreOf b) e.1.bank e.2) s
  s.setCtx b { v.ctx with
    banks := (v.ctx.banks.zip y.banks).map (fun e => { e.1 with bank := e.2.bank })
    shape := if y.shape.getLsbD 31 then y.shape else v.ctx.shape
    kicks := v.ctx.kicks.map (Kick.ren f) }

/-- Bytes of a context's state, and the cycles of its copy (R378). -/
def Ctx.copyCycles (x : Ctx) (nb : Nat) : Nat :=
  let g := if x.shape.getLsbD 31 then bits x.shape 17 16 + 1 else 0
  (131072 * nb + 65536 + 98304 + 98304 * g + 232) / 233

/-- A bank kept at a pair's destination, with its column groups and chain ids (R378). -/
def State.reservePair (s : State) (c : CtxId) (x : Ctx) (lid nb : Nat) (core : CoreId) : State × CtxId :=
  let run := if x.shape.getLsbD 31 then freeRun (s.groups core) (bits x.shape 17 16 + 1) else none
  let (s, b) := s.reserve core nb lid { Ctx.blank with
    ten := x.ten, asid := x.asid, shape := match run with | some i => grantWord (x.shape &&& ~~~0xF80000000#64) i | none => 0 }
  let mine := (s.core (coreOf c)).sinks.filter (fun e => e.2.ctx == c)
  (s.updCore core (fun k => { k with sinks := mine.foldl (fun m e => m.set e.1 { e.2 with ctx := b, st := 9, joined := [], staged := [] }) k.sinks }), b)

/-- Is the running load of a lease pinned: its image holds a cross-core word without a cut point (R144)? A core whose part of the load has ended
still counts while another core runs the load. -/
def State.pinned (s : State) (l : Lease) : Bool :=
  l.ctxs.any (fun c => (s.ctx c).cur.st == .running && l.ctxs.any (fun d => (s.ctx d).ran && (s.ctx d).fab.start == (s.ctx c).fab.start
    && (s.ctx d).fab.segs.any (fun g => g.branches.any (fun b => match b.dst with | .exit _ _ => !b.cut | _ => false))))

/-- Does a cycle of R131, R194 or R203 count toward its effect in a lease (R377)? -/
def State.counting (s : State) (l : Lease) : Bool :=
  let full (k : Option Coll) : Bool := k.any (fun k => l.ctxs.all (fun c => k.arrived.any (·.ctx == c)))
  full l.go || full l.bar || (l.stopAt.isSome && l.ctxs.any (fun c => (s.ctx c).cur.st == .running && !(s.ctx c).fab.stopped))

/-- The origin of a lease's next relocation (R376). -/
def State.target (s : State) (l : Lease) : Option (Nat × Nat) :=
  (firstOrigin l.w l.h (fun i k =>
    match l.ctxs[i]? with
    | some c => s.eligible k l.nb l.ctxs && s.grantFits c k l.ctxs && s.chainsFit c k l.ctxs
    | none => false)).filter (fun p => p != (l.x, l.y) && p.1 ≤ l.x && p.2 ≤ l.y)

/-- COMPACTION: Ostler visits the next live lease, and relocates it or skips it (R376, R452). -/
def execCompaction (s : State) : Out :=
  match s.compact with
  | none => .next s
  | some ⟨todo, some lid⟩ => if (s.leases.get? lid).any (fun l => l.moving.isSome) then .next s else .next { s with compact := some ⟨todo, none⟩ }
  | some ⟨[], none⟩ => .next { s with compact := none }
  | some ⟨lid :: rest, none⟩ =>
    let skip : Out := .next { s with compact := some ⟨rest, none⟩ }
    match s.leases.get? lid with
    | none => skip
    | some l =>
      if s.leases.any (fun e => e.2.moving.isSome) then .next s
      else if !l.saved.isEmpty || l.fail.isSome || s.pinned l || (s.resets.get? l.ten).isSome then skip
      else match s.target l with
        | none => skip
        | some (x, y) =>
          let m : Moving := { evict := false, toX := x, toY := y, step := 0, since := s.time, pairs := l.ctxs.map (fun _ => ⟨none, 0, false⟩) }
          .next { s.putLease lid { l with moving := some m } with compact := some ⟨rest, some lid⟩ }

/-- A lease's move changed. -/
def State.setMoving (s : State) (lid : Nat) (m : Option Moving) : State := s.updLease lid (fun l => { l with moving := m })

/-- Is every cut link of a context's load closed, and every other beat in flight landed (R377 step 2)? -/
def Ctx.drained (x : Ctx) : Bool :=
  x.cur.st != .running || x.fab.segs.all (fun g => g.branches.all (fun b => if b.cut then !b.mid else b.fly.isEmpty))

/-- Is everything that step 3 of R377 waits for complete in a context? -/
def State.quiesced (s : State) (c : CtxId) : Bool :=
  let x := s.ctx c
  let k := s.core (coreOf c)
  x.ops.isEmpty && !x.banks.any (·.zeroing) && !k.chains.any (·.ctx == c) && !k.pkts.any (·.ctx == c)
    && !s.dreqs.any (fun r => r.who.of c) && (x.fab.held || x.fab.cells.all (fun e => e.2.acc.isEmpty))
    && !s.dies.any (fun e => (e.2.walks ++ e.2.replay ++ e.2.retry).any (fun w => w.who.of c))
    && !s.kickMsgs.any (fun m => m.dest == c) && !s.pullAcks.any (fun a => a.fr == c)

/-- The state of an evicted lease written to the save area, where it breaks armed lines as every write does (R309), and its cores freed (R395). -/
def State.evict (s : State) (lid : Nat) (l : Lease) : State :=
  let next := s.heir lid l
  let base := bits (s.mgv 0x09C4) 47 23 * 2 ^ 23
  let size := 131072 * l.nb + 65536 + 98304 * 5
  let s := (List.range l.ctxs.length).foldl (fun s k => (s.lose (base + 2 ^ 23 * k) size).breakRange (base + 2 ^ 23 * k) size) s
  let sv := l.ctxs.map (fun c => s.saveCtx c)
  let s := l.ctxs.zipIdx.foldl (fun s e =>
    let v := evictedId lid e.2
    let s := (s.zeroBanks (coreOf e.1) ((s.ctx e.1).banks.map (·.bank))).setCtx e.1 Ctx.blank
    (s.ren (fun k => if k == e.1 then v else k)).moveRecords (coreOf e.1) v) s
  let s := s.updLease lid (fun l => { l with saved := sv, moving := none, turn := false })
  ((s.setMg 0x09C3 (BitVec.ofNat 64 lid)).mapChanged).giveTurns next

/-- RELOCATION: the lease's relocation, eviction or restore goes to its next step (R377, R395). An eviction destroys the chains whose sinks are in the
lease, and the refusals and credits that follow arrive, before the state is written (R251). A restored lease with a quantum waits for its turn (R375). -/
def execRelocation (lid : Nat) (s : State) : Out :=
  match s.leases.get? lid with
  | none => .next s
  | some l =>
    match l.moving with
    | none => .next s
    | some m =>
      let age := s.time - m.since
      let goTo (s : State) (k : Nat) : State := s.setMoving lid (some { m with step := k, since := s.time })
      let free (s : State) (v : Bool) : State := l.ctxs.foldl (fun s c => s.updCtx c (fun x => { x with drain := v })) s
      if (s.resets.get? l.ten).isSome then .next s
      else match m.step with
        | 0 => if s.counting l || s.pinned l then .next s else .next (l.ctxs.foldl (fun s c => s.gate c 2) (goTo s 1))
        | 1 => if l.ctxs.all (fun c => (s.ctx c).gated || (s.ctx c).st == .stopped || (s.ctx c).st == .empty) then .next (free (goTo s 2) true) else .next s
        | 2 =>
          if age > 256 * bits (s.mgv 0x09C0) 31 16 || !l.ctxs.all (fun c => (s.ctx c).drained) then .next s
          else .next (free (goTo s 3) false)
        | 3 =>
          if age > 65536 || !l.ctxs.all (fun c => s.quiesced c) || s.acnMsgs.any (fun a => a.lid == lid) then .next s
          else if m.evict && l.ctxs.any (fun c => (s.core (coreOf c)).sinks.any (fun e => e.2.ctx == c)) then .next (l.ctxs.foldl (fun s c => s.tearChains c) s)
          else .next (if m.evict then s.evict lid l else goTo s 4)
        | 4 => if m.pairs.all (·.done) then .next (goTo s 5) else .next s
        | _ =>
          let s := if l.saved.isEmpty then s else s.setMg 0x09C3 (BitVec.ofNat 64 lid)
          let s := s.updLease lid (fun l => { l with x := m.toX, y := m.toY, moving := none, saved := [] })
          let s := if l.saved.isEmpty || l.quant == 0 then s else l.ctxs.foldl (fun s c => s.gate c 1) s
          .next ((l.ctxs.foldl (fun s c => s.ungate c 2) (s.mapChanged.giveTurns none)))

/-- The seams that a pair's copy crosses, each as its two dies, lower first (R418): none within one die; to the diagonal die, the seam beside the
old core's die and then the one above or below it, columns first as on the mesh. DEDUCED (log 117). -/
def seamsOf (a b : CoreId) : List (Nat × Nat) :=
  let m := dieOf a / 2 * 2 + dieOf b % 2
  ((if dieOf a == m then [] else [(min (dieOf a) m, max (dieOf a) m)]) ++ (if m == dieOf b then [] else [(min m (dieOf b), max m (dieOf b))]))

/-- Copies under way through a seam (R418). -/
def seamLoad (l : Lease) (m : Moving) (k : Nat × Nat) : Nat :=
  ((m.pairs.zip l.ctxs).filter (fun e => match e.1.dest with
    | some b => !e.1.done && (seamsOf (coreOf e.2) (coreOf b)).contains k
    | none => false)).length

/-- Can the copy of pair i of a relocation start (R378, R418)? -/
def State.pairReady (s : State) (l : Lease) (m : Moving) (i : Nat) : Bool :=
  match l.ctxs[i]?, m.pairs[i]? with
  | some c, some p =>
    let core := coreAt (m.toX + i % max l.w 1) (m.toY + i / max l.w 1)
    p.dest.isNone && s.eligible core l.nb [] && s.grantFits c core [] && s.chainsFit c core []
      && (seamsOf (coreOf c) core).all (fun k => seamLoad l m k < 16)
  | _, _ => false

/-- RELOCATION_PAIR_COPY: the copy of pair k starts once its destination has room, earlier pairs first; or, its cycles past, it ends (R378, R395, R418). -/
def execRelocationPairCopy (lid k : Nat) (s : State) : Out :=
  match s.leases.get? lid with
  | none => .next s
  | some l =>
    match l.moving, l.ctxs[k]? with
    | some m, some c =>
      if m.step != 4 then .next s
      else
        let first := (List.range m.pairs.length).find? (fun i => s.pairReady l m i)
        match m.pairs[k]? with
        | none => .next s
        | some p =>
          let put (s : State) (p : Pair) : State := s.setMoving lid (some { m with pairs := modAt (fun _ => p) m.pairs k })
          match p.dest with
          | none =>
            if first != some k then .next s
            else
              let core := coreAt (m.toX + k % max l.w 1) (m.toY + k / max l.w 1)
              let (s, b) := s.reservePair c (s.ctx c) lid l.nb core
              .next (put s ⟨some b, s.time, false⟩)
          | some b =>
            let v := (l.saved[k]?).getD (s.saveCtx c)
            if p.done || first.isSome || s.time < p.since + v.ctx.copyCycles l.nb then .next s
            else
              let old := (s.ctx c).banks.map (·.bank)
              let s := s.landCtx v c b
              let s := if l.saved.isEmpty then (s.zeroBanks (coreOf c) old).setCtx c Ctx.blank else s
              .next (put s { p with done := true })
    | _, _ => .next s

/-- A relocation or eviction given up: nothing has moved, the lease is ungated, event 5 (R377, R395, R409). Of a restore, the lease stays evicted and
ST reads 2, refused: DESIGN CHOICE (log 118). -/
def State.abandon (s : State) (lid : Nat) (l : Lease) (m : Moving) : State :=
  let s := s.unreserveAll m
  let s := s.setMoving lid none
  let s := if m.evict then s.setMg 0x09C3 (BitVec.ofNat 64 (3 * 2 ^ 60 + lid))
    else if l.saved.isEmpty then s else s.setMg 0x09C3 (BitVec.ofNat 64 (2 * 2 ^ 60 + lid))
  let s := l.ctxs.foldl (fun s c => (s.updCtx c (fun x => { x with drain := false })).ungate c 2) s
  s.event 5 l.ten lid 0 0 0 0 0

/-- RELOCATION_ABANDON: step 2 or 3 has passed its bound, or the tenant is being reset (R377, R396). -/
def execRelocationAbandon (lid : Nat) (s : State) : Out :=
  match s.leases.get? lid with
  | none => .next s
  | some l =>
    match l.moving with
    | none => .next s
    | some m =>
      let age := s.time - m.since
      let late := (m.step == 2 && age > 256 * bits (s.mgv 0x09C0) 31 16) || (m.step == 3 && age > 65536)
      if late || (s.resets.get? l.ten).isSome then .next (s.abandon lid l m) else .next s

/-- OSTCMD_GO (R376, R387). -/
def execOstcmdGo (s : State) : Out := .next s.startCompaction

/-- Is an OSTEV command running? -/
def State.ostevBusy (s : State) : Bool := bits (s.mgv 0x09C3) 61 60 == 1

/-- OSTEV_EVICT: the eviction of a live lease begins, or is refused for a locked interface's tenant (R395, R410, R441). -/
def execOstevEvict (lid : Nat) (s : State) : Out :=
  match s.leases.get? lid with
  | none => .next s
  | some l =>
    if s.ostevBusy || l.moving.isSome || !l.saved.isEmpty || lid ≥ 2 ^ 31 then .next s
    else if s.tds l.ten == 1 || s.tds l.ten == 2 then .next (s.setMg 0x09C3 (BitVec.ofNat 64 (3 * 2 ^ 60 + lid)))
    else
      let m : Moving := { evict := true, toX := l.x, toY := l.y, step := 0, since := s.time, pairs := [] }
      .next ((s.putLease lid { l with moving := some m }).setMg 0x09C3 (BitVec.ofNat 64 (2 ^ 60 + lid)))

/-- OSTEV_RESTORE: an evicted lease asks for a place, and with Ostler free gets one, or is refused, in the order of arrival with the
SPAWN requests (R372, R378, R395). -/
def execOstevRestore (lid : Nat) (s : State) : Out :=
  match s.leases.get? lid with
  | none => .next s
  | some l =>
    if l.saved.isEmpty || l.moving.isSome then .next s
    else if !s.restores.any (fun r => r.1 == lid) then
      (if s.ostevBusy then .next s
       else .next ({ s with restores := s.restores ++ [(lid, s.ostN)], ostN := s.ostN + 1 }.setMg 0x09C3 (BitVec.ofNat 64 (2 ^ 60 + lid))))
    else if s.compact.isSome || s.ost.isSome || (s.restores.head?).map (·.1) != some lid || s.spawns.any (fun r => s.restores.any (fun e => e.1 == lid && r.seq < e.2)) then .next s
    else
      let s := { s with restores := s.restores.tail }
      let fits (i : Nat) (k : CoreId) : Bool :=
        let v := ((l.saved[i]?).map (fun v => v.ctx.shape)).getD 0
        s.eligible k l.nb [] && (!v.getLsbD 31 || (freeRun (s.groups k) (bits v 17 16 + 1)).isSome)
      match firstOrigin l.w l.h fits with
      | none => .next (s.setMg 0x09C3 (BitVec.ofNat 64 (2 * 2 ^ 60 + lid)))
      | some (x, y) =>
        let (s, pairs) := (rectCores x y l.w l.h).zipIdx.foldl (fun (a : State × List Pair) e =>
          match l.ctxs[e.2]?, l.saved[e.2]? with
          | some c, some v => let (s, b) := a.1.reservePair c v.ctx lid l.nb e.1; (s, a.2 ++ [⟨some b, s.time, false⟩])
          | _, _ => a) (s, [])
        let m : Moving := { evict := false, toX := x, toY := y, step := 4, since := s.time, pairs := pairs }
        .next ((s.setMoving lid (some m)).mapChanged)

/-! ### Partition reset (R396) -/

/-- Contexts of a tenant. -/
def State.ctxsOf (s : State) (t : Nat) : List CtxId := (s.ctxs.filter (fun e => e.2.st != .empty && e.2.ten.toNat == t)).map (·.1)

/-- The saved contexts of an evicted lease, each gated with source 3 from its restore on (R440, R455). -/
def Lease.gateSaved (l : Lease) : Lease := { l with saved := l.saved.map (fun v => { v with ctx := { v.ctx with gsrc := v.ctx.gsrc ||| 8#4 } }) }

/-- An interface enters ERROR: its tenant's contexts are gated with source 3, those of its evicted leases too, intake stops, and a record of type 12 is
written (R440, R455). -/
def State.tdispErr (s : State) (t cause whereAt : Nat) : State :=
  let s := s.setMg (0x8260 + t) 3
  let s := (s.ctxsOf t).foldl (fun s c => s.gate c 3) s
  let ls := s.leases.map (fun e => (e.1, if e.2.ten == t then e.2.gateSaved else e.2))
  { s with leases := ls }.event 12 t 0 0 0 0 0 (BitVec.ofNat 64 (cause * 2 ^ 16 + whereAt % 2 ^ 16))

/-- Messages of a tenant on their way in shared routers, links and queues, dropped (R396 step 4). -/
def State.dropTraffic (s : State) (t : Nat) : State :=
  let gone := s.dreqs.filter (fun r => r.ten == t && (r.stage == .out || r.stage == .back))
  { s with
    flits := s.flits.filter (fun f => !gone.any (fun r => r.id == f.req))
    dreqs := s.dreqs.filter (fun r => !gone.any (fun g => g.id == r.id))
    acnMsgs := s.acnMsgs.filter (fun m => !(s.leaseAt m.lid).any (fun l => l.ten == t))
    kickMsgs := s.kickMsgs.filter (fun m => m.kick.ten != t) }

/-- The residency handles of a tenant dropped and its translations removed (R396 step 6). -/
def State.dropTenant (s : State) (t : Nat) : State :=
  let mine := (List.range 2048).filter (fun a => bits (s.mgv (0x1000 + a)) 5 0 == t)
  let s := (List.range 4).foldl (fun s d => ((s.die d).handles.filter (fun h => mine.contains h.asid)).foldl (fun s h => s.dropHandle d h.num) s) s
  mine.foldl (fun s a => (s.tlbRemove 1 a 0).releaseEvent 1 a 0) s

/-- Data of a region is lost: it reads as unspecified values (R283, R436). -/
def State.loseRegion (s : State) (st r : Nat) : State := s.lose (st * 2 ^ 36 + r * 2 ^ 32) (2 ^ 32)

/-- A tenant has a new key pair: what its regions held reads as unspecified values (R284, R436). -/
def State.newKeys (s : State) (t : Nat) : State :=
  let rs := ((List.range 16).map (fun st => (List.range 16).map (fun r => (st, r)))).flatten
  (rs.filter (fun e => s.ttab e.1 e.2 == t)).foldl (fun s e => s.loseRegion e.1 e.2) { s with keys := s.keys.set t s.free, free := s.free + 1 }

/-- A STOP_INTERFACE_REQUEST has run its steps: CONFIG_UNLOCKED, with new keys (R436, R440, R455). -/
def State.unlocked (s : State) (t : Nat) : State :=
  if (s.tdis.get? t).any (·.stopping) then { s.setMg (0x8260 + t) 0 with tdis := s.tdis.erase t }.newKeys t else s

/-- TRST_GO: the partition reset of a tenant begins, or goes to its next step (R396); an interface that is locked or runs enters ERROR (R440, R455). -/
def execTrstGo (t : Nat) (s : State) : Out :=
  if t == 0 || t > 63 then .next s
  else match s.resets.get? t with
    | none =>
      let s := if s.tds t == 1 || s.tds t == 2 then s.tdispErr t 3 0 else s
      .next { s with resets := s.resets.set t 2 }
    | some 2 =>
      if s.leases.any (fun e => e.2.ten == t && e.2.moving.isSome) then .next s
      else .next ((s.ctxsOf t).foldl (fun s c => s.gate c 3) { s with resets := s.resets.set t 3 })
    | some 3 =>
      if s.leases.any (fun e => e.2.ten == t && e.2.moving.isSome) || (s.ctxsOf t).any (fun c => !(s.ctx c).gated && (s.ctx c).st != .stopped) then .next s
      else .next { s.dropTraffic t with resets := s.resets.set t 5 }
    | some 5 =>
      let s := (s.ctxsOf t).foldl (fun s c => s.destroyCtx c) s
      let s := (s.leases.filter (fun e => e.2.ten == t && e.1 < 2 ^ 31)).foldl (fun s e => s.freeLease e.1) s
      .next { s with resets := s.resets.set t 6 }
    | some 6 => .next { s.dropTenant t with resets := s.resets.set t 7 }
    | some _ => .next (({ s with resets := s.resets.erase t }.event 6 t 0 0 0 0 0 0).unlocked t)

end Sys2Proof.Machine
end

