-- ==== Sys2Proof/Machine/Manage.lean ====
section
/-! DEFINITION. The management registers: their fields, reads and writes, MGR and MGW, TTAB writes and hand-overs of stacks at the hub (R269, R277,
R283, R294, R346, R387, R400, R401, R410, R421 to R424, R441, R448, R461). -/

namespace Sys2Proof.Machine

/-! ### Fields (Reset and Values columns of R277, R294, R346, R387, R410, R448, R461) -/

/-- A field of a register: its bits, the least and greatest value of its Values column, and whether it is read-only. -/
structure Fld where
  hi : Nat
  lo : Nat
  min : Nat
  max : Nat
  ro : Bool

/-- A field that takes any value. -/
def anyF (hi lo : Nat) : Fld := ⟨hi, lo, 0, 2 ^ (hi + 1 - lo) - 1, false⟩
/-- A read-only field. -/
def roF (hi lo : Nat) : Fld := ⟨hi, lo, 0, 2 ^ (hi + 1 - lo) - 1, true⟩
/-- A field within limits. -/
def inF (hi lo a b : Nat) : Fld := ⟨hi, lo, a, b, false⟩

/-- A base with a size, of an event or log ring. -/
def ringF (top : Nat) : List Fld := [anyF top 12, inF 3 0 0 12]

/-- The fields of a management register; none for an unassigned number. -/
def mgFields (n : Nat) : Option (List Fld) :=
  if n < 0x0100 then none
  else if n < 0x0140 then
    (let i := n % 16
     if i == 0 then some [inF 3 0 0 8]
     else if i == 1 then some [inF 15 12 1 15, inF 11 8 1 15, inF 7 4 1 15, inF 3 0 1 15]
     else if i == 2 then some [inF 6 0 1 127]
     else if i == 3 then some [anyF 63 14]
     else none)
  else if n < 0x0180 then none
  else if n < 0x01A0 then some [anyF 47 0]
  else if n < 0x01B0 then some [roF 63 0]
  else if n < 0x0800 then none
  else if n < 0x0840 then some [inF 31 16 0 10000, roF 15 12, anyF 11 8, inF 3 0 1 15]
  else if n < 0x0880 then some [roF 63 0]
  else if n < 0x0980 then
    (let i := n % 4
     if i == 0 then some [anyF 63 63, anyF 55 6, anyF 5 3]
     else if i == 1 then some [anyF 47 32, anyF 26 16, anyF 5 0]
     else if i == 2 then some [roF 63 0]
     else none)
  else if n < 0x09C0 then some [anyF 63 63, anyF 55 16]
  else if n == 0x09C0 then some [inF 31 16 1 65535, anyF 0 0]
  else if n == 0x09C1 then some [anyF 0 0]
  else if n == 0x09C2 then some [roF 63 22]
  else if n == 0x09C3 then some [inF 63 62 0 2, roF 61 60, inF 30 0 1 (2 ^ 31 - 1)]
  else if n == 0x09C4 then some [anyF 47 23]
  else if n < 0x09E0 then none
  else if n < 0x09F0 then some [roF 59 0]
  else if n < 0x0A00 then none
  else if n < 0x0A40 then some [anyF 0 0]
  else if n == 0x0A40 then some (ringF 47)
  else if n == 0x0A41 then some [roF 63 0]
  else if n == 0x0A42 then some [anyF 63 0]
  else if n == 0x0A43 then some [roF 63 0]
  else if n < 0x1000 then none
  else if n < 0x1800 then some [anyF 63 63, anyF 5 0]
  else if n < 0x3000 then none
  else if n < 0x3500 then some [inF 63 48 0 0xFFFC, anyF 47 40, roF 29 20, inF 19 16 0 4, roF 2 0]
  else if n < 0x4000 then none
  else if n < 0x6800 then some [roF 47 0]
  else if n < 0x7200 then (if n % 8 < 4 then some [roF 32 0] else none)
  else if n < 0x7400 then none
  else if n < 0x7450 then some [roF 63 0]
  else if n < 0x7500 then none
  else if n < 0x7510 then some [roF 63 0]
  else if n < 0x7600 then none
  else if n < 0x7610 then some [anyF 19 0]
  else if n < 0x8000 then none
  else if n < 0x8010 then some [roF 16 16, anyF 8 8, roF 1 0]
  else if n == 0x8010 then some [anyF 12 0]
  else if n < 0x8020 then none
  else if n < 0x8060 then some [anyF 16 16, anyF 15 0]
  else if n < 0x80A0 then some [anyF 59 0]
  else if n < 0x80E0 then some [anyF 2 0]
  else if n < 0x8120 then some (ringF 47)
  else if n < 0x81A0 then some (if n % 2 == 0 then [roF 63 0] else [anyF 63 0])
  else if n < 0x8220 then some (if n % 2 == 0 then ringF 55 else [anyF 63 0])
  else if n < 0x8260 then some [anyF 31 16, anyF 7 0]
  else if n < 0x82A0 then some [roF 1 0]
  else if n < 0x82E0 then some [anyF 63 63, anyF 55 22, anyF 10 0]
  else if n < 0x9000 then none
  else if n < 0x9003 then some [roF 63 0]
  else if n < 0x9010 then none
  else if n < 0x9015 then some [roF 7 0]
  else if n < 0xA000 then none
  else if n < 0xAA00 then some (if n % 2 == 0 then [anyF 63 63, anyF 55 6] else [anyF 33 32, anyF 26 16, anyF 5 0])
  else none

/-- Does a written word keep every field within its Values column (R277)? -/
def fldsOk (l : List Fld) (v : W64) : Bool := l.all (fun f => f.ro || (f.min ≤ bits v f.hi f.lo && bits v f.hi f.lo ≤ f.max))
/-- A register's word after a write: its fields taken, reserved and read-only bits kept (R277, R400). -/
def fldsMerge (l : List Fld) (old v : W64) : W64 := l.foldl (fun w f => if f.ro then w else setBits w f.hi f.lo (bits v f.hi f.lo)) old

/-! ### Reads -/

/-- STATE of CTXC (R410). -/
def Ctx.stateCode (x : Ctx) : Nat :=
  match x.st with
  | .empty => 0
  | .stopped => 3
  | .ready => if x.gated then 4 else 1
  | .waiting => if x.gated then 4 else 2

/-- The CTXC word of a context bank (R391, R410). -/
def Ctx.ctxcWord (x : Ctx) : W64 :=
  if x.st == .empty then 0
  else
    let rec_ := if x.st == .stopped then x.stop.2.toNat * 2 ^ 48 + x.stop.1.toNat * 2 ^ 40 else 0
    BitVec.ofNat 64 (rec_ + x.ten.toNat * 2 ^ 24 + x.gsrc.toNat * 2 ^ 20 + x.stateCode)

/-- The OCC word of a row: free context banks of its cores (R371, R387). -/
def State.occWord (s : State) (y : Nat) : W64 :=
  BitVec.ofNat 64 ((List.range 20).foldl (fun a x => a + (4 - (s.held (coreAt x y) []).length) * 2 ^ (3 * x)) 0)

/-- Is a hand-over of a stack running: is it the hub's oldest request about the stack (R422, R448)? -/
def State.handRunning (s : State) (st : Nat) : Bool :=
  match s.hubQ.find? (fun r => match r with | .hand k _ _ _ => k == st | .ttab k _ _ _ _ => k == st) with
  | some (.hand _ _ _ _) => true
  | _ => false

/-- The value of a management register (R400). -/
def State.mgRead (s : State) (n : Nat) : W64 :=
  if 0x3000 ≤ n && n < 0x3500 then (s.ctx (n - 0x3000)).ctxcWord
  else if 0x09E0 ≤ n && n < 0x09F0 then s.occWord (n - 0x09E0)
  else if 0x0800 ≤ n && n < 0x0840 then setBits (s.mgv n) 15 12 (s.duty (n - 0x0800) - 1)
  else if n == 0x09C1 then (if s.compact.isSome then 1 else 0)
  else if 0x0A00 ≤ n && n < 0x0A40 then (if (s.resets.get? (n - 0x0A00)).isSome then 1 else 0)
  else if 0x8000 ≤ n && n < 0x8010 then setBits (s.mgv n) 16 16 (if s.handRunning (n - 0x8000) then 1 else 0)
  else s.mgv n

/-- May a tenant's context read a register (R400, R461)? -/
def State.mgReadable (s : State) (ten n : Nat) : Bool :=
  ten == 0 || n == 0x0800 + ten || n == 0x0840 + ten || (0x0880 ≤ n && n < 0x0980 && n % 4 == 2 && bits (s.mgv (n - 1)) 5 0 == ten)
    || (0x09E0 ≤ n && n < 0x09F0) || n == 0x9000 || n == 0x9002 || (0x9010 ≤ n && n < 0x9015)

/-! ### TDISP: the frozen set and ERROR (R440, R441, R455, R456) -/

/-- Tenants whose interface is CONFIG_LOCKED or RUN. -/
def State.lockedTenants (s : State) : List Nat := (upto 1 63).filter (fun t => s.tds t == 1 || s.tds t == 2)

/-- Entry e of a TTAB word. -/
def ttEntry (v : W64) (e : Nat) : Nat := bits v (6 * e + 5) (6 * e)

/-- Does register n belong to the frozen set of tenant t, for a change from old to new (R441)? -/
def State.inFrozen (s : State) (t n : Nat) (old new : W64) : Bool :=
  if 0x0180 ≤ n && n < 0x01A0 then (List.range 8).any (fun e => ttEntry old e != ttEntry new e && (ttEntry old e == t || ttEntry new e == t))
  else if 0x0880 ≤ n && n < 0x0980 then n % 4 < 2 && bits (s.mgv (n / 4 * 4 + 1)) 5 0 == t
  else if 0x1000 ≤ n && n < 0x1800 then bits old 5 0 == t
  else if 0xA000 ≤ n && n < 0xAA00 then bits (s.mgv (n / 2 * 2 + 1)) 5 0 == t
  else n == 0x0980 + t || n == 0x8020 + t || n == 0x80A0 + t || n == 0x82A0 + t

/-! ### TTAB writes and hand-overs at the hub (R283, R422 to R424) -/

/-- Is an address in a region of a stack? -/
def inRegion (st r pa : Nat) : Bool := stackOf pa == st && regionOf pa == r

/-- The dirty lines among some of a die's own lines written back into the cache layer of their stack (R266, R280, R283, R423). -/
def State.writeBack (s : State) (die : Nat) (p : L2Line → Bool) : State :=
  ((s.die die).l2.filter (fun l => p l && l.dirty && !l.remote)).foldl (fun s l => s.layerUse l.pa die l.handle true) s

/-- The lines and cache-layer blocks of a region written back and invalidated; waiters at its lines are released BROKEN (R283 step 2). -/
def State.flushRegion (s : State) (st r : Nat) : State :=
  let lines := (s.barWaiters.filter (fun w => inRegion st r w.1)).map (·.1)
  let s : State := lines.foldl (fun s l => s.releaseBar l false) s
  { s with
    dies := s.dies.map (fun e => (e.1, { e.2 with l2 := e.2.l2.filter (fun l => !inRegion st r l.pa) }))
    hbm := s.hbm.filter (fun b => !(b.stack == st && regionOf b.blk == r)) }

/-- A request held in a region at its home is checked against the new table (R283 steps 1 and 4). -/
def State.recheck (s : State) (st r : Nat) : State :=
  { s with dreqs := s.dreqs.map (fun q => if q.stage == .home && inRegion st r q.pa then { q with checked := false } else q) }

/-- A new TTAB word takes effect (R283). -/
def State.ttabApply (s : State) (st h : Nat) (v : W64) : State :=
  let n := 0x0180 + 2 * st + h
  let old := s.mgv n
  let gone := (List.range 8).filter (fun e => ttEntry old e != ttEntry v e)
  let s := gone.foldl (fun s e => ((s.flushRegion st (8 * h + e)).loseRegion st (8 * h + e)).recheck st (8 * h + e)) s
  s.setMg n v

/-- Dies with a port to a stack (R278). -/
def stackPorts (st : Nat) : List Nat := if st / 4 == 0 then [0, 1] else if st / 4 == 1 then [1, 3] else if st / 4 == 2 then [2, 3] else [0, 2]

/-- An armed line arrives at the new owner: it takes a local way of its set, or is broken where eight are armed (R309, R424). -/
def State.passArmed (s : State) (n : Nat) (l : L2Line) : State :=
  let here := s.setLines n l.pa
  if (here.filter (fun k => k.armed && !k.remote)).length ≥ 8 then s.releaseBar l.pa false
  else
    let (_, hi) := s.remw n (sliceOf l.pa)
    let put (s : State) (w : Nat) : State := s.updDie n (fun d => { d with l2 := d.l2 ++ [{ l with way := w, sharers := [], dirty := false }] })
    match (List.range (16 - hi)).find? (fun w => here.all (fun k => k.way != w)) with
    | some w => put s w
    | none =>
      match here.find? (fun k => !k.armed && k.way < 16 - hi) with
      | some v => put (s.updDie n (fun d => { d with l2 := d.l2.erase v })) v.way
      | none => s.releaseBar l.pa false

/-- An ordering of lines by address. -/
def insLine (l : L2Line) : List L2Line → List L2Line
  | [] => [l]
  | k :: t => if l.pa ≤ k.pa then l :: k :: t else k :: insLine l t

/-- Steps 2 to 6 of a hand-over of a stack to a die (R423, R424). -/
def State.handOver (s : State) (st n : Nat) : State :=
  let o := s.ownerDie st
  if o == n then s
  else
    let s := s.writeBack o (fun l => stackOf l.pa == st)
    let armed := (((s.die o).l2.filter (fun l => stackOf l.pa == st && l.armed && !l.remote)).foldl (fun t l => insLine l t) [])
    let s := { s with
      dies := s.dies.map (fun (e : Nat × Die) => (e.1, { e.2 with l2 := e.2.l2.filter (fun l => stackOf l.pa != st) }))
      hbm := s.hbm.map (fun (b : HbmBlock) => if b.stack == st then { b with handle := 0 } else b) }
    let s := s.setMg (0x8000 + st) (setBits (s.mgv (0x8000 + st)) 1 0 n)
    armed.foldl (fun s l => s.passArmed n l) s

/-- The stack of a hub request. -/
def HubReq.stack : HubReq → Nat
  | .hand k _ _ _ => k
  | .ttab k _ _ _ _ => k

/-- Does request a go before request b, both having arrived in one cycle: by core, then by bank (R422)? -/
def HubReq.before (a b : HubReq) : Bool :=
  let key : HubReq → CtxId × Nat := fun r => match r with
    | .hand _ _ c t => (c, t)
    | .ttab _ _ _ c t => (c, t)
  (key a).2 == (key b).2 && (key a).1 < (key b).1

/-- A request arrives at the hub (R422). -/
def insHub (r : HubReq) : List HubReq → List HubReq
  | [] => [r]
  | q :: t => if r.before q then r :: q :: t else q :: insHub r t

/-- Does the hub still hold a TTAB write of a value? -/
def State.ttabWaits (s : State) (st h : Nat) (v : W64) : Bool :=
  s.hubQ.any (fun r => match r with
    | .ttab a b w _ _ => a == st && b == h && w == v
    | _ => false)

/-- The number by which a writer that is no context, the host, stands behind every context. -/
def hostId : CtxId := 4 * numCores

/-- The hub's oldest request about a stack. -/
def State.hubHead (s : State) (st : Nat) : Option HubReq := s.hubQ.find? (fun r => r.stack == st)
/-- The hub's oldest request about a stack taken off. -/
def State.hubPop (s : State) (st : Nat) : State := { s with hubQ := s.hubQ.eraseP (fun r => r.stack == st) }

/-- STACK_HAND_OVER: the hub's oldest request about a stack is a hand-over, and it runs to its end (R422, R423). -/
def execStackHandOver (stack : Nat) (s : State) : Out :=
  match s.hubHead stack with
  | some (.hand _ n _ _) => .next ((s.handOver stack n).hubPop stack)
  | _ => .next s

/-- HAND.STK (R422). -/
def execHandStk (g : Guard) (a b : BitVec 5) (s : State) : Out :=
  s.issue g (fun c => c.cntLd != 0 || c.cntSt != 0) (fun c =>
    let st := (c.reg a).toNat
    let n := (c.reg b).toNat
    let bad (k : Nat) : State := s.raise s.cur (wordTrap (.handStk g a b) 0x1F k)
    if st > 15 || n > 3 then bad 1
    else if !(stackPorts st).contains n then bad 2
    else if c.ten != 0 && (List.range 16).any (fun r => s.ttab st r != c.ten.toNat) then bad 3
    else if s.ownerDie st == n then s.setCtx s.cur c.advance
    else { s with hubQ := insHub (.hand st n s.cur s.time) s.hubQ }.waitFor s.cur (.handStk st n))

/-! ### Writes (R277, R400) -/

/-- A queue whose ASID its tenant may not use is held stopped; its head stays, its mark and count of NOPLACE with it (R364, R369). -/
def State.holdQueue (s : State) (q : Nat) : State :=
  (s.updQ q (fun k => { k with held := true, pend := none })).event 2 (s.qTen q) 0 0x16 6 (if q < 64 then 0 else (q - 64) / 4) 0
    (BitVec.ofNat 64 (2 ^ 63 + s.qLine q))

/-- A write to a queue's binding register: an unchanged binding goes on, and a queue held stopped is served again, or held again where its ASID is
still unusable; any other write binds the queue anew, or disables it (R345, R346, R364, R367, R369). -/
def State.writeBinding (s : State) (n q : Nat) (v : W64) : State :=
  let old := s.mgv n
  let s := s.setMg n v
  let s : State := if old.getLsbD 63 && v.getLsbD 63 && bits old 55 6 == bits v 55 6 then s else { s with queues := s.queues.erase q }
  if !v.getLsbD 63 then s
  else if !s.asidOk (s.qAsid q) (s.qTen q) then s.holdQueue q
  else if (s.qState q).held then s.updQ q (fun k => { k with held := false })
  else s

/-- Every queue number. -/
def allQueues (s : State) : List Nat :=
  List.range 64 ++ (s.mg.filterMap (fun e => if 0xA000 ≤ e.1 && e.1 < 0xAA00 && e.1 % 2 == 0 then some (64 + (e.1 - 0xA000) / 2) else none))

/-- A write to ASIDO: bound queues whose ASID becomes unusable are held stopped (R364). -/
def State.writeAsido (s : State) (a : Nat) (v : W64) : State :=
  let was (q : Nat) : Bool := (s.qCfg q).getLsbD 63 && s.qAsid q == a && s.asidOk a (s.qTen q)
  let qs := (allQueues s).filter was
  let s := s.setMg (0x1000 + a) v
  (qs.filter (fun q => !s.asidOk a (s.qTen q))).foldl (fun s q => s.holdQueue q) s

/-- A write to L2REMW: every slice begins its conversion (R269). -/
def State.writeRemw (s : State) (die : Nat) (v : W64) : State :=
  let n := 0x0100 + 16 * die
  let old := bits (s.mgv n) 3 0
  let s := s.setMg n v
  if old == bits v 3 0 then s
  else s.updDie die (fun d => { d with convert := (List.range 80).foldl (fun m k => if (m.get? k).isSome then m else m.set k old) d.convert })

/-- The state after an outcome that is always a next state. -/
def nextOf (s : State) : Out → State
  | .next t => t
  | _ => s

/-- A command of CTXC; one that does not fit the state is ignored (R394, R410). -/
def State.ctxcCmd (s : State) (c : CtxId) (cmd : Nat) : State :=
  if cmd == 1 then nextOf s (execCtxcGate c s)
  else if cmd == 2 then nextOf s (execCtxcUngate c s)
  else if cmd == 3 then nextOf s (execCtxcDestroy c s)
  else if cmd == 4 then nextOf s (execCtxcRelease c s)
  else s

/-- A command of OSTEV (R395, R410, R441). -/
def State.ostevCmd (s : State) (v : W64) : State :=
  let lid := bits v 30 0
  if s.ostevBusy then s
  else
  let s := s.setMg 0x09C3 (setBits (s.mgv 0x09C3) 30 0 lid)
  if bits v 63 62 == 1 then
    nextOf s (execOstevEvict lid s)
  else if bits v 63 62 == 2 then nextOf s (execOstevRestore lid s)
  else s

/-- Is a write to a register a command, or one that clears, which has its effect whatever else is written in its cycle (R294, R387, R410)? -/
def mgCommand (n : Nat) : Bool :=
  (0x0180 ≤ n && n < 0x01B0) || n == 0x09C1 || n == 0x09C2 || n == 0x09C3 || (0x0A00 ≤ n && n < 0x0A40) || n == 0x0A43 || (0x3000 ≤ n && n < 0x7610)

/-- An OSTEV command of the present cycle that has only been accepted is taken back, for one that goes before it (R400). -/
def State.ostevUndo (s : State) (v : W64) : State :=
  let lid := bits v 30 0
  let idle (s : State) : State := s.setMg 0x09C3 (setBits (s.mgv 0x09C3) 61 60 0)
  match s.leases.get? lid with
  | some l =>
    if l.moving == some { evict := true, toX := l.x, toY := l.y, step := 0, since := s.time, pairs := [] } then
      idle (s.putLease lid { l with moving := none })
    else if bits v 63 62 == 2 && s.restores.any (fun r => r.1 == lid) then idle { s with restores := s.restores.filter (fun r => r.1 != lid) }
    else s
  | none => s

/-- The effect of a write whose fields are all within their Values; w is the register's new word (R400). who: the writing context. -/
def State.mgEffect (s : State) (who : CtxId) (n : Nat) (w v : W64) : State :=
  if 0x0100 ≤ n && n < 0x0140 && n % 16 == 0 then s.writeRemw ((n - 0x0100) / 16) w
  else if 0x0180 ≤ n && n < 0x01A0 then { s with hubQ := insHub (.ttab ((n - 0x0180) / 2) (n % 2) w who s.time) s.hubQ }
  else if 0x01A0 ≤ n && n < 0x01B0 then s.setMg n 0
  else if 0x0880 ≤ n && n < 0x0980 && n % 4 == 0 then s.writeBinding n ((n - 0x0880) / 4) w
  else if n == 0x09C1 then (if v.getLsbD 0 then nextOf s (execOstcmdGo s) else s)
  else if n == 0x09C2 || n == 0x0A43 then s.setMg n 0
  else if n == 0x09C3 then s.ostevCmd v
  else if n == 0x09C4 then (if bits v 47 40 == 0 && s.ownerTen (bits v 47 23 * 2 ^ 23) == 0 then s.setMg n w else s)
  else if 0x0A00 ≤ n && n < 0x0A40 then
    (let t := n - 0x0A00
     if !v.getLsbD 0 || t == 0 || (s.resets.get? t).isSome then s
     else nextOf s (execTrstGo t s))
  else if 0x1000 ≤ n && n < 0x1800 then s.writeAsido (n - 0x1000) w
  else if 0x3000 ≤ n && n < 0x3500 then s.ctxcCmd (n - 0x3000) (bits v 19 16)
  else if (0x4000 ≤ n && n < 0x7200) || (0x7400 ≤ n && n < 0x7510) then (if bits v (if n < 0x6800 then 47 else if n < 0x7200 then 32 else 63) 0 == 0 then s.setMg n 0 else s)
  else if 0x7600 ≤ n && n < 0x7610 then
    (let new := s.mgv n &&& v
     if new == s.mgv n then s else (s.setMg n new).mapChanged)
  else if n == 0x0A40 then (if bits v 47 40 == 0 then s.setMg n w else s)
  else if 0x80E0 ≤ n && n < 0x8120 then (if bits v 47 40 == 0 then s.setMg n w else s)
  else if n == 0x8010 then (if s.jex.any (fun e => e.2 == 1) then s else s.setMg n w)
  else if 0xA000 ≤ n && n < 0xAA00 && n % 2 == 0 then s.writeBinding n (64 + (n - 0xA000) / 2) w
  else s.setMg n w

/-- The writes of the present cycle to a register, by core, then by bank (R400). -/
def State.mgNow (s : State) (n : Nat) : List (CtxId × W64) :=
  match s.mgLast.get? n with
  | some e => if e.1 == s.time then e.2 else []
  | none => []

/-- A write to a register takes its place among those of its cycle: behind a later one a plain register keeps that one's value, and the commands of
CTXC and OSTEV are carried out in order (R400). -/
def State.mgInOrder (s : State) (who : CtxId) (n : Nat) (w v : W64) : State :=
  let now := s.mgNow n
  let later := now.filter (who < ·.1)
  let s := { s with mgLast := s.mgLast.set n (s.time, now.filter (·.1 ≤ who) ++ (who, v) :: later) }
  if later.isEmpty then s.mgEffect who n w v
  else if !mgCommand n then s
  else if n == 0x09C3 || (0x3000 ≤ n && n < 0x3500) then
    let s : State := if n == 0x09C3 then later.reverse.foldl (fun s e => s.ostevUndo e.2) s else s
    later.foldl (fun s e => s.mgEffect e.1 n w e.2) (s.mgEffect who n w v)
  else s.mgEffect who n w v

/-- A write of tenant 0 to a management register: ignored as a whole where a field is outside its Values, or, in ERROR's stead, where a locked
interface holds the register (R277, R400, R441). -/
def State.mgWrite (s : State) (who : CtxId) (n : Nat) (v : W64) : State :=
  match mgFields n with
  | none => s
  | some l =>
    if !fldsOk l v then s
    else
      let w := fldsMerge l (s.mgv n) v
      match if w == s.mgv n then [] else s.lockedTenants.filter (fun t => s.inFrozen t n (s.mgv n) w) with
      | [] => s.mgInOrder who n w v
      | ts => ts.foldl (fun s t => s.tdispErr t 1 n) s

/-- Has a write to a register taken the effect that its rule states (R269, R283, R400)? -/
def State.mgDone (s : State) (n : Nat) (v : W64) : Bool :=
  if 0x0100 ≤ n && n < 0x0140 && n % 16 == 0 then (s.die ((n - 0x0100) / 16)).convert.isEmpty
  else if 0x0180 ≤ n && n < 0x01A0 then !s.ttabWaits ((n - 0x0180) / 2) (n % 2) (fldsMerge [anyF 47 0] 0 v)
  else true

/-- MGR (R400, R401, R443). -/
def execMgr (g : Guard) (d : BitVec 5) (reg : BitVec 16) (s : State) : Out :=
  s.issue g (fun c => c.pends d) (fun c =>
    let n := reg.toNat
    if c.det then s.raise s.cur (detOrder (.mgr g d reg))
    else if !s.mgReadable c.ten.toNat n then s.raise s.cur (sysOnly (.mgr g d reg))
    else if (mgFields n).isNone then s.raise s.cur ⟨0x1B, BitVec.ofNat 64 n, 0⟩
    else s.setCtx s.cur (c.setReg d (s.mgRead n)).advance)

/-- MGW (R400, R401): the word retires once the write has taken effect. -/
def execMgw (g : Guard) (d : BitVec 5) (reg : BitVec 16) (s : State) : Out :=
  s.issue g (fun c => c.cntLd != 0 || c.cntSt != 0) (fun c =>
    let n := reg.toNat
    let v := c.reg d
    if c.ten != 0 then s.raise s.cur (sysOnly (.mgw g d reg))
    else if (mgFields n).isNone then s.raise s.cur ⟨0x1B, BitVec.ofNat 64 n, 0⟩
    else
      let t := (s.waitFor s.cur (.mgw n v)).mgWrite s.cur n v
      if t.mgDone n v && (t.ctx s.cur).wait == some (.mgw n v) then t.retire s.cur id else t)

/-! ### Register rows: a write by the system partition or the host -/

/-- Has boot reached DONE, with power and link up (R460)? -/
def State.booted (s : State) : Bool := !s.off && s.link && bits (s.mgv 0x9001) 3 0 == 5

/-- A write of the host, which completes with Unsupported Request until boot is DONE (R460). -/
def State.hostMg (s : State) (n : Nat) (v : W64) : State := if s.booted then s.mgWrite hostId n v else s

/-- TTAB_WRITE: the hub's oldest request about a stack is this write, or none is older: the table is switched (R283, R422). -/
def execTtabWrite (stack h : Nat) (v : BitVec 64) (s : State) : Out :=
  if stack > 15 || h > 1 then .next s
  else match s.hubHead stack with
    | some (.ttab _ k w _ _) => if k == h && w == fldsMerge [anyF 47 0] 0 v then .next ((s.ttabApply stack h w).hubPop stack) else .next s
    | some (.hand _ _ _ _) => .next s
    | none =>
      let s' := s.hostMg (0x0180 + 2 * stack + h) v
      match s'.hubHead stack with
      | some (.ttab _ k w _ _) => .next ((s'.ttabApply stack k w).hubPop stack)
      | _ => .next s'

/-- TLOG_WRITE (R294). -/
def execTlogWrite (stack : Nat) (s : State) : Out := .next (if stack < 16 then s.hostMg (0x01A0 + stack) 0 else s)
/-- FWLOG_WRITE (R387). -/
def execFwlogWrite (s : State) : Out := .next (s.hostMg 0x09C2 0)
/-- EVLOST_WRITE (R410). -/
def execEvlostWrite (s : State) : Out := .next (s.hostMg 0x0A43 0)
/-- WDR_WRITE (R407, R410). -/
def execWdrWrite (y : Nat) (v : BitVec 64) (s : State) : Out := .next (if y < 16 then s.hostMg (0x7600 + y) v else s)
/-- L2REMW_WRITE (R269). -/
def execL2remwWrite (die : Nat) (v : BitVec 64) (s : State) : Out := .next (if die < 4 then s.hostMg (0x0100 + 16 * die) v else s)
/-- ASIDO_WRITE (R364, R387). -/
def execAsidoWrite (a : Nat) (v : BitVec 64) (s : State) : Out := .next (if a < 2048 then s.hostMg (0x1000 + a) v else s)
/-- LQCFG_WRITE (R367, R387). -/
def execLqcfgWrite (q : Nat) (v : BitVec 64) (s : State) : Out := .next (if q < 64 then s.hostMg (0x0880 + 4 * q) v else s)
/-- CEQ_WRITE (R346). -/
def execCeqWrite (core : CoreId) (n : Nat) (v : BitVec 64) (s : State) : Out :=
  .next (if core < numCores && n < 4 then s.hostMg (0xA000 + 8 * core + 2 * n) v else s)
/-- MLOGT_WRITE (R444, R448). -/
def execMlogtWrite (t : Nat) (v : BitVec 64) (s : State) : Out := .next (if t < 64 then s.hostMg (0x8121 + 2 * t) v else s)
/-- REGISTER_WRITE (R277, R400). -/
def execRegisterWrite (n : Nat) (v : BitVec 64) (s : State) : Out := .next (s.hostMg n v)

end Sys2Proof.Machine
end

