-- ==== Sys2Proof/Machine/Waits.lean ====
section
/-! DEFINITION. The end of waits and of a program, and the trap instructions (R18, R30 to R32, R398, R399). -/

namespace Sys2Proof.Machine

/-- END: the context issues no further word, and stays READY until END completes (R18, R32). -/
def execEndProg (g : Guard) (s : State) : Out := s.issue g (fun _ => false) (fun c => s.setCtx s.cur { c with wait := some .endProg })

/-- END_COMPLETE: the counters are zero, and the context enters STOPPED, or takes the oldest fault that no WAIT has covered (R32, R391). -/
def execEndComplete (c : CtxId) (s : State) : Out :=
  let x := s.ctx c
  if (x.st != .ready && x.st != .waiting) || x.wait != some .endProg || !x.raised.isEmpty || x.cntLd != 0 || x.cntSt != 0 || x.cntCp != 0 || x.cntTl != 0 then .next s
  else match x.cov with
    | f :: rest => .next ((s.setCtx c { x with cov := rest }).raise c f.trap)
    | [] => .next (((s.setCtx c { x with st := .stopped, wait := none, gated := false, stop := (0, 0) }).breakLease c).refreeze x.lease)

/-- TRET (R31, R390); a load whose configuration store still has the faulty word meets the error again (R136). -/
def execTret (g : Guard) (s : State) : Out :=
  s.issue g (fun _ => false) (fun c =>
    if c.active then
      let s' := s.setCtx s.cur { c with ipc := c.trapa, trapc := c.trapc &&& ~~~0x100#64, achInt := c.achInt.filter (fun e => e.1 == c.trapa), fab := c.fab.release, mn := c.mn.release }
      match c.cur.bad with
      | u :: _ => if c.cur.st == .running && !c.fab.stopped && c.fab.held then s'.fabFault s.cur (confTrap u) else s'
      | [] => s'
    else s.raise s.cur (wordTrap (.tret g) 0x01 0))

/-- TRAP (R398). -/
def execTrap (g : Guard) (code : BitVec 16) (s : State) : Out :=
  s.issue g (fun _ => false) (fun _ => s.raise s.cur (wordTrap (.trap g code) 0x1A code.toNat))

/-- YIELD: the context is skipped for the rest of the round, and marked where its lease is in a scheduler turn (R399). -/
def execYield (g : Guard) (s : State) : Out :=
  let turn := (s.leaseOf s.cur).any (·.turn)
  s.simple g (fun _ => false) (fun c => { c with skip := true, yielded := c.yielded || turn })

/-- TRAP_ENTRY (R30). -/
def execTrapEntry (c : CtxId) (s : State) : Out := .next (s.trapEntry c)

/-- WAIT_SATISFIED: the condition of a WAITING context holds, and its word retires, of a gated context when it is ungated (R297, R391) (R18, R88, R193, R202, R246, R258, R298, R305, R306, R310,
R348, R356, R359, R400, R422); the trap of a collective that has lost its tie (R132, R191, R203). An SQ.RECV that waits when the load ends of itself
retires as at a stop: DESIGN CHOICE (log 101). -/
def execWaitSatisfied (c : CtxId) (s : State) : Out :=
  let x := s.ctx c
  if x.st != .waiting || !x.raised.isEmpty || x.gated then .next s
  else match x.wait with
    | some (.counts all ld st cp tl) => if x.waitDone all ld st cp tl then .next (s.waitRetire c all ld st cp tl) else .next s
    | some (.cfgWait d) => if x.cur.st == .running then .next s else .next (s.retire c (fun x => x.setReg d (BitVec.ofNat 64 x.cur.endSt)))
    | some (.sqRecv d) =>
      if x.cur.st != .running || x.fab.stopped then .next (s.retire c (fun x => x.setReg d 0x300000000#64))
      else match x.recv d with
        | some y => .next ((s.setCtx c y).retire c id)
        | none => .next s
    | some (.achWait d cid) =>
      (match s.ownChain c cid with
       | some k => if k.st == 2 then .next (s.retire c (fun x => x.setReg d (chainWord (some k)))) else .next s
       | none => .next s)
    | some (.achWaitJ d slot) => if (x.join slot).out == 0 then .next (s.retire c (fun x => x.setReg d (slotWord (x.join slot)))) else .next s
    | some (.bankMode d k m rb rs) =>
      if s.bankBusy c k then .next s
      else
        let old := ((x.bank? k).map (·.mode.code)).getD 0
        .next ((s.setMode c k m rb rs).retire c (fun x => x.setReg d (BitVec.ofNat 64 old)))
    | some (.fence scope) => if s.fenceDone c scope then .next (s.retire c (fun x => x.acquire scope)) else .next s
    | some (.cntMem d _ _ (some v)) => .next (s.retire c (fun x => (x.setReg d v).acquire 3))
    | some (.tlb sel asid va page) => if s.tlbBusy sel asid page then .next s else .next ((s.retire c (fun x => x.acquire 3)).releaseEvent sel asid va)
    | some (.cqSub d claim) =>
      (match x.fetch with
       | .ok i => .next (s.cqWait c i d claim)
       | .error _ => .next s)
    | some (.task d kill) => .next (s.taskWait c d kill)
    | some (.mgw n v) => if s.mgDone n v then .next (s.retire c id) else .next s
    | some (.handStk st n) => if s.hubQ.any (fun r => match r with | .hand a b k _ => a == st && b == n && k == c | _ => false) then .next s else .next (s.retire c id)
    | _ =>
      match s.tieLost c with
      | some (l, t) => .next ((s.putLease (s.lidOf c) l).raise c t)
      | none => .next s

end Sys2Proof.Machine
end

