-- ==== Sys2Proof/Machine/Faults.lean ====
section
/-! DEFINITION. Detected errors: links, queues, stored words and UCIe modules (R24, R136, R403 to R408, R415, R419). -/

namespace Sys2Proof.Machine

/-! ### Withdrawal (R407) -/

/-- A core is withdrawn: its bit of WDR is set, and Ostler's map with it, so that refused marks are cleared (R369). Its live contexts run on. -/
def State.withdrawCore (s : State) (k : CoreId) : State :=
  let n := 0x7600 + coreY k
  (s.setMg n (s.mgv n ||| (1#64 <<< coreX k))).mapChanged

/-- Event 4 for a core (R404 to R406, R409). -/
def State.lasting (s : State) (ten : Nat) (k : CoreId) (bank : Nat) (info : W64) : State := s.event 4 ten 0 0 0 k bank info

/-- Event 4 for a context: its tenant, lease, core and bank are named (R404, R406, R409). -/
def State.lastingCtx (s : State) (c : CtxId) (info : W64) : State := s.event 4 (s.ctx c).ten.toNat (s.ctx c).lease 0 0 (coreOf c) (c % 4) info

/-- Event 4 for a bank of the scratchpad: the context that holds the bank is named, if one does (R404, R409). -/
def State.lastingBank (s : State) (k : CoreId) (bank : Nat) (info : W64) : State :=
  match ((List.range 4).map (4 * k + ·)).find? (fun c => (s.ctx c).banks.any (fun b => b.bank == bank)) with
  | some c => s.lastingCtx c info
  | none => s.lasting 0 k 0 info

/-- A saturating count in bits [hi:lo] of a management register raised by one (R410). -/
def State.countUp (s : State) (n hi lo : Nat) : State :=
  let v := s.mgv n
  s.setMg n (setBits v hi lo (min (2 ^ (hi + 1 - lo) - 1) (bits v hi lo + 1)))

/-- A single-bit error of bank i of a core, corrected and counted in CE (R24, R403, R410). -/
def State.corrected (s : State) (k : CoreId) (i : Nat) : State :=
  if k < numCores && i < 32 && !s.off then s.countUp (0x4000 + 32 * k + i) 31 0 else s

/-! ### Links (R405, R419) -/

/-- The core beyond a side (0 N, 1 E, 2 S, 3 W), if the package has one. -/
def besideCore (k : CoreId) (side : Nat) : Option CoreId :=
  if side == 0 then (if coreY k == 0 then none else some (k - 20))
  else if side == 1 then (if coreX k == 19 then none else some (k + 1))
  else if side == 2 then (if coreY k == 15 then none else some (k + 20))
  else if side == 3 then (if coreX k == 0 then none else some (k - 1))
  else none

/-- A link is lasting-failed from now on, at both of its ends. -/
def State.kill (s : State) (k j : CoreId) (side : Nat) (mesh : Bool) (src : Nat) : State :=
  let add (l : List DeadLink) (d : DeadLink) : List DeadLink := if l.any (fun e => e.core == d.core && e.side == d.side && e.mesh == d.mesh) then l else l ++ [d]
  { s with dead := add (add s.dead ⟨k, side, mesh, src⟩) ⟨j, oppSide side, mesh, src⟩ }

/-- Flits whose next link is a given link from a given end. -/
def State.flitsOver (s : State) (k : CoreId) (side : Nat) : List Flit :=
  s.flits.filter (fun f => f.at_ == k && (nextLink k f.dst).any (fun e => e.1 == side))

/-- The requests whose flits stand before a link that has failed complete with HW_ERROR. -/
def State.failFlits (s : State) (k : CoreId) (side src : Nat) : State :=
  (s.flitsOver k side).foldl (fun s f =>
    match s.dreqs.find? (fun r => r.id == f.req) with
    | some r => s.reqLost r src
    | none => { s with flits := s.flits.filter (fun g => g.req != f.req) }) s

/-- The messages on the accumulate network whose route needs a failed link complete with HW_ERROR. -/
def State.failAcn (s : State) : State :=
  let lost := s.acnMsgs.filterMap (fun m => (s.deadOn false 40 m.fr m.dest).map (fun src => (m.body, src)))
  let s := { s with acnMsgs := s.acnMsgs.filter (fun m => (s.deadOn false 40 m.fr m.dest).isNone) }
  lost.foldl (fun s e => s.acnLost e.1 e.2) s

/-- FLIT_CRC_RETRY: a flit, or a beat of a cross-core or ACN link, has failed its CRC and been resent: the copy is good, or the link fails (R405). -/
def execFlitCrcRetry (core : CoreId) (side : Nat) (acn good : Bool) (s : State) : Out :=
  match besideCore core side with
  | none => .next s
  | some j =>
    let n := 0x6800 + 8 * core + side
    if core ≥ numCores || s.off then .next s
    else if good then .next (s.countUp n 31 0)
    else
      let s := (s.setMg n (setBits (s.mgv n) 32 32 1)).kill core j side (!acn) (if acn then 3 else 2)
      let first := ((s.flitsOver core side).head?).bind (fun f => s.dreqs.find? (fun r => r.id == f.req))
      let (v, s) := match first with
        | some r => if acn then s.freeAddr else (BitVec.ofNat 64 r.va, s)
        | none => s.freeAddr
      let s := s.lasting (match first with | some r => if acn then 0 else r.ten | none => 0) core 0 v
      let s := (s.withdrawCore core).withdrawCore j
      .next (if acn then s.failAcn else (s.failFlits core side 2).failFlits j (oppSide side) 2)

/-- The links that cross a seam, as cores and sides of their north or west ends: 0 CD0–CD1, 1 CD2–CD3, 2 CD0–CD2, 3 CD1–CD3 (R415). -/
def seamLinks (seam : Nat) : List (CoreId × Nat) :=
  if seam < 2 then (List.range 8).map (fun i => (coreAt 9 (8 * seam + i), 1))
  else (List.range 10).map (fun i => (coreAt (10 * (seam - 2) + i) 7, 2))

/-- UCIE_MODULE_FAIL: a module of a seam is taken out of service; with the last of its sixteen the seam fails (R415, R419). -/
def execUcieModuleFail (seam : Nat) (s : State) : Out :=
  let n := (s.ucie.get? seam).getD 0
  if seam ≥ 4 || n ≥ 16 || s.off then .next s
  else
    let (v, s) := { s with ucie := s.ucie.set seam (n + 1) }.freeAddr
    let s := s.lasting 0 0 0 v
    if n + 1 < 16 then .next s
    else
      let ends := (seamLinks seam).filterMap (fun e => (besideCore e.1 e.2).map (fun j => (e.1, e.2, j)))
      let s := ends.foldl (fun s e => (s.kill e.1 e.2.2 e.2.1 true 3).kill e.1 e.2.2 e.2.1 false 3) s
      let s := ends.foldl (fun s e => (s.withdrawCore e.1).withdrawCore e.2.2) s
      let s := ends.foldl (fun s e => (s.failFlits e.1 e.2.1 3).failFlits e.2.2 (oppSide e.2.1) 3) s
      .next s.failAcn

/-! ### Queues and stored words (R404, R406) -/

/-- The unit of a queue or buffer (R135 Table 4). -/
def bufUnit : Buf → Nat
  | .queue n _ _ => unitCell n
  | .port p _ => (BrEnd.port p).unit
  | .box k _ _ _ _ => 0x400 + k

/-- The entries of a partition without entry i; the credit of a packet that loses its last element goes with the element before it. -/
def loseItem (l : List QItem) (i : Nat) : List QItem :=
  match l[i]? with
  | some (.el _ true) => (l.take i).dropLast ++ (match (l.take i).getLast? with
      | some (.el v _) => [.el v true]
      | some m => [m]
      | none => []) ++ l.drop (i + 1)
  | _ => l.take i ++ l.drop (i + 1)

/-- A load without the element that an entry holds, if it holds one. -/
def Fab.lose (f : Fab) : Buf → Option Fab
  | .queue n q i => ((f.sink? (.queue n q)).bind (fun p => p.items[i]?)).map (fun _ => f.updSink (.queue n q) (fun p => { p with items := loseItem p.items i }))
  | .port p i => ((f.sink? (.port p)).bind (fun k => k.items[i]?)).map (fun _ => f.updSink (.port p) (fun k => { k with items := loseItem k.items i }))
  | .box _ g b n i =>
    (((f.segs[g]?).bind (fun e => e.branches[b]?)).bind (fun e => (e.fly[n]?).bind (fun p => p.els[i]?))).map (fun _ =>
      f.updBranch g b (fun e => { e with fly := modAt (fun p => { p with els := p.els.eraseIdx i }) e.fly n }))

/-- A loss in the ce.cmd store leaves one copy command fewer when its last sixteen elements are short of one (R180, R327). -/
def State.cmdLost (s : State) (c : CtxId) : Buf → State
  | .port 53 _ =>
    let have_ := (((s.ctx c).fab.sink? (.port 53)).map (fun p => p.items.countP (fun i => match i with | .el _ _ => true | .marker _ => false))).getD 0 / 16
    let mine (e : CeCmd) : Bool := e.ctx == c && e.cell.isNone
    s.updCore (coreOf c) (fun k =>
      if k.ceCmds.countP mine ≤ have_ then k else { k with ceCmds := (k.ceCmds.reverse.eraseP mine).reverse })
  | _ => s

/-- QUEUE_PARITY_ERROR: a parity error in a queue or buffer of a context's load: the element is lost, the lease's load stops as CFG.STOP would, with e
the next cycle, and the context takes HW_ERROR, source 1; a lasting error withdraws the core (R194, R406). -/
def execQueueParityError (c : CtxId) (buf : Buf) (lasting : Bool) (s : State) : Out :=
  let x := s.ctx c
  if x.cur.st != .running || x.fab.stopped || s.off then .next s
  else match x.fab.lose buf with
    | none => .next s
    | some f =>
      let s := (s.updCtx c (fun x => { x with fab := f })).cmdLost c buf
      let unit := BitVec.ofNat 64 (bufUnit buf)
      let l := s.leaseFor c
      let e := s.time + 1
      let s := s.putLease (s.lidOf c) { l with stopAt := some (match l.stopAt with | some t => min t e | none => e) }
      let s := s.raise c (hwTrap 1 unit)
      .next (if lasting then (s.lastingCtx c unit).withdrawCore (coreOf c) else s)

/-- The word of device memory that holds an address raises ECC_UNCORR from now on. -/
def State.poisonWord (s : State) (pa : Nat) : State :=
  let a := memKey pa / 8 * 8
  { s with hbmPoison := if s.hbmPoison.contains a then s.hbmPoison else a :: s.hbmPoison }

/-- ECC_DOUBLE_RETRY: a word with a double-bit error is read again. A clean copy, or a word that passes its test, is a transient error, counted for
a bank; a word that was not clean raises ECC_UNCORR at every read until it is replaced; a lasting error withdraws its core, or for HBM is only
reported (R24, R136, R279, R404, R407). No rule names an access that takes ECC_UNCORR for an entry of a sink table, and none gives it an address:
a lasting error of one withdraws its core and reports a free address: DESIGN CHOICE (log 130). -/
def execEccDoubleRetry (w : EccWord) (clean lasting : Bool) (s : State) : Out :=
  if s.off then .next s
  else match w with
  | .sink core _ =>
    if clean || !lasting || core ≥ numCores then .next s
    else
      let (v, s) := s.freeAddr
      .next ((s.lasting 0 core 0 v).withdrawCore core)
  | .bank core addr =>
    if core ≥ numCores || addr ≥ 2 ^ 22 then .next s
    else
      let a := addr / 8 * 8
      let s := if clean then s else s.updCore core (fun k => { k with poison := if k.poison.contains a then k.poison else a :: k.poison })
      if clean || !lasting then .next (s.countUp (0x4000 + 32 * core + addr / 2 ^ 17) 47 32)
      else .next ((s.lastingBank core (addr / 2 ^ 17) (BitVec.ofNat 64 a)).withdrawCore core)
  | .text c off =>
    let x := s.ctx c
    if clean || off ≥ x.ilen then .next s
    else
      let a := off / 8 * 8
      let s := s.setCtx c { x with ipoison := if x.ipoison.contains a then x.ipoison else a :: x.ipoison }
      if lasting then .next ((s.lastingCtx c (BitVec.ofNat 64 a)).withdrawCore (coreOf c)) else .next s
  | .conf c unit =>
    let x := s.ctx c
    if clean || x.cur.st != .running || x.fab.stopped || !confUnit unit then .next s
    else
      let s := (s.setCtx c { x with cur := { x.cur with bad := unit :: x.cur.bad } }).fabFault c (confTrap unit)
      if lasting then .next ((s.lastingCtx c (BitVec.ofNat 64 unit)).withdrawCore (coreOf c)) else .next s
  | .l2 pa =>
    if clean || !s.isLocal pa then .next s
    else
      let s := s.poisonWord pa
      if lasting then .next ((s.lasting (s.ownerTen pa) (s.homeCore pa) 0 (BitVec.ofNat 64 pa)).withdrawCore (s.homeCore pa)) else .next s
  | .hbm pa =>
    if clean || !s.isLocal pa then .next s
    else
      let s := s.poisonWord pa
      if lasting then .next (s.lasting (s.ownerTen pa) 0 0 (BitVec.ofNat 64 pa)) else .next s

end Sys2Proof.Machine
end

