-- ==== Sys2Proof/Machine/Sha.lean ====
section
/-! DEFINITION. SHA-512 (R437, R438, R456) and the verification of an Ed25519 signature (R438). The spec names the two and states neither: both are
PRESUMED from their published standards, FIPS 180-4 and RFC 8032 (log 135). -/

namespace Sys2Proof.Machine

/-! ### SHA-512 -/

/-- The eight working words. -/
structure Sha where
  a : BitVec 64
  b : BitVec 64
  c : BitVec 64
  d : BitVec 64
  e : BitVec 64
  f : BitVec 64
  g : BitVec 64
  h : BitVec 64
  deriving DecidableEq, Repr

/-- Round constants 0 to 19: the first 64 bits of the fractions of the cube roots of the primes. -/
def shaK0 : List (BitVec 64) :=
  [0x428a2f98d728ae22, 0x7137449123ef65cd, 0xb5c0fbcfec4d3b2f, 0xe9b5dba58189dbbc, 0x3956c25bf348b538,
   0x59f111f1b605d019, 0x923f82a4af194f9b, 0xab1c5ed5da6d8118, 0xd807aa98a3030242, 0x12835b0145706fbe,
   0x243185be4ee4b28c, 0x550c7dc3d5ffb4e2, 0x72be5d74f27b896f, 0x80deb1fe3b1696b1, 0x9bdc06a725c71235,
   0xc19bf174cf692694, 0xe49b69c19ef14ad2, 0xefbe4786384f25e3, 0x0fc19dc68b8cd5b5, 0x240ca1cc77ac9c65]

/-- Round constants 20 to 39: the first 64 bits of the fractions of the cube roots of the primes. -/
def shaK1 : List (BitVec 64) :=
  [0x2de92c6f592b0275, 0x4a7484aa6ea6e483, 0x5cb0a9dcbd41fbd4, 0x76f988da831153b5, 0x983e5152ee66dfab,
   0xa831c66d2db43210, 0xb00327c898fb213f, 0xbf597fc7beef0ee4, 0xc6e00bf33da88fc2, 0xd5a79147930aa725,
   0x06ca6351e003826f, 0x142929670a0e6e70, 0x27b70a8546d22ffc, 0x2e1b21385c26c926, 0x4d2c6dfc5ac42aed,
   0x53380d139d95b3df, 0x650a73548baf63de, 0x766a0abb3c77b2a8, 0x81c2c92e47edaee6, 0x92722c851482353b]

/-- Round constants 40 to 59: the first 64 bits of the fractions of the cube roots of the primes. -/
def shaK2 : List (BitVec 64) :=
  [0xa2bfe8a14cf10364, 0xa81a664bbc423001, 0xc24b8b70d0f89791, 0xc76c51a30654be30, 0xd192e819d6ef5218,
   0xd69906245565a910, 0xf40e35855771202a, 0x106aa07032bbd1b8, 0x19a4c116b8d2d0c8, 0x1e376c085141ab53,
   0x2748774cdf8eeb99, 0x34b0bcb5e19b48a8, 0x391c0cb3c5c95a63, 0x4ed8aa4ae3418acb, 0x5b9cca4f7763e373,
   0x682e6ff3d6b2b8a3, 0x748f82ee5defb2fc, 0x78a5636f43172f60, 0x84c87814a1f0ab72, 0x8cc702081a6439ec]

/-- Round constants 60 to 79: the first 64 bits of the fractions of the cube roots of the primes. -/
def shaK3 : List (BitVec 64) :=
  [0x90befffa23631e28, 0xa4506cebde82bde9, 0xbef9a3f7b2c67915, 0xc67178f2e372532b, 0xca273eceea26619c,
   0xd186b8c721c0c207, 0xeada7dd6cde0eb1e, 0xf57d4f7fee6ed178, 0x06f067aa72176fba, 0x0a637dc5a2c898a6,
   0x113f9804bef90dae, 0x1b710b35131c471b, 0x28db77f523047d84, 0x32caab7b40c72493, 0x3c9ebe0a15c9bebc,
   0x431d67c49c100d4c, 0x4cc5d4becb3e42b6, 0x597f299cfc657e2a, 0x5fcb6fab3ad6faec, 0x6c44198c4a475817]

/-- Initial words: the first 64 bits of the fractions of the square roots of the first eight primes. -/
def shaInit : Sha :=
  ⟨0x6a09e667f3bcc908, 0xbb67ae8584caa73b, 0x3c6ef372fe94f82b, 0xa54ff53a5f1d36f1,
   0x510e527fade682d1, 0x9b05688c2b3e6c1f, 0x1f83d9abfb41bd6b, 0x5be0cd19137e2179⟩

/-- One round with k the sum of the round's constant and message word. -/
def Sha.round (v : Sha) (k : BitVec 64) : Sha :=
  let s1 := v.e.rotateRight 14 ^^^ v.e.rotateRight 18 ^^^ v.e.rotateRight 41
  let s0 := v.a.rotateRight 28 ^^^ v.a.rotateRight 34 ^^^ v.a.rotateRight 39
  let t1 := v.h + s1 + ((v.e &&& v.f) ^^^ (~~~v.e &&& v.g)) + k
  let t2 := s0 + ((v.a &&& v.b) ^^^ (v.a &&& v.c) ^^^ (v.b &&& v.c))
  ⟨t1 + t2, v.a, v.b, v.c, v.d + t1, v.e, v.f, v.g⟩

/-- The rounds of a block over a window of sixteen message words. -/
def shaRounds : List (BitVec 64) → List (BitVec 64) → Sha → Sha
  | [], _, v => v
  | k :: t, w, v =>
    let w1 := w.getD 1 0
    let w14 := w.getD 14 0
    let next := w.getD 0 0 + (w1.rotateRight 1 ^^^ w1.rotateRight 8 ^^^ w1 >>> 7) + w.getD 9 0 + (w14.rotateRight 19 ^^^ w14.rotateRight 61 ^^^ w14 >>> 6)
    shaRounds t (w.drop 1 ++ [next]) (v.round (k + w.getD 0 0))

/-- The number whose bytes are listed from the most significant on. -/
def beNat (l : List Byte) : Nat := l.foldl (fun n b => 256 * n + b.toNat) 0

/-- A block of 128 bytes taken in. -/
def Sha.block (v : Sha) (l : List Byte) : Sha :=
  let r := shaRounds (shaK0 ++ shaK1 ++ shaK2 ++ shaK3) ((List.range 16).map (fun i => BitVec.ofNat 64 (beNat ((l.drop (8 * i)).take 8)))) v
  ⟨v.a + r.a, v.b + r.b, v.c + r.c, v.d + r.d, v.e + r.e, v.f + r.f, v.g + r.g, v.h + r.h⟩

/-- n blocks taken in. -/
def Sha.blocks : Nat → List Byte → Sha → Sha
  | 0, _, v => v
  | n + 1, l, v => Sha.blocks n (l.drop 128) (v.block (l.take 128))

/-- A message padded to whole blocks. -/
def shaPad (l : List Byte) : List Byte :=
  l ++ [0x80#8] ++ List.replicate ((239 - l.length % 128) % 128) 0#8 ++ (List.range 16).map (fun i => BitVec.ofNat 8 (8 * l.length / 256 ^ (15 - i)))

/-- SHA-512: the digest with its first byte in the highest place. -/
def sha512 (l : List Byte) : BitVec 512 :=
  let p := shaPad l
  let v := Sha.blocks (p.length / 128) p shaInit
  v.a ++ v.b ++ v.c ++ v.d ++ v.e ++ v.f ++ v.g ++ v.h

/-- A digest's bytes in order. -/
def digestBytes (d : BitVec 512) : List Byte := (List.range 64).map (fun i => BitVec.ofNat 8 (d.toNat / 256 ^ (63 - i)))

/-! ### Ed25519 -/

/-- The prime of the field. -/
def edP : Nat := 2 ^ 255 - 19
/-- The order of the base point. -/
def edL : Nat := 2 ^ 252 + 27742317777372353535851937790883648493

/-- x to the power e modulo the prime; the fuel is the number of bits of e. -/
def edPow : Nat → Nat → Nat → Nat
  | 0, _, _ => 1
  | n + 1, x, e => let y := edPow n (x * x % edP) (e / 2); if e % 2 == 1 then y * x % edP else y

/-- The inverse of a field element. -/
def edInv (x : Nat) : Nat := edPow 256 x (edP - 2)
/-- The constant of the curve. -/
def edD : Nat := 37095705934669439343138083508754565189542113879843219016388785533085940283555

/-- A point in extended coordinates. -/
structure EdPt where
  x : Nat
  y : Nat
  z : Nat
  t : Nat
  deriving DecidableEq, Repr

/-- The sum of two points. -/
def EdPt.add (p q : EdPt) : EdPt :=
  let a := (p.y + edP - p.x) * (q.y + edP - q.x) % edP
  let b := (p.y + p.x) * (q.y + q.x) % edP
  let c := 2 * p.t * q.t * edD % edP
  let d := 2 * p.z * q.z % edP
  let e := b + edP - a
  let f := d + edP - c
  let g := d + c
  let h := b + a
  ⟨e * f % edP, g * h % edP, f * g % edP, e * h % edP⟩

/-- k times a point; the fuel is the number of bits of k. -/
def EdPt.mul : Nat → Nat → EdPt → EdPt
  | 0, _, _ => ⟨0, 1, 1, 0⟩
  | n + 1, k, p => let q := EdPt.mul n (k / 2) (p.add p); if k % 2 == 1 then q.add p else q

/-- Are two points equal? -/
def EdPt.same (p q : EdPt) : Bool := p.x * q.z % edP == q.x * p.z % edP && p.y * q.z % edP == q.y * p.z % edP

/-- The number whose bytes are listed from the least significant on. -/
def leNat (l : List Byte) : Nat := l.foldr (fun b n => b.toNat + 256 * n) 0

/-- A point from its 32 bytes. -/
def edPoint (l : List Byte) : Option EdPt :=
  let n := leNat l
  let y := n % 2 ^ 255
  let u := (y * y + edP - 1) % edP
  let v := (edD * y * y + 1) % edP
  let xx := u * edInv v % edP
  let r := edPow 256 xx ((edP + 3) / 8)
  let r := if r * r % edP == xx then r else r * edPow 256 2 ((edP - 1) / 4) % edP
  if l.length != 32 || y ≥ edP || r * r % edP != xx || (r == 0 && n / 2 ^ 255 == 1) then none
  else
    let x := if r % 2 == n / 2 ^ 255 then r else edP - r
    some ⟨x, y, 1, x * y % edP⟩

/-- The base point. -/
def edBase : EdPt :=
  let x := 15112221349535400772501151409588531511454012693041857206046113283949847762202
  let y := 46316835694926478169428394003475163141307993866256225615783033603165251855960
  ⟨x, y, 1, x * y % edP⟩

/-- Does a signature of a message verify under a public key? -/
def edVerify (key msg sig : List Byte) : Bool :=
  match edPoint key, edPoint (sig.take 32) with
  | some a, some r =>
    let s := leNat (sig.drop 32)
    let h := leNat (digestBytes (sha512 (sig.take 32 ++ key ++ msg))) % edL
    sig.length == 64 && s < edL && (EdPt.mul 256 s edBase).same (r.add (EdPt.mul 256 h a))
  | _, _ => false

end Sys2Proof.Machine
end

