-- ==== Sys2Proof/Machine/Host.lean ====
section
/-! DEFINITION. The package's edge: the PCIe functions and their windows, interrupts, VF Enable, SPDM, TDISP, and Jexlink (R425 to R445, R455,
R456, R460). -/

namespace Sys2Proof.Machine

/-! ### Replies, budgets and interrupts (R430, R431, R433) -/

/-- The package answers. -/
def State.answered (s : State) (r : Reply) : State := { s with reply := r }

/-- Does tenant t's budget k of TBUD allow n more in this interval? k: 0 HR, 1 HW, 2 HX, 3 JR, 4 JW, 5 JX; bytes for reads and writes (R430). -/
def State.canSpend (s : State) (t k n : Nat) : Bool :=
  let b := bits (s.mgv (0x8060 + t)) (10 * k + 9) (10 * k)
  b == 0 || ((s.spent.get? (8 * t + k)).getD 0) + n ≤ (if k % 3 == 2 then b else 4096 * b)
/-- A budget used. -/
def State.spend (s : State) (t k n : Nat) : State :=
  if n == 0 then s else { s with spent := s.spent.set (8 * t + k) (((s.spent.get? (8 * t + k)).getD 0) + n) }

/-- Of a budget's group, the requests that tenant t makes through the host link (k below 3) or through Jexlink (R430). -/
def BudReq.group (r : BudReq) : Nat × Nat := (r.key / 8, r.key % 8 / 3)

/-- May a request be looked at: is none of its tenant's that came in the same way waiting before it (R430)? -/
def State.inBudget (s : State) (r : BudReq) : Bool := (s.budgetQ.find? (fun q => q.group == r.group)).all (· == r)

/-- A request waits for its budget, or behind others of its tenant that do (R430). -/
def State.awaitBudget (s : State) (r : BudReq) : State := if s.budgetQ.contains r then s else { s with budgetQ := s.budgetQ ++ [r] }

/-- A request no longer waits. -/
def State.leaveBudget (s : State) (r : BudReq) : State := { s with budgetQ := s.budgetQ.erase r }

/-- Vector vec of function f. -/
def State.vector (s : State) (f vec : Nat) : MsixVec :=
  (s.msix.get? (64 * f + vec)).getD { masked := true, pba := false, pending := 0, since := 0, addr := 0, data := 0 }
/-- Vector vec of function f changed. -/
def State.setVector (s : State) (f vec : Nat) (m : MsixVec) : State := { s with msix := s.msix.set (64 * f + vec) m }

/-- A byte of a VF's configuration space. -/
def State.cfgByte (s : State) (t off : Nat) : Byte := (s.vfCfg.get? (4096 * t + off)).getD (Config.vfConfig t off)

/-- MSI-X Enable of a function, in bit 7 of the second byte of its Message Control: PRESUMED from PCIe (log 136). Function 0's own is not modelled and
stands at 1. -/
def State.msixOn (s : State) (f : Nat) : Bool := f == 0 || (s.cfgByte f (Config.msixCap f + 3)).getLsbD 7
/-- Function Mask of a function, in bit 6 of the same byte (log 136). -/
def State.msixMask (s : State) (f : Nat) : Bool := f != 0 && (s.cfgByte f (Config.msixCap f + 3)).getLsbD 6

/-- Does function f send no interrupt: MSI-X off, or its interface in ERROR (R433, R440)? -/
def State.msixQuiet (s : State) (f : Nat) : Bool := !s.booted || !s.msixOn f || s.tds f == 3

/-- Has a vector an interrupt to send: NMAX records, or TMAX µs since the first (R385, R433)? -/
def State.msixDue (s : State) (f : Nat) (m : MsixVec) : Bool :=
  let c := s.mgv (0x8220 + f)
  m.pending != 0 && (m.pending ≥ bits c 7 0 || s.micros - m.since ≥ (bits c 31 16 : Nat))

/-- MSIX_INTERRUPT: coalescing has come to an end: the interrupt is sent, or becomes the Pending Bit of a vector that is masked, itself or with its
function; a Pending Bit of a vector that no mask holds any more is sent. None is sent for an interface in ERROR, nor with MSI-X off (R433, R440). -/
def execMsixInterrupt (f vec : Nat) (s : State) : Out :=
  let m := s.vector f vec
  let held := m.masked || s.msixMask f
  if f > 63 || vec > 63 || s.msixQuiet f then .next s
  else if s.msixDue f m then
    (if held then .next (s.setVector f vec { m with pending := 0, pba := true })
     else .next ((s.setVector f vec { m with pending := 0 }).answered (.msix f vec)))
  else if m.pba && !held then .next ((s.setVector f vec { m with pba := false }).answered (.msix f vec))
  else .next s

/-- A vector unmasked: a set Pending Bit is sent, where nothing else holds it (R433). -/
def State.unmask (s : State) (f vec : Nat) : State :=
  let m := s.vector f vec
  let go := m.pba && !s.msixQuiet f && !s.msixMask f
  let s := s.setVector f vec { m with masked := false, pba := m.pba && !go }
  if go then s.answered (.msix f vec) else s

/-- MSIX_VECTOR_UNMASK (R433); before DONE the access is refused (R460). -/
def execMsixVectorUnmask (f vec : Nat) (s : State) : Out := .next (if f > 63 || vec > 63 || !s.booted then s else s.unmask f vec)

/-! ### Windows (R431, R432, R440) -/

/-- A request refused by a VF's interface, and counted (R440). -/
def State.tdiRefuse (s : State) (f : Nat) : State :=
  let d := (s.tdis.get? f).getD { stream := 0, digest := 0, refused := 0, stopping := false }
  { s with tdis := s.tdis.set f { d with refused := d.refused + 1 } }.answered .unsupported

/-- Does function f take a request on its windows? none: it does; else the state with the answer. tbit is the IDE stream that carries the T bit, if the
request has one; an interface that is locked or runs takes only those of its bound stream (R431, R440, R460). -/
def State.window (s : State) (f : Nat) (tbit : Option Nat) : Option State :=
  if s.off || !s.link then some (s.answered .none)
  else if !s.booted || f > 63 || (f != 0 && !s.vfs.contains f) then some (s.answered .unsupported)
  else if f == 0 then none
  else if s.tds f == 3 then some (s.answered .unsupported)
  else if tbit != (if s.tds f == 0 then none else (s.tdis.get? f).map (·.stream)) then some (s.tdiRefuse f)
  else none

/-- What an aperture access finds: an answer, a wait, or its place (R432). -/
inductive Aper
  | out (s : State)
  | hold (s : State)
  | go (pa va asid : Nat) (s : State)

/-- The checks and the translation of an aperture access of n bytes (R289, R292, R430 to R432, R440, R444, R445). -/
def State.aperture (s : State) (f off n : Nat) (write : Bool) (tbit : Option Nat) (need : Need) : Aper :=
  let r : BudReq := ⟨8 * f + (if write then 1 else 0), off, n⟩
  match s.window f tbit with
  | some t => .out (t.leaveBudget r)
  | none =>
    let a := s.mgv (0x82A0 + f)
    let asid := bits a 10 0
    let va := bits a 55 22 * 2 ^ 22 + off
    if !a.getLsbD 63 || n == 0 || off + n > 2 ^ 22 || off / 4096 != (off + n - 1) / 4096 || !s.asidOk asid f then .out ((s.leaveBudget r).answered .unsupported)
    else if (s.mgv (0x80A0 + f)).getLsbD 1 || (write && s.mlogShort f (mlogCount n)) then .hold s
    else
      let walks := if (s.die 0).stlb.any (·.covers asid va) then 0 else 1
      let k := if write then 1 else 0
      if !s.inBudget r || !s.canSpend f k n || !s.canSpend f 2 walks then .hold (s.awaitBudget r)
      else match s.hubAt (300 + f) asid f va n need with
        | .hold s => .hold s
        | .fault s _ => .out ((s.leaveBudget r).answered .abort)
        | .ok pa => .go pa va asid ((((s.leaveBudget r).spend f k n).spend f 2 walks).hubUse asid va pa n write)

/-- Log records of bytes that enter through a window or from a peer, one for each 64 bytes (R444). -/
def State.mlogBytes (s : State) (t kind : Nat) : Nat → Nat → List Byte → State
  | 0, _, _ => s
  | k + 1, at_, bs => if bs.isEmpty then s else (s.mlog t kind 0 at_ (bs.take 64)).mlogBytes t kind k (at_ + 64) (bs.drop 64)

/-- APERTURE_READ (R432). -/
def execApertureRead (f off len : Nat) (tbit : Option Nat) (s : State) : Out :=
  match s.aperture f off len false tbit ⟨true, false⟩ with
  | .out s => .next s
  | .hold s => .next s
  | .go pa _ _ s => .next (s.answered (.data (s.devBytes pa len)))

/-- APERTURE_WRITE (R432, R444). -/
def execApertureWrite (f off : Nat) (bytes : List Byte) (tbit : Option Nat) (s : State) : Out :=
  match s.aperture f off bytes.length true tbit ⟨false, true⟩ with
  | .out s => .next s
  | .hold s => .next s
  | .go pa va _ s => .next (((s.devWrite pa bytes).mlogBytes f 2 (mlogCount bytes.length) va bytes).answered .none)

/-- An AtomicOp on 64 bits of a local address: the state after it and the old value (R302, R303). -/
def State.atomic (s : State) (op : AmoOp) (n pa : Nat) (v x : W64) : State × Nat :=
  let old := ofBytes (s.devBytes pa n)
  let v := v.toNat % 2 ^ (8 * n)
  (if op == .cas && old != v then s.dropCopies (lineOf pa) else s.devWrite pa (toBytes n (amoNew op n old v x.toNat)), old)

/-- An AtomicOp through the aperture (R432, R444). -/
def State.apertureAtomic (s : State) (f off : Nat) (op : AmoOp) (v x : W64) (tbit : Option Nat) : State :=
  if off % 8 != 0 then (match s.window f tbit with | some t => t | none => s.answered .abort)
  else match s.aperture f off 8 true tbit ⟨true, true⟩ with
    | .out s => s
    | .hold s => s
    | .go pa va _ s =>
      let (t, old) := s.atomic op 8 pa v x
      (t.mlogBytes f 2 1 va (t.devBytes pa 8)).answered (.data (toBytes 8 old))

/-- APERTURE_FETCHADD (R432). -/
def execApertureFetchadd (f off : Nat) (v : BitVec 64) (tbit : Option Nat) (s : State) : Out := .next (s.apertureAtomic f off .add v 0 tbit)
/-- APERTURE_SWAP (R432). -/
def execApertureSwap (f off : Nat) (v : BitVec 64) (tbit : Option Nat) (s : State) : Out := .next (s.apertureAtomic f off .swap v 0 tbit)
/-- APERTURE_CAS (R432). -/
def execApertureCas (f off : Nat) (expect v : BitVec 64) (tbit : Option Nat) (s : State) : Out := .next (s.apertureAtomic f off .cas expect v tbit)

/-- An access of 8 bytes to a function's MSI-X table at base, or to its pending bits at pba; none: the offset lies in neither (R431, R433). -/
def State.msixAccess (s : State) (f off base pba : Nat) (wr : Option W64) : Option State :=
  if off == pba then
    match wr with
    | some _ => some (s.answered .none)
    | none => some (s.answered (.data (toBytes 8 ((List.range 64).foldl (fun a v => a + (if (s.vector f v).pba then 2 ^ v else 0)) 0))))
  else if base ≤ off && off < base + 1024 then
    let vec := (off - base) / 16
    let m := s.vector f vec
    match wr, (off - base) % 16 == 0 with
    | none, true => some (s.answered (.data (toBytes 8 m.addr.toNat)))
    | none, false => some (s.answered (.data (toBytes 4 m.data.toNat ++ toBytes 4 (if m.masked then 1 else 0))))
    | some v, true => some ((s.setVector f vec { m with addr := v }).answered .none)
    | some v, false =>
      let s := (s.setVector f vec { m with data := v.truncate 32, masked := true }).answered .none
      some (if v.getLsbD 32 then s else s.unmask f vec)
  else none

/-- BAR0_REGISTER_ACCESS: an access of 8 bytes. Function 0 reaches every management register as tenant 0; a VF the registers that its tenant may
read, and ICOAL and VEVT (R400, R431, R460). -/
def execBar0RegisterAccess (f off : Nat) (wr : Option (BitVec 64)) (tbit : Option Nat) (s : State) : Out :=
  let n := off / 8
  let read (n : Nat) : State := s.answered (.data (toBytes 8 (s.mgRead n).toNat))
  if !s.off && s.link && f == 0 && off % 8 == 0 && wr.isNone && (n == 0x9000 || n == 0x9001) then .next (read n)
  else match s.window f tbit with
    | some t => .next t
    | none =>
      if off % 8 != 0 || off + 8 > (if f == 0 then 2 ^ 20 else 2 ^ 16) then .next (s.answered .unsupported)
      else if f == 0 then
        (if n < 2 ^ 16 && (mgFields n).isSome then
           (match wr with
            | none => .next (read n)
            | some v => .next ((s.mgWrite hostId n v).answered .none))
         else .next ((s.msixAccess 0 off Config.pfMsix Config.pfPba wr).getD (s.answered .unsupported)))
      else if wr.isSome && (s.mgv (0x80A0 + f)).getLsbD 1 then .next s
      else match s.msixAccess f off 0x8000 0x8400 wr with
        | some t => .next t
        | none =>
          let n := Config.vfReg f off
          let own := n == 0x8220 + f || n == 0x81A1 + 2 * f
          (match wr with
           | none => .next (if (own || s.mgReadable f n) && (mgFields n).isSome then read n else s.answered .unsupported)
           | some v => .next (if own then (s.mgWrite hostId n v).answered .none else s.answered .unsupported))

/-! ### VF Enable (R435, R436) -/

/-- VF_ENABLE_SET: the VF of a tenant is enabled, with a new key pair (R436). -/
def execVfEnableSet (t : Nat) (s : State) : Out :=
  if t == 0 || t > 63 || !s.booted || s.vfs.contains t then .next s
  else .next ({ s with vfs := s.vfs ++ [t] }.newKeys t)

/-- Step 1 of R435: every context of a tenant gated and destroyed, and its leases with them. -/
def State.endTenant (s : State) (t : Nat) : State :=
  let s := (s.leases.filter (fun e => e.2.ten == t)).foldl (fun s e => match e.2.moving with | some m => s.abandon e.1 e.2 m | none => s) s
  let s := (s.ctxsOf t).foldl (fun s c => (s.gate c 0).destroyCtx c) s
  (s.leases.filter (fun e => e.2.ten == t)).foldl (fun s e => s.freeLease e.1) s

/-- Step 2 of R435. -/
def State.unbindTenant (s : State) (t : Nat) : State :=
  let qs := (allQueues s).filter (fun q => s.qTen q == t)
  let s := if s.ost.any (fun q => qs.contains q) then { s with ost := none } else s
  let s := qs.foldl (fun s q => { s.setMg (qReg q) (setBits (s.mgv (qReg q)) 63 63 0) with queues := s.queues.erase q }) s
  [0x8020 + t, 0x0980 + t, 0x8060 + t, 0x80A0 + t, 0x81A0 + 2 * t, 0x82A0 + t].foldl (fun s n => s.setMg n (mgReset n)) s

/-- Steps 3 and 4 of R435: the tenant's keys are discarded (R436). -/
def State.disownTenant (s : State) (t : Nat) : State :=
  let s := s.dropTenant t
  let as := (List.range 2048).filter (fun a => bits (s.mgv (0x1000 + a)) 5 0 == t)
  let s := { as.foldl (fun s a => s.setMg (0x1000 + a) 0) s with keys := s.keys.erase t, finals := s.finals.filter (fun e => e.2.ten != t) }
  (List.range 32).foldl (fun s i =>
    let v := s.mgv (0x0180 + i)
    let w := (List.range 8).foldl (fun w e => if ttEntry w e == t then setBits w (6 * e + 5) (6 * e) 0 else w) v
    if w == v then s else s.ttabApply (i / 2) (i % 2) w) s

/-- VF_ENABLE_CLEAR: no MSI-X is sent for a step; the functions' configuration goes with them (R435). -/
def execVfEnableClear (s : State) : Out :=
  let live := (List.range 64).filter (fun t => t != 0 && s.vfs.contains t)
  if live.isEmpty then .next s
  else
    let pf := s.msix.filter (fun e => e.1 < 64)
    let s := live.foldl (fun s t =>
      let s := { s.setMg (0x8260 + t) 0 with tdis := s.tdis.erase t, resets := s.resets.erase t }
      ((s.endTenant t).unbindTenant t).disownTenant t) s
    let s := { s with vfs := [], msix := pf, vfCfg := [] }
    .next (s.event 10 0 0 0 0 0 0 (BitVec.ofNat 64 (live.foldl (fun a t => a + 2 ^ t) 0)))

/-! ### SPDM and TDISP (R437 to R442, R455, R456) -/

/-- Bytes that only the device can make: a signature under its key, or a key share (R437). -/
def State.freeBytes (s : State) : List Byte × State := (Config.spdmBytes s.free, { s with free := s.free + 1 })

/-- The answer of function 0 to an SPDM message, with what it does: the algorithms, the one certificate slot, the capabilities and the measurements of
R437; a session; the keys of an IDE stream, programmed in a session (R439). Index 255 asks for every measurement: PRESUMED from SPDM 1.3 (log 137). -/
def State.spdm (s : State) : SpdmReq → SpdmAns × State
  | .capabilities => (.capabilities ["CERT", "CHAL", "MEAS signed", "KEY_EX", "ENCRYPT", "MAC"], s)
  | .algorithms => (.algorithms "EdDSA Ed25519" "SHA-512" "secp384r1" "AES-256-GCM", s)
  | .digests => (.digests [0], s)
  | .certificate slot => (if slot == 0 then .certificate 0 Config.certChain else .error, s)
  | .challenge slot => if slot != 0 then (.error, s) else let (b, s) := s.freeBytes; (.challenge 0 b, s)
  | .measurements idx =>
    let vals := s.meas.filter (fun e => idx == 255 || e.1 == idx)
    if vals.isEmpty then (.error, s) else let (b, s) := s.freeBytes; (.measurements vals b, s)
  | .keyExchange slot => if slot != 0 then (.error, s) else let (b, s) := s.freeBytes; (.keyExchange b, { s with session := true })
  | .endSession => if s.session then (.done, { s with session := false }) else (.error, s)
  | .ideKeyProg k =>
    if s.session && k < 8 then (.done, { s with ideKeys := if s.ideKeys.contains k then s.ideKeys else s.ideKeys ++ [k] }) else (.error, s)
  | .other _ _ => let (b, s) := s.freeBytes; (.other b, s)

/-- SPDM_REQUEST: function 0 answers over DOE (R437, R439, R460). The nonce or key share that comes with the message bears only on bytes that are free
values. -/
def execSpdmRequest (q : SpdmReq) (_data : List Byte) (s : State) : Out :=
  if s.off || !s.link then .next (s.answered .none)
  else if !s.booted then .next (s.answered .unsupported)
  else
    let (a, t) := s.spdm q
    .next (t.answered (.spdm a))
/-- A byte of the configuration space as the frozen set has it: Function Mask and MSI-X Enable read as 0 (R456). -/
def frozenByte (t off : Nat) (b : Byte) : Byte := if off == Config.msixCap t + 3 then b &&& 0x3F#8 else b

/-- The registers of a tenant's frozen set, ascending (R441, R456). -/
def State.frozenRegs (s : State) (t : Nat) : List Nat :=
  let has (n : Nat) : Bool := bits (s.mgv n) 5 0 == t
  (upto 0x0180 32).filter (fun n => (List.range 8).any (fun e => ttEntry (s.mgv n) e == t))
    ++ ((List.range 64).map (fun q => if has (0x0881 + 4 * q) then [0x0880 + 4 * q, 0x0881 + 4 * q] else [])).flatten
    ++ [0x0980 + t] ++ (upto 0x1000 2048).filter has ++ [0x8020 + t, 0x80A0 + t, 0x82A0 + t]
    ++ (s.mg.filterMap (fun e => if 0xA000 ≤ e.1 && e.1 < 0xAA00 && e.1 % 2 == 1 && has e.1 then some [e.1 - 1, e.1] else none)).flatten

/-- FROZEN: the digest of the frozen set (R456). -/
def State.frozen (s : State) (t : Nat) : BitVec 512 :=
  sha512 (((s.frozenRegs t).map (fun n => toBytes 2 n ++ toBytes 8 (s.mgv n).toNat)).flatten
    ++ (List.range 4096).map (fun o => frozenByte t o (s.cfgByte t o)))

/-- Can a TDISP message not reach the interface of a VF? none: it can; else the state with the answer. TDISP travels in the secured messages of an SPDM
session (R437, R440, R460). -/
def State.tdispOut (s : State) (t : Nat) : Option State :=
  if s.off || !s.link then some (s.answered .none)
  else if !s.booted || !s.vfs.contains t then some (s.answered .unsupported)
  else if !s.session then some (s.answered (.spdm .error))
  else none

/-- LOCK_INTERFACE_REQUEST: it binds an IDE stream whose keys have been programmed (R439, R440, R456). -/
def execLockInterfaceRequest (t stream : Nat) (s : State) : Out :=
  if let some r := s.tdispOut t then .next r
  else if s.tds t != 0 || !s.ideKeys.contains stream then .next (s.answered .invalidState)
  else .next ({ s.setMg (0x8260 + t) 1 with
    tdis := s.tdis.set t { stream := stream, digest := s.frozen t, refused := (match s.tdis.get? t with | some d => d.refused | none => 0), stopping := false } }.answered .none)

/-- START_INTERFACE_REQUEST (R440). -/
def execStartInterfaceRequest (t : Nat) (s : State) : Out :=
  if let some r := s.tdispOut t then .next r
  else if s.tds t != 1 then .next (s.answered .invalidState)
  else .next ((s.setMg (0x8260 + t) 2).answered .none)

/-- STOP_INTERFACE_REQUEST: step 3 of R396 begins, and the steps after it follow (R440). -/
def execStopInterfaceRequest (t : Nat) (s : State) : Out :=
  if let some r := s.tdispOut t then .next r
  else match s.tdis.get? t with
  | none => .next (s.answered .invalidState)
  | some d =>
    if s.tds t == 0 then .next (s.answered .invalidState)
    else
      let s := { s with tdis := s.tdis.set t { d with stopping := true } }.answered .none
      if (s.resets.get? t).isSome then .next s
      else .next ((s.ctxsOf t).foldl (fun s c => s.gate c 3) { s with resets := s.resets.set t 3 })

/-- GET_DEVICE_INTERFACE_REPORT (R442, R455). -/
def execGetDeviceInterfaceReport (t : Nat) (s : State) : Out :=
  if let some r := s.tdispOut t then .next r
  else match s.tdis.get? t with
  | none => .next (s.answered .invalidState)
  | some d =>
    if s.tds t == 0 then .next (s.answered .invalidState)
    else .next (s.answered (.report {
      state := s.tds t
      bar0 := Config.vfBar 0 + (t - 1) * 2 ^ 16
      bar2 := Config.vfBar 2 + (t - 1) * 2 ^ 22
      msix := (0x8000, 64)
      meas := [1, 2, 3, 4, 5]
      regions := (List.range 16).map (fun st => (List.range 16).foldl (fun a r => a + (if s.ttab st r == t then 2 ^ r else 0)) 0)
      asids := (List.range 2048).filter (fun a => s.asidOk a t)
      queues := (allQueues s).filter (fun q => (s.qCfg q).getLsbD 63 && s.qTen q == t)
      frozen := d.digest }))

/-- TDISP_ERROR: an interface that is locked or runs enters ERROR (R440, R455). -/
def execTdispError (t cause whereAt : Nat) (s : State) : Out :=
  if (s.tds t == 1 || s.tds t == 2) && 1 ≤ cause && cause ≤ 5 then .next (s.tdispErr t cause (if cause ≤ 2 then whereAt else 0)) else .next s

/-- IDE_STREAM_FAULT: every interface bound to the stream that is locked or runs enters ERROR (R440, R455). -/
def execIdeStreamFault (stream : Nat) (s : State) : Out :=
  .next ((s.lockedTenants.filter (fun t => (s.tdis.get? t).any (fun d => d.stream == stream))).foldl (fun s t => s.tdispErr t 5 0) s)

/-- CONFIG_SPACE_WRITE: one byte of a VF's configuration space (R441, R455). -/
def execConfigSpaceWrite (t off : Nat) (v : BitVec 8) (s : State) : Out :=
  if s.off || !s.link then .next (s.answered .none)
  else if !s.booted || !s.vfs.contains t || off ≥ 4096 then .next (s.answered .unsupported)
  else if (s.tds t == 1 || s.tds t == 2) && frozenByte t off v != frozenByte t off (s.cfgByte t off) then .next (s.tdispErr t 2 off)
  else .next { s with vfCfg := s.vfCfg.set (4096 * t + off) v }

/-! ### Jexlink (R425, R426, R428, R430, R444) -/

/-- JEXLINK_TRAIN: after DONE, a port that has not failed is trained, with keys that nothing reads (R425, R460). -/
def execJexlinkTrain (port : Nat) (s : State) : Out :=
  if port ≥ 32 || !s.booted || (s.jex.get? port).getD 0 != 0 then .next s else .next { s with jex := s.jex.set port 1 }

/-- JEXLINK_KEY_RENEW: new keys, which nothing reads (R425). -/
def execJexlinkKeyRenew (_port : Nat) (s : State) : Out := .next s

/-- JEXLINK_LINK_FAIL: the link of a port is lasting-failed, with event 4 (R425). -/
def execJexlinkLinkFail (port : Nat) (s : State) : Out :=
  if port ≥ 32 || s.off || (s.jex.get? port).getD 0 != 1 then .next s
  else .next ({ s with jex := s.jex.set port 2 }.lasting 0 0 0 (BitVec.ofNat 64 port))

/-- Bytes that a peer's request reads or writes. -/
def peerSize : PeerOp → Nat
  | .read n => n
  | .write bs => bs.length
  | .amo _ wide _ _ => if wide then 8 else 4
  | .afadd _ _ _ => 16

/-- Does a peer's request write? -/
def peerWrites : PeerOp → Bool
  | .read _ => false
  | _ => true

/-- The atomic of a place in R302's list. -/
def amoOf (i : Nat) : AmoOp := [AmoOp.swap, .add, .and, .or, .xor, .min, .max, .minu, .maxu].getD i .cas

/-- A tag without a tenant: MEM_TENANT with the stack and region of R293 and DETAIL bit 8, and TLOG of stack 15 with RTEN 0 (R428). -/
def State.tagRefused (s : State) (pa : Nat) : State :=
  let n := 0x01AF
  let v := BitVec.ofNat 64 (min 65535 (bits (s.mgv n) 63 48 + 1) * 2 ^ 48 + regionOf pa * 2 ^ 38 + s.ttab 15 (regionOf pa) * 2 ^ 32 + pa / 16 % 2 ^ 32)
  (s.setMg n v).answered (.peerFault 0x15 (0x100 + stackOf pa + 16 * regionOf pa))

/-- What a peer's granted request does to the L2. It names no virtual address, so that its fills are untagged (R270): DEDUCED (log 30). -/
def State.peerUse (s : State) (pa n : Nat) (wr : Bool) : State := s.l2Span none 2048 pa pa n wr

/-- A peer's request served for the local tenant t; a refusal by the tenant wall shows DETAIL bit 8 there too (R426, R428, R430, R444). -/
def State.servePeer (s : State) (t : Nat) (q : PeerReq) : State :=
  let n := peerSize q.op
  let k := if peerWrites q.op then 4 else 3
  let r : BudReq := ⟨8 * t + k, q.pa, n⟩
  if peerWrites q.op && s.mlogShort t (mlogCount n) then s
  else if !s.inBudget r || !s.canSpend t k n then s.awaitBudget r
  else
    let s := (s.leaveBudget r).spend t k n
    match s.grantFault t none q.pa q.pa n ⟨!(q.op matches .write _), peerWrites q.op⟩ with
    | some f => (s.noteRefusal 0 t q.pa f).answered (.peerFault f.cls.toNat (f.detail.toNat + (if f.cls == 0x15 then 0x100 else 0)))
    | none =>
      let s := s.peerUse q.pa n (peerWrites q.op)
      match q.op with
      | .read n => s.answered (.data (s.devBytes q.pa n))
      | .write bs => ((s.devWrite q.pa bs).mlogBytes t 3 (mlogCount bs.length) q.pa bs).answered .none
      | .amo op _ v x =>
        let (s', old) := s.atomic (amoOf op) n q.pa v x
        (s'.mlogBytes t 3 1 q.pa (s'.devBytes q.pa n)).answered (.data (toBytes 8 old))
      | .afadd v out64 readout =>
        match afaddOut (s.devBytes q.pa 16) v out64 readout with
        | .error a => s.answered (.peerFault (anchorTrap q.pa a).cls.toNat (anchorTrap q.pa a).detail.toNat)
        | .ok (bs, res) => ((s.devWrite q.pa bs).mlogBytes t 3 1 q.pa bs).answered (.data (toBytes 8 res.toNat))

/-- JEXLINK_REQUEST: a request arrives on a trained link: it is passed on, refused for its tag, or served (R426, R428). -/
def execJexlinkRequest (q : PeerReq) (s : State) : Out :=
  if !s.jex.any (fun e => e.2 == 1) then .next s
  else if q.node != s.node then .next (s.answered (.forward q))
  else match (List.range 64).find? (fun t => (s.mgv (0x8020 + t)).getLsbD 16 && bits (s.mgv (0x8020 + t)) 15 0 == q.ftag.toNat) with
    | none => .next (s.tagRefused q.pa)
    | some t => .next (s.servePeer t { q with pa := s.node * 2 ^ 48 + memKey q.pa })

end Sys2Proof.Machine
end

