-- ==== Sys2Proof/Machine/Physical.lean ====
section
/-! DEFINITION. Power, clock, temperature, resets and boot (R382 to R385, R410, R430, R440, R457 to R461). -/

namespace Sys2Proof.Machine

/-! ### Power and clock (R382 to R385) -/

/-- Energy in µJ added to a counter of whole µJ that carries its fraction (R383). -/
def State.addEnergy (s : State) (n : Nat) (e : Rat) : State :=
  let f := (s.frac.get? n).getD 0 + e
  if e == 0 then s
  else { s.setMg n (s.mgv n + BitVec.ofInt 64 f.floor) with frac := s.frac.set n (f - f.floor) }

/-- The next duty of a tenant whose share was e µJ: d sixteenths now, DMIN, and CAP in W (R384). -/
def nextDuty (d dmin cap : Nat) (e : Rat) : Nat :=
  let b : Rat := (10 * cap : Nat)
  if e > b then max (dmin + 1) (d - 2) else if 8 * e < 7 * b then min 16 (d + 1) else d

/-- The duty of a tenant adjusted at the end of an interval; the new value takes effect at the next cycle that 16 divides (R384). -/
def State.adjustDuty (s : State) (t : Nat) (e : Rat) : State :=
  let v := s.mgv (0x0800 + t)
  if bits v 31 16 == 0 then s
  else
    let d := s.duty t
    let s := s.setMg (0x0800 + t) (setBits v 15 12 (d - 1))
    { s with dutyNext := s.dutyNext.set t (nextDuty d (bits v 11 8) (bits v 31 16) e - 1, (s.time / 16 + 1) * 16) }

/-- The weight of the interval's events that a test of lease and tenant picks: each kind at its own energy (R382). -/
def State.weight (s : State) (p : Nat → Nat → Bool) : Nat :=
  s.events.foldl (fun a e => if p (e.1 / 512) (e.1 / 8 % 64) then a + e.2 * Config.eventEnergy (e.1 % 8) else a) 0

/-- The part of e µJ that falls to a weight of w among the whole (R382, R383). -/
def share (e : Rat) (w whole : Nat) : Rat := if whole == 0 then 0 else e * w / whole

/-- A tenant's share of the measured energy: by the weight of its events beside those of all tenants and the idle weight (R382). -/
def State.tenantShare (s : State) (e : Rat) (t : Nat) : Rat :=
  share e (s.weight (fun _ u => u == t)) (s.weight (fun _ _ => true) + Config.idleEnergy)

/-- Is a lease live, of tenant t, and charged to a launch queue, or to the given one (R374, R383)? -/
def State.charged (s : State) (t lid : Nat) (q : Option Nat) : Bool :=
  (s.leases.get? lid).any (fun l => l.ten == t && l.queue.isSome && (q.isNone || l.queue == q))

/-- The launch queues that live leases are charged to. -/
def State.chargedQueues (s : State) : List Nat := (s.leases.filterMap (·.2.queue)).eraseDups

/-- A launch queue's part of a tenant's share: by the events of the tenant's live leases that are charged to it, among those of all its live leases
with a queue (R383). -/
def State.queueShare (s : State) (e : Rat) (t q : Nat) : Rat :=
  share (s.tenantShare e t) (s.weight (fun l u => u == t && s.charged t l (some q))) (s.weight (fun l u => u == t && s.charged t l none))

/-- The bin of a peak temperature (R410). -/
def thrBin (temp : Nat) : Nat := if temp < 45 then 0 else min 15 ((temp - 40) / 5)

/-- The temperature that a die's hottest sensor shows (R461). -/
def State.setTemp (s : State) (die temp : Nat) : State := s.setMg (0x9010 + die) (BitVec.ofNat 64 (min 255 temp))

/-- POWER_INTERVAL: the end of a 10 µs interval, no earlier than its time: core and hbm are what was measured in it on the core and HBM rails, in nJ,
peak the peak temperature of each die. The energy is shared, duties are adjusted, and byte budgets start again (R382 to R385, R410, R430). -/
def execPowerInterval (core hbm : Nat) (peak : List Nat) (s : State) : Out :=
  if s.off || s.micros < (10 * (s.intervals + 1) : Nat) then .next s
  else
    let e : Rat := (core + hbm : Nat) / 1000
    let u := (List.range 64).foldl (fun u t =>
      let u := (u.addEnergy (0x0840 + t) (s.tenantShare e t)).adjustDuty t (s.tenantShare e t)
      s.chargedQueues.foldl (fun u q => u.addEnergy (0x0882 + 4 * q) (s.queueShare e t q)) u) s
    let u := (peak.take 5).zipIdx.foldl (fun s e =>
      let n := 0x7400 + 16 * e.2 + thrBin e.1
      (s.setMg n (s.mgv n + 1)).setTemp e.2 e.1) u
    .next { u with intervals := s.intervals + 1, events := [], spent := [] }

/-- CLK runs at a frequency from now on: what is stated in µs keeps its length (R385, R461). -/
def State.setClk (s : State) (v : W64) : State := { s.setMg 0x9002 v with clkBase := (s.time, s.micros) }

/-- CLK_LOWER (R385, R461). -/
def execClkLower (mhz : Nat) (s : State) : Out := .next (if s.off || mhz == 0 || mhz > 1100 then s else s.setClk (BitVec.ofNat 64 (2 ^ 16 + mhz)))
/-- CLK_RESTORE (R385, R461). -/
def execClkRestore (s : State) : Out := .next (if s.off then s else s.setClk 1100)

/-! ### Temperature and power (R410, R459) -/

/-- Every state lost, the management store with it, and no power. The model's own agenda goes on. -/
def State.dark (s : State) : State := { State.reset with agenda := s.agenda, cur := s.cur, free := s.free, fuse := s.fuse, off := true }

/-- THERMAL_EVENT: a die passes 115 °C (R459). -/
def execThermalEvent (die temp : Nat) (s : State) : Out :=
  if s.off || die > 4 || temp ≤ 115 || s.hot.contains die then .next s
  else .next (({ s with hot := die :: s.hot }.setTemp die temp).event 13 0 0 0 0 0 0 (BitVec.ofNat 64 die))

/-- THERMAL_REARM: a die falls below 110 °C (R459). -/
def execThermalRearm (die temp : Nat) (s : State) : Out :=
  if s.off || die > 4 || temp ≥ 110 then .next s else .next ({ s with hot := s.hot.filter (· != die) }.setTemp die temp)

/-- THERMAL_TRIP: a die passes 125 °C, and the package removes its power (R459). -/
def execThermalTrip (die temp : Nat) (s : State) : Out := .next (if s.off || die > 4 || temp ≤ 125 then s else s.dark)

/-- POWER_LOSS (R410). -/
def execPowerLoss (s : State) : Out := .next s.dark

/-! ### Reset and boot (R460) -/

/-- Does a management register survive device reset (R410, R460)? -/
def survives (n : Nat) : Bool := (0x4000 ≤ n && n < 0x7200) || (0x7400 ≤ n && n < 0x7450) || (0x7500 ≤ n && n < 0x7510) || (0x7600 ≤ n && n < 0x7610)

/-- The package after a device reset or power-on. Links and modules that are lasting-failed stay so. -/
def State.deviceReset (s : State) : State :=
  { State.reset with
    agenda := s.agenda, cur := s.cur, free := s.free, mg := s.mg.filter (fun e => survives e.1), ucie := s.ucie, dead := s.dead, fuse := s.fuse }

/-- DEVICE_RESET (R460). -/
def execDeviceReset (s : State) : Out := .next s.deviceReset

/-- FUNCTION_LEVEL_RESET: of function 0 a device reset; of a VF whose interface is locked or runs, ERROR (R440, R455, R460). -/
def execFunctionLevelReset (f : Nat) (s : State) : Out :=
  if s.off then .next s
  else if f == 0 then .next s.deviceReset
  else if s.tds f == 1 || s.tds f == 2 then .next (s.tdispErr f 4 0) else .next s

/-- The PCIe link has trained, in stage 3 of boot (R460). -/
def State.linkUp (s : State) : State := if !s.off && bits (s.mgv 0x9001) 3 0 == 3 then { s with link := true } else s

/-- The check of a firmware image: none, or the failure cause of R460 Table 2. The signature is over the version's two bytes, least significant first,
and the image: PRESUMED (log 135); the digest of its public key is fused, and its version is not below the fused counter (R438). -/
def State.fwFault (s : State) (m : FwImage) : Option Nat :=
  if sha512 m.key != s.fuse.1 || !edVerify m.key (toBytes 2 m.ver.toNat ++ m.code) m.sig then some 1
  else if m.ver.toNat < s.fuse.2 then some 2
  else none

/-- A measurement taken at boot: the digest of what is measured, at its index (R437, R460). -/
def State.measure (s : State) (i : Nat) (bs : List Byte) : State := { s with meas := s.meas.set i (sha512 bs) }

/-- A boot stage ends with its failure cause (R460, R461). -/
def State.bootFail (s : State) (st k : Nat) : State := s.setMg 0x9001 (setBits (setBits (setBits (s.mgv 0x9001) 11 8 st) 7 4 k) 3 0 15)

/-- A boot stage ends and the next begins (R460). -/
def State.bootNext (s : State) (st : Nat) : State := s.setMg 0x9001 (setBits (s.mgv 0x9001) 3 0 (st + 1))

/-- BOOT_STAGE_COMPLETE: a stage of R460 Table 2 ends. imgs are the images that stages 1 (the hub's) and 2 (the compute dies', Jexlink's) check;
trained says whether what stages 3 and 4 train has trained. Stage 4 leaves every bank and store zero, HBM unspecified, every context EMPTY and every
TTAB entry 0 (R437, R438, R460, R461). -/
def execBootStageComplete (imgs : List FwImage) (trained : Bool) (s : State) : Out :=
  let st := bits (s.mgv 0x9001) 3 0
  if s.off then .next s
  else match st, imgs with
    | 0, _ => .next ((s.measure 1 Config.bootRom).bootNext 0)
    | 1, [m] =>
      (match s.fwFault m with
       | some k => .next (s.bootFail 1 k)
       | none => .next (((s.measure 2 m.code).setMg 0x9001 (setBits (s.mgv 0x9001) 63 48 m.ver.toNat)).bootNext 1))
    | 2, [m, j] =>
      (match (s.fwFault m).orElse (fun _ => s.fwFault j) with
       | some k => .next (s.bootFail 2 k)
       | none =>
         let s' := ((s.measure 3 m.code).measure 5 j.code).measure 4 Config.fuseBytes
         .next ((s'.setMg 0x9001 (setBits (s.mgv 0x9001) 47 32 m.ver.toNat)).bootNext 2))
    | 3, _ => if trained then .next ({ s with link := true }.bootNext 3) else .next (s.bootFail 3 3)
    | 4, _ =>
      if !trained then .next (s.bootFail 4 4)
      else
        let regs := (List.range 32).map (0x0180 + ·) ++ (List.range 16).map (0x8000 + ·)
        let s := regs.foldl (fun s n => s.setMg n (mgReset n)) s
        .next ({ s with ctxs := [], cores := [], mem := [], unspec := [(0, 2 ^ 40, s.free)], hbmPoison := [], hbm := [],
                        keys := s.keys.set 0 s.free, free := s.free + 1 }.bootNext 4)
    | _, _ => .next s

end Sys2Proof.Machine
end

