-- ==== Sys2Proof/Machine/Dispatch.lean ====
section
/-! DEFINITION. The meaning of every operation: one arm per constructor. -/

namespace Sys2Proof.Machine

def exec (i : Instr) (s : State) : Host.Outcome State Fault Refusal :=
  match i with
  | .add g d a b => Sys2Proof.Machine.execAdd g d a b s
  | .sub g d a b => Sys2Proof.Machine.execSub g d a b s
  | .and g d a b => Sys2Proof.Machine.execAnd g d a b s
  | .or g d a b => Sys2Proof.Machine.execOr g d a b s
  | .xor g d a b => Sys2Proof.Machine.execXor g d a b s
  | .andn g d a b => Sys2Proof.Machine.execAndn g d a b s
  | .orn g d a b => Sys2Proof.Machine.execOrn g d a b s
  | .shl g d a b => Sys2Proof.Machine.execShl g d a b s
  | .shr g d a b => Sys2Proof.Machine.execShr g d a b s
  | .sra g d a b => Sys2Proof.Machine.execSra g d a b s
  | .rol g d a b => Sys2Proof.Machine.execRol g d a b s
  | .ror g d a b => Sys2Proof.Machine.execRor g d a b s
  | .mul g d a b => Sys2Proof.Machine.execMul g d a b s
  | .mulh g d a b => Sys2Proof.Machine.execMulh g d a b s
  | .mulhu g d a b => Sys2Proof.Machine.execMulhu g d a b s
  | .div g d a b => Sys2Proof.Machine.execDiv g d a b s
  | .divu g d a b => Sys2Proof.Machine.execDivu g d a b s
  | .rem g d a b => Sys2Proof.Machine.execRem g d a b s
  | .remu g d a b => Sys2Proof.Machine.execRemu g d a b s
  | .min g d a b => Sys2Proof.Machine.execMin g d a b s
  | .max g d a b => Sys2Proof.Machine.execMax g d a b s
  | .minu g d a b => Sys2Proof.Machine.execMinu g d a b s
  | .maxu g d a b => Sys2Proof.Machine.execMaxu g d a b s
  | .addw g d a b => Sys2Proof.Machine.execAddw g d a b s
  | .subw g d a b => Sys2Proof.Machine.execSubw g d a b s
  | .mulw g d a b => Sys2Proof.Machine.execMulw g d a b s
  | .clz g d a => Sys2Proof.Machine.execClz g d a s
  | .ctz g d a => Sys2Proof.Machine.execCtz g d a s
  | .popc g d a => Sys2Proof.Machine.execPopc g d a s
  | .addi g d a imm => Sys2Proof.Machine.execAddi g d a imm s
  | .andi g d a imm => Sys2Proof.Machine.execAndi g d a imm s
  | .ori g d a imm => Sys2Proof.Machine.execOri g d a imm s
  | .xori g d a imm => Sys2Proof.Machine.execXori g d a imm s
  | .shli g d a s_ => Sys2Proof.Machine.execShli g d a s_ s
  | .shri g d a s_ => Sys2Proof.Machine.execShri g d a s_ s
  | .srai g d a s_ => Sys2Proof.Machine.execSrai g d a s_ s
  | .muli g d a imm => Sys2Proof.Machine.execMuli g d a imm s
  | .addwi g d a imm => Sys2Proof.Machine.execAddwi g d a imm s
  | .movi g d imm => Sys2Proof.Machine.execMovi g d imm s
  | .movz g d imm => Sys2Proof.Machine.execMovz g d imm s
  | .movk16 g d imm => Sys2Proof.Machine.execMovk16 g d imm s
  | .movk32 g d imm => Sys2Proof.Machine.execMovk32 g d imm s
  | .movk48 g d imm => Sys2Proof.Machine.execMovk48 g d imm s
  | .srrd g d sr => Sys2Proof.Machine.execSrrd g d sr s
  | .srwr g d sr => Sys2Proof.Machine.execSrwr g d sr s
  | .flgrd g d => Sys2Proof.Machine.execFlgrd g d s
  | .br g off => Sys2Proof.Machine.execBr g off s
  | .call g off => Sys2Proof.Machine.execCall g off s
  | .jalr g d a imm => Sys2Proof.Machine.execJalr g d a imm s
  | .beq g a b off => Sys2Proof.Machine.execBeq g a b off s
  | .bne g a b off => Sys2Proof.Machine.execBne g a b off s
  | .blt g a b off => Sys2Proof.Machine.execBlt g a b off s
  | .bge g a b off => Sys2Proof.Machine.execBge g a b off s
  | .bltu g a b off => Sys2Proof.Machine.execBltu g a b off s
  | .bgeu g a b off => Sys2Proof.Machine.execBgeu g a b off s
  | .cmpEq g d a b => Sys2Proof.Machine.execCmpEq g d a b s
  | .cmpNe g d a b => Sys2Proof.Machine.execCmpNe g d a b s
  | .cmpLt g d a b => Sys2Proof.Machine.execCmpLt g d a b s
  | .cmpGe g d a b => Sys2Proof.Machine.execCmpGe g d a b s
  | .cmpLtu g d a b => Sys2Proof.Machine.execCmpLtu g d a b s
  | .cmpGeu g d a b => Sys2Proof.Machine.execCmpGeu g d a b s
  | .cmpTst g d a b => Sys2Proof.Machine.execCmpTst g d a b s
  | .cmpiEq g d a imm => Sys2Proof.Machine.execCmpiEq g d a imm s
  | .cmpiLt g d a imm => Sys2Proof.Machine.execCmpiLt g d a imm s
  | .cmpiLtu g d a imm => Sys2Proof.Machine.execCmpiLtu g d a imm s
  | .pand g d a b => Sys2Proof.Machine.execPand g d a b s
  | .por g d a b => Sys2Proof.Machine.execPor g d a b s
  | .pxor g d a b => Sys2Proof.Machine.execPxor g d a b s
  | .pandn g d a b => Sys2Proof.Machine.execPandn g d a b s
  | .pnot g d a => Sys2Proof.Machine.execPnot g d a s
  | .pmov g d a => Sys2Proof.Machine.execPmov g d a s
  | .pget g d => Sys2Proof.Machine.execPget g d s
  | .pput g a => Sys2Proof.Machine.execPput g a s
  | .ldb g t a off => Sys2Proof.Machine.execLdb g t a off s
  | .ldbs g t a off => Sys2Proof.Machine.execLdbs g t a off s
  | .ldh g t a off => Sys2Proof.Machine.execLdh g t a off s
  | .ldhs g t a off => Sys2Proof.Machine.execLdhs g t a off s
  | .ldw g t a off => Sys2Proof.Machine.execLdw g t a off s
  | .ldws g t a off => Sys2Proof.Machine.execLdws g t a off s
  | .ldd g t a off => Sys2Proof.Machine.execLdd g t a off s
  | .stb g t a off => Sys2Proof.Machine.execStb g t a off s
  | .sth g t a off => Sys2Proof.Machine.execSth g t a off s
  | .stw g t a off => Sys2Proof.Machine.execStw g t a off s
  | .std g t a off => Sys2Proof.Machine.execStd g t a off s
  | .amoSwapW g t a => Sys2Proof.Machine.execAmoSwapW g t a s
  | .amoAddW g t a => Sys2Proof.Machine.execAmoAddW g t a s
  | .amoAndW g t a => Sys2Proof.Machine.execAmoAndW g t a s
  | .amoOrW g t a => Sys2Proof.Machine.execAmoOrW g t a s
  | .amoXorW g t a => Sys2Proof.Machine.execAmoXorW g t a s
  | .amoMinW g t a => Sys2Proof.Machine.execAmoMinW g t a s
  | .amoMaxW g t a => Sys2Proof.Machine.execAmoMaxW g t a s
  | .amoMinuW g t a => Sys2Proof.Machine.execAmoMinuW g t a s
  | .amoMaxuW g t a => Sys2Proof.Machine.execAmoMaxuW g t a s
  | .amoCasW g t a => Sys2Proof.Machine.execAmoCasW g t a s
  | .amoSwapD g t a => Sys2Proof.Machine.execAmoSwapD g t a s
  | .amoAddD g t a => Sys2Proof.Machine.execAmoAddD g t a s
  | .amoAndD g t a => Sys2Proof.Machine.execAmoAndD g t a s
  | .amoOrD g t a => Sys2Proof.Machine.execAmoOrD g t a s
  | .amoXorD g t a => Sys2Proof.Machine.execAmoXorD g t a s
  | .amoMinD g t a => Sys2Proof.Machine.execAmoMinD g t a s
  | .amoMaxD g t a => Sys2Proof.Machine.execAmoMaxD g t a s
  | .amoMinuD g t a => Sys2Proof.Machine.execAmoMinuD g t a s
  | .amoMaxuD g t a => Sys2Proof.Machine.execAmoMaxuD g t a s
  | .amoCasD g t a => Sys2Proof.Machine.execAmoCasD g t a s
  | .vpass g d a b => Sys2Proof.Machine.execVpass g d a b s
  | .vpassr g d a b => Sys2Proof.Machine.execVpassr g d a b s
  | .wait g ld st cp tl => Sys2Proof.Machine.execWait g ld st cp tl s
  | .waitAll g ld st cp tl => Sys2Proof.Machine.execWaitAll g ld st cp tl s
  | .nop g => Sys2Proof.Machine.execNop g s
  | .endProg g => Sys2Proof.Machine.execEndProg g s
  | .tret g => Sys2Proof.Machine.execTret g s
  | .shapeReq g d f => Sys2Proof.Machine.execShapeReq g d f s
  | .shapeRel g => Sys2Proof.Machine.execShapeRel g s
  | .cfgLd g d a imm => Sys2Proof.Machine.execCfgLd g d a imm s
  | .cfgPre g d a imm => Sys2Proof.Machine.execCfgPre g d a imm s
  | .cfgGo g d id => Sys2Proof.Machine.execCfgGo g d id s
  | .cfgWait g d => Sys2Proof.Machine.execCfgWait g d s
  | .cfgStop g => Sys2Proof.Machine.execCfgStop g s
  | .cfgDrop g s_ => Sys2Proof.Machine.execCfgDrop g s_ s
  | .parmWr g tile a b => Sys2Proof.Machine.execParmWr g tile a b s
  | .cfgStat g d => Sys2Proof.Machine.execCfgStat g d s
  | .sqSend g a ty => Sys2Proof.Machine.execSqSend g a ty s
  | .sqSendX2 g a ty => Sys2Proof.Machine.execSqSendX2 g a ty s
  | .sqSendEoi g => Sys2Proof.Machine.execSqSendEoi g s
  | .sqSendEos g => Sys2Proof.Machine.execSqSendEos g s
  | .sqRecv g d => Sys2Proof.Machine.execSqRecv g d s
  | .leaseBar g id => Sys2Proof.Machine.execLeaseBar g id s
  | .achOpen g d a b => Sys2Proof.Machine.execAchOpen g d a b s
  | .achJoin g d a b => Sys2Proof.Machine.execAchJoin g d a b s
  | .achWait g d cid => Sys2Proof.Machine.execAchWait g d cid s
  | .achWaitJ g d slot => Sys2Proof.Machine.execAchWaitJ g d slot s
  | .achClose g cid => Sys2Proof.Machine.execAchClose g cid s
  | .achCloseJ g slot => Sys2Proof.Machine.execAchCloseJ g slot s
  | .achAbort g cid => Sys2Proof.Machine.execAchAbort g cid s
  | .achStat g d cid => Sys2Proof.Machine.execAchStat g d cid s
  | .achStatJ g d slot => Sys2Proof.Machine.execAchStatJ g d slot s
  | .cqSub g d a b => Sys2Proof.Machine.execCqSub g d a b s
  | .cqKick g a b => Sys2Proof.Machine.execCqKick g a b s
  | .cntAdd g d a b => Sys2Proof.Machine.execCntAdd g d a b s
  | .cntWait g d a b => Sys2Proof.Machine.execCntWait g d a b s
  | .cntRd g d a => Sys2Proof.Machine.execCntRd g d a s
  | .taskArm g d => Sys2Proof.Machine.execTaskArm g d s
  | .taskKill g d => Sys2Proof.Machine.execTaskKill g d s
  | .taskStat g d => Sys2Proof.Machine.execTaskStat g d s
  | .bankMode g d a rsz mode k => Sys2Proof.Machine.execBankMode g d a rsz mode k s
  | .resOpen g d a b => Sys2Proof.Machine.execResOpen g d a b s
  | .resPrio g a b => Sys2Proof.Machine.execResPrio g a b s
  | .resDrop g a => Sys2Proof.Machine.execResDrop g a s
  | .amdSwapW g d a b => Sys2Proof.Machine.execAmdSwapW g d a b s
  | .amdAddW g d a b => Sys2Proof.Machine.execAmdAddW g d a b s
  | .amdAndW g d a b => Sys2Proof.Machine.execAmdAndW g d a b s
  | .amdOrW g d a b => Sys2Proof.Machine.execAmdOrW g d a b s
  | .amdXorW g d a b => Sys2Proof.Machine.execAmdXorW g d a b s
  | .amdMinW g d a b => Sys2Proof.Machine.execAmdMinW g d a b s
  | .amdMaxW g d a b => Sys2Proof.Machine.execAmdMaxW g d a b s
  | .amdMinuW g d a b => Sys2Proof.Machine.execAmdMinuW g d a b s
  | .amdMaxuW g d a b => Sys2Proof.Machine.execAmdMaxuW g d a b s
  | .amdCasW g d a b => Sys2Proof.Machine.execAmdCasW g d a b s
  | .amdSwapD g d a b => Sys2Proof.Machine.execAmdSwapD g d a b s
  | .amdAddD g d a b => Sys2Proof.Machine.execAmdAddD g d a b s
  | .amdAndD g d a b => Sys2Proof.Machine.execAmdAndD g d a b s
  | .amdOrD g d a b => Sys2Proof.Machine.execAmdOrD g d a b s
  | .amdXorD g d a b => Sys2Proof.Machine.execAmdXorD g d a b s
  | .amdMinD g d a b => Sys2Proof.Machine.execAmdMinD g d a b s
  | .amdMaxD g d a b => Sys2Proof.Machine.execAmdMaxD g d a b s
  | .amdMinuD g d a b => Sys2Proof.Machine.execAmdMinuD g d a b s
  | .amdMaxuD g d a b => Sys2Proof.Machine.execAmdMaxuD g d a b s
  | .amdCasD g d a b => Sys2Proof.Machine.execAmdCasD g d a b s
  | .amdAfadd g d a b => Sys2Proof.Machine.execAmdAfadd g d a b s
  | .fence g scope => Sys2Proof.Machine.execFence g scope s
  | .barArr g d a => Sys2Proof.Machine.execBarArr g d a s
  | .barWait g d a b => Sys2Proof.Machine.execBarWait g d a b s
  | .ringHead g d a => Sys2Proof.Machine.execRingHead g d a s
  | .ringTail g d a => Sys2Proof.Machine.execRingTail g d a s
  | .ringReset g d a => Sys2Proof.Machine.execRingReset g d a s
  | .tlbInva g a b => Sys2Proof.Machine.execTlbInva g a b s
  | .tlbInvs g a => Sys2Proof.Machine.execTlbInvs g a s
  | .tlbInvall g => Sys2Proof.Machine.execTlbInvall g s
  | .handStk g a b => Sys2Proof.Machine.execHandStk g a b s
  | .trap g code => Sys2Proof.Machine.execTrap g code s
  | .yield g => Sys2Proof.Machine.execYield g s
  | .mgr g d reg => Sys2Proof.Machine.execMgr g d reg s
  | .mgw g d reg => Sys2Proof.Machine.execMgw g d reg s
  | .trapEntry c => Sys2Proof.Machine.execTrapEntry c s
  | .waitSatisfied c => Sys2Proof.Machine.execWaitSatisfied c s
  | .spadLoadComplete c i_ => Sys2Proof.Machine.execSpadLoadComplete c i_ s
  | .spadStoreComplete c i_ => Sys2Proof.Machine.execSpadStoreComplete c i_ s
  | .amoComplete c i_ => Sys2Proof.Machine.execAmoComplete c i_ s
  | .dividerComplete core => Sys2Proof.Machine.execDividerComplete core s
  | .passChainStart core => Sys2Proof.Machine.execPassChainStart core s
  | .passChainComplete core => Sys2Proof.Machine.execPassChainComplete core s
  | .endComplete c => Sys2Proof.Machine.execEndComplete c s
  | .packetArrive c seg br => Sys2Proof.Machine.execPacketArrive c seg br s
  | .laneSkipDemand c seg br => Sys2Proof.Machine.execLaneSkipDemand c seg br s
  | .demandSend c k => Sys2Proof.Machine.execDemandSend c k s
  | .demandArrive c seg br => Sys2Proof.Machine.execDemandArrive c seg br s
  | .packerClose c p => Sys2Proof.Machine.execPackerClose c p s
  | .cellMarkerPass c n => Sys2Proof.Machine.execCellMarkerPass c n s
  | .auxTokenSend c n => Sys2Proof.Machine.execAuxTokenSend c n s
  | .cellAdd c n => Sys2Proof.Machine.execCellAdd c n s
  | .cellSub c n => Sys2Proof.Machine.execCellSub c n s
  | .cellRsub c n => Sys2Proof.Machine.execCellRsub c n s
  | .cellMul c n => Sys2Proof.Machine.execCellMul c n s
  | .cellMulh c n => Sys2Proof.Machine.execCellMulh c n s
  | .cellMad c n => Sys2Proof.Machine.execCellMad c n s
  | .cellAdds c n => Sys2Proof.Machine.execCellAdds c n s
  | .cellSubs c n => Sys2Proof.Machine.execCellSubs c n s
  | .cellMin c n => Sys2Proof.Machine.execCellMin c n s
  | .cellMax c n => Sys2Proof.Machine.execCellMax c n s
  | .cellMinu c n => Sys2Proof.Machine.execCellMinu c n s
  | .cellMaxu c n => Sys2Proof.Machine.execCellMaxu c n s
  | .cellAbs c n => Sys2Proof.Machine.execCellAbs c n s
  | .cellNeg c n => Sys2Proof.Machine.execCellNeg c n s
  | .cellAnd c n => Sys2Proof.Machine.execCellAnd c n s
  | .cellOr c n => Sys2Proof.Machine.execCellOr c n s
  | .cellXor c n => Sys2Proof.Machine.execCellXor c n s
  | .cellShl c n => Sys2Proof.Machine.execCellShl c n s
  | .cellShr c n => Sys2Proof.Machine.execCellShr c n s
  | .cellSra c n => Sys2Proof.Machine.execCellSra c n s
  | .cellClz c n => Sys2Proof.Machine.execCellClz c n s
  | .cellPopc c n => Sys2Proof.Machine.execCellPopc c n s
  | .cellFadd c n => Sys2Proof.Machine.execCellFadd c n s
  | .cellFsub c n => Sys2Proof.Machine.execCellFsub c n s
  | .cellFmul c n => Sys2Proof.Machine.execCellFmul c n s
  | .cellFma c n => Sys2Proof.Machine.execCellFma c n s
  | .cellFms c n => Sys2Proof.Machine.execCellFms c n s
  | .cellFmin c n => Sys2Proof.Machine.execCellFmin c n s
  | .cellFmax c n => Sys2Proof.Machine.execCellFmax c n s
  | .cellFabs c n => Sys2Proof.Machine.execCellFabs c n s
  | .cellFneg c n => Sys2Proof.Machine.execCellFneg c n s
  | .cellScacc c n => Sys2Proof.Machine.execCellScacc c n s
  | .cellRcp c n => Sys2Proof.Machine.execCellRcp c n s
  | .cellRsq c n => Sys2Proof.Machine.execCellRsq c n s
  | .cellExp2 c n => Sys2Proof.Machine.execCellExp2 c n s
  | .cellLog2 c n => Sys2Proof.Machine.execCellLog2 c n s
  | .cellCmpEq c n => Sys2Proof.Machine.execCellCmpEq c n s
  | .cellCmpNe c n => Sys2Proof.Machine.execCellCmpNe c n s
  | .cellCmpLt c n => Sys2Proof.Machine.execCellCmpLt c n s
  | .cellCmpLe c n => Sys2Proof.Machine.execCellCmpLe c n s
  | .cellCmpLtu c n => Sys2Proof.Machine.execCellCmpLtu c n s
  | .cellCmpLeu c n => Sys2Proof.Machine.execCellCmpLeu c n s
  | .cellFcmpEq c n => Sys2Proof.Machine.execCellFcmpEq c n s
  | .cellFcmpNe c n => Sys2Proof.Machine.execCellFcmpNe c n s
  | .cellFcmpLt c n => Sys2Proof.Machine.execCellFcmpLt c n s
  | .cellFcmpLe c n => Sys2Proof.Machine.execCellFcmpLe c n s
  | .cellFcmpUn c n => Sys2Proof.Machine.execCellFcmpUn c n s
  | .cellSel c n => Sys2Proof.Machine.execCellSel c n s
  | .cellPand c n => Sys2Proof.Machine.execCellPand c n s
  | .cellPor c n => Sys2Proof.Machine.execCellPor c n s
  | .cellPxor c n => Sys2Proof.Machine.execCellPxor c n s
  | .cellPnot c n => Sys2Proof.Machine.execCellPnot c n s
  | .cellCvt c n => Sys2Proof.Machine.execCellCvt c n s
  | .cellRadd c n => Sys2Proof.Machine.execCellRadd c n s
  | .cellRmin c n => Sys2Proof.Machine.execCellRmin c n s
  | .cellRmax c n => Sys2Proof.Machine.execCellRmax c n s
  | .cellRfadd c n => Sys2Proof.Machine.execCellRfadd c n s
  | .cellRfmin c n => Sys2Proof.Machine.execCellRfmin c n s
  | .cellRfmax c n => Sys2Proof.Machine.execCellRfmax c n s
  | .cellMov c n => Sys2Proof.Machine.execCellMov c n s
  | .cellMerge c n => Sys2Proof.Machine.execCellMerge c n s
  | .cellSplit c n => Sys2Proof.Machine.execCellSplit c n s
  | .cellDup c n => Sys2Proof.Machine.execCellDup c n s
  | .cellGate c n => Sys2Proof.Machine.execCellGate c n s
  | .cellSteer c n => Sys2Proof.Machine.execCellSteer c n s
  | .cellSink c n => Sys2Proof.Machine.execCellSink c n s
  | .cellConst c n => Sys2Proof.Machine.execCellConst c n s
  | .cellMkins c n => Sys2Proof.Machine.execCellMkins c n s
  | .cellLd c n => Sys2Proof.Machine.execCellLd c n s
  | .cellSt c n => Sys2Proof.Machine.execCellSt c n s
  | .cellAmoAdd c n => Sys2Proof.Machine.execCellAmoAdd c n s
  | .cellAmoMin c n => Sys2Proof.Machine.execCellAmoMin c n s
  | .cellAmoMax c n => Sys2Proof.Machine.execCellAmoMax c n s
  | .cellAmoSwap c n => Sys2Proof.Machine.execCellAmoSwap c n s
  | .cellAmoAfadd c n => Sys2Proof.Machine.execCellAmoAfadd c n s
  | .cellOrdj c n => Sys2Proof.Machine.execCellOrdj c n s
  | .cellSpawn c n => Sys2Proof.Machine.execCellSpawn c n s
  | .spawnReply c n => Sys2Proof.Machine.execSpawnReply c n s
  | .cellCpy c n => Sys2Proof.Machine.execCellCpy c n s
  | .cellAcput c n => Sys2Proof.Machine.execCellAcput c n s
  | .memAccessEffect c n => Sys2Proof.Machine.execMemAccessEffect c n s
  | .agTileStart c n => Sys2Proof.Machine.execAgTileStart c n s
  | .agReadEmit c n => Sys2Proof.Machine.execAgReadEmit c n s
  | .agWriteConsume c n => Sys2Proof.Machine.execAgWriteConsume c n s
  | .agGather c n => Sys2Proof.Machine.execAgGather c n s
  | .agTileEnd c n => Sys2Proof.Machine.execAgTileEnd c n s
  | .dmReadReturn c n => Sys2Proof.Machine.execDmReadReturn c n s
  | .queuePush c n => Sys2Proof.Machine.execQueuePush c n s
  | .queuePop c n => Sys2Proof.Machine.execQueuePop c n s
  | .spillWrite c k => Sys2Proof.Machine.execSpillWrite c k s
  | .ringRefill c k => Sys2Proof.Machine.execRingRefill c k s
  | .loadStart lid => Sys2Proof.Machine.execLoadStart lid s
  | .loadEnd c => Sys2Proof.Machine.execLoadEnd c s
  | .quantumExpire lid => Sys2Proof.Machine.execQuantumExpire lid s
  | .loadStop lid => Sys2Proof.Machine.execLoadStop lid s
  | .leaseBreak lid => Sys2Proof.Machine.execLeaseBreak lid s
  | .collectiveAbandon lid => Sys2Proof.Machine.execCollectiveAbandon lid s
  | .leaseBarRelease lid => Sys2Proof.Machine.execLeaseBarRelease lid s
  | .cfgLdComplete c => Sys2Proof.Machine.execCfgLdComplete c s
  | .cfgPreComplete c => Sys2Proof.Machine.execCfgPreComplete c s
  | .configStoreEcc c unit => Sys2Proof.Machine.execConfigStoreEcc c unit s
  | .shapeGrant core => Sys2Proof.Machine.execShapeGrant core s
  | .shapeReleaseDone c => Sys2Proof.Machine.execShapeReleaseDone c s
  | .mnMm c => Sys2Proof.Machine.execMnMm c s
  | .mnMv c => Sys2Proof.Machine.execMnMv c s
  | .mnGatherA c => Sys2Proof.Machine.execMnGatherA c s
  | .mnTload c => Sys2Proof.Machine.execMnTload c s
  | .mnZero c => Sys2Proof.Machine.execMnZero c s
  | .mnDrain c => Sys2Proof.Machine.execMnDrain c s
  | .mnAcsend c => Sys2Proof.Machine.execMnAcsend c s
  | .mnCommandStart c i_ => Sys2Proof.Machine.execMnCommandStart c i_ s
  | .mnCommandComplete c i_ => Sys2Proof.Machine.execMnCommandComplete c i_ s
  | .mnCtlEos c => Sys2Proof.Machine.execMnCtlEos c s
  | .acnBlockSend c slot => Sys2Proof.Machine.execAcnBlockSend c slot s
  | .acnBlockArrive i_ => Sys2Proof.Machine.execAcnBlockArrive i_ s
  | .acnBlockAdd core cid => Sys2Proof.Machine.execAcnBlockAdd core cid s
  | .acnCreditReturn i_ => Sys2Proof.Machine.execAcnCreditReturn i_ s
  | .acnJoinRequest i_ => Sys2Proof.Machine.execAcnJoinRequest i_ s
  | .acnJoinReply i_ => Sys2Proof.Machine.execAcnJoinReply i_ s
  | .acnFinalise core cid => Sys2Proof.Machine.execAcnFinalise core cid s
  | .chainComplete core cid => Sys2Proof.Machine.execChainComplete core cid s
  | .acnDoneEos c => Sys2Proof.Machine.execAcnDoneEos c s
  | .acnAbortNotice i_ => Sys2Proof.Machine.execAcnAbortNotice i_ s
  | .acnRefusal i_ => Sys2Proof.Machine.execAcnRefusal i_ s
  | .bankZeroDone core bank => Sys2Proof.Machine.execBankZeroDone core bank s
  | .l2WayConvert die slice => Sys2Proof.Machine.execL2WayConvert die slice s
  | .homeSliceRead i_ => Sys2Proof.Machine.execHomeSliceRead i_ s
  | .homeSliceWrite i_ => Sys2Proof.Machine.execHomeSliceWrite i_ s
  | .l2Fill die pa handle => Sys2Proof.Machine.execL2Fill die pa handle s
  | .channelRequest i_ => Sys2Proof.Machine.execChannelRequest i_ s
  | .cacheLayerFill die pa handle => Sys2Proof.Machine.execCacheLayerFill die pa handle s
  | .meshArbitration core port => Sys2Proof.Machine.execMeshArbitration core port s
  | .flitCrcRetry core side acn good => Sys2Proof.Machine.execFlitCrcRetry core side acn good s
  | .pageWalk die asid va => Sys2Proof.Machine.execPageWalk die asid va s
  | .replayRetry die i_ => Sys2Proof.Machine.execReplayRetry die i_ s
  | .replayRelease die asid va => Sys2Proof.Machine.execReplayRelease die asid va s
  | .counterReread c => Sys2Proof.Machine.execCounterReread c s
  | .barrierReleaseMsg c => Sys2Proof.Machine.execBarrierReleaseMsg c s
  | .cePacketIntake core => Sys2Proof.Machine.execCePacketIntake core s
  | .cePacketStart core i_ => Sys2Proof.Machine.execCePacketStart core i_ s
  | .ceCopy core i_ => Sys2Proof.Machine.execCeCopy core i_ s
  | .ceCopy2d core i_ => Sys2Proof.Machine.execCeCopy2d core i_ s
  | .ceCopy4d core i_ => Sys2Proof.Machine.execCeCopy4d core i_ s
  | .ceFill core i_ => Sys2Proof.Machine.execCeFill core i_ s
  | .ceGather core i_ => Sys2Proof.Machine.execCeGather core i_ s
  | .ceScatter core i_ => Sys2Proof.Machine.execCeScatter core i_ s
  | .ceMcast core i_ => Sys2Proof.Machine.execCeMcast core i_ s
  | .ceCadd core i_ => Sys2Proof.Machine.execCeCadd core i_ s
  | .ceTaskarm core i_ => Sys2Proof.Machine.execCeTaskarm core i_ s
  | .ceLaunch core i_ => Sys2Proof.Machine.execCeLaunch core i_ s
  | .ceSignal core i_ => Sys2Proof.Machine.execCeSignal core i_ s
  | .cePull core i_ => Sys2Proof.Machine.execCePull core i_ s
  | .cePacketComplete core i_ => Sys2Proof.Machine.execCePacketComplete core i_ s
  | .ceDoneEos c => Sys2Proof.Machine.execCeDoneEos c s
  | .kickNoticeArrive i_ => Sys2Proof.Machine.execKickNoticeArrive i_ s
  | .kickNoticeResend i_ => Sys2Proof.Machine.execKickNoticeResend i_ s
  | .pullAck i_ => Sys2Proof.Machine.execPullAck i_ s
  | .queueSlotTake q => Sys2Proof.Machine.execQueueSlotTake q s
  | .queueError q => Sys2Proof.Machine.execQueueError q s
  | .queueRestart q => Sys2Proof.Machine.execQueueRestart q s
  | .taskCompletionReport i_ => Sys2Proof.Machine.execTaskCompletionReport i_ s
  | .taskFaultReport i_ => Sys2Proof.Machine.execTaskFaultReport i_ s
  | .taskPush i_ => Sys2Proof.Machine.execTaskPush i_ s
  | .distributorSelect => Sys2Proof.Machine.execDistributorSelect s
  | .launchDependenceMet q => Sys2Proof.Machine.execLaunchDependenceMet q s
  | .ostlerPlacement => Sys2Proof.Machine.execOstlerPlacement s
  | .spawnPlace => Sys2Proof.Machine.execSpawnPlace s
  | .contextRelease c => Sys2Proof.Machine.execContextRelease c s
  | .launchComplete lid => Sys2Proof.Machine.execLaunchComplete lid s
  | .launchFault lid => Sys2Proof.Machine.execLaunchFault lid s
  | .schedulerTurnEnd lid => Sys2Proof.Machine.execSchedulerTurnEnd lid s
  | .compaction => Sys2Proof.Machine.execCompaction s
  | .relocation lid => Sys2Proof.Machine.execRelocation lid s
  | .relocationPairCopy lid k => Sys2Proof.Machine.execRelocationPairCopy lid k s
  | .relocationAbandon lid => Sys2Proof.Machine.execRelocationAbandon lid s
  | .contextGated c => Sys2Proof.Machine.execContextGated c s
  | .ctxcGate c => Sys2Proof.Machine.execCtxcGate c s
  | .ctxcUngate c => Sys2Proof.Machine.execCtxcUngate c s
  | .ctxcDestroy c => Sys2Proof.Machine.execCtxcDestroy c s
  | .ctxcRelease c => Sys2Proof.Machine.execCtxcRelease c s
  | .ostevEvict lid => Sys2Proof.Machine.execOstevEvict lid s
  | .ostevRestore lid => Sys2Proof.Machine.execOstevRestore lid s
  | .ostcmdGo => Sys2Proof.Machine.execOstcmdGo s
  | .trstGo t => Sys2Proof.Machine.execTrstGo t s
  | .ttabWrite stack h v => Sys2Proof.Machine.execTtabWrite stack h v s
  | .tlogWrite stack => Sys2Proof.Machine.execTlogWrite stack s
  | .fwlogWrite => Sys2Proof.Machine.execFwlogWrite s
  | .evlostWrite => Sys2Proof.Machine.execEvlostWrite s
  | .wdrWrite y v => Sys2Proof.Machine.execWdrWrite y v s
  | .l2remwWrite die v => Sys2Proof.Machine.execL2remwWrite die v s
  | .asidoWrite a v => Sys2Proof.Machine.execAsidoWrite a v s
  | .lqcfgWrite q v => Sys2Proof.Machine.execLqcfgWrite q v s
  | .ceqWrite core n v => Sys2Proof.Machine.execCeqWrite core n v s
  | .mlogtWrite t v => Sys2Proof.Machine.execMlogtWrite t v s
  | .registerWrite n v => Sys2Proof.Machine.execRegisterWrite n v s
  | .powerInterval core hbm peak => Sys2Proof.Machine.execPowerInterval core hbm peak s
  | .clkLower mhz => Sys2Proof.Machine.execClkLower mhz s
  | .clkRestore => Sys2Proof.Machine.execClkRestore s
  | .queueParityError c buf lasting => Sys2Proof.Machine.execQueueParityError c buf lasting s
  | .eccDoubleRetry w clean lasting => Sys2Proof.Machine.execEccDoubleRetry w clean lasting s
  | .stackHandOver stack => Sys2Proof.Machine.execStackHandOver stack s
  | .ucieModuleFail seam => Sys2Proof.Machine.execUcieModuleFail seam s
  | .jexlinkTrain port => Sys2Proof.Machine.execJexlinkTrain port s
  | .jexlinkKeyRenew port => Sys2Proof.Machine.execJexlinkKeyRenew port s
  | .jexlinkLinkFail port => Sys2Proof.Machine.execJexlinkLinkFail port s
  | .jexlinkRequest q => Sys2Proof.Machine.execJexlinkRequest q s
  | .remoteStoreAck i_ => Sys2Proof.Machine.execRemoteStoreAck i_ s
  | .remoteStoreLost i_ => Sys2Proof.Machine.execRemoteStoreLost i_ s
  | .remoteReadTimeout core i_ => Sys2Proof.Machine.execRemoteReadTimeout core i_ s
  | .apertureRead f off len tbit => Sys2Proof.Machine.execApertureRead f off len tbit s
  | .apertureWrite f off bytes tbit => Sys2Proof.Machine.execApertureWrite f off bytes tbit s
  | .apertureFetchadd f off v tbit => Sys2Proof.Machine.execApertureFetchadd f off v tbit s
  | .apertureSwap f off v tbit => Sys2Proof.Machine.execApertureSwap f off v tbit s
  | .apertureCas f off expect v tbit => Sys2Proof.Machine.execApertureCas f off expect v tbit s
  | .bar0RegisterAccess f off wr tbit => Sys2Proof.Machine.execBar0RegisterAccess f off wr tbit s
  | .msixInterrupt f vec => Sys2Proof.Machine.execMsixInterrupt f vec s
  | .vfEnableClear => Sys2Proof.Machine.execVfEnableClear s
  | .spdmRequest q data => Sys2Proof.Machine.execSpdmRequest q data s
  | .lockInterfaceRequest t stream => Sys2Proof.Machine.execLockInterfaceRequest t stream s
  | .startInterfaceRequest t => Sys2Proof.Machine.execStartInterfaceRequest t s
  | .stopInterfaceRequest t => Sys2Proof.Machine.execStopInterfaceRequest t s
  | .getDeviceInterfaceReport t => Sys2Proof.Machine.execGetDeviceInterfaceReport t s
  | .tdispError t cause whereAt => Sys2Proof.Machine.execTdispError t cause whereAt s
  | .functionLevelReset f => Sys2Proof.Machine.execFunctionLevelReset f s
  | .ideStreamFault stream => Sys2Proof.Machine.execIdeStreamFault stream s
  | .thermalEvent die temp => Sys2Proof.Machine.execThermalEvent die temp s
  | .thermalTrip die temp => Sys2Proof.Machine.execThermalTrip die temp s
  | .deviceReset => Sys2Proof.Machine.execDeviceReset s
  | .bootStageComplete imgs trained => Sys2Proof.Machine.execBootStageComplete imgs trained s
  | .deviceResponse i_ => Sys2Proof.Machine.execDeviceResponse i_ s
  | .launchImagePlaced lid => Sys2Proof.Machine.execLaunchImagePlaced lid s
  | .vfEnableSet t => Sys2Proof.Machine.execVfEnableSet t s
  | .configSpaceWrite t off v => Sys2Proof.Machine.execConfigSpaceWrite t off v s
  | .msixVectorUnmask f vec => Sys2Proof.Machine.execMsixVectorUnmask f vec s
  | .powerLoss => Sys2Proof.Machine.execPowerLoss s
  | .thermalRearm die temp => Sys2Proof.Machine.execThermalRearm die temp s

end Sys2Proof.Machine
end

