-- ==== Sys2Proof/Machine/Run.lean ====
section
/-! DEFINITION. The issue of the sequencer (R19), and the moves of the model's agenda. -/

namespace Sys2Proof.Machine

/-- One word of a context: fetched, decoded and executed; nothing where the context may not issue. -/
def State.runCtx (s : State) (c : CtxId) : Host.Outcome State Fault Refusal :=
  let s := { s with cur := c }
  if !s.canIssue c then .next s
  else match (s.ctx c).fetch with
    | .error t => .next (s.raise c t)
    | .ok i => exec i s

/-- A branch that is not held can leave the state as it was: it is no sign of a hold. -/
def Instr.isFlow (c : Ctx) : Instr → Bool
  | .br _ _ | .beq _ _ _ _ | .bne _ _ _ _ | .blt _ _ _ _ | .bge _ _ _ _ | .bltu _ _ _ _ | .bgeu _ _ _ _ => true
  | .call _ _ => !c.pends 31
  | .jalr _ d _ _ => !c.pends d
  | _ => false

/-- What a context offers in a cycle of its core: no word; a word that is held, with what its wait has begun (a walk asked for, R296); or its issue. -/
inductive Try
  | no
  | held (s : State)
  | done (o : Host.Outcome State Fault Refusal)

/-- The issue of a context that is a candidate of R19: none where it may not issue or has no credit. A word that leaves its context as it was is held. -/
def State.tryIssue (s : State) (c : CtxId) : Try :=
  let x := s.ctx c
  if !s.canIssue c || x.credit == 0 || x.skip then .no
  else
    let flow := match x.fetch with
      | .ok i => Instr.isFlow x i
      | .error _ => false
    match s.runCtx c with
    | .next t => if !flow && t.ctx c == x then .held { t with cur := s.cur } else .done (.next t)
    | o => .done o

/-- The end of a cycle: a new round starts in the following cycle when no READY context has credit (R19, R366, R399). -/
def State.endRound (s : State) (core : CoreId) : State :=
  let ids := (List.range 4).map (fun b => 4 * core + b)
  if ids.any (fun c => (s.ctx c).st == .ready && !(s.ctx c).gated && (s.ctx c).credit ≥ 1 && !(s.ctx c).skip) then s
  else
    let refill (s : State) (c : CtxId) : State :=
      let w := bits (s.mgv (0x0800 + (s.ctx c).ten.toNat)) 3 0
      if (s.ctx c).st == .empty || ((s.ctx c).credit == w && (s.ctx c).weight == w && !(s.ctx c).skip) then s
      else (s.updCtx c (fun x => { x with weight := w, credit := w, skip := false })).updCore core (fun k => { k with issued := some s.time })
    ids.foldl refill s

/-- n more events of a kind for the context x: 0 issued instructions, 1 firings, 2 K-steps, 3 bank accesses, 4 flits, 5 copy-engine bytes. -/
def State.noteOf (s : State) (x : Ctx) (kind n : Nat) : State :=
  let k := 512 * x.lease + 8 * x.ten.toNat + kind
  if n == 0 then s else { s with events := s.events.set k ((s.events.get? k).getD 0 + n) }

/-- The first candidate among banks of a core that issues, in order (R19); with none, the cycle ends. -/
def State.issueFrom (s : State) (core : CoreId) : List Nat → Host.Outcome State Fault Refusal
  | [] => .next (s.endRound core)
  | b :: rest =>
    match s.tryIssue (4 * core + b) with
    | .no => s.issueFrom core rest
    | .held t => t.issueFrom core rest
    | .done (.next t) =>
      .next (((t.updCtx (4 * core + b) (fun x => { x with credit := x.credit - 1 })).updCore core (fun k => { k with lastBank := b, issued := some s.time })).endRound core |>.noteOf (s.ctx (4 * core + b)) 0 1)
    | .done o => o

/-- A cycle of a core's sequencer: at most one word issues, of the first candidate after the bank that issued last (R19). -/
def State.issueCore (s : State) (core : CoreId) : Host.Outcome State Fault Refusal :=
  if (s.core core).issued == some s.time then .next s
  else s.issueFrom core ([1, 2, 3, 4].map (fun i => ((s.core core).lastBank + i) % 4))

/-- Is the operation a control word, which only the sequencer executes? -/
def Instr.isWord (i : Instr) : Bool := (encode i).isSome

/-- An operation's check or access, after which it can no longer trap (R21): of the scratchpad, or of a device request (R296). -/
def State.opAccess (s : State) (c : CtxId) (o : MemOp) : State :=
  match o.body with
  | .dev r => s.devCheck r
  | _ => s.bankAccess c o

/-! ### The events that energy is shared by (R382) -/

/-- The cells that a move has fired, by the bank that each served. -/
def State.noteFirings (s t : State) : State :=
  (t.turns.filter (fun e => e.1 % 512 < 256 && e.2.2 == t.time && s.turns.get? e.1 != some e.2)).foldl (fun u e => u.noteOf (s.ctx (4 * (e.1 / 512) + e.2.1)) 1 1) t

/-- The flits that a move has sent. -/
def State.noteFlits (s t : State) : State :=
  (t.flits.filter (fun f => !s.flits.any (fun g => g.req == f.req && g.resp == f.resp))).foldl (fun u f =>
    match t.dreqs.find? (fun r => r.id == f.req) with
    | some r => (match r.who with
      | .ctx c => u.noteOf (s.ctx c) 4 1
      | _ => u.noteOf { Ctx.blank with ten := BitVec.ofNat _ r.ten } 4 1)
    | none => u) t

/-- The context whose access to its banks a move makes, if it makes one. -/
def Move.accessor (s : State) : Move → Option CtxId
  | .access c i => ((s.ctx c).opAt i).bind (fun o => match o.body with | .dev _ => none | _ => some c)
  | .chainRead k i | .chainWrite k i _ => ((s.core k).chains[i]?).map (·.ctx)
  | .act (.memAccessEffect c _) | .act (.agReadEmit c _) | .act (.agWriteConsume c _) | .act (.agGather c _) | .act (.queuePush c _)
  | .act (.queuePop c _) | .act (.spillWrite c _) | .act (.ringRefill c _) => some c
  | _ => none

/-- K-steps that the multiplications of a context have taken. -/
def Ctx.kSteps (x : Ctx) : Nat :=
  x.mn.cmds.foldl (fun a k => if 1 ≤ tkOpc k.tok && tkOpc k.tok ≤ 3 then a + 32 * k.pos + k.got.length else a) 0

/-- Bytes of a packet whose accesses end with a move. -/
def State.movedBytes (s t : State) (core : CoreId) (i : Nat) : Option (CtxId × Nat) :=
  match s.pkt? core i, t.pkt? core i with
  | some p, some q =>
    if p.stage == 1 && q.stage ≥ 2 && p.num == q.num then (s.pktWork p).map (fun w => (p.ctx, w.2.2.foldl (fun a u => a + u.n) 0)) else none
  | _, _ => none

/-- The engine's packet on which a move works. -/
def Move.packet? : Move → Option (CoreId × Nat)
  | .act (.ceCopy k i) | .act (.ceCopy2d k i) | .act (.ceCopy4d k i) | .act (.ceFill k i) | .act (.ceGather k i) | .act (.ceScatter k i) => some (k, i)
  | _ => none

/-- The state t that a move has led to from s, with the move's events counted (R382). -/
def State.tally (s : State) (m : Move) (t : State) : State :=
  let u := s.noteFlits (s.noteFirings t)
  let u := match m.accessor s with
    | some c => if t.core (coreOf c) == s.core (coreOf c) && t.ctx c == s.ctx c then u else u.noteOf (s.ctx c) 3 1
    | none => u
  let u := match m with
    | .kStep c _ => u.noteOf (s.ctx c) 2 ((t.ctx c).kSteps - (s.ctx c).kSteps)
    | _ => u
  match m.packet?.bind (fun e => s.movedBytes t e.1 e.2) with
  | some (c, n) => u.noteOf (s.ctx c) 5 n
  | none => u

/-- A move of the agenda taken, before its events are counted. -/
def State.take (s : State) : Move → Host.Outcome State Fault Refusal
  | .issue k => s.issueCore k
  | .access c i => .next (match (s.ctx c).opAt i with | some o => s.opAccess c o | none => s)
  | .chainRead k i => .next (s.chainRead k i)
  | .chainWrite k i e => .next (s.chainWrite k i e)
  | .kStep c i => .next (s.kStep c i)
  | .statWrite i => .next (s.statWrite i)
  | .ceRead k i n => .next (s.ceReadAt k i n)
  | .ceWrite k i n => .next (s.ceWriteAt k i n)
  | .corrected k i => .next (s.corrected k i)
  | .linkUp => .next s.linkUp
  | .act i => if i.wf && !Instr.isWord i then exec i s else .next s

/-- A move of the agenda taken, and its events counted. -/
def State.perform (s : State) (m : Move) : Host.Outcome State Fault Refusal :=
  match s.take m with
  | .next t => .next (s.tally m t)
  | o => o

/-- The internal steps that the model tries for the context in cur when its agenda is empty, in this order. -/
def State.ownActs (s : State) : List (State → Out) :=
  let c := s.cur
  let k := coreOf c
  let ops := List.range (s.ctx c).ops.length
  [execTrapEntry c, execDividerComplete k] ++ ops.map (fun i s => s.perform (.access c i)) ++ ops.map (execSpadLoadComplete c) ++ ops.map (execSpadStoreComplete c) ++ ops.map (execAmoComplete c)
    ++ [execPassChainStart k, execPassChainComplete k, execCfgLdComplete c, execCfgPreComplete c, execShapeGrant k, execShapeReleaseDone c,
        execEndComplete c, execWaitSatisfied c, execContextRelease c]

/-- The move that the model takes when its agenda is empty: the first internal step of the context in cur that changes the state, else a cycle of
its core. -/
def State.ownMove (s : State) : Host.Outcome State Fault Refusal :=
  match s.ownActs.findSome? (fun f => match f s with
    | .next t => if t == s then none else some t
    | _ => none) with
  | some t => .next t
  | none => s.issueCore (coreOf s.cur)

/-- One step: the next move of the agenda, after the cycles it takes; without an agenda, the model's own move in the next cycle. -/
def State.oneStep (s : State) : Host.Outcome State Fault Refusal :=
  match s.agenda with
  | (dt, m) :: rest => { s with agenda := rest, time := s.time + dt }.perform m
  | [] => { s with time := s.time + 1 }.ownMove

/-- The state in which a control word stands at the IPC of context bank 0, which is READY, the next candidate of its core, and next on the agenda. -/
def State.placeWord (s : State) (w : BitVec 32) : State :=
  let x := s.ctx 0
  let a := x.ipc.toNat
  let x := { x with
    st := .ready, gated := false, wait := none, wake := 0, raised := [], credit := 1, skip := false
    istore := x.istore.setBytes a (wordBytes w), ilen := max x.ilen (a + 4) }
  { (s.setCtx 0 x).updCore 0 (fun k => { k with lastBank := 3, issued := none }) with agenda := (1, .issue 0) :: s.agenda, cur := 0 }

end Sys2Proof.Machine
end

