-- ==== Sys2Proof/Machine/Step.lean ====
section
/-! DEFINITION. The step of the machine. -/

namespace Sys2Proof.Machine

/-- One step (Run.lean). -/
def step (s : State) : Host.Outcome State Fault Refusal := s.oneStep

/-- The state whose next step fetches and runs the control word w: the loading of a program stands for an image placed from outside. -/
def State.withFetchWord (s : State) (_nbits w : Nat) : State := s.placeWord (BitVec.ofNat 32 w)

end Sys2Proof.Machine
end

