-- ==== Sys2Proof/Safety.lean ====
section
/-! DEFINITION. The terms in which the statements speak: a step that does not stop, the conditions under which an operation goes, and what it may
leave alone. -/

namespace Sys2Proof.Machine

/-- A step that does not stop: traps and faults of the manual are next states, so every safe run goes on. -/
def State.Safe (s : State) : Prop := ∃ t, step s = .next t

/-- Context c is passed over in a cycle of its core: it may not issue, has no credit or has yielded, or its word is held (R13, R19, R399). -/
abbrev State.Passed (s : State) (c : CtxId) : Prop :=
  s.canIssue c = false ∨ (s.ctx c).credit = 0 ∨ (s.ctx c).skip = true
    ∨ ∃ i, (s.ctx c).fetch = .ok i ∧ Instr.isFlow (s.ctx c) i = false ∧ exec i { s with cur := c } = .next { s with cur := c }

/-- In the present cycle of core k no word has issued, and context c, n banks after the last one that issued, is the first whose turn it may be (R19). -/
abbrev State.Turn (s : State) (k n : Nat) (c : CtxId) : Prop :=
  1 ≤ n ∧ n ≤ 4 ∧ c = 4 * k + ((s.core k).lastBank + n) % 4 ∧ (s.core k).issued ≠ some s.time ∧ s.canIssue c = true ∧ (s.ctx c).credit ≠ 0
    ∧ (s.ctx c).skip = false ∧ ∀ m, 1 ≤ m → m < n → s.Passed (4 * k + ((s.core k).lastBank + m) % 4)

/-- The end of a cycle of core k in which the word of context c has issued, with t its effect: the credit falls, the bank is the last one (R19), and the
word is counted among the events of R382. -/
abbrev State.issuedBy (s t : State) (k : CoreId) (c : CtxId) : State :=
  (((t.updCtx c (fun x => { x with credit := x.credit - 1 })).updCore k (fun u => { u with lastBank := c % 4, issued := some s.time })).endRound k).noteOf
    (s.ctx c) 0 1

/-- The context whose control word is executed. -/
abbrev State.self (s : State) : Ctx := s.ctx s.cur

/-- The state in which the context that executes is x. -/
abbrev State.withSelf (s : State) (x : Ctx) : State := s.setCtx s.cur x

/-- An access of n bytes at budget address a that every check of R22, R24, R231 and R257 passes: aligned, inside the budget, in a bank in
scratchpad mode, in no locked region, and in no word with an uncorrectable error. -/
abbrev State.SpadOk (s : State) (c : CtxId) (a n : Nat) : Prop :=
  a % n = 0 ∧ a + n ≤ (s.ctx c).banks.length * 2 ^ 17 ∧ ((s.ctx c).banks[a / 2 ^ 17]?).map (·.mode) = some BankMode.spad
    ∧ s.locked c a n = false ∧ (s.core (coreOf c)).poison.contains ((s.ctx c).sramAddr (a / 8 * 8)) = false

/-- The machine's memory, registers and flags of other contexts: what a word that only issues an operation leaves alone. -/
abbrev State.SameElsewhere (s t : State) : Prop :=
  (∀ c, c ≠ s.cur → t.ctx c = s.ctx c) ∧ t.cores = s.cores ∧ t.dies = s.dies ∧ t.mem = s.mem ∧ t.mg = s.mg

/-- Nothing but the context bank c has changed. -/
abbrev State.OnlyCtx (s t : State) (c : CtxId) : Prop := t = s.setCtx c (t.ctx c)

/-- Nothing but the context bank c has changed, and cell n's arbiter, which has served c in this cycle (R116). -/
abbrev State.OnlyFiring (s t : State) (c : CtxId) (n : Nat) : Prop :=
  t = { s.setCtx c (t.ctx c) with turns := s.turns.set (512 * coreOf c + n) (c % 4, s.time) }

/-- Cell n of the running load of c holds k, configured with operation op, it is the context's turn, and nothing withholds its firing (R116, R117, R384). -/
abbrev State.CellReady (s : State) (c : CtxId) (n op : Nat) (k : Cell) : Prop :=
  (s.ctx c).fab.cell? n = some k ∧ wOp k.word = op ∧ (s.ctx c).active? = true ∧ s.isOpen (s.ctx c).ten.toNat = true ∧ k.held = [] ∧ k.busy = none
    ∧ k.waitBlk = [] ∧ (s.ctx c).fab.canClose (.out n) 1 = true ∧ s.turn c n = true

/-- The queues that the cell reads offer m elements before the next marker (R118). -/
abbrev Cell.Offers (k : Cell) (m : Nat) : Prop := headsOf ((wQueues k.word).map k.queue) = .data m

/-- The cell after a firing that consumes m elements of each queue read and places results in the packer (R118, R119). -/
abbrev Cell.fired (k : Cell) (m : Nat) (out : List W32) : Cell := { k.popQs (wQueues k.word) m with pk := k.pk ++ out }

/-- The state after a firing: cell n of c's load is k, the flags are ORed into c's flag word, and nothing else has changed. -/
abbrev State.Fired (s t : State) (c : CtxId) (n : Nat) (k : Cell) (fl : W32) : Prop :=
  s.OnlyFiring t c n ∧ t.ctx c = { s.ctx c with fab := (s.ctx c).fab.setCell n k }.addFlags s.time fl

/-- A device operand ea of context c that passes every check of R296 and is local: aligned, no high bits, a cached translation with the permissions
needed, no refusal of the tenant table, the owner or a word with a lasting error; pa is its physical address. -/
abbrev State.DevOk (s : State) (c : CtxId) (ea : W64) (size hi : Nat) (need : Need) (pa : Nat) : Prop :=
  ea.toNat % size = 0 ∧ bits ea hi 56 = 0 ∧ s.isLocal pa = true ∧ s.accessFault (s.ctx c).ten.toNat (some (dieOf (coreOf c))) (bits ea 55 0) pa size = none
    ∧ ∃ e, s.tlbHit (coreOf c) (dieOf (coreOf c)) (s.ctx c).asid.toNat (bits ea 55 0) = some e ∧ (need.rd = true → e.rd = true) ∧ (need.wr = true → e.wr = true)
        ∧ pa = e.pa + (bits ea 55 0 - e.va)

/-- The same for an operand of the units that reach a page of another package, whose words are judged there (R296, R426). -/
abbrev State.DevAny (s : State) (c : CtxId) (ea : W64) (size hi : Nat) (need : Need) (pa : Nat) : Prop :=
  ea.toNat % size = 0 ∧ bits ea hi 56 = 0
    ∧ (s.isLocal pa = true → s.accessFault (s.ctx c).ten.toNat (some (dieOf (coreOf c))) (bits ea 55 0) pa size = none)
    ∧ ∃ e, s.tlbHit (coreOf c) (dieOf (coreOf c)) (s.ctx c).asid.toNat (bits ea 55 0) = some e ∧ (need.rd = true → e.rd = true) ∧ (need.wr = true → e.wr = true)
        ∧ pa = e.pa + (bits ea 55 0 - e.va)

/-- Tile n of the running load of c is t, which runs a tile of its nest in the given mode, and nothing withholds it (R117, R126). -/
abbrev State.TileRuns (s : State) (c : CtxId) (n mode : Nat) (t : Tile) : Prop :=
  (s.ctx c).active? = true ∧ (s.ctx c).fab.tiles.get? n = some t ∧ t.running = true ∧ agMode t.ctrl = mode

/-- The TLBs hold a translation of va for context c with the permissions needed, and pa is the physical address that it gives (R289 to R291). -/
abbrev State.Cached (s : State) (c : CtxId) (va : Nat) (need : Need) (pa : Nat) : Prop :=
  va < 2 ^ 56 ∧ ∃ e, s.tlbHit (coreOf c) (dieOf (coreOf c)) (s.ctx c).asid.toNat va = some e ∧ (need.rd = true → e.rd = true) ∧ (need.wr = true → e.wr = true)
    ∧ pa = e.pa + (va - e.va)

/-- An access of n bytes at va by a unit of context c's load that goes to local memory: translated, refused by no tenant table, owner, or, where it reads,
lost or uncorrectable word, with no failed link in the package (R282, R286, R287, R292, R405, R421). -/
abbrev State.UnitOk (s : State) (c : CtxId) (va n : Nat) (need : Need) (pa : Nat) : Prop :=
  s.Cached c va need pa ∧ s.isLocal pa = true
    ∧ s.grantFault (s.ctx c).ten.toNat (some (dieOf (coreOf c))) va pa n need = none ∧ s.dead = []

/-- The image m stands at scratchpad address ea and passes every check of R190 for context c. -/
abbrev State.SpadImage (s : State) (c : CtxId) (ea : W64) (m : Img) : Prop :=
  m = (fun i => (s.spadBytes c (ea.toNat + i) 1).headD 0) ∧ s.spadFault c ea 64 64 unitSeq = none ∧ s.spadEcc c ea.toNat 64 false = none
    ∧ headerErr m (s.ctx c).lw.toNat (s.ctx c).lh.toNat = none ∧ ea.toNat + (imgHeader m).len ≤ (s.ctx c).budget
    ∧ s.spadFault c ea 1 (imgHeader m).len unitSeq = none ∧ s.spadEcc c ea.toNat (imgHeader m).len false = none ∧ fullErr m (s.ctx c).det = none

/-- The image m stands at virtual address va, in pages whose translations pa are cached, and passes every check of R288 for context c, with no failed link
in the package. -/
abbrev State.DevImage (s : State) (c : CtxId) (va : Nat) (pa : Nat → Nat) (m : Img) : Prop :=
  va % 64 = 0 ∧ s.Cached c va ⟨true, false⟩ (pa 0 + va % 2 ^ 17) ∧ s.isLocal (pa 0 + va % 2 ^ 17) = true
    ∧ s.accessFault (s.ctx c).ten.toNat (some (dieOf (coreOf c))) va (pa 0 + va % 2 ^ 17) 64 = none
    ∧ headerErr (fun i => s.devByte (memKey (pa 0 + va % 2 ^ 17) + i)) (s.ctx c).lw.toNat (s.ctx c).lh.toNat = none
    ∧ (∀ k p q, k ≤ (va + (imgHeader (fun i => s.devByte (memKey (pa 0 + va % 2 ^ 17) + i))).len - 1) / 2 ^ 17 - va / 2 ^ 17 →
        p = pagePart va (imgHeader (fun i => s.devByte (memKey (pa 0 + va % 2 ^ 17) + i))).len k → q = pa k + p.1 % 2 ^ 17 →
          s.Cached c p.1 ⟨true, false⟩ q ∧ s.isLocal q = true ∧ s.accessFault (s.ctx c).ten.toNat (some (dieOf (coreOf c))) p.1 q p.2 = none)
    ∧ m = (fun i => s.devByte (memKey (pa ((va + i) / 2 ^ 17 - va / 2 ^ 17) + (va + i) % 2 ^ 17))) ∧ fullErr m (s.ctx c).det = none ∧ s.dead = []

/-- An instruction of the context that executes has issued a device request for pa and retired: the request is on its way to its home slice, or, for a page
of another package, to its own core's stop (R265, R295, R426). -/
abbrev State.SentReq (s t : State) (isStore : Bool) (d : BitVec 5) (va pa : Nat) (kind : DKind) : Prop :=
  t.self = (s.self.pushOp isStore d (.dev s.dreqN)).advance ∧ t.dreqN = s.dreqN + 1
    ∧ t.dreqs = s.dreqs ++ [⟨s.dreqN, s.self.ipc, .ctx s.cur, s.self.ten.toNat, s.self.asid.toNat, va, pa, kind, .out, 0, [], none, false⟩]
    ∧ t.flits = s.flits ++ [⟨s.dreqN, false, 0, coreOf s.cur, 0, if s.isLocal pa then s.homeCore pa else coreOf s.cur, 0, s.time, 0⟩]
    ∧ t.mem = s.mem ∧ ∀ c, c ≠ s.cur → t.ctx c = s.ctx c

/-- Request r stands i-th at the home slice of its local line, and nothing refuses or delays it (R267, R268, R297). -/
abbrev State.AtHome (s : State) (i : Nat) (r : DReq) : Prop :=
  s.dreqs[i]? = some r ∧ s.reqReady r = true ∧ s.isLocal r.pa = true ∧ s.reqFault r r.kind.size = none ∧ s.mem.wf = true

/-- Request r has been performed and its answer is on its way back (R273). -/
abbrev State.Answered (s t : State) (r : DReq) (res : W64) (data : List Byte) (fault : Option Trap) (vc : Nat) : Prop :=
  t.dreqs = updFirst (fun q => q.id == r.id) (fun q => { q with stage := .back, res := res, data := data, fault := fault }) s.dreqs
    ∧ t.flits = s.flits ++ [⟨r.id, true, vc, s.homeCore r.pa, 0, r.who.core, 0, s.time, 0⟩]

/-- Device memory holds bs from pa on and is otherwise as it was. -/
abbrev State.DevWritten (s t : State) (pa : Nat) (bs : List Byte) : Prop :=
  ∀ x, t.devByte x = if memKey pa ≤ x ∧ x < memKey pa + bs.length then bs.getD (x - memKey pa) 0 else s.devByte x

/-- An access of n bytes at va by engine or server w in an ASID of a tenant that goes to local memory: translated by the TLBs of w's core and the die that
walks for it, refused by no tenant table, owner, or, where it reads, lost or uncorrectable word, and by no failed link (R282, R289 to R292, R405, R421). -/
abbrev State.EngOk (s : State) (w : Who) (die : Nat) (home : Option Nat) (asid ten va n : Nat) (need : Need) (pa : Nat) : Prop :=
  va < 2 ^ 56 ∧ (∃ e, s.tlbHit w.core die asid va = some e ∧ (need.rd = true → e.rd = true) ∧ (need.wr = true → e.wr = true)
    ∧ pa = e.pa + (va - e.va)) ∧ s.isLocal pa = true ∧ s.grantFault ten home va pa n need = none ∧ s.meshFault w.core va pa = none

/-- The same for the hub's unit i, for which die 0 walks. -/
abbrev State.HubOk (s : State) (i asid ten va n : Nat) (need : Need) (pa : Nat) : Prop := s.EngOk (.engine hubCore i ten) 0 none asid ten va n need pa

/-- The same for the server of queue q, in the queue's ASID (R345, R364). -/
abbrev State.QOk (s : State) (q va n : Nat) (need : Need) (pa : Nat) : Prop :=
  (q < 64 → s.HubOk q (s.qAsid q) (s.qTen q) va n need pa)
    ∧ (64 ≤ q → s.EngOk (.engine ((q - 64) / 4) (2 ^ 40 + q % 4) (s.qTen q)) (dieOf ((q - 64) / 4)) (some (dieOf ((q - 64) / 4))) (s.qAsid q) (s.qTen q) va n need pa)

/-- An access of n bytes of a packet at address x of context c, whose words belong to a tenant's ASID, passes every check of R22, R231, R257 and R327 and goes
to p. -/
abbrev State.PlaceOk (s : State) (w : Who) (c : CtxId) (asid ten : Nat) (x : CeAddr) (n : Nat) (need : Need) (p : Place) : Prop :=
  (x.dev = true ∧ ∃ va pa : Nat, x.a = va ∧ p = .mem pa ∧ s.EngOk w (dieOf w.core) (some (dieOf w.core)) asid ten va n need pa)
  ∨ (x.dev = false ∧ ∃ a : Nat, x.a = a ∧ p = .spad a ∧ s.spadFault c (BitVec.ofNat 64 a) (min 4 n) n unitSeq = none ∧ (s.ctx c).zeroing a n = false
    ∧ (need.rd = true → s.spadEcc c a n false = none) ∧ s.spadLost w c x = none)

/-- A source of a packet: n bytes at a are read at p, through the near cache of the packet's context, and are bs (R259, R332). -/
abbrev State.SrcOk (s : State) (w : Who) (rd wr : CeOwner) (a : CeAddr) (n : Nat) (p : Place) (bs : List Byte) : Prop :=
  s.PlaceOk w rd.ctx rd.asid rd.ten a n ⟨true, false⟩ p ∧ bs = s.placeBytes wr.ctx rd.ctx n p ∧ ∀ pa, p = .mem pa → (s.ctx wr.ctx).nearWaits pa = false

/-- Both accesses of an element u of a packet's work are good: g is where it reads, its bytes, and where it writes. -/
abbrev State.UnitGood (s : State) (w : Who) (rd wr : CeOwner) (u : CeUnit) (g : CeGood) : Prop :=
  (u.src = none → g.src = none ∧ g.bs = toBytes u.n u.val.toNat)
    ∧ (∀ a, u.src = some a → ∃ p, g.src = some p ∧ s.SrcOk w rd wr a u.n p g.bs)
    ∧ s.PlaceOk w wr.ctx wr.asid wr.ten u.dst u.n ⟨false, true⟩ g.dst

/-- Queue q, bound and served, has a slot ready at its RDIDX, which is idx: b is the slot, line its control line, seen its arrival cycle (R344, R345, R364,
R367). -/
abbrev State.SlotReady (s : State) (q idx : Nat) (b : List Byte) (line seen : Nat) : Prop :=
  (s.qCfg q).getLsbD 63 = true ∧ (s.qState q).held = false ∧ (s.qState q).err = false ∧ (s.qState q).pend = none ∧ s.intakeStopped (s.qTen q) = false
    ∧ s.asidOk (s.qAsid q) (s.qTen q) = true ∧ s.QOk q (s.qLine q) 64 ⟨true, true⟩ line ∧ bits (s.dev64 (line + 24)) 7 0 = 0 ∧ idx = (s.dev64 (line + 8)).toNat
    ∧ ∃ pa, s.QOk q (bits (s.dev64 (line + 16)) 55 6 * 64 + 64 * (idx % 2 ^ (bits (s.dev64 (line + 16)) 3 0 + 4))) 64 ⟨true, false⟩ pa
      ∧ b = s.devBytes pa 64 ∧ seen = (s.hdrs.get? (memKey pa / 64)).getD 0 ∧ pkType b ≠ 0 ∧ pk b 6 2 = idx % 65536

/-- h is a head of launch queue q that the distributor may take: served, checked, its dependence met, and not refused (R364, R368, R369). -/
abbrev State.GoodHead (s : State) (q : Nat) (h : LHead) : Prop :=
  q < 64 ∧ (∃ k, (q, k) ∈ s.queues ∧ k.head = some h) ∧ s.served q = true ∧ h.checked = true ∧ h.met = true ∧ s.refusedMark h = false

/-- The head of some launch queue has been refused sixteen times (R369). -/
abbrev State.Reserved (s : State) : Prop := ∃ q k h, q < 64 ∧ (q, k) ∈ s.queues ∧ k.head = some h ∧ h.noplace ≥ 16

/-- A request that came on IDE stream k with the T bit, or without one, is one that the interface of function f takes (R440). -/
abbrev State.OnStream (s : State) (f : Nat) (tbit : Option Nat) : Prop :=
  f ≠ 0 → s.tds f ≠ 3 ∧ tbit = if s.tds f = 0 then none else (s.tdis.get? f).map (·.stream)

/-- An access of n bytes at offset off of the aperture of function f passes every check of R289 and R430 to R432, with none of its tenant's waiting for
its budget before it, and goes to pa; s' is s with its budgets and lines used (R271, R430). -/
abbrev State.AperOk (s : State) (f off n : Nat) (write : Bool) (tbit : Option Nat) (need : Need) (pa : Nat) (s' : State) : Prop :=
  s.booted = true ∧ f < 64 ∧ (f = 0 ∨ f ∈ s.vfs) ∧ s.OnStream f tbit ∧ (s.mgv (0x82A0 + f)).getLsbD 63 = true ∧ n ≠ 0
    ∧ off + n ≤ 2 ^ 22 ∧ off / 4096 = (off + n - 1) / 4096 ∧ s.asidOk (bits (s.mgv (0x82A0 + f)) 10 0) f = true ∧ (s.mgv (0x80A0 + f)).getLsbD 1 = false
    ∧ (write = true → s.mlogShort f ((n + 63) / 64) = false) ∧ s.inBudget ⟨8 * f + (if write then 1 else 0), off, n⟩ = true ∧ s.canSpend f (if write then 1 else 0) n = true
    ∧ ∀ asid va walks, asid = bits (s.mgv (0x82A0 + f)) 10 0 → va = bits (s.mgv (0x82A0 + f)) 55 22 * 2 ^ 22 + off →
        walks = (if (s.die 0).stlb.any (·.covers asid va) then 0 else 1) →
          s.canSpend f 2 walks = true ∧ s.HubOk (300 + f) asid f va n need pa ∧ s' =
            (((s.leaveBudget ⟨8 * f + (if write then 1 else 0), off, n⟩).spend f (if write then 1 else 0) n).spend f 2 walks).hubUse asid va pa n write

/-- A management register a write to which does nothing but change it (R277, R294, R346, R387, R410, R448). -/
abbrev plainReg (n : Nat) : Prop :=
  ¬(0x0100 ≤ n ∧ n < 0x0140 ∧ n % 16 = 0) ∧ ¬(0x0180 ≤ n ∧ n < 0x01B0) ∧ ¬(0x0880 ≤ n ∧ n < 0x0980 ∧ n % 4 = 0) ∧ ¬(0x09C1 ≤ n ∧ n ≤ 0x09C4)
    ∧ ¬(0x0A00 ≤ n ∧ n < 0x0A40) ∧ n ≠ 0x0A43 ∧ ¬(0x1000 ≤ n ∧ n < 0x1800) ∧ ¬(0x3000 ≤ n ∧ n < 0x3500) ∧ ¬(0x4000 ≤ n ∧ n < 0x7200)
    ∧ ¬(0x7400 ≤ n ∧ n < 0x7510) ∧ ¬(0x7600 ≤ n ∧ n < 0x7610) ∧ n ≠ 0x8010 ∧ n ≠ 0x0A40 ∧ ¬(0x80E0 ≤ n ∧ n < 0x8120) ∧ ¬(0xA000 ≤ n ∧ n < 0xAA00 ∧ n % 2 = 0)

/-- The counters of a context stay within their range: none counts more than 31 outstanding operations, each outstanding load, store and atomic has a number of
its own, given in issue order, no two of them write one register, and a CQ.SUB that waits for its slot has none before it (R17, R21, R69, R348). -/
abbrev Ctx.Counted (x : Ctx) : Prop :=
  x.cntLd ≤ 31 ∧ x.cntSt ≤ 31 ∧ x.cntCp ≤ 31 ∧ x.cntTl ≤ 31 ∧ x.ops.Pairwise (fun a b => a.id < b.id) ∧ (∀ o ∈ x.ops, o.id < x.opN)
    ∧ x.ops.Pairwise (fun a b => a.dst = 0 ∨ a.dst ≠ b.dst) ∧ ∀ d e, x.wait = some (.cqSub d e) → x.ops = []

/-- The channel queues of a context stay within their parts: the bank part holds at most 32,768 elements, head and tail are no further apart than the ring's
size allows, and the elements between them are those in the ring and those in the spill block (R263, R264). -/
abbrev Ctx.QueuesFit (x : Ctx) : Prop :=
  ∀ b ∈ x.banks, b.q.part.length ≤ 32768 ∧ b.q.h ≤ b.q.t ∧ b.q.t < b.q.h + b.q.rs + 4 ∧ b.q.t = b.q.h + 4 * (b.q.ring.length + b.q.held.length)

/-- On every slot of a context's join table the credits held and the blocks sent and not yet credited make up the window of the chain (R234). -/
abbrev Ctx.WindowsHold (x : Ctx) : Prop := ∀ j ∈ x.joins, j.credits + j.out = j.w

/-- A property of contexts holds of all: those of the context banks, and those that evicted leases have saved (R395). -/
abbrev State.AllCtx (s : State) (P : Ctx → Prop) : Prop := (∀ e ∈ s.ctxs, P e.2) ∧ ∀ l ∈ s.leases, ∀ v ∈ l.2.saved, P v.ctx

/-- No writer of the present cycle to register n stands behind who in the order of R400. -/
abbrev State.LastWriter (s : State) (who : CtxId) (n : Nat) : Prop := ∀ e ∈ s.mgNow n, e.1 ≤ who

/-- The state in which who is the last writer of register n, with v. -/
abbrev State.wroteBy (s : State) (who : CtxId) (n : Nat) (v : W64) : State := { s with mgLast := s.mgLast.set n (s.time, s.mgNow n ++ [(who, v)]) }

/-- A context whose load holds k as cell n. -/
abbrev Ctx.withCell (x : Ctx) (n : Nat) (k : Cell) : Ctx := { x with fab := x.fab.setCell n k }

/-- The rounding mode of a cell word (R139). -/
abbrev Cell.round (k : Cell) : Round := Round.ofCode (BitVec.ofNat 2 (wRM k.word))

end Sys2Proof.Machine
end

