-- ==== Sys2Proof/Certificates/Slice0/Obligations.lean ====
section
/-! DEFINITION. The statements about the machine, by family. -/

open Sys2Proof Sys2Proof.Machine

/-- R71: each ALU word whose guard is true and whose destination is not pending writes the value of Table 1 into g[d] and goes on at the next word;
nothing else of the machine changes. The counts of CLZ, CTZ and POPC are characterised in BitCountsAreExact. R71: what CLZ, CTZ and POPC count, for
every operand: below the count every bit is 0, the bit at the count is 1 unless the operand is 0 (then the count is 64), and POPC is the number of
bits that are 1. R72: a division whose guard is true, whose destination is not pending and whose divider is free writes the quotient or remainder,
with the special cases of Table 2, goes on, and occupies the core's divider; a busy divider holds it. -/
def Obligations.AluWordsWriteTheirResult : Prop :=
  -- AluWordsWriteTheirResult
  (
    ∀ (s : State) (g : Guard) (d a b : BitVec 5), s.self.guard g = true → s.self.pends d = false →
      ∀ e ∈ ([(.add g d a b, 0x01, s.self.reg a + s.self.reg b),
        (.sub g d a b, 0x02, s.self.reg a - s.self.reg b),
        (.and g d a b, 0x03, s.self.reg a &&& s.self.reg b),
        (.or g d a b, 0x04, s.self.reg a ||| s.self.reg b),
        (.xor g d a b, 0x05, s.self.reg a ^^^ s.self.reg b),
        (.andn g d a b, 0x06, s.self.reg a &&& ~~~s.self.reg b),
        (.orn g d a b, 0x07, s.self.reg a ||| ~~~s.self.reg b),
        (.shl g d a b, 0x08, s.self.reg a <<< ((s.self.reg b).toNat % 64)),
        (.shr g d a b, 0x09, s.self.reg a >>> ((s.self.reg b).toNat % 64)),
        (.sra g d a b, 0x0A, (s.self.reg a).sshiftRight ((s.self.reg b).toNat % 64)),
        (.rol g d a b, 0x0B, (s.self.reg a).rotateLeft ((s.self.reg b).toNat % 64)),
        (.ror g d a b, 0x0C, (s.self.reg a).rotateRight ((s.self.reg b).toNat % 64)),
        (.mul g d a b, 0x0D, s.self.reg a * s.self.reg b),
        (.mulh g d a b, 0x0E, BitVec.ofInt 64 ((s.self.reg a).toInt * (s.self.reg b).toInt / 2 ^ 64)),
        (.mulhu g d a b, 0x0F, BitVec.ofNat 64 ((s.self.reg a).toNat * (s.self.reg b).toNat / 2 ^ 64)),
        (.min g d a b, 0x14, if (s.self.reg a).toInt < (s.self.reg b).toInt then s.self.reg a else s.self.reg b),
        (.max g d a b, 0x15, if (s.self.reg a).toInt < (s.self.reg b).toInt then s.self.reg b else s.self.reg a),
        (.minu g d a b, 0x16, if (s.self.reg a).toNat < (s.self.reg b).toNat then s.self.reg a else s.self.reg b),
        (.maxu g d a b, 0x17, if (s.self.reg a).toNat < (s.self.reg b).toNat then s.self.reg b else s.self.reg a),
        (.addw g d a b, 0x18, ((s.self.reg a + s.self.reg b).truncate 32).signExtend 64),
        (.subw g d a b, 0x19, ((s.self.reg a - s.self.reg b).truncate 32).signExtend 64),
        (.mulw g d a b, 0x1A, ((s.self.reg a * s.self.reg b).truncate 32).signExtend 64),
        (.clz g d a, 0x1B, clz64 (s.self.reg a)),
        (.ctz g d a, 0x1C, ctz64 (s.self.reg a)),
        (.popc g d a, 0x1D, BitVec.ofNat 64 (popFrom (s.self.reg a).toNat 64))] : List (Instr × BitVec 6 × W64)),
        exec e.1 s = .next (s.withSelf (s.self.setReg d e.2.2).advance)
          ∧ encode e.1 = some (word g 0x00 (d ++ a ++ (if 0x1B#6 ≤ e.2.1 then 0#5 else b) ++ e.2.1)))
  -- BitCountsAreExact
  ∧ (
    ∀ v : W64,
      (clz64 v).toNat ≤ 64 ∧ (∀ i, i < (clz64 v).toNat → v.getLsbD (63 - i) = false)
        ∧ (v ≠ 0 → (clz64 v).toNat < 64 ∧ v.getLsbD (63 - (clz64 v).toNat) = true) ∧ clz64 0 = 64
        ∧ (ctz64 v).toNat ≤ 64 ∧ (∀ i, i < (ctz64 v).toNat → v.getLsbD i = false)
        ∧ (v ≠ 0 → (ctz64 v).toNat < 64 ∧ v.getLsbD (ctz64 v).toNat = true) ∧ ctz64 0 = 64
        ∧ popFrom v.toNat 64 = ((List.range 64).filter (fun i => v.getLsbD i)).length)
  -- DivisionsWriteAndOccupyTheDivider
  ∧ (
    (∀ (s : State) (g : Guard) (d a b : BitVec 5), s.self.guard g = true → s.self.pends d = false → (s.core (coreOf s.cur)).divBusy = false →
      ∀ e ∈ ([(.div g d a b, 0x10, if s.self.reg b = 0 then BitVec.allOnes 64 else BitVec.ofInt 64 ((s.self.reg a).toInt.tdiv (s.self.reg b).toInt)),
        (.divu g d a b, 0x11, if s.self.reg b = 0 then BitVec.allOnes 64 else BitVec.ofNat 64 ((s.self.reg a).toNat / (s.self.reg b).toNat)),
        (.rem g d a b, 0x12, if s.self.reg b = 0 then s.self.reg a else BitVec.ofInt 64 ((s.self.reg a).toInt.tmod (s.self.reg b).toInt)),
        (.remu g d a b, 0x13, if s.self.reg b = 0 then s.self.reg a else BitVec.ofNat 64 ((s.self.reg a).toNat % (s.self.reg b).toNat))]
          : List (Instr × BitVec 6 × W64)),
        encode e.1 = some (word g 0x00 (d ++ a ++ b ++ e.2.1))
        ∧ ∃ t, exec e.1 s = .next t ∧ t.self = (s.self.setReg d e.2.2).advance ∧ (t.core (coreOf s.cur)).divBusy = true
          ∧ t = (s.withSelf t.self).setCore (coreOf s.cur) { s.core (coreOf s.cur) with divBusy := true })
    ∧ (∀ (s : State) (g : Guard) (d a b : BitVec 5), (s.core (coreOf s.cur)).divBusy = true →
      ∀ i ∈ [Instr.div g d a b, .divu g d a b, .rem g d a b, .remu g d a b], exec i s = .next s)
    ∧ ∀ (s : State) (k : CoreId), ∃ t, exec (.dividerComplete k) s = .next t ∧ (t.core k).divBusy = false
        ∧ t = s.setCore k { s.core k with divBusy := false })

/-- R73, R74: the immediate and move words, with i the sign-extended imm11; MOVK16, MOVK32 and MOVK48 replace 16 bits of g[d]; a shift count above 63
makes the word ILLEGAL. -/
def Obligations.ImmediateAndMoveWordsWriteTheirResult : Prop :=
  (∀ (s : State) (g : Guard) (d a : BitVec 5) (i : BitVec 11) (k : BitVec 6) (h : BitVec 16), s.self.guard g = true → s.self.pends d = false →
    ∀ e ∈ ([(.addi g d a i, 0x01, d ++ a ++ i, s.self.reg a + i.signExtend 64),
      (.andi g d a i, 0x02, d ++ a ++ i, s.self.reg a &&& i.signExtend 64),
      (.ori g d a i, 0x03, d ++ a ++ i, s.self.reg a ||| i.signExtend 64),
      (.xori g d a i, 0x04, d ++ a ++ i, s.self.reg a ^^^ i.signExtend 64),
      (.shli g d a k, 0x05, d ++ a ++ 0#5 ++ k, s.self.reg a <<< k.toNat),
      (.shri g d a k, 0x06, d ++ a ++ 0#5 ++ k, s.self.reg a >>> k.toNat),
      (.srai g d a k, 0x07, d ++ a ++ 0#5 ++ k, (s.self.reg a).sshiftRight k.toNat),
      (.muli g d a i, 0x08, d ++ a ++ i, s.self.reg a * i.signExtend 64),
      (.addwi g d a i, 0x09, d ++ a ++ i, ((s.self.reg a + i.signExtend 64).truncate 32).signExtend 64),
      (.movi g d h, 0x0A, d ++ h, h.signExtend 64),
      (.movz g d h, 0x0B, d ++ h, h.zeroExtend 64)] : List (Instr × BitVec 7 × BitVec 21 × W64)),
      exec e.1 s = .next (s.withSelf (s.self.setReg d e.2.2.2).advance) ∧ encode e.1 = some (word g e.2.1 e.2.2.1))
  ∧ (∀ (s : State) (g : Guard) (d : BitVec 5) (h : BitVec 16), s.self.guard g = true → s.self.pends d = false →
    ∀ e ∈ ([(.movk16 g d h, 0x0C, 16), (.movk32 g d h, 0x0D, 32), (.movk48 g d h, 0x0E, 48)] : List (Instr × BitVec 7 × Nat)),
      encode e.1 = some (word g e.2.1 (d ++ h))
      ∧ ∃ v, exec e.1 s = .next (s.withSelf (s.self.setReg d v).advance)
        ∧ ∀ j, j < 64 → v.getLsbD j = if e.2.2 ≤ j ∧ j < e.2.2 + 16 then h.getLsbD (j - e.2.2) else (s.self.reg d).getLsbD j)
  ∧ ∀ (g : Guard) (d a : BitVec 5) (i : BitVec 11), 64 ≤ i.toNat → ∀ op ∈ [0x05#7, 0x06, 0x07], ∃ e, decodeWord (word g op (d ++ a ++ i)) = .error e

/-- R57, R81 to R83: the words that change the flow. The target of BR, CALL and the compare-and-branch words is IPC + 4 × the signed offset, kept to 16
bits; JALR takes its target from g[a] before it writes g[d]. -/
def Obligations.FlowWordsSetTheIpc : Prop :=
  (∀ (g : Guard) (off : BitVec 21) (d a : BitVec 5) (imm : BitVec 11),
    encode (.br g off) = some (word g 0x20 off) ∧ encode (.call g off) = some (word g 0x21 off) ∧ encode (.jalr g d a imm) = some (word g 0x22 (d ++ a ++ imm)))
  ∧ (∀ (s : State) (g : Guard) (off : BitVec 21), s.self.guard g = false →
    exec (.br g off) s = .next (s.withSelf s.self.advance)
    ∧ (s.self.pends 31#5 = false → exec (.call g off) s = .next (s.withSelf s.self.advance)))
  ∧ (∀ (s : State) (g : Guard) (off : BitVec 21), s.self.guard g = true →
    exec (.br g off) s = .next (s.withSelf { s.self with ipc := BitVec.ofInt 16 (s.self.ipc.toNat + 4 * off.toInt) })
    ∧ (s.self.pends 31#5 = false → exec (.call g off) s = .next (s.withSelf
        { s.self.setReg 31#5 ((s.self.ipc + 4).zeroExtend 64) with ipc := BitVec.ofInt 16 (s.self.ipc.toNat + 4 * off.toInt) })))
  ∧ (∀ (s : State) (g : Guard) (d a : BitVec 5) (imm : BitVec 11), s.self.guard g = true → s.self.pends d = false →
    exec (.jalr g d a imm) s = .next (s.withSelf { s.self.setReg d ((s.self.ipc + 4).zeroExtend 64) with
      ipc := (s.self.reg a + 4 * imm.signExtend 64).truncate 16 &&& 0xFFFC#16 }))
  ∧ ∀ (s : State) (g : Guard) (a b : BitVec 5) (off : BitVec 11), s.self.guard g = true →
    ∀ e ∈ ([(.beq g a b off, 0x23, s.self.reg a = s.self.reg b),
      (.bne g a b off, 0x24, s.self.reg a ≠ s.self.reg b),
      (.blt g a b off, 0x25, (s.self.reg a).toInt < (s.self.reg b).toInt),
      (.bge g a b off, 0x26, (s.self.reg b).toInt ≤ (s.self.reg a).toInt),
      (.bltu g a b off, 0x27, (s.self.reg a).toNat < (s.self.reg b).toNat),
      (.bgeu g a b off, 0x28, (s.self.reg b).toNat ≤ (s.self.reg a).toNat)] : List (Instr × BitVec 7 × Prop)),
      encode e.1 = some (word g e.2.1 (a ++ b ++ off))
      ∧ (e.2.2 → exec e.1 s = .next (s.withSelf { s.self with ipc := BitVec.ofInt 16 (s.self.ipc.toNat + 4 * off.toInt) }))
      ∧ (¬e.2.2 → exec e.1 s = .next (s.withSelf { s.self with ipc := s.self.ipc + 4 }))

/-- R77 to R80: compares and predicate words set p[d] to the truth of their relation; PGET and PPUT move all predicates. -/
def Obligations.PredicateWordsSetTheirPredicate : Prop :=
  (∀ (s : State) (g : Guard) (d : BitVec 3) (a b : BitVec 5) (i : BitVec 11), s.self.guard g = true →
    ∀ e ∈ ([(.cmpEq g d a b, 0x29, 0#2 ++ d ++ a ++ b ++ 1#6, decide (s.self.reg a = s.self.reg b)),
      (.cmpNe g d a b, 0x29, 0#2 ++ d ++ a ++ b ++ 2#6, decide (s.self.reg a ≠ s.self.reg b)),
      (.cmpLt g d a b, 0x29, 0#2 ++ d ++ a ++ b ++ 3#6, decide ((s.self.reg a).toInt < (s.self.reg b).toInt)),
      (.cmpGe g d a b, 0x29, 0#2 ++ d ++ a ++ b ++ 4#6, decide ((s.self.reg b).toInt ≤ (s.self.reg a).toInt)),
      (.cmpLtu g d a b, 0x29, 0#2 ++ d ++ a ++ b ++ 5#6, decide ((s.self.reg a).toNat < (s.self.reg b).toNat)),
      (.cmpGeu g d a b, 0x29, 0#2 ++ d ++ a ++ b ++ 6#6, decide ((s.self.reg b).toNat ≤ (s.self.reg a).toNat)),
      (.cmpTst g d a b, 0x29, 0#2 ++ d ++ a ++ b ++ 7#6, decide (s.self.reg a &&& s.self.reg b ≠ 0)),
      (.cmpiEq g d a i, 0x2A, 0#2 ++ d ++ a ++ i, decide (s.self.reg a = i.signExtend 64)),
      (.cmpiLt g d a i, 0x2B, 0#2 ++ d ++ a ++ i, decide ((s.self.reg a).toInt < i.toInt)),
      (.cmpiLtu g d a i, 0x2C, 0#2 ++ d ++ a ++ i, decide ((s.self.reg a).toNat < (i.signExtend 64).toNat))] : List (Instr × BitVec 7 × BitVec 21 × Bool)),
      exec e.1 s = .next (s.withSelf (s.self.setPred d e.2.2.2).advance) ∧ encode e.1 = some (word g e.2.1 e.2.2.1))
  ∧ (∀ (s : State) (g : Guard) (d a b : BitVec 3), s.self.guard g = true →
    ∀ e ∈ ([(.pand g d a b, 0x2D, 0#2 ++ d ++ 0#2 ++ a ++ 0#2 ++ b ++ 1#6, s.self.pred a && s.self.pred b),
      (.por g d a b, 0x2D, 0#2 ++ d ++ 0#2 ++ a ++ 0#2 ++ b ++ 2#6, s.self.pred a || s.self.pred b),
      (.pxor g d a b, 0x2D, 0#2 ++ d ++ 0#2 ++ a ++ 0#2 ++ b ++ 3#6, s.self.pred a != s.self.pred b),
      (.pandn g d a b, 0x2D, 0#2 ++ d ++ 0#2 ++ a ++ 0#2 ++ b ++ 4#6, s.self.pred a && !s.self.pred b),
      (.pnot g d a, 0x2D, 0#2 ++ d ++ 0#2 ++ a ++ 0#5 ++ 5#6, !s.self.pred a),
      (.pmov g d a, 0x2D, 0#2 ++ d ++ 0#2 ++ a ++ 0#5 ++ 6#6, s.self.pred a)] : List (Instr × BitVec 7 × BitVec 21 × Bool)),
      exec e.1 s = .next (s.withSelf (s.self.setPred d e.2.2.2).advance) ∧ encode e.1 = some (word g e.2.1 e.2.2.1))
  ∧ (∀ (s : State) (g : Guard) (d : BitVec 5), s.self.guard g = true → s.self.pends d = false →
    encode (.pget g d) = some (word g 0x2E (d ++ 0#16)) ∧ exec (.pget g d) s = .next (s.withSelf (s.self.setReg d ((s.self.p ||| 1).zeroExtend 64)).advance))
  ∧ (∀ (g : Guard) (d a b : BitVec 5) (fn : BitVec 6), 8 ≤ d.toNat → ∃ e, decodeWord (word g 0x29 (d ++ a ++ b ++ fn)) = .error e)
  ∧ ∀ (s : State) (g : Guard) (a : BitVec 5), s.self.guard g = true →
    encode (.pput g a) = some (word g 0x2F (0#5 ++ a ++ 0#11)) ∧ exec (.pput g a) s = .next (s.withSelf ({ s.self with p := (s.self.reg a).truncate 8 ||| 1 } : Ctx).advance)

/-- R75, R76: SRRD reads each special register of Table 1 (in a deterministic lease CTX raises DET_ORDER in place of it, R443); SRWR writes TRAPV, TRAPA
and the writable fields of TRAPC and ignores the others; FLGRD reads and clears the flag word; flags set in the same cycle are not returned and stay
set (R45). -/
def Obligations.SpecialRegisterWords : Prop :=
  (∀ (s : State) (g : Guard) (d : BitVec 5), s.self.guard g = true → s.self.pends d = false →
    (∀ e ∈ ([(0, s.self.ipc.zeroExtend 64), (1, s.self.lx.zeroExtend 64), (2, s.self.ly.zeroExtend 64), (3, s.self.lw.zeroExtend 64),
        (4, s.self.lh.zeroExtend 64), (6, s.self.ten.zeroExtend 64), (7, s.self.asid.zeroExtend 64), (8, BitVec.ofNat 64 s.self.cntLd),
        (9, BitVec.ofNat 64 s.self.cntSt), (10, BitVec.ofNat 64 s.self.cntCp), (11, BitVec.ofNat 64 s.self.cntTl), (12, s.self.shape),
        (13, s.self.trapc), (14, s.self.trapv), (15, s.self.trapa.zeroExtend 64)] : List (BitVec 4 × W64)),
      exec (.srrd g d e.1) s = .next (s.withSelf (s.self.setReg d e.2).advance))
    ∧ (s.self.det = false → exec (.srrd g d 5) s = .next (s.withSelf (s.self.setReg d (ctxReg s.cur)).advance))
    ∧ (s.self.det = true → exec (.srrd g d 5) s = .next (s.raise s.cur (detOrder (.srrd g d 5))))
    ∧ ((∀ e, s.self.flagNew = some e → e.1 ≠ s.time) →
        exec (.flgrd g d) s = .next (s.withSelf ({ s.self.setReg d (s.self.flags.zeroExtend 64) with flags := 0, flagNew := none } : Ctx).advance))
    ∧ ∀ old new, s.self.flagNew = some (s.time, old, new) → exec (.flgrd g d) s
        = .next (s.withSelf ({ s.self.setReg d (old.zeroExtend 64) with flags := new, flagNew := some (s.time, 0, new) } : Ctx).advance))
  ∧ ∀ (s : State) (g : Guard) (d : BitVec 5), s.self.guard g = true →
    exec (.srwr g d 14) s = .next (s.withSelf ({ s.self with trapv := s.self.reg d } : Ctx).advance)
    ∧ (∃ v, exec (.srwr g d 15) s = .next (s.withSelf ({ s.self with trapa := v } : Ctx).advance)
      ∧ ∀ j, j < 16 → v.getLsbD j = (decide (2 ≤ j) && (s.self.reg d).getLsbD j))
    ∧ (∃ v, exec (.srwr g d 13) s = .next (s.withSelf ({ s.self with trapc := v } : Ctx).advance)
      ∧ ∀ j, j < 64 → v.getLsbD j = if j < 8 ∨ 16 ≤ j ∧ j < 32 then (s.self.reg d).getLsbD j else s.self.trapc.getLsbD j)
    ∧ ∀ n : BitVec 4, n.toNat < 13 → exec (.srwr g d n) s = .next (s.withSelf s.self.advance)

/-- R13: what reading and writing the registers and predicates gives: g0 reads 0 and p0 reads true, writes to them are discarded, a written register or
predicate reads as written, and every other one keeps its value. -/
def Obligations.HardWiredRegistersAndPredicates : Prop :=
  ∀ (x : Ctx) (i j : BitVec 5) (p q : BitVec 3) (v : W64) (b : Bool),
    x.reg 0 = 0 ∧ x.setReg 0 v = x ∧ x.pred 0 = true ∧ x.setPred 0 b = x
      ∧ (i ≠ 0 → (x.setReg i v).reg i = v) ∧ (j ≠ i → (x.setReg i v).reg j = x.reg j) ∧ (x.setReg i v).p = x.p
      ∧ (p ≠ 0 → (x.setPred p b).pred p = b) ∧ (q ≠ p → (x.setPred p b).pred q = x.pred q) ∧ (x.setPred p b).g = x.g

/-- R9, R13, R21: a word whose guard is false only goes on to the next word, and a word that writes a pending destination is held, whatever its guard.
Stated of every word of R71 to R74, and of FLGRD, SRRD and PGET; of the divisions with the divider free. The words of R76 to R80 that write no
register skip alike. Frame of the scalar words (R12, R71 to R80): a word that answers a next state leaves every other context, all memory, the dies,
the management registers, and of the cores all but the divider's being busy as they were; in its own context it changes its destination register, or,
where it writes a predicate, that predicate, or the special register that it names, or for FLGRD the flag word beside its register, and the IPC, and
nothing else. (SRRD of CTX in a deterministic lease traps in place of it and is not meant here.) -/
def Obligations.ScalarWordsChangeOnlyTheirDestination : Prop :=
  -- FalseGuardsSkipAndPendingDestinationsHold
  (
    ∀ (s : State) (g : Guard) (d a b : BitVec 5) (i : BitVec 11) (k : BitVec 6) (h : BitVec 16) (n : BitVec 4) (u v w : BitVec 3),
      (∀ e ∈ [Instr.add g d a b, .sub g d a b, .and g d a b, .or g d a b, .xor g d a b, .andn g d a b, .orn g d a b, .shl g d a b, .shr g d a b,
          .sra g d a b, .rol g d a b, .ror g d a b, .mul g d a b, .mulh g d a b, .mulhu g d a b, .min g d a b, .max g d a b, .minu g d a b,
          .maxu g d a b, .addw g d a b, .subw g d a b, .mulw g d a b, .clz g d a, .ctz g d a, .popc g d a, .addi g d a i, .andi g d a i, .ori g d a i,
          .xori g d a i, .shli g d a k, .shri g d a k, .srai g d a k, .muli g d a i, .addwi g d a i, .movi g d h, .movz g d h, .movk16 g d h,
          .movk32 g d h, .movk48 g d h, .flgrd g d, .pget g d, .srrd g d n],
        (s.self.pends d = true → exec e s = .next s)
        ∧ (s.self.pends d = false → s.self.guard g = false → exec e s = .next (s.withSelf s.self.advance)))
      ∧ (∀ e ∈ [Instr.div g d a b, .divu g d a b, .rem g d a b, .remu g d a b], (s.core (coreOf s.cur)).divBusy = false →
        (s.self.pends d = true → exec e s = .next s)
        ∧ (s.self.pends d = false → s.self.guard g = false → exec e s = .next (s.withSelf s.self.advance)))
      ∧ ∀ e ∈ [Instr.cmpEq g u a b, .cmpNe g u a b, .cmpLt g u a b, .cmpGe g u a b, .cmpLtu g u a b, .cmpGeu g u a b, .cmpTst g u a b, .cmpiEq g u a i,
          .cmpiLt g u a i, .cmpiLtu g u a i, .pand g u v w, .por g u v w, .pxor g u v w, .pandn g u v w, .pnot g u v, .pmov g u v, .pput g a, .srwr g d n],
        s.self.guard g = false → exec e s = .next (s.withSelf s.self.advance))
  -- ScalarWordsChangeOnlyTheirDestination
  ∧ (
    ∀ (s t : State) (g : Guard) (d a b : BitVec 5) (i : BitVec 11) (k : BitVec 6) (h : BitVec 16) (n : BitVec 4) (u v w : BitVec 3),
      ∀ preds : List Instr, preds = [Instr.cmpEq g u a b, .cmpNe g u a b, .cmpLt g u a b, .cmpGe g u a b, .cmpLtu g u a b, .cmpGeu g u a b, .cmpTst g u a b,
          .cmpiEq g u a i, .cmpiLt g u a i, .cmpiLtu g u a i, .pand g u v w, .por g u v w, .pxor g u v w, .pandn g u v w, .pnot g u v, .pmov g u v] →
      ∀ e, exec e s = .next t → e ∈ [Instr.add g d a b, .sub g d a b, .and g d a b, .or g d a b, .xor g d a b, .andn g d a b, .orn g d a b, .shl g d a b,
          .shr g d a b, .sra g d a b, .rol g d a b, .ror g d a b, .mul g d a b, .mulh g d a b, .mulhu g d a b, .div g d a b, .divu g d a b, .rem g d a b,
          .remu g d a b, .min g d a b, .max g d a b, .minu g d a b, .maxu g d a b, .addw g d a b, .subw g d a b, .mulw g d a b, .clz g d a, .ctz g d a,
          .popc g d a, .addi g d a i, .andi g d a i, .ori g d a i, .xori g d a i, .shli g d a k, .shri g d a k, .srai g d a k, .muli g d a i, .addwi g d a i,
          .movi g d h, .movz g d h, .movk16 g d h, .movk32 g d h, .movk48 g d h, .pget g d, .srrd g d n, .flgrd g d, .pput g a, .srwr g d n] ++ preds →
          (s.self.det = true → e ≠ .srrd g d 5) →
          (∀ c, c ≠ s.cur → t.ctx c = s.ctx c) ∧ (∀ pa, t.devByte pa = s.devByte pa) ∧ t.mem = s.mem ∧ t.mg = s.mg ∧ t.dies = s.dies
          ∧ (∀ c, t.core c = { s.core c with divBusy := (t.core c).divBusy })
          ∧ t.self = { s.self with g := t.self.g, p := t.self.p, trapa := t.self.trapa, trapv := t.self.trapv, trapc := t.self.trapc,
                                   flags := t.self.flags, flagNew := t.self.flagNew, ipc := t.self.ipc }
          ∧ (∀ j, j ≠ d → t.self.reg j = s.self.reg j) ∧ (e ∈ preds ∨ e = .pput g a ∨ e = .srwr g d n → t.self.g = s.self.g)
          ∧ (e ≠ .srwr g d n → t.self.trapa = s.self.trapa ∧ t.self.trapv = s.self.trapv ∧ t.self.trapc = s.self.trapc)
          ∧ (e ≠ .flgrd g d → t.self.flags = s.self.flags ∧ t.self.flagNew = s.self.flagNew)
          ∧ (e ∈ preds → ∀ q, q ≠ u → t.self.pred q = s.self.pred q) ∧ (e ∉ preds → e ≠ .pput g a → t.self.p = s.self.p))

/-- R57, R84, R22, R24: a scratchpad load that passes its checks issues: it becomes a pending writer of g[t], CNT.LD rises by 1, and the context goes on;
the register itself is written at completion. R23, R24, R69, R84: a pending load that no older conflicting operation holds back completes: g[t] takes
the little-endian bytes of its address, zero- or sign-extended, and the operation is counted out; where its bank access was made before, g[t] takes
the value that it read. Memory and every other context stay as they were. An uncorrectable word under it raises ECC_UNCORR at the load's own address
instead, and the load is not counted. The model's own choices or readings in this: log 10 (the move at which the access is made). -/
def Obligations.LoadsReadTheirBytes : Prop :=
  -- LoadsIssueAsPendingWriters
  (
    ∀ (s : State) (g : Guard) (r a : BitVec 5) (off : BitVec 11), s.self.guard g = true → s.self.pends r = false → s.self.cntLd < 31 →
      ∀ e ∈ ([(.ldb g r a off, 1, false), (.ldbs g r a off, 1, true), (.ldh g r a off, 2, false), (.ldhs g r a off, 2, true),
          (.ldw g r a off, 4, false), (.ldws g r a off, 4, true), (.ldd g r a off, 8, false)] : List (Instr × Nat × Bool)),
        ∀ ea : W64, ea = s.self.reg a + BitVec.ofInt 64 (e.2.1 * off.toInt) → s.SpadOk s.cur ea.toNat e.2.1 →
          ∃ t, exec e.1 s = .next t
            ∧ t = s.withSelf (s.self.pushOp false r (.load ea.toNat e.2.1 e.2.2)).advance
            ∧ t.self.cntLd = s.self.cntLd + 1 ∧ t.self.cntSt = s.self.cntSt ∧ (r ≠ 0 → t.self.pends r = true))
  -- LoadsCompleteWithTheirBytes
  ∧ (
    ∀ (s : State) (c : CtxId) (i id a n : Nat) (r : BitVec 5) (sg : Bool) (w : BitVec 16), n ∈ [1, 2, 4, 8] →
      (∀ o : MemOp, o = ⟨id, false, r, .load a n sg, false, w, none⟩ → (s.ctx c).ops[i]? = some o → (s.ctx c).ops.find? (fun q => q.id == id) = some o →
        opReady id (.load a n sg) (s.ctx c).ops = true → (s.ctx c).zeroing a n = false →
        (∀ v : W64, v = (if sg then (BitVec.ofNat (8 * n) (ofBytes (s.spadBytes c a n))).signExtend 64 else BitVec.ofNat 64 (ofBytes (s.spadBytes c a n))) →
          s.spadEcc c a n false = none →
            exec (.spadLoadComplete c i) s = .next (s.updCtx c (fun x =>
              (({ x with ops := updFirst (fun q => q.id == id) (fun q => { q with res := some v }) x.ops } : Ctx).setReg r v).finishOp id)))
        ∧ ∀ t, s.spadEcc c a n false = some t →
            exec (.spadLoadComplete c i) s = .next ((s.updCtx c (fun x => { x with ops := x.ops.filter (fun q => q.id != id), ipc := w })).raise c t))
      ∧ ∀ v : W64, (s.ctx c).ops[i]? = some ⟨id, false, r, .load a n sg, false, w, some v⟩ →
          (s.ctx c).ops.find? (fun q => q.id == id) = some ⟨id, false, r, .load a n sg, false, w, some v⟩ →
            exec (.spadLoadComplete c i) s = .next (s.updCtx c (fun x => (x.setReg r v).finishOp id)))

/-- R57, R85, R22: a scratchpad store that passes its checks issues with the value of g[t] at issue, and CNT.ST rises by 1. R23, R85: a pending store that
nothing holds back completes: the low n bytes of its value stand at its SRAM address, little-endian, every other byte of every core's SRAM and all
device memory are unchanged, and no register of any context changes. The model's own choices or readings in this: log 10 (the move at which the access
is made). -/
def Obligations.StoresWriteTheirBytes : Prop :=
  -- StoresIssueWithTheirValue
  (
    ∀ (s : State) (g : Guard) (r a : BitVec 5) (off : BitVec 11), s.self.guard g = true → s.self.cntSt < 31 →
      ∀ e ∈ ([(.stb g r a off, 1), (.sth g r a off, 2), (.stw g r a off, 4), (.std g r a off, 8)] : List (Instr × Nat)),
        ∀ ea : W64, ea = s.self.reg a + BitVec.ofInt 64 (e.2 * off.toInt) → s.SpadOk s.cur ea.toNat e.2 →
          ∃ t, exec e.1 s = .next t
            ∧ t = s.withSelf (s.self.pushOp true 0 (.store ea.toNat e.2 (s.self.reg r))).advance
            ∧ t.self.cntSt = s.self.cntSt + 1 ∧ t.self.cntLd = s.self.cntLd)
  -- StoresCompleteIntoTheirBytes
  ∧ (
    ∀ (s : State) (c : CtxId) (i id a n : Nat) (st : Bool) (r : BitVec 5) (v : W64) (b : BudBank) (w : BitVec 16) (res : Option W64),
      (s.ctx c).ops[i]? = some ⟨id, st, r, .store a n v, false, w, res⟩ → opReady id (.store a n v) (s.ctx c).ops = true →
      (s.ctx c).zeroing a n = false → (s.ctx c).banks[a / 2 ^ 17]? = some b → a % 2 ^ 17 + n ≤ 2 ^ 17 → n ≤ 8 →
      (s.core (coreOf c)).sram.wf = true →
        ∃ t, exec (.spadStoreComplete c i) s = .next t
          ∧ (∀ j, j < n → (t.core (coreOf c)).sram.get (b.bank * 2 ^ 17 + a % 2 ^ 17 + j) = BitVec.ofNat 8 (v.toNat / 256 ^ j))
          ∧ (∀ k p, k ≠ coreOf c ∨ p < b.bank * 2 ^ 17 + a % 2 ^ 17 ∨ b.bank * 2 ^ 17 + a % 2 ^ 17 + n ≤ p →
              (t.core k).sram.get p = (s.core k).sram.get p)
          ∧ (∀ pa, t.devByte pa = s.devByte pa)
          ∧ ∀ d, t.ctx d = if d = c then (s.ctx c).finishOp id else s.ctx d)

/-- R86, R87: a local atomic that passes its checks issues with its operands, the low 32 bits of g[t] and, for CAS.W, bits [63:32] as the new value; for
CAS.D the new value is g[t + 1]. R24, R86, R87: an atomic that nothing holds back completes in one step: the old value goes into g[t], the new value
of Table 4 into memory; the values are read as w-bit patterns, signed for MIN and MAX. An uncorrectable word under it raises ECC_UNCORR at the
atomic's own address instead. -/
def Obligations.LocalAtomicsExchangeOldForNew : Prop :=
  -- LocalAtomicsIssue
  (
    ∀ (s : State) (g : Guard) (r a : BitVec 5), s.self.guard g = true → s.self.pends r = false → s.self.cntLd < 31 →
      (s.SpadOk s.cur (s.self.reg a).toNat 4 →
        ∀ e ∈ ([(.amoSwapW g r a, .swap), (.amoAddW g r a, .add), (.amoAndW g r a, .and), (.amoOrW g r a, .or), (.amoXorW g r a, .xor),
            (.amoMinW g r a, .min), (.amoMaxW g r a, .max), (.amoMinuW g r a, .minu), (.amoMaxuW g r a, .maxu), (.amoCasW g r a, .cas)]
              : List (Instr × AmoOp)),
          ∃ t, exec e.1 s = .next t ∧ t.self.cntLd = s.self.cntLd + 1
            ∧ t = s.withSelf (s.self.pushOp false r (.amo e.2 4 (s.self.reg a).toNat (BitVec.ofNat 64 ((s.self.reg r).toNat % 2 ^ 32))
                (s.self.reg r >>> 32))).advance)
      ∧ (s.SpadOk s.cur (s.self.reg a).toNat 8 →
        ∀ e ∈ ([(.amoSwapD g r a, .swap), (.amoAddD g r a, .add), (.amoAndD g r a, .and), (.amoOrD g r a, .or), (.amoXorD g r a, .xor),
            (.amoMinD g r a, .min), (.amoMaxD g r a, .max), (.amoMinuD g r a, .minu), (.amoMaxuD g r a, .maxu), (.amoCasD g r a, .cas)]
              : List (Instr × AmoOp)),
          ∃ t, exec e.1 s = .next t ∧ t.self.cntLd = s.self.cntLd + 1
            ∧ t = s.withSelf (s.self.pushOp false r (.amo e.2 8 (s.self.reg a).toNat (s.self.reg r) (s.self.reg (r + 1)))).advance))
  -- LocalAtomicsExchangeOldForNew
  ∧ (
    (∀ (s : State) (c : CtxId) (i id a n : Nat) (r : BitVec 5) (op : AmoOp) (v x : W64) (w : BitVec 16) (o : MemOp),
      o = ⟨id, false, r, .amo op n a v x, false, w, none⟩ → (s.ctx c).ops[i]? = some o → (s.ctx c).ops.find? (fun q => q.id == id) = some o →
      opReady id (.amo op n a v x) (s.ctx c).ops = true → (s.ctx c).zeroing a n = false →
        (∀ old : W64, old = BitVec.ofNat 64 (ofBytes (s.spadBytes c a n)) → s.spadEcc c a n false = none →
          exec (.amoComplete c i) s = .next ((s.spadWrite c a (toBytes n (amoNew op n (ofBytes (s.spadBytes c a n)) v.toNat x.toNat))).updCtx c
            (fun y => (({ y with ops := updFirst (fun q => q.id == id) (fun q => { q with res := some old }) y.ops } : Ctx).setReg r old).finishOp id)))
        ∧ ∀ t, s.spadEcc c a n false = some t →
            exec (.amoComplete c i) s = .next ((s.updCtx c (fun y => { y with ops := y.ops.filter (fun q => q.id != id), ipc := w })).raise c t))
    ∧ ∀ (w : Nat) (old v x : BitVec w), ∀ n ∈ [4, 8], w = 8 * n →
      ∀ e ∈ ([(.swap, v), (.add, old + v), (.and, old &&& v), (.or, old ||| v), (.xor, old ^^^ v), (.min, if old.toInt ≤ v.toInt then old else v),
        (.max, if old.toInt ≤ v.toInt then v else old), (.minu, if old.toNat ≤ v.toNat then old else v),
        (.maxu, if old.toNat ≤ v.toNat then v else old), (.cas, if old = v then x else old)] : List (AmoOp × BitVec w)),
        amoNew e.1 n old.toNat v.toNat x.toNat = e.2.toNat)

/-- R22: a load, store or atomic whose address is not aligned raises MISALIGN, and one that is aligned but not inside the budget raises SPAD_BOUNDS, with
the address in TRAPV and the size in DETAIL; nothing is read, written or counted. Frame of the issue of loads, stores and local atomics (R84 to R87):
where such a word answers a next state and no trap is taken, no register, no predicate, no flag and no byte of memory changes; the word only counts an
operation and goes on. -/
def Obligations.LoadAndStoreFaultsAndFrame : Prop :=
  -- ScratchpadAddressFaults
  (
    ∀ (s : State) (g : Guard) (r a : BitVec 5) (off : BitVec 11), s.self.guard g = true → s.self.pends r = false → s.self.cntLd < 31 →
      s.self.cntSt < 31 →
      ∀ e ∈ ([(.ldh g r a off, s.self.reg a + BitVec.ofInt 64 (2 * off.toInt), 2), (.ldhs g r a off, s.self.reg a + BitVec.ofInt 64 (2 * off.toInt), 2),
        (.ldw g r a off, s.self.reg a + BitVec.ofInt 64 (4 * off.toInt), 4), (.ldws g r a off, s.self.reg a + BitVec.ofInt 64 (4 * off.toInt), 4),
        (.ldd g r a off, s.self.reg a + BitVec.ofInt 64 (8 * off.toInt), 8), (.sth g r a off, s.self.reg a + BitVec.ofInt 64 (2 * off.toInt), 2),
        (.stw g r a off, s.self.reg a + BitVec.ofInt 64 (4 * off.toInt), 4), (.std g r a off, s.self.reg a + BitVec.ofInt 64 (8 * off.toInt), 8),
        (.ldb g r a off, s.self.reg a + BitVec.ofInt 64 off.toInt, 1), (.ldbs g r a off, s.self.reg a + BitVec.ofInt 64 off.toInt, 1),
        (.stb g r a off, s.self.reg a + BitVec.ofInt 64 off.toInt, 1),
        (.amoSwapW g r a, s.self.reg a, 4), (.amoAddW g r a, s.self.reg a, 4), (.amoAndW g r a, s.self.reg a, 4), (.amoOrW g r a, s.self.reg a, 4),
        (.amoXorW g r a, s.self.reg a, 4), (.amoMinW g r a, s.self.reg a, 4), (.amoMaxW g r a, s.self.reg a, 4), (.amoMinuW g r a, s.self.reg a, 4),
        (.amoMaxuW g r a, s.self.reg a, 4), (.amoCasW g r a, s.self.reg a, 4),
        (.amoSwapD g r a, s.self.reg a, 8), (.amoAddD g r a, s.self.reg a, 8), (.amoAndD g r a, s.self.reg a, 8), (.amoOrD g r a, s.self.reg a, 8),
        (.amoXorD g r a, s.self.reg a, 8), (.amoMinD g r a, s.self.reg a, 8), (.amoMaxD g r a, s.self.reg a, 8), (.amoMinuD g r a, s.self.reg a, 8),
        (.amoMaxuD g r a, s.self.reg a, 8), (.amoCasD g r a, s.self.reg a, 8)] : List (Instr × W64 × Nat)),
        (e.2.1.toNat % e.2.2 ≠ 0 → exec e.1 s = .next (s.raise s.cur ⟨0x02, e.2.1, BitVec.ofNat 16 e.2.2⟩))
        ∧ (e.2.1.toNat % e.2.2 = 0 → s.self.banks.length * 2 ^ 17 < e.2.1.toNat + e.2.2 →
            exec e.1 s = .next (s.raise s.cur ⟨0x03, e.2.1, BitVec.ofNat 16 e.2.2⟩)))
  -- LoadAndStoreIssueFrame
  ∧ (
    ∀ (s t : State) (g : Guard) (r a : BitVec 5) (off : BitVec 11),
      ∀ w ∈ [Instr.ldb g r a off, .ldbs g r a off, .ldh g r a off, .ldhs g r a off, .ldw g r a off, .ldws g r a off, .ldd g r a off, .stb g r a off,
          .sth g r a off, .stw g r a off, .std g r a off, .amoSwapW g r a, .amoAddW g r a, .amoAndW g r a, .amoOrW g r a, .amoXorW g r a,
          .amoMinW g r a, .amoMaxW g r a, .amoMinuW g r a, .amoMaxuW g r a, .amoCasW g r a, .amoSwapD g r a, .amoAddD g r a, .amoAndD g r a,
          .amoOrD g r a, .amoXorD g r a, .amoMinD g r a, .amoMaxD g r a, .amoMinuD g r a, .amoMaxuD g r a, .amoCasD g r a],
        exec w s = .next t →
          (∃ f, t = s.raise s.cur f) ∨
          (s.SameElsewhere t ∧ t.self = { s.self with ops := t.self.ops, opN := t.self.opN, ipc := t.self.ipc }
            ∧ (∀ pa, t.devByte pa = s.devByte pa) ∧ (∀ b n, t.spadBytes s.cur b n = s.spadBytes s.cur b n)))

/-- R18, R88, R89: WAIT and WAIT.ALL. Where the condition on the four counters holds and the word covers no kept fault, it retires: the context is READY
at the next word. Where the condition does not hold, the context enters WAITING at this word. NOP retires with no effect. R27, R88: a WAIT.ALL that
brings CNT.TL to 0 covers a kept error of a chain, and raises it in place of retiring. R18, R88: the end of a wait on counters: once the condition
holds and no fault is kept, the context is READY at the next word. The model's own choices or readings in this: log 88 (a wait is looked at by a
move). -/
def Obligations.WaitsEndWhenTheirCountersAllow : Prop :=
  -- WaitWordsRetireOrWait
  (
    (∀ (s : State) (g : Guard) (ld st cp tl : BitVec 5), s.self.guard g = true →
      ∀ e ∈ ([(.waitAll g ld st cp tl, true, s.self.cntLd ≤ ld.toNat ∧ s.self.cntSt ≤ st.toNat ∧ s.self.cntCp ≤ cp.toNat ∧ s.self.cntTl ≤ tl.toNat),
          (.wait g ld st cp tl, false, (ld = 31 ∧ st = 31 ∧ cp = 31 ∧ tl = 31) ∨ (ld ≠ 31 ∧ s.self.cntLd ≤ ld.toNat)
            ∨ (st ≠ 31 ∧ s.self.cntSt ≤ st.toNat) ∨ (cp ≠ 31 ∧ s.self.cntCp ≤ cp.toNat) ∨ (tl ≠ 31 ∧ s.self.cntTl ≤ tl.toNat))]
            : List (Instr × Bool × Prop)),
        (e.2.2 → s.self.cov = [] → exec e.1 s = .next (s.withSelf { s.self with st := .ready, wait := none, wake := s.time + 1, ipc := s.self.ipc + 4 }))
        ∧ (¬e.2.2 → exec e.1 s = .next (s.withSelf
            { s.self with st := .waiting, wait := some (.counts e.2.1 ld.toNat st.toNat cp.toNat tl.toNat) })))
    ∧ ∀ (s : State) (g : Guard), s.self.guard g = true → exec (.nop g) s = .next (s.withSelf { s.self with ipc := s.self.ipc + 4 }))
  -- WaitAllRaisesTheKeptChainError
  ∧ (
    ∀ (s : State) (g : Guard) (ld st cp : BitVec 5) (f : CovFault) (rest : List CovFault), s.self.guard g = true →
      s.self.cntLd ≤ ld.toNat → s.self.cntSt ≤ st.toNat → s.self.cntCp ≤ cp.toNat → s.self.cntTl = 0 →
      s.self.cov = f :: rest → f.copy = false →
        exec (.waitAll g ld st cp 0) s = .next ((s.withSelf { s.self with cov := rest }).raise s.cur f.trap))
  -- CounterWaitsEndWhenTheCountersAllow
  ∧ (
    ∀ (s : State) (c : CtxId) (all : Bool) (ld st cp tl : Nat), (s.ctx c).st = .waiting → (s.ctx c).raised = [] → (s.ctx c).gated = false →
      (s.ctx c).wait = some (.counts all ld st cp tl) →
        ((s.ctx c).waitDone all ld st cp tl = true → (s.ctx c).cov = [] →
          exec (.waitSatisfied c) s = .next (s.setCtx c { s.ctx c with st := .ready, wait := none, wake := s.time + 1, ipc := (s.ctx c).ipc + 4 }))
        ∧ ((s.ctx c).waitDone all ld st cp tl = false → exec (.waitSatisfied c) s = .next s))

/-- R90, R91, R97: a VPASS or VPASSR whose guard is true, with CNT.ST = 0, a free place in the pass unit, CNT.TL below 31 and a descriptor that passes
every check: with n or R zero it only retires; else the chain is queued with its descriptor as read, CNT.TL rises by 1, and the word retires. R26,
R27, R45: the pass unit's oldest chain that has not started starts, and a started chain at its head that no zeroing holds back completes: what it has
not done yet is done, its flags are ORed into the flag word, it is counted out, and an error that stopped it is kept for the covering WAIT (that a
bank which has left SPAD mode stops a chain as an uncorrectable word does is the model's choice, log 122). R90, R92, R93, R98: the loop of a chain. A
chain of n elements, R repetitions and NSM1 + 1 stages whose elements all lie in banks in SPAD mode and meet no uncorrectable word, and that completes
before an access of it was made alone, leaves the scratchpad that the two nested loops of R98 leave, with its flags the OR of those that the stages
raised, and no error. The addresses are the starts plus 4 (j stride + i), the strides those of CTRL for VPASSR and 0 for VPASS. R94, R95: a
one-element stage on int32 operands: each stage operation of Table 7 on v with y as the source-1 element and z as K0 (ZSEL 1). The model's own choices
or readings in this: log 94, 95 (the place of two tests); log 11 (accesses that come at moves of their own). -/
def Obligations.PassChainsRunTheirDescriptor : Prop :=
  -- PassCommandsQueueTheirChain
  (
    ∀ (s : State) (g : Guard) (d a b : BitVec 5) (w : BitVec 512), s.self.guard g = true → s.self.cntSt = 0 → s.self.cntTl < 31 →
      (s.core (coreOf s.cur)).chains.length < 4 → s.spadFault s.cur (s.self.reg a) 64 64 unitSeq = none →
      s.spadEcc s.cur (s.self.reg a).toNat 64 false = none → w = BitVec.ofNat 512 (ofBytes (s.spadBytes s.cur (s.self.reg a).toNat 64)) →
      descFault w = none →
      ∀ e ∈ ([(.vpass g d a b, (s.self.reg b).toNat, 1, false),
          (.vpassr g d a b, (s.self.reg b).toNat % 2 ^ 32, (s.self.reg b).toNat / 2 ^ 32, true)] : List (Instr × Nat × Nat × Bool)),
        (e.2.1 = 0 ∨ e.2.2.1 = 0 → exec e.1 s = .next (s.withSelf s.self.advance))
        ∧ ∀ k : Chain, k = ⟨s.cur, s.self.tlN, w, (s.self.reg d).toNat, e.2.1, e.2.2.1, e.2.2.2, false, 0, 0, [], 0, none⟩ → e.2.1 ≠ 0 → e.2.2.1 ≠ 0 →
            s.streamFault s.cur (BitVec.ofNat 64 (dbits w 63 0)) (k.str 159 144) k.n k.reps = none →
            (k.s1 = true → s.streamFault s.cur (BitVec.ofNat 64 (dbits w 127 64)) (k.str 175 160) k.n k.reps = none
              ∧ badOverlap (dbits w 127 64) k.dst (k.str 175 160) (k.str 191 176) k.n k.reps = false) →
            s.streamFault s.cur (s.self.reg d) (k.str 191 176) k.n k.reps = none →
            badOverlap (dbits w 63 0) k.dst (k.str 159 144) (k.str 191 176) k.n k.reps = false →
              ∃ t, exec e.1 s = .next t ∧ t.self.cntTl = s.self.cntTl + 1 ∧ t.self.ipc = s.self.ipc + 4
                ∧ (t.core (coreOf s.cur)).chains = (s.core (coreOf s.cur)).chains ++ [k]
                ∧ t.self = { s.self with tlq := t.self.tlq, tlN := s.self.tlN + 1, ipc := t.self.ipc } ∧ t.mem = s.mem)
  -- PassChainsStartAndComplete
  ∧ (
    (∀ (s : State) (core : CoreId) (k : Chain) (pre rest : List Chain), (s.core core).chains = pre ++ k :: rest → (∀ h ∈ pre, h.started = true) →
      k.started = false → exec (.passChainStart core) s = .next (s.setCore core { s.core core with chains := pre ++ { k with started := true } :: rest }))
    ∧ ∀ (s : State) (core : CoreId) (k : Chain) (rest : List Chain), (s.core core).chains = k :: rest → k.started = true → coreOf k.ctx = core →
      s.chainZeroing k = false →
        ∃ t, exec (.passChainComplete core) s = .next t ∧ (t.core core).chains = rest
          ∧ (t.core core).sram = ((chainRun k s).s.core core).sram
          ∧ t.ctx k.ctx = { ((s.ctx k.ctx).addFlags s.time (chainRun k s).flags).finishTl k.id with
              cov := (s.ctx k.ctx).cov ++ ((chainRun k s).err.map (CovFault.mk false k.id)).toList }
          ∧ (∀ c, c ≠ k.ctx → t.ctx c = s.ctx c) ∧ t.mem = s.mem)
  -- PassChainsFollowTheirLoop
  ∧ (
    ∀ (s : State) (core : CoreId) (c : CtxId) (id : Nat) (w : BitVec 512) (dst n R : Nat) (vpassr s1 : Bool) (rest : List Chain) (k : Chain)
      (str : Nat → Int) (at0 at1 atD : Nat → Nat → Nat) (one : State → Nat → Nat → W32 × W32),
      k = ⟨c, id, w, dst, n, R, vpassr, true, 0, 0, [], 0, none⟩ → (s.core core).chains = k :: rest → coreOf c = core → s.chainZeroing k = false →
      (∀ lo, str lo = if vpassr then (BitVec.extractLsb' lo 16 w).toInt else 0) → s1 = w.getLsbD 131 →
      (∀ j i, at0 j i = (((BitVec.extractLsb' 0 64 w).toNat : Int) + 4 * (j * str 144 + i)).toNat) →
      (∀ j i, at1 j i = (((BitVec.extractLsb' 64 64 w).toNat : Int) + 4 * (j * str 160 + i)).toNat) →
      (∀ j i, atD j i = ((dst : Int) + 4 * (j * str 176 + i)).toNat) →
      (∀ u j i, one u j i = (List.range ((BitVec.extractLsb' 128 3 w).toNat + 1)).foldl (fun (v : W32 × W32) q =>
        ((stageEl (BitVec.extractLsb' (256 + 32 * q) 32 w).toNat v.1 (if s1 then u.spad32 c (at1 j i) else 0)
            (BitVec.extractLsb' 192 32 w) (BitVec.extractLsb' 224 32 w)).1,
          v.2 ||| (stageEl (BitVec.extractLsb' (256 + 32 * q) 32 w).toNat v.1 (if s1 then u.spad32 c (at1 j i) else 0)
            (BitVec.extractLsb' 192 32 w) (BitVec.extractLsb' 224 32 w)).2)) (u.spad32 c (at0 j i), 0)) →
      (∀ j i, j < R → i < n → s.modeFault c (at0 j i) 4 = none ∧ s.modeFault c (atD j i) 4 = none ∧ s.spadEcc c (at0 j i) 4 true = none
        ∧ (s1 = true → s.modeFault c (at1 j i) 4 = none ∧ s.spadEcc c (at1 j i) 4 true = none)) →
        ∀ u : State × W32, u = (List.range R).foldl (fun (u : State × W32) j => (List.range n).foldl (fun (u : State × W32) i =>
            (u.1.spadWrite c (atD j i) (toBytes 4 (one u.1 j i).1.toNat), u.2 ||| (one u.1 j i).2)) u) (s, 0) →
          ∃ t, exec (.passChainComplete core) s = .next t ∧ (t.core core).sram = (u.1.core core).sram
            ∧ t.ctx c = ((s.ctx c).addFlags s.time u.2).finishTl id)
  -- PassStagesOnWords
  ∧ (
    ∀ v y z : W32, stageEl (0x06 * 2 ^ 26 + 2 ^ 18) v y z 0 = (v * y + z, 0) ∧
      ∀ e ∈ ([(0x01, y), (0x02, v + y), (0x03, v - y), (0x04, y - v), (0x05, v * y), (0x07, if v.toInt ≤ y.toInt then v else y),
        (0x08, if v.toInt ≤ y.toInt then y else v), (0x09, BitVec.ofNat 32 v.toInt.natAbs), (0x0A, -v), (0x0B, v &&& y), (0x0C, v ||| y), (0x0D, v ^^^ y),
        (0x0E, v <<< (y.toNat % 32)), (0x0F, v >>> (y.toNat % 32))] : List (Nat × W32)),
        stageEl (e.1 * 2 ^ 26) v y z 0 = (e.2, 0))

/-- R30: a trap of a context that is READY or WAITING, not gated, with ACTIVE = 0 and no load or store counted, is taken: TRAPA holds the address of the
trapping word, TRAPV and TRAPC the value, detail, ACTIVE and class, IPC is 0x20, the context is READY; every general register, predicate and flag, and
all other state, is as it was; an ACH.WAIT that the trap interrupts is remembered (R246). (A context whose wait is registered at a barrier line also
withdraws it; that case is not stated here.) R30: older loads and stores hold a trap back. R30: a trap taken with ACTIVE = 1 stops the context: TRAPA,
TRAPV, TRAPC, IPC and all registers keep their values, and the stop record holds the class and the address. -/
def Obligations.TrapsEnterTheHandlerOrStop : Prop :=
  -- TrapsEnterTheHandler
  (
    ∀ (s : State) (c : CtxId) (t : Trap) (rest : List Trap), (s.ctx c).raised = t :: rest → (s.ctx c).st = .ready ∨ (s.ctx c).st = .waiting →
      (s.ctx c).gated = false → (s.ctx c).active = false → (s.ctx c).cntLd = 0 → (s.ctx c).cntSt = 0 →
      (∀ d va pa r, (s.ctx c).wait ≠ some (.barrier d va pa r none)) →
        exec (.trapEntry c) s = .next (s.setCtx c { s.ctx c with
          raised := rest, st := .ready, wait := none, trapa := (s.ctx c).ipc, trapv := t.val, ipc := 0x20
          trapc := (t.detail.zeroExtend 64 <<< 16) ||| 0x100#64 ||| t.cls.zeroExtend 64
          achInt := match (s.ctx c).wait with
            | some (.achWait _ cid) => some ((s.ctx c).ipc, cid)
            | _ => none }))
  -- TrapsWaitForOlderAccesses
  ∧ (
    ∀ (s : State) (c : CtxId), (s.ctx c).active = false → (s.ctx c).cntLd ≠ 0 ∨ (s.ctx c).cntSt ≠ 0 → exec (.trapEntry c) s = .next s)
  -- SecondTrapStopsTheContext
  ∧ (
    ∀ (s : State) (c : CtxId) (t : Trap) (rest : List Trap), (s.ctx c).raised = t :: rest → (s.ctx c).st = .ready ∨ (s.ctx c).st = .waiting →
      (s.ctx c).gated = false → (s.ctx c).active = true →
        ∃ u, exec (.trapEntry c) s = .next u
          ∧ u.ctx c = { s.ctx c with st := .stopped, wait := none, raised := [], stop := (t.cls, (s.ctx c).ipc) })

/-- R31, R136, R398: TRET in a handler returns to TRAPA with ACTIVE 0 and releases a held load; where that load's configuration store still has the faulty
word, it meets the error again. Outside a handler TRET raises ILLEGAL. TRAP raises SW_TRAP with its code. R32, R399: END issues no further word of the
context; once all four counters are zero and no fault is kept, the context is STOPPED with an empty stop record, its registers unchanged; a kept fault
is raised there instead. YIELD goes on, skips the context for the rest of the round and, in a scheduler turn of its lease, marks it as yielded. The
model's own choices or readings in this: log 97 (the context is READY from END to END_COMPLETE). -/
def Obligations.TrapReturnEndAndYield : Prop :=
  -- TrapReturnAndSoftwareTrap
  (
    (∀ (s : State) (g : Guard), s.self.guard g = true → s.self.active = true → ∀ x : Ctx, x = { s.self with
          ipc := s.self.trapa, trapc := s.self.trapc &&& ~~~0x100#64, achInt := s.self.achInt.filter (fun e => e.1 == s.self.trapa)
          fab := s.self.fab.release, mn := s.self.mn.release } →
        (s.self.cur.bad = [] ∨ s.self.cur.st ≠ .running ∨ s.self.fab.stopped = true ∨ s.self.fab.held = false → exec (.tret g) s = .next (s.withSelf x))
        ∧ ∀ u rest, s.self.cur.bad = u :: rest → s.self.cur.st = .running → s.self.fab.stopped = false → s.self.fab.held = true →
            exec (.tret g) s = .next ((s.withSelf x).fabFault s.cur (confTrap u)))
    ∧ (∀ (s : State) (g : Guard), s.self.guard g = true → s.self.active = false →
      exec (.tret g) s = .next (s.raise s.cur ⟨0x01, (encodeWord (.tret g)).zeroExtend 64, 0⟩))
    ∧ (∀ (s : State) (g : Guard) (code : BitVec 16), s.self.guard g = true →
      exec (.trap g code) s = .next (s.raise s.cur ⟨0x1A, (encodeWord (.trap g code)).zeroExtend 64, code⟩))
    ∧ ∀ (s : State) (g : Guard) (code : BitVec 16), s.self.guard g = true → s.self.st = .ready → s.self.gated = false → s.self.raised = [] →
        s.self.active = false → s.self.cntLd = 0 → s.self.cntSt = 0 → s.self.wait = none →
          ∃ t, exec (.trap g code) s = .next t ∧ t.self = { s.self with
            trapa := s.self.ipc, trapv := (encodeWord (.trap g code)).zeroExtend 64, ipc := 0x20
            trapc := (code.zeroExtend 64 <<< 16) ||| 0x11A#64, achInt := none } ∧ s.SameElsewhere t)
  -- EndStopsAndYieldSkips
  ∧ (
    (∀ (s : State) (g : Guard), s.self.guard g = true → exec (.endProg g) s = .next (s.withSelf { s.self with wait := some .endProg }))
    ∧ (∀ (s : State) (c : CtxId), (s.ctx c).st = .ready ∨ (s.ctx c).st = .waiting → (s.ctx c).wait = some .endProg → (s.ctx c).raised = [] →
      (s.ctx c).cntLd = 0 → (s.ctx c).cntSt = 0 → (s.ctx c).cntCp = 0 → (s.ctx c).cntTl = 0 →
        ((s.ctx c).cov = [] → ∃ t, exec (.endComplete c) s = .next t
            ∧ t.ctx c = { s.ctx c with st := .stopped, wait := none, gated := false, stop := (0, 0) } ∧ t.mem = s.mem ∧ t.cores = s.cores
            ∧ ∀ e, e ≠ c → t.ctx e = s.ctx e)
        ∧ ∀ f rest, (s.ctx c).cov = f :: rest →
            exec (.endComplete c) s = .next ((s.setCtx c { s.ctx c with cov := rest }).raise c f.trap))
    ∧ ∀ (s : State) (g : Guard), s.self.guard g = true →
        exec (.yield g) s = .next (s.withSelf { s.self with skip := true, yielded := s.self.yielded || (s.leaseOf s.cur).any (·.turn), ipc := s.self.ipc + 4 }))

/-- R118, R119, R140, R141, R157, R159 to R161, R166, R177: a cell with an integer, compare, select, predicate, MOV or ORDJ operation whose queues offer m
elements, with room in its packer, fires: it consumes m elements of each queue read and places the m results of the table, per sub-element of its
type, in order. No flag is set, and nothing else of the machine changes. R157, R159: what the per-sub-element table gives for int32, as 32-bit two's
complement arithmetic. -/
def Obligations.IntegerCellsFire : Prop :=
  -- IntegerCellsFire
  (
    ∀ (c : CtxId) (n : Nat), ∀ e ∈ ([
        (.cellAdd c n, 0x01, fun t u => (t.map2 (fun x y => (intPat t.width (x + y), 0)) u.a u.b).1),
        (.cellSub c n, 0x02, fun t u => (t.map2 (fun x y => (intPat t.width ((x : Int) - y), 0)) u.a u.b).1),
        (.cellRsub c n, 0x03, fun t u => (t.map2 (fun x y => (intPat t.width ((y : Int) - x), 0)) u.a u.b).1),
        (.cellMul c n, 0x04, fun t u => (t.map2 (fun x y => (intPat t.width (x * y), 0)) u.a u.b).1),
        (.cellMulh c n, 0x05, fun t u => (t.map2 (fun x y => (intPat t.width (patInt t.width true x * patInt t.width true y / (2 ^ t.width : Nat)), 0)) u.a u.b).1),
        (.cellMad c n, 0x06, fun t u => (t.map3 (fun x y z => (intPat t.width (x * y + z), 0)) u.a u.b u.c).1),
        (.cellAdds c n, 0x07, fun t u => (t.map2 (fun x y => clampI t.width (patInt t.width true x + patInt t.width true y)) u.a u.b).1),
        (.cellSubs c n, 0x08, fun t u => (t.map2 (fun x y => clampI t.width (patInt t.width true x - patInt t.width true y)) u.a u.b).1),
        (.cellMin c n, 0x09, fun t u => (t.map2 (fun x y => (if patInt t.width true x ≤ patInt t.width true y then x else y, 0)) u.a u.b).1),
        (.cellMax c n, 0x0A, fun t u => (t.map2 (fun x y => (if patInt t.width true x ≤ patInt t.width true y then y else x, 0)) u.a u.b).1),
        (.cellMinu c n, 0x0B, fun t u => (t.map2 (fun x y => (min x y, 0)) u.a u.b).1),
        (.cellMaxu c n, 0x0C, fun t u => (t.map2 (fun x y => (max x y, 0)) u.a u.b).1),
        (.cellAbs c n, 0x0D, fun t u => (t.map2 (fun x _ => (intPat t.width (patInt t.width true x).natAbs, 0)) u.a u.b).1),
        (.cellNeg c n, 0x0E, fun t u => (t.map2 (fun x _ => (intPat t.width (-(x : Int)), 0)) u.a u.b).1),
        (.cellAnd c n, 0x0F, fun t u => (t.map2 (fun x y => (x &&& y, 0)) u.a u.b).1),
        (.cellOr c n, 0x10, fun t u => (t.map2 (fun x y => (x ||| y, 0)) u.a u.b).1),
        (.cellXor c n, 0x11, fun t u => (t.map2 (fun x y => (x ^^^ y, 0)) u.a u.b).1),
        (.cellShl c n, 0x12, fun t u => (t.map2 (fun x y => (intPat t.width (x * 2 ^ (y % t.width) : Nat), 0)) u.a u.b).1),
        (.cellShr c n, 0x13, fun t u => (t.map2 (fun x y => (x / 2 ^ (y % t.width), 0)) u.a u.b).1),
        (.cellSra c n, 0x14, fun t u => (t.map2 (fun x y => (intPat t.width (patInt t.width true x / (2 ^ (y % t.width) : Nat)), 0)) u.a u.b).1),
        (.cellClz c n, 0x15, fun t u => (t.map2 (fun x _ => (clzSub t.width x, 0)) u.a u.b).1),
        (.cellPopc c n, 0x16, fun t u => (t.map2 (fun x _ => (popFrom x t.width, 0)) u.a u.b).1),
        (.cellCmpEq c n, 0x30, fun t u => (t.map2 (fun x y => (if x = y then 1 else 0, 0)) u.a u.b).1),
        (.cellCmpNe c n, 0x31, fun t u => (t.map2 (fun x y => (if x = y then 0 else 1, 0)) u.a u.b).1),
        (.cellCmpLt c n, 0x32, fun t u => (t.map2 (fun x y => (if patInt t.width true x < patInt t.width true y then 1 else 0, 0)) u.a u.b).1),
        (.cellCmpLe c n, 0x33, fun t u => (t.map2 (fun x y => (if patInt t.width true x ≤ patInt t.width true y then 1 else 0, 0)) u.a u.b).1),
        (.cellCmpLtu c n, 0x34, fun t u => (t.map2 (fun x y => (if x < y then 1 else 0, 0)) u.a u.b).1),
        (.cellCmpLeu c n, 0x35, fun t u => (t.map2 (fun x y => (if x ≤ y then 1 else 0, 0)) u.a u.b).1),
        (.cellSel c n, 0x3B, fun t u => (t.map3 (fun x y z => (if x % 2 = 1 then y else z, 0)) u.a u.b u.c).1),
        (.cellPand c n, 0x3C, fun _ u => if u.a.getLsbD 0 && u.b.getLsbD 0 then 1 else 0),
        (.cellPor c n, 0x3D, fun _ u => if u.a.getLsbD 0 || u.b.getLsbD 0 then 1 else 0),
        (.cellPxor c n, 0x3E, fun _ u => if u.a.getLsbD 0 != u.b.getLsbD 0 then 1 else 0),
        (.cellPnot c n, 0x3F, fun _ u => if u.a.getLsbD 0 then 0 else 1),
        (.cellMov c n, 0x50, fun _ u => u.a),
        (.cellOrdj c n, 0x67, fun _ _ => 1)] : List (Instr × Nat × (ElTy → Tup → W32))),
      ∀ (s : State) (k : Cell) (m : Nat), s.CellReady c n e.2.1 k → k.Offers m → k.pk.length + m ≤ 8 →
        ∃ t, exec e.1 s = .next t ∧ s.Fired t c n (k.fired m ((k.tups m).map (e.2.2 (wTy k.word)))) 0)
  -- IntegerCellResultsOnWords
  ∧ (
    ∀ x y z : W32,
      (∀ e ∈ ([(fun a b => intPat 32 ((a : Int) + b), x + y), (fun a b => intPat 32 ((a : Int) - b), x - y), (fun a b => intPat 32 ((b : Int) - a), y - x),
        (fun a b => intPat 32 ((a : Int) * b), x * y),
        (fun a b => intPat 32 (patInt 32 true a * patInt 32 true b / (2 ^ 32 : Nat)), BitVec.ofInt 32 (x.toInt * y.toInt / 2 ^ 32)),
        (fun a b => (clampI 32 (patInt 32 true a + patInt 32 true b)).1,
          if x.toInt + y.toInt > 2 ^ 31 - 1 then 0x7FFFFFFF else if x.toInt + y.toInt < -2 ^ 31 then 0x80000000 else x + y),
        (fun a b => (clampI 32 (patInt 32 true a - patInt 32 true b)).1,
          if x.toInt - y.toInt > 2 ^ 31 - 1 then 0x7FFFFFFF else if x.toInt - y.toInt < -2 ^ 31 then 0x80000000 else x - y),
        (fun a b => if patInt 32 true a ≤ patInt 32 true b then a else b, if x.toInt ≤ y.toInt then x else y),
        (fun a b => if patInt 32 true a ≤ patInt 32 true b then b else a, if x.toInt ≤ y.toInt then y else x),
        (fun a b => min a b, if x.toNat ≤ y.toNat then x else y), (fun a b => max a b, if x.toNat ≤ y.toNat then y else x),
        (fun a _ => intPat 32 (-(a : Int)), -x), (fun a b => a &&& b, x &&& y), (fun a b => a ||| b, x ||| y), (fun a b => a ^^^ b, x ^^^ y),
        (fun a b => intPat 32 (a * 2 ^ (b % 32) : Nat), x <<< (y.toNat % 32)), (fun a b => a / 2 ^ (b % 32), x >>> (y.toNat % 32)),
        (fun a b => intPat 32 (patInt 32 true a / (2 ^ (b % 32) : Nat)), x.sshiftRight (y.toNat % 32))] : List ((Nat → Nat → Nat) × W32)),
        (ElTy.int32.map2 (fun a b => (e.1 a b, 0)) x y).1 = e.2)
      ∧ (ElTy.int32.map3 (fun a b d => (intPat 32 ((a : Int) * b + d), 0)) x y z).1 = x * y + z)

/-- R44, R45, R158, R159, R182: a cell with a floating operation of a floating type fires in the same way; its results come from the format's operation on
each sub-element, and the flags that they raise are ORed into the flag word. R53, R154, R164, R165: a reduction consumes its elements and folds them
into st in index order; nothing is emitted until a marker passes. R34, R38 to R41, R45: a rounding gives a neighbour of the exact value: q is the
rational value of a finite pattern. In RNE no finite value of the format is nearer, and of two equally near the even one is taken; RTZ, RUP and RDN
take the next value towards zero, upwards and downwards. NX is set exactly where the result is not the exact value, UF where it is tiny and inexact; a
tiny BF16 result is a zero of its sign with UF and NX. An overflow means an exact value beyond every finite one, and gives the table of R40. R39, R41
to R44, R158: the floating operations on finite operands round their exact rational result once; an exact zero has the sign of R43; a NaN operand
gives the canonical NaN, with NV if one is signalling; a sum of infinities of opposite signs and a product of zero and infinity are invalid. Minimum
and maximum take the lesser and the greater operand, -0 below +0. The model's own choices or readings in this: log 14 (the operation codes of FMIN and
FMAX). -/
def Obligations.FloatingAndReductionCellsFire : Prop :=
  -- FloatingCellsFire
  (
    ∀ (c : CtxId) (n : Nat) (f : Fmt) (r : Round), ∀ e ∈ ([
        (.cellFadd c n, 0x20, fun t u => t.map2 (f.fadd r) u.a u.b), (.cellFsub c n, 0x21, fun t u => t.map2 (f.fsub r) u.a u.b),
        (.cellFmul c n, 0x22, fun t u => t.map2 (f.fmul r) u.a u.b), (.cellFma c n, 0x23, fun t u => t.map3 (f.fma r) u.a u.b u.c),
        (.cellFms c n, 0x24, fun t u => t.map3 (f.fms r) u.a u.b u.c), (.cellFmin c n, 0x25, fun t u => t.map2 f.fmin u.a u.b),
        (.cellFmax c n, 0x26, fun t u => t.map2 f.fmax u.a u.b), (.cellFabs c n, 0x27, fun t u => t.map1 f.fabs u.a),
        (.cellFneg c n, 0x28, fun t u => t.map1 f.fneg u.a), (.cellRcp c n, 0x2C, fun t u => t.map1 (f.apx .rcp) u.a),
        (.cellRsq c n, 0x2D, fun t u => t.map1 (f.apx .rsq) u.a), (.cellExp2 c n, 0x2E, fun t u => t.map1 (f.apx .exp2) u.a),
        (.cellLog2 c n, 0x2F, fun t u => t.map1 (f.apx .log2) u.a),
        (.cellFcmpEq c n, 0x36, fun t u => t.map2 (fun x y => (if (f.val x).eq (f.val y) then 1 else 0, (f.val x).nv ||| (f.val y).nv)) u.a u.b),
        (.cellFcmpNe c n, 0x37, fun t u => t.map2 (fun x y => (if (f.val x).eq (f.val y) then 0 else 1, (f.val x).nv ||| (f.val y).nv)) u.a u.b),
        (.cellFcmpLt c n, 0x38, fun t u => t.map2 (fun x y => (if (f.val x).lt (f.val y) then 1 else 0, (f.val x).nv ||| (f.val y).nv)) u.a u.b),
        (.cellFcmpLe c n, 0x39, fun t u =>
          t.map2 (fun x y => (if (f.val x).lt (f.val y) ∨ (f.val x).eq (f.val y) then 1 else 0, (f.val x).nv ||| (f.val y).nv)) u.a u.b),
        (.cellFcmpUn c n, 0x3A, fun t u =>
          t.map2 (fun x y => (if (f.val x).isNan ∨ (f.val y).isNan then 1 else 0, (f.val x).nv ||| (f.val y).nv)) u.a u.b)]
        : List (Instr × Nat × (ElTy → Tup → W32 × W32))),
      ∀ (s : State) (k : Cell) (m : Nat), s.CellReady c n e.2.1 k → k.Offers m → k.pk.length + m ≤ 8 → (wTy k.word).fmt? = some f → k.round = r →
        ∃ t, exec e.1 s = .next t ∧ s.Fired t c n (k.fired m ((k.tups m).map (fun u => (e.2.2 (wTy k.word) u).1)))
          ((k.tups m).foldl (fun a u => a ||| (e.2.2 (wTy k.word) u).2) 0))
  -- ReductionCellsFoldIntoSt
  ∧ (
    ∀ (c : CtxId) (n : Nat) (f : Fmt) (r : Round), ∀ e ∈ ([
        (.cellRadd c n, 0x48, fun t st u => t.map2 (fun x y => (intPat t.width (x + y), 0)) st u.a),
        (.cellRmin c n, 0x49, fun t st u => t.map2 (fun x y => (if patInt t.width true x ≤ patInt t.width true y then x else y, 0)) st u.a),
        (.cellRmax c n, 0x4A, fun t st u => t.map2 (fun x y => (if patInt t.width true x ≤ patInt t.width true y then y else x, 0)) st u.a),
        (.cellScacc c n, 0x29, fun _ st u => scaccStep st u.a u.b u.c)] : List (Instr × Nat × (ElTy → W32 → Tup → W32 × W32)))
      ++ [(.cellRfadd c n, 0x4B, fun t st u => if t.fmt? = some f then t.map2 (f.fadd r) st u.a else (0, 0)),
        (.cellRfmin c n, 0x4C, fun t st u => if t.fmt? = some f then t.map2 f.fmin st u.a else (0, 0)),
        (.cellRfmax c n, 0x4D, fun t st u => if t.fmt? = some f then t.map2 f.fmax st u.a else (0, 0))],
      ∀ (s : State) (k : Cell) (m : Nat) (q : W32 × W32), s.CellReady c n e.2.1 k → k.Offers m → k.round = r →
        (0x4A < e.2.1 → (wTy k.word).fmt? = some f) →
        q = (k.tups m).foldl (fun a u => ((e.2.2 (wTy k.word) a.1 u).1, a.2 ||| (e.2.2 (wTy k.word) a.1 u).2)) (k.st, 0) →
          ∃ t, exec e.1 s = .next t ∧ s.Fired t c n { k.popQs (wQueues k.word) m with st := q.1 } q.2)
  -- RoundingTakesTheNeighbour
  ∧ (
    ∀ (q : Val → ℚ), (∀ n m e, q (.fin n m e) = (if n then -1 else 1) * (m : ℚ) * (2 : ℚ) ^ e) →
      ∀ (f : Fmt) (mode : Round) (neg : Bool) (m : Nat) (e : Int) (x : ℚ) (r : Nat) (fl : W32) (fin : Nat → Prop), x = q (.fin neg m e) →
        (∀ z, fin z ↔ ∃ n' m' e', f.val z = .fin n' m' e') →
        (f.round mode false neg m e = (r, fl, false) → (f = .bf16 ∧ fl &&& flagUF ≠ 0 → r = f.sign neg ∧ fl = flagUF ||| flagNX ∧ 0 < |x| ∧ |x| < 2 ^ (-126 : Int))
          ∧ (f ≠ .bf16 ∨ fl &&& flagUF = 0 → fin r ∧ (fl &&& flagNX = 0 ↔ q (f.val r) = x) ∧ (fl &&& flagUF ≠ 0 → fl &&& flagNX ≠ 0 ∧ |x| < 2 ^ (1 - f.bias))
            ∧ (mode = .rne → (∀ z, fin z → |q (f.val r) - x| ≤ |q (f.val z) - x|)
                ∧ ∀ z, fin z → q (f.val z) ≠ q (f.val r) → |q (f.val z) - x| = |q (f.val r) - x| → r % 2 = 0)
            ∧ (mode = .rtz → |q (f.val r)| ≤ |x| ∧ ∀ z, fin z → |q (f.val z)| ≤ |x| → |q (f.val z)| ≤ |q (f.val r)|)
            ∧ (mode = .rup → x ≤ q (f.val r) ∧ ∀ z, fin z → x ≤ q (f.val z) → q (f.val r) ≤ q (f.val z))
            ∧ (mode = .rdn → q (f.val r) ≤ x ∧ ∀ z, fin z → q (f.val z) ≤ x → q (f.val z) ≤ q (f.val r))))
        ∧ (f.round mode false neg m e = (r, fl, true) → (∀ z, fin z → |q (f.val z)| < |x|) ∧ fl = flagOF ||| flagNX
            ∧ r = f.sign neg + (if mode = .rne ∨ (mode = .rup ∧ neg = false) ∨ (mode = .rdn ∧ neg = true) then (2 ^ f.expBits - 1) * 2 ^ f.frac
                else (2 ^ f.expBits - 1) * 2 ^ f.frac - 1)))
  -- FloatingOperationsRoundOnce
  ∧ (
    ∀ (q : Val → ℚ), (∀ n m e, q (.fin n m e) = (if n then -1 else 1) * (m : ℚ) * (2 : ℚ) ^ e) →
      ∀ (f : Fmt) (mode : Round) (a b c : Nat),
        (∀ n m e n' m' e' n'' m'' e'', f.val a = .fin n m e → f.val b = .fin n' m' e' → f.val c = .fin n'' m'' e'' →
          (∀ o ∈ ([(f.fadd mode a b, q (f.val a) + q (f.val b)), (f.fsub mode a b, q (f.val a) - q (f.val b)), (f.fmul mode a b, q (f.val a) * q (f.val b)),
              (f.fma mode a b c, q (f.val a) * q (f.val b) + q (f.val c)), (f.fms mode a b c, q (f.val a) * q (f.val b) - q (f.val c))] : List ((Nat × W32) × ℚ)),
            o.2 ≠ 0 → ∃ neg m e ov, q (.fin neg m e) = o.2 ∧ f.round mode false neg m e = (o.1.1, o.1.2, ov))
          ∧ (q (f.val a) + q (f.val b) = 0 → f.fadd mode a b = (f.sign (if m = 0 ∧ m' = 0 ∧ n = n' then n else mode == .rdn), 0))
          ∧ (q (f.val a) * q (f.val b) = 0 → f.fmul mode a b = (f.sign (n != n'), 0))
          ∧ f.fmin a b = (if q (f.val a) < q (f.val b) ∨ (q (f.val a) = q (f.val b) ∧ n = true) then f.flushed a else f.flushed b, 0)
          ∧ f.fmax a b = (if q (f.val b) < q (f.val a) ∨ (q (f.val a) = q (f.val b) ∧ n = false) then f.flushed a else f.flushed b, 0))
        ∧ ((f.val a).isNan = true ∨ (f.val b).isNan = true → ∀ o ∈ [f.fadd mode a b, f.fsub mode a b, f.fmul mode a b, f.fmin a b, f.fmax a b],
            o = (f.nan, if f.val a = .nan true ∨ f.val b = .nan true then flagNV else 0))
        ∧ (∀ n, f.val a = .inf n → f.val b = .inf (!n) → f.fadd mode a b = (f.nan, flagNV))
        ∧ (∀ n, f.val a = .inf n → f.val b = .inf n → f.fadd mode a b = (f.sign n + f.inf, 0) ∧ f.fsub mode a b = (f.nan, flagNV))
        ∧ (∀ n n' m' e', f.val a = .inf n → f.val b = .fin n' m' e' → f.fadd mode a b = (f.sign n + f.inf, 0) ∧ f.fadd mode b a = (f.sign n + f.inf, 0)
            ∧ f.fmul mode a b = (if m' = 0 then (f.nan, flagNV) else (f.sign (n != n') + f.inf, 0))))

/-- R46, R47, R152, R163, R167 to R172: the cells that convert, select and shape streams: CONST, SINK, CVT, MERGE, SPLIT, DUP, GATE, STEER and MKINS. Each
consumes m elements of the queues it reads and emits as the table of its rule says; only the cell, and for CVT the flag word, change. R167: MERGE
takes up to four elements of a until a's marker stands at its head, then of b, and emits them. R46, R47, R163: an integer conversion keeps a value
that the destination holds and saturates every other: to its greatest value, or to its least. -/
def Obligations.StreamCellsFire : Prop :=
  -- StreamShapingCellsFire
  (
    ∀ (s : State) (c : CtxId) (n : Nat) (k : Cell) (m : Nat), k.Offers m → k.pk.length + m ≤ 8 →
      (s.CellReady c n 0x57 k → ∃ t, exec (.cellConst c n) s = .next t ∧ s.Fired t c n (k.fired m (List.replicate m (constVal k.word))) 0)
      ∧ (s.CellReady c n 0x56 k → ∃ t, exec (.cellSink c n) s = .next t ∧ s.Fired t c n (k.fired m []) 0)
      ∧ (s.CellReady c n 0x52 k → k.apk.length + m ≤ 8 → (wAux k.word && (s.ctx c).fab.routed (.aux n)) = false ∨ (s.ctx c).fab.canClose (.aux n) 1 →
        ∃ t, exec (.cellSplit c n) s = .next t ∧ s.Fired t c n
          { k.popQs (wQueues k.word) m with
            pk := k.pk ++ (((List.range m).filter (fun i => (k.st.toNat + i) % 2 == 0)).map (fun i => ((k.tups m).getD i ⟨0, 0, 0, true⟩).a))
            apk := if wAux k.word then
              k.apk ++ (((List.range m).filter (fun i => (k.st.toNat + i) % 2 == 1)).map (fun i => ((k.tups m).getD i ⟨0, 0, 0, true⟩).a)) else []
            st := BitVec.ofNat 32 ((k.st.toNat + m) % 2) } 0)
      ∧ (∀ e ∈ ([(.cellDup c n, 0x53, fun _ => true, fun _ => true), (.cellGate c n, 0x54, fun u => u.b.getLsbD 0, fun _ => false),
          (.cellSteer c n, 0x55, fun u => u.b.getLsbD 0, fun u => !u.b.getLsbD 0)] : List (Instr × Nat × (Tup → Bool) × (Tup → Bool))),
        s.CellReady c n e.2.1 k → k.apk.length + m ≤ 8 →
        (wAux k.word && (s.ctx c).fab.routed (.aux n)) = false ∨ (s.ctx c).fab.canClose (.aux n) 1 →
        ∃ t, exec e.1 s = .next t ∧ s.Fired t c n
          { k.popQs (wQueues k.word) m with
            pk := k.pk ++ ((k.tups m).filter e.2.2.1).map (·.a)
            apk := if wAux k.word then k.apk ++ ((k.tups m).filter e.2.2.2).map (·.a) else []
            st := 0 } 0)
      ∧ (s.CellReady c n 0x58 k → k.go = false → k.st.toNat + m ≤ wImm k.word →
        ∃ t, exec (.cellMkins c n) s = .next t ∧ s.Fired t c n
          { k.fired m ((k.tups m).map (·.a)) with
            st := BitVec.ofNat 32 (k.st.toNat + m), go := k.st.toNat + m == wImm k.word, lastIns := false } 0)
      ∧ (s.CellReady c n 0x40 k → m * (wTy k.word).count ≤ 4 * (cvtDst k.word).1.count ∨ m = 1 →
        (k.pk.length + (k.idx % (cvtDst k.word).1.count + m * (wTy k.word).count) / (cvtDst k.word).1.count ≤ 8) →
        ∀ r, r = ((k.tups m).map (fun u => (wTy k.word).subs u.a)).flatten.foldl
            (cvtValue k.word (wAux k.word && (s.ctx c).fab.routed (.aux n))) ⟨[], k.st, k.idx, 0, []⟩ →
          ∃ t, exec (.cellCvt c n) s = .next t ∧ s.Fired t c n { k.fired m r.out with st := r.st, idx := r.idx, held := r.toks } r.flags))
  -- MergeCellTakesAThenB
  ∧ (
    ∀ (s : State) (c : CtxId) (n : Nat) (k : Cell) (q : Nat), (s.ctx c).fab.cell? n = some k → wOp k.word = 0x51 → (s.ctx c).active? = true →
      s.isOpen (s.ctx c).ten.toNat = true → (s.ctx c).fab.canClose (.out n) 1 = true → s.turn c n = true →
      q = (if (k.queue (wQA k.word)).marker?.isSome then wQB k.word else wQA k.word) → (k.queue q).els ≠ [] →
      k.pk.length + ((k.queue q).els.take 4).length ≤ 8 →
        ∃ t, exec (.cellMerge c n) s = .next t ∧ s.OnlyFiring t c n
          ∧ t.ctx c = (s.ctx c).withCell n
              { k.popQs [q] ((k.queue q).els.take 4).length with pk := k.pk ++ (k.queue q).els.take 4 })
  -- IntegerConversionsSaturate
  ∧ (
    ∀ (r : Round) (w v : Nat) (sg dg : Bool) (x : Nat), 0 < w → 0 < v →
      (convert r (.int w sg) (.int v dg) x).1 = intPat v (if intMax v dg < patInt w sg x then intMax v dg else if patInt w sg x < intMin v dg then intMin v dg
        else patInt w sg x))

/-- R173, R174, R22: a firing of a memory cell whose addresses, where their guards are true, pass the checks of the scratchpad starts one access for each
element, with address and operand; a false guard suppresses the access. R173 to R175, R388: the oldest started access of a memory cell takes effect:
LD reads, ST and SWAP write their operand, ADD, MIN and MAX write the sum or the signed lesser or greater, AFADD the record after an anchored
addition; all but ST and AFADD emit the old value, and each emits its ordering token where aux is used. A suppressed access touches no memory and
emits 0. An access that took effect while the load was held emits its value after the release; while the load is held a load's value waits. -/
def Obligations.MemoryCellsAccessTheScratchpad : Prop :=
  -- MemoryCellsStartTheirAccesses
  (
    ∀ (c : CtxId) (n : Nat), ∀ e ∈ ([(.cellLd c n, 0x60, 4), (.cellSt c n, 0x61, 4), (.cellAmoAdd c n, 0x62, 4), (.cellAmoMin c n, 0x63, 4),
        (.cellAmoMax c n, 0x64, 4), (.cellAmoSwap c n, 0x65, 4), (.cellAmoAfadd c n, 0x66, 16)] : List (Instr × Nat × Nat)),
      ∀ (s : State) (k : Cell) (m : Nat), s.CellReady c n e.2.1 k → k.Offers m → k.pk.length + k.acc.length + m ≤ 8 →
        ((∀ u ∈ k.tups m, u.g = true → s.spadFault c (u.a.zeroExtend 64) e.2.2 e.2.2 (unitCell n) = none) →
          ∃ t, exec e.1 s = .next t ∧ s.OnlyFiring t c n ∧ t.ctx c = (s.ctx c).withCell n
            { k.popQs (wQueues k.word) m with acc := k.acc ++ (k.tups m).map (fun u => ⟨e.2.1, u.a.toNat, u.b, !u.g, false, none⟩) }))
  -- MemoryCellAccessesTakeEffect
  ∧ (
    ∀ (s : State) (c : CtxId) (n : Nat) (k : Cell) (a : CellAcc) (rest : List CellAcc) (out : W32 → Cell), (s.ctx c).fab.cell? n = some k →
      k.acc = a :: rest → (s.ctx c).cur.st = .running →
      (∀ v, out v = { k with
        acc := rest
        pk := if a.op = 0x61 ∨ a.op = 0x66 then k.pk else k.pk ++ [v]
        held := if wAux k.word && (s.ctx c).fab.routed (.aux n) then k.held ++ [1] else k.held }) →
      (∀ v, a.res = some v → (s.ctx c).fab.held = false → exec (.memAccessEffect c n) s = .next (s.updFab c (fun f => f.setCell n (out v))))
      ∧ (a.res = none → a.failed = false → (s.ctx c).fab.held = false →
        (a.skip = true → exec (.memAccessEffect c n) s = .next (s.updFab c (fun f => f.setCell n (out 0))))
        ∧ (a.skip = false → (s.ctx c).zeroing a.addr 4 = false → (a.op ≠ 0x61 → s.spadEcc c a.addr 4 false = none) →
          (a.op = 0x60 → exec (.memAccessEffect c n) s = .next (s.updFab c (fun f => f.setCell n (out (s.spad32 c a.addr)))))
          ∧ ∀ e ∈ ([(0x61, a.val), (0x62, s.spad32 c a.addr + a.val), (0x63, if (s.spad32 c a.addr).toInt < a.val.toInt then s.spad32 c a.addr else a.val),
              (0x64, if (s.spad32 c a.addr).toInt < a.val.toInt then a.val else s.spad32 c a.addr), (0x65, a.val)] : List (Nat × W32)),
            a.op = e.1 → exec (.memAccessEffect c n) s
              = .next ((s.spadWrite c a.addr (toBytes 4 e.2.toNat)).updFab c (fun f => f.setCell n (out (s.spad32 c a.addr)))))
        ∧ ∀ (rec : List Byte) (an fl : Byte) (u : BitVec 64 × BitVec 3), a.skip = false → a.op = 0x66 → (s.ctx c).zeroing a.addr 16 = false →
            s.spadEcc c a.addr 16 false = none → rec = s.spadBytes c a.addr 16 → an = rec.getD 10 0 → fl = rec.getD 11 0 → u = anchorOf an a.val →
            (anchorOk an = true → exec (.memAccessEffect c n) s = .next ((s.spadWrite c a.addr
              (toBytes 10 (anchorAdd (BitVec.ofNat 80 (ofBytes (rec.take 10))) u.1).toNat ++ [an, fl ||| u.2.zeroExtend 8] ++ rec.drop 12)).updFab c
                (fun f => f.setCell n (out 0))))
            ∧ (anchorOk an = false → (s.ctx c).fab.stopped = false → exec (.memAccessEffect c n) s
                = .next ((s.updFab c (fun f => f.setCell n { k with acc := { a with failed := true } :: rest })).fabFault c
                    ⟨0x0C, BitVec.ofNat 64 a.addr, an.zeroExtend 16⟩)))
      ∧ (a.res = none → a.failed = false → (s.ctx c).fab.held = true → a.skip = false → a.op = 0x60 → (s.ctx c).zeroing a.addr 4 = false →
        s.spadEcc c a.addr 4 false = none →
          exec (.memAccessEffect c n) s = .next (s.updFab c (fun f => f.setCell n { k with acc := { a with res := some (s.spad32 c a.addr) } :: rest }))))

/-- R179: SPAWN consumes one element and makes its request to Ostler, or with a false guard emits the word of ones; the reply is emitted, and a refusal
leaves the token on aux. R153, R180, R181, R234: CPY gathers elements until it holds sixteen and then queues its packet at the core's copy engine and
waits, or, where the guard of the packet's first element is false, gives the engine a suppressed packet with its LSN and emits 0; ACPUT gathers
elements for its join slot's block, and an element that fills the block, or ends the chain, puts it into the queue of the context's port. R114, R117,
R118, R135, R390: where one queue that a cell of any operation but MERGE reads holds a marker at its head and another an element, the firing raises
STREAM_ALIGN with cause 1 and the cell's number; where all hold markers of different kinds, passing them raises cause 2. The load on that core is
held. The model's own choices or readings in this: log 127 (a waiting block at a stop). -/
def Obligations.RequestCellsAndStreamFaults : Prop :=
  -- SpawnCellRequestsAndTakesItsReply
  (
    (∀ (s : State) (c : CtxId) (n : Nat) (k : Cell) (m : Nat) (u : Tup), s.CellReady c n 0x70 k → k.Offers m → 0 < m → k.pk.length < 8 → k.tups 1 = [u] →
      (u.g = true → ∃ t, exec (.cellSpawn c n) s = .next t
        ∧ t.spawns = s.spawns ++ [{ seq := s.ostN, ctx := c, cell := n, index := wImm k.word, arg := u.a, ten := (s.ctx c).ten.toNat }]
        ∧ t.ctx c = (s.ctx c).withCell n { k.popQs (wQueues k.word) 1 with idx := k.idx + 1, busy := some 0 }
        ∧ t = { s.setCtx c (t.ctx c) with spawns := t.spawns, ostN := s.ostN + 1, turns := s.turns.set (512 * coreOf c + n) (c % 4, s.time) })
      ∧ (u.g = false → ∃ t, exec (.cellSpawn c n) s = .next t ∧ s.OnlyFiring t c n
        ∧ t.ctx c = (s.ctx c).withCell n
            { k.popQs (wQueues k.word) 1 with idx := k.idx + 1, pk := k.pk ++ [BitVec.allOnes 32] }))
    ∧ ∀ (s : State) (c : CtxId) (n r : Nat) (k : Cell), (s.ctx c).fab.cell? n = some k → k.busy = some (r + 1) → wOp k.word = 0x70 →
      (∀ l mv, s.leaseOf c = some l → l.moving = some mv → mv.step < 3) →
        ∃ t, exec (.spawnReply c n) s = .next t ∧ s.OnlyCtx t c ∧ t.ctx c = (s.ctx c).withCell n { k with
          busy := none, pk := k.pk ++ [BitVec.ofNat 32 r]
          held := if BitVec.ofNat 32 r = BitVec.allOnes 32 ∧ wAux k.word ∧ (s.ctx c).fab.routed (.aux n)
            then k.held ++ [BitVec.ofNat 32 (2 ^ 31 + (k.idx - 1) % 2 ^ 30)] else k.held })
  -- CopyAndAccumulateCellsGather
  ∧ (
    (∀ (s : State) (c : CtxId) (n : Nat) (k k' : Cell) (m : Nat) (buf : List W32), s.CellReady c n 0x71 k → k.Offers m → k.pk.length + m ≤ 8 →
      k.buf.length + m ≤ 16 → buf = k.buf ++ (k.tups m).map (·.a) →
      k' = { k.popQs (wQueues k.word) m with idx := k.idx + m, go := if k.buf = [] then ((k.tups m).map (·.g)).headD true else k.go } →
      (buf.length < 16 → ∃ t, exec (.cellCpy c n) s = .next t ∧ s.OnlyFiring t c n ∧ t.ctx c = (s.ctx c).withCell n { k' with buf := buf })
      ∧ (buf.length = 16 → k'.go = true → ∃ t, exec (.cellCpy c n) s = .next t ∧ t.ctx c = (s.ctx c).withCell n { k' with buf := buf, busy := some 0 }
        ∧ (t.core (coreOf c)).ceCmds = cpyCmd (s.core (coreOf c)).ceCmds ⟨c, some n, s.time⟩ ∧ t.mem = s.mem ∧ ∀ d, d ≠ c → t.ctx d = s.ctx d)
      ∧ (buf.length = 16 → k'.go = false → ∃ t, exec (.cellCpy c n) s = .next t
        ∧ t.ctx c = { (s.ctx c).withCell n { k' with buf := [], pk := k.pk ++ [0] } with lsn := (s.ctx c).lsn + 1 }
        ∧ (t.core (coreOf c)).pkts = (s.core (coreOf c)).pkts ++ [⟨s.pktN, .local (some (some n)), c, (s.ctx c).lsn.toNat, 0, packetOf buf, 4, none, none, [], [], 0, [], none⟩]
        ∧ t.pktN = s.pktN + 1 ∧ t.mem = s.mem ∧ ∀ d, d ≠ c → t.ctx d = s.ctx d))
    ∧ ∀ (s : State) (c : CtxId) (n : Nat) (k : Cell) (m : Nat) (j : JoinSlot), s.CellReady c n 0x72 k → (s.ctx c).putHeld = false → k.Offers m →
        j = (s.ctx c).join (wImm k.word % 16) →
        (k.idx % 16 + m < 16 → (j.st ≠ 0 → k.idx + m < j.len) → ∃ t, exec (.cellAcput c n) s = .next t ∧ s.OnlyFiring t c n ∧ t.ctx c = (s.ctx c).withCell n
            { k.popQs (wQueues k.word) m with idx := k.idx + m, buf := k.buf ++ (k.tups m).map (fun u => if u.g then u.a else 0) })
        ∧ ∀ u, m = 1 → k.tups 1 = [u] → j.st = 4 → k.idx < j.len → k.idx % 16 = 15 ∨ k.idx + 1 = j.len → j.anchored = true ∨ k.idx / 16 = j.next →
            ∃ t, exec (.cellAcput c n) s = .next t ∧ s.OnlyFiring t c n ∧ t.ctx c = (s.ctx c).withCell n
              { k.popQs (wQueues k.word) 1 with idx := k.idx + 1, buf := [], waitBlk := [(k.idx / 16, k.buf ++ [if u.g then u.a else 0])] })
  -- MisalignedStreamsHoldTheLoad
  ∧ (
    ∀ (s : State) (c : CtxId) (n : Nat) (k : Cell),
      ∀ e ∈ ([(.cellAdd c n, 0x01), (.cellSub c n, 0x02), (.cellRsub c n, 0x03), (.cellMul c n, 0x04), (.cellMulh c n, 0x05), (.cellMad c n, 0x06),
        (.cellAdds c n, 0x07), (.cellSubs c n, 0x08), (.cellMin c n, 0x09), (.cellMax c n, 0x0A), (.cellMinu c n, 0x0B), (.cellMaxu c n, 0x0C),
        (.cellAbs c n, 0x0D), (.cellNeg c n, 0x0E), (.cellAnd c n, 0x0F), (.cellOr c n, 0x10), (.cellXor c n, 0x11), (.cellShl c n, 0x12),
        (.cellShr c n, 0x13), (.cellSra c n, 0x14), (.cellClz c n, 0x15), (.cellPopc c n, 0x16), (.cellFadd c n, 0x20), (.cellFsub c n, 0x21),
        (.cellFmul c n, 0x22), (.cellFma c n, 0x23), (.cellFms c n, 0x24), (.cellFmin c n, 0x25), (.cellFmax c n, 0x26), (.cellFabs c n, 0x27),
        (.cellFneg c n, 0x28), (.cellScacc c n, 0x29), (.cellRcp c n, 0x2C), (.cellRsq c n, 0x2D), (.cellExp2 c n, 0x2E), (.cellLog2 c n, 0x2F),
        (.cellCmpEq c n, 0x30), (.cellCmpNe c n, 0x31), (.cellCmpLt c n, 0x32), (.cellCmpLe c n, 0x33), (.cellCmpLtu c n, 0x34), (.cellCmpLeu c n, 0x35),
        (.cellFcmpEq c n, 0x36), (.cellFcmpNe c n, 0x37), (.cellFcmpLt c n, 0x38), (.cellFcmpLe c n, 0x39), (.cellFcmpUn c n, 0x3A), (.cellSel c n, 0x3B),
        (.cellPand c n, 0x3C), (.cellPor c n, 0x3D), (.cellPxor c n, 0x3E), (.cellPnot c n, 0x3F), (.cellCvt c n, 0x40), (.cellRadd c n, 0x48),
        (.cellRmin c n, 0x49), (.cellRmax c n, 0x4A), (.cellRfadd c n, 0x4B), (.cellRfmin c n, 0x4C), (.cellRfmax c n, 0x4D), (.cellMov c n, 0x50),
        (.cellSplit c n, 0x52), (.cellDup c n, 0x53), (.cellGate c n, 0x54), (.cellSteer c n, 0x55), (.cellSink c n, 0x56), (.cellConst c n, 0x57),
        (.cellMkins c n, 0x58), (.cellLd c n, 0x60), (.cellSt c n, 0x61), (.cellAmoAdd c n, 0x62), (.cellAmoMin c n, 0x63), (.cellAmoMax c n, 0x64),
        (.cellAmoSwap c n, 0x65), (.cellAmoAfadd c n, 0x66), (.cellOrdj c n, 0x67), (.cellSpawn c n, 0x70), (.cellCpy c n, 0x71), (.cellAcput c n, 0x72)]
        : List (Instr × Nat)), s.CellReady c n e.2 k → (e.2 = 0x58 → k.go = false) → (e.2 = 0x72 → (s.ctx c).putHeld = false) →
        (headsOf ((wQueues k.word).map k.queue) = .misaligned →
          exec e.1 s = .next ((s.updCtx c (fun x => { x with fab := { x.fab with held := true } })).raise c ⟨0x09, BitVec.ofNat 64 n, 1⟩))
        ∧ (headsOf ((wQueues k.word).map k.queue) = .kinds → k.acc = [] →
          exec (.cellMarkerPass c n) s = .next ((s.updCtx c (fun x => { x with fab := { x.fab with held := true } })).raise c ⟨0x09, BitVec.ofNat 64 n, 2⟩)))

/-- R107, R112, R113, R194: a packet in flight on a branch that ends at a queue or port of the running load arrives: the entries of the packet, which at a
port that takes single elements are those of its lane, stand behind what the store held, in order, and the branch no longer carries it; a packet that
finds the load stopped is discarded. R108 to R112, R134: the demand of a consumer travels upstream: a consumer that owes credits sends a message of at
most two; a message that arrives raises the demand of its branch, or is discarded where the producer has closed EOS or the load has ended; the box
that filters lanes demands one packet for each one that delivered nothing. R105, R110, R119, R120, R155: producers close packets under demand. A
cell's packer that is full, or not empty in a cycle in which the cell has not fired for the context, closes a packet of its elements, of out or of
aux, with the TYPE of its word, and stays as it is where the cell fired in the cycle; a held token leaves on aux as a packet of one element; a tile
and a port close theirs. R114, R154, R163 to R165, R168 to R173: a cell whose queues all hold a marker of one kind at their heads passes it, under
demand for each packet that it closes: its packer's data, what its operation emits at a marker, and the marker, and the same without an emission on a
routed aux; st and the index return to their reset values. A reduction emits its st, and resets it to the value of its table; CVT emits a partly
filled element; MKINS absorbs an EOI behind one that it has just inserted; every other operation emits nothing. (A block of ACPUT or an element of CPY
that is not full is not stated here.) The model's own choices or readings in this: log 18, 113, 114 (one step for a link, the bound bit, the cut point
of a stream). -/
def Obligations.PacketsAndDemandTravel : Prop :=
  -- PacketsArriveInOrder
  (
    ∀ (s : State) (c : CtxId) (i j : Nat) (b : Branch) (p : Packet) (rest : List Packet),
      ((s.ctx c).fab.segs[i]?).bind (fun g => g.branches[j]?) = some b → b.fly = p :: rest →
      ((s.ctx c).fab.stopped = true →
        exec (.packetArrive c i j) s = .next (s.updFab c (fun f => f.updBranch i j (fun b => { b with fly := rest }))))
      ∧ ∀ (q : Part) (els : List W32), (s.ctx c).fab.stopped = false → (s.ctx c).cur.st = .running → (∀ sd pos, b.dst ≠ .exit sd pos) →
          (s.ctx c).fab.sink? b.dst = some q → q.eosIn = false → (b.dst = .port 48 ∨ b.dst = .port 53 → p.ty = 0) →
          els = (if b.dst.isX1 = true ∧ p.x1 = false ∧ p.mark = 0 then laneEls b.lane b.skip p.els else p.els) → p.mark = 0 → els ≠ [] →
            ∃ t, exec (.packetArrive c i j) s = .next t ∧ (b.dst ≠ .port 53 → s.OnlyCtx t c) ∧ t.mem = s.mem
              ∧ (t.ctx c).fab.sink? b.dst = some { q with
                  items := q.items ++ (List.range els.length).map (fun a => .el (els.getD a 0) (a + 1 == els.length)), ty := p.ty })
  -- DemandTravelsUpstream
  ∧ (
    (∀ (s : State) (c : CtxId) (n r i j : Nat), ∀ e ∈ ([(.queue n r, .queue n r), (.port n, .port n)] : List (Sink × BrEnd)), ∀ q : Part,
      (s.ctx c).fab.stopped = false → (s.ctx c).fab.sink? e.2 = some q → (s.ctx c).fab.branchTo e.2 = some (i, j) → q.owed ≠ 0 →
        exec (.demandSend c e.1) s = .next (s.updFab c (fun f =>
          (f.updSink e.2 (fun q => { q with owed := q.owed - min 2 q.owed })).demandOn i j (min 2 q.owed))))
    ∧ (∀ (s : State) (c : CtxId) (i j n : Nat) (g : Seg) (b : Branch) (u : Source) (rest : List Nat), (s.ctx c).fab.segs[i]? = some g →
      g.branches[j]? = some b → g.src = .unit u → g.relay = none → b.rev = n :: rest → (∀ sd pos, b.dst ≠ .exit sd pos) →
        ((s.ctx c).fab.stopped = false → (s.ctx c).cur.st = .running → g.eos = false → ∃ t, exec (.demandArrive c i j) s = .next t ∧ s.OnlyCtx t c
          ∧ ((t.ctx c).fab.segs[i]?).bind (fun g => g.branches[j]?) = some { b with rev := rest, cum := b.cum + n })
        ∧ ((s.ctx c).fab.stopped = true ∨ (s.ctx c).cur.st ≠ .running ∨ g.eos = true →
          exec (.demandArrive c i j) s = .next (s.updFab c (fun f => f.updBranch i j (fun b => { b with rev := rest })))))
    ∧ ∀ (s : State) (c : CtxId) (i j : Nat) (b : Branch), ((s.ctx c).fab.segs[i]?).bind (fun g => g.branches[j]?) = some b → b.skipOwed ≠ 0 →
        exec (.laneSkipDemand c i j) s = .next (s.updFab c (fun f =>
          (f.updBranch i j (fun b => { b with skipOwed := b.skipOwed - 1 })).demandOn i j 1)))
  -- ProducersCloseUnderDemand
  ∧ (
    (∀ (s : State) (c : CtxId) (n : Nat) (k : Cell), (s.ctx c).active? = true → (s.ctx c).fab.cell? n = some k → k.pk ≠ [] →
      8 ≤ k.pk.length ∨ s.turns.get? (512 * coreOf c + n) ≠ some (c % 4, s.time) → (s.ctx c).fab.canClose (.out n) 1 = true →
        exec (.packerClose c (.out n)) s = .next (s.updFab c (fun f => (f.setCell n { k with pk := [], lastIns := false }).close (.out n)
          ((s.ctx c).packet k.pk 0 (cellTy k.word) false))))
    ∧ (∀ (s : State) (c : CtxId) (n : Nat) (k : Cell) (v : W32) (rest : List W32), (s.ctx c).active? = true → (s.ctx c).fab.cell? n = some k →
      k.held = v :: rest → (s.ctx c).fab.canClose (.aux n) 1 = true →
        exec (.auxTokenSend c n) s = .next (s.updFab c (fun f => (f.setCell n { k with held := rest }).close (.aux n)
          ((s.ctx c).packet [v] 0 (cellTy k.word) true))))
    ∧ (∀ (s : State) (c : CtxId) (n : Nat) (k : Cell), (s.ctx c).active? = true → (s.ctx c).fab.cell? n = some k → k.apk ≠ [] →
      8 ≤ k.apk.length ∨ s.turns.get? (512 * coreOf c + n) ≠ some (c % 4, s.time) → (s.ctx c).fab.canClose (.aux n) 1 = true →
        exec (.packerClose c (.aux n)) s = .next (s.updFab c (fun f => (f.setCell n { k with apk := [] }).close (.aux n)
          ((s.ctx c).packet k.apk 0 (cellTy k.word) true))))
    ∧ (∀ (s : State) (c : CtxId) (q : Nat) (t : Tile), (s.ctx c).active? = true → q < 16 → (s.ctx c).fab.tiles.get? q = some t → t.pk ≠ [] →
      bits t.ctrl 4 3 = 2 → (s.ctx c).fab.canClose (.port q) 1 = true →
        exec (.packerClose c (.port q)) s = .next (s.updFab c (fun f => (f.setTile q { t with pk := [] }).close (.port q)
          ((s.ctx c).packet t.pk 0 (bits t.ctrl 2 0) false))))
    ∧ (∀ (s : State) (c : CtxId) (q : Nat) (t : Port), (s.ctx c).active? = true → 16 ≤ q → (s.ctx c).fab.port? q = some t →
      (s.ctx c).fab.canClose (.port q) 1 = true →
        (∀ v rest, t.pk = [] → t.toks = v :: rest → exec (.packerClose c (.port q)) s = .next (s.updFab c (fun f =>
          (f.setPort q { t with toks := rest }).close (.port q) ((s.ctx c).packet [v] 0 0 false))))
        ∧ (t.pk ≠ [] → exec (.packerClose c (.port q)) s = .next (s.updFab c (fun f =>
          (f.setPort q { t with pk := [] }).close (.port q) ((s.ctx c).packet t.pk 0 t.pkTy false)))))
    ∧ ∀ (s : State) (c : CtxId) (n : Nat) (k : Cell), (s.ctx c).fab.cell? n = some k → k.pk.length < 8 →
        s.turns.get? (512 * coreOf c + n) = some (c % 4, s.time) → exec (.packerClose c (.out n)) s = .next s)
  -- CellsPassTheirMarker
  ∧ (
    ∀ (s : State) (c : CtxId) (n op kind : Nat) (k : Cell) (w : Nat) (t : ElTy) (sent : List W32) (r : W32) (own : Bool) (outs auxs : List Packet),
      s.CellReady c n op k → k.acc = [] → k.buf = [] → 0 < op → op ≠ 0x72 ∨ (s.ctx c).putHeld = false → op ≠ 0x58 ∨ k.go = false →
      headsOf ((wQueues k.word).map k.queue) = .markers kind → k.pk.length ≤ 8 → k.apk.length ≤ 8 → t = wTy k.word → w = t.width →
      sent = (if (0x48 ≤ op ∧ op ≤ 0x4D) ∨ op = 0x29 ∨ (op = 0x40 ∧ k.idx % (cvtDst k.word).1.count ≠ 0) then [k.st] else []) →
      r = (if op = 0x49 then t.splat (2 ^ (w - 1) - 1) else if op = 0x4A then t.splat (2 ^ (w - 1))
        else if op = 0x4C then t.splat ((t.fmt?.map (fun f => f.inf)).getD 0)
        else if op = 0x4D then t.splat ((t.fmt?.map (fun f => f.inf + f.sign true)).getD 0) else 0) →
      own = (op == 0x58 && kind == 1 && k.lastIns && k.pk.isEmpty) →
      outs = (if own then [] else (if k.pk = [] then [] else [(s.ctx c).packet k.pk 0 (cellTy k.word) false])
        ++ sent.map (fun v => (s.ctx c).packet [v] 0 (cellTy k.word) false) ++ [(s.ctx c).packet [] kind (cellTy k.word) false]) →
      auxs = (if wAux k.word && (s.ctx c).fab.routed (.aux n) then (if k.apk = [] then [] else [(s.ctx c).packet k.apk 0 (cellTy k.word) true])
        ++ [(s.ctx c).packet [] kind (cellTy k.word) true] else []) →
      (s.ctx c).fab.canClose (.out n) outs.length = true → (s.ctx c).fab.canClose (.aux n) auxs.length = true →
        exec (.cellMarkerPass c n) s = .next ((s.serve (512 * coreOf c + n) c).updFab c (fun f => auxs.foldl (fun f p => f.close (.aux n) p)
          (outs.foldl (fun f p => f.close (.out n) p) (f.setCell n { k.popQs (wQueues k.word) 1 with
            pk := [], apk := [], st := r, idx := 0, buf := [], waitBlk := [], lastIns := own, done := k.done || kind == 2 })))))

/-- R126 to R128, R178, R262, R286: a tile starts: its waiting parameters are applied, a start token is consumed where the tile is start-enabled, and its
position is 0. A tile whose nest reads or writes the scratchpad has every address checked, a gather tile its base, a queue tile its bank. R126, R286:
a running read tile takes the element at its position's address into its packer, and closes the packet at the eighth element or at the tile's last; a
gather tile does the same at base + 4 × index and consumes the index; a decoupled tile of either kind takes the oldest element that has come back.
R126, R135, R261, R286, R427: a running write tile stores the element at its input at its position's address, and consumes it; a decoupled one stores
into device memory, or posts a remote store. An element beyond the tile raises STREAM_ALIGN with cause 5, a marker inside the tile with cause 4. R126,
R127, R262: a tile that has delivered or consumed all its elements ends: a read or pop tile closes EOI, or EOS after the last tile of its nest; a
write or push tile consumes the marker; a gather tile passes the marker on behind its packer; the done counter rises by 1 and the tile index advances.
R259, R286, R287: a decoupled read or gather tile whose next address translates to local memory that its tenant may read takes the element that comes
back, through its context's near cache, in loop order, behind the elements that it holds. The model's own choices or readings in this: log 107 (which
tile takes the token of cb0); log 23 (a gather tile ends at the marker it passes on). -/
def Obligations.TilesWalkTheirNest : Prop :=
  -- TilesStartWithTheirParameters
  (
    ∀ (s : State) (c : CtxId) (n : Nat) (t u : Tile) (toks : List (W32 × W32)), (s.ctx c).active? = true → (s.ctx c).fab.tiles.get? n = some t →
      t.running = false → t.done = false → parTokens t.par.items = (toks, false) → (∀ k ∈ toks ++ t.parm, parmOk k.1.toNat k.2.toNat = true) →
      (t.ctrl.getLsbD 11 = true → (s.ctx c).fab.cb.getD (bits t.ctrl 16 12) 0 ≠ 0) → (s.ctx c).fab.arcsOk n t = true →
      u = { (toks ++ t.parm).foldl Tile.apply t with par := t.par.pop t.par.items.length, parm := [], running := true, pos := 0, pages := [] } →
      (agMode t.ctrl < 2 → agDm t.ctrl = false → Ctx.tileFault s c n u = none) →
      (agMode t.ctrl = 2 → agDm t.ctrl = false → u.base % 4 = 0) →
      (agMode t.ctrl = 3 → ∃ b, (s.ctx c).bank? (agTgt t.ctrl) = some b ∧ b.mode = .fifo) →
        ∃ s', exec (.agTileStart c n) s = .next s' ∧ s.OnlyCtx s' c
          ∧ s'.ctx c = { s.ctx c with fab := { (s.ctx c).fab.setTile n u with
              cb := if t.ctrl.getLsbD 11 then modAt (· - 1) (s.ctx c).fab.cb (bits t.ctrl 16 12) else (s.ctx c).fab.cb } })
  -- ReadAndGatherTilesEmit
  ∧ (
    (∀ (s : State) (c : CtxId) (n : Nat) (t t' : Tile) (v : W32), s.TileRuns c n 0 t → t.pos < t.count →
      (agDm t.ctrl = false ∧ t' = { t with pos := t.pos + 1 } ∧ (∃ a : Nat, (a : Int) = t.addr t.pos ∧ a < 2 ^ 56 ∧ s.SpadOk c a 4
          ∧ (s.ctx c).zeroing a 4 = false ∧ v = s.spad32 c a))
        ∨ (agDm t.ctrl = true ∧ ∃ va rest, t.dm = (va, some v) :: rest ∧ t' = { t with dm := rest, pos := t.pos + 1 }) →
      (t.pk.length + 1 < 8 → t.pos + 1 ≠ t.count →
        exec (.agReadEmit c n) s = .next (s.updFab c (fun f => f.setTile n { t' with pk := t.pk ++ [v] })))
      ∧ (7 ≤ t.pk.length ∨ t.pos + 1 = t.count → (s.ctx c).fab.canClose (.port n) 1 = true → exec (.agReadEmit c n) s
          = .next (s.updFab c (fun f => (f.setTile n { t' with pk := [] }).close (.port n)
              ((s.ctx c).packet (t.pk ++ [v]) 0 (bits t.ctrl 2 0) false)))))
    ∧ ∀ (s : State) (c : CtxId) (n : Nat) (t t' : Tile) (v : W32), s.TileRuns c n 2 t →
        (agDm t.ctrl = false ∧ ∃ (w : W32) (l : Bool) (rest : List QItem) (a : W64), t.inp.items = .el w l :: rest
            ∧ a = BitVec.ofInt 64 (t.base + 4 * w.toInt) ∧ s.SpadOk c a.toNat 4 ∧ (s.ctx c).zeroing a.toNat 4 = false ∧ v = s.spad32 c a.toNat
            ∧ t' = { t with inp := t.inp.pop 1, pos := t.pos + 1 })
          ∨ (agDm t.ctrl = true ∧ ∃ va rest, t.dm = (va, some v) :: rest ∧ t' = { t with dm := rest, pos := t.pos + 1 }) →
        (t.pk.length + 1 < 8 → exec (.agGather c n) s = .next (s.updFab c (fun f => f.setTile n { t' with pk := t.pk ++ [v] })))
        ∧ (7 ≤ t.pk.length → (s.ctx c).fab.canClose (.port n) 1 = true → exec (.agGather c n) s
            = .next (s.updFab c (fun f => (f.setTile n { t' with pk := [] }).close (.port n)
                ((s.ctx c).packet (t.pk ++ [v]) 0 (bits t.ctrl 2 0) false)))))
  -- WriteTilesStoreTheirElements
  ∧ (
    ∀ (s : State) (c : CtxId) (n a : Nat) (t : Tile), s.TileRuns c n 1 t →
      (∀ v l rest, t.inp.items = .el v l :: rest → t.pos < t.count → (a : Int) = t.addr t.pos →
        (agDm t.ctrl = false → s.spadFault c (BitVec.ofNat 64 a) 4 4 (0x100 + n) = none → (s.ctx c).zeroing a 4 = false →
          exec (.agWriteConsume c n) s = .next ((s.spadWrite c a (toBytes 4 v.toNat)).updFab c (fun f =>
            f.setTile n { t with inp := t.inp.pop 1, pos := t.pos + 1 })))
        ∧ (agDm t.ctrl = true → t.base % 4 = 0 → t.pages = [] →
          (∀ pa, s.UnitOk c a 4 ⟨false, true⟩ pa → pa % 4 = 0 → s.mem.wf = true →
            ∃ s' pg, exec (.agWriteConsume c n) s = .next s' ∧ s.DevWritten s' pa (toBytes 4 v.toNat)
              ∧ (s'.ctx c).fab = (s.ctx c).fab.setTile n { t with inp := t.inp.pop 1, pos := t.pos + 1, pages := pg })
          ∧ ∀ pa, s.Cached c a ⟨false, true⟩ pa → s.isLocal pa = false →
            ∃ s' pg, exec (.agWriteConsume c n) s = .next s' ∧ s'.rstores = s.rstores ++ [{ ctx := c, lid := (s.ctx c).lease, pa := pa, sent := s.time }]
              ∧ (s'.ctx c).rso = (s.ctx c).rso + 1 ∧ s'.mem = s.mem
              ∧ (s'.ctx c).fab = (s.ctx c).fab.setTile n { t with inp := t.inp.pop 1, pos := t.pos + 1, pages := pg }))
      ∧ (∀ v l rest, t.inp.items = .el v l :: rest → t.count ≤ t.pos →
        exec (.agWriteConsume c n) s = .next (s.fabFault c ⟨0x09, BitVec.ofNat 64 (0x100 + n), 5⟩))
      ∧ ∀ k rest, t.inp.items = .marker k :: rest → t.pos < t.count →
        exec (.agWriteConsume c n) s = .next (s.fabFault c ⟨0x09, BitVec.ofNat 64 (0x100 + n), 4⟩))
  -- TilesEndWithTheirMarker
  ∧ (
    ∀ (s : State) (c : CtxId) (n mode : Nat) (t : Tile), s.TileRuns c n mode t → (s.ctx c).fab.cb.getD (bits t.ctrl 21 17) 0 < 15 →
      (mode = 0 ∨ mode = 3 ∧ (s.ctx c).pushes n = false → t.count ≤ t.pos → t.pk = [] → t.dm = [] → (s.ctx c).fab.canClose (.port n) 1 = true →
        ∃ s', exec (.agTileEnd c n) s = .next s' ∧ s.OnlyCtx s' c ∧ (s'.ctx c).fab = { ((s.ctx c).fab.close (.port n)
            ((s.ctx c).packet [] (if t.i3 + 1 ≥ t.e 3 then 2 else 1) (bits t.ctrl 2 0) false)).setTile n
              { t with running := false, i3 := t.i3 + 1, pos := 0, done := t.last } with
            cb := modAt (· + 1) (s.ctx c).fab.cb (bits t.ctrl 21 17) })
      ∧ (mode = 1 ∨ mode = 3 ∧ (s.ctx c).pushes n = true → t.count ≤ t.pos → t.inp.marker? = some (if t.i3 + 1 ≥ t.e 3 then 2 else 1) →
        ∃ s', exec (.agTileEnd c n) s = .next s' ∧ s.OnlyCtx s' c ∧ (s'.ctx c).fab = { (s.ctx c).fab.setTile n
              { t with inp := t.inp.pop 1, running := false, i3 := t.i3 + 1, pos := 0, done := t.last } with
            cb := modAt (· + 1) (s.ctx c).fab.cb (bits t.ctrl 21 17) })
      ∧ ∀ k, mode = 2 → t.inp.marker? = some k → t.pk = [] → t.dm = [] → (s.ctx c).fab.canClose (.port n) 1 = true →
        ∃ s', exec (.agTileEnd c n) s = .next s' ∧ s.OnlyCtx s' c ∧ (s'.ctx c).fab = { ((s.ctx c).fab.close (.port n)
            ((s.ctx c).packet [] k (bits t.ctrl 2 0) false)).setTile n
              { t with inp := t.inp.pop 1, pk := [], running := false, i3 := t.i3 + 1, pos := 0, done := k == 2 } with
            cb := modAt (· + 1) (s.ctx c).fab.cb (bits t.ctrl 21 17) })
  -- DecoupledReadsReturnInOrder
  ∧ (
    ∀ (s : State) (c : CtxId) (n pa va : Nat) (t t' : Tile), (s.ctx c).active? = true → (s.ctx c).fab.tiles.get? n = some t → t.running = true →
      agDm t.ctrl = true → t.dm.length < 512 → t.base % 4 = 0 → t.pages = [] →
      (agMode t.ctrl = 0 ∧ t.pos + t.dm.length < t.count ∧ (va : Int) = t.addr (t.pos + t.dm.length) ∧ t' = t)
        ∨ (agMode t.ctrl = 2 ∧ ∃ v l rest, t.inp.items = .el v l :: rest ∧ (va : Int) = t.base + 4 * v.toInt ∧ t' = { t with inp := t.inp.pop 1 }) →
      s.UnitOk c va 4 ⟨true, false⟩ pa → (s.ctx c).nearWaits pa = false →
        ∃ s' pg, exec (.dmReadReturn c n) s = .next s' ∧ s'.mem = s.mem
          ∧ (s'.ctx c).fab = (s.ctx c).fab.setTile n { t' with dm := t.dm ++ [(va, some (w32 (s.nearVal c pa 4)))], pages := pg })

/-- R262, R263: a push tile's element goes to the tail of the bank part while the ring is empty and the part has room, else into the spill block; a pop
tile takes the head of the bank part. R263, R264, R298: the spill path writes its block, when it is full, when a refill wants it or when the pushing
tiles are done, at its place in the ring, at the address that its translation gives; a refill takes the elements at the ring's head, where no other
agent has written them, into the bank part and advances the head. (How such a write is noticed, and where, is the model's choice: log 12.) R256, R258,
R298, R299: BANK.MODE sets the bank's mode, starts its zeroing and gives the old mode; to FIFO mode it sets the ring, every page of which is readable,
writable and of the tenant. A zeroing ends; RING.HEAD and RING.TAIL read the queue's counts, or raise DET_ORDER in a deterministic lease; RING.RESET
empties a queue that no tile of the running load uses, and gives its number of elements. R427: a posted remote store that is acknowledged is no longer
outstanding; one that is not acknowledged for 1,048,576 cycles is lost, which writes event 11. The model's own choices or readings in this: log 28,
128 (what BANK.MODE waits for, and the trap of a RING index with high bits). -/
def Obligations.ChannelQueuesAndBanks : Prop :=
  -- ChannelQueuesAreFirstInFirstOut
  (
    ∀ (s : State) (c : CtxId) (n : Nat) (t : Tile) (b : BudBank) (v : W32), s.TileRuns c n 3 t → (s.ctx c).bank? (agTgt t.ctrl) = some b →
      b.mode = .fifo → b.zeroing = false → t.pos < t.count →
      ((s.ctx c).pushes n = true → ∀ l rest, t.inp.items = .el v l :: rest → b.q.t = b.q.h → b.q.part.length < 32768 →
        exec (.queuePush c n) s = .next ((s.updBank c (agTgt t.ctrl) (fun b' => { b' with q := { b.q with part := b.q.part ++ [v] } })).updFab c (fun f =>
          f.setTile n { t with inp := t.inp.pop 1, pos := t.pos + 1 })))
      ∧ ((s.ctx c).pushes n = true → ∀ l rest, t.inp.items = .el v l :: rest → b.q.t ≠ b.q.h ∨ 32768 ≤ b.q.part.length → b.q.t - b.q.h < b.q.rs →
        b.q.t % 64 ≠ 0 ∨ b.q.held = [] →
        ∃ s' a, exec (.queuePush c n) s = .next s' ∧ ((s'.ctx c).bank? (agTgt t.ctrl)).map (·.q) = some { b.q with held := b.q.held ++ [(v, a)], t := b.q.t + 4 }
          ∧ (s'.ctx c).fab = (s.ctx c).fab.setTile n { t with inp := t.inp.pop 1, pos := t.pos + 1 } ∧ s'.mem = s.mem ∧ ∀ d, d ≠ c → s'.ctx d = s.ctx d)
      ∧ ((s.ctx c).pushes n = false → ∀ rest, b.q.part = v :: rest → ∀ f : Fab,
        (t.pk.length + 1 < 8 ∧ t.pos + 1 ≠ t.count ∧ f = (s.ctx c).fab.setTile n { t with pos := t.pos + 1, pk := t.pk ++ [v] })
          ∨ ((7 ≤ t.pk.length ∨ t.pos + 1 = t.count) ∧ (s.ctx c).fab.canClose (.port n) 1 = true
              ∧ f = ((s.ctx c).fab.setTile n { t with pos := t.pos + 1, pk := [] }).close (.port n)
                  ((s.ctx c).packet (t.pk ++ [v]) 0 (bits t.ctrl 2 0) false)) →
        ∃ s', exec (.queuePop c n) s = .next s' ∧ ((s'.ctx c).bank? (agTgt t.ctrl)).map (·.q.part) = some rest ∧ (s'.ctx c).fab = f ∧ s'.mem = s.mem))
  -- SpillsAndRefillsMoveTheRing
  ∧ (
    (∀ (s : State) (c : CtxId) (k va pa : Nat) (b : BudBank), (s.ctx c).bank? k = some b → (s.ctx c).cur.st = .running → (s.ctx c).fab.held = false →
      b.mode = .fifo → b.q.held ≠ [] → b.q.t % 64 = 0 ∨ b.q.wantsHeld = true ∨ (s.ctx c).pushesDone k = true →
      va = b.q.rb + (b.q.t - 4 * b.q.held.length) % max 1 b.q.rs → s.UnitOk c va (4 * b.q.held.length) ⟨false, true⟩ pa →
        pa % 4 = 0 → s.mem.wf = true →
          ∃ s', exec (.spillWrite c k) s = .next s' ∧ s.DevWritten s' pa ((b.q.held.map (fun e => toBytes 4 e.1.toNat)).flatten)
            ∧ ∃ new : List (W32 × Option Nat), new.map (·.1) = b.q.held.map (·.1)
              ∧ ((s'.ctx c).bank? k).map (·.q) = some { b.q with held := [], ring := b.q.ring ++ new })
    ∧ ∀ (s : State) (c : CtxId) (k m : Nat) (pa : Nat → Nat) (els : List W32) (b : BudBank), (s.ctx c).bank? k = some b → (s.ctx c).cur.st = .running →
        (s.ctx c).fab.stopped = false → (s.ctx c).fab.held = false → (s.ctx c).fab.owns k = true → b.mode = .fifo → b.q.h < b.q.t →
        b.q.part.length + 16 ≤ 32768 → b.q.held = [] → m = min 16 ((b.q.t - b.q.h) / 4) → b.q.h + 4 * m ≤ b.q.t → b.q.lost ≤ b.q.h →
        els = (List.range m).map (fun i => w32 (s.devBytes (pa i) 4)) → (b.q.ring.take m).map (·.1) = els →
        (∀ e ∈ b.q.ring.take m, s.ringHit e = false) →
        (∀ i, i < m → s.UnitOk c (b.q.rb + (b.q.h + 4 * i) % max 1 b.q.rs) 4 ⟨true, false⟩ (pa i)) →
          ∃ t, exec (.ringRefill c k) s = .next t ∧ t.mem = s.mem ∧ ((t.ctx c).bank? k).map (·.q) = some { b.q with
            part := b.q.part ++ els, h := b.q.h + 4 * m, ring := b.q.ring.drop m })
  -- BankModesAndRings
  ∧ (
    (∀ (s : State) (g : Guard) (d a : BitVec 5) (z : BitVec 4) (m : BitVec 2) (k : BitVec 5) (b : BudBank) (rb rs : Nat), s.self.guard g = true →
      s.self.pends d = false → s.self.bank? k.toNat = some b → rb = (s.self.reg a).toNat → rs = 2 ^ (16 + z.toNat) →
      (m = 2 → rb % 2 ^ 16 = 0 ∧ rb + rs ≤ 2 ^ 56 ∧ ∀ i va, i < (rb % 2 ^ 17 + rs + 2 ^ 17 - 1) / 2 ^ 17 → va = max rb ((rb / 2 ^ 17 + i) * 2 ^ 17) →
        ∃ pa, s.Cached s.cur va ⟨true, true⟩ pa ∧ s.isLocal pa = true ∧ s.wallFault s.self.ten.toNat (some (dieOf (coreOf s.cur))) va pa = none) →
      s.modeRefused s.cur k.toNat = false → s.bankBusy s.cur k.toNat = false →
        ∃ t, exec (.bankMode g d a z m k) s = .next t ∧ (d ≠ 0 → t.self.reg d = BitVec.ofNat 64 b.mode.code) ∧ t.self.ipc = s.self.ipc + 4
          ∧ (t.self.bank? k.toNat).map (·.mode) = some (BankMode.ofCode m.toNat) ∧ (t.self.bank? k.toNat).map (·.zeroing) = some true
          ∧ (m = 2 → (t.self.bank? k.toNat).map (fun b => (b.q.rb, b.q.rs, b.q.h, b.q.t, b.q.part)) = some (rb, rs, 0, 0, []))
          ∧ (∀ p, b.bank * 2 ^ 17 ≤ p → p < (b.bank + 1) * 2 ^ 17 → (t.core (coreOf s.cur)).sram.get p = 0) ∧ t.mem = s.mem)
    ∧ (∀ (s : State) (core bank : Nat), ∃ t, exec (.bankZeroDone core bank) s = .next t
        ∧ (∀ i, i < 4 → ∀ b ∈ (t.ctx (4 * core + i)).banks, b.bank = bank → b.zeroing = false) ∧ t.cores = s.cores ∧ t.mem = s.mem)
    ∧ ∀ (s : State) (g : Guard) (d a : BitVec 5) (b : BudBank), s.self.guard g = true → s.self.pends d = false →
        s.self.bank? (s.self.reg a).toNat = some b → b.mode = .fifo →
        (s.self.det = false → exec (.ringHead g d a) s = .next (s.withSelf (s.self.setReg d (BitVec.ofNat 64 b.q.h)).advance)
          ∧ exec (.ringTail g d a) s = .next (s.withSelf (s.self.setReg d (BitVec.ofNat 64 b.q.t)).advance))
        ∧ (s.self.det = true → exec (.ringHead g d a) s = .next (s.raise s.cur (detOrder (.ringHead g d a)))
          ∧ exec (.ringTail g d a) s = .next (s.raise s.cur (detOrder (.ringTail g d a))))
        ∧ (s.self.cur.st ≠ .running ∨ (∀ e ∈ s.self.fab.tiles, agMode e.2.ctrl = 3 → agTgt e.2.ctrl ≠ (s.self.reg a).toNat) → ∃ t, exec (.ringReset g d a) s = .next t
            ∧ (d ≠ 0 → t.self.reg d = BitVec.ofNat 64 (b.q.part.length + (b.q.t - b.q.h) / 4)) ∧ t.self.ipc = s.self.ipc + 4
            ∧ (t.self.bank? (s.self.reg a).toNat).map (·.q) = some { b.q with part := [], held := [], h := 0, t := 0, ring := [], lost := 0 } ∧ t.mem = s.mem))
  -- RemoteStoresEnd
  ∧ (
    ∀ (s : State) (i : Nat) (r : RStore), s.rstores[i]? = some r → (s.ctx r.ctx).lease = r.lid →
      (∃ t, exec (.remoteStoreAck i) s = .next t ∧ t.rstores = s.rstores.eraseIdx i ∧ (t.ctx r.ctx).rso = (s.ctx r.ctx).rso - 1 ∧ t.mem = s.mem)
      ∧ (r.sent + 1048576 ≤ s.time → exec (.remoteStoreLost i) s = .next
          ({ s.updCtx r.ctx (fun x => { x with rso := x.rso - 1 }) with rstores := s.rstores.eraseIdx i }.event 11 (s.ctx r.ctx).ten.toNat r.lid 0 0
            (coreOf r.ctx) (r.ctx % 4) (BitVec.ofNat 64 r.pa))))

/-- R190, R288: CFG.LD and CFG.PRE of an image, in the scratchpad or in device memory, that passes every check: the core's section goes into the next
slot, which is LOADING; CFG.PRE writes the id and counts in CNT.TL, CFG.LD waits; once the stores are written the slot is READY, a waiting CFG.LD
retires with the id, and CNT.TL falls. R131 to R133, R187, R191: CFG.GO of a READY slot with no collective pending makes its id pending and waits.
Once every context of the lease has arrived and the collective's count has passed, the load starts on every core in one step: each context's slot is
RUNNING with the units of its section, and each waiting CFG.GO retires, unless the load faults as it starts. R133, R203: LEASE.BAR waits with its id
pending; when the whole lease has arrived and the count has passed, every waiting context is READY at its next word. A context that stops or is
destroyed breaks its lease; in a broken lease the pending ids are cleared and the waiting collectives raise GO_MISMATCH. The model's own choices or
readings in this: log 27, 106 (the image is read in the step that checks it); log 24, 25, 102 (a context without a lease, a broken lease at CFG.GO, a
start in a handler). -/
def Obligations.LoadsStartAsCollectives : Prop :=
  -- ImagesLoadIntoTheNextSlot
  (
    (∀ (s : State) (g : Guard) (d a : BitVec 5) (imm : BitVec 11) (m : Img) (ea : W64), s.self.guard g = true → s.self.pends d = false →
      s.self.cntSt = 0 → s.self.nxt.st ≠ .loading → ea = s.self.reg a + 64 * imm.signExtend 64 →
      (ea.getLsbD 63 = false ∧ s.SpadImage s.cur ea m) ∨ (ea.getLsbD 63 = true ∧ bits ea 62 56 = 0 ∧ ∃ pa, s.DevImage s.cur (bits ea 55 0) pa m) →
        (∃ t, exec (.cfgLd g d a imm) s = .next t ∧ t.self.nxt = slotOfImg m s.self ∧ t.self.nxt.st = .loading ∧ t.self.st = .waiting
          ∧ t.self.wait = some (.cfgLd d (BitVec.ofNat 64 (imgHeader m).id)) ∧ t.self.ipc = s.self.ipc ∧ t.self.cur = s.self.cur ∧ s.SameElsewhere t)
        ∧ (s.self.cntTl < 31 → ∃ t, exec (.cfgPre g d a imm) s = .next t ∧ t.self.nxt = slotOfImg m s.self
          ∧ (d ≠ 0 → t.self.reg d = BitVec.ofNat 64 (imgHeader m).id) ∧ t.self.cntTl = s.self.cntTl + 1 ∧ t.self.ipc = s.self.ipc + 4
          ∧ t.self.cur = s.self.cur ∧ s.SameElsewhere t))
    ∧ (∀ (s : State) (c : CtxId) (d : BitVec 5) (v : W64), (s.ctx c).nxt.st = .loading → (s.ctx c).preLoading = false →
      (s.ctx c).gated = false → (s.ctx c).wait = some (.cfgLd d v) →
        ∃ t, exec (.cfgLdComplete c) s = .next t ∧ s.OnlyCtx t c ∧ (t.ctx c).nxt = { (s.ctx c).nxt with st := .ready } ∧ (t.ctx c).st = .ready
          ∧ (t.ctx c).wait = none ∧ (d ≠ 0 → (t.ctx c).reg d = v) ∧ (t.ctx c).ipc = (s.ctx c).ipc + 4)
    ∧ ∀ (s : State) (c : CtxId) (o : TlOp) (rest : List TlOp), (s.ctx c).nxt.st = .loading → (s.ctx c).tlq = o :: rest → o.pre = true → o.done = false →
        (∀ q ∈ rest, q.done = false) →
          ∃ t, exec (.cfgPreComplete c) s = .next t ∧ s.OnlyCtx t c ∧ (t.ctx c).nxt = { (s.ctx c).nxt with st := .ready } ∧ (t.ctx c).tlq = rest)
  -- LoadsStartTogether
  ∧ (
    (∀ (s : State) (g : Guard) (d : BitVec 5) (id : BitVec 16) (sl : Slot) (e : Arr), s.self.guard g = true → s.self.cur.st ≠ .running →
      (s.self.nxt.st = .loading → s.self.nxt.id ≠ id.toNat) → s.self.cntLd = 0 → s.self.cntSt = 0 → (s.leaseFor s.cur).broken = none →
      (sl = s.self.nxt ∨ s.self.nxt.id ≠ id.toNat ∧ sl = s.self.cur) → (sl.st = .ready ∨ sl.st = .ended) → sl.id = id.toNat →
      e = ⟨s.cur, id.toNat, sl.crc, bits (s.self.reg d) 31 0⟩ →
        ((s.leaseFor s.cur).go = none →
          ∃ t, exec (.cfgGo g d id) s = .next t ∧ t.self = { s.self with st := .waiting, wait := some (.cfgGo d id.toNat) }
            ∧ t.leases.get? (s.lidOf s.cur) = some { s.leaseFor s.cur with
                go := some { id := id.toNat, crc := sl.crc, arrived := [e], t0 := s.time, made := s.time, tied := [] } }
            ∧ ∀ c, c ≠ s.cur → t.ctx c = s.ctx c)
        ∧ ∀ k, (s.leaseFor s.cur).go = some k → k.id = id.toNat → k.crc = sl.crc → (∀ q ∈ k.arrived ++ k.tied, q.ctx ≠ s.cur) →
          ∃ t, exec (.cfgGo g d id) s = .next t ∧ t.self = { s.self with st := .waiting, wait := some (.cfgGo d id.toNat) }
            ∧ t.leases.get? (s.lidOf s.cur) = some { s.leaseFor s.cur with go := some { k with arrived := k.arrived ++ [e], t0 := s.time } }
            ∧ ∀ c, c ≠ s.cur → t.ctx c = s.ctx c)
    ∧ ∀ (s : State) (lid : Nat) (l : Lease) (k : Coll), s.leaseAt lid = some l → l.go = some k → l.broken = none →
        (∀ c ∈ l.ctxs, (∃ e ∈ k.arrived, e.ctx = c) ∧ (s.ctx c).gated = false) → k.t0 + l.span ≤ s.time → l.frozen = none → l.ctxs.Nodup →
        (∀ c ∈ l.ctxs, ∃ d, (s.ctx c).wait = some (.cfgGo d k.id)) →
          ∃ t, exec (.loadStart lid) s = .next t
            ∧ (∀ c ∈ l.ctxs, ∀ nx sl, (s.ctx c).goSlot k.id = some (nx, sl) →
                (t.ctx c).cur = { sl with st := .running, endSt := 0 } ∧ (t.ctx c).fab.start = s.time ∧ (t.ctx c).g = (s.ctx c).g
                ∧ ((t.ctx c).fab.held = false → (t.ctx c).st = .ready ∧ (t.ctx c).wait = none ∧ (t.ctx c).ipc = (s.ctx c).ipc + 4)
                ∧ (sl.bad = [] → (fabOf (sectImg sl.sect) (seamSide (coreOf c)) s.time).tiles = [] → (t.ctx c).fab.held = false))
            ∧ ((∀ c ∈ l.ctxs, (t.ctx c).fab.held = false) → (∀ c, c ∉ l.ctxs → t.ctx c = s.ctx c) ∧ t.mem = s.mem
                ∧ ∀ n, t.core n = { s.core n with ceCmds := (t.core n).ceCmds }))
  -- LeaseBarriersReleaseTogether
  ∧ (
    (∀ (s : State) (g : Guard) (id : BitVec 16), s.self.guard g = true → s.self.cntLd = 0 → s.self.cntSt = 0 → (s.leaseFor s.cur).broken = none →
      (s.leaseFor s.cur).bar = none →
        ∃ t, exec (.leaseBar g id) s = .next t ∧ t.self = { s.self with st := .waiting, wait := some (.leaseBar id.toNat) }
          ∧ (t.leases.get? (s.lidOf s.cur)).bind (·.bar) = some { id := id.toNat, crc := 0, arrived := [⟨s.cur, id.toNat, 0, 0⟩], t0 := s.time, made := s.time, tied := [] })
    ∧ (∀ (s : State) (g : Guard) (id : BitVec 16) (k : Coll), s.self.guard g = true → s.self.cntLd = 0 → s.self.cntSt = 0 →
      (s.leaseFor s.cur).broken = none → (s.leaseFor s.cur).bar = some k → k.id = id.toNat → k.crc = 0 → (∀ q ∈ k.arrived ++ k.tied, q.ctx ≠ s.cur) →
        ∃ t, exec (.leaseBar g id) s = .next t ∧ t.self = { s.self with st := .waiting, wait := some (.leaseBar id.toNat) }
          ∧ (t.leases.get? (s.lidOf s.cur)).bind (·.bar) = some { k with arrived := k.arrived ++ [⟨s.cur, id.toNat, 0, 0⟩], t0 := s.time })
    ∧ (∀ (s : State) (lid : Nat) (l : Lease) (k : Coll), s.leaseAt lid = some l → l.bar = some k → l.broken = none →
      (∀ c ∈ l.ctxs, (∃ e ∈ k.arrived, e.ctx = c) ∧ (s.ctx c).gated = false) → k.t0 + l.span ≤ s.time → l.frozen = none → l.ctxs.Nodup →
        ∃ t, exec (.leaseBarRelease lid) s = .next t ∧ (t.leases.get? lid).map (·.bar) = some none
          ∧ ∀ c ∈ l.ctxs, ∀ n, (s.ctx c).wait = some (.leaseBar n) →
              t.ctx c = { s.ctx c with st := .ready, wait := none, wake := s.time + 1, ipc := (s.ctx c).ipc + 4 })
    ∧ (∀ (s : State) (lid : Nat) (l : Lease) (c : CtxId), s.leases.get? lid = some l → c ∈ l.ctxs → ((s.ctx c).st = .stopped ∨ (s.ctx c).st = .empty) → l.broken = none →
      l.started = true → l.saved = [] → ∃ t, exec (.leaseBreak lid) s = .next t ∧ ((t.leases.get? lid).bind (·.broken)).isSome = true
        ∧ t.ctxs = s.ctxs ∧ t.mem = s.mem)
    ∧ ∀ (s : State) (lid b e : Nat) (l : Lease), s.leases.get? lid = some l → l.broken = some (b, e) →
        exec (.collectiveAbandon lid) s = .next (l.ctxs.foldl (fun s c => match (s.ctx c).wait with
          | some (.cfgGo _ id) => if (s.ctx c).raised.isEmpty then s.raise c ⟨0x0A, BitVec.ofNat 64 (0x20000 + id), BitVec.ofNat 16 b⟩ else s
          | some (.leaseBar id) => if (s.ctx c).raised.isEmpty then s.raise c ⟨0x0A, BitVec.ofNat 64 (0x30000 + id), BitVec.ofNat 16 b⟩ else s
          | _ => s) { s with leases := s.leases.set lid { l with go := none, bar := none } }))

/-- R134, R192 to R194: a load that meets its end condition ends with status 1; a stopped load ends with the status of its stop once nothing is
outstanding; an expired quantum stops, and so does a stop whose cycle has come. CFG.WAIT reads the status of a load that is not running, and waits for
one that is; CFG.STOP sets the stop for the whole lease after the span of R131; CFG.DROP empties a slot; CFG.STAT reads the slots' word, or raises
DET_ORDER in a deterministic lease (R443). R136, R390: a running load that meets a double-bit error of its configuration store is held, and the
context takes ECC_UNCORR with the unit's number. The model's own choices or readings in this: log 19, 103, 104 (the span across a seam, END of a slot
started again or dropped). -/
def Obligations.LoadsEndAndStop : Prop :=
  -- LoadsEndAndStop
  (
    (∀ (s : State) (c : CtxId), (s.ctx c).cur.st = .running →
      ((s.ctx c).fab.stopped = false → (s.ctx c).fab.held = false → (s.ctx c).loadDone = true → ∃ t, exec (.loadEnd c) s = .next t
        ∧ (∀ e, e ≠ c → t.ctx e = s.ctx e) ∧ t.mem = s.mem ∧ (t.ctx c).cur = { (s.ctx c).cur with st := .ended, endSt := 1 } ∧ (t.ctx c).g = (s.ctx c).g)
      ∧ ((s.ctx c).fab.stopped = true → (s.ctx c).quiet = true → (s.ctx c).mn.cmds = [] → ∀ e st, (s.ctx c).fab.stopAt = some (e, st) →
        ∃ t, exec (.loadEnd c) s = .next t ∧ (∀ e, e ≠ c → t.ctx e = s.ctx e) ∧ t.mem = s.mem
          ∧ (t.ctx c).cur = { (s.ctx c).cur with st := .ended, endSt := st }))
    ∧ (∀ (s : State) (lid : Nat) (l : Lease), s.leaseAt lid = some l → l.ctxs.Nodup → l.frozen = none →
      (∀ c ∈ l.ctxs, (s.ctx c).cur.st = .running ∧ (s.ctx c).fab.start = l.start ∧ (s.ctx c).fab.stopped = false) →
        (l.quantum ≠ 0 → l.start + l.quantum + l.slip ≤ s.time + 1 → ∃ t, exec (.quantumExpire lid) s = .next t
          ∧ ∀ c ∈ l.ctxs, ((s.ctx c).loadDone = false ∨ (s.ctx c).fab.held = true → (t.ctx c).fab.stopped = true ∧ (t.ctx c).fab.stopAt = some (s.time, 3))
            ∧ ((s.ctx c).loadDone = true → (s.ctx c).fab.held = false → (t.ctx c).cur = { (s.ctx c).cur with st := .ended, endSt := 1 }))
        ∧ (∀ e, l.stopAt = some e → e ≤ s.time → ∃ t, exec (.loadStop lid) s = .next t
          ∧ ∀ c ∈ l.ctxs, ((s.ctx c).loadDone = false ∨ (s.ctx c).fab.held = true → (t.ctx c).fab.stopped = true ∧ (t.ctx c).fab.stopAt = some (s.time, 2))
            ∧ ((s.ctx c).loadDone = true → (s.ctx c).fab.held = false → (t.ctx c).cur = { (s.ctx c).cur with st := .ended, endSt := 1 })))
    ∧ ∀ (s : State) (g : Guard) (d : BitVec 5), s.self.guard g = true →
        (s.self.pends d = false → s.self.cur.st ≠ .running →
          exec (.cfgWait g d) s = .next (s.withSelf (s.self.setReg d (BitVec.ofNat 64 s.self.cur.endSt)).advance))
        ∧ (s.self.pends d = false → s.self.cur.st = .running →
          exec (.cfgWait g d) s = .next (s.withSelf { s.self with st := .waiting, wait := some (.cfgWait d) }))
        ∧ (∃ t, exec (.cfgStop g) s = .next t ∧ t.self = { s.self with missed := [], miss := false, ipc := s.self.ipc + 4 }
            ∧ (s.self.ran = true → (s.leaseFor s.cur).stopAt = none →
                (∃ c ∈ (s.leaseFor s.cur).ctxs, (s.ctx c).cur.st = .running ∧ (s.ctx c).fab.start = (s.leaseFor s.cur).start ∧ (s.ctx c).fab.stopped = false) →
                  (t.leases.get? (s.lidOf s.cur)).bind (·.stopAt) = some (s.time + (s.leaseFor s.cur).span))
            ∧ (s.self.ran = false ∨ (s.leaseFor s.cur).stopAt ≠ none ∨ (∀ c ∈ (s.leaseFor s.cur).ctxs, (s.ctx c).cur.st ≠ .running) → t.leases = s.leases))
        ∧ (s.self.nxt.st ≠ .running → s.self.nxt.st ≠ .loading →
            exec (.cfgDrop g 0) s = .next (s.withSelf { s.self with nxt := Slot.blank, ipc := s.self.ipc + 4 }))
        ∧ (s.self.cur.st ≠ .running → s.self.cur.st ≠ .loading → exec (.cfgDrop g 1) s
            = .next (s.withSelf { s.self with cur := Slot.blank, missed := [], miss := false, ipc := s.self.ipc + 4 }))
        ∧ (s.self.pends d = false → s.self.det = false → exec (.cfgStat g d) s = .next (s.withSelf (s.self.setReg d (BitVec.ofNat 64
            ((if s.self.cur.st = .empty then 0 else s.self.cur.id) * 2 ^ 48 + (if s.self.nxt.st = .empty then 0 else s.self.nxt.id) * 2 ^ 32
              + (if s.self.miss then 2 ^ 11 else 0) + s.self.cur.endSt * 2 ^ 8 + s.self.nxt.st.code * 16 + s.self.cur.st.code))).advance))
        ∧ (s.self.pends d = false → s.self.det = true → exec (.cfgStat g d) s = .next (s.raise s.cur (detOrder (.cfgStat g d)))))
  -- ConfigurationErrorsHoldTheLoad
  ∧ (
    ∀ (s : State) (c : CtxId) (u : Nat), (s.ctx c).cur.st = .running → (s.ctx c).fab.stopped = false → confUnit u = true →
      exec (.configStoreEcc c u) s = .next ((s.setCtx c { s.ctx c with
        cur := { (s.ctx c).cur with bad := u :: (s.ctx c).cur.bad }, fab := { (s.ctx c).fab with held := true } }).raise c ⟨0x05, BitVec.ofNat 64 u, 0x100⟩))

/-- R197 to R199: a valid SHAPE.REQ that finds a free run of column groups, with no older request waiting, is granted: g[d] and SHAPE hold the word with
the groups and bit 31, and the matrix node's state is blank; with F = 1 a request without a run gets 0; with F = 0 it waits, and the oldest waiting
request is granted when a run is free. SHAPE.REL frees a grant whose node holds no command, waits while it holds one, and without a grant does
nothing. R128, R200 to R202: PARM.WR gives a token to a tile of the running load, or writes the field of the record in a READY next slot; SQ.SEND and
SQ.SEND.X2 place one or two elements in seq.out's packer, which closes at eight elements, before another type and after a pause; the markers close it
and a marker behind it; SQ.RECV takes the head of seq.in, an element or a marker's number in bits [33:32], or waits. The model's own choices or
readings in this: log 101, 105 (the value of a stopped SQ.RECV, and which of causes 4 and 5 comes first). -/
def Obligations.ShapesAndSequencerStreams : Prop :=
  -- ShapesAreGrantedAndReleased
  (
    (∀ (s : State) (g : Guard) (d : BitVec 5) (f : BitVec 1), s.self.guard g = true → s.self.pends d = false → s.self.cur.st ≠ .running →
      s.self.shape.getLsbD 31 = false → shapeValid (s.self.reg d) = true →
        (∀ i, s.shapeWaiters (coreOf s.cur) = [] → freeRun (s.groups (coreOf s.cur)) (bits (s.self.reg d) 17 16 + 1) = some i →
          exec (.shapeReq g d f) s = .next (s.withSelf
            { s.self.setReg d (grantWord (s.self.reg d) i) with
              shape := grantWord (s.self.reg d) i, mn := Mn.blank, ipc := s.self.ipc + 4 }))
        ∧ (s.shapeWaiters (coreOf s.cur) ≠ [] ∨ freeRun (s.groups (coreOf s.cur)) (bits (s.self.reg d) 17 16 + 1) = none →
          (f = 1 → exec (.shapeReq g d f) s = .next (s.withSelf (s.self.setReg d 0).advance))
          ∧ (f = 0 → ∃ t, exec (.shapeReq g d f) s = .next t ∧ t.self = { s.self with st := .waiting, wait := some (.shape d) }
              ∧ s.cur ∈ (t.core (coreOf s.cur)).shapeQ)))
    ∧ (∀ (s : State) (core : CoreId) (c : CtxId) (rest : List CtxId) (d : BitVec 5) (i : Nat), s.shapeWaiters core = c :: rest →
      (s.ctx c).gated = false → (s.ctx c).wait = some (.shape d) → freeRun (s.groups core) (bits ((s.ctx c).reg d) 17 16 + 1) = some i →
        ∃ t, exec (.shapeGrant core) s = .next t ∧ t.ctx c = { (s.ctx c).setReg d (grantWord ((s.ctx c).reg d) i) with
            shape := grantWord ((s.ctx c).reg d) i, mn := Mn.blank, st := .ready, wait := none, wake := s.time + 1, ipc := (s.ctx c).ipc + 4 }
          ∧ c ∉ (t.core core).shapeQ)
    ∧ (∀ (s : State) (g : Guard), s.self.guard g = true → s.self.cur.st ≠ .running →
        (s.self.shape.getLsbD 31 = true → s.self.mn.cmds = [] →
          exec (.shapeRel g) s = .next (s.withSelf { s.self with shape := 0, mn := Mn.blank, ipc := s.self.ipc + 4 }))
        ∧ (s.self.shape.getLsbD 31 = true → s.self.mn.cmds ≠ [] → exec (.shapeRel g) s = .next (s.withSelf { s.self with st := .waiting, wait := some .shapeRel }))
        ∧ (s.self.shape.getLsbD 31 = false → exec (.shapeRel g) s = .next (s.withSelf { s.self with ipc := s.self.ipc + 4 })))
    ∧ ∀ (s : State) (c : CtxId), (s.ctx c).mn.cmds = [] →
        ((s.ctx c).st = .stopped → exec (.shapeReleaseDone c) s = .next (s.setCtx c { s.ctx c with shape := 0, mn := Mn.blank }))
        ∧ ((s.ctx c).st = .waiting → (s.ctx c).gated = false → (s.ctx c).wait = some .shapeRel → exec (.shapeReleaseDone c) s
            = .next (s.setCtx c { s.ctx c with shape := 0, mn := Mn.blank, st := .ready, wait := none, wake := s.time + 1, ipc := (s.ctx c).ipc + 4 })))
  -- ParametersAndSequencerStreams
  ∧ (
    (∀ (s : State) (g : Guard) (tile : BitVec 4) (a b : BitVec 5) (t : Tile), s.self.guard g = true → s.self.cur.st = .running →
      imgBound (sectImg s.self.cur.sect) 0 (32 + tile.toNat) = false → s.self.fab.tiles.get? tile.toNat = some t → t.done = false → t.parm = [] →
      parmOk (bits (s.self.reg a) 31 0) (bits (s.self.reg b) 31 0) = true →
        exec (.parmWr g tile a b) s = .next (s.withSelf { s.self with
          fab := s.self.fab.setTile tile.toNat { t with parm := [((s.self.reg a).truncate 32, (s.self.reg b).truncate 32)] }, ipc := s.self.ipc + 4 }))
    ∧ (∀ (s : State) (g : Guard) (tile : BitVec 4) (a b : BitVec 5), s.self.guard g = true → s.self.cur.st ≠ .running → s.self.nxt.st = .ready →
      agEn (agRec (sectImg s.self.nxt.sect) (0x1400 + 64 * tile.toNat)).ctrl = true →
      ∀ e ∈ ([(0, 0), (1, 4), (2, 8), (3, 16), (4, 24), (5, 32)] : List (Nat × Nat)), bits (s.self.reg a) 31 0 = e.1 →
        e.1 = 0 ∨ bits (s.self.reg b) 31 0 < 2 ^ 24 →
          exec (.parmWr g tile a b) s = .next (s.withSelf { s.self with
            nxt := { s.self.nxt with sect := s.self.nxt.sect.setBytes (0x1400 + 64 * tile.toNat + e.2) (toBytes 4 (bits (s.self.reg b) 31 0)) }
            ipc := s.self.ipc + 4 }))
    ∧ (∀ (s : State) (g : Guard) (a : BitVec 5) (ty : BitVec 3) (p : Port), s.self.guard g = true → s.self.cur.st = .running →
      s.self.fab.port? 56 = some p → p.eos = false →
      ∀ e ∈ ([(.sqSend g a ty, [(s.self.reg a).truncate 32]), (.sqSendX2 g a ty, [(s.self.reg a).truncate 32, (s.self.reg a >>> 32).truncate 32])]
        : List (Instr × List W32)),
        (p.pk = [] ∨ p.pkTy = ty.toNat ∧ s.time ≤ p.pkAt + 1 → p.pk.length + e.2.length < 8 → exec e.1 s = .next (s.withSelf { s.self with
          fab := s.self.fab.setPort 56 { p with pk := p.pk ++ e.2, pkTy := ty.toNat, pkAt := s.time }, ipc := s.self.ipc + 4 }))
        ∧ (p.pk = [] ∨ p.pkTy = ty.toNat ∧ s.time ≤ p.pkAt + 1 → 8 ≤ p.pk.length + e.2.length → s.self.fab.canClose (.port 56) 1 = true →
          exec e.1 s = .next (s.withSelf { s.self with
            fab := (s.self.fab.setPort 56 { p with pk := (p.pk ++ e.2).drop 8, pkTy := ty.toNat, pkAt := s.time }).close (.port 56)
              (s.self.packet ((p.pk ++ e.2).take 8) 0 ty.toNat false)
            ipc := s.self.ipc + 4 }))
        ∧ (p.pk ≠ [] → p.pkTy ≠ ty.toNat ∨ p.pkAt + 1 < s.time → s.self.fab.canClose (.port 56) 1 = true → exec e.1 s = .next (s.withSelf { s.self with
          fab := (s.self.fab.setPort 56 { p with pk := e.2, pkTy := ty.toNat, pkAt := s.time }).close (.port 56) (s.self.packet p.pk 0 p.pkTy false)
          ipc := s.self.ipc + 4 })))
    ∧ (∀ (s : State) (g : Guard) (p : Port) (f : Nat → Fab), s.self.guard g = true → s.self.cur.st = .running →
      s.self.fab.port? 56 = some p → p.eos = false → s.self.fab.canClose (.port 56) (if p.pk = [] then 1 else 2) = true →
      (∀ k, f k = (let q := s.self.fab.setPort 56 { p with pk := [], pkTy := 0, pkAt := s.time, eos := k == 2 }
        (if p.pk = [] then q else q.close (.port 56) (s.self.packet p.pk 0 p.pkTy false)).close (.port 56) (s.self.packet [] k 0 false))) →
        exec (.sqSendEoi g) s = .next (s.withSelf { s.self with fab := f 1, ipc := s.self.ipc + 4 })
        ∧ exec (.sqSendEos g) s = .next (s.withSelf { s.self with fab := f 2, ipc := s.self.ipc + 4 }))
    ∧ ∀ (s : State) (g : Guard) (d : BitVec 5) (p : Port), s.self.guard g = true → s.self.pends d = false → s.self.cur.st = .running →
        s.self.fab.port? 55 = some p →
          (∀ v l rest, p.part.items = .el v l :: rest → exec (.sqRecv g d) s = .next (s.withSelf { s.self.setReg d (v.zeroExtend 64) with
            fab := s.self.fab.setPort 55 { p with part := p.part.pop 1 }, ipc := s.self.ipc + 4 }))
          ∧ (∀ k rest, p.part.items = .marker k :: rest → exec (.sqRecv g d) s = .next (s.withSelf { s.self.setReg d (BitVec.ofNat 64 (k * 2 ^ 32)) with
            fab := s.self.fab.setPort 55 { p with part := p.part.pop 1 }, ipc := s.self.ipc + 4 }))
          ∧ (p.part.items = [] → exec (.sqRecv g d) s = .next (s.withSelf { s.self with st := .waiting, wait := some (.sqRecv d) })))

/-- R206, R207, R213, R217: four elements at the head of mn.ctl whose token passes every test are accepted as a command, behind those accepted before,
when it is the context's turn; a TLOAD marks its table set as loaded. Nothing but the context's node and port, and the node's arbiter, changes. R206,
R207, R210, R226, R235: a command of any operation that fails a test, when it is the context's turn, is not accepted, and the load on that core is
held: a token that fails a test raises MN_TOKEN with the cause of the first failing test, cause 1 for an OPC of no operation and cause 3, before every
other, for a context with no grant; a good token whose addresses fail raises the fault of its first operand that fails (of two that fail one test X is
named: the model's choice, log 123); an ACSEND whose slot is unbound or whose chain is too short raises ACN_CHAIN (with the TRAPV of log 41). R212,
R215, R216, R221: a command starts once nothing holds it back: it is marked as started, and the older compute commands have ended their K-steps if it
is a compute command. GATHER-A takes the rows that its index names into the operand store, and voids the vectors; an MV with LDV = 1 loads its
vectors. -/
def Obligations.MatrixCommandsAreAccepted : Prop :=
  -- MatrixCommandsAreAccepted
  (
    ∀ (c : CtxId), ∀ e ∈ ([(.mnMm c, 1), (.mnMv c, 2), (.mnGatherA c, 3), (.mnTload c, 4), (.mnZero c, 5), (.mnDrain c, 6), (.mnAcsend c, 7)]
        : List (Instr × Nat)),
      ∀ (s : State) (p : Port) (e0 e1 a b : W32) (rest : List W32) (t : W64), (s.ctx c).active? = true → (s.ctx c).fab.port? 48 = some p →
        p.part.marker? ≠ some 1 → p.part.els = e0 :: e1 :: a :: b :: rest → t = e1 ++ e0 → tkOpc t = e.2 → (s.ctx c).mn.cmds.length < 8 →
        s.myTurn (512 * coreOf c + 256) s.cmdReady c = true →
        (s.ctx c).tokenCause t a.toNat b.toNat = none → s.operandFault c ((s.ctx c).cmdRanges t a.toNat b.toNat) = none → (s.ctx c).acsendFault t = none →
          ∃ s', exec e.1 s = .next s' ∧ s.OnlyFiring s' c 256
            ∧ (s'.ctx c).fab = (s.ctx c).fab.setPort 48 { p with part := p.part.pop 4 }
            ∧ (s'.ctx c).mn.cmds = (s.ctx c).mn.cmds ++ [MnCmd.mk t a.toNat b.toNat false 0 false 0 []
                (if e.2 = 4 then some ((s.ctx c).mn.tabs.getD (tkTs t) ⟨false, [], []⟩).loaded else none) false [] false []]
            ∧ (s'.ctx c).mn.tabs = (if e.2 = 4 then modAt (fun o => { o with loaded := true }) (s.ctx c).mn.tabs (tkTs t) else (s.ctx c).mn.tabs)
            ∧ (s'.ctx c).mn.acc = (s.ctx c).mn.acc)
  -- BadMatrixTokensHoldTheLoad
  ∧ (
    ∀ (c : CtxId), ∀ e ∈ ([(.mnMm c, 1), (.mnMv c, 2), (.mnGatherA c, 3), (.mnTload c, 4), (.mnZero c, 5), (.mnDrain c, 6), (.mnAcsend c, 7)]
        : List (Instr × Nat)),
      ∀ (s : State) (p : Port) (e0 e1 a b : W32) (rest : List W32) (t : W64), (s.ctx c).active? = true → (s.ctx c).fab.port? 48 = some p →
        p.part.marker? ≠ some 1 → p.part.els = e0 :: e1 :: a :: b :: rest → t = e1 ++ e0 → (s.ctx c).mn.cmds.length < 8 →
        s.myTurn (512 * coreOf c + 256) s.cmdReady c = true →
          (tkOpc t = 0 ∨ 7 < tkOpc t → exec e.1 s = .next (s.fabFault c ⟨0x10, t, 1⟩))
          ∧ (tkOpc t = e.2 → (s.ctx c).shape.getLsbD 31 = false → exec e.1 s = .next (s.fabFault c ⟨0x10, t, 3⟩))
          ∧ (tkOpc t = e.2 → ∀ k, (s.ctx c).tokenCause t a.toNat b.toNat = some k → exec e.1 s = .next (s.fabFault c ⟨0x10, t, BitVec.ofNat 16 k⟩))
          ∧ (tkOpc t = e.2 → (s.ctx c).tokenCause t a.toNat b.toNat = none →
            (e.2 = 1 ∨ e.2 = 3 → ∀ m, m = (if e.2 = 1 then 64 else 4) →
              (a.toNat % m ≠ 0 → exec e.1 s = .next (s.fabFault c ⟨0x02, a.zeroExtend 64, 64⟩))
              ∧ (a.toNat % m = 0 → b.toNat % 64 ≠ 0 → exec e.1 s = .next (s.fabFault c ⟨0x02, b.zeroExtend 64, 64⟩)))
            ∧ (∀ f, s.operandFault c ((s.ctx c).cmdRanges t a.toNat b.toNat) = some f → exec e.1 s = .next (s.fabFault c f)))
          ∧ (tkOpc t = 7 → e.2 = 7 → (s.ctx c).tokenCause t a.toNat b.toNat = none →
            (((s.ctx c).join (tkCh t)).st = 0 → exec e.1 s = .next (s.fabFault c ⟨0x11, BitVec.ofNat 64 (tkCh t), 0x3005⟩))
            ∧ (((s.ctx c).join (tkCh t)).st ≠ 0 → ((s.ctx c).join (tkCh t)).len < tkM (s.ctx c).shape t * tkN (s.ctx c).shape t →
                exec e.1 s = .next (s.fabFault c ⟨0x11, BitVec.ofNat 64 (tkM (s.ctx c).shape t * tkN (s.ctx c).shape t), 0x3006⟩))))
  -- MatrixCommandsStart
  ∧ (
    ∀ (s : State) (c : CtxId) (i : Nat) (k : MnCmd) (rows : List (List Nat)), (s.ctx c).active? = true → (s.ctx c).mn.cmds[i]? = some k → k.started = false →
      tkOpc k.tok ∈ [1, 2, 3, 4, 5, 6, 7] → (∀ p, (s.ctx c).fab.port? 50 = some p → p.toks = []) →
      ((s.ctx c).mn.cmds.take i).any (mnBlocks (s.ctx c).shape k.tok) = false →
      (tkOpc k.tok = 3 → (s.ctx c).zeroing k.x (4 * tkM (s.ctx c).shape k.tok) = false ∧ s.mnReadFault c k.x (4 * tkM (s.ctx c).shape k.tok) = none
        ∧ ∀ a ∈ s.gatherIndex c k, s.spadFault c (BitVec.ofNat 64 a) (if aCb (s.ctx c).shape k.tok then 1 else 2)
            (elBytes (aCb (s.ctx c).shape k.tok) (tkK k.tok)) 0x300 = none) →
      (∀ r ∈ s.storeRows c k, (s.ctx c).zeroing r.1 r.2 = false ∧ s.mnReadFault c r.1 r.2 = none) →
      rows = (s.storeRows c k).map (fun r => s.readRow c (aCb (s.ctx c).shape k.tok) r.1 (tkK k.tok)) →
        ∃ t, exec (.mnCommandStart c i) s = .next t ∧ s.OnlyCtx t c
          ∧ (t.ctx c).mn.cmds[i]? = some { k with started := true, rows := if tkOpc k.tok = 3 then rows else [] }
          ∧ (t.ctx c).mn.acc = (s.ctx c).mn.acc ∧ (t.ctx c).mn.tabs = (s.ctx c).mn.tabs
          ∧ (t.ctx c).mn.vecs = (if tkOpc k.tok = 3 then none
              else if tkOpc k.tok = 2 ∧ k.tok.getLsbD 19 then some ⟨tkK k.tok, if tkPair (s.ctx c).shape k.tok = 1 then 1 else 0, rows⟩ else (s.ctx c).mn.vecs)
          ∧ (∀ j e, j < i → (s.ctx c).mn.cmds[j]? = some e →
              (t.ctx c).mn.cmds[j]? = some (if tkCompute e.tok ∧ tkCompute k.tok then { e with ended := true } else e))
          ∧ ∀ j, j ≠ i → ((t.ctx c).mn.cmds[j]?).map (·.tok) = ((s.ctx c).mn.cmds[j]?).map (·.tok))

/-- R49: a K-group of products of finite operands is rounded once: q is the rational value; the sum is exact in any order of the terms, an exact zero is
-0 only if every product is -0; a group that is not the first of a replacing token is added with its second rounding. A group with a NaN product, or
with products of both infinities, gives the canonical NaN, and one with an infinity gives that infinity. R49, R214, R215, R216, R221, R224: a started
multiplication, first of its pipe, completes: each of its accumulator elements becomes the sums of R49 of its K-groups of 32 products, in order, over
its old value (over nothing, for the first group with ACC = 0), every other element of both accumulators is as it was, and the command leaves the
node. R217, R218: TLOAD reads the two codebooks of its set; ZERO sets its accumulator's M × N elements to +0. Each command leaves the node. R110,
R119, R219, R220, R222: a DRAIN takes the next four elements of its accumulator in row-major order, as FP32 or packed in pairs of the narrower format,
while mn.drain has demand; eight of them close a packet, and the EOI of a row or of the whole follows by its own demand. An ACSEND reads four elements
at a time on a credit of its join slot and sends a block of sixteen. Each leaves the node after its last. R206: EOS on mn.ctl, once every command has
completed and no status token waits, is consumed, and closed on each of mn.drain and mn.aux that is routed. The model's own choices or readings in
this: log 40 (the K-groups of a stopped command); log 124 (TYPE of the EOS on mn.drain). -/
def Obligations.MatrixCommandsTakeEffect : Prop :=
  -- KGroupsAreSummedExactly
  (
    (∀ (q : Val → ℚ), (∀ n m e, q (.fin n m e) = (if n then -1 else 1) * (m : ℚ) * (2 : ℚ) ^ e) →
      ∀ (l : List (Val × Val)) (acc : W32) (sum : ℚ),
        (∀ p ∈ l, ∃ n m e n' m' e', p = (.fin n m e, .fin n' m' e') ∧ (-200 : Int) ≤ e ∧ (-200 : Int) ≤ e') → sum = (l.map (fun p => q p.1 * q p.2)).sum →
          (sum ≠ 0 → ∃ neg m e r fl ov, q (.fin neg m e) = sum ∧ Fmt.fp32.round .rne false neg m e = (r, fl, ov)
            ∧ groupAcc true acc l = (BitVec.ofNat 32 r, fl)
            ∧ groupAcc false acc l = (BitVec.ofNat 32 (Fmt.fp32.fadd .rne acc.toNat r).1, fl ||| (Fmt.fp32.fadd .rne acc.toNat r).2))
          ∧ (sum = 0 → groupAcc true acc l
              = (if ∀ p ∈ l, q p.1 * q p.2 = 0 ∧ p.1.isNeg ≠ p.2.isNeg then 0x80000000#32 else 0#32, 0)))
    ∧ (∀ (l l' : List (Val × Val)) (b : Bool) (acc : W32), l.Perm l' → groupAcc b acc l = groupAcc b acc l')
    ∧ (∀ (l : List (Val × Val)) (acc : W32), (∃ p ∈ l, p.1.isNan = true ∨ p.2.isNan = true ∨ (p.1.mul p.2).1.isNan = true)
        ∨ (.inf true ∈ l.map (fun p => (p.1.mul p.2).1) ∧ .inf false ∈ l.map (fun p => (p.1.mul p.2).1)) → (groupAcc true acc l).1 = 0x7FC00000#32)
    ∧ (∀ (l : List (Val × Val)) (acc : W32) (n : Bool), (∀ p ∈ l, (p.1.mul p.2).1.isNan = false ∧ (p.1.mul p.2).1 ≠ .inf (!n)) →
        .inf n ∈ l.map (fun p => (p.1.mul p.2).1) → (groupAcc true acc l).1 = if n then 0xFF800000#32 else 0x7F800000#32)
    ∧ groupAcc false 0x40000000 ((Fmt.bf16.val 0x3F80, Fmt.bf16.val 0x3F80) :: List.replicate 31 (Fmt.bf16.val 0x3980, Fmt.bf16.val 0x3980))
        = (0x40400008, flagNX))
  -- MultiplicationsUpdateTheirAccumulator
  ∧ (
    ∀ (s : State) (c : CtxId) (i : Nat) (k : MnCmd), (s.ctx c).active? = true → (s.ctx c).mn.cmds[i]? = some k → k.started = true → k.pos = 0 → k.got = [] →
      tkOpc k.tok ∈ [1, 2, 3] → 0 < tkK k.tok → s.isOpen (s.ctx c).ten.toNat = true →
      ((s.ctx c).mn.cmds.take i).any (fun e => tkCompute e.tok == tkCompute k.tok) = false →
      (s.ctx c).banks.all (fun b => !b.zeroing) = true →
      (∀ g, 32 * g < tkK k.tok → ∀ r ∈ (s.ctx c).groupReads k g, s.mnReadFault c r.1 r.2 = none) →
        ∃ t, exec (.mnCommandComplete c i) s = .next t ∧ s.OnlyCtx t c ∧ (t.ctx c).mn.cmds = (s.ctx c).mn.cmds.eraseIdx i
          ∧ (∀ r j, r < mulRows (s.ctx c).shape k.tok → j < tkN (s.ctx c).shape k.tok →
              (t.ctx c).mn.get (tkAs k.tok) r j = (List.range ((tkK k.tok + 31) / 32)).foldl (fun v g => (groupAcc (g == 0 && !k.tok.getLsbD 32) v
                ((List.range (min 32 (tkK k.tok - 32 * g))).map (fun n => (s.mulA c k (s.stepRows c k (32 * g + n)) r (32 * g + n), s.mulB c k (s.stepRows c k (32 * g + n)) j)))).1)
                ((s.ctx c).mn.get (tkAs k.tok) r j))
          ∧ (∀ a r j, j < 128 → (a ≠ tkAs k.tok ∧ r < 128) ∨ (a = tkAs k.tok ∧ (mulRows (s.ctx c).shape k.tok ≤ r ∨ tkN (s.ctx c).shape k.tok ≤ j)) →
              (t.ctx c).mn.get a r j = (s.ctx c).mn.get a r j))
  -- TableLoadsAndZerosTakeEffect
  ∧ (
    ∀ (s : State) (c : CtxId) (i : Nat) (k : MnCmd), (s.ctx c).active? = true → (s.ctx c).mn.cmds[i]? = some k → k.started = true →
      ((s.ctx c).mn.cmds.take i).any (fun e => tkCompute e.tok == tkCompute k.tok) = false →
      (tkOpc k.tok = 4 → (s.ctx c).zeroing k.x 64 = false → s.mnReadFault c k.x 64 = none → tkTs k.tok < (s.ctx c).mn.tabs.length →
        ∃ t, exec (.mnCommandComplete c i) s = .next t ∧ s.OnlyCtx t c ∧ (t.ctx c).mn.cmds = (s.ctx c).mn.cmds.eraseIdx i
          ∧ (t.ctx c).mn.tabs[tkTs k.tok]? = some ⟨true, s.spadBytes c k.x 32, s.spadBytes c (k.x + 32) 32⟩)
      ∧ (tkOpc k.tok = 5 → ∃ t, exec (.mnCommandComplete c i) s = .next t ∧ s.OnlyCtx t c ∧ (t.ctx c).mn.cmds = (s.ctx c).mn.cmds.eraseIdx i
          ∧ ∀ r j, r < tkM (s.ctx c).shape k.tok → j < tkN (s.ctx c).shape k.tok → (t.ctx c).mn.get (tkAs k.tok) r j = 0))
  -- DrainsAndSendsStreamTheAccumulator
  ∧ (
    ∀ (s : State) (c : CtxId) (i per total : Nat) (k : MnCmd) (els : List W32), (s.ctx c).active? = true → (s.ctx c).mn.cmds[i]? = some k → k.started = true →
      ((s.ctx c).mn.cmds.take i).any (fun e => tkCompute e.tok == tkCompute k.tok) = false →
      per = (if bits k.tok 28 27 = 0 then tkN (s.ctx c).shape k.tok else tkN (s.ctx c).shape k.tok / 2) → total = tkM (s.ctx c).shape k.tok * per →
      els = (List.range 4).map (fun m =>
        if bits k.tok 28 27 = 0 then (s.ctx c).mn.get (tkAs k.tok) (k.pos / per) (k.pos % per + m)
        else
          let cv (j : Nat) : Nat := (convert .rne (.flt .fp32) (.flt (if bits k.tok 28 27 = 1 then .bf16 else .fp16))
            ((s.ctx c).mn.get (tkAs k.tok) (k.pos / per) j).toNat).1
          BitVec.ofNat 32 (cv (2 * (k.pos % per + m)) + cv (2 * (k.pos % per + m) + 1) * 2 ^ 16)) →
      (tkOpc k.tok = 6 → (s.ctx c).fab.canClose (.port 49) 1 = true →
        (k.eoi = false → k.buf.length < 4 → ∃ t, exec (.mnCommandComplete c i) s = .next t ∧ s.OnlyCtx t c ∧ (t.ctx c).fab = (s.ctx c).fab
          ∧ ((t.ctx c).mn.cmds[i]?).map (fun q => (q.pos, q.buf, q.eoi)) = some (k.pos + 4, k.buf ++ els, false))
        ∧ (k.eoi = false → k.buf.length = 4 → ∃ t, exec (.mnCommandComplete c i) s = .next t ∧ s.OnlyCtx t c
          ∧ (t.ctx c).fab = (s.ctx c).fab.close (.port 49) ((s.ctx c).packet (k.buf ++ els) 0 (3 + bits k.tok 28 27) false)
          ∧ ((t.ctx c).mn.cmds[i]?).map (fun q => (q.pos, q.buf, q.eoi))
              = some (k.pos + 4, [], k.pos + 4 == total || (k.tok.getLsbD 29 && (k.pos + 4) % per == 0)))
        ∧ (k.eoi = true → ∃ t, exec (.mnCommandComplete c i) s = .next t ∧ s.OnlyCtx t c
          ∧ (k.tok.getLsbD 17 = false → (t.ctx c).fab = (s.ctx c).fab.close (.port 49) ((s.ctx c).packet [] 1 (3 + bits k.tok 28 27) false))
          ∧ (t.ctx c).mn.cmds.length = (if k.pos = total then (s.ctx c).mn.cmds.length - 1 else (s.ctx c).mn.cmds.length)))
      ∧ ∀ (j : JoinSlot), tkOpc k.tok = 7 → bits k.tok 28 27 = 0 → (s.ctx c).fab.again = [] → j = (s.ctx c).join (tkCh k.tok) → j.credits ≠ 0 → sendFault j (k.pos / 16) 0x300 = none → total ≤ j.len →
        (k.buf.length < 12 → ∃ t, exec (.mnCommandComplete c i) s = .next t ∧ s.OnlyCtx t c
          ∧ ((t.ctx c).mn.cmds[i]?).map (fun q => (q.pos, q.buf)) = some (k.pos + 4, k.buf ++ els))
        ∧ (k.buf.length = 12 → s.deadOn false 40 (coreOf c) ((((s.leaseFor c).at? (handleSink j.handle)).map coreOf).getD (coreOf c)) = none →
          ∃ t, exec (.mnCommandComplete c i) s = .next t
          ∧ t.acnMsgs = s.acnMsgs ++ [⟨s.lidOf c, coreOf c, (((s.leaseFor c).at? (handleSink j.handle)).map coreOf).getD (coreOf c),
              .data ⟨c, j.key, 0x300, (s.ctx c).ten.toNat, handleSink j.handle, handleCid j.handle, j.pos, k.pos / 16, k.buf ++ els, 0⟩⟩]
          ∧ (tkCh k.tok < 16 → (t.ctx c).join (tkCh k.tok)
              = { j with credits := j.credits - 1, sent := j.sent + 1, out := j.out + 1, next := k.pos / 16 + 1 })
          ∧ (t.ctx c).mn.cmds.length = (if total ≤ k.pos + 4 then (s.ctx c).mn.cmds.length - 1 else (s.ctx c).mn.cmds.length)))
  -- MatrixEndOfStreamPasses
  ∧ (
    ∀ (s : State) (c : CtxId) (p : Port), (s.ctx c).active? = true → (s.ctx c).fab.port? 48 = some p → p.part.items = [.marker 2] → (s.ctx c).mn.cmds = [] →
      (∀ n ∈ [49, 50], ∀ d, (s.ctx c).fab.port? n = some d → d.toks = [] ∧ (s.ctx c).fab.canClose (.port n) 1 = true) →
        ∃ t, exec (.mnCtlEos c) s = .next t ∧ s.OnlyCtx t c ∧ (t.ctx c).fab
          = [49, 50].foldl (fun f n => match (s.ctx c).fab.port? n with
              | some d => (f.setPort n { d with eos := true }).close (.port n) ((s.ctx c).packet [] 2 0 false)
              | none => f) ((s.ctx c).fab.setPort 48 { p with part := p.part.pop 1 }))

/-- R244, R361: an ACH.OPEN that passes every check, with no store counted, takes the lowest free chain id of its core: the chain is OPEN with its
parameter word, its result area, its counter and no blocks, an ANCHORED result area is zeroed, and the handle names the sink's position and the id.
R246 to R249, R252: ACH.WAIT returns the status word of a COMPLETE chain of its context at once, waits for an OPEN one, and raises ACN_CHAIN with
cause 8 for an id that the context does not hold, or returns 0 where the handler of the trap that interrupted it has emptied the id (a wait that runs
again with its chain held forgets the interruption); ACH.WAIT.J returns a slot's word when no block of it is outstanding, and else waits; ACH.CLOSE
frees a COMPLETE chain, and raises cause 8 for any other id; ACH.CLOSE.J unbinds its slot, and is held while blocks are outstanding. R249, R443:
outside DETERMINISTIC, ACH.STAT and ACH.STAT.J return the word of a chain, 0 for an id that the context does not hold, and of a slot; in DETERMINISTIC
they raise DET_ORDER. R248: ACH.ABORT of a chain that the context holds frees its id, zeroes its region, sends each joined slot an abort notice, and
returns each staged block refused with its credit. The model's own choices or readings in this: log 125 (TRAPV of cause 3). -/
def Obligations.ChainWordsOpenWaitCloseAbort : Prop :=
  -- AchOpenTakesTheLowestFreeChain
  (
    ∀ (s : State) (g : Guard) (d a b : BitVec 5) (cid : Nat) (p v : W64), s.self.guard g = true → s.self.pends d = false → s.self.cntSt = 0 →
      p = s.self.reg a → v = s.self.reg b → s.openFault s.cur p v = none → cid < 16 → s.chain? (coreOf s.cur) cid = none →
      (∀ i, i < cid → (s.chain? (coreOf s.cur) i).isSome = true) →
        ∃ t, exec (.achOpen g d a b) s = .next t
          ∧ t.chain? (coreOf s.cur) cid = some { ctx := s.cur, st := 1, param := p, base := v.toNat % 2 ^ 22
                                                 cnt := if v.getLsbD 63 then (w64 (s.spadBytes s.cur (v.toNat / 2 ^ 32 % 2 ^ 22) 8)).toNat % 2 ^ 56
                                                        else v.toNat / 2 ^ 32 % 2 ^ 22
                                                 far := v.getLsbD 63, added := 0, flags := 0, joined := [], staged := [], next := [] }
          ∧ t.self = (s.self.setReg d (BitVec.ofNat 64 (s.self.ly.toNat * 2 ^ 9 + s.self.lx.toNat * 2 ^ 4 + cid))).advance
          ∧ (t.core (coreOf s.cur)).sram = (if p.getLsbD 51 then
              ((s.spadWrite s.cur (v.toNat % 2 ^ 22) (List.replicate (parRa p) 0)).core (coreOf s.cur)).sram else (s.core (coreOf s.cur)).sram)
          ∧ t.mem = s.mem ∧ ∀ c, c ≠ s.cur → t.ctx c = s.ctx c)
  -- AchWaitAndCloseWords
  ∧ (
    ∀ (s : State) (g : Guard) (d : BitVec 5) (i : BitVec 4), s.self.guard g = true →
      (∀ k, s.chain? (coreOf s.cur) i.toNat = some k → k.ctx = s.cur → k.st = 2 →
        (s.self.pends d = false → exec (.achWait g d i) s = .next (s.withSelf ({ s.self with achInt := none }.setReg d
          (BitVec.ofNat 64 (k.added * 2 ^ 32 + k.flags.toNat * 2 ^ 16 + (if k.param.getLsbD 51 then 128 else 0) + 2))).advance))
        ∧ ∃ t, exec (.achClose g i) s = .next t
            ∧ t.self = { s.self with achInt := s.self.achInt.filter (fun e => e.2 != i.toNat) }.advance ∧ t.chain? (coreOf s.cur) i.toNat = none
            ∧ (∀ j, j ≠ i.toNat → t.chain? (coreOf s.cur) j = s.chain? (coreOf s.cur) j) ∧ (t.core (coreOf s.cur)).sram = (s.core (coreOf s.cur)).sram)
      ∧ (∀ k, s.chain? (coreOf s.cur) i.toNat = some k → k.ctx = s.cur → k.st ≠ 2 →
        (s.self.pends d = false →
          exec (.achWait g d i) s = .next (s.withSelf { s.self with st := .waiting, wait := some (.achWait d i.toNat), achInt := none }))
        ∧ exec (.achClose g i) s = .next (s.raise s.cur ⟨0x11, i.setWidth 64, 0x3FF8⟩))
      ∧ ((∀ k, s.chain? (coreOf s.cur) i.toNat = some k → k.ctx ≠ s.cur) →
        (s.self.pends d = false → s.self.achInt ≠ some (s.self.ipc, i.toNat) →
          exec (.achWait g d i) s = .next (s.raise s.cur ⟨0x11, i.setWidth 64, 0x3FF8⟩))
        ∧ (s.self.pends d = false → s.self.achInt = some (s.self.ipc, i.toNat) →
          exec (.achWait g d i) s = .next (s.withSelf { s.self.setReg d 0 with achInt := none }.advance))
        ∧ exec (.achClose g i) s = .next (s.raise s.cur ⟨0x11, i.setWidth 64, 0x3FF8⟩))
      ∧ (s.self.pends d = false → ∀ j, j = s.self.join i.toNat →
        (j.out = 0 → exec (.achWaitJ g d i) s = .next (s.withSelf (s.self.setReg d (if j.st = 0 then 0 else
            BitVec.ofNat 64 (j.sent * 2 ^ 32 + (if j.anchored then 128 else 0) + j.st))).advance))
        ∧ (j.out ≠ 0 → exec (.achWaitJ g d i) s = .next (s.withSelf { s.self with st := .waiting, wait := some (.achWaitJ d i.toNat) })))
      ∧ ((s.self.join i.toNat).out = 0 → ∃ t, exec (.achCloseJ g i) s = .next t ∧ s.OnlyCtx t s.cur ∧ (t.self.join i.toNat).st = 0
          ∧ (∀ j, j < 16 → j ≠ i.toNat → t.self.join j = s.self.join j) ∧ t.self.ipc = s.self.ipc + 4 ∧ t.self.g = s.self.g)
      ∧ ((s.self.join i.toNat).out ≠ 0 → exec (.achCloseJ g i) s = .next s))
  -- AchStatusWords
  ∧ (
    ∀ (s : State) (g : Guard) (d : BitVec 5) (i : BitVec 4), s.self.guard g = true → s.self.pends d = false →
      (s.self.det = true → exec (.achStat g d i) s = .next (s.raise s.cur (detOrder (.achStat g d i)))
        ∧ exec (.achStatJ g d i) s = .next (s.raise s.cur (detOrder (.achStatJ g d i))))
      ∧ (s.self.det = false →
        (∀ k, s.chain? (coreOf s.cur) i.toNat = some k → k.ctx = s.cur → exec (.achStat g d i) s = .next (s.withSelf (s.self.setReg d
          (BitVec.ofNat 64 (k.added * 2 ^ 32 + k.flags.toNat * 2 ^ 16 + (if k.param.getLsbD 51 then 128 else 0) + (if k.st = 2 then 2 else 1)))).advance))
        ∧ ((∀ k, s.chain? (coreOf s.cur) i.toNat = some k → k.ctx ≠ s.cur) → exec (.achStat g d i) s = .next (s.withSelf (s.self.setReg d 0).advance))
        ∧ ∀ j, j = s.self.join i.toNat → exec (.achStatJ g d i) s = .next (s.withSelf (s.self.setReg d (if j.st = 0 then 0 else
            BitVec.ofNat 64 (j.sent * 2 ^ 32 + j.out * 2 ^ 24 + (if j.anchored then 128 else 0) + j.st))).advance)))
  -- AchAbortTearsTheChainDown
  ∧ (
    ∀ (s : State) (g : Guard) (i : BitVec 4) (k : SinkChain) (lid : Nat) (o : CoreId), s.self.guard g = true → s.dead = [] → o = coreOf s.cur →
      lid = s.lidOf s.cur → s.chain? o i.toNat = some k → k.ctx = s.cur →
        ∃ t, exec (.achAbort g i) s = .next t ∧ t.chain? o i.toNat = none ∧ t.self = s.self.advance
          ∧ (t.core o).sram = ((s.spadWrite s.cur k.base (List.replicate (parZ k.param) 0)).core o).sram
          ∧ t.acnMsgs = s.acnMsgs ++ k.joined.map (fun j => ⟨lid, o, coreOf j.2.1, .abort j.2.1 j.2.2⟩)
              ++ k.staged.flatMap (fun b => [⟨lid, o, coreOf b.src, .refusal b.src b.key b.unit 2 b⟩, ⟨lid, o, coreOf b.src, .credit b.src b.key⟩])
          ∧ (∀ c, c ≠ s.cur → t.ctx c = s.ctx c) ∧ t.mem = s.mem)

/-- R245, R252: an ACH.JOIN with a valid handle and position and a free slot sends its request to the sink's core and waits; reserved bits of the handle,
a position above 511 and a slot in use raise ACN_CHAIN with cause 1, 1 and 5 at the sequencer. R232, R245: the oldest request of its lane that reaches
a live sink of its tenant, an OPEN chain of that sink, one in its finalisation among them, and a free position of it joins the chain, and the reply
carries the window, the length and the mode; a request for an id that the sink does not hold is answered ACN_SINK_ABSENT with cause 2. R245: a reply
with no fault binds the slot of the joining context with the chain's window of credits, and the waiting ACH.JOIN retires with the window in its
register; a reply with a fault raises it. The model's own choices or readings in this: log 38 (a reply that finds no waiting join). -/
def Obligations.JoinsBindTheirSlot : Prop :=
  -- AchJoinSendsItsRequest
  (
    ∀ (s : State) (g : Guard) (d a b : BitVec 5) (h : W64) (l : Lease), s.self.guard g = true → s.self.pends d = false → h = s.self.reg a →
      l = s.leaseFor s.cur →
      (h.toNat / 2 ^ 20 ≠ 0 ∨ h.toNat / 2 ^ 13 % 8 ≠ 0 ∨ h.toNat / 16 % 32 ≥ l.w ∨ h.toNat / 2 ^ 9 % 16 ≥ l.h →
        exec (.achJoin g d a b) s = .next (s.raise s.cur ⟨0x11, h, 0x3FF1⟩))
      ∧ (h.toNat / 2 ^ 20 = 0 → h.toNat / 2 ^ 13 % 8 = 0 → h.toNat / 16 % 32 < l.w → h.toNat / 2 ^ 9 % 16 < l.h →
        ((s.self.reg b).toNat > 511 → exec (.achJoin g d a b) s = .next (s.raise s.cur ⟨0x11, s.self.reg b, 0x3FF1⟩))
        ∧ ((s.self.reg b).toNat ≤ 511 →
          ((s.self.join (h.toNat / 2 ^ 16 % 16)).st ≠ 0 → exec (.achJoin g d a b) s = .next (s.raise s.cur ⟨0x11, h, 0x3FF5⟩))
          ∧ ∀ sink, (s.self.join (h.toNat / 2 ^ 16 % 16)).st = 0 → s.dead = [] → l.at? (h.toNat / 16 % 32, h.toNat / 2 ^ 9 % 16) = some sink →
              exec (.achJoin g d a b) s = .next { s.withSelf { s.self with st := .waiting, wait := some (.achJoin d none), joinN := s.self.joinN + 1 } with
                acnMsgs := s.acnMsgs ++ [⟨s.lidOf s.cur, coreOf s.cur, coreOf sink,
                  .joinReq s.cur d h (s.self.reg b).toNat (16 * s.self.joinN + h.toNat / 2 ^ 16 % 16)⟩] })))
  -- JoinRequestsJoinTheirChain
  ∧ (
    ∀ (s : State) (i lid : Nat) (fr dest : CoreId) (c : CtxId) (d : BitVec 5) (h : W64) (p : Nat) (l : Lease) (sink : CtxId) (key : Nat),
      s.acnNextMsg i = some ⟨lid, fr, dest, .joinReq c d h p key⟩ → s.acnHeld lid = false → s.dead = [] → s.leaseAt lid = some l →
      l.at? (h.toNat / 16 % 32, h.toNat / 2 ^ 9 % 16) = some sink → (s.ctx sink).st ≠ .empty → (s.ctx sink).ten = (s.ctx c).ten →
      (∀ k, s.chain? (coreOf sink) (h.toNat % 16) = some k → k.ctx = sink → k.st ≠ 2 → p < k.param.toNat / 2 ^ 39 % 2 ^ 9 + 1 → (∀ j ∈ k.joined, j.1 ≠ p) →
        ∃ t, exec (.acnJoinRequest i) s = .next t
          ∧ t.chain? (coreOf sink) (h.toNat % 16) = some { k with joined := k.joined ++ [(p, c, key)] }
          ∧ t.acnMsgs = s.acnMsgs.eraseIdx i ++ [⟨lid, dest, fr, .joinRep c key none (k.param.toNat / 2 ^ 48 % 8 + 1)
              (k.param.toNat % 2 ^ 20) (k.param.getLsbD 51) h p⟩]
          ∧ (∀ c, t.ctx c = s.ctx c) ∧ t.mem = s.mem)
      ∧ ((∀ k, s.chain? (coreOf sink) (h.toNat % 16) = some k → k.ctx ≠ sink) →
        exec (.acnJoinRequest i) s = .next { s with acnMsgs := s.acnMsgs.eraseIdx i ++
          [⟨lid, dest, fr, .joinRep c key (some ⟨0x12, h, 0x3FF2⟩) 0 0 false h p⟩] }))
  -- JoinRepliesBindTheSlot
  ∧ (
    ∀ (s : State) (i lid : Nat) (fr dest : CoreId) (c : CtxId) (key w len : Nat) (an : Bool) (h : W64) (p : Nat) (d : BitVec 5),
      (s.ctx c).wait = some (.achJoin d none) →
      (s.acnNextMsg i = some ⟨lid, fr, dest, .joinRep c key none w len an h p⟩ →
        ∃ t, exec (.acnJoinReply i) s = .next t
          ∧ t.ctx c = { ((s.ctx c).setJoin (key % 16) ⟨key, 4, h, p, w, len, an, w, 0, 0, 0, false⟩).setReg d (BitVec.ofNat 64 w) with
              st := .ready, wait := none, wake := s.time + 1 }.advance
          ∧ t = { s.setCtx c (t.ctx c) with acnMsgs := s.acnMsgs.eraseIdx i })
      ∧ ∀ f, s.acnNextMsg i = some ⟨lid, fr, dest, .joinRep c key (some f) w len an h p⟩ → (s.ctx c).raised = [] →
          exec (.acnJoinReply i) s = .next ({ s with acnMsgs := s.acnMsgs.eraseIdx i }.raise c f))

/-- R232, R234, R236, R251, R390: the oldest closed block that waits on a joined slot with a credit is sent to the sink's core, spends the credit, and the
slot expects the next block: one that the sink has refused before, once the load is no longer held, and else one at an ACPUT cell. R237, R240, R248,
R251, R380: a block that reaches a chain of its sink that is not yet COMPLETE, from a joined position, is written into a free place of its position's
staging window (which one is the model's choice: log 132) and staged; one that finds its chain COMPLETE is discarded and its credit returned; one that
finds no such chain is refused with its credit; one of another tenant is dropped by the firewall. R50 to R52, R237, R238, R240: what the sink adds. In
an ORDERED chain each element of the block becomes, at its place in the result area, the contribution (a NaN the canonical one) for position 0 without
INIT, and else the FP32 sum rounded to nearest; in an ANCHORED one the 80-bit integer of its place grows by the contribution's multiple of 2^(A - 62),
rounded to the nearest integer and saturated. Offsets of L and above are not added, every other byte of the budget stays, and the flags are ORed into
the chain's. The read-out of an ANCHORED sum saturates to 64 bits, and to FP32 is rounded from there. R237 to R239: the sink adder takes the next
block of an OPEN chain: in an ORDERED chain a staged block whose position and every lower one are due, in an ANCHORED chain the first staged; its
elements are added, the chain counts one block more, and its credit returns. The core's chains are served in round robin: the chain is the first with
a block to add from the one after the last served. -/
def Obligations.BlocksAreSentStagedAndAdded : Prop :=
  -- BlocksAreSentOnCredits
  (
    ∀ (s : State) (c : CtxId) (n slot blk : Nat) (els : List W32) (rest : List (Nat × List W32)) (k : Cell) (j : JoinSlot),
      (s.ctx c).cur.st = .running → (s.ctx c).fab.stopped = false → s.dead = [] → ∀ (fab : Fab),
      ((∀ e ∈ (s.ctx c).fab.again, e.1 ≠ slot)
        ∧ (s.ctx c).fab.cells.find? (fun e => wOp e.2.word == 0x72 && wImm e.2.word % 16 == slot && !e.2.waitBlk.isEmpty) = some (n, k)
        ∧ k.waitBlk = (blk, els) :: rest ∧ fab = (s.ctx c).fab.setCell n { k with waitBlk := rest })
        ∨ (∃ more, (s.ctx c).fab.again = (slot, n, blk, els) :: more ∧ (s.ctx c).fab.held = false ∧ fab = { (s.ctx c).fab with again := more }) → slot < 16 → s.acnStop (s.ctx c).lease = false → j = (s.ctx c).join slot → j.credits ≠ 0 →
      sendFault { j with next := blk } blk n = none →
        ∃ t, exec (.acnBlockSend c slot) s = .next t
          ∧ (t.ctx c).join slot = { j with credits := j.credits - 1, sent := j.sent + 1, out := j.out + 1, next := blk + 1 }
          ∧ (t.ctx c).fab = fab
          ∧ t = { s.setCtx c (t.ctx c) with acnMsgs := s.acnMsgs ++ [⟨s.lidOf c, coreOf c,
              (((s.leaseFor c).at? (j.handle.toNat / 16 % 32, j.handle.toNat / 2 ^ 9 % 16)).map coreOf).getD (coreOf c),
              .data { src := c, key := j.key, unit := n, ten := (s.ctx c).ten.toNat, sink := (j.handle.toNat / 16 % 32, j.handle.toNat / 2 ^ 9 % 16),
                      cid := j.handle.toNat % 16, pos := j.pos, blk := blk, els := els, room := 0 }⟩] })
  -- BlocksAreStagedOrReturned
  ∧ (
    ∀ (s : State) (i lid : Nat) (fr dest : CoreId) (b : AcnBlock) (l : Lease) (sink : CtxId), s.acnNextMsg i = some ⟨lid, fr, dest, .data b⟩ →
      s.acnHeld lid = false → s.dead = [] → s.leaseAt lid = some l → l.at? b.sink = some sink →
      ((s.ctx sink).st ≠ .empty → (s.ctx sink).ten.toNat ≠ b.ten → exec (.acnBlockArrive i) s = .next ({ s with acnMsgs := s.acnMsgs.eraseIdx i }.fwDrop
        b.ten (sink % 4) (coreOf sink) 0 1 (s.ctx sink).ten.toNat))
      ∧ ((s.ctx sink).ten.toNat = b.ten →
        (∀ k, s.chain? (coreOf sink) b.cid = some k → k.ctx = sink → (∃ j ∈ k.joined, j.1 = b.pos) →
          (k.st ≠ 2 → (k.staged.filter (fun q => q.pos == b.pos)).length < parW k.param → ∃ t r, exec (.acnBlockArrive i) s = .next t
            ∧ r < parW k.param ∧ (∀ q ∈ k.staged, q.pos = b.pos → q.room ≠ r)
            ∧ t.chain? (coreOf sink) b.cid = some { k with staged := k.staged ++ [{ b with room := r }] } ∧ t.acnMsgs = s.acnMsgs.eraseIdx i
            ∧ (t.core (coreOf sink)).sram = ((s.spadWrite sink (k.base + (if parAnch k.param then 16 * parL k.param else 64 * ((parL k.param + 15) / 16))
                + 64 * (parW k.param * b.pos + r)) ((b.els.map (fun v => toBytes 4 v.toNat)).flatten)).core (coreOf sink)).sram
            ∧ ∀ c, t.ctx c = s.ctx c)
          ∧ (k.st = 2 → exec (.acnBlockArrive i) s = .next { s with acnMsgs := s.acnMsgs.eraseIdx i ++ [⟨lid, dest, coreOf b.src, .credit b.src b.key⟩] }))
        ∧ ((∀ k, s.chain? (coreOf sink) b.cid = some k → k.ctx ≠ sink) → exec (.acnBlockArrive i) s = .next { s with
            acnMsgs := s.acnMsgs.eraseIdx i ++ [⟨lid, dest, coreOf b.src, .refusal b.src b.key b.unit (if (s.ctx sink).st = .empty then 1 else 2) b⟩, ⟨lid, dest, coreOf b.src, .credit b.src b.key⟩] })))
  -- SinkAdditionsFollowTheirMode
  ∧ (
    (∀ (s : State) (k : SinkChain) (b : AcnBlock) (n : Nat) (t : State), n = min 16 (parL k.param - 16 * b.blk) → t = (s.addBlock k b).1 → b.els.length = 16 →
      ((s.ctx k.ctx).banks.map (·.bank)).Nodup → k.base % 64 = 0 → k.base + parZ k.param ≤ (s.ctx k.ctx).budget → (s.core (coreOf k.ctx)).sram.wf = true →
      (∀ c, t.ctx c = s.ctx c) ∧ t.mem = s.mem
      ∧ (k.param.getLsbD 51 = false →
        (∀ m v c, m < n → v = s.spad32 k.ctx (k.base + 4 * (16 * b.blk + m)) → c = b.els.getD m 0 → t.spad32 k.ctx (k.base + 4 * (16 * b.blk + m))
            = if b.pos = 0 ∧ k.param.getLsbD 53 = false then (if (Fmt.fp32.val c.toNat).isNan then 0x7FC00000#32 else c)
              else BitVec.ofNat 32 (Fmt.fp32.fadd .rne v.toNat c.toNat).1)
        ∧ (s.addBlock k b).2 = (List.range n).foldl (fun f m => f ||| ((if b.pos = 0 ∧ k.param.getLsbD 53 = false then (Fmt.fp32.val (b.els.getD m 0).toNat).nv
            else (Fmt.fp32.fadd .rne (s.spad32 k.ctx (k.base + 4 * (16 * b.blk + m))).toNat (b.els.getD m 0).toNat).2).truncate 8)) k.flags
        ∧ ∀ a, a < (s.ctx k.ctx).budget → a < k.base + 64 * b.blk ∨ k.base + 64 * b.blk + 4 * n ≤ a → t.spadBytes k.ctx a 1 = s.spadBytes k.ctx a 1)
      ∧ (k.param.getLsbD 51 = true → ∀ (E : Nat → BitVec 80) (c : Nat → BitVec 64 × BitVec 3),
        (∀ m, E m = BitVec.ofNat 80 (ofBytes (s.spadBytes k.ctx (k.base + 16 * (16 * b.blk + m)) 10))) →
        (∀ m, c m = anchorOf (BitVec.extractLsb' 56 8 k.param) (b.els.getD m 0)) →
        (∀ m, m < n → BitVec.ofNat 80 (ofBytes (t.spadBytes k.ctx (k.base + 16 * (16 * b.blk + m)) 10)) = E m + (c m).1.signExtend 80)
        ∧ (s.addBlock k b).2 = (List.range n).foldl (fun f m => f ||| (c m).2.zeroExtend 8) k.flags))
    ∧ (∀ (a : BitVec 8) (x : W32) (neg : Bool) (m : Nat) (e : Int) (r : ℚ), Fmt.fp32.val x.toNat = .fin neg m e →
        r = (if neg then -1 else 1) * (m : ℚ) * (2 : ℚ) ^ e / (2 : ℚ) ^ (a.toInt - 62) →
          ∃ z : Int, |(z : ℚ) - r| ≤ 1 / 2 ∧ (|(z : ℚ) - r| = 1 / 2 → z % 2 = 0)
            ∧ anchorOf a x = if 2 ^ 63 - 1 < z then (0x7FFFFFFFFFFFFFFF#64, 3) else if z < -2 ^ 63 then (0x8000000000000000#64, 3)
                else (BitVec.ofInt 64 z, if (z : ℚ) = r then 0 else 2))
    ∧ (∀ (a : BitVec 8) (x : W32), (∀ s, Fmt.fp32.val x.toNat = .nan s → anchorOf a x = (0, 4)) ∧ (Fmt.fp32.val x.toNat = .inf false → anchorOf a x = (0x7FFFFFFFFFFFFFFF#64, 1))
        ∧ (Fmt.fp32.val x.toNat = .inf true → anchorOf a x = (0x8000000000000000#64, 1)))
    ∧ ∀ (p : W64) (fl : BitVec 8) (e : BitVec 80) (v : Int) (f : BitVec 8), v = max (-2 ^ 63) (min (2 ^ 63 - 1) e.toInt) → f = (if e.toInt = v then 0 else 1) →
        (BitVec.extractLsb' 54 2 p = 0 → anchoredOut p fl e = (toBytes 4 (Fmt.fp32.round .rne false (v < 0) v.natAbs ((BitVec.extractLsb' 56 8 p).toInt - 62)).1, f))
        ∧ (BitVec.extractLsb' 54 2 p = 1 → anchoredOut p fl e = (toBytes 8 (BitVec.ofInt 64 v).toNat, f))
        ∧ (BitVec.extractLsb' 54 2 p = 2 → anchoredOut p fl e = (toBytes 10 e.toNat ++ [BitVec.extractLsb' 56 8 p, fl, 0, 0, 0, 0], 0)))
  -- TheSinkAdderAddsABlock
  ∧ (
    ∀ (s : State) (o : CoreId) (cid n : Nat) (k : SinkChain) (b : AcnBlock), s.chain? o cid = some k → k.st = 1 → k.added < parKC k.param → s.dead = [] →
      k.ready = some b → coreOf k.ctx = o → n < 16 → cid = ((s.core o).acnNext + n) % 16 →
      (∀ m, m < n → ∀ e, s.chain? o (((s.core o).acnNext + m) % 16) = some e → e.st ≠ 1 ∨ e.added ≥ parKC e.param ∨ e.ready = none) →
        b ∈ k.staged ∧ (k.param.getLsbD 51 = false → b.blk = k.done b.pos ∧ ∀ p, p < b.pos → b.blk < k.done p)
        ∧ ∃ t k', exec (.acnBlockAdd o cid) s = .next t ∧ t.chain? o cid = some k' ∧ k'.added = k.added + 1 ∧ k'.done b.pos = k.done b.pos + 1
          ∧ (∀ p, p ≠ b.pos → k'.done p = k.done p) ∧ k'.staged = k.staged.erase b ∧ k'.flags = (s.addBlock k b).2 ∧ k'.st = 1
          ∧ (t.core o).sram = ((s.addBlock k b).1.core o).sram ∧ (t.core o).acnNext = (cid + 1) % 16
          ∧ t.acnMsgs = s.acnMsgs ++ [⟨s.lidOf k.ctx, o, coreOf b.src, .credit b.src b.key⟩] ∧ ∀ c, t.ctx c = s.ctx c)

/-- R234, R248, R251: a credit that returns adds one to its slot's credits, at most its window, and takes one from the outstanding blocks; an abort notice
makes a JOINED slot ABORTED; a refusal makes it REFUSED, counts the block as not sent, raises ACN_SINK_ABSENT with its cause at the unit that sent it,
and keeps the block of a load that runs to be attempted again (R390). R240, R330, R361: after the last addition an ORDERED chain's read-out zeroes its
region past its sums, and an ANCHORED one's writes each sum in its output format; the chain is then COMPLETE: its region unlocks, the credit of every
block still staged returns, its counter in the scratchpad or in device memory rises by one, and its completion token waits at a bound acn.done; EOS
closes on acn.done when no chain of the context is open and no token waits. The model's own choices or readings in this: log 37, 126 (a faulted
counter add, and a full acn.done). -/
def Obligations.CreditsAndCompletionsOfChains : Prop :=
  -- CreditsNoticesAndRefusalsReachTheirSlot
  (
    ∀ (s : State) (i lid : Nat) (fr dest : CoreId) (c : CtxId) (key : Nat) (j : JoinSlot), j = (s.ctx c).join (key % 16) → j.key = key → j.st ≠ 0 →
      (s.acnNextMsg i = some ⟨lid, fr, dest, .credit c key⟩ → ∃ t, exec (.acnCreditReturn i) s = .next t
        ∧ (t.ctx c).join (key % 16) = { j with credits := min j.w (j.credits + 1), out := j.out - 1 }
        ∧ t = { s.setCtx c (t.ctx c) with acnMsgs := s.acnMsgs.eraseIdx i })
      ∧ (s.acnNextMsg i = some ⟨lid, fr, dest, .abort c key⟩ → ∃ t, exec (.acnAbortNotice i) s = .next t
        ∧ (t.ctx c).join (key % 16) = { j with st := if j.st = 4 then 5 else j.st } ∧ t = { s.setCtx c (t.ctx c) with acnMsgs := s.acnMsgs.eraseIdx i })
      ∧ ∀ u cause b, s.acnNextMsg i = some ⟨lid, fr, dest, .refusal c key u cause b⟩ → j.st = 4 → exec (.acnRefusal i) s = .next
          ((({ s with acnMsgs := s.acnMsgs.eraseIdx i }.setCtx c ((s.ctx c).setJoin (key % 16) { j with st := 6, gone := cause == 1, sent := j.sent - 1 })).updFab c (fun f =>
            if (s.ctx c).cur.st = SlotSt.running ∧ (s.ctx c).fab.stopped = false then { f with again := f.again ++ [(key % 16, u, b.blk, b.els)] } else f)).fabFault
            c ⟨0x12, j.handle, BitVec.ofNat 16 (cause + 16 * u)⟩))
  -- ChainsFinaliseAndComplete
  ∧ (
    (∀ (s : State) (o : CoreId) (cid : Nat) (k : SinkChain), s.chain? o cid = some k → k.st = 1 → k.added ≥ parKC k.param → coreOf k.ctx = o →
      (k.param.getLsbD 51 = false → ∃ t, exec (.acnFinalise o cid) s = .next t ∧ t.chain? o cid = some { k with st := 3 } ∧ t.acnMsgs = s.acnMsgs
        ∧ (t.core o).sram = ((s.spadWrite k.ctx (k.base + 4 * parL k.param) (List.replicate (parZ k.param - 4 * parL k.param) 0)).core o).sram)
      ∧ (k.param.getLsbD 51 = true → ∀ (outs : List (List Byte × BitVec 8)) (bs : List Byte),
        outs = (List.range (parL k.param)).map (fun e => anchoredOut k.param k.flags (BitVec.ofNat 80 (ofBytes (s.spadBytes k.ctx (k.base + 16 * e) 10)))) →
        bs = (outs.map (·.1)).flatten →
          ∃ t, exec (.acnFinalise o cid) s = .next t ∧ t.chain? o cid = some { k with st := 3, flags := outs.foldl (fun f e => f ||| e.2) k.flags }
            ∧ t.acnMsgs = s.acnMsgs ∧ (t.core o).sram = (((s.spadWrite k.ctx k.base bs).spadWrite k.ctx (k.base + bs.length)
              (List.replicate (parZ k.param - bs.length) 0)).core o).sram))
    ∧ (∀ (s : State) (o : CoreId) (cid : Nat) (k : SinkChain), s.chain? o cid = some k → k.st = 3 → s.dead = [] →
        (∀ q, (s.ctx k.ctx).openPort 52 = some q → q.toks.length < 4) →
        (k.far = false → ∀ s' r, s' = (if k.param.getLsbD 52 then s.spadWrite k.ctx k.cnt (toBytes 8 (w64 (s.spadBytes k.ctx k.cnt 8) + 1).toNat) else s) →
          r = { s'.putChain o cid { k with st := 2, staged := [] } with
            acnMsgs := s.acnMsgs ++ k.staged.map (fun b => ⟨s.lidOf k.ctx, o, coreOf b.src, .credit b.src b.key⟩) } →
          ((s.ctx k.ctx).openPort 52 = none → exec (.chainComplete o cid) s = .next r)
          ∧ ∀ q, (s.ctx k.ctx).openPort 52 = some q → exec (.chainComplete o cid) s = .next (r.setCtx k.ctx { s.ctx k.ctx with
              fab := (s.ctx k.ctx).fab.setPort 52 { q with toks := q.toks ++ [BitVec.ofNat 32 (k.flags.toNat * 256 + cid)] } }))
        ∧ ∀ pa, k.far = true → k.param.getLsbD 52 = true → s.UnitOk k.ctx k.cnt 8 ⟨true, true⟩ pa → pa % 8 = 0 →
            s.mem.wf = true → ∃ t, exec (.chainComplete o cid) s = .next t ∧ t.chain? o cid = some { k with st := 2, staged := [] }
              ∧ s.DevWritten t pa (toBytes 8 (s.dev64 pa + 1).toNat))
    ∧ ∀ (s : State) (c : CtxId) (q : Port), (s.ctx c).openPort 52 = some q → (s.ctx c).fab.routed (.port 52) = true → q.toks = [] →
        (s.ctx c).fab.canClose (.port 52) 1 = true → (∀ e ∈ (s.core (coreOf c)).sinks, e.2.ctx = c → e.2.st = 2) →
          exec (.acnDoneEos c) s = .next (s.setCtx c { s.ctx c with
            fab := ((s.ctx c).fab.setPort 52 { q with eos := true }).close (.port 52) ((s.ctx c).packet [] 2 0 false) }))

/-- R296, R302, R303, R304: an AMD atomic with a good operand and a free place in CNT.LD enters its request, with the low bits of g[b] as operand and the
bits above them, or g[b + 1], as the new value of CAS, and retires; so does AMD.AFADD. A page of another package may be its operand (R426). R296,
R443: for each AMD.W word: an operand that is not a multiple of 4 raises MISALIGNED, then one with a bit of [63:56] XLAT_FAULT with cause 6; in a
DETERMINISTIC lease, SWAP, CAS and any other word with a result register raise DET_ORDER first. R267, R273, R297, R302 to R304: at its home slice an
atomic returns the old value and stores the new one, CAS only where the old value is as expected; a write stores its bytes; an addition to an anchored
record stores the record with the value added and its flags, and with a read-out returns the sum; a read returns the bytes: each is indivisible,
changes no other byte, and sends its answer. A request for a page of another package is answered, refused there or lost: which of them, and the value,
no rule says. R21, R295: the answer of a request writes g[d] of the instruction that made it and counts it out; a refused one takes its operation off
and raises its trap at that instruction, which no younger word has followed. -/
def Obligations.DeviceAtomicsAtTheirHome : Prop :=
  -- DeviceAtomicsIssue
  (
    ∀ (s : State) (g : Guard) (d a b : BitVec 5) (pa va : Nat), s.self.guard g = true → s.self.pends d = false → s.self.cntLd < 31 →
      va = (s.self.reg a).toNat % 2 ^ 56 →
      (s.self.det = false → s.DevAny s.cur (s.self.reg a) 4 63 ⟨true, true⟩ pa →
        ∀ e ∈ ([(.amdSwapW g d a b, .swap), (.amdAddW g d a b, .add), (.amdAndW g d a b, .and), (.amdOrW g d a b, .or), (.amdXorW g d a b, .xor),
            (.amdMinW g d a b, .min), (.amdMaxW g d a b, .max), (.amdMinuW g d a b, .minu), (.amdMaxuW g d a b, .maxu), (.amdCasW g d a b, .cas)]
              : List (Instr × AmoOp)),
          ∃ t, exec e.1 s = .next t
            ∧ s.SentReq t false d va pa (.amo e.2 4 (BitVec.ofNat 64 ((s.self.reg b).toNat % 2 ^ 32)) (s.self.reg b >>> 32)))
      ∧ (s.self.det = false → s.DevAny s.cur (s.self.reg a) 8 63 ⟨true, true⟩ pa →
        ∀ e ∈ ([(.amdSwapD g d a b, .swap), (.amdAddD g d a b, .add), (.amdAndD g d a b, .and), (.amdOrD g d a b, .or), (.amdXorD g d a b, .xor),
            (.amdMinD g d a b, .min), (.amdMaxD g d a b, .max), (.amdMinuD g d a b, .minu), (.amdMaxuD g d a b, .maxu), (.amdCasD g d a b, .cas)]
              : List (Instr × AmoOp)),
          ∃ t, exec e.1 s = .next t ∧ s.SentReq t false d va pa (.amo e.2 8 (s.self.reg b) (s.self.reg (b + 1))))
      ∧ (s.DevAny s.cur (s.self.reg a) 16 63 ⟨true, true⟩ pa →
          ∃ t, exec (.amdAfadd g d a b) s = .next t ∧ s.SentReq t false d va pa (.afadd ((s.self.reg b).setWidth 32) ((s.self.reg b).getLsbD 32) (d != 0))))
  -- DeviceAtomicOperandFaults
  ∧ (
    ∀ (s : State) (g : Guard) (d a b : BitVec 5), s.self.guard g = true → s.self.pends d = false → s.self.cntLd < 31 →
      ∀ e ∈ ([(.amdSwapW g d a b, true), (.amdAddW g d a b, false), (.amdAndW g d a b, false), (.amdOrW g d a b, false), (.amdXorW g d a b, false),
          (.amdMinW g d a b, false), (.amdMaxW g d a b, false), (.amdMinuW g d a b, false), (.amdMaxuW g d a b, false), (.amdCasW g d a b, true)]
            : List (Instr × Bool)),
        (s.self.det = true → d ≠ 0 ∨ e.2 = true → exec e.1 s = .next (s.raise s.cur (detOrder e.1)))
        ∧ (s.self.det = false → (s.self.reg a).toNat % 4 ≠ 0 → exec e.1 s = .next (s.raise s.cur ⟨0x02, s.self.reg a, 4⟩))
        ∧ (s.self.det = false → (s.self.reg a).toNat % 4 = 0 → (s.self.reg a).toNat / 2 ^ 56 ≠ 0 →
            exec e.1 s = .next (s.raise s.cur ⟨0x14, s.self.reg a, 70⟩)))
  -- DeviceRequestsArePerformedAtTheirHome
  ∧ (
    (∀ (s : State) (i : Nat) (r : DReq), s.AtHome i r →
      (∀ op n v x old, r.kind = .amo op n v x → n = 4 ∨ n = 8 → r.pa % n = 0 → old = ofBytes (s.devBytes r.pa n) →
        ∃ t, exec (.homeSliceWrite i) s = .next t ∧ s.Answered t r (BitVec.ofNat 64 old) [] none 2
          ∧ s.DevWritten t r.pa (if op = .cas ∧ old ≠ v.toNat % 2 ^ (8 * n) then [] else toBytes n (amoNew op n old (v.toNat % 2 ^ (8 * n)) x.toNat)))
      ∧ (∀ bs, r.kind = .write bs → memKey r.pa + bs.length ≤ 2 ^ 40 →
        ∃ t, exec (.homeSliceWrite i) s = .next t ∧ s.Answered t r r.res [] none 3 ∧ s.DevWritten t r.pa bs)
      ∧ (∀ v o bs, r.kind = .afadd v o false → r.pa % 16 = 0 → afaddRecord (s.devBytes r.pa 16) v = .ok bs →
        ∃ t, exec (.homeSliceWrite i) s = .next t ∧ s.Answered t r 0 [] none 2 ∧ s.DevWritten t r.pa bs)
      ∧ (∀ v o bs (e : BitVec 80) (u : W64 × BitVec 3), r.kind = .afadd v o true → r.pa % 16 = 0 → afaddRecord (s.devBytes r.pa 16) v = .ok bs →
        e = BitVec.ofNat 80 (ofBytes (bs.take 10)) →
        u = (if o then anchorOut64 e else ((anchorOut32 (bs.getD 10 0) e).1.zeroExtend 64, (anchorOut32 (bs.getD 10 0) e).2)) →
          ∃ t, exec (.homeSliceWrite i) s = .next t ∧ s.Answered t r u.1 [] none 2
            ∧ s.DevWritten t r.pa (bs.take 11 ++ [bs.getD 11 0 ||| u.2.zeroExtend 8] ++ bs.drop 12))
      ∧ (∀ v o ro, r.kind = .afadd v o ro → anchorOk ((s.devBytes r.pa 16).getD 10 0) = false →
        ∃ t, exec (.homeSliceWrite i) s = .next t ∧ s.Answered t r 0 [] (some ⟨0x0C, BitVec.ofNat 64 r.va, ((s.devBytes r.pa 16).getD 10 0).zeroExtend 16⟩) 2
          ∧ t.mem = s.mem)
      ∧ (r.kind = .cntRead → ∃ t, exec (.homeSliceRead i) s = .next t ∧ s.Answered t r (s.dev64 r.pa) (s.devBytes r.pa 8) none 2
          ∧ t.mem = s.mem ∧ ∀ c, t.ctx c = s.ctx c)
      ∧ ∀ n, r.kind = .read n →
          ∃ t, exec (.homeSliceRead i) s = .next t ∧ s.Answered t r (w64 (s.devBytes r.pa n)) (s.devBytes r.pa n) none 2
            ∧ t.mem = s.mem ∧ t.unspec = s.unspec ∧ ∀ c, t.ctx c = s.ctx c)
    ∧ ∀ (s : State) (i : Nat) (r : DReq), s.dreqs[i]? = some r → s.reqReady r = true → s.isLocal r.pa = false →
        ∀ e ∈ ([.homeSliceRead i, .homeSliceWrite i] : List Instr), (e = .homeSliceRead i ↔ ∃ n, r.kind = .read n) → r.kind ≠ .cntRead → (∀ g, r.kind ≠ .barReg g) →
          ∃ t, exec e s = .next t ∧ t.mem = s.mem
            ∧ ∃ res data fault, t.dreqs = updFirst (fun q => q.id == r.id) (fun q => { q with stage := .back, res := res, data := data, fault := fault }) s.dreqs
              ∧ (s.peerOutcome = 0 → fault = none) ∧ (s.peerOutcome = 1 → fault = some ⟨0x15, BitVec.ofNat 64 r.va, (tenantTrap r.va r.pa).detail ||| 0x100⟩)
              ∧ (s.peerOutcome = 2 → fault = some ⟨0x20, BitVec.ofNat 64 r.va, 0⟩)
              ∧ ((∃ op v x, r.kind = .amo op 4 v x) ∨ (∃ v, r.kind = .afadd v false true) → res.toNat < 2 ^ 32))
  -- DeviceAnswersReachTheirRegister
  ∧ (
    ∀ (s : State) (i : Nat) (r : DReq) (c : CtxId) (o : MemOp), s.dreqs[i]? = some r → r.stage = .done → r.who = .ctx c →
      (s.ctx c).ops.find? (fun o => o.body == .dev r.id) = some o →
      (r.fault = none → ∃ t, exec (.deviceResponse i) s = .next t ∧ t = { s.setCtx c (t.ctx c) with dreqs := s.dreqs.filter (fun q => q.id != r.id) }
        ∧ t.ctx c = ((s.ctx c).setReg o.dst r.res).finishOp o.id)
      ∧ ∀ f, r.fault = some f → exec (.deviceResponse i) s = .next (({ s with dreqs := s.dreqs.filter (fun q => q.id != r.id) }.setCtx c
          { s.ctx c with ops := (s.ctx c).ops.filter (fun q => q.id != o.id), ipc := r.ipc }).raise c f))

/-- R305, R429: FENCE retires at once when CNT.LD and CNT.ST are 0 and, for scope SYS, no remote store or access is outstanding; scopes from LEASE on then
empty the near cache of the context. Else the context waits, and the word retires when they are. R306, R350: CNT.ADD and CNT.RD on a counter of the
scratchpad issue an addition and a load, and on one in device memory a request; with any load, store or copy counted, CNT.ADD is held. CNT.WAIT
retires with the value once it is at least g[b], and acquires; else the context waits. R296, R306: a context that waits at a counter reads it again: a
value of at least its target is kept, any other leaves the wait as it is, and the CNT.WAIT of a context that is not gated then retires with the value
as an acquire. -/
def Obligations.FencesAndCounters : Prop :=
  -- FencesOrderAndAcquire
  (
    (∀ (s : State) (g : Guard) (scope : BitVec 3), s.self.guard g = true →
      (s.self.cntLd = 0 ∧ s.self.cntSt = 0 ∧ (scope.toNat < 4 ∨ (s.self.rso = 0 ∧ ∀ r ∈ s.dreqs, r.who = .ctx s.cur → s.isLocal r.pa = true)) →
        exec (.fence g scope) s = .next (s.withSelf { s.self with near := if scope.toNat ≥ 1 then [] else s.self.near, ipc := s.self.ipc + 4 }))
      ∧ (s.self.cntLd ≠ 0 ∨ s.self.cntSt ≠ 0 ∨ (4 ≤ scope.toNat ∧ (s.self.rso ≠ 0 ∨ ∃ r ∈ s.dreqs, r.who = .ctx s.cur ∧ s.isLocal r.pa = false)) →
        exec (.fence g scope) s = .next (s.withSelf { s.self with st := .waiting, wait := some (.fence scope.toNat) })))
    ∧ ∀ (s : State) (c : CtxId) (scope : Nat), (s.ctx c).st = .waiting → (s.ctx c).raised = [] → (s.ctx c).gated = false →
        (s.ctx c).wait = some (.fence scope) → (s.ctx c).cntLd = 0 → (s.ctx c).cntSt = 0 →
        scope < 4 ∨ ((s.ctx c).rso = 0 ∧ ∀ r ∈ s.dreqs, r.who = .ctx c → s.isLocal r.pa = true) →
          exec (.waitSatisfied c) s = .next (s.setCtx c { s.ctx c with
            near := if scope ≥ 1 then [] else (s.ctx c).near, st := .ready, wait := none, wake := s.time + 1, ipc := (s.ctx c).ipc + 4 }))
  -- CounterWordsIssue
  ∧ (
    ∀ (s : State) (g : Guard) (d a b : BitVec 5) (v : W64), s.self.guard g = true → s.self.pends d = false → s.self.det = false → v = s.self.reg a →
      (s.self.cntLd = 0 → s.self.cntSt = 0 → s.self.cntCp = 0 →
        (v.getLsbD 63 = false → s.SpadOk s.cur v.toNat 8 →
          exec (.cntAdd g d a b) s = .next (s.withSelf (s.self.pushOp false d (.amo .add 8 v.toNat (s.self.reg b) 0)).advance))
        ∧ (∀ pa, v.getLsbD 63 = true → s.DevAny s.cur v 8 62 ⟨true, true⟩ pa →
          ∃ t, exec (.cntAdd g d a b) s = .next t ∧ s.SentReq t false d (v.toNat % 2 ^ 56) pa (.amo .add 8 (s.self.reg b) 0)))
      ∧ (s.self.cntLd < 31 → (v.getLsbD 63 = false → s.SpadOk s.cur v.toNat 8 →
          exec (.cntRd g d a) s = .next (s.withSelf (s.self.pushOp false d (.load v.toNat 8 false)).advance))
        ∧ (∀ pa, v.getLsbD 63 = true → s.DevOk s.cur v 8 62 ⟨true, false⟩ pa →
          ∃ t, exec (.cntRd g d a) s = .next t ∧ s.SentReq t false d (v.toNat % 2 ^ 56) pa .cntRead))
      ∧ (s.self.cntLd ≠ 0 ∨ s.self.cntSt ≠ 0 ∨ s.self.cntCp ≠ 0 → exec (.cntAdd g d a b) s = .next s)
      ∧ (v.getLsbD 63 = false → s.SpadOk s.cur v.toNat 8 → ∀ n, n = w64 (s.spadBytes s.cur v.toNat 8) →
        (s.self.spadBusy v.toNat 8 = false → s.self.reg b ≤ n →
          exec (.cntWait g d a b) s = .next (s.withSelf { s.self.setReg d n with near := [], ipc := s.self.ipc + 4 }))
        ∧ (s.self.spadBusy v.toNat 8 = true ∨ n < s.self.reg b → exec (.cntWait g d a b) s = .next (s.withSelf
            { s.self with st := .waiting, wait := some (.cntSpad d v.toNat (s.self.reg b)) })))
      ∧ ∀ pa, v.getLsbD 63 = true → s.DevOk s.cur v 8 62 ⟨true, false⟩ pa → s.dead = [] →
        (s.lineBusy s.cur pa = false → s.self.reg b ≤ s.dev64 pa →
          exec (.cntWait g d a b) s = .next (s.withSelf { s.self.setReg d (s.dev64 pa) with near := [], ipc := s.self.ipc + 4 }))
        ∧ (s.lineBusy s.cur pa = true ∨ s.dev64 pa < s.self.reg b → exec (.cntWait g d a b) s = .next (s.withSelf
            { s.self with st := .waiting, wait := some (.cntMem d (v.toNat % 2 ^ 56) (s.self.reg b) none) })))
  -- CounterWaitsEnd
  ∧ (
    ∀ (s : State) (c : CtxId) (d : BitVec 5) (target : W64),
      (∀ va pa, (s.ctx c).wait = some (.cntMem d va target none) → s.Cached c va ⟨true, false⟩ pa → s.isLocal pa = true → s.lineBusy c pa = false → s.dead = [] →
        s.accessFault (s.ctx c).ten.toNat (some (dieOf (coreOf c))) va pa 8 = none →
          (target ≤ s.dev64 pa → exec (.counterReread c) s = .next (s.setCtx c { s.ctx c with wait := some (.cntMem d va target (some (s.dev64 pa))) }))
          ∧ (s.dev64 pa < target → exec (.counterReread c) s = .next s))
      ∧ (∀ a, (s.ctx c).wait = some (.cntSpad d a target) → (s.ctx c).spadBusy a 8 = false → s.SpadOk c a 8 →
          (target ≤ w64 (s.spadBytes c a 8) →
            exec (.counterReread c) s = .next (s.setCtx c { s.ctx c with wait := some (.cntMem d a target (some (w64 (s.spadBytes c a 8)))) }))
          ∧ (w64 (s.spadBytes c a 8) < target → exec (.counterReread c) s = .next s))
      ∧ ∀ va v, (s.ctx c).st = .waiting → (s.ctx c).raised = [] → (s.ctx c).gated = false → (s.ctx c).wait = some (.cntMem d va target (some v)) →
          exec (.waitSatisfied c) s = .next (s.setCtx c { (s.ctx c).setReg d v with
            near := [], st := .ready, wait := none, wake := s.time + 1, ipc := (s.ctx c).ipc + 4 }))

/-- R307, R308: BAR.ARR enters its arrival. On a well-formed barrier word of generation e with g[b] = e, BAR.WAIT sends its registration to the line's
home slice and waits; of another generation it retires with 0; a malformed word raises MEM_OPERAND with cause 4. Behind a request of its own on the
line BAR.WAIT registers unjudged. R307 to R309: an arrival at its home returns the generation; the last one of it starts the next generation with the
full count and releases every waiter of the line, any other lowers the count and arms the line; on a malformed word it is answered with MEM_OPERAND
cause 4. A registration of the current generation arms the line and joins its waiters, one of a generation that has passed is released; a released
waiter's BAR.WAIT retires with 0, one whose barrier was broken with 1, each as an acquire, of a context that is not gated and with no failed link on
the way. R270, R300, R301: RES.OPEN on a good range that meets no open range of its ASID opens the lowest free handle of its die, or returns 0 when
none is free; RES.PRIO sets the priority of an open handle; RES.DROP closes it and untags its lines; a number that is no open handle raises
MEM_OPERAND with cause 2. R310, R401: TLB.INVA, TLB.INVS and, for the system tenant, TLB.INVALL remove what they cover from every TLB of the package
and retire as an acquire when no covered access is under way, else wait for it; TLB.INVALL of any other tenant raises SYS_ONLY, and a tenant that
names another ASID MEM_OPERAND with cause 6. The model's own choices or readings in this: log 121 (which register TRAPV holds); log 33, 36 (the
translations that a tile keeps, and what the word waits for). -/
def Obligations.BarriersAndResidencyWords : Prop :=
  -- BarrierWordsArriveAndWait
  (
    ∀ (s : State) (g : Guard) (d a b : BitVec 5) (pa gen total left : Nat), s.self.guard g = true → s.self.pends d = false →
      gen < 2 ^ 16 → total < 2 ^ 16 →
      (s.dev64 pa).toNat = gen * 2 ^ 32 + total * 2 ^ 16 + left → left < 2 ^ 16 →
      (s.DevOk s.cur (s.self.reg a) 64 63 ⟨true, true⟩ pa → s.self.cntLd = 0 → s.self.cntSt = 0 →
        ∃ t, exec (.barArr g d a) s = .next t ∧ s.SentReq t false d ((s.self.reg a).toNat % 2 ^ 56) pa .barArr)
      ∧ (s.DevOk s.cur (s.self.reg a) 64 63 ⟨true, false⟩ pa → ∀ s', s' = (s.withSelf { s.self with st := .waiting, wait := some (.barrier d ((s.self.reg a).toNat % 2 ^ 56) pa (some s.dreqN) none) }) →
        (0 < left → left ≤ total → s.lineBusy s.cur pa = false → (s.self.reg b).toNat % 2 ^ 16 ≠ gen →
          exec (.barWait g d a b) s = .next (s.withSelf { s.self.setReg d 0 with near := [], ipc := s.self.ipc + 4 }))
        ∧ (s.lineBusy s.cur pa = true ∨ (0 < left ∧ left ≤ total ∧ (s.self.reg b).toNat % 2 ^ 16 = gen) →
          exec (.barWait g d a b) s = .next { s' with
            dreqs := s.dreqs ++ [⟨s.dreqN, s.self.ipc, .ctx s.cur, s.self.ten.toNat, s.self.asid.toNat, (s.self.reg a).toNat % 2 ^ 56, pa,
              .barReg ((s.self.reg b).toNat % 2 ^ 16), .out, 0, [], none, false⟩]
            dreqN := s.dreqN + 1
            flits := s.flits ++ [⟨s.dreqN, false, 0, coreOf s.cur, 0, s.homeCore pa, 0, s.time, 0⟩] })
        ∧ (left = 0 ∨ total < left → s.lineBusy s.cur pa = false → exec (.barWait g d a b) s = .next (s.raise s.cur ⟨0x16, s.self.reg a, 4⟩))))
  -- BarriersReleaseTheirWaiters
  ∧ (
    (∀ (s : State) (i : Nat) (r : DReq) (gen total left : Nat), s.AtHome i r → r.kind = .barArr → r.pa % 64 = 0 → gen < 2 ^ 16 → total < 2 ^ 16 → left < 2 ^ 16 →
      s.dev64 r.pa = BitVec.ofNat 64 (gen * 2 ^ 32 + total * 2 ^ 16 + left) →
        (0 < left → left ≤ total → s.armedOthers r.pa < 8 → ∃ t, exec (.homeSliceWrite i) s = .next t ∧ s.Answered t r (BitVec.ofNat 64 gen) [] none 2
          ∧ s.DevWritten t r.pa (toBytes 8 (if left = 1 then (gen + 1) % 2 ^ 16 * 2 ^ 32 + total * 2 ^ 16 + total else gen * 2 ^ 32 + total * 2 ^ 16 + left - 1))
          ∧ (left = 1 → t.barWaiters = s.barWaiters.filter (fun w => w.1 != r.pa) ∧ ∀ c d va pa q, (r.pa, c) ∈ s.barWaiters →
              (s.ctx c).wait = some (.barrier d va pa q none) → (t.ctx c).wait = some (.barrier d va pa none (some true)))
          ∧ (left ≠ 1 → t.barWaiters = s.barWaiters))
        ∧ (left = 0 ∨ total < left → ∃ t, exec (.homeSliceWrite i) s = .next t
          ∧ s.Answered t r 0 [] (some ⟨0x16, BitVec.ofNat 64 r.va, 4⟩) 2 ∧ t.mem = s.mem ∧ t.barWaiters = s.barWaiters))
    ∧ (∀ (s : State) (i : Nat) (r : DReq) (c : CtxId) (d : BitVec 5) (va pa e gen total left : Nat) (q : Option Nat), s.AtHome i r → r.who = .ctx c →
      r.kind = .barReg e → r.pa % 64 = 0 → gen < 2 ^ 16 → total < 2 ^ 16 → 0 < left → left ≤ total →
      s.dev64 r.pa = BitVec.ofNat 64 (gen * 2 ^ 32 + total * 2 ^ 16 + left) → (s.ctx c).wait = some (.barrier d va pa q none) →
        (e = gen → s.armedOthers r.pa < 8 → ∃ t, exec (.homeSliceRead i) s = .next t ∧ t.barWaiters = s.barWaiters ++ [(r.pa, c)]
          ∧ t.ctx c = { s.ctx c with wait := some (.barrier d va pa none none) } ∧ t.dreqs = s.dreqs.filter (fun k => k.id != r.id) ∧ t.mem = s.mem)
        ∧ (e ≠ gen → ∃ t, exec (.homeSliceRead i) s = .next t ∧ t.barWaiters = s.barWaiters
          ∧ t.ctx c = { s.ctx c with wait := some (.barrier d va pa none (some true)) } ∧ t.dreqs = s.dreqs.filter (fun k => k.id != r.id) ∧ t.mem = s.mem))
    ∧ ∀ (s : State) (c : CtxId) (d : BitVec 5) (va pa : Nat) (q : Option Nat) (ok : Bool), (s.ctx c).wait = some (.barrier d va pa q (some ok)) → (s.ctx c).gated = false →
        s.meshFault (coreOf c) va pa = none →
        exec (.barrierReleaseMsg c) s = .next (s.setCtx c { (s.ctx c).setReg d (if ok then 0 else 1) with
          near := [], st := .ready, wait := none, wake := s.time + 1, ipc := (s.ctx c).ipc + 4 }))
  -- ResidencyWords
  ∧ (
    ∀ (s : State) (g : Guard) (d a b : BitVec 5) (die : Nat), s.self.guard g = true → die = dieOf (coreOf s.cur) →
      (∀ len, s.self.pends d = false → (s.self.reg a).toNat % 2 ^ 17 = 0 → (s.self.reg b).toNat % 2 ^ 17 < 8 → len = (s.self.reg b).toNat / 2 ^ 17 * 2 ^ 17 →
        0 < len → (s.self.reg a).toNat + len ≤ 2 ^ 56 → (∀ h ∈ (s.die die).handles, h.asid = s.self.asid.toNat →
          (s.self.reg a).toNat + len ≤ h.start ∨ h.start + h.len ≤ (s.self.reg a).toNat) →
          (∀ n, 1 ≤ n → n ≤ 255 → (∀ h ∈ (s.die die).handles, h.num ≠ n) → (∀ m, 1 ≤ m → m < n → ∃ h ∈ (s.die die).handles, h.num = m) →
            ∃ t, exec (.resOpen g d a b) s = .next t ∧ t.self = (s.self.setReg d (BitVec.ofNat 64 n)).advance
              ∧ (t.die die).handles = (s.die die).handles ++ [⟨n, s.self.asid.toNat, (s.self.reg a).toNat, len, (s.self.reg b).toNat % 8⟩] ∧ t.mem = s.mem)
          ∧ ((∀ n, 1 ≤ n → n ≤ 255 → ∃ h ∈ (s.die die).handles, h.num = n) →
              exec (.resOpen g d a b) s = .next (s.withSelf (s.self.setReg d 0).advance)))
      ∧ ((∃ h ∈ (s.die die).handles, h.num = (s.self.reg a).toNat ∧ h.asid = s.self.asid.toNat) →
        (s.self.reg b < 8 → ∃ t, exec (.resPrio g a b) s = .next t ∧ t.self = s.self.advance ∧ (t.die die).handles = (s.die die).handles.map (fun h =>
          if h.num = (s.self.reg a).toNat then { h with prio := (s.self.reg b).toNat } else h))
        ∧ ∃ t, exec (.resDrop g a) s = .next t ∧ t.self = s.self.advance
            ∧ (t.die die).handles = (s.die die).handles.filter (fun h => h.num != (s.self.reg a).toNat)
            ∧ (t.die die).l2 = (s.die die).l2.map (fun l => if l.handle = (s.self.reg a).toNat then { l with handle := 0 } else l) ∧ t.mem = s.mem)
      ∧ ((∀ h ∈ (s.die die).handles, h.num = (s.self.reg a).toNat → h.asid ≠ s.self.asid.toNat) →
        exec (.resPrio g a b) s = .next (s.raise s.cur ⟨0x16, s.self.reg a, 2⟩) ∧ exec (.resDrop g a) s = .next (s.raise s.cur ⟨0x16, s.self.reg a, 2⟩)))
  -- TlbMaintenanceWords
  ∧ (
    ∀ (s : State) (g : Guard) (a b : BitVec 5), s.self.guard g = true →
      (∀ e ∈ ([(.tlbInva g a b, 0, (s.self.reg b).toNat, (s.self.reg a).toNat, (s.self.reg a).toNat < 2 ^ 56 ∧ (s.self.reg b).toNat < 2 ^ 11
            ∧ (s.self.ten = 0 ∨ (s.self.reg b).toNat = s.self.asid.toNat)),
          (.tlbInvs g a, 1, (s.self.reg a).toNat, 0, (s.self.reg a).toNat < 2 ^ 11 ∧ (s.self.ten = 0 ∨ (s.self.reg a).toNat = s.self.asid.toNat)),
          (.tlbInvall g, 2, 0, 0, s.self.ten = 0)] : List (Instr × Nat × Nat × Nat × Prop)), e.2.2.2.2 →
        ∃ t, exec e.1 s = .next t ∧ t.mem = s.mem
          ∧ (∀ k, (t.core k).utlb = (s.core k).utlb.filter (fun x => !tlbCovers e.2.1 e.2.2.1 e.2.2.2.1 x))
          ∧ (∀ k, (t.die k).stlb = (s.die k).stlb.filter (fun x => !tlbCovers e.2.1 e.2.2.1 e.2.2.2.1 x))
          ∧ ∀ page, page = s.widestPage e.2.2.1 e.2.2.2.1 →
            (s.tlbBusy e.2.1 e.2.2.1 page = false → t.self = { s.self.dropPages e.2.1 e.2.2.1 e.2.2.2.1 with near := [], ipc := s.self.ipc + 4 })
            ∧ (s.tlbBusy e.2.1 e.2.2.1 page = true → t.self = { s.self.dropPages e.2.1 e.2.2.1 e.2.2.2.1 with
                st := .waiting, wait := some (.tlb e.2.1 e.2.2.1 e.2.2.2.1 page) }))
      ∧ (s.self.ten ≠ 0 → exec (.tlbInvall g) s = .next (s.raise s.cur (sysOnly (.tlbInvall g)))
        ∧ ((s.self.reg a).toNat ≠ s.self.asid.toNat → exec (.tlbInvs g a) s = .next (s.raise s.cur ⟨0x16, s.self.reg a, 6⟩))))

/-- R289 to R292: a walk that ends at a leaf that permits the access enters it in the core's and the die's TLB; one that meets a migrating leaf parks its
requester; a requester that found the replay queue full walks again after 64 cycles; a release event's requesters walk again. R265, R266, R269 to
R271, R280 to R282: the line of a request that has missed enters its home L2, tagged with the handle of its range, in the lowest free home way; a
conversion empties the ways that change use; a request that the channel refuses goes back with its trap (the registration of a BAR.WAIT traps its
context), else its sector enters the cache layer: in its block, or in a new block in the lowest free way. None of them changes the content of memory.
R272 to R275, R415: the only head flit that competes for a port of a router that has not granted in this cycle, no link having failed, moves to the
next router, where it enters at the facing input: it passes on with its age while it goes straight, has not crossed eight routers, has not arrived and
stands at neither end of a seam, else it is latched with age 0; at its last router a response reaches its requester, and a request at its home core
stands there. The model's own choices or readings in this: log 34, 119, 131 (walks pass no tenant check and no link, and the order of causes on a
leaf). -/
def Obligations.WalksCachesAndMesh : Prop :=
  -- WalksFillTheTlbs
  (
    ∀ (s : State) (die : Nat) (w : WalkReq) (l : Leaf), s.walk die w.asid w.va = .ok l → l.va ≤ w.va → w.va < l.va + l.size →
      (w.rd = true → l.rd = true) → (w.wr = true → l.wr = true) →
      (l.mig = false →
        ((s.die die).walks = [w] → ∃ t, exec (.pageWalk die w.asid w.va) s = .next t ∧ (t.die die).walks = [] ∧ (t.core w.who.core).utlb.getLast? =
            some ⟨w.asid, l.va, l.size, l.pa, l.rd, l.wr, l.lvl⟩ ∧ (t.die die).stlb.getLast? = some ⟨w.asid, l.va, l.size, l.pa, l.rd, l.wr, l.lvl⟩ ∧ t.mem = s.mem)
        ∧ (∀ i, (s.die die).retry[i]? = some w → w.at_ + 64 ≤ s.time → ∃ t, exec (.replayRetry die i) s = .next t
            ∧ (t.die die).retry = (s.die die).retry.eraseIdx i ∧ (t.die die).stlb.getLast? = some ⟨w.asid, l.va, l.size, l.pa, l.rd, l.wr, l.lvl⟩)
        ∧ ((s.die die).replay = [w] → w.go = true → w.page.1 ≤ w.va → w.va < w.page.1 + w.page.2 →
            ∃ t, exec (.replayRelease die w.asid w.va) s = .next t ∧ (t.die die).replay = []
              ∧ (t.die die).stlb.getLast? = some ⟨w.asid, l.va, l.size, l.pa, l.rd, l.wr, l.lvl⟩))
      ∧ (l.mig = true → (s.die die).walks = [w] → (s.die die).replay.length < 256 → ∃ t, exec (.pageWalk die w.asid w.va) s = .next t ∧ (t.die die).walks = []
          ∧ (t.die die).replay = (s.die die).replay ++ [{ w with go := false, page := (l.va, l.size), at_ := s.time }]))
  -- CachesFillWithoutChangingMemory
  ∧ (
    (∀ (s : State) (die h w : Nat) (r : DReq),
      s.dreqs.find? (fun q => s.missing q && lineOf q.pa == lineOf r.pa && s.ownerDie (stackOf q.pa) == die && s.handleOf die q.asid q.va == h) = some r →
      s.reqFault r r.kind.size = none → s.hbm.any (fun b => b.blk == memKey r.pa / 4096 * 4096 && b.valid.contains (memKey r.pa / 256 % 16)) = true →
      die < 4 → w < 16 - (s.remw die (sliceOf (lineOf r.pa))).2 →
      (∀ l ∈ s.setLines die (lineOf r.pa), l.way ≠ w) → (∀ v, v < w → ∃ l ∈ s.setLines die (lineOf r.pa), l.way = v) →
        ∃ t, exec (.l2Fill die r.pa h) s = .next t ∧ t.mem = s.mem ∧ t.unspec = s.unspec
          ∧ (t.die die).l2 = (s.die die).l2 ++ [⟨lineOf r.pa, w, false, false, [], s.ownerTen (lineOf r.pa), h, false⟩])
    ∧ (∀ (s : State) (die slice old new : Nat), (s.die die).convert.get? slice = some old → new = bits (s.mgv (0x0100 + 16 * die)) 3 0 →
        ∃ t, exec (.l2WayConvert die slice) s = .next t ∧ t.mem = s.mem ∧ t.unspec = s.unspec ∧ (t.die die).convert.get? slice = none
          ∧ ∀ l ∈ (t.die die).l2, sliceOf l.pa = slice → l.way < 16 - max old new ∨ 16 - min old new ≤ l.way)
    ∧ (∀ (s : State) (i : Nat) (r : DReq), s.dreqs[i]? = some r → r.stage = .home → s.isLocal r.pa = true → s.homeLine r.pa = none →
      (∀ f, s.reqFault r r.kind.size = some f → f.cls ≠ 0x15 → (∀ g, r.kind ≠ .barReg g) → ∃ t, exec (.channelRequest i) s = .next t ∧ s.Answered t r 0 [] (some f)
          (if r.kind matches .write _ then 3 else 2) ∧ t.mem = s.mem)
      ∧ (∀ f g c, s.reqFault r r.kind.size = some f → f.cls ≠ 0x15 → r.kind = .barReg g → r.who = .ctx c →
        exec (.channelRequest i) s = .next ({ s with dreqs := s.dreqs.filter (fun q => q.id != r.id) }.raise c f))
      ∧ (s.reqFault r r.kind.size = none → ∃ t, exec (.channelRequest i) s = .next t ∧ t = { s with hbm := t.hbm }
          ∧ ∃ k ∈ t.hbm, k.blk = memKey r.pa / 4096 * 4096 ∧ memKey r.pa / 256 % 16 ∈ k.valid))
    ∧ ∀ (s : State) (die h blk : Nat) (r : DReq),
        s.dreqs.find? (fun q => s.missing q && lineOf q.pa == lineOf r.pa && s.ownerDie (stackOf q.pa) == die && s.handleOf die q.asid q.va == h) = some r →
        blk = memKey r.pa / 4096 * 4096 → s.reqFault r r.kind.size = none →
        ((∃ k ∈ s.hbm, k.blk = blk) → ∃ t, exec (.cacheLayerFill die r.pa h) s = .next t ∧ t = { s with hbm := t.hbm }
          ∧ ∃ k ∈ t.hbm, k.blk = blk ∧ memKey r.pa / 256 % 16 ∈ k.valid)
        ∧ ∀ w, w < 4 → (∀ k ∈ s.hbm, k.blk ≠ blk ∧ (k.stack = stackOf r.pa → k.blk / 4096 % 2 ^ 18 = blk / 4096 % 2 ^ 18 → k.way ≠ w)) →
            (∀ v, v < w → ∃ k ∈ s.hbm, k.stack = stackOf r.pa ∧ k.blk / 4096 % 2 ^ 18 = blk / 4096 % 2 ^ 18 ∧ k.way = v) →
              exec (.cacheLayerFill die r.pa h) s = .next { s with hbm := s.hbm ++ [⟨stackOf r.pa, blk, w, [memKey r.pa / 256 % 16], [], die, h⟩] })
  -- TheMeshMovesFlits
  ∧ (
    ∀ (s s₁ : State) (k : CoreId) (f : Flit) (r : DReq), s₁ = { s with flits := s.flits.map (Flit.settle s.time) } → f ∉ s₁.flits.erase f →
      s.dreqs.find? (fun q => q.id == f.req) = some r →
      (∀ e ∈ ([(1, k - 20, 3), (2, k + 1, 4), (3, k + 20, 1), (4, k - 1, 2)] : List (Nat × Nat × Nat)), s.dead = [] → s₁.competing k e.1 = [f] →
        (s.arb k e.1).last ≠ some s.time → ∀ on : Bool, on = (f.hops + 1 < 8 && e.2.1 != f.dst && meshPort e.2.1 f.dst == e.1 && dieOf k == dieOf e.2.1 && !seamPort e.2.1 e.1) →
          ∃ t, exec (.meshArbitration k e.1) s = .next t ∧ t = { s with flits := t.flits, ports := t.ports }
            ∧ t.flits = s₁.flits.erase f
              ++ [{ f with at_ := e.2.1, inp := e.2.2, since := s.time, hops := if on then f.hops + 1 else 0, age := if on then f.age else 0 }])
      ∧ (s₁.competing k 0 = [f] → (s.arb k 0).last ≠ some s.time → f.resp = true → ∃ t, exec (.meshArbitration k 0) s = .next t ∧ t.flits = s₁.flits.erase f
          ∧ t.dreqs = updFirst (fun q => q.id == r.id) (fun q => { q with stage := .done }) s.dreqs ∧ t.mem = s.mem)
      ∧ (s₁.competing k 0 = [f] → (s.arb k 0).last ≠ some s.time → f.resp = false → s.performCore r = k → ∃ t, exec (.meshArbitration k 0) s = .next t
          ∧ t.flits = s₁.flits.erase f ∧ t.dreqs = updFirst (fun q => q.id == r.id) (fun q => { q with stage := .home }) s.dreqs ∧ t.mem = s.mem))

/-- R328, R329: a packet taken in starts once every packet taken in before it has started, and, with FEN, once no earlier packet of its source is left; a
local submission that is next in the rotation enters the engine's list. R329, R330, R332, R336, R337: a started COPY, COPY2D, COPY4D, FILL, GATHER or
SCATTER that has read nothing and whose every access passes its checks makes them in loop order, and its work is done: the bytes read are written, and
bytes that are source and destination are lost; a GATHER and a SCATTER read their indices first. A move between two disjoint places of device memory
writes the bytes it read. What the accesses do to the caches changes no memory. The accesses of a packet may also come one by one, in any order that
these rules leave (the model's choice of moves, log 46): a read keeps its bytes and changes no memory, and once every element has been read, the write
of one whose bytes no source and no earlier unwritten element shares writes the bytes kept. R332, R362: a copy or a fill that meets a refused access
ends its work with that access's fault. R332, R334, R433, R434: a CADD has no access of its own; a SIGNAL of the system tenant writes a record of type
9 into the PF ring, one of another tenant into its VF ring, at the place that the ring's translation gives, with the vector that it names; a ring
without room takes no record; a translation that the core's TLBs hold without write permission faults the packet. The model's own choices or readings
in this: log 45, 48 (the bytes that a faulted packet has written, and the record of its fault). -/
def Obligations.EnginesRunTheirPackets : Prop :=
  -- PacketsEnterAndStart
  (
    (∀ (s : State) (core : CoreId) (i : Nat) (p : Pkt), s.pkt? core i = some p → p.stage = 0 → (∀ q ∈ (s.core core).pkts.take i, q.stage ≠ 0) →
      ((pk64 p.body 0).getLsbD 8 = false ∨ ∀ q ∈ (s.core core).pkts.take i, q.sameSrc p = false) →
        ∃ t, exec (.cePacketStart core i) s = .next t ∧ t.pkt? core i = some { p with stage := 1, since := s.time }
          ∧ (∀ j, j ≠ i → t.pkt? core j = s.pkt? core j) ∧ t = s.setCore core { s.core core with pkts := (t.core core).pkts })
    ∧ ∀ (s : State) (core : CoreId) (k : Nat) (e : Sub), k < 4 → (s.core core).ceLast = (k + 7) % 8 → (s.core core).pkts.length < 8 →
        (s.core core).subs.find? (fun e => e.ctx == 4 * core + k) = some e →
        (∀ l m, s.leases.get? (s.ctx (4 * core + k)).lease = some l → l.moving = some m → m.step < 3) →
          ∃ t, exec (.cePacketIntake core) s = .next t ∧ (t.core core).subs = (s.core core).subs.erase e ∧ (t.core core).ceLast = k
            ∧ (t.core core).pkts = (s.core core).pkts ++ [⟨s.pktN, .local none, 4 * core + k, e.lsn, e.seq, e.body, 0, none, none, [], [], 0, [], none⟩]
            ∧ (∀ c, t.ctx c = s.ctx c) ∧ t.mem = s.mem)
  -- EnginesMoveTheirBytes
  ∧ (
    (∀ (s : State) (core : CoreId) (i : Nat) (p : Pkt) (w : Who) (o : CeOwner), s.pkt? core i = some p → p.stage = 1 → w = p.who s core →
      o = s.owner p.ctx → p.got = [] → p.index = none →
      (∀ us l, us = copyUnits p.body → List.Forall₂ (s.UnitGood w o o) us l → pkPull p.body = false →
        ∀ e ∈ ([(.ceCopy core i, 1), (.ceCopy2d core i, 2), (.ceCopy4d core i, 3), (.ceFill core i, 4)] : List (Instr × Nat)), pkType p.body = e.2 →
          exec e.1 s = .next (((s.ceReach w o o (us.zip l)).ceWrite o o [] (goodSrcs l) l).putPkt core i
            { p with stage := 2, pages := if (pk64 p.body 0).getLsbD 9 then writtenPages us else [] }))
      ∧ ∀ (idx : List (Place × List Byte)) s' us l, idx.length = pk p.body 0x28 4 → (∀ (n : Nat) q, idx[n]? = some q →
          s.SrcOk w o o ((ceAddr (pk64 p.body 0x10)).plus (4 * n)) 4 q.1 q.2) →
          s' = s.ceNote core p (idx.map (fun q => (4, q.1))) → us = rowUnits p.body (idx.map (fun q => some (w32 q.2))) →
          List.Forall₂ (s'.UnitGood w o o) us l →
          ∀ e ∈ ([(.ceGather core i, 5), (.ceScatter core i, 6)] : List (Instr × Nat)), pkType p.body = e.2 →
            exec e.1 s = .next (((s'.ceReach w o o (us.zip l)).ceWrite o o (idx.map (fun q => (4, q.1))) (goodSrcs l) l).putPkt core i
              { p with stage := 2, pages := if (pk64 p.body 0).getLsbD 9 then writtenPages us else [] }))
    ∧ (∀ (s : State) (o : CeOwner) (a b : Nat), s.mem.wf = true → memKey b + 4 ≤ 2 ^ 40 → a + 4 ≤ b ∨ b + 4 ≤ a →
        s.DevWritten (s.ceWrite o o [] [(4, .mem a)] [⟨some (.mem a), s.devBytes a 4, .mem b⟩]) b (s.devBytes a 4))
    ∧ (∀ (s : State) (c : CtxId) (a b : Nat) (asid ten : Nat), a + 4 ≤ b ∨ b + 4 ≤ a →
        s.ceWrite ⟨c, asid, ten⟩ ⟨c, asid, ten⟩ [] [(4, .spad a)] [⟨some (.spad a), s.spadBytes c a 4, .spad b⟩] = s.spadWrite c b (s.spadBytes c a 4))
    ∧ (∀ (s : State) (w : Who) (rd wr : CeOwner) (us : List (CeUnit × CeGood)), (s.ceReach w rd wr us).mem = s.mem)
    ∧ ∀ (s : State) (core : CoreId) (i n : Nat) (p : Pkt) (rd : CeOwner) (idx : List (Nat × Place)) (us : List CeUnit) (u : CeUnit), s.pkt? core i = some p →
        s.pktWork p = some (rd, idx, us) → p.notice = none → us[n]? = some u →
        (∀ a q bs, p.got.get? n = none → u.src = some a → s.SrcOk (p.who s core) rd (s.owner p.ctx) a u.n q bs →
          (s.ceReadAt core i n).pkt? core i = some { p with got := p.got.set n ⟨some q, bs, false⟩ } ∧ (s.ceReadAt core i n).mem = s.mem
            ∧ ∀ k, ((s.ceReadAt core i n).core k).sram = (s.core k).sram)
        ∧ ∀ d pa, p.got.get? n = some d → d.done = false → d.bs.length = u.n → (∀ m, m < us.length → p.got.get? m ≠ none) →
            s.PlaceOk (p.who s core) (s.owner p.ctx).ctx (s.owner p.ctx).asid (s.owner p.ctx).ten u.dst u.n ⟨false, true⟩ (.mem pa) →
            (∀ m v, m < n → us[m]? = some v → v.dst.dev = u.dst.dev → v.dst.a < u.dst.a + u.n → u.dst.a < v.dst.a + v.n →
              ∃ e, p.got.get? m = some e ∧ e.done = true) →
            (∀ q ∈ p.read ++ idx, q.2.meets q.1 u.n true (.mem pa) = false) → s.mem.wf = true → memKey pa + u.n ≤ 2 ^ 40 →
              s.DevWritten (s.ceWriteAt core i n) pa d.bs ∧ (s.ceWriteAt core i n).pkt? core i = some { p with got := p.got.set n { d with done := true } })
  -- FaultedCopiesKeepTheirFault
  ∧ (
    ∀ (s s' : State) (core : CoreId) (i : Nat) (p : Pkt) (f : PFault), s.pkt? core i = some p → p.stage = 1 → pkPull p.body = false → p.got = [] →
      s.ceRun (p.who s core) (s.owner p.ctx) (s.owner p.ctx) (copyUnits p.body) = .bad s' f →
        ∀ e ∈ ([(.ceCopy core i, 1), (.ceCopy2d core i, 2), (.ceCopy4d core i, 3), (.ceFill core i, 4)] : List (Instr × Nat)), pkType p.body = e.2 →
          ∃ t, exec e.1 s = .next t ∧ t.pkt? core i = some { p with stage := 2, fault := some f })
  -- CaddAndSignalDoTheirWork
  ∧ (
    ∀ (s : State) (core : CoreId) (i : Nat) (p : Pkt), s.pkt? core i = some p → p.stage = 1 →
      (pkType p.body = 8 → exec (.ceCadd core i) s = .next (s.putPkt core i { p with stage := 2 }))
      ∧ ∀ (ten : Nat) (q : Pkt), pkType p.body = 0x0B → ten = (s.ctx p.ctx).ten.toNat → q = { p with stage := 2, fault := none } →
          (ten = 0 → exec (.ceSignal core i) s = .next ((s.pfEvent 9 0 (s.ctx p.ctx).lease 0 0 core (p.ctx % 4) (pk64 p.body 0x10)).putPkt core i q))
          ∧ (ten ≠ 0 → s.vfRoom ten = false → exec (.ceSignal core i) s = .next (s.putPkt core i q))
          ∧ ∀ e, ten ≠ 0 → s.vfRoom ten = true → s.vfSlot ten < 2 ^ 56 → s.tlbHit core 0 (s.apAsid ten) (s.vfSlot ten) = some e →
              (e.wr = false → ∃ t, exec (.ceSignal core i) s = .next t ∧ t.mem = s.mem
                ∧ ∃ f, f.cls = 0x14 ∧ f.cause = 4 ∧ t.pkt? core i = some { p with stage := 2, fault := some f })
              ∧ ∀ pa, e.wr = true → s.xlate numCores 0 (s.apAsid ten) (s.vfSlot ten) ⟨false, true⟩ true = .ok pa → s.isLocal pa = true → s.ownerTen pa = ten →
                exec (.ceSignal core i) s = .next ((s.vfRecord ten (pk p.body 0x18 1) pa
                  (eventRecord s 9 ten (s.ctx p.ctx).lease 0 0 core (p.ctx % 4) (pk64 p.body 0x10))).putPkt core i q))

/-- R338, R349: an MCAST sends one notice to the context at each position of its rectangle but its own, and waits for their acknowledgements; with no
receiver its work is done. R338, R339, R380: a notice that no earlier one of its engine holds back enters the kick FIFO of a live receiver of its
tenant with room; a full FIFO returns it, and 64 cycles later it is sent again; an absent receiver faults its MCAST with COPY_FAULT's own cause 1, and
the drop is recorded at the receiving core; the last acknowledgement of an MCAST ends its work. R339, R342, R360, R394, R446: a PULL takes the oldest
notice that its word matches, which drops the near cache of its context, copies from the notice's source with the sender's rights the bytes that no
receiver has read, gives those that one has, and acknowledges; a notice whose sender has left its scratchpad faults it; a packet with an address in
another package that does not answer within 1,048,576 cycles, or whose link is down, faults with class 0x20 and that address, and the destination page
of a COPY with REL = 1, the pull of a page, is lost. R330 to R332: a packet of an instruction whose work is done, with no counter or with a fault,
leaves the engine, is counted out of CNT.CP, and leaves its fault to the covering WAIT; the requesters parked on the pages that it has released go on;
one with a counter word adds 1 to it, or, a CADD, its amount; one of the fabric closes its done token. ce.done closes EOS when nothing more can come. -/
def Obligations.NoticesAndCompletionsOfPackets : Prop :=
  -- McastSendsItsNotices
  (
    ∀ (s : State) (core : CoreId) (i : Nat) (p : Pkt) (b : List Byte) (tgts : List CtxId), s.pkt? core i = some p → p.stage = 1 → b = p.body → pkType b = 7 →
      tgts = (((List.range (pk b 0x23 1)).map (fun dy => (List.range (pk b 0x22 1)).map (fun dx => (pk b 0x20 1 + dx, pk b 0x21 1 + dy)))).flatten.filterMap
        (fun q => (s.leaseFor p.ctx).at? q)).filter (· != p.ctx) →
        ∃ t, exec (.ceMcast core i) s = .next t ∧ t.pkt? core i = some { p with stage := if tgts = [] then 2 else 3, acks := tgts }
          ∧ t.kickMsgs = s.kickMsgs ++ tgts.map (fun c => ⟨⟨p.num, p.ctx, (s.ctx p.ctx).ten.toNat, (s.ctx p.ctx).asid.toNat, (s.ctx p.ctx).lx.toNat,
              (s.ctx p.ctx).ly.toNat, pk b 0x1C 1, pk b 0x18 4, pk64 b 0x10, false⟩, c, none⟩)
          ∧ (∀ c, t.ctx c = s.ctx c) ∧ t.mem = s.mem)
  -- NoticesArriveOrReturn
  ∧ (
    (∀ (s : State) (i : Nat) (m : KickMsg), s.kickMsgs[i]? = some m → m.back = none → s.kickBlocked i = false → s.acnHeld (s.ctx m.dest).lease = false →
      s.dead = [] →
      ((s.ctx m.dest).st ≠ .empty → (s.ctx m.dest).ten.toNat = m.kick.ten →
        ((s.ctx m.dest).kicks.length < 16 → exec (.kickNoticeArrive i) s
          = .next { s.setCtx m.dest { s.ctx m.dest with kicks := (s.ctx m.dest).kicks ++ [m.kick] } with kickMsgs := s.kickMsgs.eraseIdx i })
        ∧ ((s.ctx m.dest).kicks.length ≥ 16 → ∃ t, exec (.kickNoticeArrive i) s = .next t ∧ t = { s with kickMsgs := t.kickMsgs }
          ∧ t.kickMsgs[i]? = some { m with back := some s.time } ∧ ∀ j, j ≠ i → t.kickMsgs[j]? = s.kickMsgs[j]?))
      ∧ ((s.ctx m.dest).st = .empty → ∀ (core : CoreId) (j : Nat) (p : Pkt), s.pkt? core j = some p → p.num = m.kick.pkt → p.stage = 3 →
          (∀ q ∈ (s.core core).pkts.take j, q.num ≠ m.kick.pkt) →
            ∃ t, exec (.kickNoticeArrive i) s = .next t ∧ t.kickMsgs = s.kickMsgs.eraseIdx i
              ∧ (coreOf m.dest < numCores → t.mg = (({ s with kickMsgs := s.kickMsgs.eraseIdx i } : State).fwDrop m.kick.ten (m.dest % 4) (coreOf m.dest) 0 1 0).mg)
              ∧ t.pkt? core j = some { p with stage := 2, acks := [], fault := some ⟨0, 1, 0, m.kick.src⟩ }))
    ∧ (∀ (s : State) (i t0 : Nat) (m : KickMsg), s.kickMsgs[i]? = some m → m.back = some t0 → s.time ≥ t0 + 64 →
        ∃ t, exec (.kickNoticeResend i) s = .next t ∧ t = { s with kickMsgs := t.kickMsgs } ∧ t.kickMsgs[i]? = some { m with back := none })
    ∧ ∀ (s : State) (core : CoreId) (i j : Nat) (a : PullAck) (p : Pkt), s.pullAcks[i]? = some a → s.pkt? core j = some p → p.num = a.pkt → p.stage = 3 →
        s.dead = [] → (∀ q ∈ (s.core core).pkts.take j, q.num ≠ a.pkt) →
          ∃ t, exec (.pullAck i) s = .next t ∧ t.pullAcks = s.pullAcks.eraseIdx i
            ∧ t.pkt? core j = some { p with acks := p.acks.erase a.fr, stage := if p.acks.erase a.fr = [] then 2 else 3 } ∧ ∀ c, t.ctx c = s.ctx c)
  -- PullsTakeTheirNotice
  ∧ (
    (∀ (s s' : State) (core : CoreId) (i : Nat) (p : Pkt) (k : Kick) (rest : List Kick), s.pkt? core i = some p → p.stage = 1 → pkType p.body = 1 →
      pkPull p.body = true → p.notice = none → p.fault = none → p.got = [] → matchKick (pk64 p.body 0x10) (s.ctx p.ctx).kicks = some (k, rest) →
      s' = s.setCtx p.ctx { s.ctx p.ctx with kicks := rest, near := [] } →
      (k.gone = true → k.src.getLsbD 63 = false →
        exec (.cePull core i) s = .next (s'.putPkt core i { p with stage := 2, notice := some k, fault := some ⟨0, 1, 0, k.src⟩ }))
      ∧ (k.gone = false ∨ k.src.getLsbD 63 = true → ∀ us l got rd wr X, got = (s.mcasts.get? k.pkt).getD [] →
          us = giveBytes got (pullUnits p.body k.src (min (pk p.body 0x20 4) k.len)) → rd = ⟨k.fr, k.asid, k.ten⟩ → wr = s.owner p.ctx →
          List.Forall₂ (s'.UnitGood (p.who s core) rd wr) us l → X = (s'.ceReach (p.who s core) rd wr (us.zip l)).ceWrite rd wr [] (goodSrcs l) l →
            ∃ t, exec (.cePull core i) s = .next t ∧ t.mem = X.mem
              ∧ t.pkt? core i = some { p with stage := 2, notice := some k, pages := if (pk64 p.body 0).getLsbD 9 then writtenPages us else [] }
              ∧ t.pullAcks = s.pullAcks ++ [⟨k.pkt, p.ctx⟩]
              ∧ t.mcasts = (if got.length < (l.map (·.bs)).flatten.length then s.mcasts.set k.pkt (l.map (·.bs)).flatten else s.mcasts)))
    ∧ ∀ (s : State) (core : CoreId) (i : Nat) (p q : Pkt) (a : W64), s.pkt? core i = some p → p.stage = 1 → pkPull p.body = false →
        s.time ≥ p.since + 1048576 ∨ (∃ e ∈ s.jex, e.2 = 2) → s.farWord (p.who s core) (s.owner p.ctx) p.body = some a →
        q = { p with stage := 2, fault := some ⟨0x20, 0, 0, a⟩ } →
          (a ∈ pktWords p.body ∧ a.getLsbD 63 = true)
          ∧ (pkType p.body ≠ 1 ∨ (pk64 p.body 0).getLsbD 9 = false → exec (.remoteReadTimeout core i) s = .next (s.putPkt core i q))
          ∧ (pkType p.body = 1 → (pk64 p.body 0).getLsbD 9 = true →
            (∀ pa b, s.PlaceOk (p.who s core) p.ctx (s.owner p.ctx).asid (s.owner p.ctx).ten (ceAddr (pk64 p.body 0x18)) 4 ⟨false, true⟩ (.mem pa) →
              b = memKey pa / 2 ^ 17 * 2 ^ 17 →
              exec (.remoteReadTimeout core i) s
                = .next (({ s with lost := (b, b + 2 ^ 17, 0) :: cutRange b (b + 2 ^ 17) s.lost }.breakRange b (2 ^ 17)).putPkt core i q))
            ∧ ∀ b, s.PlaceOk (p.who s core) p.ctx (s.owner p.ctx).asid (s.owner p.ctx).ten (ceAddr (pk64 p.body 0x18)) 4 ⟨false, true⟩ (.spad b) →
              exec (.remoteReadTimeout core i) s = .next (s.putPkt core i q)))
  -- PacketsCompleteAndReport
  ∧ (
    (∀ (s : State) (core : CoreId) (i : Nat) (p : Pkt), s.pkt? core i = some p → p.stage = 2 →
      (p.src = .local none → pkCA p.body = 0 ∨ p.fault.isSome = true → ∃ t, exec (.cePacketComplete core i) s = .next t
        ∧ (t.core core).pkts = (s.core core).pkts.eraseIdx i ∧ t.ctx p.ctx = (s.ctx p.ctx).cpDone p.seq p.fault ∧ t.mem = s.mem
        ∧ t.mcasts = s.mcasts.erase p.num ∧ (∀ c, c ≠ p.ctx → t.ctx c = s.ctx c)
        ∧ (p.fault = none → ∀ v ∈ p.pages, ∀ die, ∀ w ∈ (t.die die).replay, walkCovers 0 (s.ctx p.ctx).asid.toNat v w = true → w.go = true))
      ∧ (p.src = .local none → pkCA p.body ≠ 0 → p.fault = none → ∀ amt : W64, amt = (if pkType p.body = 8 then pk64 p.body 0x10 else 1) →
          (∀ a, s.PlaceOk (p.who s core) p.ctx (s.owner p.ctx).asid (s.owner p.ctx).ten (ceAddr (pkCA p.body)) 8 ⟨true, true⟩ (.spad a) → p.pages = [] →
            ∃ t, exec (.cePacketComplete core i) s = .next t ∧ (t.core core).pkts = (s.core core).pkts.eraseIdx i
              ∧ (t.core (coreOf p.ctx)).sram
                = ((s.spadWrite p.ctx a (toBytes 8 (w64 (s.spadBytes p.ctx a 8) + amt).toNat)).core (coreOf p.ctx)).sram
              ∧ t.ctx p.ctx = (s.ctx p.ctx).cpDone p.seq none)
          ∧ ∀ pa, s.PlaceOk (p.who s core) p.ctx (s.owner p.ctx).asid (s.owner p.ctx).ten (ceAddr (pkCA p.body)) 8 ⟨true, true⟩ (.mem pa) → p.pages = [] →
            s.mem.wf = true → memKey pa + 8 ≤ 2 ^ 40 → ∃ t, exec (.cePacketComplete core i) s = .next t
              ∧ (t.core core).pkts = (s.core core).pkts.eraseIdx i ∧ s.DevWritten t pa (toBytes 8 (s.dev64 pa + amt).toNat))
      ∧ ∀ n q, p.src = .local (some n) → pkCA p.body = 0 ∨ p.fault.isSome = true → (s.ctx p.ctx).openPort 54 = some q → (s.ctx p.ctx).fab.held = false →
          (s.ctx p.ctx).fab.canClose (.port 54) 1 = true → ∃ t, exec (.cePacketComplete core i) s = .next t
            ∧ (t.core core).pkts = (s.core core).pkts.eraseIdx i ∧ t.mem = s.mem
            ∧ t.ctx p.ctx = { s.ctx p.ctx with fab := (s.ctx p.ctx).fab.close (.port 54) ((s.ctx p.ctx).packet
                [BitVec.ofNat 32 ((if p.fault.isSome then 1 else 0) * 2 ^ 30 + p.lsn % 2 ^ 30)] 0 0 false) }.cpDone p.seq p.fault)
    ∧ ∀ (s : State) (c : CtxId) (q : Port), (s.ctx c).openPort 54 = some q → (s.ctx c).fab.held = false → (s.ctx c).fab.routed (.port 54) = true →
        (s.ctx c).fab.canClose (.port 54) 1 = true → (∀ p, (s.ctx c).fab.port? 53 = some p → (s.ctx c).fab.branchTo (.port 53) = none ∨ p.part.eosOut = true) →
        (∀ e ∈ (s.ctx c).fab.cells, wOp e.2.word = 0x71 → e.2.done = true) → (∀ e ∈ (s.core (coreOf c)).ceCmds, e.ctx ≠ c) →
        (∀ p ∈ (s.core (coreOf c)).pkts, p.ctx = c → ∀ n, p.src ≠ .local (some n)) →
          exec (.ceDoneEos c) s = .next (s.setCtx c { s.ctx c with
            fab := ((s.ctx c).fab.setPort 54 { q with eos := true }).close (.port 54) ((s.ctx c).packet [] 2 0 false) }))

/-- R331, R348, R349, R443: CQ.SUB with a = 0 submits the valid packet at its operand, and CQ.KICK the MCAST of its operands: g[d] takes the submission
number, which rises, and CNT.CP counts one more; an invalid packet raises CE_PACKET; CQ.SUB to a queue waits, claims the next index, and, with room,
sends the packet with that index to its slot; g[d] takes the index when the write has been made. R261, R344, R345, R360, R364, R367: the distributor
takes the ready slot at a launch queue's RDIDX as its head, with its arrival cycle, which is the cycle in which the last write that changed the slot's
TYPE or SEQ took effect at its home; a copy engine takes that of its queue in the rotation, which drops the near cache of its context; an error of a
queue is written to its control line with STATE ERROR, or, where the line cannot be written, holds the queue; STATE 0 restarts it. The model's own
choices or readings in this: log 50 (one step claims, a later one writes the slot); log 52, 134 (the arrival cycle of a slot, and the order during a
replay). -/
def Obligations.SubmissionsAndQueues : Prop :=
  -- SubmissionWords
  (
    (∀ (s : State) (g : Guard) (d a b : BitVec 5), s.self.guard g = true → s.self.cntLd = 0 → s.self.cntSt = 0 →
      (s.self.pends d = false → s.self.cntCp < 31 → s.self.reg a = 0 → s.self.zeroing (s.self.reg b).toNat 64 = false →
        s.spadFault s.cur (s.self.reg b) 64 64 unitSeq = none → s.spadEcc s.cur (s.self.reg b).toNat 64 false = none →
        (pkCause false false (some (s.self.lw.toNat, s.self.lh.toNat)) (s.spadBytes s.cur (s.self.reg b).toNat 64) = none →
          ∃ t, exec (.cqSub g d a b) s = .next t ∧ t.self = (s.self.submit.setReg d (s.self.lsn.setWidth 64)).advance
            ∧ s.self.submit.lsn = s.self.lsn + 1 ∧ t.self.cntCp = s.self.cntCp + 1 ∧ t.mem = s.mem ∧ (t.core (coreOf s.cur)).subs = (s.core (coreOf s.cur)).subs ++
              [⟨s.cur, s.self.lsn.toNat, s.self.cpN, s.spadBytes s.cur (s.self.reg b).toNat 64⟩])
        ∧ ∀ k, pkCause false false (some (s.self.lw.toNat, s.self.lh.toNat)) (s.spadBytes s.cur (s.self.reg b).toNat 64) = some k →
          exec (.cqSub g d a b) s = .next (s.raise s.cur ⟨0x18, s.self.reg b, BitVec.ofNat 16 k⟩))
      ∧ (s.self.cntCp < 31 → bits (s.self.reg a) 46 32 = 0 →
          pkCause false false (some (s.self.lw.toNat, s.self.lh.toNat)) (kickPacket (s.self.reg a) (s.self.reg b)) = none →
          ∃ t, exec (.cqKick g a b) s = .next t ∧ t.self = s.self.submit.advance
            ∧ (t.core (coreOf s.cur)).subs = (s.core (coreOf s.cur)).subs ++ [⟨s.cur, s.self.lsn.toNat, s.self.cpN, kickPacket (s.self.reg a) (s.self.reg b)⟩])
      ∧ ∀ pa, s.self.pends d = false → s.self.reg a ≠ 0 → s.self.zeroing (s.self.reg b).toNat 64 = false →
          s.spadFault s.cur (s.self.reg b) 64 64 unitSeq = none → s.spadEcc s.cur (s.self.reg b).toNat 64 false = none →
          (s.self.reg a).getLsbD 63 = true → s.DevAny s.cur (s.self.reg a) 64 62 ⟨true, true⟩ pa →
            (s.self.det = false ∨ d = 0 → exec (.cqSub g d a b) s = .next (s.withSelf { s.self with st := .waiting, wait := some (.cqSub d none) }))
            ∧ (s.self.det = true → d ≠ 0 → exec (.cqSub g d a b) s = .next (s.raise s.cur (detOrder (.cqSub g d a b)))))
    ∧ ∀ (s : State) (c : CtxId) (g : Guard) (d a b : BitVec 5) (line : Nat), (s.ctx c).st = .waiting → (s.ctx c).raised = [] → (s.ctx c).gated = false →
        (s.ctx c).fetch = .ok (.cqSub g d a b) → s.mem.wf = true → line % 64 = 0 →
        s.EngOk (.ctx c) (dieOf (coreOf c)) (some (dieOf (coreOf c))) (s.ctx c).asid.toNat (s.ctx c).ten.toNat (bits ((s.ctx c).reg a) 55 0) 64 ⟨true, true⟩ line →
          ((s.ctx c).wait = some (.cqSub d none) → ∃ t, exec (.waitSatisfied c) s = .next t ∧ s.DevWritten t line (toBytes 8 (s.dev64 line + 1).toNat)
            ∧ (t.ctx c).wait = some (.cqSub d (some (s.dev64 line).toNat)))
          ∧ ∀ idx size pa, (s.ctx c).wait = some (.cqSub d (some idx)) → (∀ r ∈ s.dreqs, r.id ≠ s.dreqN) → size = 2 ^ (bits (s.dev64 (line + 16)) 3 0 + 4) →
              idx < (s.dev64 (line + 8)).toNat + size →
              s.EngOk (.ctx c) (dieOf (coreOf c)) (some (dieOf (coreOf c))) (s.ctx c).asid.toNat (s.ctx c).ten.toNat
                (bits (s.dev64 (line + 16)) 55 6 * 64 + 64 * (idx % size)) 64 ⟨false, true⟩ pa →
                ∃ t, exec (.waitSatisfied c) s = .next t ∧ (t.ctx c).st = .ready ∧ (t.ctx c).wait = none ∧ (t.ctx c).ipc = (s.ctx c).ipc + 4
                  ∧ (t.ctx c).g = (s.ctx c).g
                  ∧ (t.ctx c).ops.getLast? = some ⟨(s.ctx c).opN, true, d, .dev s.dreqN, false, (s.ctx c).ipc, none⟩
                  ∧ (t.dreqs.getLast?).map (fun r => (r.id, r.pa, r.res, r.kind)) = some (s.dreqN, pa, BitVec.ofNat 64 idx, .write (toBytes 8 ((pk64 (s.spadBytes c ((s.ctx c).reg b).toNat 64) 0).toNat
                      % 2 ^ 48 + idx % 65536 * 2 ^ 48) ++ (s.spadBytes c ((s.ctx c).reg b).toNat 64).drop 8)))
  -- QueuesServeTheirSlots
  ∧ (
    (∀ (s : State) (pa : Nat) (bs : List Byte) (br : Bool), (s.poke pa bs).hdrAt (memKey pa) ≠ s.hdrAt (memKey pa) →
      (s.homeWrite pa bs br).hdrs.get? (memKey pa / 64) = some s.time)
    ∧ (∀ (s : State) (q idx line seen : Nat) (b : List Byte), s.qPeek q = .ready idx b line seen →
      ∃ pa, b = s.devBytes pa 64 ∧ seen = (s.hdrs.get? (memKey pa / 64)).getD 0)
    ∧ (∀ (s : State) (q idx line seen : Nat) (b : List Byte), s.SlotReady q idx b line seen →
      (q < 64 → (s.qState q).head = none → bits (s.mgv (0x8260 + s.qTen q)) 1 0 ≠ 1 →
        exec (.queueSlotTake q) s = .next { s with queues := s.queues.set q { s.qState q with head := some ⟨idx, b, seen, false, false, none, 0⟩ } })
      ∧ ∀ core, 64 ≤ q → core = (q - 64) / 4 → (s.core core).pkts.length < 8 → (s.core core).ceLast = 3 + q % 4 → (s.ctx (s.qCtx q)).st ≠ .empty →
          (s.ctx (s.qCtx q)).ten.toNat = s.qTen q →
          (∀ l m, s.leases.get? (s.ctx (s.qCtx q)).lease = some l → l.moving = some m → m.step < 3) → (s.mgv (0x80A0 + s.qTen q)).getLsbD 0 = false →
          (s.mgv (0x80A0 + s.qTen q)).getLsbD 1 = false →
          (pk64 b 0).getLsbD 11 = false → pkCause false false (some ((s.ctx (s.qCtx q)).lw.toNat, (s.ctx (s.qCtx q)).lh.toNat)) b = none →
          s.mem.wf = true → line % 64 = 0 →
            ∃ t, exec (.queueSlotTake q) s = .next t ∧ s.DevWritten t (line + 8) (toBytes 8 (idx + 1)) ∧ (t.core core).ceLast = 4 + q % 4 ∧ (t.ctx (s.qCtx q)).near = []
              ∧ (t.core core).pkts = (s.core core).pkts ++ [⟨s.pktN, .queue q idx, s.qCtx q, 0, 0, b, 0, none, none, [], [], 0, [], none⟩])
    ∧ (∀ (s : State) (q : Nat) (e : QErr), (s.qState q).pend = some e → (s.qState q).held = false → s.asidOk (s.qAsid q) (s.qTen q) = true →
        (e.line = false → exec (.queueError q) s = .next ({ s with queues := s.queues.set q { s.qState q with pend := none, held := true } }.event 2 (s.qTen q) 0
            e.fault.cls e.fault.detail (if q < 64 then 0 else (q - 64) / 4) 0 (BitVec.ofNat 64 (2 ^ 63 + s.qLine q))))
        ∧ ∀ line X Y, e.line = true → s.QOk q (s.qLine q) 64 ⟨false, true⟩ line → X = s.devWrite (line + 0x20) (toBytes 8 e.idx) →
            Y = (if e.hasAddr then X.devWrite (line + 0x28) (toBytes 8 e.fault.addr.toNat) else X.lose (line + 0x28) 8).devWrite (line + 0x18)
              (toBytes 8 (1 + e.fault.cls % 256 * 2 ^ 8 + e.fault.cause % 16 * 2 ^ 16)) →
            exec (.queueError q) s = .next ({ Y with queues := s.queues.set q { s.qState q with pend := none, err := true } }.event 2 (s.qTen q) 0
              e.fault.cls e.fault.detail (if q < 64 then 0 else (q - 64) / 4) 0 (BitVec.ofNat 64 (2 ^ 63 + s.qLine q))))
    ∧ ∀ (s : State) (q line : Nat), (s.qState q).err = true → (s.qState q).held = false → s.asidOk (s.qAsid q) (s.qTen q) = true →
        s.QOk q (s.qLine q) 64 ⟨true, true⟩ line → bits (s.dev64 (line + 24)) 7 0 = 0 →
        exec (.queueRestart q) s = .next { s with queues := s.queues.set q { s.qState q with err := false } })

/-- R327, R351, R353, R356, R357, R359, R362, R443: TASK.ARM on a good operand waits for the snapshot, and its context goes on when the block is armed;
TASK.KILL of an entry that is ARMED, READY or FAULTED frees it and its successors that are so, and waits for the walk's end, and of any other raises
TASK_STATE with cause 4; TASK.STAT returns an entry's status word, or reads the block's; a TASKARM packet arms its block. R352 to R356: arming a good
block that the walker does not hold enters its snapshot: READY with no predecessors, else ARMED with their number, and a FAULTED one again, READY; a
live entry is refused with cause 1, a full walker with cause 2, a malformed block with cause 3. R343, R351, R352, R354, R355, R358: a completed block
with one ARMED successor is DONE and leaves the walker, and the successor loses a predecessor, READY with its last; a faulted one keeps its fault; a
READY block is pushed, the earliest armed of its queue first: it claims its ready queue's WRIDX, waits for room, and its payload is written into the
slot with the index. The model's own choices or readings in this: log 49, 129 (the lease that a payload is checked against, and a kill after a claim). -/
def Obligations.TasksArmCompleteAndPush : Prop :=
  -- TaskWords
  (
    (∀ (s : State) (g : Guard) (d : BitVec 5) (pa va : Nat), s.self.guard g = true → (s.self.reg d).getLsbD 63 = true → va = (s.self.reg d).toNat % 2 ^ 56 →
      s.DevOk s.cur (s.self.reg d) 128 62 ⟨true, true⟩ pa →
        (s.self.cntLd = 0 → s.self.cntSt = 0 → exec (.taskArm g d) s = .next (s.withSelf { s.self with st := .waiting, wait := some (.task d false) }))
        ∧ (∀ b, s.blk? s.self.asid.toNat va = some b →
          (b.st = 1 ∨ b.st = 2 ∨ b.st = 5 → ∃ t, exec (.taskKill g d) s = .next t
            ∧ t.self = { s.self with st := .waiting, wait := some (.task d true) } ∧ t.blk? s.self.asid.toNat va = none
            ∧ (∀ v n, v ∈ tcbNext va b.snap → s.blk? s.self.asid.toNat v = some n → n.st = 1 ∨ n.st = 2 ∨ n.st = 5 → t.blk? s.self.asid.toNat v = none)
            ∧ ∀ e ∈ s.walker, e.asid ≠ s.self.asid.toNat → e ∈ t.walker)
          ∧ (b.st ≠ 1 → b.st ≠ 2 → b.st ≠ 5 → exec (.taskKill g d) s = .next (s.raise s.cur ⟨0x19, s.self.reg d, 4⟩)))
        ∧ (s.blk? s.self.asid.toNat va = none → exec (.taskKill g d) s = .next (s.raise s.cur ⟨0x19, s.self.reg d, 4⟩))
        ∧ (s.self.pends d = false → s.self.cntLd < 31 →
          (s.self.det = true → exec (.taskStat g d) s = .next (s.raise s.cur (detOrder (.taskStat g d))))
          ∧ (s.self.det = false → s.blk? s.self.asid.toNat va = none → ∃ t, exec (.taskStat g d) s = .next t
              ∧ (t.dreqs.getLast?).map (fun r => (r.pa, r.kind, r.stage)) = some (pa + 8, .cntRead, .out)
              ∧ t.self = (s.self.pushOp false d (.dev s.dreqN)).advance)
          ∧ ∀ b, s.self.det = false → s.blk? s.self.asid.toNat va = some b → ∃ t, exec (.taskStat g d) s = .next t
              ∧ (t.dreqs.getLast?).map (fun r => (r.res, r.stage)) = some (b.word, .done) ∧ t.self = (s.self.pushOp false d (.dev s.dreqN)).advance))
    ∧ (∀ (s : State) (c : CtxId) (d : BitVec 5), (s.ctx c).st = .waiting → (s.ctx c).raised = [] → (s.ctx c).gated = false →
        ((s.ctx c).wait = some (.task d true) → exec (.waitSatisfied c) s
          = .next (s.setCtx c { s.ctx c with st := .ready, wait := none, wake := s.time + 1 }.advance))
        ∧ ∀ asid ten va pa b, (s.ctx c).wait = some (.task d false) → asid = (s.ctx c).asid.toNat → ten = (s.ctx c).ten.toNat →
            va = bits ((s.ctx c).reg d) 55 0 → s.HubOk 201 asid ten va 128 ⟨true, true⟩ pa → s.blk? asid va = none → s.walker.length < 4096 →
            b = s.devBytes pa 128 → s.tcbBad asid b = false →
              ∃ t, exec (.waitSatisfied c) s = .next t ∧ t.ctx c = { s.ctx c with st := .ready, wait := none, wake := s.time + 1 }.advance
                ∧ t.blk? asid va = some ⟨asid, ten, va, s.time, b, if tcbPred b = 0 then 2 else 1, tcbPred b, false, none, none, none⟩)
    ∧ ∀ (s : State) (core : CoreId) (i : Nat) (p : Pkt) (asid ten va pa : Nat) (b : List Byte), s.pkt? core i = some p → p.stage = 1 → pkType p.body = 9 →
        asid = (s.ctx p.ctx).asid.toNat → ten = (s.ctx p.ctx).ten.toNat → va = bits (pk64 p.body 0x10) 55 0 → s.HubOk 201 asid ten va 128 ⟨true, true⟩ pa →
        s.blk? asid va = none → s.walker.length < 4096 → b = s.devBytes pa 128 → s.tcbBad asid b = false →
          ∃ t, exec (.ceTaskarm core i) s = .next t ∧ t.pkt? core i = some { p with stage := 2 }
            ∧ t.blk? asid va = some ⟨asid, ten, va, s.time, b, if tcbPred b = 0 then 2 else 1, tcbPred b, false, none, none, none⟩)
  -- ArmingEntersTheSnapshot
  ∧ (
    ∀ (s : State) (asid ten va pa : Nat) (b : List Byte), s.HubOk 201 asid ten va 128 ⟨true, true⟩ pa → b = s.devBytes pa 128 →
      (∀ e, s.blk? asid va = some e → e.st ≠ 5 → s.armBlock asid ten va = .state 1)
      ∧ (s.blk? asid va = none → s.walker.length ≥ 4096 → s.armBlock asid ten va = .state 2)
      ∧ (s.blk? asid va = none → s.walker.length < 4096 → s.tcbBad asid b = true → s.armBlock asid ten va = .state 3)
      ∧ (s.tcbBad asid b = false →
        (s.blk? asid va = none → s.walker.length < 4096 → ∃ t, s.armBlock asid ten va = .ok t
          ∧ t.blk? asid va = some ⟨asid, ten, va, s.time, b, if tcbPred b = 0 then 2 else 1, tcbPred b, false, none, none, none⟩)
        ∧ ∀ e, s.blk? asid va = some e → e.st = 5 → ∃ t, s.armBlock asid ten va = .ok t
          ∧ t.blk? asid va = some ⟨asid, ten, va, s.time, b, 2, 0, false, none, none, none⟩))
  -- TasksCompleteAndPush
  ∧ (
    (∀ (s : State) (i asid va v : Nat) (b n : TaskBlk), s.reports[i]? = some ⟨asid, va, none⟩ → s.blk? asid va = some b → b.st = 3 → tcbNext va b.snap = [v] →
      s.blk? asid v = some n → n.st = 1 → ∃ t, exec (.taskCompletionReport i) s = .next t ∧ t.reports = s.reports.eraseIdx i
        ∧ t.blk? asid v = some { n with rem := n.rem - 1, st := if n.rem ≤ 1 then 2 else 1 } ∧ t.blk? asid va = none)
    ∧ (∀ (s : State) (i asid va : Nat) (b : TaskBlk) (f : PFault), s.reports[i]? = some ⟨asid, va, some f⟩ → s.blk? asid va = some b → b.st = 3 →
        ∃ t, exec (.taskFaultReport i) s = .next t ∧ t.reports = s.reports.eraseIdx i ∧ t.blk? asid va = some { b with st := 5, fault := some f })
    ∧ ∀ (s s' : State) (i line idx size : Nat) (b : TaskBlk), s.walker[i]? = some b → s.blk? b.asid b.va = some b → b.st = 2 → b.slot = none →
        (∀ e ∈ s.walker, e.st = 2 → e.slot = none → e.asid = b.asid → tcbRQ e.snap = tcbRQ b.snap → b.arm < e.arm ∨ (b.arm = e.arm ∧ b.va ≤ e.va)) →
        s.HubOk 202 b.asid b.ten (tcbRQ b.snap) 64 ⟨true, true⟩ line → s.mem.wf = true → line % 64 = 0 → (idx, s') = s.taskClaim b line →
        size = 2 ^ (bits (s.dev64 (line + 16)) 3 0 + 4) →
          (b.claim = none → idx = (s.dev64 line).toNat ∧ s.DevWritten s' line (toBytes 8 (idx + 1)) ∧ s'.blk? b.asid b.va = some { b with claim := some idx })
          ∧ (b.claim ≠ none → b.claim = some idx ∧ s' = s)
          ∧ (idx ≥ (s.dev64 (line + 8)).toNat + size → exec (.taskPush i) s = .next s')
          ∧ ∀ pa, idx < (s.dev64 (line + 8)).toNat + size → pa % 64 = 0 →
              s'.HubOk 203 b.asid b.ten (bits (s.dev64 (line + 16)) 55 6 * 64 + 64 * (idx % size)) 64 ⟨false, true⟩ pa →
                ∃ t, exec (.taskPush i) s = .next t ∧ t.blk? b.asid b.va = some { b with claim := if b.claim = none then some idx else b.claim, slot := some idx }
                  ∧ s'.DevWritten t pa (toBytes 8 ((pk64 (tcbPayload b.snap) 0).toNat + 2 ^ 11 + idx % 65536 * 2 ^ 48) ++ (tcbPayload b.snap).drop 8))

/-- R391, R393, R410: a system gate request on a running context is noted with its first cycle; at an instruction boundary a request gates the context,
keeps every register, and counts its latency; the last source to ungate it ends the gate; on a STOPPED context the source alone is noted. R18, R25,
R394, R402, R410, R412: CTXC DESTROY of a STOPPED or gated context of no live lease empties it, and RELEASE one that is STOPPED and whose accesses
have ended (else it waits for them: the model's reading, log 116): no register, wait or load of it is left, and its banks read as zeros; DESTROY of a
running one asks for its gate first, which an ungating does not take back (the model's choice, log 115). A context of a started lease that ended
normally is released. The model's own choices or readings in this: log 85 (words may retire until the gate takes effect); log 62, 90 (what ends with
the context, and when its bank is free). -/
def Obligations.GatesAndDestroyedContexts : Prop :=
  -- GatesTakeEffectAtABoundary
  (
    ∀ (s : State) (c : CtxId),
      ((s.ctx c).st = .ready ∨ (s.ctx c).st = .waiting → (s.ctx c).gated = false → exec (.ctxcGate c) s = .next (s.setCtx c { s.ctx c with
          gateReq := (s.ctx c).gateReq ||| 1#4, gateAt := if (s.ctx c).gateReq = 0 then s.time else (s.ctx c).gateAt }))
      ∧ ((s.ctx c).st = .stopped → exec (.ctxcGate c) s = .next (s.setCtx c { s.ctx c with gsrc := (s.ctx c).gsrc ||| 1#4 }))
      ∧ ((s.ctx c).st = .ready ∨ (s.ctx c).st = .waiting → (s.ctx c).gateReq ≠ 0 → (s.ctx c).doom = false → ∃ t, exec (.contextGated c) s = .next t
        ∧ t.ctx c = { s.ctx c with gsrc := (s.ctx c).gsrc ||| (s.ctx c).gateReq, gateReq := 0, gateAt := s.time, gated := true }
        ∧ (∀ d, d ≠ c → t.ctx d = s.ctx d) ∧ t.mem = s.mem
        ∧ ∀ n, n = 0x7500 + min 15 ((s.time - (s.ctx c).gateAt) / 14) → t.mgv n = s.mgv n + 1)
      ∧ ((s.ctx c).st = .stopped → (s.ctx c).gateReq ≠ 0 → (s.ctx c).doom = false → ∃ t, exec (.contextGated c) s = .next t ∧ t.mg = s.mg
        ∧ t.ctx c = { s.ctx c with gsrc := (s.ctx c).gsrc ||| (s.ctx c).gateReq, gateReq := 0, gateAt := s.time, gated := false })
      ∧ ((s.ctx c).raised = [] → (s.ctx c).doom = false → ∃ t, exec (.ctxcUngate c) s = .next t ∧ t.mem = s.mem
        ∧ t.ctx c = { s.ctx c with gsrc := (s.ctx c).gsrc &&& 14#4, gateReq := (s.ctx c).gateReq &&& 14#4
                                   gated := (s.ctx c).gated && (s.ctx c).gsrc &&& 14#4 != 0 } ∧ ∀ d, d ≠ c → t.ctx d = s.ctx d))
  -- DestroyedContextsAreEmpty
  ∧ (
    ∀ (s : State) (c : CtxId),
      (s.leases.get? (s.ctx c).lease = none →
        ((s.ctx c).st = .stopped ∨ ((s.ctx c).st ≠ .empty ∧ (s.ctx c).gated = true) → ∃ t, exec (.ctxcDestroy c) s = .next t ∧ t.ctx c = Ctx.blank
          ∧ ∀ b ∈ (s.ctx c).banks, ∀ i, i < 2 ^ 17 → (t.core (coreOf c)).sram.get (b.bank * 2 ^ 17 + i) = 0)
        ∧ ((s.ctx c).st = .stopped → s.settled c = true → ∃ t, exec (.ctxcRelease c) s = .next t ∧ t.ctx c = Ctx.blank
          ∧ ∀ b ∈ (s.ctx c).banks, ∀ i, i < 2 ^ 17 → (t.core (coreOf c)).sram.get (b.bank * 2 ^ 17 + i) = 0))
      ∧ ((s.ctx c).st = .ready ∨ (s.ctx c).st = .waiting → (s.ctx c).gated = false → ∃ t, exec (.ctxcDestroy c) s = .next t ∧ s.OnlyCtx t c
        ∧ (t.ctx c).doom = true ∧ (t.ctx c).gateReq = (s.ctx c).gateReq ||| 1#4 ∧ (t.ctx c).g = (s.ctx c).g)
      ∧ ((s.ctx c).st = .stopped → s.settled c = false → exec (.ctxcRelease c) s = .next (s.setCtx c { s.ctx c with leaving := true }))
      ∧ ((s.ctx c).leaving = true → exec (.contextRelease c) s = .next (if s.settled c then s.releaseCtx c else s))
      ∧ ((s.ctx c).doom = true → (s.ctx c).raised = [] → ∃ t, exec (.ctxcUngate c) s = .next t ∧ (t.ctx c).gateReq = (s.ctx c).gateReq)
      ∧ ∀ l, s.leases.get? (s.ctx c).lease = some l → (s.ctx c).lease ≠ 0 → l.started = true → (s.ctx c).st = .stopped → (s.ctx c).leaving = false →
          (s.ctx c).stop.1 = 0 → (∀ d ∈ l.ctxs, (s.ctx d).rso = 0) → exec (.contextRelease c) s = .next (s.releaseCtx c))

/-- R334, R340, R359, R368, R372: a valid LAUNCH at the head of a launch queue is checked, and its dependence is met when it has none, or when its counter
has reached the target; with Ostler free the distributor gives it the head that it picks: of the heads that are served, checked, met and not refused,
or, if some head has been refused sixteen times, of those that have, the one of the queue with the highest PRIO, of equal ones the earliest arrival,
then the lowest queue. R365, R368, R369, R371, R372, R373, R452: Ostler, while no compaction runs, places the head that it holds at the first origin,
rows from the top and columns from the left, at which every core has room: a core that is not withdrawn, with an EMPTY bank that no lease keeps and as
many banks that no context holds as NB asks for. Each context keeps the lowest such bank of its core and the lowest of its banks, zeroed, and the
lease takes the next id that no live lease has. With no origin, the head gets NOPLACE and is refused until the cycle after the map changes, Ostler is
free again, and a compaction starts where OSTCFG asks for one. R372, R374, R395, R396, R455: the oldest SPAWN request, with no older restore, is
placed from the spawn table of its tenant, with the lease as its parent; without a valid table, in a partition reset, with the tenant's interface in
ERROR, or with no room, the reply is 0xFFFFFFFF. The model's own choices or readings in this: log 54, 111 (the reply of a faulted table read, and no
quantum for the lease). -/
def Obligations.LaunchesAndSpawnsArePlaced : Prop :=
  -- LaunchHeadsAreCheckedAndPicked
  (
    (∀ (s : State) (q : Nat) (h : LHead), q < 64 → (s.qState q).head = some h → h.checked = false → s.served q = true → (pk64 h.body 0).getLsbD 11 = false →
      pkCause true false none h.body = none → exec (.ceLaunch hubCore q) s = .next { s with queues := s.queues.set q { s.qState q with
        head := some { h with checked := true, met := pk64 h.body 0x28 == 0 } } })
    ∧ (∀ (s : State) (q pa : Nat) (h : LHead), (s.qState q).head = some h → h.checked = true → h.met = false → s.served q = true →
        s.HubOk (64 + q) (s.qAsid q) (s.qTen q) (bits (pk64 h.body 0x28) 55 0) 8 ⟨true, false⟩ pa → pk h.body 0x30 8 ≤ (s.dev64 pa).toNat →
          exec (.launchDependenceMet q) s = .next { s with queues := s.queues.set q { s.qState q with head := some { h with met := true } } })
    ∧ ∀ (s : State) (q : Nat), s.ost = none → s.spawns = [] → s.restores = [] → s.compact = none → s.pickHead = some q →
        exec .distributorSelect s = .next { s with ost := some q } ∧ ∃ h, s.GoodHead q h ∧ (s.Reserved → h.noplace ≥ 16)
          ∧ ∀ p k, p ≠ q → s.GoodHead p k → (s.Reserved → k.noplace ≥ 16) →
            bits (s.qCfg p) 5 3 < bits (s.qCfg q) 5 3 ∨ (bits (s.qCfg p) 5 3 = bits (s.qCfg q) 5 3 ∧ (h.arrival < k.arrival ∨ (h.arrival = k.arrival ∧ q < p))))
  -- LaunchesArePlacedAtTheFirstOrigin
  ∧ (
    (∀ (w h : Nat) (ok : Nat → CoreId → Bool) (good : Nat → Nat → Prop),
      (∀ x y, good x y ↔ x + w ≤ 20 ∧ y + h ≤ 16 ∧ ∀ i j, i < w → j < h → ok (j * w + i) (coreAt (x + i) (y + j)) = true) →
        (firstOrigin w h ok = none ↔ ∀ x y, ¬good x y)
        ∧ ∀ x y, firstOrigin w h ok = some (x, y) ↔ good x y ∧ ∀ a b, good a b → y < b ∨ (y = b ∧ x ≤ a))
    ∧ (∀ (s : State) (k : CoreId) (nb : Nat), (∀ n, n ∈ s.freeBanks k [] ↔ n < 32 ∧ ∀ b, b < 4 →
        (s.ctx (4 * k + b)).st ≠ .empty ∨ (s.ctx (4 * k + b)).lease ≠ 0 → ∀ u ∈ (s.ctx (4 * k + b)).banks, u.bank ≠ n)
        ∧ (s.eligible k nb [] = true ↔ (s.mgv (0x7600 + coreY k)).getLsbD (coreX k) = false
          ∧ (∃ b, b < 4 ∧ (s.ctx (4 * k + b)).st = .empty ∧ (s.ctx (4 * k + b)).lease = 0) ∧ nb ≤ (s.freeBanks k []).length))
    ∧ (∀ (s t : State) (r : Request) (b : List Byte) (x y lid : Nat), s.leases.length < 2 ^ 31 - 1 → (∀ c, (s.ctx c).raised = []) → (t, lid) = s.placeLease r b x y →
        x + lwW b ≤ 20 → y + lwH b ≤ 16 → (∀ i j, i < lwW b → j < lwH b → s.eligible (coreAt (x + i) (y + j)) (lwNB b) [] = true) →
        t.lastLid = lid ∧ s.leases.get? lid = none
        ∧ (∃ n, lid = (s.lastLid + n) % (2 ^ 31 - 1) + 1 ∧ ∀ m, m < n → s.leases.get? ((s.lastLid + m) % (2 ^ 31 - 1) + 1) ≠ none)
        ∧ ∃ l, t.leases.get? lid = some l ∧ l.ten = r.ten ∧ l.asid = r.asid ∧ l.x = x ∧ l.y = y ∧ l.w = lwW b ∧ l.h = lwH b ∧ l.nb = lwNB b ∧ l.started = false
          ∧ l.ctxs.length = lwW b * lwH b
          ∧ ∀ i j, i < lwW b → j < lwH b → ∃ c, l.ctxs[j * lwW b + i]? = some c ∧ coreOf c = coreAt (x + i) (y + j)
            ∧ (s.ctx c).st = .empty ∧ (s.ctx c).lease = 0 ∧ (∀ d, coreOf d = coreOf c → d < c → (s.ctx d).st ≠ .empty ∨ (s.ctx d).lease ≠ 0)
            ∧ (t.ctx c).st = .empty ∧ (t.ctx c).lease = lid ∧ (t.ctx c).ten = BitVec.ofNat 6 r.ten ∧ (t.ctx c).asid = BitVec.ofNat 11 r.asid
            ∧ (t.ctx c).lx = BitVec.ofNat 5 i ∧ (t.ctx c).ly = BitVec.ofNat 4 j
            ∧ (t.ctx c).banks.map (·.bank) = (s.freeBanks (coreOf c) []).take (lwNB b)
            ∧ ∀ u ∈ (t.ctx c).banks, u.mode = .spad ∧ ∀ o, o < 2 ^ 17 → (t.core (coreOf c)).sram.get (u.bank * 2 ^ 17 + o) = 0)
    ∧ ∀ (s : State) (q : Nat) (h : LHead), s.ost = some q → s.compact = none → s.served q = true → (s.qState q).head = some h →
      (firstOrigin (lwW h.body) (lwH h.body) (fun _ k => s.eligible k (lwNB h.body) []) = none → ∀ X, X = { s with
          ost := none, queues := s.queues.set q { s.qState q with head := some { h with refused := some s.time, noplace := h.noplace + 1 } } } →
        exec .ostlerPlacement s = .next (if (s.mgv 0x09C0).getLsbD 0 then X.startCompaction else X))
      ∧ ∀ x y s' line, firstOrigin (lwW h.body) (lwH h.body) (fun _ k => s.eligible k (lwNB h.body) []) = some (x, y) →
          s.QOk q (s.qLine q) 64 ⟨true, true⟩ line → (pk64 h.body 0).getLsbD 11 = false →
          s' = ((s.mlog (s.qTen q) 0 q h.idx h.body).qAdvance line h.idx).updQ q (fun k => { k with head := none }) →
            exec .ostlerPlacement s = .next ({ s' with ost := none }.placeLease ⟨s'.qTen q, s'.qAsid q, some q, h.idx, none, none, (pk64 h.body 0x20, 0),
              lwDet h.body, 64 * bits (s'.qX q) 47 32⟩ h.body x y).1)
  -- SpawnsArePlacedOrRefused
  ∧ (
    ∀ (s : State) (r : SpawnReq) (rest : List SpawnReq) (k : Cell), s.spawns = r :: rest → s.compact = none → s.ost = none →
      (∀ e ∈ s.restores, r.seq ≤ e.2) → r.ctx < 2 ^ 20 → (s.ctx r.ctx).fab.cell? r.cell = some k →
      ((s.mgv (0x0980 + r.ten)).getLsbD 63 = false ∨ s.resets.get? r.ten ≠ none ∨ s.tds r.ten = 3 → ∃ t, exec .spawnPlace s = .next t ∧ t.spawns = rest
        ∧ (t.ctx r.ctx).fab.cell? r.cell = some { k with busy := some 0x100000000 } ∧ t.mem = s.mem)
      ∧ ∀ (s' : State) (pa x y : Nat) (b : List Byte) (q : Request), (s.mgv (0x0980 + r.ten)).getLsbD 63 = true → s.resets.get? r.ten = none → s.tds r.ten ≠ 3 →
          s' = { s with spawns := rest } →
          s'.HubOk 128 (s.ctx r.ctx).asid.toNat r.ten (bits (s.mgv (0x0980 + r.ten)) 55 16 * 2 ^ 16 + 64 * r.index) 64 ⟨true, false⟩ pa →
          b = s.devBytes pa 64 → pkCause true false none b = none → pk64 b 0x28 = 0 →
          (firstOrigin (lwW b) (lwH b) (fun _ k => s'.eligible k (lwNB b) []) = none → exec .spawnPlace s = .next (s'.spawnReply r 0xFFFFFFFF))
          ∧ (firstOrigin (lwW b) (lwH b) (fun _ k => s'.eligible k (lwNB b) []) = some (x, y) →
          q = ⟨r.ten, (s.ctx r.ctx).asid.toNat, (s.leases.get? (s.ctx r.ctx).lease).bind (·.queue), 0, none, some (s.ctx r.ctx).lease,
                (r.arg.setWidth 64, BitVec.ofNat 64 (s.ctx r.ctx).lease), (s.ctx r.ctx).det || lwDet b, 0⟩ →
            exec .spawnPlace s = .next ((s'.placeLease q b x y).1.spawnReply r (s'.placeLease q b x y).2)))

/-- R33, R340, R411: once text and data of a placed lease have been read, every context starts with them; a started context is READY, has the packet's
arguments in g1 and g2, and its instruction store holds the text. A read that faults fails the lease, which is freed and reported. R332, R340, R345,
R358, R373, R411: a lease ends when every one of its contexts is EMPTY: it is freed, and its completion, if it is still to be made, is kept. A freed
lease is no more: its context banks are EMPTY with zeroed banks, no restore, notice or message of it is left, and the destinations that an unfinished
move kept are given up. A launch that fails is reported to its task block, or stops its queue. R330, R340, R373, R412, R427: the completion of a
launch whose contexts have all been released, or, with remote stores in flight, have all ended: its counter, if it has one, rises by one, and its task
block, if it has one, is reported. R375, R391, R399: a turn whose quantum has passed, or whose lease is idle or has yielded, goes to the next id of
its group, or, in a group of one, begins anew; one lease of a group holds the turn (the model's choice, log 58); the lease that loses it is gated from
source 1, and that which gets it ungated, its yields forgotten. The model's own choices or readings in this: log 55 (no completion after a
destruction); log 58, 111 (groups of leases, and no turns of spawned leases). -/
def Obligations.LaunchedContextsStartAndComplete : Prop :=
  -- LaunchedContextsStart
  (
    (∀ (s : State) (lid : Nat) (l : Lease) (pt pd : Nat → Nat) (text data : List Byte), s.leases.get? lid = some l → l.started = false → l.fail = none → l.moving = none →
      l.saved = [] → l.body ≠ [] →
      (∀ i, i < lwText l.body → s.HubOk 129 l.asid l.ten (bits (pk64 l.body 0x10) 55 0 + 4 * i) 4 ⟨true, false⟩ (pt i)) →
      (∀ i, i < 16 * lwDLen l.body → s.HubOk 129 l.asid l.ten (bits (pk64 l.body 0x18) 55 0 + 4 * i) 4 ⟨true, false⟩ (pd i)) →
      text = ((List.range (lwText l.body)).map (fun i => s.devBytes (pt i) 4)).flatten →
      data = ((List.range (16 * lwDLen l.body)).map (fun i => s.devBytes (pd i) 4)).flatten →
        exec (.launchImagePlaced lid) s = .next (l.ctxs.foldl (fun s c => s.startCtx { l with started := true } text data c)
          { s with leases := s.leases.set lid { l with started := true } }))
    ∧ (∀ (s : State) (l : Lease) (text data : List Byte) (c : CtxId),
        ((s.startCtx l text data c).ctx c).st = .ready ∧ ((s.startCtx l text data c).ctx c).reg 1 = l.args.1
          ∧ ((s.startCtx l text data c).ctx c).reg 2 = l.args.2 ∧ ((s.startCtx l text data c).ctx c).ilen = text.length
          ∧ ∀ i, i < text.length → ((s.startCtx l text data c).ctx c).istore.get i = text.getD i 0)
    ∧ ∀ (s : State) (lid : Nat) (l : Lease) (f : PFault), s.leases.get? lid = some l → l.fail = some f →
        (∀ q, l.parent = none → l.queue = some q → exec (.launchFault lid) s = .next ((s.freeLease lid).launchFault q l.qidx l.task f true))
        ∧ (l.parent ≠ none → exec (.launchFault lid) s = .next (s.freeLease lid)))
  -- EndedLeasesFreeTheirCores
  ∧ (
    (∀ (s : State) (lid : Nat) (l : Lease), s.leases.get? lid = some l →
      ((∃ c ∈ l.ctxs, (s.ctx c).st ≠ .empty) → s.leaseOver lid = s)
      ∧ ((∀ c ∈ l.ctxs, (s.ctx c).st = .empty) → l.saved = [] →
        (l.started = true → l.ended = false → l.killed = false → l.body ≠ [] → s.leaseOver lid = { s with finals := s.finals.set lid l }.freeLease lid)
        ∧ (l.killed = true ∨ (l.started = true ∧ l.ended = true) → s.leaseOver lid = s.freeLease lid)))
    ∧ (∀ (s t : State) (lid : Nat) (l : Lease), s.leases.get? lid = some l → (∀ c, (s.ctx c).raised = []) → t = s.freeLease lid →
        t.leases.get? lid = none ∧ (∀ e ∈ t.restores, e.1 ≠ lid) ∧ (∀ m ∈ t.acnMsgs, m.lid ≠ lid) ∧ (∀ m ∈ t.kickMsgs, m.dest ∉ l.ctxs)
        ∧ ∀ c ∈ l.ctxs, coreOf c < numCores → (∀ e ∈ s.leases, e.1 ≠ lid → c ∉ e.2.ctxs) → t.ctx c = Ctx.blank
          ∧ ∀ u ∈ (s.ctx c).banks, l.moving = none → ∀ o, o < 2 ^ 17 → (t.core (coreOf c)).sram.get (u.bank * 2 ^ 17 + o) = 0)
    ∧ (∀ (s : State) (m : Moving) (p : Pair) (b : CtxId), p ∈ m.pairs → p.dest = some b → p.done = false → (s.unreserveAll m).ctx b = Ctx.blank
        ∧ ∀ e ∈ ((s.unreserveAll m).core (coreOf b)).sinks, e.2.ctx ≠ b)
    ∧ ∀ (s : State) (q idx : Nat) (f : PFault) (hasAddr : Bool),
        (∀ asid va, s.launchFault q idx (some (asid, va)) f hasAddr = { s with reports := s.reports ++ [⟨asid, va, some f⟩] })
        ∧ s.launchFault q idx none f hasAddr = { s with queues := s.queues.set q { s.qState q with pend := some ⟨f, idx, hasAddr, true⟩ } })
  -- LaunchesComplete
  ∧ (
    (∀ (s : State) (lid : Nat) (l : Lease), s.finals.get? lid = some l → l.parent = none →
      (pkCA l.body = 0 → exec (.launchComplete lid) s = .next { s with
        reports := s.reports ++ (l.task.map (fun (b : Nat × Nat) => TaskRep.mk b.1 b.2 none)).toList, finals := s.finals.erase lid })
      ∧ ∀ pa, pkCA l.body ≠ 0 → s.HubOk 130 l.asid l.ten (bits (pkCA l.body) 55 0) 8 ⟨true, true⟩ pa → s.mem.wf = true → memKey pa + 8 ≤ 2 ^ 40 →
          ∃ t, exec (.launchComplete lid) s = .next t ∧ s.DevWritten t pa (toBytes 8 (s.dev64 pa + 1).toNat) ∧ t.finals = s.finals.erase lid
            ∧ t.leases = s.leases ∧ t.reports = s.reports ++ (l.task.map (fun (b : Nat × Nat) => TaskRep.mk b.1 b.2 none)).toList)
    ∧ ∀ (s : State) (lid : Nat) (l : Lease), s.finals.get? lid = none → s.leases.get? lid = some l → l.started = true → l.ended = false → l.killed = false →
        l.saved = [] → l.body ≠ [] → l.parent = none → pkCA l.body = 0 → (∃ c ∈ l.ctxs, (s.ctx c).rso ≠ 0) →
        (∀ c ∈ l.ctxs, (s.ctx c).st = .empty ∨ ((s.ctx c).st = .stopped ∧ (s.ctx c).stop.1 = 0)) →
          ∃ t, exec (.launchComplete lid) s = .next t ∧ t.leases = s.leases.set lid { l with ended := true }
            ∧ t.reports = s.reports ++ (l.task.map (fun (b : Nat × Nat) => TaskRep.mk b.1 b.2 none)).toList ∧ ∀ c, t.ctx c = s.ctx c)
  -- TurnsPassToTheNextLease
  ∧ (
    (∀ (s : State) (lid : Nat) (l : Lease), s.leases.get? lid = some l → l.turn = true →
      s.time + 1 ≥ l.turnStart + l.quant
        ∨ (∀ c ∈ l.ctxs, ((s.ctx c).st ≠ .ready ∨ (s.ctx c).gated = true) ∧ (s.ctx c).cur.st ≠ .running)
        ∨ ((∃ c ∈ l.ctxs, (s.ctx c).yielded = true) ∧ ∀ c ∈ l.ctxs, (s.ctx c).st ≠ .ready ∨ (s.ctx c).yielded = true) →
      ∀ g : Map Lease, g = (s.group lid).filter (fun e => e.1 != lid) →
        (g = [] → exec (.schedulerTurnEnd lid) s = .next (s.setTurn lid true))
        ∧ ∀ k n, g.find? (fun e => e.1 > lid) = some (k, n) ∨ (g.find? (fun e => e.1 > lid) = none ∧ g.head? = some (k, n)) →
            exec (.schedulerTurnEnd lid) s = .next ((s.setTurn lid false).setTurn k true))
    ∧ (∀ (s : State) (lid : Nat) (l : Lease), s.leases.get? lid = some l → l.turn = false → exec (.schedulerTurnEnd lid) s = .next s)
    ∧ ∀ (s : State) (lid : Nat) (l : Lease) (on : Bool), s.leases.get? lid = some l → l.ctxs.Nodup → (∀ d ∈ l.ctxs, (s.ctx d).raised = []) →
        (∃ k, (s.setTurn lid on).leases.get? lid = some k ∧ k.turn = on ∧ k.turnStart = s.time + 1 ∧ k.quant = l.quant)
        ∧ ∀ c ∈ l.ctxs,
          (on = false → (s.ctx c).st = .ready ∨ (s.ctx c).st = .waiting → (s.ctx c).gated = false →
            (s.setTurn lid on).ctx c = { s.ctx c with gateReq := (s.ctx c).gateReq ||| 2#4, gateAt := if (s.ctx c).gateReq = 0 then s.time else (s.ctx c).gateAt })
          ∧ (on = true → (s.ctx c).doom = false → (s.setTurn lid on).ctx c = { s.ctx c with
              yielded := false, gsrc := (s.ctx c).gsrc &&& 13#4, gateReq := (s.ctx c).gateReq &&& 13#4
              gated := (s.ctx c).gated && (s.ctx c).gsrc &&& 13#4 != 0 }))

/-- R376: OSTCMD GO with no compaction under way starts one over the live leases; each visit relocates its lease to its target, or skips one that has
none; the compaction ends after the last. R377, R378, R395: a relocation gates its lease, drains its links, waits until nothing is at work, copies its
pairs, and re-binds the lease at its target; an eviction that is quiet ends the chains of its sinks and leaves for the save area; one past its bounds
is given up with event 5. R365, R376, R378: the copy of a pair starts once its destination has room, earlier pairs first, and its destination is kept:
an EMPTY bank of the core with the lowest free banks, zeroed, and the context's chain ids; after its cycles the context stands at its new bank, as it
was but for the numbers of its banks and its column groups, the banks hold what was read of them, and its old bank is EMPTY with zeroed banks. Banks
in CACHE mode are read as zeros. R251, R309, R375, R377, R395, R410, R453: a quiet eviction writes its lease to the save area, breaking the armed
lines there, and frees its cores: every context is held as it was, with its bank contents, the old banks are EMPTY, the lease has no turn, and OSTEV
reads done. The chains of a sink that goes are gone, and one given up leaves the lease where it was with event 5; of a restore ST then reads 2 (the
model's choice, log 118). The model's own choices or readings in this: log 59, 61, 114 (what the steps wait for, and the cut point of a stream); log
56, 117 (bindings that follow, and the seams of a diagonal copy). -/
def Obligations.RelocationsMoveALease : Prop :=
  -- CompactionVisitsTheLeases
  (
    (∀ (s : State), s.compact = none → exec .ostcmdGo s = .next { s with compact := some ⟨(s.leases.map (·.1)).filter (fun l => l < 2 ^ 31), none⟩ })
    ∧ (∀ (s : State), s.compact ≠ none → exec .ostcmdGo s = .next s)
    ∧ ∀ (s : State) (lid : Nat) (rest : List Nat),
        (s.compact = some ⟨[], none⟩ → exec .compaction s = .next { s with compact := none })
        ∧ (s.compact = some ⟨lid :: rest, none⟩ → ∀ l, s.leases.get? lid = some l → (∀ e ∈ s.leases, e.2.moving = none) → l.saved = [] → l.fail = none → s.pinned l = false →
          s.resets.get? l.ten = none →
            (s.target l = none → exec .compaction s = .next { s with compact := some ⟨rest, none⟩ })
            ∧ ∀ x y, s.target l = some (x, y) → exec .compaction s = .next { s with
                compact := some ⟨rest, some lid⟩
                leases := s.leases.set lid { l with moving := some ⟨false, x, y, 0, s.time, l.ctxs.map (fun _ => ⟨none, 0, false⟩)⟩ } }))
  -- RelocationsGoStepByStep
  ∧ (
    ∀ (s : State) (lid : Nat) (l : Lease) (m : Moving), s.leases.get? lid = some l → l.moving = some m → s.resets.get? l.ten = none →
      (∀ k, k = { s with leases := s.leases.set lid { l with moving := some { m with step := m.step + 1, since := s.time } } } →
        (m.step = 0 → s.counting l = false → s.pinned l = false → exec (.relocation lid) s = .next (l.ctxs.foldl (fun s c => s.gate c 2) k))
        ∧ (m.step = 1 → (∀ c ∈ l.ctxs, (s.ctx c).gated = true ∨ (s.ctx c).st = .stopped ∨ (s.ctx c).st = .empty) →
          exec (.relocation lid) s = .next (l.ctxs.foldl (fun s c => s.updCtx c (fun x => { x with drain := true })) k))
        ∧ (m.step = 2 → s.time - m.since ≤ 256 * bits (s.mgv 0x09C0) 31 16 → (∀ c ∈ l.ctxs, (s.ctx c).drained = true) →
          exec (.relocation lid) s = .next (l.ctxs.foldl (fun s c => s.updCtx c (fun x => { x with drain := false })) k))
        ∧ (m.step = 3 → s.time - m.since ≤ 65536 → (∀ c ∈ l.ctxs, s.quiesced c = true) → (∀ a ∈ s.acnMsgs, a.lid ≠ lid) →
          ((m.evict = true → ∀ c ∈ l.ctxs, ∀ e ∈ (s.core (coreOf c)).sinks, e.2.ctx ≠ c) →
            exec (.relocation lid) s = .next (if m.evict then s.evict lid l else k))
          ∧ (m.evict = true → (∃ c ∈ l.ctxs, ∃ e ∈ (s.core (coreOf c)).sinks, e.2.ctx = c) →
            exec (.relocation lid) s = .next (l.ctxs.foldl (fun s c => s.tearChains c) s)))
        ∧ (m.step = 4 → (∀ p ∈ m.pairs, p.done = true) → exec (.relocation lid) s = .next k))
      ∧ (m.step = 5 → l.saved = [] → exec (.relocation lid) s = .next (l.ctxs.foldl (fun (s : State) c => s.ungate c 2)
          (({ s with leases := s.leases.set lid { l with x := m.toX, y := m.toY, moving := none, saved := [] } } : State).mapChanged.giveTurns none)))
      ∧ ((m.step = 2 ∧ s.time - m.since > 256 * bits (s.mgv 0x09C0) 31 16) ∨ (m.step = 3 ∧ s.time - m.since > 65536) →
          exec (.relocationAbandon lid) s = .next (s.abandon lid l m)))
  -- PairsAreCopied
  ∧ (
    (∀ (s : State) (lid k : Nat) (l : Lease) (m : Moving) (c : CtxId), s.leases.get? lid = some l → l.moving = some m → l.ctxs[k]? = some c → m.step = 4 →
      (m.pairs[k]? = some ⟨none, 0, false⟩ → (List.range m.pairs.length).find? (fun i => s.pairReady l m i) = some k →
        ∀ s' b, (s', b) = s.reservePair c (s.ctx c) lid l.nb (coreAt (m.toX + k % max l.w 1) (m.toY + k / max l.w 1)) →
          exec (.relocationPairCopy lid k) s = .next (s'.setMoving lid (some { m with pairs := modAt (fun _ => ⟨some b, s'.time, false⟩) m.pairs k })))
      ∧ ∀ b t0, m.pairs[k]? = some ⟨some b, t0, false⟩ → (List.range m.pairs.length).find? (fun i => s.pairReady l m i) = none → l.saved = [] →
          s.time ≥ t0 + (s.saveCtx c).ctx.copyCycles l.nb →
            exec (.relocationPairCopy lid k) s = .next ((((s.landCtx (s.saveCtx c) c b).zeroBanks (coreOf c) ((s.ctx c).banks.map (·.bank))).setCtx c
              Ctx.blank).setMoving lid (some { m with pairs := modAt (fun _ => ⟨some b, t0, true⟩) m.pairs k })))
    ∧ (∀ (s t : State) (c b : CtxId) (x : Ctx) (lid nb : Nat) (core : CoreId), (t, b) = s.reservePair c x lid nb core → s.eligible core nb [] = true →
        coreOf b = core ∧ (s.ctx b).st = .empty ∧ (s.ctx b).lease = 0 ∧ (t.ctx b).lease = lid ∧ (t.ctx b).ten = x.ten ∧ (t.ctx b).asid = x.asid
        ∧ (t.ctx b).banks.map (·.bank) = (s.freeBanks core []).take nb
        ∧ (∀ u ∈ (t.ctx b).banks, ∀ o, o < 2 ^ 17 → (t.core core).sram.get (u.bank * 2 ^ 17 + o) = 0)
        ∧ (∀ e ∈ (s.core (coreOf c)).sinks, e.2.ctx = c → ∃ k, (t.core core).sinks.get? e.1 = some k ∧ k.ctx = b ∧ k.st = 9)
        ∧ ∀ d, d ≠ b → t.ctx d = s.ctx d)
    ∧ (∀ (s : State) (c : CtxId), (s.saveCtx c).ctx = { s.ctx c with near := [] } ∧ (s.saveCtx c).banks.length = (s.ctx c).banks.length
        ∧ ∀ (n : Nat) u, (s.ctx c).banks[n]? = some u → ∃ m, (s.saveCtx c).banks[n]? = some m
          ∧ (u.mode = .cache → m = ([], []))
          ∧ (u.mode ≠ .cache → (s.core (coreOf c)).sram.wf = true → ∀ o, o < 2 ^ 17 → m.1.get o = (s.core (coreOf c)).sram.get (u.bank * 2 ^ 17 + o)))
    ∧ ∀ (s t : State) (v : Saved) (a b : CtxId), t = s.landCtx v a b →
        (t.ctx b).g = v.ctx.g ∧ (t.ctx b).p = v.ctx.p ∧ (t.ctx b).ipc = v.ctx.ipc ∧ (t.ctx b).st = v.ctx.st ∧ (t.ctx b).fab = v.ctx.fab ∧ (t.ctx b).lease = v.ctx.lease
        ∧ (t.ctx b).ops = v.ctx.ops ∧ (t.ctx b).kicks.length = v.ctx.kicks.length
        ∧ (v.ctx.banks.length = (s.ctx b).banks.length → (t.ctx b).banks.map (·.bank) = (s.ctx b).banks.map (·.bank)
          ∧ (t.ctx b).banks.map (·.mode) = v.ctx.banks.map (·.mode))
        ∧ (v.banks.length = (s.ctx b).banks.length → ((s.ctx b).banks.map (·.bank)).Nodup → (s.core (coreOf b)).sram.wf = true →
          ∀ (n : Nat) u m, (s.ctx b).banks[n]? = some u → v.banks[n]? = some m →
            m.1.wf = true → (∀ e ∈ m.1, e.1 < 2 ^ 17) → ∀ o, o < 2 ^ 17 → (t.core (coreOf b)).sram.get (u.bank * 2 ^ 17 + o) = m.1.get o))
  -- EvictedAndAbandonedLeases
  ∧ (
    (∀ (s t : State) (lid : Nat) (l : Lease), s.leases.get? lid = some l → (∀ c, (s.ctx c).raised = []) → l.ctxs.Nodup → (∀ c ∈ l.ctxs, c < 2 ^ 20) →
      (s.leases.map (·.1)).Nodup → (∀ e ∈ s.leases, e.1 ≠ lid → ∀ c ∈ l.ctxs, c ∉ e.2.ctxs) → t = s.evict lid l →
        (∃ k, t.leases.get? lid = some k ∧ k.moving = none ∧ k.turn = false ∧ k.ctxs = (List.range l.ctxs.length).map (evictedId lid)
          ∧ k.saved.length = l.ctxs.length
          ∧ ∀ (i : Nat) c, l.ctxs[i]? = some c → ∃ v, k.saved[i]? = some v ∧ v.ctx.g = (s.ctx c).g ∧ v.ctx.ipc = (s.ctx c).ipc ∧ v.ctx.st = (s.ctx c).st
            ∧ v.ctx.p = (s.ctx c).p ∧ v.ctx.fab = (s.ctx c).fab ∧ v.ctx.near = [] ∧ v.banks.length = (s.ctx c).banks.length)
        ∧ (∀ c ∈ l.ctxs, t.ctx c = Ctx.blank))
    ∧ (∀ (s : State) (c : CtxId), ∀ e ∈ ((s.tearChains c).core (coreOf c)).sinks, e.2.ctx ≠ c)
    ∧ ∀ (s : State) (lid : Nat) (l : Lease) (m : Moving), s.leases.get? lid = some l → l.moving = some m → (∀ c, (s.ctx c).raised = []) → m.pairs = [] →
        (∃ k, (s.abandon lid l m).leases.get? lid = some k ∧ k.moving = none ∧ k.ctxs = l.ctxs ∧ k.saved = l.saved ∧ k.x = l.x ∧ k.y = l.y)
        ∧ (m.evict = true → (s.abandon lid l m).mgv 0x09C3 = BitVec.ofNat 64 (3 * 2 ^ 60 + lid))
        ∧ (m.evict = false → l.saved = [] → (s.abandon lid l m).mgv 0x09C3 = s.mgv 0x09C3)
        ∧ (m.evict = false → l.saved ≠ [] → (s.abandon lid l m).mgv 0x09C3 = BitVec.ofNat 64 (2 * 2 ^ 60 + lid)))

/-- R395, R410, R441: OSTEV EVICT of a live lease begins its eviction, and is refused with status 3 for a tenant whose interface is locked or running;
OSTEV RESTORE of an evicted lease asks for a place, and, once it is the oldest and Ostler is free, gets the first origin that has room, where the
copies of its contexts begin, or ends with status 2 where there is none. A restore and a SPAWN request are served in the order of their arrival. R396,
R440, R455: TRST GO begins the reset of its tenant, whose interface, if it was locked or running, goes to ERROR; once the tenant's moves have been
given up every context of it is gated; then its traffic is dropped, its contexts and leases are destroyed, its handles and translations go, and the
reset ends with event 6, where an interface that was to be stopped is unlocked; one of the system tenant has no effect. The model's own choices or
readings in this: log 59 (commands that are ignored); log 63 (traffic is dropped in one step). -/
def Obligations.EvictionAndPartitionReset : Prop :=
  -- OstevWords
  (
    ∀ (s : State) (lid : Nat) (l : Lease), s.leases.get? lid = some l →
      (s.ostevBusy = false → l.moving = none → l.saved = [] → lid < 2 ^ 31 →
        (s.tds l.ten = 0 ∨ s.tds l.ten = 3 → exec (.ostevEvict lid) s = .next (({ s with
          leases := s.leases.set lid { l with moving := some ⟨true, l.x, l.y, 0, s.time, []⟩ } }).setMg 0x09C3 (BitVec.ofNat 64 (2 ^ 60 + lid))))
        ∧ (s.tds l.ten = 1 ∨ s.tds l.ten = 2 → exec (.ostevEvict lid) s = .next (s.setMg 0x09C3 (BitVec.ofNat 64 (3 * 2 ^ 60 + lid)))))
      ∧ (s.ostevBusy = false → l.moving = none → l.saved ≠ [] → (∀ e ∈ s.restores, e.1 ≠ lid) → exec (.ostevRestore lid) s = .next (({ s with
          restores := s.restores ++ [(lid, s.ostN)], ostN := s.ostN + 1 }).setMg 0x09C3 (BitVec.ofNat 64 (2 ^ 60 + lid))))
      ∧ ∀ (n : Nat) (rest : List (Nat × Nat)) (place : Option (Nat × Nat)), l.moving = none → l.saved ≠ [] → s.restores = (lid, n) :: rest →
          (∀ e ∈ rest, e.1 ≠ lid) → s.compact = none → s.ost = none → (∀ r ∈ s.spawns, n ≤ r.seq) →
          place = firstOrigin l.w l.h (fun i k => s.eligible k l.nb []
            && (!(((l.saved[i]?).map (fun (v : Saved) => v.ctx.shape)).getD 0).getLsbD 31
              || (freeRun (s.groups k) (bits (((l.saved[i]?).map (fun (v : Saved) => v.ctx.shape)).getD 0) 17 16 + 1)).isSome)) →
          (place = none → exec (.ostevRestore lid) s = .next (({ s with restores := rest }).setMg 0x09C3 (BitVec.ofNat 64 (2 * 2 ^ 60 + lid))))
          ∧ ∀ x y, place = some (x, y) → ∃ t k m, exec (.ostevRestore lid) s = .next t ∧ t.restores = rest ∧ t.leases.get? lid = some k ∧ k.moving = some m
              ∧ m.evict = false ∧ m.toX = x ∧ m.toY = y ∧ m.step = 4 ∧ m.since = s.time ∧ k.saved = l.saved ∧ k.ctxs = l.ctxs ∧ t.mem = s.mem
              ∧ (l.ctxs.length = l.w * l.h → l.saved.length = l.w * l.h → m.pairs.length = l.w * l.h
                ∧ ∀ (i j : Nat), i < l.w → j < l.h → ∃ b, m.pairs[j * l.w + i]? = some ⟨some b, s.time, false⟩ ∧ coreOf b = coreAt (x + i) (y + j)
                  ∧ (s.ctx b).st = .empty ∧ (s.ctx b).lease = 0 ∧ (t.ctx b).lease = lid))
  -- PartitionResetGoesStepByStep
  ∧ (
    ∀ (s : State) (t : Nat), 0 < t → t < 64 →
      (s.resets.get? t = none → s.tds t = 0 ∨ s.tds t = 3 → exec (.trstGo t) s = .next { s with resets := s.resets.set t 2 })
      ∧ (s.resets.get? t = none → s.tds t = 1 ∨ s.tds t = 2 → exec (.trstGo t) s = .next { s.tdispErr t 3 0 with resets := (s.tdispErr t 3 0).resets.set t 2 })
      ∧ (s.resets.get? t = some 2 → (∀ e ∈ s.leases, e.2.ten = t → e.2.moving = none) →
        exec (.trstGo t) s = .next ((s.ctxsOf t).foldl (fun s c => s.gate c 3) { s with resets := s.resets.set t 3 }))
      ∧ (s.resets.get? t = some 2 ∨ s.resets.get? t = some 3 → (∃ e ∈ s.leases, e.2.ten = t ∧ e.2.moving ≠ none) → exec (.trstGo t) s = .next s)
      ∧ (s.resets.get? t = some 3 → (∀ e ∈ s.leases, e.2.ten = t → e.2.moving = none) → (∀ c ∈ s.ctxsOf t, (s.ctx c).gated = true ∨ (s.ctx c).st = .stopped) →
        exec (.trstGo t) s = .next { s.dropTraffic t with resets := s.resets.set t 5 })
      ∧ (s.resets.get? t = some 5 → ∀ X, X = (s.ctxsOf t).foldl (fun s c => s.destroyCtx c) s → exec (.trstGo t) s
        = .next { ((X.leases.filter (fun e => e.2.ten == t && e.1 < 2 ^ 31)).foldl (fun s e => s.freeLease e.1) X) with
            resets := ((X.leases.filter (fun e => e.2.ten == t && e.1 < 2 ^ 31)).foldl (fun s e => s.freeLease e.1) X).resets.set t 6 })
      ∧ (s.resets.get? t = some 6 → exec (.trstGo t) s = .next { s.dropTenant t with resets := s.resets.set t 7 })
      ∧ (s.resets.get? t = some 7 → ∀ X, X = ({ s with resets := s.resets.erase t } : State).event 6 t 0 0 0 0 0 0 →
        ((∀ d, s.tdis.get? t = some d → d.stopping = false) → exec (.trstGo t) s = .next X)
        ∧ ∀ d, s.tdis.get? t = some d → d.stopping = true →
            exec (.trstGo t) s = .next (({ X.setMg (0x8260 + t) 0 with tdis := s.tdis.erase t } : State).newKeys t))
      ∧ exec (.trstGo 0) s = .next s)

/-- R400, R401, R443, R461: MGR returns a register that the context's tenant may read: tenant 0 every one, another its own TCTL and TENG, LQENG of a queue
whose LQX.TEN it is, OCC, DEVID, CLKST and TJ; any other raises SYS_ONLY, for tenant 0 an unassigned number MG_REG, and in a DETERMINISTIC lease every
MGR DET_ORDER. R277, R400, R401: MGW by any tenant but the system's raises SYS_ONLY; by the system tenant it writes a register with no further effect
field by field, reserved bits kept, and a word with a field outside its Values is ignored as a whole; either way it retires. Behind a write of the
same cycle by a later core or bank it leaves that one's value. With a load or store counted it is held. The model's own choices or readings in this:
log 65 (DET_ORDER before SYS_ONLY). -/
def Obligations.ManagementRegistersAreGuarded : Prop :=
  -- MgrReadsWhatItsTenantMay
  (
    (∀ (s : State) (g : Guard) (d : BitVec 5) (r : BitVec 16), s.self.guard g = true → s.self.pends d = false →
      (s.self.det = true → exec (.mgr g d r) s = .next (s.raise s.cur (detOrder (.mgr g d r))))
      ∧ (s.self.det = false → s.mgReadable s.self.ten.toNat r.toNat = false → s.self.ten ≠ 0 ∧ exec (.mgr g d r) s = .next (s.raise s.cur (sysOnly (.mgr g d r))))
      ∧ (s.self.det = false → s.mgReadable s.self.ten.toNat r.toNat = true → mgFields r.toNat = none →
        exec (.mgr g d r) s = .next (s.raise s.cur ⟨0x1B, r.setWidth 64, 0⟩))
      ∧ (s.self.det = false → s.mgReadable s.self.ten.toNat r.toNat = true → (mgFields r.toNat).isSome = true →
        exec (.mgr g d r) s = .next (s.withSelf (s.self.setReg d (s.mgRead r.toNat)).advance)))
    ∧ (∀ (s : State) (ten n : Nat), s.mgReadable ten n = true ↔ ten = 0 ∨ n = 0x0800 + ten ∨ n = 0x0840 + ten
        ∨ (∃ q, q < 64 ∧ n = 0x0882 + 4 * q ∧ bits (s.mgv (0x0881 + 4 * q)) 5 0 = ten) ∨ (∃ y, y < 16 ∧ n = 0x09E0 + y) ∨ n = 0x9000 ∨ n = 0x9002
        ∨ ∃ k, k < 5 ∧ n = 0x9010 + k)
    ∧ ∀ (s : State) (n : Nat), (n < 0x0800 ∨ (0x0840 ≤ n ∧ n < 0x09C0) ∨ 0x9000 ≤ n → s.mgRead n = s.mgv n)
        ∧ (∀ y, y < 16 → n = 0x09E0 + y → ∀ x, x < 20 → bits (s.mgRead n) (3 * x + 2) (3 * x)
            = ((List.range 4).filter (fun b => (s.ctx (4 * coreAt x y + b)).st == .empty && (s.ctx (4 * coreAt x y + b)).lease == 0)).length)
        ∧ (∀ c, c < 1280 → n = 0x3000 + c → s.mgRead n = (s.ctx c).ctxcWord))
  -- MgwIsForTheSystemTenant
  ∧ (
    ∀ (s : State) (g : Guard) (d : BitVec 5) (r : BitVec 16), s.self.guard g = true →
      (s.self.cntLd ≠ 0 ∨ s.self.cntSt ≠ 0 → exec (.mgw g d r) s = .next s)
      ∧ (s.self.cntLd = 0 → s.self.cntSt = 0 →
        (s.self.ten ≠ 0 → exec (.mgw g d r) s = .next (s.raise s.cur (sysOnly (.mgw g d r))))
        ∧ (s.self.ten = 0 → mgFields r.toNat = none → exec (.mgw g d r) s = .next (s.raise s.cur ⟨0x1B, r.setWidth 64, 0⟩))
        ∧ ∀ l, s.self.ten = 0 → mgFields r.toNat = some l → plainReg r.toNat → s.lockedTenants = [] → s.LastWriter s.cur r.toNat →
            ∃ t, exec (.mgw g d r) s = .next t ∧ t.self = { s.self with st := .ready, wait := none, ipc := s.self.ipc + 4, wake := s.time + 1 }
              ∧ (fldsOk l (s.self.reg d) = false → t.mgv r.toNat = s.mgv r.toNat)
              ∧ (fldsOk l (s.self.reg d) = true → t.mgv r.toNat = fldsMerge l (s.mgv r.toNat) (s.self.reg d))
              ∧ ∀ n, n ≠ r.toNat → t.mgv n = s.mgv n)
      ∧ ∀ l, s.self.cntLd = 0 → s.self.cntSt = 0 → s.self.ten = 0 → mgFields r.toNat = some l → plainReg r.toNat → s.lockedTenants = [] →
          (∃ e ∈ s.mgNow r.toNat, s.cur < e.1) → ∃ t, exec (.mgw g d r) s = .next t ∧ (t.self).ipc = s.self.ipc + 4 ∧ ∀ n, t.mgv n = s.mgv n)

/-- R422, R423: HAND.STK on a stack and a die of the package with a port to it, for a tenant that owns every region of the stack, or the system, asks the
hub for the hand-over, after every request that it does not precede, and waits, or retires when the die owns it already; the refusals are cause 1, 2
and 3. The hub hands its oldest request over. R283, R294, R387, R410: a TTAB write takes effect once the hub has no older request about its stack: the
table holds the new owners, and a region that changes owner loses its content. A write to TLOG, FWLOG or EVLOST clears it; to WDR it clears bits; to
MLOGT it sets the tail; to a register with no further effect it changes its fields, and a word with a field outside its Values is ignored. Until boot
is DONE no write of the host has an effect. R269, R346, R364, R367: a write of an allowed value to L2REMW starts the conversion of every slice; to
ASIDO it sets who may use an ASID; to LQCFG and CEQ it binds or unbinds a queue, whose server starts afresh; an unassigned number takes no write. The
model's own choices or readings in this: log 64 (a hand-over and a TTAB switch take one step); log 60, 110 (writes other than 0, and the record of
CTXC); log 66 (a write that keeps the binding keeps the head). -/
def Obligations.HandOversAndRegisterRows : Prop :=
  -- StacksAreHandedOver
  (
    (∀ (s : State) (g : Guard) (a b : BitVec 5) (st n : Nat) (bad : Nat → State), s.self.guard g = true → s.self.cntLd = 0 → s.self.cntSt = 0 →
      st = (s.self.reg a).toNat → n = (s.self.reg b).toNat → (∀ k, bad k = s.raise s.cur (wordTrap (.handStk g a b) 0x1F k)) →
      (15 < st ∨ 3 < n → exec (.handStk g a b) s = .next (bad 1))
      ∧ (st ≤ 15 → n ≤ 3 →
        (n ∉ stackPorts st → exec (.handStk g a b) s = .next (bad 2))
        ∧ (n ∈ stackPorts st →
          (s.self.ten ≠ 0 → (∃ r, r < 16 ∧ s.ttab st r ≠ s.self.ten.toNat) → exec (.handStk g a b) s = .next (bad 3))
          ∧ (s.self.ten = 0 ∨ (∀ r, r < 16 → s.ttab st r = s.self.ten.toNat) →
            (s.ownerDie st = n → exec (.handStk g a b) s = .next (s.withSelf s.self.advance))
            ∧ (s.ownerDie st ≠ n → exec (.handStk g a b) s = .next { s.withSelf { s.self with st := .waiting, wait := some (.handStk st n) } with
                hubQ := insHub (.hand st n s.cur s.time) s.hubQ })))))
    ∧ (∀ (r : HubReq) (l : List HubReq), (∀ q ∈ l, r.before q = false) → insHub r l = l ++ [r])
    ∧ ∀ (s : State) (st n t0 : Nat) (c : CtxId) (rest : List HubReq), s.hubQ = .hand st n c t0 :: rest → n < 4 → (∀ l ∈ (s.die (s.ownerDie st)).l2, l.armed = false) →
        ∃ t, exec (.stackHandOver st) s = .next t ∧ t.hubQ = rest ∧ t.ownerDie st = n ∧ t.mem = s.mem ∧ t.unspec = s.unspec
          ∧ (s.ownerDie st ≠ n → ∀ k, ∀ l ∈ (t.die k).l2, stackOf l.pa ≠ st) ∧ ∀ c, t.ctx c = s.ctx c)
  -- RegisterRowsWriteTheirRegister
  ∧ (
    (∀ (s : State) (v : W64), s.booted = true → s.lockedTenants = [] → (∀ n, s.LastWriter hostId n) →
      (∀ st h, st < 16 → h < 2 → (∀ r ∈ s.hubQ, r.stack ≠ st) → v.toNat < 2 ^ 48 → (s.mgv (0x0180 + 2 * st + h)).toNat < 2 ^ 48 →
        ∃ t, exec (.ttabWrite st h v) s = .next t ∧ t.mgv (0x0180 + 2 * st + h) = v
        ∧ t.hubQ = s.hubQ ∧ ∀ e, e < 8 → ttEntry (s.mgv (0x0180 + 2 * st + h)) e ≠ ttEntry v e →
            t.unspec.any (fun u => u.1 == st * 2 ^ 36 + (8 * h + e) * 2 ^ 32 && u.2.1 == st * 2 ^ 36 + (8 * h + e + 1) * 2 ^ 32) = true)
      ∧ (∀ st, st < 16 → exec (.tlogWrite st) s = .next ((s.setMg (0x01A0 + st) 0).wroteBy hostId (0x01A0 + st) 0))
      ∧ exec .fwlogWrite s = .next ((s.setMg 0x09C2 0).wroteBy hostId 0x09C2 0)
      ∧ exec .evlostWrite s = .next ((s.setMg 0x0A43 0).wroteBy hostId 0x0A43 0)
      ∧ (∀ y, y < 16 → ∃ t, exec (.wdrWrite y v) s = .next t ∧ t.mgv (0x7600 + y) = s.mgv (0x7600 + y) &&& v)
      ∧ (∀ i, i < 64 → exec (.mlogtWrite i v) s = .next ((s.setMg (0x8121 + 2 * i) v).wroteBy hostId (0x8121 + 2 * i) v))
      ∧ ∀ n l, mgFields n = some l → (fldsOk l v = false → exec (.registerWrite n v) s = .next s)
        ∧ (fldsOk l v = true → plainReg n → exec (.registerWrite n v) s = .next ((s.setMg n (fldsMerge l (s.mgv n) v)).wroteBy hostId n v)))
    ∧ ∀ (s : State) (v : W64), s.booted = false → ∀ i ∈ ([.fwlogWrite, .evlostWrite] ++ (List.range 16).map .tlogWrite ++ (List.range 16).map (fun y => .wdrWrite y v)
        ++ (List.range 64).map (fun t => .mlogtWrite t v) ++ (List.range 65536).map (fun n => .registerWrite n v) : List Instr), exec i s = .next s)
  -- BindingRowsBind
  ∧ (
    ∀ (s : State) (v : W64), s.booted = true → s.lockedTenants = [] → (∀ n, s.LastWriter hostId n) →
      (∀ die, die < 4 → v.toNat ≤ 8 → bits (s.mgv (0x0100 + 16 * die)) 3 0 ≠ v.toNat → s.mgv (0x0100 + 16 * die) = BitVec.ofNat 64 (bits (s.mgv (0x0100 + 16 * die)) 3 0) →
        ∃ t, exec (.l2remwWrite die v) s = .next t ∧ t.mgv (0x0100 + 16 * die) = v ∧ ∀ k, k < 80 → ((t.die die).convert.get? k).isSome = true)
      ∧ (∀ a, a < 2048 → (∀ q, s.qCfg q = 0) → v.toNat % 2 ^ 63 < 64 → s.mgv (0x1000 + a) = 0 →
        exec (.asidoWrite a v) s = .next ((s.setMg (0x1000 + a) v).wroteBy hostId (0x1000 + a) v))
      ∧ (∀ q, q < 64 → s.qCfg q = 0 → 
        s.asidOk (s.qAsid q) (s.qTen q) = true → v = BitVec.ofNat 64 (2 ^ 63 + bits v 55 6 * 64 + bits v 5 3 * 8) →
          exec (.lqcfgWrite q v) s = .next { (s.setMg (0x0880 + 4 * q) v).wroteBy hostId (0x0880 + 4 * q) v with queues := s.queues.erase q })
      ∧ (∀ core n, core < 320 → n < 4 → s.qCfg (64 + 4 * core + n) = 0 → s.asidOk (s.qAsid (64 + 4 * core + n)) (s.qTen (64 + 4 * core + n)) = true →
        v = BitVec.ofNat 64 (2 ^ 63 + bits v 55 6 * 64) →
          exec (.ceqWrite core n v) s = .next { (s.setMg (0xA000 + 8 * core + 2 * n) v).wroteBy hostId (0xA000 + 8 * core + 2 * n) v with
            queues := s.queues.erase (64 + 4 * core + n) })
      ∧ ∀ n, mgFields n = none → exec (.registerWrite n v) s = .next s)

/-- R24, R194, R403, R405, R406, R407, R410: a corrected single-bit error of a bank is counted in CE; a good resend of a flit in the link's CE; a failing
one marks the link, which is lasting-failed from then on at both of its ends, and withdraws both cores; a parity error of an element in a queue or
buffer of a running load takes that element, its credit excepted, out of the queue, stops the load with the next cycle and raises HW_ERROR, source 1;
a lasting one is reported and withdraws the core. The address that a failed link's event names is a free value (the model's choice, log 70). R24,
R136, R279, R403, R404: a double-bit error whose second read is clean is only counted, for a bank; one of a bank that stays poisons its word, and a
lasting one withdraws its core; one of the instruction store, of a load's configuration, of an L2 line and of HBM poisons that word, and a running
load's configuration error holds it; of an entry of a sink table only a lasting one is seen, which withdraws its core (the model's choice, log 130).
R415, R419: a module of a seam is taken out of service; while fewer than sixteen are out, no link fails; with the last of them every link of the seam
has failed and its cores are withdrawn. The model's own choices or readings in this: log 69, 71 (which links fail together, and what a lost request
leaves); log 73 (words whose errors no register counts); log 69 (the failure of a seam). -/
def Obligations.HardwareErrorsAreContained : Prop :=
  -- LinkAndParityErrors
  (
    (∀ (s : State) (core j : CoreId) (side n : Nat) (acn : Bool), s.off = false → core < 320 → besideCore core side = some j → n = 0x6800 + 8 * core + side →
      exec (.flitCrcRetry core side acn true) s = .next (s.setMg n (setBits (s.mgv n) 31 0 (min (2 ^ 32 - 1) (bits (s.mgv n) 31 0 + 1))))
      ∧ (s.flits = [] → s.acnMsgs = [] → s.dead = [] → ∃ t, exec (.flitCrcRetry core side acn false) s = .next t ∧ t.mgv n = setBits (s.mgv n) 32 32 1
        ∧ t.dead = [⟨core, side, !acn, if acn then 3 else 2⟩, ⟨j, oppSide side, !acn, if acn then 3 else 2⟩]
        ∧ t.withdrawn core = true ∧ t.withdrawn j = true))
    ∧ (∀ (s : State) (core : CoreId) (i n : Nat), s.off = false → core < 320 → i < 32 → n = 0x4000 + 32 * core + i →
        s.corrected core i = s.setMg n (setBits (s.mgv n) 31 0 (min (2 ^ 32 - 1) (bits (s.mgv n) 31 0 + 1))))
    ∧ (∀ (s : State) (c : CtxId) (buf : Buf) (f : Fab) (X Y : State), s.off = false → (s.ctx c).cur.st = .running → (s.ctx c).fab.stopped = false →
        (s.ctx c).fab.lose buf = some f → Y = (s.setCtx c { s.ctx c with fab := f }).cmdLost c buf →
        X = (Y.putLease (Y.lidOf c) { Y.leaseFor c with stopAt := some (((Y.leaseFor c).stopAt.map (fun t => min t (s.time + 1))).getD (s.time + 1)) }).raise c
          ⟨0x1D, BitVec.ofNat 64 (bufUnit buf), 1⟩ →
        exec (.queueParityError c buf false) s = .next X
        ∧ exec (.queueParityError c buf true) s
          = .next ((X.event 4 (X.ctx c).ten.toNat (X.ctx c).lease 0 0 (coreOf c) (c % 4) (BitVec.ofNat 64 (bufUnit buf))).withdrawCore (coreOf c)))
    ∧ (∀ (f : Fab) (n q i : Nat) (p : Part) (it : QItem), f.sink? (.queue n q) = some p → p.items[i]? = some it →
        ∃ g, f.lose (.queue n q i) = some g ∧ g.sink? (.queue n q) = some { p with items := loseItem p.items i })
    ∧ ∀ (l : List QItem) (i : Nat), ((∀ v, l[i]? ≠ some (.el v true)) → loseItem l i = l.take i ++ l.drop (i + 1))
        ∧ ∀ u v b, l[i]? = some (.el u b) → l[i + 1]? = some (.el v true) → loseItem l (i + 1) = l.take i ++ [.el u true] ++ l.drop (i + 2))
  -- DoubleBitErrorsPoisonTheirWord
  ∧ (
    ∀ (s : State), s.off = false →
      (∀ core a n, core < 320 → a < 2 ^ 22 → n = 0x4000 + 32 * core + a / 2 ^ 17 →
        exec (.eccDoubleRetry (.bank core a) true false) s = .next (s.setMg n (setBits (s.mgv n) 47 32 (min (2 ^ 16 - 1) (bits (s.mgv n) 47 32 + 1))))
        ∧ ∃ t, exec (.eccDoubleRetry (.bank core a) false false) s = .next t ∧ (t.core core).poison.contains (a / 8 * 8) = true ∧ t.mem = s.mem)
      ∧ (∀ core a, core < 320 → a < 2 ^ 22 → ∃ t, exec (.eccDoubleRetry (.bank core a) false true) s = .next t
          ∧ (t.core core).poison.contains (a / 8 * 8) = true ∧ t.withdrawn core = true)
      ∧ (∀ c a, a < (s.ctx c).ilen → ∃ t, exec (.eccDoubleRetry (.text c a) false false) s = .next t ∧ s.OnlyCtx t c
          ∧ (t.ctx c).ipoison.contains (a / 8 * 8) = true)
      ∧ (∀ c u, (s.ctx c).cur.st = .running → (s.ctx c).fab.stopped = false → confUnit u = true → exec (.eccDoubleRetry (.conf c u) false false) s = .next
          ((s.setCtx c { s.ctx c with cur := { (s.ctx c).cur with bad := u :: (s.ctx c).cur.bad } }).fabFault c (confTrap u)))
      ∧ (∀ core id, core < 320 → exec (.eccDoubleRetry (.sink core id) false false) s = .next s ∧ exec (.eccDoubleRetry (.sink core id) true false) s = .next s
          ∧ ∃ t, exec (.eccDoubleRetry (.sink core id) false true) s = .next t ∧ t.withdrawn core = true ∧ (t.core core).sinks = (s.core core).sinks)
      ∧ ∀ pa, s.isLocal pa = true → ∀ w ∈ ([.l2 pa, .hbm pa] : List EccWord), ∃ t, exec (.eccDoubleRetry w false false) s = .next t
          ∧ t = { s with hbmPoison := t.hbmPoison } ∧ t.hbmPoison.contains (memKey pa / 8 * 8) = true)
  -- SeamModulesFailOneByOne
  ∧ (
    ∀ (s : State) (seam : Nat), s.off = false → seam < 4 →
      ((s.ucie.get? seam).getD 0 < 15 → ∃ t, exec (.ucieModuleFail seam) s = .next t ∧ t.ucie.get? seam = some ((s.ucie.get? seam).getD 0 + 1)
        ∧ t.dead = s.dead ∧ ∀ k, t.withdrawn k = s.withdrawn k)
      ∧ ((s.ucie.get? seam).getD 0 = 15 → s.flits = [] → s.acnMsgs = [] → ∃ t, exec (.ucieModuleFail seam) s = .next t ∧ t.ucie.get? seam = some 16
        ∧ ∀ e ∈ seamLinks seam, t.withdrawn e.1 = true ∧ ∃ d ∈ t.dead, d.core = e.1 ∧ d.side = e.2 ∧ d.mesh = true))

/-- R374, R382 to R385, R410, R430, R461: a power interval ends no earlier than its time; it shares the energy measured in it among the tenants by the
weight of their events beside those of all and the idle weight (free energies of the events: the model's choice, log 138), each tenant's share among
the launch queues that its live leases are charged to by their events, adds each share in whole microjoules, the fraction kept, to its counter, and
starts the counts and byte budgets again; a tenant with a cap that is over it loses two sixteenths of duty down to its minimum, one under seven
eighths of it gains one, from the next cycle that 16 divides on; CLK shows a lowered clock with its mark, and 1100 MHz again, and time in microseconds
goes on. R459: a die that passes 115 °C shows its temperature and reports event 13 once, until it has fallen below 110 °C; one that passes 125 °C
takes the power of the package away: every context and all memory are lost. R410, R460: a device reset empties every context and core and returns
every management register to its reset value but the error counts and withdrawals; a function-level reset of function 0 is one, and of a function
whose interface is locked or runs an error of it; a loss of power takes those too. R33, R437, R438, R460, R461: boot starts with the measurement of
its ROM; stages 1 and 2 check the firmware images of the hub, and of the compute dies and Jexlink, and measure them: an image whose key is not the
fused one or whose signature is wrong fails with cause 1, one below the fused version with cause 2; stage 3 trains the link and stage 4 the memory,
which fail with 3 and 4; the end of stage 4 is DONE, with every context EMPTY, every TTAB entry 0 and the content of HBM unspecified. A failed stage
stands in BOOTST with its cause. The model's own choices or readings in this: log 68, 77, 139 (rounding, budgets and the time of an interval); log 76
(the sample that TJ shows); log 2, 72 (unwritten memory, and dead links that stay); log 82, 135 (the causes of a stage, and the signed bytes). -/
def Obligations.PowerResetsAndBoot : Prop :=
  -- PowerIntervalsAndClock
  (
    (∀ (s : State) (core hbm : Nat) (peak : List Nat), s.off = false →
      (s.micros < (10 * (s.intervals + 1) : Nat) → exec (.powerInterval core hbm peak) s = .next s)
      ∧ ((10 * (s.intervals + 1) : Nat) ≤ s.micros → ∃ t, exec (.powerInterval core hbm peak) s = .next t ∧ t.intervals = s.intervals + 1 ∧ t.events = []
        ∧ t.spent = [] ∧ t.mem = s.mem ∧ (∀ c, t.ctx c = s.ctx c)
        ∧ ∀ e : Rat, e = ((core + hbm : Nat) : Rat) / 1000 →
          (∀ k fr, k < 64 → fr = (s.frac.get? (0x0840 + k)).getD 0 → 0 ≤ fr → fr < 1 →
            t.mgv (0x0840 + k) = s.mgv (0x0840 + k) + BitVec.ofInt 64 (fr + s.tenantShare e k).floor
            ∧ (t.frac.get? (0x0840 + k)).getD 0 = fr + s.tenantShare e k - (fr + s.tenantShare e k).floor)
          ∧ (∀ q fr tot, q < 64 → q ∈ s.chargedQueues → fr = (s.frac.get? (0x0882 + 4 * q)).getD 0 → 0 ≤ fr → fr < 1 →
            tot = fr + ((List.range 64).map (fun k => s.queueShare e k q)).sum → t.mgv (0x0882 + 4 * q) = s.mgv (0x0882 + 4 * q) + BitVec.ofInt 64 tot.floor)
          ∧ ∀ k v, k < 64 → v = s.mgv (0x0800 + k) →
            (bits v 31 16 = 0 → t.mgv (0x0800 + k) = v)
            ∧ (bits v 31 16 ≠ 0 → t.mgv (0x0800 + k) = setBits v 15 12 (s.duty k - 1)
              ∧ t.dutyNext.get? k = some (nextDuty (s.duty k) (bits v 11 8) (bits v 31 16) (s.tenantShare e k) - 1, (s.time / 16 + 1) * 16))))
    ∧ (∀ (s : State) (e : Rat) (k q all mine : Nat), all = s.weight (fun _ _ => true) + Config.idleEnergy →
        mine = s.weight (fun l u => u == k && (s.leases.get? l).any (fun n => n.ten == k && n.queue.isSome)) →
          (all ≠ 0 → s.tenantShare e k = e * s.weight (fun _ u => u == k) / all)
          ∧ (mine ≠ 0 → s.queueShare e k q
            = s.tenantShare e k * s.weight (fun l u => u == k && (s.leases.get? l).any (fun n => n.ten == k && n.queue == some q)) / mine))
    ∧ (∀ (d dmin cap : Nat) (e : Rat), (e > 10 * cap → nextDuty d dmin cap e = max (dmin + 1) (d - 2))
        ∧ (8 * e < 70 * cap → nextDuty d dmin cap e = min 16 (d + 1)) ∧ (e ≤ 10 * cap → 70 * cap ≤ 8 * e → nextDuty d dmin cap e = d))
    ∧ ∀ (s : State) (mhz : Nat), s.off = false →
        (0 < mhz → mhz ≤ 1100 → ∃ t, exec (.clkLower mhz) s = .next t ∧ t.mgv 0x9002 = BitVec.ofNat 64 (2 ^ 16 + mhz) ∧ t.micros = s.micros
          ∧ t = { s with mg := t.mg, clkBase := t.clkBase } ∧ ∀ n, n ≠ 0x9002 → t.mgv n = s.mgv n)
        ∧ ∃ t, exec .clkRestore s = .next t ∧ t.mgv 0x9002 = 1100 ∧ t.micros = s.micros)
  -- ThermalEventsAndTrip
  ∧ (
    ∀ (s : State) (die temp : Nat), s.off = false → die ≤ 4 →
      (115 < temp → die ∉ s.hot → exec (.thermalEvent die temp) s = .next ((({ s with hot := die :: s.hot }).setMg (0x9010 + die)
        (BitVec.ofNat 64 (min 255 temp))).event 13 0 0 0 0 0 0 (BitVec.ofNat 64 die)))
      ∧ (115 < temp → die ∈ s.hot → exec (.thermalEvent die temp) s = .next s)
      ∧ (temp < 110 → exec (.thermalRearm die temp) s = .next (({ s with hot := s.hot.filter (· != die) }).setMg (0x9010 + die) (BitVec.ofNat 64 (min 255 temp))))
      ∧ (125 < temp → ∃ t, exec (.thermalTrip die temp) s = .next t ∧ t.off = true ∧ t.mem = [] ∧ ∀ c, (t.ctx c).st = .empty))
  -- ResetsLeaveWhatTheManualSays
  ∧ (
    ∀ (s : State),
      (∃ t, exec .deviceReset s = .next t ∧ (∀ c, t.ctx c = Ctx.blank) ∧ (∀ k, t.core k = Core.blank) ∧ t.leases = [] ∧ t.queues = [] ∧ t.vfs = [] ∧ t.dreqs = []
        ∧ ∀ n, t.mgv n = if survives n then s.mgv n else mgReset n)
      ∧ (s.off = false → exec (.functionLevelReset 0) s = exec .deviceReset s
        ∧ ∀ f, f ≠ 0 → (s.tds f = 1 ∨ s.tds f = 2 → exec (.functionLevelReset f) s = .next (s.tdispErr f 4 0))
          ∧ (s.tds f = 0 ∨ s.tds f = 3 → exec (.functionLevelReset f) s = .next s))
      ∧ ∃ t, exec .powerLoss s = .next t ∧ t.off = true ∧ t.mem = [] ∧ (∀ c, t.ctx c = Ctx.blank) ∧ ∀ n, t.mgv n = mgReset n)
  -- BootGoesStageByStage
  ∧ (
    (∀ (s : State) (m : FwImage), (sha512 m.key ≠ s.fuse.1 ∨ edVerify m.key (toBytes 2 m.ver.toNat ++ m.code) m.sig = false → s.fwFault m = some 1)
      ∧ (sha512 m.key = s.fuse.1 → edVerify m.key (toBytes 2 m.ver.toNat ++ m.code) m.sig = true →
        (m.ver.toNat < s.fuse.2 → s.fwFault m = some 2) ∧ (s.fuse.2 ≤ m.ver.toNat → s.fwFault m = none)))
    ∧ ∀ (s : State) (st : Nat) (m j : FwImage) (imgs : List FwImage) (trained : Bool), s.off = false → st = bits (s.mgv 0x9001) 3 0 →
      (st = 0 → ∃ t, exec (.bootStageComplete imgs trained) s = .next t ∧ bits (t.mgv 0x9001) 3 0 = 1 ∧ t.meas.get? 1 = some (sha512 Config.bootRom))
      ∧ (st = 1 → s.fwFault m = none → ∃ t, exec (.bootStageComplete [m] trained) s = .next t ∧ bits (t.mgv 0x9001) 3 0 = 2
        ∧ bits (t.mgv 0x9001) 63 48 = m.ver.toNat ∧ t.meas.get? 2 = some (sha512 m.code))
      ∧ (st = 2 → s.fwFault m = none → s.fwFault j = none → ∃ t, exec (.bootStageComplete [m, j] trained) s = .next t ∧ bits (t.mgv 0x9001) 3 0 = 3
        ∧ bits (t.mgv 0x9001) 47 32 = m.ver.toNat ∧ t.meas.get? 3 = some (sha512 m.code) ∧ t.meas.get? 5 = some (sha512 j.code)
        ∧ t.meas.get? 4 = some (sha512 Config.fuseBytes))
      ∧ (st = 3 → ∃ t, exec (.bootStageComplete imgs true) s = .next t ∧ bits (t.mgv 0x9001) 3 0 = 4 ∧ t.link = true)
      ∧ (st = 4 → ∃ t, exec (.bootStageComplete imgs true) s = .next t ∧ bits (t.mgv 0x9001) 3 0 = 5 ∧ t.mem = [] ∧ t.unspec = [(0, 2 ^ 40, s.free)]
        ∧ (∀ c, t.ctx c = Ctx.blank) ∧ (∀ k, t.core k = Core.blank) ∧ ∀ i, i < 32 → t.mgv (0x0180 + i) = 0)
      ∧ ∀ k, (st = 1 ∧ imgs = [m] ∧ s.fwFault m = some k) ∨ (st = 2 ∧ imgs = [m, j] ∧ (s.fwFault m = some k ∨ (s.fwFault m = none ∧ s.fwFault j = some k)))
          ∨ (3 ≤ st ∧ st ≤ 4 ∧ trained = false ∧ k = st) →
          ∃ t, exec (.bootStageComplete imgs trained) s = .next t ∧ bits (t.mgv 0x9001) 3 0 = 15 ∧ bits (t.mgv 0x9001) 7 4 = k ∧ bits (t.mgv 0x9001) 11 8 = st
            ∧ t.mem = s.mem ∧ t.meas = s.meas)

/-- R289, R432, R444: a read and a write through the aperture of a function that passes every check return and store their bytes; FetchAdd, Swap and CAS
of an aligned 64-bit word return its old value and store the new one; with no logging, nothing else is written. R385, R400, R431, R433, R435, R436,
R440, R456, R460: function 0 reads and writes every management register through BAR0; a vector with NMAX pending events, or with one since TMAX
microseconds, sends its interrupt, or sets its Pending Bit while it or its function is masked, which unmasking sends; with MSI-X off none is sent (the
places of the two bits of a function are PCIe's: log 136); VF Enable adds a VF with new keys, for which the content of its tenant's regions is lost,
and its clearing ends every VF: its interface is unlocked, its contexts and leases end, its queues are unbound and its registers return to reset, its
handles, translations, ASIDs, keys and regions go, and event 10 names the VFs. The model's own choices or readings in this: log 78, 79 (completion
statuses and the log); log 42, 43, 67, 140 (the layout of functions, masks at reset, keys of a VF). -/
def Obligations.HostAccessesAndInterrupts : Prop :=
  -- ApertureAccesses
  (
    ∀ (s s' : State) (f off pa : Nat) (tbit : Option Nat), (s'.mgv (0x80A0 + f)).getLsbD 0 = false → s'.mem.wf = true →
      (∀ len, s.AperOk f off len false tbit ⟨true, false⟩ pa s' → exec (.apertureRead f off len tbit) s = .next (s'.answered (.data (s'.devBytes pa len))))
      ∧ (∀ bs, memKey pa + bs.length ≤ 2 ^ 40 → s.AperOk f off bs.length true tbit ⟨false, true⟩ pa s' →
        ∃ t, exec (.apertureWrite f off bs tbit) s = .next t ∧ t.reply = .none ∧ s'.DevWritten t pa bs)
      ∧ (∀ v old, s.AperOk f off 8 true tbit ⟨true, true⟩ pa s' → off % 8 = 0 → pa % 8 = 0 → old = ofBytes (s'.devBytes pa 8) →
        (∃ t, exec (.apertureFetchadd f off v tbit) s = .next t ∧ t.reply = .data (toBytes 8 old) ∧ s'.DevWritten t pa (toBytes 8 ((old + v.toNat) % 2 ^ 64)))
        ∧ (∃ t, exec (.apertureSwap f off v tbit) s = .next t ∧ t.reply = .data (toBytes 8 old) ∧ s'.DevWritten t pa (toBytes 8 v.toNat))
        ∧ ∀ x, ∃ t, exec (.apertureCas f off x v tbit) s = .next t ∧ t.reply = .data (toBytes 8 old)
            ∧ s'.DevWritten t pa (if old = x.toNat then toBytes 8 v.toNat else [])))
  -- FunctionsAndInterrupts
  ∧ (
    (∀ (s : State) (n : Nat) (tbit : Option Nat), s.booted = true → n < 2 ^ 16 → (mgFields n).isSome = true →
      exec (.bar0RegisterAccess 0 (8 * n) none tbit) s = .next (s.answered (.data (toBytes 8 (s.mgRead n).toNat)))
        ∧ ∀ v, exec (.bar0RegisterAccess 0 (8 * n) (some v) tbit) s = .next ((s.mgWrite hostId n v).answered .none))
    ∧ (∀ (s : State) (f v : Nat) (m : MsixVec), f < 64 → v < 64 → s.booted = true → s.tds f ≠ 3 → m = s.vector f v →
      f = 0 ∨ (s.cfgByte f (Config.msixCap f + 3)).getLsbD 7 = true →
        (m.pending ≠ 0 → bits (s.mgv (0x8220 + f)) 7 0 ≤ m.pending ∨ (bits (s.mgv (0x8220 + f)) 31 16 : Nat) ≤ s.micros - m.since →
          (m.masked = false → f = 0 ∨ (s.cfgByte f (Config.msixCap f + 3)).getLsbD 6 = false →
            ∃ t, exec (.msixInterrupt f v) s = .next t ∧ t.reply = .msix f v ∧ (t.vector f v).pending = 0)
          ∧ (m.masked = true ∨ (f ≠ 0 ∧ (s.cfgByte f (Config.msixCap f + 3)).getLsbD 6 = true) →
            ∃ t, exec (.msixInterrupt f v) s = .next t ∧ t.reply = s.reply ∧ (t.vector f v).pending = 0 ∧ (t.vector f v).pba = true))
        ∧ (m.pending < bits (s.mgv (0x8220 + f)) 7 0 → s.micros - m.since < (bits (s.mgv (0x8220 + f)) 31 16 : Nat) → m.pba = false →
            exec (.msixInterrupt f v) s = .next s)
        ∧ (f = 0 ∨ (s.cfgByte f (Config.msixCap f + 3)).getLsbD 6 = false → ∃ t, exec (.msixVectorUnmask f v) s = .next t ∧ (t.vector f v).masked = false
          ∧ (t.vector f v).pba = false ∧ t.reply = if m.pba then .msix f v else s.reply))
    ∧ (∀ (s : State) (f v : Nat), f ≠ 0 → (s.cfgByte f (Config.msixCap f + 3)).getLsbD 7 = false → exec (.msixInterrupt f v) s = .next s)
    ∧ (∀ (s : State) (k : Nat), 0 < k → k < 64 → s.booted = true → k ∉ s.vfs → ∃ t, exec (.vfEnableSet k) s = .next t ∧ t.vfs = s.vfs ++ [k]
        ∧ t.keys.get? k = some s.free ∧ t.mem = s.mem ∧ (∀ c, t.ctx c = s.ctx c)
        ∧ ∀ st r, st < 16 → r < 16 → s.ttab st r = k →
            t.unspec.any (fun u => u.1 == st * 2 ^ 36 + r * 2 ^ 32 && u.2.1 == st * 2 ^ 36 + (r + 1) * 2 ^ 32) = true)
    ∧ (∀ (s X : State) (live : List Nat), live = (List.range 64).filter (fun k => k != 0 && s.vfs.contains k) → live ≠ [] →
        X = live.foldl (fun s k => (({ s.setMg (0x8260 + k) 0 with tdis := s.tdis.erase k, resets := s.resets.erase k }.endTenant k).unbindTenant k).disownTenant k) s →
          exec .vfEnableClear s = .next (({ X with vfs := [], msix := s.msix.filter (fun e => e.1 < 64), vfCfg := [] } : State).event 10 0 0 0 0 0 0
            (BitVec.ofNat 64 (live.foldl (fun a k => a + 2 ^ k) 0))))
    ∧ (∀ (s X Y : State) (k : Nat),
        X = (s.leases.filter (fun e => e.2.ten == k)).foldl (fun s e => match e.2.moving with | some m => s.abandon e.1 e.2 m | none => s) s →
        Y = (X.ctxsOf k).foldl (fun s c => (s.gate c 0).destroyCtx c) X →
          s.endTenant k = (Y.leases.filter (fun e => e.2.ten == k)).foldl (fun s e => s.freeLease e.1) Y)
    ∧ (∀ (s : State) (k q : Nat), k < 64 → q ∈ allQueues s → s.qTen q = k →
        ((s.unbindTenant k).qCfg q).getLsbD 63 = false ∧ (s.unbindTenant k).queues.get? q = none
        ∧ ∀ n ∈ [0x8020 + k, 0x0980 + k, 0x8060 + k, 0x80A0 + k, 0x81A0 + 2 * k, 0x82A0 + k], (s.unbindTenant k).mgv n = mgReset n)
    ∧ ∀ (s : State) (k : Nat), 0 < k → k < 64 → (s.disownTenant k).keys.get? k = none ∧ (∀ st r, st < 16 → r < 16 → (s.disownTenant k).ttab st r ≠ k)
        ∧ ∀ a, a < 2048 → bits ((s.disownTenant k).mgv (0x1000 + a)) 5 0 ≠ k)

/-- R391, R437 to R442, R455, R456: an unlocked interface that is asked to lock, on a stream whose keys have been programmed in an SPDM session, is locked
on it with the SHA-512 digest of its frozen set; a locked one starts, and reports; a STOP begins the steps of its partition reset; an error it meets
puts it into ERROR: its contexts are gated from source 3, those of its evicted leases from their restore on, and event 12 names the cause and the
place. SPDM answers with the algorithms, capabilities, certificate slot and measurements of the device; signatures and key shares are free values (the
model's choice, log 44). R268, R282, R293, R425, R426, R428, R430: a port trains after boot; its link fails once, with event 4; a peer's request for
another node is passed on, one whose tag no tenant holds is refused with MEM_TENANT and a peer's mark, which TLOG of stack 15 keeps with RTEN 0, and a
read for a tenant that the target's checks pass returns its bytes, and a write stores them; one that they refuse is answered with the refusal. A
port's keys are not modelled (the model's choice, log 83). The model's own choices or readings in this: log 81, 137 (refused requests, and SPDM index
255); log 30, 80, 84 (untagged fills, no event for an unknown tag, bytes of other packages). -/
def Obligations.InterfacesAndPeers : Prop :=
  -- InterfacesLockStartAndStop
  (
    (∀ (s : State) (k : Nat), s.booted = true →
      (k ∈ s.vfs → s.session = true →
        (∀ st, s.tds k = 0 → (st ∈ s.ideKeys → ∃ t, exec (.lockInterfaceRequest k st) s = .next t ∧ t.mgv (0x8260 + k) = 1 ∧ t.reply = .none
            ∧ (t.tdis.get? k).map (fun d => (d.stream, d.digest)) = some (st, s.frozen k))
          ∧ (st ∉ s.ideKeys → exec (.lockInterfaceRequest k st) s = .next (s.answered .invalidState)))
        ∧ (s.tds k = 1 → exec (.startInterfaceRequest k) s = .next ((s.setMg (0x8260 + k) 2).answered .none))
        ∧ ∀ d, s.tdis.get? k = some d → s.tds k ≠ 0 →
          (∃ r, exec (.getDeviceInterfaceReport k) s = .next (s.answered (.report r)) ∧ r.state = s.tds k ∧ r.frozen = d.digest)
          ∧ (s.resets.get? k = none → exec (.stopInterfaceRequest k) s = .next ((s.ctxsOf k).foldl (fun s c => s.gate c 3)
              { s.answered .none with tdis := s.tdis.set k { d with stopping := true }, resets := s.resets.set k 3 })))
      ∧ (k ∈ s.vfs → s.session = false → ∀ st, ∀ i ∈ ([.lockInterfaceRequest k st, .startInterfaceRequest k, .stopInterfaceRequest k, .getDeviceInterfaceReport k]
          : List Instr), exec i s = .next (s.answered (.spdm .error)))
      ∧ (∀ cause w, s.tds k = 1 ∨ s.tds k = 2 → 1 ≤ cause → cause ≤ 5 → exec (.tdispError k cause w) s = .next (s.tdispErr k cause (if cause ≤ 2 then w else 0)))
      ∧ (∀ st j, s.lockedTenants.filter (fun j => (s.tdis.get? j).any (fun d => d.stream == st)) = [j] → exec (.ideStreamFault st) s = .next (s.tdispErr j 5 0))
      ∧ (∀ off v, k ∈ s.vfs → off < 4096 →
        (s.tds k = 0 ∨ s.tds k = 3 → ∃ t, exec (.configSpaceWrite k off v) s = .next t ∧ t.cfgByte k off = v ∧ t = { s with vfCfg := t.vfCfg })
        ∧ (s.tds k = 1 ∨ s.tds k = 2 → frozenByte k off v ≠ frozenByte k off (s.cfgByte k off) →
          exec (.configSpaceWrite k off v) s = .next (s.tdispErr k 2 off))))
    ∧ (∀ (s X : State) (k cause w : Nat), X = (s.ctxsOf k).foldl (fun s c => s.gate c 3) (s.setMg (0x8260 + k) 3) →
        s.tdispErr k cause w = ({ X with leases := X.leases.map (fun e => (e.1, if e.2.ten = k then e.2.gateSaved else e.2)) } : State).event 12 k 0 0 0 0 0
          (BitVec.ofNat 64 (cause * 2 ^ 16 + w % 2 ^ 16))
        ∧ (s.tdispErr k cause w).mgv (0x8260 + k) = 3
        ∧ (∀ c, (s.ctx c).ten.toNat = k → (s.ctx c).st = .ready ∨ (s.ctx c).st = .waiting →
          ((s.ctx c).gated = false → ((s.tdispErr k cause w).ctx c).gateReq = (s.ctx c).gateReq ||| 8#4)
          ∧ ((s.ctx c).gated = true → ((s.tdispErr k cause w).ctx c).gsrc = (s.ctx c).gsrc ||| 8#4))
        ∧ ∀ lid l, s.leases.get? lid = some l → l.ten = k → (s.tdispErr k cause w).leases.get? lid = some l.gateSaved
          ∧ ∀ v ∈ l.gateSaved.saved, v.ctx.gsrc.getLsbD 3 = true)
    ∧ (∀ (s : State) (k : Nat), s.frozen k = sha512 (((s.frozenRegs k).map (fun n => toBytes 2 n ++ toBytes 8 (s.mgv n).toNat)).flatten
        ++ (List.range 4096).map (fun o => frozenByte k o (s.cfgByte k o))))
    ∧ ∀ (s : State) (data : List Byte), s.booted = true →
        exec (.spdmRequest .algorithms data) s = .next (s.answered (.spdm (.algorithms "EdDSA Ed25519" "SHA-512" "secp384r1" "AES-256-GCM")))
        ∧ exec (.spdmRequest .capabilities data) s = .next (s.answered (.spdm (.capabilities ["CERT", "CHAL", "MEAS signed", "KEY_EX", "ENCRYPT", "MAC"])))
        ∧ exec (.spdmRequest .digests data) s = .next (s.answered (.spdm (.digests [0])))
        ∧ exec (.spdmRequest (.certificate 0) data) s = .next (s.answered (.spdm (.certificate 0 Config.certChain)))
        ∧ (∀ i, i ≠ 255 → (∃ e ∈ s.meas, e.1 = i) → ∃ t sig, exec (.spdmRequest (.measurements i) data) s = .next t
          ∧ t.reply = .spdm (.measurements (s.meas.filter (fun e => e.1 == i)) sig) ∧ t.meas = s.meas)
        ∧ (∃ t, exec (.spdmRequest (.keyExchange 0) data) s = .next t ∧ t.session = true)
        ∧ ∀ k, (s.session = true → k < 8 → ∃ t, exec (.spdmRequest (.ideKeyProg k) data) s = .next t ∧ k ∈ t.ideKeys ∧ t.reply = .spdm .done)
            ∧ (s.session = false ∨ 8 ≤ k → exec (.spdmRequest (.ideKeyProg k) data) s = .next (s.answered (.spdm .error))))
  -- PeersAreServed
  ∧ (
    (∀ (s : State) (p : Nat), p < 32 →
      (s.booted = true → (s.jex.get? p).getD 0 = 0 → exec (.jexlinkTrain p) s = .next { s with jex := s.jex.set p 1 })
      ∧ (exec (.jexlinkKeyRenew p) s = .next s)
      ∧ (s.off = false → s.jex.get? p = some 1 → exec (.jexlinkLinkFail p) s = .next (({ s with jex := s.jex.set p 2 }).event 4 0 0 0 0 0 0 (BitVec.ofNat 64 p))))
    ∧ (∀ (s : State) (pa : Nat), (s.tagRefused pa).reply = .peerFault 0x15 (0x100 + stackOf pa + 16 * regionOf pa)
        ∧ (s.tagRefused pa).mgv 0x01AF = BitVec.ofNat 64 (min 65535 (bits (s.mgv 0x01AF) 63 48 + 1) * 2 ^ 48 + regionOf pa * 2 ^ 38
          + s.ttab 15 (regionOf pa) * 2 ^ 32 + pa / 16 % 2 ^ 32)
        ∧ (∀ n, n ≠ 0x01AF → (s.tagRefused pa).mgv n = s.mgv n) ∧ (s.tagRefused pa).mem = s.mem)
    ∧ ∀ (s : State) (q : PeerReq), (∃ e ∈ s.jex, e.2 = 1) →
        (q.node ≠ s.node → exec (.jexlinkRequest q) s = .next (s.answered (.forward q)))
        ∧ (q.node = s.node →
          ((∀ t, t < 64 → (s.mgv (0x8020 + t)).getLsbD 16 = true → bits (s.mgv (0x8020 + t)) 15 0 ≠ q.ftag.toNat) →
            exec (.jexlinkRequest q) s = .next (s.tagRefused q.pa))
          ∧ ∀ t n pa, t < 64 → (s.mgv (0x8020 + t)).getLsbD 16 = true → bits (s.mgv (0x8020 + t)) 15 0 = q.ftag.toNat →
              (∀ j, j < t → (s.mgv (0x8020 + j)).getLsbD 16 = true → bits (s.mgv (0x8020 + j)) 15 0 ≠ q.ftag.toNat) → pa = s.node * 2 ^ 48 + memKey q.pa →
                (∀ X, q.op = .read n → s.inBudget ⟨8 * t + 3, pa, n⟩ = true → s.canSpend t 3 n = true → X = (s.leaveBudget ⟨8 * t + 3, pa, n⟩).spend t 3 n →
                  (s.accessFault t none pa pa n = none → exec (.jexlinkRequest q) s = .next ((X.peerUse pa n false).answered (.data (s.devBytes pa n))))
                  ∧ ∀ f, s.accessFault t none pa pa n = some f → exec (.jexlinkRequest q) s = .next ((X.noteRefusal 0 t pa f).answered
                      (.peerFault f.cls.toNat (f.detail.toNat + (if f.cls = 0x15 then 0x100 else 0)))))
                ∧ (q.op = .read n → s.inBudget ⟨8 * t + 3, pa, n⟩ = false ∨ s.canSpend t 3 n = false →
                  exec (.jexlinkRequest q) s = .next (s.awaitBudget ⟨8 * t + 3, pa, n⟩))
                ∧ ∀ bs, q.op = .write bs → n = bs.length → s.inBudget ⟨8 * t + 4, pa, n⟩ = true → s.canSpend t 4 n = true →
                    (s.mgv (0x80A0 + t)).getLsbD 0 = false → s.wallFault t none pa pa = none → s.mem.wf = true →
                    memKey pa + n ≤ 2 ^ 40 → ∃ u, exec (.jexlinkRequest q) s = .next u ∧ u.reply = .none ∧ s.DevWritten u pa bs))

/-- R19, R20, R24, R30, R59: a step whose next move is a cycle of core k fetches and executes the word of the context whose turn it is. Where its IPC lies
in the image, the text word has no uncorrectable error and the word decodes to i, which is not held, the step is exec of i in the state whose current
context is c, after the cycles that the move takes, then the bookkeeping of R19 and the count of R382's events; where the IPC lies outside the image,
the text is bad or the word is reserved, the step takes IFETCH, the IPC error or ILLEGAL. A step whose next move is an internal operation is exec of
that operation, and the count. The model's own choices or readings in this: log 1, 6, 138 (the agenda, a held word, and where events are counted). -/
def Obligations.StepRunsTheDecodedWord : Prop :=
  (∀ (s s1 : State) (dt k n c : Nat) (rest : List (Nat × Move)), s.agenda = (dt, .issue k) :: rest → s1 = { s with agenda := rest, time := s.time + dt } →
    s1.Turn k n c →
      ((s.ctx c).ipc.toNat < (s.ctx c).ilen → (s.ctx c).ipoison.contains ((s.ctx c).ipc.toNat / 8 * 8) = false →
        (∀ i t, decodeWord ((s.ctx c).wordAt (s.ctx c).ipc.toNat) = .ok i → exec i { s1 with cur := c } = .next t →
          t.ctx c ≠ s.ctx c ∨ Instr.isFlow (s.ctx c) i = true → step s = .next (s1.tally (.issue k) (s1.issuedBy t k c)))
        ∧ ∀ e, decodeWord ((s.ctx c).wordAt (s.ctx c).ipc.toNat) = .error e →
          step s = .next (s1.tally (.issue k)
            (s1.issuedBy (({ s1 with cur := c } : State).raise c ⟨0x01, ((s.ctx c).wordAt (s.ctx c).ipc.toNat).zeroExtend 64, 0⟩) k c)))
      ∧ ((s.ctx c).ilen ≤ (s.ctx c).ipc.toNat →
          step s = .next (s1.tally (.issue k) (s1.issuedBy (({ s1 with cur := c } : State).raise c ⟨0x06, (s.ctx c).ipc.zeroExtend 64, 0⟩) k c)))
      ∧ ((s.ctx c).ipc.toNat < (s.ctx c).ilen → (s.ctx c).ipoison.contains ((s.ctx c).ipc.toNat / 8 * 8) = true →
          step s = .next (s1.tally (.issue k) (s1.issuedBy (({ s1 with cur := c } : State).raise c ⟨0x05, (s.ctx c).ipc.zeroExtend 64, 0x80⟩) k c))))
  ∧ ∀ (s s1 t : State) (dt : Nat) (i : Instr) (rest : List (Nat × Move)), s.agenda = (dt, .act i) :: rest → s1 = { s with agenda := rest, time := s.time + dt } →
      i.wf = true → encode i = none → exec i s1 = .next t → step s = .next (s1.tally (.act i) t)

/-- R18, R21, R30, R384, R391: a context that is not READY, waits, is gated, has a trap waiting or an older operation that can still trap, or whose
tenant's cycle is closed, does not issue; in a cycle in which no context of the core has its turn, or in which one has issued, nothing issues. R19,
R366, R399: while a READY context that is not gated has credit and has not yielded, the round goes on; when none has, a new round gives every context
that is not EMPTY the credit of its tenant's weight, and its first word goes in the following cycle. R460, 03: no step of the machine stops the model:
traps, faults and refusals of the manual are next states, from every state. The model's own choices or readings in this: log 98 (an older operation
that can still trap); log 7, 96, 97 (a cycle is a move of the agenda, the credit of a context that starts in a round, and END). -/
def Obligations.CyclesIssueInTurn : Prop :=
  -- ClosedContextsDoNotIssue
  (
    (∀ (s : State) (c : CtxId), (s.ctx c).st ≠ .ready ∨ (s.ctx c).wait ≠ none ∨ (s.ctx c).wake > s.time ∨ (s.ctx c).gated = true ∨ (s.ctx c).raised ≠ []
        ∨ (∃ o ∈ (s.ctx c).ops, s.retired o = false) ∨ s.isOpen (s.ctx c).ten.toNat = false → s.canIssue c = false)
    ∧ ∀ (s s1 : State) (dt k : Nat) (rest : List (Nat × Move)), s.agenda = (dt, .issue k) :: rest → s1 = { s with agenda := rest, time := s.time + dt } →
        ((∀ b, b < 4 → s1.Passed (4 * k + b)) → (s.core k).issued ≠ some s1.time → step s = .next (s1.tally (.issue k) (s1.endRound k)))
        ∧ ((s.core k).issued = some s1.time → step s = .next (s1.tally (.issue k) s1)))
  -- CyclesIssueInTurn
  ∧ (
    ∀ (s : State) (k : CoreId),
      ((∃ b, b < 4 ∧ (s.ctx (4 * k + b)).st = .ready ∧ (s.ctx (4 * k + b)).gated = false ∧ (s.ctx (4 * k + b)).credit ≠ 0 ∧ (s.ctx (4 * k + b)).skip = false) →
        s.endRound k = s)
      ∧ ((∀ b, b < 4 → (s.ctx (4 * k + b)).st = .ready → (s.ctx (4 * k + b)).gated = true ∨ (s.ctx (4 * k + b)).credit = 0 ∨ (s.ctx (4 * k + b)).skip = true) →
        ∀ b, b < 4 → (s.ctx (4 * k + b)).st ≠ .empty → ∀ w, w = bits (s.mgv (0x0800 + (s.ctx (4 * k + b)).ten.toNat)) 3 0 →
          (s.endRound k).ctx (4 * k + b) = { s.ctx (4 * k + b) with weight := w, credit := w, skip := false }
            ∧ ((s.ctx (4 * k + b)).credit ≠ w → ((s.endRound k).core k).issued = some s.time)))
  -- EveryStepHasANextState
  ∧ (
   ∀ s : State, s.Safe)

/-- R54 to R60, R413: words that the manual writes out decode to the instructions it names. -/
def Obligations.WordsOfTheManualDecode : Prop :=
  decodeWord 0x00210808#32 = .ok (.addi ⟨0, 0⟩ 1 1 8) ∧ decodeWord 0x70042141#32 = .ok (.add ⟨3, 1⟩ 4 4 5)
    ∧ decodeWord 0x0FE00000#32 = .ok (.tret ⟨0, 0⟩) ∧ decodeWord 0x07420801#32 = .ok (.std ⟨0, 0⟩ 2 1 1)
    ∧ decodeWord 0x048207FD#32 = .ok (.bne ⟨0, 0⟩ 2 0 (-3)) ∧ decodeWord 0x0E1FFC1F#32 = .ok (.waitAll ⟨0, 0⟩ 31 31 0 31)
    ∧ decodeWord 0x20129410#32 = .ok (.div ⟨1, 0⟩ 18 18 16) ∧ decodeWord 0x01EC0007#32 = .ok (.srrd ⟨0, 0⟩ 12 7)
    ∧ decodeWord 0x05414801#32 = .ok (.cmpiEq ⟨0, 0⟩ 1 9 1) ∧ decodeWord 0x0C894800#32 = .ok (.cntRd ⟨0, 0⟩ 9 9)

/-- R54 to R59, R90, R98: decoding and encoding agree over the whole instruction set: each word decodes to the operation that it encodes, with every
operand, each word that decodes is the encoding of what it decodes to, and every other word is ILLEGAL. -/
def Obligations.DecodingAndEncodingAgree : Prop :=
  (∀ (i : Instr) (w : BitVec 32), i.wf = true → encode i = some w → decodeWord w = .ok i)
  ∧ (∀ (w : BitVec 32) (i : Instr), decodeWord w = .ok i → encode i = some w ∧ i.wf = true)
  ∧ ∀ i j : Instr, i.wf = true → j.wf = true → encode i = encode j → encode i ≠ none → i = j

/-- R17, R21, R69, R348: every step of the machine, from every state in which the counters of all contexts count what is outstanding, leads to such a
state: no counter exceeds 31, and no two pending operations of a context share a number or a destination register. -/
def Obligations.CountersCountWhatIsOutstanding : Prop :=
 ∀ s t : State, s.AllCtx Ctx.Counted → step s = .next t → t.AllCtx Ctx.Counted

/-- R263, R264: every step of the machine keeps the channel queues of all contexts within their parts: the bank part's 32,768 elements, the ring's size,
and the elements between head and tail. -/
def Obligations.ChannelQueuesStayWithinTheirParts : Prop :=
 ∀ s t : State, s.AllCtx Ctx.QueuesFit → step s = .next t → t.AllCtx Ctx.QueuesFit

/-- R234: every step of the machine keeps, on every slot of every join table, credits and outstanding blocks adding up to the window. -/
def Obligations.CreditsAndBlocksMakeTheWindow : Prop :=
 ∀ s t : State, s.AllCtx Ctx.WindowsHold → step s = .next t → t.AllCtx Ctx.WindowsHold

/-- Device memory and every core's scratchpad keep their canonical form over every step (R278, R256; the form is the model's own, log entry 2): addresses
strictly rising and no listed byte equal to what an unlisted address reads as. -/
def Obligations.MemoryStaysCanonical : Prop :=
  ∀ s t : State, s.mem.wf = true → (∀ k : CoreId, (s.core k).sram.wf = true) → step s = .next t → t.mem.wf = true ∧ ∀ k : CoreId, (t.core k).sram.wf = true

/-- R14, R33, R294, R346, R387, R410, R460: the machine after reset: every context EMPTY, every core idle with zeroed banks, no lease, the stacks' and
tenants' registers at the values of the manual's tables, and device memory in its canonical form. The model's own choices or readings in this: log 4
(the values of an EMPTY context, of round robins and of queues, which the manual gives no reset value). -/
def Obligations.ResetIsTheManuals : Prop :=
  (∀ c : CtxId, (State.reset.ctx c).st = .empty ∧ (State.reset.ctx c).gated = false ∧ (State.reset.ctx c).gsrc = 0 ∧ (State.reset.ctx c).ops = [])
  ∧ (∀ k : CoreId, (State.reset.core k).sram = [] ∧ (State.reset.core k).poison = [] ∧ (State.reset.core k).divBusy = false ∧ (State.reset.core k).chains = [])
  ∧ State.reset.leases = [] ∧ State.reset.lastLid = 0 ∧ State.reset.mem.wf = true ∧ (∀ k : CoreId, (State.reset.core k).sram.wf = true)
  ∧ (∀ t, t < 64 → State.reset.mgv (0x0800 + t) = 0xF301)
  ∧ (∀ m, m < 4 → State.reset.mgv (0x0100 + 16 * m) = 4 ∧ State.reset.mgv (0x0101 + 16 * m) = 0x1214 ∧ State.reset.mgv (0x0102 + 16 * m) = 48)
  ∧ State.reset.mgv 0x09C0 = 0x01000001 ∧ State.reset.mgv 0x9002 = 1100
end

