-- ==== Sys2Proof/Laws/Mem.lean ====
section
/-! SUPPORT. Byte memories and tables: a read after a write, and the canonical form that every memory operation keeps. -/

namespace Sys2Proof.Machine

/-! ### Reads after writes -/

theorem Mem.get_below {lo : Nat} {m : Mem} (h : m.wfFrom lo = true) {a : Nat} (ha : a < lo) : m.get a = 0 := by
  induction m generalizing lo with
  | nil => rfl
  | cons e t ih =>
    obtain ⟨k, v⟩ := e
    simp only [Mem.wfFrom, Bool.and_eq_true, decide_eq_true_eq] at h
    have : a < k := by omega
    simp [Mem.get, this, Nat.ne_of_lt this]

theorem Mem.wfFrom_mono {lo hi : Nat} {m : Mem} (h : m.wfFrom hi = true) (hl : lo ≤ hi) : m.wfFrom lo = true := by
  cases m with
  | nil => rfl
  | cons e t =>
    obtain ⟨k, v⟩ := e
    simp only [Mem.wfFrom, Bool.and_eq_true, decide_eq_true_eq] at h ⊢
    exact ⟨⟨by omega, h.1.2⟩, h.2⟩

/-- A byte after a write in canonical form from lo: the byte written, or what was there. -/
theorem Mem.get_set_from {lo : Nat} {m : Mem} (h : m.wfFrom lo = true) {a : Nat} (b : Byte) (x : Nat) :
    (m.set a b).get x = if x = a then b else m.get x := by
  induction m generalizing lo with
  | nil =>
    by_cases hb : b = 0
    · simp [Mem.set, Mem.get, hb]
    · simp only [Mem.set, hb, if_false, Mem.get]
      split <;> simp
  | cons e t ih =>
    obtain ⟨k, v⟩ := e
    have hw := h
    simp only [Mem.wfFrom, Bool.and_eq_true, decide_eq_true_eq] at h
    simp only [Mem.set]
    by_cases h1 : a < k
    · by_cases hb : b = 0
      · simp only [h1, hb, if_true]
        by_cases hx : x = a
        · subst hx; simp [Mem.get, h1, Nat.ne_of_lt h1]
        · simp [hx]
      · simp only [h1, hb, if_true, if_false, Mem.get]
        by_cases hx : x = a
        · simp [hx]
        · by_cases hlt : x < a
          · have : x < k := by omega
            simp [hx, hlt, this, Nat.ne_of_lt this]
          · simp [hx, hlt]
    · by_cases h2 : a = k
      · subst h2
        by_cases hb : b = 0
        · simp only [Nat.lt_irrefl, if_false, hb, if_true]
          by_cases hx : x = a
          · subst hx; simp [Mem.get_below h.2 (Nat.lt_succ_self x)]
          · by_cases hlt : x < a
            · simp [hx, Mem.get, hlt, Mem.get_below h.2 (Nat.lt_succ_of_lt hlt)]
            · simp [hx, Mem.get, hlt]
        · simp only [Nat.lt_irrefl, if_false, hb, if_true, Mem.get]
          by_cases hx : x = a <;> simp [hx]
      · simp only [h1, h2, if_false, Mem.get]
        by_cases hk : x = k
        · subst hk; simp [Ne.symm h2]
        · by_cases hlt : x < k
          · have : x ≠ a := by omega
            simp [hk, hlt, this]
          · simp [hk, hlt, ih h.2]

/-- A byte after a write. -/
theorem Mem.get_set {m : Mem} (h : m.wf = true) (a : Nat) (b : Byte) (x : Nat) : (m.set a b).get x = if x = a then b else m.get x :=
  Mem.get_set_from h b x

/-! ### The canonical form is kept -/

theorem Mem.wfFrom_set {lo : Nat} {m : Mem} (h : m.wfFrom lo = true) {a : Nat} (ha : lo ≤ a) (b : Byte) : (m.set a b).wfFrom lo = true := by
  induction m generalizing lo with
  | nil =>
    by_cases hb : b = 0
    · simp only [Mem.set, hb, if_true, Mem.wfFrom]
    · simpa only [Mem.set, hb, if_false, Mem.wfFrom, Bool.and_true, Bool.and_eq_true, decide_eq_true_eq, bne_iff_ne, ne_eq, not_false_eq_true, and_true] using ha
  | cons e t ih =>
    obtain ⟨k, v⟩ := e
    have hw := h
    simp only [Mem.wfFrom, Bool.and_eq_true, decide_eq_true_eq] at h
    simp only [Mem.set]
    by_cases h1 : a < k
    · by_cases hb : b = 0
      · simpa only [h1, hb, if_true] using hw
      · simp only [h1, hb, if_true, if_false, Mem.wfFrom, Bool.and_eq_true, decide_eq_true_eq]
        exact ⟨⟨ha, by simpa using hb⟩, ⟨by omega, h.1.2⟩, h.2⟩
    · by_cases h2 : a = k
      · subst h2
        by_cases hb : b = 0
        · simp only [Nat.lt_irrefl, if_false, hb, if_true]
          exact Mem.wfFrom_mono h.2 (by omega)
        · simp only [Nat.lt_irrefl, if_false, hb, if_true, Mem.wfFrom, Bool.and_eq_true, decide_eq_true_eq]
          exact ⟨⟨ha, by simpa using hb⟩, h.2⟩
      · simp only [h1, h2, if_false, Mem.wfFrom, Bool.and_eq_true, decide_eq_true_eq]
        exact ⟨⟨h.1.1, h.1.2⟩, ih h.2 (by omega)⟩

/-- A write keeps the canonical form. -/
theorem Mem.wf_set {m : Mem} (h : m.wf = true) (a : Nat) (b : Byte) : (m.set a b).wf = true := Mem.wfFrom_set h (Nat.zero_le a) b

/-- A write of several bytes keeps the canonical form. -/
theorem Mem.wf_setBytes {m : Mem} (h : m.wf = true) (a : Nat) (bs : List Byte) : (m.setBytes a bs).wf = true := by
  induction bs generalizing m a with
  | nil => exact h
  | cons b t ih => exact ih (Mem.wf_set h a b) (a + 1)

theorem Mem.wfFrom_filter {lo : Nat} {m : Mem} (h : m.wfFrom lo = true) (p : Host.Cell → Bool) : Mem.wfFrom lo (m.filter p) = true := by
  induction m generalizing lo with
  | nil => rfl
  | cons e t ih =>
    obtain ⟨k, v⟩ := e
    simp only [Mem.wfFrom, Bool.and_eq_true, decide_eq_true_eq] at h
    by_cases hp : p (k, v) = true
    · simp only [List.filter, hp, Mem.wfFrom, Bool.and_eq_true, decide_eq_true_eq]
      exact ⟨h.1, ih h.2⟩
    · simp only [List.filter, hp]
      exact Mem.wfFrom_mono (ih h.2) (by omega)

/-- Clearing a range keeps the canonical form. -/
theorem Mem.wf_zero {m : Mem} (h : m.wf = true) (a n : Nat) : (m.zero a n).wf = true := Mem.wfFrom_filter h _

/-- A byte outside the bytes written is as it was. -/
theorem Mem.get_setBytes_of_not_mem {m : Mem} (h : m.wf = true) (a : Nat) (bs : List Byte) {x : Nat} (hx : x < a ∨ a + bs.length ≤ x) :
    (m.setBytes a bs).get x = m.get x := by
  induction bs generalizing m a with
  | nil => rfl
  | cons b t ih =>
    have hl : (b :: t).length = t.length + 1 := rfl
    rw [Mem.setBytes, ih (Mem.wf_set h a b) (a + 1) (by omega), Mem.get_set h]
    have : x ≠ a := by omega
    simp [this]

/-- A byte that was written reads as written. -/
theorem Mem.get_setBytes {m : Mem} (h : m.wf = true) (a : Nat) (bs : List Byte) {i : Nat} (hi : i < bs.length) :
    (m.setBytes a bs).get (a + i) = bs[i] := by
  induction bs generalizing m a i with
  | nil => simp at hi
  | cons b t ih =>
    rw [Mem.setBytes]
    cases i with
    | zero =>
      have : a < a + 1 := Nat.lt_succ_self a
      rw [show a + 0 = a from rfl, Mem.get_setBytes_of_not_mem (Mem.wf_set h a b) (a + 1) t (Or.inl this), Mem.get_set h]
      simp
    | succ j =>
      have : a + (j + 1) = a + 1 + j := by omega
      rw [this, ih (Mem.wf_set h a b) (a + 1) (by simpa using hi)]
      simp

/-! ### Tables -/

/-- An entry after a set. -/
theorem Map.get?_set {α : Type} (m : Map α) (k : Nat) (v : α) (x : Nat) :
    (m.set k v).get? x = if x = k then some v else m.get? x := by
  induction m with
  | nil => by_cases h : x = k <;> simp [Map.set, Map.get?, h]
  | cons e t ih =>
    obtain ⟨i, w⟩ := e
    simp only [Map.set]
    split
    · by_cases h : x = k <;> simp [Map.get?, h]
    · split
      · rename_i h1 h2
        subst h2
        by_cases h : x = k <;> simp [Map.get?, h]
      · rename_i h1 h2
        by_cases h : x = i
        · subst h; simp [Map.get?, Ne.symm h2]
        · simp [Map.get?, h, ih]

/-- The entry that was set. -/
@[simp] theorem Map.get?_set_self {α : Type} (m : Map α) (k : Nat) (v : α) : (m.set k v).get? k = some v := by simp [Map.get?_set]

/-- Every other entry. -/
theorem Map.get?_set_ne {α : Type} (m : Map α) {k x : Nat} (v : α) (h : x ≠ k) : (m.set k v).get? x = m.get? x := by simp [Map.get?_set, h]

/-- An entry after a removal. -/
theorem Map.get?_erase {α : Type} (m : Map α) (k x : Nat) : (m.erase k).get? x = if x = k then none else m.get? x := by
  induction m with
  | nil => simp [Map.erase, Map.get?]
  | cons e t ih =>
    obtain ⟨i, w⟩ := e
    simp only [Map.erase] at ih ⊢
    by_cases h : i = k
    · subst h
      rw [List.filter_cons_of_neg (by simp), ih]
      by_cases hx : x = i <;> simp [Map.get?, hx]
    · rw [List.filter_cons_of_pos (by simpa using h)]
      by_cases hx : x = i
      · subst hx; simp [Map.get?, h]
      · simp [Map.get?, hx, ih]

end Sys2Proof.Machine
end

