-- ==== Sys2Proof/Laws/State.lean ====
section
/-! SUPPORT. What each update of the state leaves alone: one lemma for each field and update, and what reads what a write put there. -/

namespace Sys2Proof.Machine

/-! ### setCtx -/

@[simp] theorem State.setCtx_agenda (s : State) (c : CtxId) (x : Ctx) : (s.setCtx c x).agenda = s.agenda := rfl
@[simp] theorem State.setCtx_cur (s : State) (c : CtxId) (x : Ctx) : (s.setCtx c x).cur = s.cur := rfl
@[simp] theorem State.setCtx_free (s : State) (c : CtxId) (x : Ctx) : (s.setCtx c x).free = s.free := rfl
@[simp] theorem State.setCtx_time (s : State) (c : CtxId) (x : Ctx) : (s.setCtx c x).time = s.time := rfl
@[simp] theorem State.setCtx_cores (s : State) (c : CtxId) (x : Ctx) : (s.setCtx c x).cores = s.cores := rfl
@[simp] theorem State.setCtx_dies (s : State) (c : CtxId) (x : Ctx) : (s.setCtx c x).dies = s.dies := rfl
@[simp] theorem State.setCtx_mem (s : State) (c : CtxId) (x : Ctx) : (s.setCtx c x).mem = s.mem := rfl
@[simp] theorem State.setCtx_unspec (s : State) (c : CtxId) (x : Ctx) : (s.setCtx c x).unspec = s.unspec := rfl
@[simp] theorem State.setCtx_hbmPoison (s : State) (c : CtxId) (x : Ctx) : (s.setCtx c x).hbmPoison = s.hbmPoison := rfl
@[simp] theorem State.setCtx_hdrs (s : State) (c : CtxId) (x : Ctx) : (s.setCtx c x).hdrs = s.hdrs := rfl
@[simp] theorem State.setCtx_turns (s : State) (c : CtxId) (x : Ctx) : (s.setCtx c x).turns = s.turns := rfl
@[simp] theorem State.setCtx_hbm (s : State) (c : CtxId) (x : Ctx) : (s.setCtx c x).hbm = s.hbm := rfl
@[simp] theorem State.setCtx_barWaiters (s : State) (c : CtxId) (x : Ctx) : (s.setCtx c x).barWaiters = s.barWaiters := rfl
@[simp] theorem State.setCtx_dreqs (s : State) (c : CtxId) (x : Ctx) : (s.setCtx c x).dreqs = s.dreqs := rfl
@[simp] theorem State.setCtx_dreqN (s : State) (c : CtxId) (x : Ctx) : (s.setCtx c x).dreqN = s.dreqN := rfl
@[simp] theorem State.setCtx_flits (s : State) (c : CtxId) (x : Ctx) : (s.setCtx c x).flits = s.flits := rfl
@[simp] theorem State.setCtx_ports (s : State) (c : CtxId) (x : Ctx) : (s.setCtx c x).ports = s.ports := rfl
@[simp] theorem State.setCtx_acnMsgs (s : State) (c : CtxId) (x : Ctx) : (s.setCtx c x).acnMsgs = s.acnMsgs := rfl
@[simp] theorem State.setCtx_mg (s : State) (c : CtxId) (x : Ctx) : (s.setCtx c x).mg = s.mg := rfl
@[simp] theorem State.setCtx_mgLast (s : State) (c : CtxId) (x : Ctx) : (s.setCtx c x).mgLast = s.mgLast := rfl
@[simp] theorem State.setCtx_recs (s : State) (c : CtxId) (x : Ctx) : (s.setCtx c x).recs = s.recs := rfl
@[simp] theorem State.setCtx_msix (s : State) (c : CtxId) (x : Ctx) : (s.setCtx c x).msix = s.msix := rfl
@[simp] theorem State.setCtx_vfHead (s : State) (c : CtxId) (x : Ctx) : (s.setCtx c x).vfHead = s.vfHead := rfl
@[simp] theorem State.setCtx_vfs (s : State) (c : CtxId) (x : Ctx) : (s.setCtx c x).vfs = s.vfs := rfl
@[simp] theorem State.setCtx_leases (s : State) (c : CtxId) (x : Ctx) : (s.setCtx c x).leases = s.leases := rfl
@[simp] theorem State.setCtx_spawns (s : State) (c : CtxId) (x : Ctx) : (s.setCtx c x).spawns = s.spawns := rfl
@[simp] theorem State.setCtx_ostN (s : State) (c : CtxId) (x : Ctx) : (s.setCtx c x).ostN = s.ostN := rfl
@[simp] theorem State.setCtx_mapAt (s : State) (c : CtxId) (x : Ctx) : (s.setCtx c x).mapAt = s.mapAt := rfl
@[simp] theorem State.setCtx_finals (s : State) (c : CtxId) (x : Ctx) : (s.setCtx c x).finals = s.finals := rfl
@[simp] theorem State.setCtx_lost (s : State) (c : CtxId) (x : Ctx) : (s.setCtx c x).lost = s.lost := rfl
@[simp] theorem State.setCtx_spilled (s : State) (c : CtxId) (x : Ctx) : (s.setCtx c x).spilled = s.spilled := rfl
@[simp] theorem State.setCtx_rstores (s : State) (c : CtxId) (x : Ctx) : (s.setCtx c x).rstores = s.rstores := rfl
@[simp] theorem State.setCtx_pktN (s : State) (c : CtxId) (x : Ctx) : (s.setCtx c x).pktN = s.pktN := rfl
@[simp] theorem State.setCtx_kickMsgs (s : State) (c : CtxId) (x : Ctx) : (s.setCtx c x).kickMsgs = s.kickMsgs := rfl
@[simp] theorem State.setCtx_pullAcks (s : State) (c : CtxId) (x : Ctx) : (s.setCtx c x).pullAcks = s.pullAcks := rfl
@[simp] theorem State.setCtx_mcasts (s : State) (c : CtxId) (x : Ctx) : (s.setCtx c x).mcasts = s.mcasts := rfl
@[simp] theorem State.setCtx_queues (s : State) (c : CtxId) (x : Ctx) : (s.setCtx c x).queues = s.queues := rfl
@[simp] theorem State.setCtx_walker (s : State) (c : CtxId) (x : Ctx) : (s.setCtx c x).walker = s.walker := rfl
@[simp] theorem State.setCtx_killedSlots (s : State) (c : CtxId) (x : Ctx) : (s.setCtx c x).killedSlots = s.killedSlots := rfl
@[simp] theorem State.setCtx_reports (s : State) (c : CtxId) (x : Ctx) : (s.setCtx c x).reports = s.reports := rfl
@[simp] theorem State.setCtx_stats (s : State) (c : CtxId) (x : Ctx) : (s.setCtx c x).stats = s.stats := rfl
@[simp] theorem State.setCtx_ost (s : State) (c : CtxId) (x : Ctx) : (s.setCtx c x).ost = s.ost := rfl
@[simp] theorem State.setCtx_lastLid (s : State) (c : CtxId) (x : Ctx) : (s.setCtx c x).lastLid = s.lastLid := rfl
@[simp] theorem State.setCtx_compact (s : State) (c : CtxId) (x : Ctx) : (s.setCtx c x).compact = s.compact := rfl
@[simp] theorem State.setCtx_restores (s : State) (c : CtxId) (x : Ctx) : (s.setCtx c x).restores = s.restores := rfl
@[simp] theorem State.setCtx_hubQ (s : State) (c : CtxId) (x : Ctx) : (s.setCtx c x).hubQ = s.hubQ := rfl
@[simp] theorem State.setCtx_resets (s : State) (c : CtxId) (x : Ctx) : (s.setCtx c x).resets = s.resets := rfl
@[simp] theorem State.setCtx_tdis (s : State) (c : CtxId) (x : Ctx) : (s.setCtx c x).tdis = s.tdis := rfl
@[simp] theorem State.setCtx_vfCfg (s : State) (c : CtxId) (x : Ctx) : (s.setCtx c x).vfCfg = s.vfCfg := rfl
@[simp] theorem State.setCtx_jex (s : State) (c : CtxId) (x : Ctx) : (s.setCtx c x).jex = s.jex := rfl
@[simp] theorem State.setCtx_ucie (s : State) (c : CtxId) (x : Ctx) : (s.setCtx c x).ucie = s.ucie := rfl
@[simp] theorem State.setCtx_dead (s : State) (c : CtxId) (x : Ctx) : (s.setCtx c x).dead = s.dead := rfl
@[simp] theorem State.setCtx_reply (s : State) (c : CtxId) (x : Ctx) : (s.setCtx c x).reply = s.reply := rfl
@[simp] theorem State.setCtx_hot (s : State) (c : CtxId) (x : Ctx) : (s.setCtx c x).hot = s.hot := rfl
@[simp] theorem State.setCtx_off (s : State) (c : CtxId) (x : Ctx) : (s.setCtx c x).off = s.off := rfl
@[simp] theorem State.setCtx_link (s : State) (c : CtxId) (x : Ctx) : (s.setCtx c x).link = s.link := rfl
@[simp] theorem State.setCtx_frac (s : State) (c : CtxId) (x : Ctx) : (s.setCtx c x).frac = s.frac := rfl
@[simp] theorem State.setCtx_clkBase (s : State) (c : CtxId) (x : Ctx) : (s.setCtx c x).clkBase = s.clkBase := rfl
@[simp] theorem State.setCtx_intervals (s : State) (c : CtxId) (x : Ctx) : (s.setCtx c x).intervals = s.intervals := rfl
@[simp] theorem State.setCtx_events (s : State) (c : CtxId) (x : Ctx) : (s.setCtx c x).events = s.events := rfl
@[simp] theorem State.setCtx_dutyNext (s : State) (c : CtxId) (x : Ctx) : (s.setCtx c x).dutyNext = s.dutyNext := rfl
@[simp] theorem State.setCtx_spent (s : State) (c : CtxId) (x : Ctx) : (s.setCtx c x).spent = s.spent := rfl
@[simp] theorem State.setCtx_budgetQ (s : State) (c : CtxId) (x : Ctx) : (s.setCtx c x).budgetQ = s.budgetQ := rfl
@[simp] theorem State.setCtx_keys (s : State) (c : CtxId) (x : Ctx) : (s.setCtx c x).keys = s.keys := rfl
@[simp] theorem State.setCtx_meas (s : State) (c : CtxId) (x : Ctx) : (s.setCtx c x).meas = s.meas := rfl
@[simp] theorem State.setCtx_session (s : State) (c : CtxId) (x : Ctx) : (s.setCtx c x).session = s.session := rfl
@[simp] theorem State.setCtx_ideKeys (s : State) (c : CtxId) (x : Ctx) : (s.setCtx c x).ideKeys = s.ideKeys := rfl
@[simp] theorem State.setCtx_fuse (s : State) (c : CtxId) (x : Ctx) : (s.setCtx c x).fuse = s.fuse := rfl

/-! ### updCtx -/

@[simp] theorem State.updCtx_agenda (s : State) (c : CtxId) (f : Ctx → Ctx) : (s.updCtx c f).agenda = s.agenda := rfl
@[simp] theorem State.updCtx_cur (s : State) (c : CtxId) (f : Ctx → Ctx) : (s.updCtx c f).cur = s.cur := rfl
@[simp] theorem State.updCtx_free (s : State) (c : CtxId) (f : Ctx → Ctx) : (s.updCtx c f).free = s.free := rfl
@[simp] theorem State.updCtx_time (s : State) (c : CtxId) (f : Ctx → Ctx) : (s.updCtx c f).time = s.time := rfl
@[simp] theorem State.updCtx_cores (s : State) (c : CtxId) (f : Ctx → Ctx) : (s.updCtx c f).cores = s.cores := rfl
@[simp] theorem State.updCtx_dies (s : State) (c : CtxId) (f : Ctx → Ctx) : (s.updCtx c f).dies = s.dies := rfl
@[simp] theorem State.updCtx_mem (s : State) (c : CtxId) (f : Ctx → Ctx) : (s.updCtx c f).mem = s.mem := rfl
@[simp] theorem State.updCtx_unspec (s : State) (c : CtxId) (f : Ctx → Ctx) : (s.updCtx c f).unspec = s.unspec := rfl
@[simp] theorem State.updCtx_hbmPoison (s : State) (c : CtxId) (f : Ctx → Ctx) : (s.updCtx c f).hbmPoison = s.hbmPoison := rfl
@[simp] theorem State.updCtx_hdrs (s : State) (c : CtxId) (f : Ctx → Ctx) : (s.updCtx c f).hdrs = s.hdrs := rfl
@[simp] theorem State.updCtx_turns (s : State) (c : CtxId) (f : Ctx → Ctx) : (s.updCtx c f).turns = s.turns := rfl
@[simp] theorem State.updCtx_hbm (s : State) (c : CtxId) (f : Ctx → Ctx) : (s.updCtx c f).hbm = s.hbm := rfl
@[simp] theorem State.updCtx_barWaiters (s : State) (c : CtxId) (f : Ctx → Ctx) : (s.updCtx c f).barWaiters = s.barWaiters := rfl
@[simp] theorem State.updCtx_dreqs (s : State) (c : CtxId) (f : Ctx → Ctx) : (s.updCtx c f).dreqs = s.dreqs := rfl
@[simp] theorem State.updCtx_dreqN (s : State) (c : CtxId) (f : Ctx → Ctx) : (s.updCtx c f).dreqN = s.dreqN := rfl
@[simp] theorem State.updCtx_flits (s : State) (c : CtxId) (f : Ctx → Ctx) : (s.updCtx c f).flits = s.flits := rfl
@[simp] theorem State.updCtx_ports (s : State) (c : CtxId) (f : Ctx → Ctx) : (s.updCtx c f).ports = s.ports := rfl
@[simp] theorem State.updCtx_acnMsgs (s : State) (c : CtxId) (f : Ctx → Ctx) : (s.updCtx c f).acnMsgs = s.acnMsgs := rfl
@[simp] theorem State.updCtx_mg (s : State) (c : CtxId) (f : Ctx → Ctx) : (s.updCtx c f).mg = s.mg := rfl
@[simp] theorem State.updCtx_mgLast (s : State) (c : CtxId) (f : Ctx → Ctx) : (s.updCtx c f).mgLast = s.mgLast := rfl
@[simp] theorem State.updCtx_recs (s : State) (c : CtxId) (f : Ctx → Ctx) : (s.updCtx c f).recs = s.recs := rfl
@[simp] theorem State.updCtx_msix (s : State) (c : CtxId) (f : Ctx → Ctx) : (s.updCtx c f).msix = s.msix := rfl
@[simp] theorem State.updCtx_vfHead (s : State) (c : CtxId) (f : Ctx → Ctx) : (s.updCtx c f).vfHead = s.vfHead := rfl
@[simp] theorem State.updCtx_vfs (s : State) (c : CtxId) (f : Ctx → Ctx) : (s.updCtx c f).vfs = s.vfs := rfl
@[simp] theorem State.updCtx_leases (s : State) (c : CtxId) (f : Ctx → Ctx) : (s.updCtx c f).leases = s.leases := rfl
@[simp] theorem State.updCtx_spawns (s : State) (c : CtxId) (f : Ctx → Ctx) : (s.updCtx c f).spawns = s.spawns := rfl
@[simp] theorem State.updCtx_ostN (s : State) (c : CtxId) (f : Ctx → Ctx) : (s.updCtx c f).ostN = s.ostN := rfl
@[simp] theorem State.updCtx_mapAt (s : State) (c : CtxId) (f : Ctx → Ctx) : (s.updCtx c f).mapAt = s.mapAt := rfl
@[simp] theorem State.updCtx_finals (s : State) (c : CtxId) (f : Ctx → Ctx) : (s.updCtx c f).finals = s.finals := rfl
@[simp] theorem State.updCtx_lost (s : State) (c : CtxId) (f : Ctx → Ctx) : (s.updCtx c f).lost = s.lost := rfl
@[simp] theorem State.updCtx_spilled (s : State) (c : CtxId) (f : Ctx → Ctx) : (s.updCtx c f).spilled = s.spilled := rfl
@[simp] theorem State.updCtx_rstores (s : State) (c : CtxId) (f : Ctx → Ctx) : (s.updCtx c f).rstores = s.rstores := rfl
@[simp] theorem State.updCtx_pktN (s : State) (c : CtxId) (f : Ctx → Ctx) : (s.updCtx c f).pktN = s.pktN := rfl
@[simp] theorem State.updCtx_kickMsgs (s : State) (c : CtxId) (f : Ctx → Ctx) : (s.updCtx c f).kickMsgs = s.kickMsgs := rfl
@[simp] theorem State.updCtx_pullAcks (s : State) (c : CtxId) (f : Ctx → Ctx) : (s.updCtx c f).pullAcks = s.pullAcks := rfl
@[simp] theorem State.updCtx_mcasts (s : State) (c : CtxId) (f : Ctx → Ctx) : (s.updCtx c f).mcasts = s.mcasts := rfl
@[simp] theorem State.updCtx_queues (s : State) (c : CtxId) (f : Ctx → Ctx) : (s.updCtx c f).queues = s.queues := rfl
@[simp] theorem State.updCtx_walker (s : State) (c : CtxId) (f : Ctx → Ctx) : (s.updCtx c f).walker = s.walker := rfl
@[simp] theorem State.updCtx_killedSlots (s : State) (c : CtxId) (f : Ctx → Ctx) : (s.updCtx c f).killedSlots = s.killedSlots := rfl
@[simp] theorem State.updCtx_reports (s : State) (c : CtxId) (f : Ctx → Ctx) : (s.updCtx c f).reports = s.reports := rfl
@[simp] theorem State.updCtx_stats (s : State) (c : CtxId) (f : Ctx → Ctx) : (s.updCtx c f).stats = s.stats := rfl
@[simp] theorem State.updCtx_ost (s : State) (c : CtxId) (f : Ctx → Ctx) : (s.updCtx c f).ost = s.ost := rfl
@[simp] theorem State.updCtx_lastLid (s : State) (c : CtxId) (f : Ctx → Ctx) : (s.updCtx c f).lastLid = s.lastLid := rfl
@[simp] theorem State.updCtx_compact (s : State) (c : CtxId) (f : Ctx → Ctx) : (s.updCtx c f).compact = s.compact := rfl
@[simp] theorem State.updCtx_restores (s : State) (c : CtxId) (f : Ctx → Ctx) : (s.updCtx c f).restores = s.restores := rfl
@[simp] theorem State.updCtx_hubQ (s : State) (c : CtxId) (f : Ctx → Ctx) : (s.updCtx c f).hubQ = s.hubQ := rfl
@[simp] theorem State.updCtx_resets (s : State) (c : CtxId) (f : Ctx → Ctx) : (s.updCtx c f).resets = s.resets := rfl
@[simp] theorem State.updCtx_tdis (s : State) (c : CtxId) (f : Ctx → Ctx) : (s.updCtx c f).tdis = s.tdis := rfl
@[simp] theorem State.updCtx_vfCfg (s : State) (c : CtxId) (f : Ctx → Ctx) : (s.updCtx c f).vfCfg = s.vfCfg := rfl
@[simp] theorem State.updCtx_jex (s : State) (c : CtxId) (f : Ctx → Ctx) : (s.updCtx c f).jex = s.jex := rfl
@[simp] theorem State.updCtx_ucie (s : State) (c : CtxId) (f : Ctx → Ctx) : (s.updCtx c f).ucie = s.ucie := rfl
@[simp] theorem State.updCtx_dead (s : State) (c : CtxId) (f : Ctx → Ctx) : (s.updCtx c f).dead = s.dead := rfl
@[simp] theorem State.updCtx_reply (s : State) (c : CtxId) (f : Ctx → Ctx) : (s.updCtx c f).reply = s.reply := rfl
@[simp] theorem State.updCtx_hot (s : State) (c : CtxId) (f : Ctx → Ctx) : (s.updCtx c f).hot = s.hot := rfl
@[simp] theorem State.updCtx_off (s : State) (c : CtxId) (f : Ctx → Ctx) : (s.updCtx c f).off = s.off := rfl
@[simp] theorem State.updCtx_link (s : State) (c : CtxId) (f : Ctx → Ctx) : (s.updCtx c f).link = s.link := rfl
@[simp] theorem State.updCtx_frac (s : State) (c : CtxId) (f : Ctx → Ctx) : (s.updCtx c f).frac = s.frac := rfl
@[simp] theorem State.updCtx_clkBase (s : State) (c : CtxId) (f : Ctx → Ctx) : (s.updCtx c f).clkBase = s.clkBase := rfl
@[simp] theorem State.updCtx_intervals (s : State) (c : CtxId) (f : Ctx → Ctx) : (s.updCtx c f).intervals = s.intervals := rfl
@[simp] theorem State.updCtx_events (s : State) (c : CtxId) (f : Ctx → Ctx) : (s.updCtx c f).events = s.events := rfl
@[simp] theorem State.updCtx_dutyNext (s : State) (c : CtxId) (f : Ctx → Ctx) : (s.updCtx c f).dutyNext = s.dutyNext := rfl
@[simp] theorem State.updCtx_spent (s : State) (c : CtxId) (f : Ctx → Ctx) : (s.updCtx c f).spent = s.spent := rfl
@[simp] theorem State.updCtx_budgetQ (s : State) (c : CtxId) (f : Ctx → Ctx) : (s.updCtx c f).budgetQ = s.budgetQ := rfl
@[simp] theorem State.updCtx_keys (s : State) (c : CtxId) (f : Ctx → Ctx) : (s.updCtx c f).keys = s.keys := rfl
@[simp] theorem State.updCtx_meas (s : State) (c : CtxId) (f : Ctx → Ctx) : (s.updCtx c f).meas = s.meas := rfl
@[simp] theorem State.updCtx_session (s : State) (c : CtxId) (f : Ctx → Ctx) : (s.updCtx c f).session = s.session := rfl
@[simp] theorem State.updCtx_ideKeys (s : State) (c : CtxId) (f : Ctx → Ctx) : (s.updCtx c f).ideKeys = s.ideKeys := rfl
@[simp] theorem State.updCtx_fuse (s : State) (c : CtxId) (f : Ctx → Ctx) : (s.updCtx c f).fuse = s.fuse := rfl

/-! ### setCore -/

@[simp] theorem State.setCore_agenda (s : State) (k : CoreId) (x : Core) : (s.setCore k x).agenda = s.agenda := rfl
@[simp] theorem State.setCore_cur (s : State) (k : CoreId) (x : Core) : (s.setCore k x).cur = s.cur := rfl
@[simp] theorem State.setCore_free (s : State) (k : CoreId) (x : Core) : (s.setCore k x).free = s.free := rfl
@[simp] theorem State.setCore_time (s : State) (k : CoreId) (x : Core) : (s.setCore k x).time = s.time := rfl
@[simp] theorem State.setCore_ctxs (s : State) (k : CoreId) (x : Core) : (s.setCore k x).ctxs = s.ctxs := rfl
@[simp] theorem State.setCore_dies (s : State) (k : CoreId) (x : Core) : (s.setCore k x).dies = s.dies := rfl
@[simp] theorem State.setCore_mem (s : State) (k : CoreId) (x : Core) : (s.setCore k x).mem = s.mem := rfl
@[simp] theorem State.setCore_unspec (s : State) (k : CoreId) (x : Core) : (s.setCore k x).unspec = s.unspec := rfl
@[simp] theorem State.setCore_hbmPoison (s : State) (k : CoreId) (x : Core) : (s.setCore k x).hbmPoison = s.hbmPoison := rfl
@[simp] theorem State.setCore_hdrs (s : State) (k : CoreId) (x : Core) : (s.setCore k x).hdrs = s.hdrs := rfl
@[simp] theorem State.setCore_turns (s : State) (k : CoreId) (x : Core) : (s.setCore k x).turns = s.turns := rfl
@[simp] theorem State.setCore_hbm (s : State) (k : CoreId) (x : Core) : (s.setCore k x).hbm = s.hbm := rfl
@[simp] theorem State.setCore_barWaiters (s : State) (k : CoreId) (x : Core) : (s.setCore k x).barWaiters = s.barWaiters := rfl
@[simp] theorem State.setCore_dreqs (s : State) (k : CoreId) (x : Core) : (s.setCore k x).dreqs = s.dreqs := rfl
@[simp] theorem State.setCore_dreqN (s : State) (k : CoreId) (x : Core) : (s.setCore k x).dreqN = s.dreqN := rfl
@[simp] theorem State.setCore_flits (s : State) (k : CoreId) (x : Core) : (s.setCore k x).flits = s.flits := rfl
@[simp] theorem State.setCore_ports (s : State) (k : CoreId) (x : Core) : (s.setCore k x).ports = s.ports := rfl
@[simp] theorem State.setCore_acnMsgs (s : State) (k : CoreId) (x : Core) : (s.setCore k x).acnMsgs = s.acnMsgs := rfl
@[simp] theorem State.setCore_mg (s : State) (k : CoreId) (x : Core) : (s.setCore k x).mg = s.mg := rfl
@[simp] theorem State.setCore_mgLast (s : State) (k : CoreId) (x : Core) : (s.setCore k x).mgLast = s.mgLast := rfl
@[simp] theorem State.setCore_recs (s : State) (k : CoreId) (x : Core) : (s.setCore k x).recs = s.recs := rfl
@[simp] theorem State.setCore_msix (s : State) (k : CoreId) (x : Core) : (s.setCore k x).msix = s.msix := rfl
@[simp] theorem State.setCore_vfHead (s : State) (k : CoreId) (x : Core) : (s.setCore k x).vfHead = s.vfHead := rfl
@[simp] theorem State.setCore_vfs (s : State) (k : CoreId) (x : Core) : (s.setCore k x).vfs = s.vfs := rfl
@[simp] theorem State.setCore_leases (s : State) (k : CoreId) (x : Core) : (s.setCore k x).leases = s.leases := rfl
@[simp] theorem State.setCore_spawns (s : State) (k : CoreId) (x : Core) : (s.setCore k x).spawns = s.spawns := rfl
@[simp] theorem State.setCore_ostN (s : State) (k : CoreId) (x : Core) : (s.setCore k x).ostN = s.ostN := rfl
@[simp] theorem State.setCore_mapAt (s : State) (k : CoreId) (x : Core) : (s.setCore k x).mapAt = s.mapAt := rfl
@[simp] theorem State.setCore_finals (s : State) (k : CoreId) (x : Core) : (s.setCore k x).finals = s.finals := rfl
@[simp] theorem State.setCore_lost (s : State) (k : CoreId) (x : Core) : (s.setCore k x).lost = s.lost := rfl
@[simp] theorem State.setCore_spilled (s : State) (k : CoreId) (x : Core) : (s.setCore k x).spilled = s.spilled := rfl
@[simp] theorem State.setCore_rstores (s : State) (k : CoreId) (x : Core) : (s.setCore k x).rstores = s.rstores := rfl
@[simp] theorem State.setCore_pktN (s : State) (k : CoreId) (x : Core) : (s.setCore k x).pktN = s.pktN := rfl
@[simp] theorem State.setCore_kickMsgs (s : State) (k : CoreId) (x : Core) : (s.setCore k x).kickMsgs = s.kickMsgs := rfl
@[simp] theorem State.setCore_pullAcks (s : State) (k : CoreId) (x : Core) : (s.setCore k x).pullAcks = s.pullAcks := rfl
@[simp] theorem State.setCore_mcasts (s : State) (k : CoreId) (x : Core) : (s.setCore k x).mcasts = s.mcasts := rfl
@[simp] theorem State.setCore_queues (s : State) (k : CoreId) (x : Core) : (s.setCore k x).queues = s.queues := rfl
@[simp] theorem State.setCore_walker (s : State) (k : CoreId) (x : Core) : (s.setCore k x).walker = s.walker := rfl
@[simp] theorem State.setCore_killedSlots (s : State) (k : CoreId) (x : Core) : (s.setCore k x).killedSlots = s.killedSlots := rfl
@[simp] theorem State.setCore_reports (s : State) (k : CoreId) (x : Core) : (s.setCore k x).reports = s.reports := rfl
@[simp] theorem State.setCore_stats (s : State) (k : CoreId) (x : Core) : (s.setCore k x).stats = s.stats := rfl
@[simp] theorem State.setCore_ost (s : State) (k : CoreId) (x : Core) : (s.setCore k x).ost = s.ost := rfl
@[simp] theorem State.setCore_lastLid (s : State) (k : CoreId) (x : Core) : (s.setCore k x).lastLid = s.lastLid := rfl
@[simp] theorem State.setCore_compact (s : State) (k : CoreId) (x : Core) : (s.setCore k x).compact = s.compact := rfl
@[simp] theorem State.setCore_restores (s : State) (k : CoreId) (x : Core) : (s.setCore k x).restores = s.restores := rfl
@[simp] theorem State.setCore_hubQ (s : State) (k : CoreId) (x : Core) : (s.setCore k x).hubQ = s.hubQ := rfl
@[simp] theorem State.setCore_resets (s : State) (k : CoreId) (x : Core) : (s.setCore k x).resets = s.resets := rfl
@[simp] theorem State.setCore_tdis (s : State) (k : CoreId) (x : Core) : (s.setCore k x).tdis = s.tdis := rfl
@[simp] theorem State.setCore_vfCfg (s : State) (k : CoreId) (x : Core) : (s.setCore k x).vfCfg = s.vfCfg := rfl
@[simp] theorem State.setCore_jex (s : State) (k : CoreId) (x : Core) : (s.setCore k x).jex = s.jex := rfl
@[simp] theorem State.setCore_ucie (s : State) (k : CoreId) (x : Core) : (s.setCore k x).ucie = s.ucie := rfl
@[simp] theorem State.setCore_dead (s : State) (k : CoreId) (x : Core) : (s.setCore k x).dead = s.dead := rfl
@[simp] theorem State.setCore_reply (s : State) (k : CoreId) (x : Core) : (s.setCore k x).reply = s.reply := rfl
@[simp] theorem State.setCore_hot (s : State) (k : CoreId) (x : Core) : (s.setCore k x).hot = s.hot := rfl
@[simp] theorem State.setCore_off (s : State) (k : CoreId) (x : Core) : (s.setCore k x).off = s.off := rfl
@[simp] theorem State.setCore_link (s : State) (k : CoreId) (x : Core) : (s.setCore k x).link = s.link := rfl
@[simp] theorem State.setCore_frac (s : State) (k : CoreId) (x : Core) : (s.setCore k x).frac = s.frac := rfl
@[simp] theorem State.setCore_clkBase (s : State) (k : CoreId) (x : Core) : (s.setCore k x).clkBase = s.clkBase := rfl
@[simp] theorem State.setCore_intervals (s : State) (k : CoreId) (x : Core) : (s.setCore k x).intervals = s.intervals := rfl
@[simp] theorem State.setCore_events (s : State) (k : CoreId) (x : Core) : (s.setCore k x).events = s.events := rfl
@[simp] theorem State.setCore_dutyNext (s : State) (k : CoreId) (x : Core) : (s.setCore k x).dutyNext = s.dutyNext := rfl
@[simp] theorem State.setCore_spent (s : State) (k : CoreId) (x : Core) : (s.setCore k x).spent = s.spent := rfl
@[simp] theorem State.setCore_budgetQ (s : State) (k : CoreId) (x : Core) : (s.setCore k x).budgetQ = s.budgetQ := rfl
@[simp] theorem State.setCore_keys (s : State) (k : CoreId) (x : Core) : (s.setCore k x).keys = s.keys := rfl
@[simp] theorem State.setCore_meas (s : State) (k : CoreId) (x : Core) : (s.setCore k x).meas = s.meas := rfl
@[simp] theorem State.setCore_session (s : State) (k : CoreId) (x : Core) : (s.setCore k x).session = s.session := rfl
@[simp] theorem State.setCore_ideKeys (s : State) (k : CoreId) (x : Core) : (s.setCore k x).ideKeys = s.ideKeys := rfl
@[simp] theorem State.setCore_fuse (s : State) (k : CoreId) (x : Core) : (s.setCore k x).fuse = s.fuse := rfl

/-! ### updCore -/

@[simp] theorem State.updCore_agenda (s : State) (k : CoreId) (f : Core → Core) : (s.updCore k f).agenda = s.agenda := rfl
@[simp] theorem State.updCore_cur (s : State) (k : CoreId) (f : Core → Core) : (s.updCore k f).cur = s.cur := rfl
@[simp] theorem State.updCore_free (s : State) (k : CoreId) (f : Core → Core) : (s.updCore k f).free = s.free := rfl
@[simp] theorem State.updCore_time (s : State) (k : CoreId) (f : Core → Core) : (s.updCore k f).time = s.time := rfl
@[simp] theorem State.updCore_ctxs (s : State) (k : CoreId) (f : Core → Core) : (s.updCore k f).ctxs = s.ctxs := rfl
@[simp] theorem State.updCore_dies (s : State) (k : CoreId) (f : Core → Core) : (s.updCore k f).dies = s.dies := rfl
@[simp] theorem State.updCore_mem (s : State) (k : CoreId) (f : Core → Core) : (s.updCore k f).mem = s.mem := rfl
@[simp] theorem State.updCore_unspec (s : State) (k : CoreId) (f : Core → Core) : (s.updCore k f).unspec = s.unspec := rfl
@[simp] theorem State.updCore_hbmPoison (s : State) (k : CoreId) (f : Core → Core) : (s.updCore k f).hbmPoison = s.hbmPoison := rfl
@[simp] theorem State.updCore_hdrs (s : State) (k : CoreId) (f : Core → Core) : (s.updCore k f).hdrs = s.hdrs := rfl
@[simp] theorem State.updCore_turns (s : State) (k : CoreId) (f : Core → Core) : (s.updCore k f).turns = s.turns := rfl
@[simp] theorem State.updCore_hbm (s : State) (k : CoreId) (f : Core → Core) : (s.updCore k f).hbm = s.hbm := rfl
@[simp] theorem State.updCore_barWaiters (s : State) (k : CoreId) (f : Core → Core) : (s.updCore k f).barWaiters = s.barWaiters := rfl
@[simp] theorem State.updCore_dreqs (s : State) (k : CoreId) (f : Core → Core) : (s.updCore k f).dreqs = s.dreqs := rfl
@[simp] theorem State.updCore_dreqN (s : State) (k : CoreId) (f : Core → Core) : (s.updCore k f).dreqN = s.dreqN := rfl
@[simp] theorem State.updCore_flits (s : State) (k : CoreId) (f : Core → Core) : (s.updCore k f).flits = s.flits := rfl
@[simp] theorem State.updCore_ports (s : State) (k : CoreId) (f : Core → Core) : (s.updCore k f).ports = s.ports := rfl
@[simp] theorem State.updCore_acnMsgs (s : State) (k : CoreId) (f : Core → Core) : (s.updCore k f).acnMsgs = s.acnMsgs := rfl
@[simp] theorem State.updCore_mg (s : State) (k : CoreId) (f : Core → Core) : (s.updCore k f).mg = s.mg := rfl
@[simp] theorem State.updCore_mgLast (s : State) (k : CoreId) (f : Core → Core) : (s.updCore k f).mgLast = s.mgLast := rfl
@[simp] theorem State.updCore_recs (s : State) (k : CoreId) (f : Core → Core) : (s.updCore k f).recs = s.recs := rfl
@[simp] theorem State.updCore_msix (s : State) (k : CoreId) (f : Core → Core) : (s.updCore k f).msix = s.msix := rfl
@[simp] theorem State.updCore_vfHead (s : State) (k : CoreId) (f : Core → Core) : (s.updCore k f).vfHead = s.vfHead := rfl
@[simp] theorem State.updCore_vfs (s : State) (k : CoreId) (f : Core → Core) : (s.updCore k f).vfs = s.vfs := rfl
@[simp] theorem State.updCore_leases (s : State) (k : CoreId) (f : Core → Core) : (s.updCore k f).leases = s.leases := rfl
@[simp] theorem State.updCore_spawns (s : State) (k : CoreId) (f : Core → Core) : (s.updCore k f).spawns = s.spawns := rfl
@[simp] theorem State.updCore_ostN (s : State) (k : CoreId) (f : Core → Core) : (s.updCore k f).ostN = s.ostN := rfl
@[simp] theorem State.updCore_mapAt (s : State) (k : CoreId) (f : Core → Core) : (s.updCore k f).mapAt = s.mapAt := rfl
@[simp] theorem State.updCore_finals (s : State) (k : CoreId) (f : Core → Core) : (s.updCore k f).finals = s.finals := rfl
@[simp] theorem State.updCore_lost (s : State) (k : CoreId) (f : Core → Core) : (s.updCore k f).lost = s.lost := rfl
@[simp] theorem State.updCore_spilled (s : State) (k : CoreId) (f : Core → Core) : (s.updCore k f).spilled = s.spilled := rfl
@[simp] theorem State.updCore_rstores (s : State) (k : CoreId) (f : Core → Core) : (s.updCore k f).rstores = s.rstores := rfl
@[simp] theorem State.updCore_pktN (s : State) (k : CoreId) (f : Core → Core) : (s.updCore k f).pktN = s.pktN := rfl
@[simp] theorem State.updCore_kickMsgs (s : State) (k : CoreId) (f : Core → Core) : (s.updCore k f).kickMsgs = s.kickMsgs := rfl
@[simp] theorem State.updCore_pullAcks (s : State) (k : CoreId) (f : Core → Core) : (s.updCore k f).pullAcks = s.pullAcks := rfl
@[simp] theorem State.updCore_mcasts (s : State) (k : CoreId) (f : Core → Core) : (s.updCore k f).mcasts = s.mcasts := rfl
@[simp] theorem State.updCore_queues (s : State) (k : CoreId) (f : Core → Core) : (s.updCore k f).queues = s.queues := rfl
@[simp] theorem State.updCore_walker (s : State) (k : CoreId) (f : Core → Core) : (s.updCore k f).walker = s.walker := rfl
@[simp] theorem State.updCore_killedSlots (s : State) (k : CoreId) (f : Core → Core) : (s.updCore k f).killedSlots = s.killedSlots := rfl
@[simp] theorem State.updCore_reports (s : State) (k : CoreId) (f : Core → Core) : (s.updCore k f).reports = s.reports := rfl
@[simp] theorem State.updCore_stats (s : State) (k : CoreId) (f : Core → Core) : (s.updCore k f).stats = s.stats := rfl
@[simp] theorem State.updCore_ost (s : State) (k : CoreId) (f : Core → Core) : (s.updCore k f).ost = s.ost := rfl
@[simp] theorem State.updCore_lastLid (s : State) (k : CoreId) (f : Core → Core) : (s.updCore k f).lastLid = s.lastLid := rfl
@[simp] theorem State.updCore_compact (s : State) (k : CoreId) (f : Core → Core) : (s.updCore k f).compact = s.compact := rfl
@[simp] theorem State.updCore_restores (s : State) (k : CoreId) (f : Core → Core) : (s.updCore k f).restores = s.restores := rfl
@[simp] theorem State.updCore_hubQ (s : State) (k : CoreId) (f : Core → Core) : (s.updCore k f).hubQ = s.hubQ := rfl
@[simp] theorem State.updCore_resets (s : State) (k : CoreId) (f : Core → Core) : (s.updCore k f).resets = s.resets := rfl
@[simp] theorem State.updCore_tdis (s : State) (k : CoreId) (f : Core → Core) : (s.updCore k f).tdis = s.tdis := rfl
@[simp] theorem State.updCore_vfCfg (s : State) (k : CoreId) (f : Core → Core) : (s.updCore k f).vfCfg = s.vfCfg := rfl
@[simp] theorem State.updCore_jex (s : State) (k : CoreId) (f : Core → Core) : (s.updCore k f).jex = s.jex := rfl
@[simp] theorem State.updCore_ucie (s : State) (k : CoreId) (f : Core → Core) : (s.updCore k f).ucie = s.ucie := rfl
@[simp] theorem State.updCore_dead (s : State) (k : CoreId) (f : Core → Core) : (s.updCore k f).dead = s.dead := rfl
@[simp] theorem State.updCore_reply (s : State) (k : CoreId) (f : Core → Core) : (s.updCore k f).reply = s.reply := rfl
@[simp] theorem State.updCore_hot (s : State) (k : CoreId) (f : Core → Core) : (s.updCore k f).hot = s.hot := rfl
@[simp] theorem State.updCore_off (s : State) (k : CoreId) (f : Core → Core) : (s.updCore k f).off = s.off := rfl
@[simp] theorem State.updCore_link (s : State) (k : CoreId) (f : Core → Core) : (s.updCore k f).link = s.link := rfl
@[simp] theorem State.updCore_frac (s : State) (k : CoreId) (f : Core → Core) : (s.updCore k f).frac = s.frac := rfl
@[simp] theorem State.updCore_clkBase (s : State) (k : CoreId) (f : Core → Core) : (s.updCore k f).clkBase = s.clkBase := rfl
@[simp] theorem State.updCore_intervals (s : State) (k : CoreId) (f : Core → Core) : (s.updCore k f).intervals = s.intervals := rfl
@[simp] theorem State.updCore_events (s : State) (k : CoreId) (f : Core → Core) : (s.updCore k f).events = s.events := rfl
@[simp] theorem State.updCore_dutyNext (s : State) (k : CoreId) (f : Core → Core) : (s.updCore k f).dutyNext = s.dutyNext := rfl
@[simp] theorem State.updCore_spent (s : State) (k : CoreId) (f : Core → Core) : (s.updCore k f).spent = s.spent := rfl
@[simp] theorem State.updCore_budgetQ (s : State) (k : CoreId) (f : Core → Core) : (s.updCore k f).budgetQ = s.budgetQ := rfl
@[simp] theorem State.updCore_keys (s : State) (k : CoreId) (f : Core → Core) : (s.updCore k f).keys = s.keys := rfl
@[simp] theorem State.updCore_meas (s : State) (k : CoreId) (f : Core → Core) : (s.updCore k f).meas = s.meas := rfl
@[simp] theorem State.updCore_session (s : State) (k : CoreId) (f : Core → Core) : (s.updCore k f).session = s.session := rfl
@[simp] theorem State.updCore_ideKeys (s : State) (k : CoreId) (f : Core → Core) : (s.updCore k f).ideKeys = s.ideKeys := rfl
@[simp] theorem State.updCore_fuse (s : State) (k : CoreId) (f : Core → Core) : (s.updCore k f).fuse = s.fuse := rfl

/-! ### setDie -/

@[simp] theorem State.setDie_agenda (s : State) (d : Nat) (x : Die) : (s.setDie d x).agenda = s.agenda := rfl
@[simp] theorem State.setDie_cur (s : State) (d : Nat) (x : Die) : (s.setDie d x).cur = s.cur := rfl
@[simp] theorem State.setDie_free (s : State) (d : Nat) (x : Die) : (s.setDie d x).free = s.free := rfl
@[simp] theorem State.setDie_time (s : State) (d : Nat) (x : Die) : (s.setDie d x).time = s.time := rfl
@[simp] theorem State.setDie_ctxs (s : State) (d : Nat) (x : Die) : (s.setDie d x).ctxs = s.ctxs := rfl
@[simp] theorem State.setDie_cores (s : State) (d : Nat) (x : Die) : (s.setDie d x).cores = s.cores := rfl
@[simp] theorem State.setDie_mem (s : State) (d : Nat) (x : Die) : (s.setDie d x).mem = s.mem := rfl
@[simp] theorem State.setDie_unspec (s : State) (d : Nat) (x : Die) : (s.setDie d x).unspec = s.unspec := rfl
@[simp] theorem State.setDie_hbmPoison (s : State) (d : Nat) (x : Die) : (s.setDie d x).hbmPoison = s.hbmPoison := rfl
@[simp] theorem State.setDie_hdrs (s : State) (d : Nat) (x : Die) : (s.setDie d x).hdrs = s.hdrs := rfl
@[simp] theorem State.setDie_turns (s : State) (d : Nat) (x : Die) : (s.setDie d x).turns = s.turns := rfl
@[simp] theorem State.setDie_hbm (s : State) (d : Nat) (x : Die) : (s.setDie d x).hbm = s.hbm := rfl
@[simp] theorem State.setDie_barWaiters (s : State) (d : Nat) (x : Die) : (s.setDie d x).barWaiters = s.barWaiters := rfl
@[simp] theorem State.setDie_dreqs (s : State) (d : Nat) (x : Die) : (s.setDie d x).dreqs = s.dreqs := rfl
@[simp] theorem State.setDie_dreqN (s : State) (d : Nat) (x : Die) : (s.setDie d x).dreqN = s.dreqN := rfl
@[simp] theorem State.setDie_flits (s : State) (d : Nat) (x : Die) : (s.setDie d x).flits = s.flits := rfl
@[simp] theorem State.setDie_ports (s : State) (d : Nat) (x : Die) : (s.setDie d x).ports = s.ports := rfl
@[simp] theorem State.setDie_acnMsgs (s : State) (d : Nat) (x : Die) : (s.setDie d x).acnMsgs = s.acnMsgs := rfl
@[simp] theorem State.setDie_mg (s : State) (d : Nat) (x : Die) : (s.setDie d x).mg = s.mg := rfl
@[simp] theorem State.setDie_mgLast (s : State) (d : Nat) (x : Die) : (s.setDie d x).mgLast = s.mgLast := rfl
@[simp] theorem State.setDie_recs (s : State) (d : Nat) (x : Die) : (s.setDie d x).recs = s.recs := rfl
@[simp] theorem State.setDie_msix (s : State) (d : Nat) (x : Die) : (s.setDie d x).msix = s.msix := rfl
@[simp] theorem State.setDie_vfHead (s : State) (d : Nat) (x : Die) : (s.setDie d x).vfHead = s.vfHead := rfl
@[simp] theorem State.setDie_vfs (s : State) (d : Nat) (x : Die) : (s.setDie d x).vfs = s.vfs := rfl
@[simp] theorem State.setDie_leases (s : State) (d : Nat) (x : Die) : (s.setDie d x).leases = s.leases := rfl
@[simp] theorem State.setDie_spawns (s : State) (d : Nat) (x : Die) : (s.setDie d x).spawns = s.spawns := rfl
@[simp] theorem State.setDie_ostN (s : State) (d : Nat) (x : Die) : (s.setDie d x).ostN = s.ostN := rfl
@[simp] theorem State.setDie_mapAt (s : State) (d : Nat) (x : Die) : (s.setDie d x).mapAt = s.mapAt := rfl
@[simp] theorem State.setDie_finals (s : State) (d : Nat) (x : Die) : (s.setDie d x).finals = s.finals := rfl
@[simp] theorem State.setDie_lost (s : State) (d : Nat) (x : Die) : (s.setDie d x).lost = s.lost := rfl
@[simp] theorem State.setDie_spilled (s : State) (d : Nat) (x : Die) : (s.setDie d x).spilled = s.spilled := rfl
@[simp] theorem State.setDie_rstores (s : State) (d : Nat) (x : Die) : (s.setDie d x).rstores = s.rstores := rfl
@[simp] theorem State.setDie_pktN (s : State) (d : Nat) (x : Die) : (s.setDie d x).pktN = s.pktN := rfl
@[simp] theorem State.setDie_kickMsgs (s : State) (d : Nat) (x : Die) : (s.setDie d x).kickMsgs = s.kickMsgs := rfl
@[simp] theorem State.setDie_pullAcks (s : State) (d : Nat) (x : Die) : (s.setDie d x).pullAcks = s.pullAcks := rfl
@[simp] theorem State.setDie_mcasts (s : State) (d : Nat) (x : Die) : (s.setDie d x).mcasts = s.mcasts := rfl
@[simp] theorem State.setDie_queues (s : State) (d : Nat) (x : Die) : (s.setDie d x).queues = s.queues := rfl
@[simp] theorem State.setDie_walker (s : State) (d : Nat) (x : Die) : (s.setDie d x).walker = s.walker := rfl
@[simp] theorem State.setDie_killedSlots (s : State) (d : Nat) (x : Die) : (s.setDie d x).killedSlots = s.killedSlots := rfl
@[simp] theorem State.setDie_reports (s : State) (d : Nat) (x : Die) : (s.setDie d x).reports = s.reports := rfl
@[simp] theorem State.setDie_stats (s : State) (d : Nat) (x : Die) : (s.setDie d x).stats = s.stats := rfl
@[simp] theorem State.setDie_ost (s : State) (d : Nat) (x : Die) : (s.setDie d x).ost = s.ost := rfl
@[simp] theorem State.setDie_lastLid (s : State) (d : Nat) (x : Die) : (s.setDie d x).lastLid = s.lastLid := rfl
@[simp] theorem State.setDie_compact (s : State) (d : Nat) (x : Die) : (s.setDie d x).compact = s.compact := rfl
@[simp] theorem State.setDie_restores (s : State) (d : Nat) (x : Die) : (s.setDie d x).restores = s.restores := rfl
@[simp] theorem State.setDie_hubQ (s : State) (d : Nat) (x : Die) : (s.setDie d x).hubQ = s.hubQ := rfl
@[simp] theorem State.setDie_resets (s : State) (d : Nat) (x : Die) : (s.setDie d x).resets = s.resets := rfl
@[simp] theorem State.setDie_tdis (s : State) (d : Nat) (x : Die) : (s.setDie d x).tdis = s.tdis := rfl
@[simp] theorem State.setDie_vfCfg (s : State) (d : Nat) (x : Die) : (s.setDie d x).vfCfg = s.vfCfg := rfl
@[simp] theorem State.setDie_jex (s : State) (d : Nat) (x : Die) : (s.setDie d x).jex = s.jex := rfl
@[simp] theorem State.setDie_ucie (s : State) (d : Nat) (x : Die) : (s.setDie d x).ucie = s.ucie := rfl
@[simp] theorem State.setDie_dead (s : State) (d : Nat) (x : Die) : (s.setDie d x).dead = s.dead := rfl
@[simp] theorem State.setDie_reply (s : State) (d : Nat) (x : Die) : (s.setDie d x).reply = s.reply := rfl
@[simp] theorem State.setDie_hot (s : State) (d : Nat) (x : Die) : (s.setDie d x).hot = s.hot := rfl
@[simp] theorem State.setDie_off (s : State) (d : Nat) (x : Die) : (s.setDie d x).off = s.off := rfl
@[simp] theorem State.setDie_link (s : State) (d : Nat) (x : Die) : (s.setDie d x).link = s.link := rfl
@[simp] theorem State.setDie_frac (s : State) (d : Nat) (x : Die) : (s.setDie d x).frac = s.frac := rfl
@[simp] theorem State.setDie_clkBase (s : State) (d : Nat) (x : Die) : (s.setDie d x).clkBase = s.clkBase := rfl
@[simp] theorem State.setDie_intervals (s : State) (d : Nat) (x : Die) : (s.setDie d x).intervals = s.intervals := rfl
@[simp] theorem State.setDie_events (s : State) (d : Nat) (x : Die) : (s.setDie d x).events = s.events := rfl
@[simp] theorem State.setDie_dutyNext (s : State) (d : Nat) (x : Die) : (s.setDie d x).dutyNext = s.dutyNext := rfl
@[simp] theorem State.setDie_spent (s : State) (d : Nat) (x : Die) : (s.setDie d x).spent = s.spent := rfl
@[simp] theorem State.setDie_budgetQ (s : State) (d : Nat) (x : Die) : (s.setDie d x).budgetQ = s.budgetQ := rfl
@[simp] theorem State.setDie_keys (s : State) (d : Nat) (x : Die) : (s.setDie d x).keys = s.keys := rfl
@[simp] theorem State.setDie_meas (s : State) (d : Nat) (x : Die) : (s.setDie d x).meas = s.meas := rfl
@[simp] theorem State.setDie_session (s : State) (d : Nat) (x : Die) : (s.setDie d x).session = s.session := rfl
@[simp] theorem State.setDie_ideKeys (s : State) (d : Nat) (x : Die) : (s.setDie d x).ideKeys = s.ideKeys := rfl
@[simp] theorem State.setDie_fuse (s : State) (d : Nat) (x : Die) : (s.setDie d x).fuse = s.fuse := rfl

/-! ### updDie -/

@[simp] theorem State.updDie_agenda (s : State) (d : Nat) (f : Die → Die) : (s.updDie d f).agenda = s.agenda := rfl
@[simp] theorem State.updDie_cur (s : State) (d : Nat) (f : Die → Die) : (s.updDie d f).cur = s.cur := rfl
@[simp] theorem State.updDie_free (s : State) (d : Nat) (f : Die → Die) : (s.updDie d f).free = s.free := rfl
@[simp] theorem State.updDie_time (s : State) (d : Nat) (f : Die → Die) : (s.updDie d f).time = s.time := rfl
@[simp] theorem State.updDie_ctxs (s : State) (d : Nat) (f : Die → Die) : (s.updDie d f).ctxs = s.ctxs := rfl
@[simp] theorem State.updDie_cores (s : State) (d : Nat) (f : Die → Die) : (s.updDie d f).cores = s.cores := rfl
@[simp] theorem State.updDie_mem (s : State) (d : Nat) (f : Die → Die) : (s.updDie d f).mem = s.mem := rfl
@[simp] theorem State.updDie_unspec (s : State) (d : Nat) (f : Die → Die) : (s.updDie d f).unspec = s.unspec := rfl
@[simp] theorem State.updDie_hbmPoison (s : State) (d : Nat) (f : Die → Die) : (s.updDie d f).hbmPoison = s.hbmPoison := rfl
@[simp] theorem State.updDie_hdrs (s : State) (d : Nat) (f : Die → Die) : (s.updDie d f).hdrs = s.hdrs := rfl
@[simp] theorem State.updDie_turns (s : State) (d : Nat) (f : Die → Die) : (s.updDie d f).turns = s.turns := rfl
@[simp] theorem State.updDie_hbm (s : State) (d : Nat) (f : Die → Die) : (s.updDie d f).hbm = s.hbm := rfl
@[simp] theorem State.updDie_barWaiters (s : State) (d : Nat) (f : Die → Die) : (s.updDie d f).barWaiters = s.barWaiters := rfl
@[simp] theorem State.updDie_dreqs (s : State) (d : Nat) (f : Die → Die) : (s.updDie d f).dreqs = s.dreqs := rfl
@[simp] theorem State.updDie_dreqN (s : State) (d : Nat) (f : Die → Die) : (s.updDie d f).dreqN = s.dreqN := rfl
@[simp] theorem State.updDie_flits (s : State) (d : Nat) (f : Die → Die) : (s.updDie d f).flits = s.flits := rfl
@[simp] theorem State.updDie_ports (s : State) (d : Nat) (f : Die → Die) : (s.updDie d f).ports = s.ports := rfl
@[simp] theorem State.updDie_acnMsgs (s : State) (d : Nat) (f : Die → Die) : (s.updDie d f).acnMsgs = s.acnMsgs := rfl
@[simp] theorem State.updDie_mg (s : State) (d : Nat) (f : Die → Die) : (s.updDie d f).mg = s.mg := rfl
@[simp] theorem State.updDie_mgLast (s : State) (d : Nat) (f : Die → Die) : (s.updDie d f).mgLast = s.mgLast := rfl
@[simp] theorem State.updDie_recs (s : State) (d : Nat) (f : Die → Die) : (s.updDie d f).recs = s.recs := rfl
@[simp] theorem State.updDie_msix (s : State) (d : Nat) (f : Die → Die) : (s.updDie d f).msix = s.msix := rfl
@[simp] theorem State.updDie_vfHead (s : State) (d : Nat) (f : Die → Die) : (s.updDie d f).vfHead = s.vfHead := rfl
@[simp] theorem State.updDie_vfs (s : State) (d : Nat) (f : Die → Die) : (s.updDie d f).vfs = s.vfs := rfl
@[simp] theorem State.updDie_leases (s : State) (d : Nat) (f : Die → Die) : (s.updDie d f).leases = s.leases := rfl
@[simp] theorem State.updDie_spawns (s : State) (d : Nat) (f : Die → Die) : (s.updDie d f).spawns = s.spawns := rfl
@[simp] theorem State.updDie_ostN (s : State) (d : Nat) (f : Die → Die) : (s.updDie d f).ostN = s.ostN := rfl
@[simp] theorem State.updDie_mapAt (s : State) (d : Nat) (f : Die → Die) : (s.updDie d f).mapAt = s.mapAt := rfl
@[simp] theorem State.updDie_finals (s : State) (d : Nat) (f : Die → Die) : (s.updDie d f).finals = s.finals := rfl
@[simp] theorem State.updDie_lost (s : State) (d : Nat) (f : Die → Die) : (s.updDie d f).lost = s.lost := rfl
@[simp] theorem State.updDie_spilled (s : State) (d : Nat) (f : Die → Die) : (s.updDie d f).spilled = s.spilled := rfl
@[simp] theorem State.updDie_rstores (s : State) (d : Nat) (f : Die → Die) : (s.updDie d f).rstores = s.rstores := rfl
@[simp] theorem State.updDie_pktN (s : State) (d : Nat) (f : Die → Die) : (s.updDie d f).pktN = s.pktN := rfl
@[simp] theorem State.updDie_kickMsgs (s : State) (d : Nat) (f : Die → Die) : (s.updDie d f).kickMsgs = s.kickMsgs := rfl
@[simp] theorem State.updDie_pullAcks (s : State) (d : Nat) (f : Die → Die) : (s.updDie d f).pullAcks = s.pullAcks := rfl
@[simp] theorem State.updDie_mcasts (s : State) (d : Nat) (f : Die → Die) : (s.updDie d f).mcasts = s.mcasts := rfl
@[simp] theorem State.updDie_queues (s : State) (d : Nat) (f : Die → Die) : (s.updDie d f).queues = s.queues := rfl
@[simp] theorem State.updDie_walker (s : State) (d : Nat) (f : Die → Die) : (s.updDie d f).walker = s.walker := rfl
@[simp] theorem State.updDie_killedSlots (s : State) (d : Nat) (f : Die → Die) : (s.updDie d f).killedSlots = s.killedSlots := rfl
@[simp] theorem State.updDie_reports (s : State) (d : Nat) (f : Die → Die) : (s.updDie d f).reports = s.reports := rfl
@[simp] theorem State.updDie_stats (s : State) (d : Nat) (f : Die → Die) : (s.updDie d f).stats = s.stats := rfl
@[simp] theorem State.updDie_ost (s : State) (d : Nat) (f : Die → Die) : (s.updDie d f).ost = s.ost := rfl
@[simp] theorem State.updDie_lastLid (s : State) (d : Nat) (f : Die → Die) : (s.updDie d f).lastLid = s.lastLid := rfl
@[simp] theorem State.updDie_compact (s : State) (d : Nat) (f : Die → Die) : (s.updDie d f).compact = s.compact := rfl
@[simp] theorem State.updDie_restores (s : State) (d : Nat) (f : Die → Die) : (s.updDie d f).restores = s.restores := rfl
@[simp] theorem State.updDie_hubQ (s : State) (d : Nat) (f : Die → Die) : (s.updDie d f).hubQ = s.hubQ := rfl
@[simp] theorem State.updDie_resets (s : State) (d : Nat) (f : Die → Die) : (s.updDie d f).resets = s.resets := rfl
@[simp] theorem State.updDie_tdis (s : State) (d : Nat) (f : Die → Die) : (s.updDie d f).tdis = s.tdis := rfl
@[simp] theorem State.updDie_vfCfg (s : State) (d : Nat) (f : Die → Die) : (s.updDie d f).vfCfg = s.vfCfg := rfl
@[simp] theorem State.updDie_jex (s : State) (d : Nat) (f : Die → Die) : (s.updDie d f).jex = s.jex := rfl
@[simp] theorem State.updDie_ucie (s : State) (d : Nat) (f : Die → Die) : (s.updDie d f).ucie = s.ucie := rfl
@[simp] theorem State.updDie_dead (s : State) (d : Nat) (f : Die → Die) : (s.updDie d f).dead = s.dead := rfl
@[simp] theorem State.updDie_reply (s : State) (d : Nat) (f : Die → Die) : (s.updDie d f).reply = s.reply := rfl
@[simp] theorem State.updDie_hot (s : State) (d : Nat) (f : Die → Die) : (s.updDie d f).hot = s.hot := rfl
@[simp] theorem State.updDie_off (s : State) (d : Nat) (f : Die → Die) : (s.updDie d f).off = s.off := rfl
@[simp] theorem State.updDie_link (s : State) (d : Nat) (f : Die → Die) : (s.updDie d f).link = s.link := rfl
@[simp] theorem State.updDie_frac (s : State) (d : Nat) (f : Die → Die) : (s.updDie d f).frac = s.frac := rfl
@[simp] theorem State.updDie_clkBase (s : State) (d : Nat) (f : Die → Die) : (s.updDie d f).clkBase = s.clkBase := rfl
@[simp] theorem State.updDie_intervals (s : State) (d : Nat) (f : Die → Die) : (s.updDie d f).intervals = s.intervals := rfl
@[simp] theorem State.updDie_events (s : State) (d : Nat) (f : Die → Die) : (s.updDie d f).events = s.events := rfl
@[simp] theorem State.updDie_dutyNext (s : State) (d : Nat) (f : Die → Die) : (s.updDie d f).dutyNext = s.dutyNext := rfl
@[simp] theorem State.updDie_spent (s : State) (d : Nat) (f : Die → Die) : (s.updDie d f).spent = s.spent := rfl
@[simp] theorem State.updDie_budgetQ (s : State) (d : Nat) (f : Die → Die) : (s.updDie d f).budgetQ = s.budgetQ := rfl
@[simp] theorem State.updDie_keys (s : State) (d : Nat) (f : Die → Die) : (s.updDie d f).keys = s.keys := rfl
@[simp] theorem State.updDie_meas (s : State) (d : Nat) (f : Die → Die) : (s.updDie d f).meas = s.meas := rfl
@[simp] theorem State.updDie_session (s : State) (d : Nat) (f : Die → Die) : (s.updDie d f).session = s.session := rfl
@[simp] theorem State.updDie_ideKeys (s : State) (d : Nat) (f : Die → Die) : (s.updDie d f).ideKeys = s.ideKeys := rfl
@[simp] theorem State.updDie_fuse (s : State) (d : Nat) (f : Die → Die) : (s.updDie d f).fuse = s.fuse := rfl

/-! ### waitFor -/

@[simp] theorem State.waitFor_agenda (s : State) (c : CtxId) (w : Wait) : (s.waitFor c w).agenda = s.agenda := rfl
@[simp] theorem State.waitFor_cur (s : State) (c : CtxId) (w : Wait) : (s.waitFor c w).cur = s.cur := rfl
@[simp] theorem State.waitFor_free (s : State) (c : CtxId) (w : Wait) : (s.waitFor c w).free = s.free := rfl
@[simp] theorem State.waitFor_time (s : State) (c : CtxId) (w : Wait) : (s.waitFor c w).time = s.time := rfl
@[simp] theorem State.waitFor_cores (s : State) (c : CtxId) (w : Wait) : (s.waitFor c w).cores = s.cores := rfl
@[simp] theorem State.waitFor_dies (s : State) (c : CtxId) (w : Wait) : (s.waitFor c w).dies = s.dies := rfl
@[simp] theorem State.waitFor_mem (s : State) (c : CtxId) (w : Wait) : (s.waitFor c w).mem = s.mem := rfl
@[simp] theorem State.waitFor_unspec (s : State) (c : CtxId) (w : Wait) : (s.waitFor c w).unspec = s.unspec := rfl
@[simp] theorem State.waitFor_hbmPoison (s : State) (c : CtxId) (w : Wait) : (s.waitFor c w).hbmPoison = s.hbmPoison := rfl
@[simp] theorem State.waitFor_hdrs (s : State) (c : CtxId) (w : Wait) : (s.waitFor c w).hdrs = s.hdrs := rfl
@[simp] theorem State.waitFor_turns (s : State) (c : CtxId) (w : Wait) : (s.waitFor c w).turns = s.turns := rfl
@[simp] theorem State.waitFor_hbm (s : State) (c : CtxId) (w : Wait) : (s.waitFor c w).hbm = s.hbm := rfl
@[simp] theorem State.waitFor_barWaiters (s : State) (c : CtxId) (w : Wait) : (s.waitFor c w).barWaiters = s.barWaiters := rfl
@[simp] theorem State.waitFor_dreqs (s : State) (c : CtxId) (w : Wait) : (s.waitFor c w).dreqs = s.dreqs := rfl
@[simp] theorem State.waitFor_dreqN (s : State) (c : CtxId) (w : Wait) : (s.waitFor c w).dreqN = s.dreqN := rfl
@[simp] theorem State.waitFor_flits (s : State) (c : CtxId) (w : Wait) : (s.waitFor c w).flits = s.flits := rfl
@[simp] theorem State.waitFor_ports (s : State) (c : CtxId) (w : Wait) : (s.waitFor c w).ports = s.ports := rfl
@[simp] theorem State.waitFor_acnMsgs (s : State) (c : CtxId) (w : Wait) : (s.waitFor c w).acnMsgs = s.acnMsgs := rfl
@[simp] theorem State.waitFor_mg (s : State) (c : CtxId) (w : Wait) : (s.waitFor c w).mg = s.mg := rfl
@[simp] theorem State.waitFor_mgLast (s : State) (c : CtxId) (w : Wait) : (s.waitFor c w).mgLast = s.mgLast := rfl
@[simp] theorem State.waitFor_recs (s : State) (c : CtxId) (w : Wait) : (s.waitFor c w).recs = s.recs := rfl
@[simp] theorem State.waitFor_msix (s : State) (c : CtxId) (w : Wait) : (s.waitFor c w).msix = s.msix := rfl
@[simp] theorem State.waitFor_vfHead (s : State) (c : CtxId) (w : Wait) : (s.waitFor c w).vfHead = s.vfHead := rfl
@[simp] theorem State.waitFor_vfs (s : State) (c : CtxId) (w : Wait) : (s.waitFor c w).vfs = s.vfs := rfl
@[simp] theorem State.waitFor_leases (s : State) (c : CtxId) (w : Wait) : (s.waitFor c w).leases = s.leases := rfl
@[simp] theorem State.waitFor_spawns (s : State) (c : CtxId) (w : Wait) : (s.waitFor c w).spawns = s.spawns := rfl
@[simp] theorem State.waitFor_ostN (s : State) (c : CtxId) (w : Wait) : (s.waitFor c w).ostN = s.ostN := rfl
@[simp] theorem State.waitFor_mapAt (s : State) (c : CtxId) (w : Wait) : (s.waitFor c w).mapAt = s.mapAt := rfl
@[simp] theorem State.waitFor_finals (s : State) (c : CtxId) (w : Wait) : (s.waitFor c w).finals = s.finals := rfl
@[simp] theorem State.waitFor_lost (s : State) (c : CtxId) (w : Wait) : (s.waitFor c w).lost = s.lost := rfl
@[simp] theorem State.waitFor_spilled (s : State) (c : CtxId) (w : Wait) : (s.waitFor c w).spilled = s.spilled := rfl
@[simp] theorem State.waitFor_rstores (s : State) (c : CtxId) (w : Wait) : (s.waitFor c w).rstores = s.rstores := rfl
@[simp] theorem State.waitFor_pktN (s : State) (c : CtxId) (w : Wait) : (s.waitFor c w).pktN = s.pktN := rfl
@[simp] theorem State.waitFor_kickMsgs (s : State) (c : CtxId) (w : Wait) : (s.waitFor c w).kickMsgs = s.kickMsgs := rfl
@[simp] theorem State.waitFor_pullAcks (s : State) (c : CtxId) (w : Wait) : (s.waitFor c w).pullAcks = s.pullAcks := rfl
@[simp] theorem State.waitFor_mcasts (s : State) (c : CtxId) (w : Wait) : (s.waitFor c w).mcasts = s.mcasts := rfl
@[simp] theorem State.waitFor_queues (s : State) (c : CtxId) (w : Wait) : (s.waitFor c w).queues = s.queues := rfl
@[simp] theorem State.waitFor_walker (s : State) (c : CtxId) (w : Wait) : (s.waitFor c w).walker = s.walker := rfl
@[simp] theorem State.waitFor_killedSlots (s : State) (c : CtxId) (w : Wait) : (s.waitFor c w).killedSlots = s.killedSlots := rfl
@[simp] theorem State.waitFor_reports (s : State) (c : CtxId) (w : Wait) : (s.waitFor c w).reports = s.reports := rfl
@[simp] theorem State.waitFor_stats (s : State) (c : CtxId) (w : Wait) : (s.waitFor c w).stats = s.stats := rfl
@[simp] theorem State.waitFor_ost (s : State) (c : CtxId) (w : Wait) : (s.waitFor c w).ost = s.ost := rfl
@[simp] theorem State.waitFor_lastLid (s : State) (c : CtxId) (w : Wait) : (s.waitFor c w).lastLid = s.lastLid := rfl
@[simp] theorem State.waitFor_compact (s : State) (c : CtxId) (w : Wait) : (s.waitFor c w).compact = s.compact := rfl
@[simp] theorem State.waitFor_restores (s : State) (c : CtxId) (w : Wait) : (s.waitFor c w).restores = s.restores := rfl
@[simp] theorem State.waitFor_hubQ (s : State) (c : CtxId) (w : Wait) : (s.waitFor c w).hubQ = s.hubQ := rfl
@[simp] theorem State.waitFor_resets (s : State) (c : CtxId) (w : Wait) : (s.waitFor c w).resets = s.resets := rfl
@[simp] theorem State.waitFor_tdis (s : State) (c : CtxId) (w : Wait) : (s.waitFor c w).tdis = s.tdis := rfl
@[simp] theorem State.waitFor_vfCfg (s : State) (c : CtxId) (w : Wait) : (s.waitFor c w).vfCfg = s.vfCfg := rfl
@[simp] theorem State.waitFor_jex (s : State) (c : CtxId) (w : Wait) : (s.waitFor c w).jex = s.jex := rfl
@[simp] theorem State.waitFor_ucie (s : State) (c : CtxId) (w : Wait) : (s.waitFor c w).ucie = s.ucie := rfl
@[simp] theorem State.waitFor_dead (s : State) (c : CtxId) (w : Wait) : (s.waitFor c w).dead = s.dead := rfl
@[simp] theorem State.waitFor_reply (s : State) (c : CtxId) (w : Wait) : (s.waitFor c w).reply = s.reply := rfl
@[simp] theorem State.waitFor_hot (s : State) (c : CtxId) (w : Wait) : (s.waitFor c w).hot = s.hot := rfl
@[simp] theorem State.waitFor_off (s : State) (c : CtxId) (w : Wait) : (s.waitFor c w).off = s.off := rfl
@[simp] theorem State.waitFor_link (s : State) (c : CtxId) (w : Wait) : (s.waitFor c w).link = s.link := rfl
@[simp] theorem State.waitFor_frac (s : State) (c : CtxId) (w : Wait) : (s.waitFor c w).frac = s.frac := rfl
@[simp] theorem State.waitFor_clkBase (s : State) (c : CtxId) (w : Wait) : (s.waitFor c w).clkBase = s.clkBase := rfl
@[simp] theorem State.waitFor_intervals (s : State) (c : CtxId) (w : Wait) : (s.waitFor c w).intervals = s.intervals := rfl
@[simp] theorem State.waitFor_events (s : State) (c : CtxId) (w : Wait) : (s.waitFor c w).events = s.events := rfl
@[simp] theorem State.waitFor_dutyNext (s : State) (c : CtxId) (w : Wait) : (s.waitFor c w).dutyNext = s.dutyNext := rfl
@[simp] theorem State.waitFor_spent (s : State) (c : CtxId) (w : Wait) : (s.waitFor c w).spent = s.spent := rfl
@[simp] theorem State.waitFor_budgetQ (s : State) (c : CtxId) (w : Wait) : (s.waitFor c w).budgetQ = s.budgetQ := rfl
@[simp] theorem State.waitFor_keys (s : State) (c : CtxId) (w : Wait) : (s.waitFor c w).keys = s.keys := rfl
@[simp] theorem State.waitFor_meas (s : State) (c : CtxId) (w : Wait) : (s.waitFor c w).meas = s.meas := rfl
@[simp] theorem State.waitFor_session (s : State) (c : CtxId) (w : Wait) : (s.waitFor c w).session = s.session := rfl
@[simp] theorem State.waitFor_ideKeys (s : State) (c : CtxId) (w : Wait) : (s.waitFor c w).ideKeys = s.ideKeys := rfl
@[simp] theorem State.waitFor_fuse (s : State) (c : CtxId) (w : Wait) : (s.waitFor c w).fuse = s.fuse := rfl

/-! ### retire -/

@[simp] theorem State.retire_agenda (s : State) (c : CtxId) (f : Ctx → Ctx) : (s.retire c f).agenda = s.agenda := rfl
@[simp] theorem State.retire_cur (s : State) (c : CtxId) (f : Ctx → Ctx) : (s.retire c f).cur = s.cur := rfl
@[simp] theorem State.retire_free (s : State) (c : CtxId) (f : Ctx → Ctx) : (s.retire c f).free = s.free := rfl
@[simp] theorem State.retire_time (s : State) (c : CtxId) (f : Ctx → Ctx) : (s.retire c f).time = s.time := rfl
@[simp] theorem State.retire_cores (s : State) (c : CtxId) (f : Ctx → Ctx) : (s.retire c f).cores = s.cores := rfl
@[simp] theorem State.retire_dies (s : State) (c : CtxId) (f : Ctx → Ctx) : (s.retire c f).dies = s.dies := rfl
@[simp] theorem State.retire_mem (s : State) (c : CtxId) (f : Ctx → Ctx) : (s.retire c f).mem = s.mem := rfl
@[simp] theorem State.retire_unspec (s : State) (c : CtxId) (f : Ctx → Ctx) : (s.retire c f).unspec = s.unspec := rfl
@[simp] theorem State.retire_hbmPoison (s : State) (c : CtxId) (f : Ctx → Ctx) : (s.retire c f).hbmPoison = s.hbmPoison := rfl
@[simp] theorem State.retire_hdrs (s : State) (c : CtxId) (f : Ctx → Ctx) : (s.retire c f).hdrs = s.hdrs := rfl
@[simp] theorem State.retire_turns (s : State) (c : CtxId) (f : Ctx → Ctx) : (s.retire c f).turns = s.turns := rfl
@[simp] theorem State.retire_hbm (s : State) (c : CtxId) (f : Ctx → Ctx) : (s.retire c f).hbm = s.hbm := rfl
@[simp] theorem State.retire_barWaiters (s : State) (c : CtxId) (f : Ctx → Ctx) : (s.retire c f).barWaiters = s.barWaiters := rfl
@[simp] theorem State.retire_dreqs (s : State) (c : CtxId) (f : Ctx → Ctx) : (s.retire c f).dreqs = s.dreqs := rfl
@[simp] theorem State.retire_dreqN (s : State) (c : CtxId) (f : Ctx → Ctx) : (s.retire c f).dreqN = s.dreqN := rfl
@[simp] theorem State.retire_flits (s : State) (c : CtxId) (f : Ctx → Ctx) : (s.retire c f).flits = s.flits := rfl
@[simp] theorem State.retire_ports (s : State) (c : CtxId) (f : Ctx → Ctx) : (s.retire c f).ports = s.ports := rfl
@[simp] theorem State.retire_acnMsgs (s : State) (c : CtxId) (f : Ctx → Ctx) : (s.retire c f).acnMsgs = s.acnMsgs := rfl
@[simp] theorem State.retire_mg (s : State) (c : CtxId) (f : Ctx → Ctx) : (s.retire c f).mg = s.mg := rfl
@[simp] theorem State.retire_mgLast (s : State) (c : CtxId) (f : Ctx → Ctx) : (s.retire c f).mgLast = s.mgLast := rfl
@[simp] theorem State.retire_recs (s : State) (c : CtxId) (f : Ctx → Ctx) : (s.retire c f).recs = s.recs := rfl
@[simp] theorem State.retire_msix (s : State) (c : CtxId) (f : Ctx → Ctx) : (s.retire c f).msix = s.msix := rfl
@[simp] theorem State.retire_vfHead (s : State) (c : CtxId) (f : Ctx → Ctx) : (s.retire c f).vfHead = s.vfHead := rfl
@[simp] theorem State.retire_vfs (s : State) (c : CtxId) (f : Ctx → Ctx) : (s.retire c f).vfs = s.vfs := rfl
@[simp] theorem State.retire_leases (s : State) (c : CtxId) (f : Ctx → Ctx) : (s.retire c f).leases = s.leases := rfl
@[simp] theorem State.retire_spawns (s : State) (c : CtxId) (f : Ctx → Ctx) : (s.retire c f).spawns = s.spawns := rfl
@[simp] theorem State.retire_ostN (s : State) (c : CtxId) (f : Ctx → Ctx) : (s.retire c f).ostN = s.ostN := rfl
@[simp] theorem State.retire_mapAt (s : State) (c : CtxId) (f : Ctx → Ctx) : (s.retire c f).mapAt = s.mapAt := rfl
@[simp] theorem State.retire_finals (s : State) (c : CtxId) (f : Ctx → Ctx) : (s.retire c f).finals = s.finals := rfl
@[simp] theorem State.retire_lost (s : State) (c : CtxId) (f : Ctx → Ctx) : (s.retire c f).lost = s.lost := rfl
@[simp] theorem State.retire_spilled (s : State) (c : CtxId) (f : Ctx → Ctx) : (s.retire c f).spilled = s.spilled := rfl
@[simp] theorem State.retire_rstores (s : State) (c : CtxId) (f : Ctx → Ctx) : (s.retire c f).rstores = s.rstores := rfl
@[simp] theorem State.retire_pktN (s : State) (c : CtxId) (f : Ctx → Ctx) : (s.retire c f).pktN = s.pktN := rfl
@[simp] theorem State.retire_kickMsgs (s : State) (c : CtxId) (f : Ctx → Ctx) : (s.retire c f).kickMsgs = s.kickMsgs := rfl
@[simp] theorem State.retire_pullAcks (s : State) (c : CtxId) (f : Ctx → Ctx) : (s.retire c f).pullAcks = s.pullAcks := rfl
@[simp] theorem State.retire_mcasts (s : State) (c : CtxId) (f : Ctx → Ctx) : (s.retire c f).mcasts = s.mcasts := rfl
@[simp] theorem State.retire_queues (s : State) (c : CtxId) (f : Ctx → Ctx) : (s.retire c f).queues = s.queues := rfl
@[simp] theorem State.retire_walker (s : State) (c : CtxId) (f : Ctx → Ctx) : (s.retire c f).walker = s.walker := rfl
@[simp] theorem State.retire_killedSlots (s : State) (c : CtxId) (f : Ctx → Ctx) : (s.retire c f).killedSlots = s.killedSlots := rfl
@[simp] theorem State.retire_reports (s : State) (c : CtxId) (f : Ctx → Ctx) : (s.retire c f).reports = s.reports := rfl
@[simp] theorem State.retire_stats (s : State) (c : CtxId) (f : Ctx → Ctx) : (s.retire c f).stats = s.stats := rfl
@[simp] theorem State.retire_ost (s : State) (c : CtxId) (f : Ctx → Ctx) : (s.retire c f).ost = s.ost := rfl
@[simp] theorem State.retire_lastLid (s : State) (c : CtxId) (f : Ctx → Ctx) : (s.retire c f).lastLid = s.lastLid := rfl
@[simp] theorem State.retire_compact (s : State) (c : CtxId) (f : Ctx → Ctx) : (s.retire c f).compact = s.compact := rfl
@[simp] theorem State.retire_restores (s : State) (c : CtxId) (f : Ctx → Ctx) : (s.retire c f).restores = s.restores := rfl
@[simp] theorem State.retire_hubQ (s : State) (c : CtxId) (f : Ctx → Ctx) : (s.retire c f).hubQ = s.hubQ := rfl
@[simp] theorem State.retire_resets (s : State) (c : CtxId) (f : Ctx → Ctx) : (s.retire c f).resets = s.resets := rfl
@[simp] theorem State.retire_tdis (s : State) (c : CtxId) (f : Ctx → Ctx) : (s.retire c f).tdis = s.tdis := rfl
@[simp] theorem State.retire_vfCfg (s : State) (c : CtxId) (f : Ctx → Ctx) : (s.retire c f).vfCfg = s.vfCfg := rfl
@[simp] theorem State.retire_jex (s : State) (c : CtxId) (f : Ctx → Ctx) : (s.retire c f).jex = s.jex := rfl
@[simp] theorem State.retire_ucie (s : State) (c : CtxId) (f : Ctx → Ctx) : (s.retire c f).ucie = s.ucie := rfl
@[simp] theorem State.retire_dead (s : State) (c : CtxId) (f : Ctx → Ctx) : (s.retire c f).dead = s.dead := rfl
@[simp] theorem State.retire_reply (s : State) (c : CtxId) (f : Ctx → Ctx) : (s.retire c f).reply = s.reply := rfl
@[simp] theorem State.retire_hot (s : State) (c : CtxId) (f : Ctx → Ctx) : (s.retire c f).hot = s.hot := rfl
@[simp] theorem State.retire_off (s : State) (c : CtxId) (f : Ctx → Ctx) : (s.retire c f).off = s.off := rfl
@[simp] theorem State.retire_link (s : State) (c : CtxId) (f : Ctx → Ctx) : (s.retire c f).link = s.link := rfl
@[simp] theorem State.retire_frac (s : State) (c : CtxId) (f : Ctx → Ctx) : (s.retire c f).frac = s.frac := rfl
@[simp] theorem State.retire_clkBase (s : State) (c : CtxId) (f : Ctx → Ctx) : (s.retire c f).clkBase = s.clkBase := rfl
@[simp] theorem State.retire_intervals (s : State) (c : CtxId) (f : Ctx → Ctx) : (s.retire c f).intervals = s.intervals := rfl
@[simp] theorem State.retire_events (s : State) (c : CtxId) (f : Ctx → Ctx) : (s.retire c f).events = s.events := rfl
@[simp] theorem State.retire_dutyNext (s : State) (c : CtxId) (f : Ctx → Ctx) : (s.retire c f).dutyNext = s.dutyNext := rfl
@[simp] theorem State.retire_spent (s : State) (c : CtxId) (f : Ctx → Ctx) : (s.retire c f).spent = s.spent := rfl
@[simp] theorem State.retire_budgetQ (s : State) (c : CtxId) (f : Ctx → Ctx) : (s.retire c f).budgetQ = s.budgetQ := rfl
@[simp] theorem State.retire_keys (s : State) (c : CtxId) (f : Ctx → Ctx) : (s.retire c f).keys = s.keys := rfl
@[simp] theorem State.retire_meas (s : State) (c : CtxId) (f : Ctx → Ctx) : (s.retire c f).meas = s.meas := rfl
@[simp] theorem State.retire_session (s : State) (c : CtxId) (f : Ctx → Ctx) : (s.retire c f).session = s.session := rfl
@[simp] theorem State.retire_ideKeys (s : State) (c : CtxId) (f : Ctx → Ctx) : (s.retire c f).ideKeys = s.ideKeys := rfl
@[simp] theorem State.retire_fuse (s : State) (c : CtxId) (f : Ctx → Ctx) : (s.retire c f).fuse = s.fuse := rfl

/-! ### setMg -/

@[simp] theorem State.setMg_agenda (s : State) (n : Nat) (v : W64) : (s.setMg n v).agenda = s.agenda := rfl
@[simp] theorem State.setMg_cur (s : State) (n : Nat) (v : W64) : (s.setMg n v).cur = s.cur := rfl
@[simp] theorem State.setMg_free (s : State) (n : Nat) (v : W64) : (s.setMg n v).free = s.free := rfl
@[simp] theorem State.setMg_time (s : State) (n : Nat) (v : W64) : (s.setMg n v).time = s.time := rfl
@[simp] theorem State.setMg_ctxs (s : State) (n : Nat) (v : W64) : (s.setMg n v).ctxs = s.ctxs := rfl
@[simp] theorem State.setMg_cores (s : State) (n : Nat) (v : W64) : (s.setMg n v).cores = s.cores := rfl
@[simp] theorem State.setMg_dies (s : State) (n : Nat) (v : W64) : (s.setMg n v).dies = s.dies := rfl
@[simp] theorem State.setMg_mem (s : State) (n : Nat) (v : W64) : (s.setMg n v).mem = s.mem := rfl
@[simp] theorem State.setMg_unspec (s : State) (n : Nat) (v : W64) : (s.setMg n v).unspec = s.unspec := rfl
@[simp] theorem State.setMg_hbmPoison (s : State) (n : Nat) (v : W64) : (s.setMg n v).hbmPoison = s.hbmPoison := rfl
@[simp] theorem State.setMg_hdrs (s : State) (n : Nat) (v : W64) : (s.setMg n v).hdrs = s.hdrs := rfl
@[simp] theorem State.setMg_turns (s : State) (n : Nat) (v : W64) : (s.setMg n v).turns = s.turns := rfl
@[simp] theorem State.setMg_hbm (s : State) (n : Nat) (v : W64) : (s.setMg n v).hbm = s.hbm := rfl
@[simp] theorem State.setMg_barWaiters (s : State) (n : Nat) (v : W64) : (s.setMg n v).barWaiters = s.barWaiters := rfl
@[simp] theorem State.setMg_dreqs (s : State) (n : Nat) (v : W64) : (s.setMg n v).dreqs = s.dreqs := rfl
@[simp] theorem State.setMg_dreqN (s : State) (n : Nat) (v : W64) : (s.setMg n v).dreqN = s.dreqN := rfl
@[simp] theorem State.setMg_flits (s : State) (n : Nat) (v : W64) : (s.setMg n v).flits = s.flits := rfl
@[simp] theorem State.setMg_ports (s : State) (n : Nat) (v : W64) : (s.setMg n v).ports = s.ports := rfl
@[simp] theorem State.setMg_acnMsgs (s : State) (n : Nat) (v : W64) : (s.setMg n v).acnMsgs = s.acnMsgs := rfl
@[simp] theorem State.setMg_mgLast (s : State) (n : Nat) (v : W64) : (s.setMg n v).mgLast = s.mgLast := rfl
@[simp] theorem State.setMg_recs (s : State) (n : Nat) (v : W64) : (s.setMg n v).recs = s.recs := rfl
@[simp] theorem State.setMg_msix (s : State) (n : Nat) (v : W64) : (s.setMg n v).msix = s.msix := rfl
@[simp] theorem State.setMg_vfHead (s : State) (n : Nat) (v : W64) : (s.setMg n v).vfHead = s.vfHead := rfl
@[simp] theorem State.setMg_vfs (s : State) (n : Nat) (v : W64) : (s.setMg n v).vfs = s.vfs := rfl
@[simp] theorem State.setMg_leases (s : State) (n : Nat) (v : W64) : (s.setMg n v).leases = s.leases := rfl
@[simp] theorem State.setMg_spawns (s : State) (n : Nat) (v : W64) : (s.setMg n v).spawns = s.spawns := rfl
@[simp] theorem State.setMg_ostN (s : State) (n : Nat) (v : W64) : (s.setMg n v).ostN = s.ostN := rfl
@[simp] theorem State.setMg_mapAt (s : State) (n : Nat) (v : W64) : (s.setMg n v).mapAt = s.mapAt := rfl
@[simp] theorem State.setMg_finals (s : State) (n : Nat) (v : W64) : (s.setMg n v).finals = s.finals := rfl
@[simp] theorem State.setMg_lost (s : State) (n : Nat) (v : W64) : (s.setMg n v).lost = s.lost := rfl
@[simp] theorem State.setMg_spilled (s : State) (n : Nat) (v : W64) : (s.setMg n v).spilled = s.spilled := rfl
@[simp] theorem State.setMg_rstores (s : State) (n : Nat) (v : W64) : (s.setMg n v).rstores = s.rstores := rfl
@[simp] theorem State.setMg_pktN (s : State) (n : Nat) (v : W64) : (s.setMg n v).pktN = s.pktN := rfl
@[simp] theorem State.setMg_kickMsgs (s : State) (n : Nat) (v : W64) : (s.setMg n v).kickMsgs = s.kickMsgs := rfl
@[simp] theorem State.setMg_pullAcks (s : State) (n : Nat) (v : W64) : (s.setMg n v).pullAcks = s.pullAcks := rfl
@[simp] theorem State.setMg_mcasts (s : State) (n : Nat) (v : W64) : (s.setMg n v).mcasts = s.mcasts := rfl
@[simp] theorem State.setMg_queues (s : State) (n : Nat) (v : W64) : (s.setMg n v).queues = s.queues := rfl
@[simp] theorem State.setMg_walker (s : State) (n : Nat) (v : W64) : (s.setMg n v).walker = s.walker := rfl
@[simp] theorem State.setMg_killedSlots (s : State) (n : Nat) (v : W64) : (s.setMg n v).killedSlots = s.killedSlots := rfl
@[simp] theorem State.setMg_reports (s : State) (n : Nat) (v : W64) : (s.setMg n v).reports = s.reports := rfl
@[simp] theorem State.setMg_stats (s : State) (n : Nat) (v : W64) : (s.setMg n v).stats = s.stats := rfl
@[simp] theorem State.setMg_ost (s : State) (n : Nat) (v : W64) : (s.setMg n v).ost = s.ost := rfl
@[simp] theorem State.setMg_lastLid (s : State) (n : Nat) (v : W64) : (s.setMg n v).lastLid = s.lastLid := rfl
@[simp] theorem State.setMg_compact (s : State) (n : Nat) (v : W64) : (s.setMg n v).compact = s.compact := rfl
@[simp] theorem State.setMg_restores (s : State) (n : Nat) (v : W64) : (s.setMg n v).restores = s.restores := rfl
@[simp] theorem State.setMg_hubQ (s : State) (n : Nat) (v : W64) : (s.setMg n v).hubQ = s.hubQ := rfl
@[simp] theorem State.setMg_resets (s : State) (n : Nat) (v : W64) : (s.setMg n v).resets = s.resets := rfl
@[simp] theorem State.setMg_tdis (s : State) (n : Nat) (v : W64) : (s.setMg n v).tdis = s.tdis := rfl
@[simp] theorem State.setMg_vfCfg (s : State) (n : Nat) (v : W64) : (s.setMg n v).vfCfg = s.vfCfg := rfl
@[simp] theorem State.setMg_jex (s : State) (n : Nat) (v : W64) : (s.setMg n v).jex = s.jex := rfl
@[simp] theorem State.setMg_ucie (s : State) (n : Nat) (v : W64) : (s.setMg n v).ucie = s.ucie := rfl
@[simp] theorem State.setMg_dead (s : State) (n : Nat) (v : W64) : (s.setMg n v).dead = s.dead := rfl
@[simp] theorem State.setMg_reply (s : State) (n : Nat) (v : W64) : (s.setMg n v).reply = s.reply := rfl
@[simp] theorem State.setMg_hot (s : State) (n : Nat) (v : W64) : (s.setMg n v).hot = s.hot := rfl
@[simp] theorem State.setMg_off (s : State) (n : Nat) (v : W64) : (s.setMg n v).off = s.off := rfl
@[simp] theorem State.setMg_link (s : State) (n : Nat) (v : W64) : (s.setMg n v).link = s.link := rfl
@[simp] theorem State.setMg_frac (s : State) (n : Nat) (v : W64) : (s.setMg n v).frac = s.frac := rfl
@[simp] theorem State.setMg_clkBase (s : State) (n : Nat) (v : W64) : (s.setMg n v).clkBase = s.clkBase := rfl
@[simp] theorem State.setMg_intervals (s : State) (n : Nat) (v : W64) : (s.setMg n v).intervals = s.intervals := rfl
@[simp] theorem State.setMg_events (s : State) (n : Nat) (v : W64) : (s.setMg n v).events = s.events := rfl
@[simp] theorem State.setMg_dutyNext (s : State) (n : Nat) (v : W64) : (s.setMg n v).dutyNext = s.dutyNext := rfl
@[simp] theorem State.setMg_spent (s : State) (n : Nat) (v : W64) : (s.setMg n v).spent = s.spent := rfl
@[simp] theorem State.setMg_budgetQ (s : State) (n : Nat) (v : W64) : (s.setMg n v).budgetQ = s.budgetQ := rfl
@[simp] theorem State.setMg_keys (s : State) (n : Nat) (v : W64) : (s.setMg n v).keys = s.keys := rfl
@[simp] theorem State.setMg_meas (s : State) (n : Nat) (v : W64) : (s.setMg n v).meas = s.meas := rfl
@[simp] theorem State.setMg_session (s : State) (n : Nat) (v : W64) : (s.setMg n v).session = s.session := rfl
@[simp] theorem State.setMg_ideKeys (s : State) (n : Nat) (v : W64) : (s.setMg n v).ideKeys = s.ideKeys := rfl
@[simp] theorem State.setMg_fuse (s : State) (n : Nat) (v : W64) : (s.setMg n v).fuse = s.fuse := rfl

/-! ### Ctx.advance -/

@[simp] theorem Ctx.advance_st (c : Ctx) : c.advance.st = c.st := rfl
@[simp] theorem Ctx.advance_gated (c : Ctx) : c.advance.gated = c.gated := rfl
@[simp] theorem Ctx.advance_gsrc (c : Ctx) : c.advance.gsrc = c.gsrc := rfl
@[simp] theorem Ctx.advance_g (c : Ctx) : c.advance.g = c.g := rfl
@[simp] theorem Ctx.advance_p (c : Ctx) : c.advance.p = c.p := rfl
@[simp] theorem Ctx.advance_ipc (c : Ctx) : c.advance.ipc = c.ipc + 4 := rfl
@[simp] theorem Ctx.advance_lx (c : Ctx) : c.advance.lx = c.lx := rfl
@[simp] theorem Ctx.advance_ly (c : Ctx) : c.advance.ly = c.ly := rfl
@[simp] theorem Ctx.advance_lw (c : Ctx) : c.advance.lw = c.lw := rfl
@[simp] theorem Ctx.advance_lh (c : Ctx) : c.advance.lh = c.lh := rfl
@[simp] theorem Ctx.advance_ten (c : Ctx) : c.advance.ten = c.ten := rfl
@[simp] theorem Ctx.advance_asid (c : Ctx) : c.advance.asid = c.asid := rfl
@[simp] theorem Ctx.advance_shape (c : Ctx) : c.advance.shape = c.shape := rfl
@[simp] theorem Ctx.advance_trapc (c : Ctx) : c.advance.trapc = c.trapc := rfl
@[simp] theorem Ctx.advance_trapv (c : Ctx) : c.advance.trapv = c.trapv := rfl
@[simp] theorem Ctx.advance_trapa (c : Ctx) : c.advance.trapa = c.trapa := rfl
@[simp] theorem Ctx.advance_stop (c : Ctx) : c.advance.stop = c.stop := rfl
@[simp] theorem Ctx.advance_flags (c : Ctx) : c.advance.flags = c.flags := rfl
@[simp] theorem Ctx.advance_flagNew (c : Ctx) : c.advance.flagNew = c.flagNew := rfl
@[simp] theorem Ctx.advance_istore (c : Ctx) : c.advance.istore = c.istore := rfl
@[simp] theorem Ctx.advance_ilen (c : Ctx) : c.advance.ilen = c.ilen := rfl
@[simp] theorem Ctx.advance_ipoison (c : Ctx) : c.advance.ipoison = c.ipoison := rfl
@[simp] theorem Ctx.advance_banks (c : Ctx) : c.advance.banks = c.banks := rfl
@[simp] theorem Ctx.advance_ops (c : Ctx) : c.advance.ops = c.ops := rfl
@[simp] theorem Ctx.advance_opN (c : Ctx) : c.advance.opN = c.opN := rfl
@[simp] theorem Ctx.advance_tlq (c : Ctx) : c.advance.tlq = c.tlq := rfl
@[simp] theorem Ctx.advance_tlN (c : Ctx) : c.advance.tlN = c.tlN := rfl
@[simp] theorem Ctx.advance_cpq (c : Ctx) : c.advance.cpq = c.cpq := rfl
@[simp] theorem Ctx.advance_cpN (c : Ctx) : c.advance.cpN = c.cpN := rfl
@[simp] theorem Ctx.advance_cov (c : Ctx) : c.advance.cov = c.cov := rfl
@[simp] theorem Ctx.advance_wait (c : Ctx) : c.advance.wait = c.wait := rfl
@[simp] theorem Ctx.advance_raised (c : Ctx) : c.advance.raised = c.raised := rfl
@[simp] theorem Ctx.advance_weight (c : Ctx) : c.advance.weight = c.weight := rfl
@[simp] theorem Ctx.advance_credit (c : Ctx) : c.advance.credit = c.credit := rfl
@[simp] theorem Ctx.advance_skip (c : Ctx) : c.advance.skip = c.skip := rfl
@[simp] theorem Ctx.advance_yielded (c : Ctx) : c.advance.yielded = c.yielded := rfl
@[simp] theorem Ctx.advance_lease (c : Ctx) : c.advance.lease = c.lease := rfl
@[simp] theorem Ctx.advance_near (c : Ctx) : c.advance.near = c.near := rfl
@[simp] theorem Ctx.advance_joins (c : Ctx) : c.advance.joins = c.joins := rfl
@[simp] theorem Ctx.advance_joinN (c : Ctx) : c.advance.joinN = c.joinN := rfl
@[simp] theorem Ctx.advance_achInt (c : Ctx) : c.advance.achInt = c.achInt := rfl
@[simp] theorem Ctx.advance_kicks (c : Ctx) : c.advance.kicks = c.kicks := rfl
@[simp] theorem Ctx.advance_lsn (c : Ctx) : c.advance.lsn = c.lsn := rfl
@[simp] theorem Ctx.advance_rso (c : Ctx) : c.advance.rso = c.rso := rfl
@[simp] theorem Ctx.advance_cur (c : Ctx) : c.advance.cur = c.cur := rfl
@[simp] theorem Ctx.advance_nxt (c : Ctx) : c.advance.nxt = c.nxt := rfl
@[simp] theorem Ctx.advance_ran (c : Ctx) : c.advance.ran = c.ran := rfl
@[simp] theorem Ctx.advance_miss (c : Ctx) : c.advance.miss = c.miss := rfl
@[simp] theorem Ctx.advance_missed (c : Ctx) : c.advance.missed = c.missed := rfl
@[simp] theorem Ctx.advance_fab (c : Ctx) : c.advance.fab = c.fab := rfl
@[simp] theorem Ctx.advance_mn (c : Ctx) : c.advance.mn = c.mn := rfl
@[simp] theorem Ctx.advance_det (c : Ctx) : c.advance.det = c.det := rfl
@[simp] theorem Ctx.advance_wake (c : Ctx) : c.advance.wake = c.wake := rfl
@[simp] theorem Ctx.advance_gateReq (c : Ctx) : c.advance.gateReq = c.gateReq := rfl
@[simp] theorem Ctx.advance_gateAt (c : Ctx) : c.advance.gateAt = c.gateAt := rfl
@[simp] theorem Ctx.advance_doom (c : Ctx) : c.advance.doom = c.doom := rfl
@[simp] theorem Ctx.advance_drain (c : Ctx) : c.advance.drain = c.drain := rfl
@[simp] theorem Ctx.advance_leaving (c : Ctx) : c.advance.leaving = c.leaving := rfl

/-! ### Ctx.setReg -/

@[simp] theorem Ctx.setReg_st (c : Ctx) (i : BitVec 5) (v : W64) : (c.setReg i v).st = c.st := by
  unfold Ctx.setReg; split <;> rfl
@[simp] theorem Ctx.setReg_gated (c : Ctx) (i : BitVec 5) (v : W64) : (c.setReg i v).gated = c.gated := by
  unfold Ctx.setReg; split <;> rfl
@[simp] theorem Ctx.setReg_gsrc (c : Ctx) (i : BitVec 5) (v : W64) : (c.setReg i v).gsrc = c.gsrc := by
  unfold Ctx.setReg; split <;> rfl
@[simp] theorem Ctx.setReg_p (c : Ctx) (i : BitVec 5) (v : W64) : (c.setReg i v).p = c.p := by
  unfold Ctx.setReg; split <;> rfl
@[simp] theorem Ctx.setReg_ipc (c : Ctx) (i : BitVec 5) (v : W64) : (c.setReg i v).ipc = c.ipc := by
  unfold Ctx.setReg; split <;> rfl
@[simp] theorem Ctx.setReg_lx (c : Ctx) (i : BitVec 5) (v : W64) : (c.setReg i v).lx = c.lx := by
  unfold Ctx.setReg; split <;> rfl
@[simp] theorem Ctx.setReg_ly (c : Ctx) (i : BitVec 5) (v : W64) : (c.setReg i v).ly = c.ly := by
  unfold Ctx.setReg; split <;> rfl
@[simp] theorem Ctx.setReg_lw (c : Ctx) (i : BitVec 5) (v : W64) : (c.setReg i v).lw = c.lw := by
  unfold Ctx.setReg; split <;> rfl
@[simp] theorem Ctx.setReg_lh (c : Ctx) (i : BitVec 5) (v : W64) : (c.setReg i v).lh = c.lh := by
  unfold Ctx.setReg; split <;> rfl
@[simp] theorem Ctx.setReg_ten (c : Ctx) (i : BitVec 5) (v : W64) : (c.setReg i v).ten = c.ten := by
  unfold Ctx.setReg; split <;> rfl
@[simp] theorem Ctx.setReg_asid (c : Ctx) (i : BitVec 5) (v : W64) : (c.setReg i v).asid = c.asid := by
  unfold Ctx.setReg; split <;> rfl
@[simp] theorem Ctx.setReg_shape (c : Ctx) (i : BitVec 5) (v : W64) : (c.setReg i v).shape = c.shape := by
  unfold Ctx.setReg; split <;> rfl
@[simp] theorem Ctx.setReg_trapc (c : Ctx) (i : BitVec 5) (v : W64) : (c.setReg i v).trapc = c.trapc := by
  unfold Ctx.setReg; split <;> rfl
@[simp] theorem Ctx.setReg_trapv (c : Ctx) (i : BitVec 5) (v : W64) : (c.setReg i v).trapv = c.trapv := by
  unfold Ctx.setReg; split <;> rfl
@[simp] theorem Ctx.setReg_trapa (c : Ctx) (i : BitVec 5) (v : W64) : (c.setReg i v).trapa = c.trapa := by
  unfold Ctx.setReg; split <;> rfl
@[simp] theorem Ctx.setReg_stop (c : Ctx) (i : BitVec 5) (v : W64) : (c.setReg i v).stop = c.stop := by
  unfold Ctx.setReg; split <;> rfl
@[simp] theorem Ctx.setReg_flags (c : Ctx) (i : BitVec 5) (v : W64) : (c.setReg i v).flags = c.flags := by
  unfold Ctx.setReg; split <;> rfl
@[simp] theorem Ctx.setReg_flagNew (c : Ctx) (i : BitVec 5) (v : W64) : (c.setReg i v).flagNew = c.flagNew := by
  unfold Ctx.setReg; split <;> rfl
@[simp] theorem Ctx.setReg_istore (c : Ctx) (i : BitVec 5) (v : W64) : (c.setReg i v).istore = c.istore := by
  unfold Ctx.setReg; split <;> rfl
@[simp] theorem Ctx.setReg_ilen (c : Ctx) (i : BitVec 5) (v : W64) : (c.setReg i v).ilen = c.ilen := by
  unfold Ctx.setReg; split <;> rfl
@[simp] theorem Ctx.setReg_ipoison (c : Ctx) (i : BitVec 5) (v : W64) : (c.setReg i v).ipoison = c.ipoison := by
  unfold Ctx.setReg; split <;> rfl
@[simp] theorem Ctx.setReg_banks (c : Ctx) (i : BitVec 5) (v : W64) : (c.setReg i v).banks = c.banks := by
  unfold Ctx.setReg; split <;> rfl
@[simp] theorem Ctx.setReg_ops (c : Ctx) (i : BitVec 5) (v : W64) : (c.setReg i v).ops = c.ops := by
  unfold Ctx.setReg; split <;> rfl
@[simp] theorem Ctx.setReg_opN (c : Ctx) (i : BitVec 5) (v : W64) : (c.setReg i v).opN = c.opN := by
  unfold Ctx.setReg; split <;> rfl
@[simp] theorem Ctx.setReg_tlq (c : Ctx) (i : BitVec 5) (v : W64) : (c.setReg i v).tlq = c.tlq := by
  unfold Ctx.setReg; split <;> rfl
@[simp] theorem Ctx.setReg_tlN (c : Ctx) (i : BitVec 5) (v : W64) : (c.setReg i v).tlN = c.tlN := by
  unfold Ctx.setReg; split <;> rfl
@[simp] theorem Ctx.setReg_cpq (c : Ctx) (i : BitVec 5) (v : W64) : (c.setReg i v).cpq = c.cpq := by
  unfold Ctx.setReg; split <;> rfl
@[simp] theorem Ctx.setReg_cpN (c : Ctx) (i : BitVec 5) (v : W64) : (c.setReg i v).cpN = c.cpN := by
  unfold Ctx.setReg; split <;> rfl
@[simp] theorem Ctx.setReg_cov (c : Ctx) (i : BitVec 5) (v : W64) : (c.setReg i v).cov = c.cov := by
  unfold Ctx.setReg; split <;> rfl
@[simp] theorem Ctx.setReg_wait (c : Ctx) (i : BitVec 5) (v : W64) : (c.setReg i v).wait = c.wait := by
  unfold Ctx.setReg; split <;> rfl
@[simp] theorem Ctx.setReg_raised (c : Ctx) (i : BitVec 5) (v : W64) : (c.setReg i v).raised = c.raised := by
  unfold Ctx.setReg; split <;> rfl
@[simp] theorem Ctx.setReg_weight (c : Ctx) (i : BitVec 5) (v : W64) : (c.setReg i v).weight = c.weight := by
  unfold Ctx.setReg; split <;> rfl
@[simp] theorem Ctx.setReg_credit (c : Ctx) (i : BitVec 5) (v : W64) : (c.setReg i v).credit = c.credit := by
  unfold Ctx.setReg; split <;> rfl
@[simp] theorem Ctx.setReg_skip (c : Ctx) (i : BitVec 5) (v : W64) : (c.setReg i v).skip = c.skip := by
  unfold Ctx.setReg; split <;> rfl
@[simp] theorem Ctx.setReg_yielded (c : Ctx) (i : BitVec 5) (v : W64) : (c.setReg i v).yielded = c.yielded := by
  unfold Ctx.setReg; split <;> rfl
@[simp] theorem Ctx.setReg_lease (c : Ctx) (i : BitVec 5) (v : W64) : (c.setReg i v).lease = c.lease := by
  unfold Ctx.setReg; split <;> rfl
@[simp] theorem Ctx.setReg_near (c : Ctx) (i : BitVec 5) (v : W64) : (c.setReg i v).near = c.near := by
  unfold Ctx.setReg; split <;> rfl
@[simp] theorem Ctx.setReg_joins (c : Ctx) (i : BitVec 5) (v : W64) : (c.setReg i v).joins = c.joins := by
  unfold Ctx.setReg; split <;> rfl
@[simp] theorem Ctx.setReg_joinN (c : Ctx) (i : BitVec 5) (v : W64) : (c.setReg i v).joinN = c.joinN := by
  unfold Ctx.setReg; split <;> rfl
@[simp] theorem Ctx.setReg_achInt (c : Ctx) (i : BitVec 5) (v : W64) : (c.setReg i v).achInt = c.achInt := by
  unfold Ctx.setReg; split <;> rfl
@[simp] theorem Ctx.setReg_kicks (c : Ctx) (i : BitVec 5) (v : W64) : (c.setReg i v).kicks = c.kicks := by
  unfold Ctx.setReg; split <;> rfl
@[simp] theorem Ctx.setReg_lsn (c : Ctx) (i : BitVec 5) (v : W64) : (c.setReg i v).lsn = c.lsn := by
  unfold Ctx.setReg; split <;> rfl
@[simp] theorem Ctx.setReg_rso (c : Ctx) (i : BitVec 5) (v : W64) : (c.setReg i v).rso = c.rso := by
  unfold Ctx.setReg; split <;> rfl
@[simp] theorem Ctx.setReg_cur (c : Ctx) (i : BitVec 5) (v : W64) : (c.setReg i v).cur = c.cur := by
  unfold Ctx.setReg; split <;> rfl
@[simp] theorem Ctx.setReg_nxt (c : Ctx) (i : BitVec 5) (v : W64) : (c.setReg i v).nxt = c.nxt := by
  unfold Ctx.setReg; split <;> rfl
@[simp] theorem Ctx.setReg_ran (c : Ctx) (i : BitVec 5) (v : W64) : (c.setReg i v).ran = c.ran := by
  unfold Ctx.setReg; split <;> rfl
@[simp] theorem Ctx.setReg_miss (c : Ctx) (i : BitVec 5) (v : W64) : (c.setReg i v).miss = c.miss := by
  unfold Ctx.setReg; split <;> rfl
@[simp] theorem Ctx.setReg_missed (c : Ctx) (i : BitVec 5) (v : W64) : (c.setReg i v).missed = c.missed := by
  unfold Ctx.setReg; split <;> rfl
@[simp] theorem Ctx.setReg_fab (c : Ctx) (i : BitVec 5) (v : W64) : (c.setReg i v).fab = c.fab := by
  unfold Ctx.setReg; split <;> rfl
@[simp] theorem Ctx.setReg_mn (c : Ctx) (i : BitVec 5) (v : W64) : (c.setReg i v).mn = c.mn := by
  unfold Ctx.setReg; split <;> rfl
@[simp] theorem Ctx.setReg_det (c : Ctx) (i : BitVec 5) (v : W64) : (c.setReg i v).det = c.det := by
  unfold Ctx.setReg; split <;> rfl
@[simp] theorem Ctx.setReg_wake (c : Ctx) (i : BitVec 5) (v : W64) : (c.setReg i v).wake = c.wake := by
  unfold Ctx.setReg; split <;> rfl
@[simp] theorem Ctx.setReg_gateReq (c : Ctx) (i : BitVec 5) (v : W64) : (c.setReg i v).gateReq = c.gateReq := by
  unfold Ctx.setReg; split <;> rfl
@[simp] theorem Ctx.setReg_gateAt (c : Ctx) (i : BitVec 5) (v : W64) : (c.setReg i v).gateAt = c.gateAt := by
  unfold Ctx.setReg; split <;> rfl
@[simp] theorem Ctx.setReg_doom (c : Ctx) (i : BitVec 5) (v : W64) : (c.setReg i v).doom = c.doom := by
  unfold Ctx.setReg; split <;> rfl
@[simp] theorem Ctx.setReg_drain (c : Ctx) (i : BitVec 5) (v : W64) : (c.setReg i v).drain = c.drain := by
  unfold Ctx.setReg; split <;> rfl
@[simp] theorem Ctx.setReg_leaving (c : Ctx) (i : BitVec 5) (v : W64) : (c.setReg i v).leaving = c.leaving := by
  unfold Ctx.setReg; split <;> rfl

/-! ### Ctx.setPred -/

@[simp] theorem Ctx.setPred_st (c : Ctx) (i : BitVec 3) (v : Bool) : (c.setPred i v).st = c.st := by
  unfold Ctx.setPred; split <;> rfl
@[simp] theorem Ctx.setPred_gated (c : Ctx) (i : BitVec 3) (v : Bool) : (c.setPred i v).gated = c.gated := by
  unfold Ctx.setPred; split <;> rfl
@[simp] theorem Ctx.setPred_gsrc (c : Ctx) (i : BitVec 3) (v : Bool) : (c.setPred i v).gsrc = c.gsrc := by
  unfold Ctx.setPred; split <;> rfl
@[simp] theorem Ctx.setPred_g (c : Ctx) (i : BitVec 3) (v : Bool) : (c.setPred i v).g = c.g := by
  unfold Ctx.setPred; split <;> rfl
@[simp] theorem Ctx.setPred_ipc (c : Ctx) (i : BitVec 3) (v : Bool) : (c.setPred i v).ipc = c.ipc := by
  unfold Ctx.setPred; split <;> rfl
@[simp] theorem Ctx.setPred_lx (c : Ctx) (i : BitVec 3) (v : Bool) : (c.setPred i v).lx = c.lx := by
  unfold Ctx.setPred; split <;> rfl
@[simp] theorem Ctx.setPred_ly (c : Ctx) (i : BitVec 3) (v : Bool) : (c.setPred i v).ly = c.ly := by
  unfold Ctx.setPred; split <;> rfl
@[simp] theorem Ctx.setPred_lw (c : Ctx) (i : BitVec 3) (v : Bool) : (c.setPred i v).lw = c.lw := by
  unfold Ctx.setPred; split <;> rfl
@[simp] theorem Ctx.setPred_lh (c : Ctx) (i : BitVec 3) (v : Bool) : (c.setPred i v).lh = c.lh := by
  unfold Ctx.setPred; split <;> rfl
@[simp] theorem Ctx.setPred_ten (c : Ctx) (i : BitVec 3) (v : Bool) : (c.setPred i v).ten = c.ten := by
  unfold Ctx.setPred; split <;> rfl
@[simp] theorem Ctx.setPred_asid (c : Ctx) (i : BitVec 3) (v : Bool) : (c.setPred i v).asid = c.asid := by
  unfold Ctx.setPred; split <;> rfl
@[simp] theorem Ctx.setPred_shape (c : Ctx) (i : BitVec 3) (v : Bool) : (c.setPred i v).shape = c.shape := by
  unfold Ctx.setPred; split <;> rfl
@[simp] theorem Ctx.setPred_trapc (c : Ctx) (i : BitVec 3) (v : Bool) : (c.setPred i v).trapc = c.trapc := by
  unfold Ctx.setPred; split <;> rfl
@[simp] theorem Ctx.setPred_trapv (c : Ctx) (i : BitVec 3) (v : Bool) : (c.setPred i v).trapv = c.trapv := by
  unfold Ctx.setPred; split <;> rfl
@[simp] theorem Ctx.setPred_trapa (c : Ctx) (i : BitVec 3) (v : Bool) : (c.setPred i v).trapa = c.trapa := by
  unfold Ctx.setPred; split <;> rfl
@[simp] theorem Ctx.setPred_stop (c : Ctx) (i : BitVec 3) (v : Bool) : (c.setPred i v).stop = c.stop := by
  unfold Ctx.setPred; split <;> rfl
@[simp] theorem Ctx.setPred_flags (c : Ctx) (i : BitVec 3) (v : Bool) : (c.setPred i v).flags = c.flags := by
  unfold Ctx.setPred; split <;> rfl
@[simp] theorem Ctx.setPred_flagNew (c : Ctx) (i : BitVec 3) (v : Bool) : (c.setPred i v).flagNew = c.flagNew := by
  unfold Ctx.setPred; split <;> rfl
@[simp] theorem Ctx.setPred_istore (c : Ctx) (i : BitVec 3) (v : Bool) : (c.setPred i v).istore = c.istore := by
  unfold Ctx.setPred; split <;> rfl
@[simp] theorem Ctx.setPred_ilen (c : Ctx) (i : BitVec 3) (v : Bool) : (c.setPred i v).ilen = c.ilen := by
  unfold Ctx.setPred; split <;> rfl
@[simp] theorem Ctx.setPred_ipoison (c : Ctx) (i : BitVec 3) (v : Bool) : (c.setPred i v).ipoison = c.ipoison := by
  unfold Ctx.setPred; split <;> rfl
@[simp] theorem Ctx.setPred_banks (c : Ctx) (i : BitVec 3) (v : Bool) : (c.setPred i v).banks = c.banks := by
  unfold Ctx.setPred; split <;> rfl
@[simp] theorem Ctx.setPred_ops (c : Ctx) (i : BitVec 3) (v : Bool) : (c.setPred i v).ops = c.ops := by
  unfold Ctx.setPred; split <;> rfl
@[simp] theorem Ctx.setPred_opN (c : Ctx) (i : BitVec 3) (v : Bool) : (c.setPred i v).opN = c.opN := by
  unfold Ctx.setPred; split <;> rfl
@[simp] theorem Ctx.setPred_tlq (c : Ctx) (i : BitVec 3) (v : Bool) : (c.setPred i v).tlq = c.tlq := by
  unfold Ctx.setPred; split <;> rfl
@[simp] theorem Ctx.setPred_tlN (c : Ctx) (i : BitVec 3) (v : Bool) : (c.setPred i v).tlN = c.tlN := by
  unfold Ctx.setPred; split <;> rfl
@[simp] theorem Ctx.setPred_cpq (c : Ctx) (i : BitVec 3) (v : Bool) : (c.setPred i v).cpq = c.cpq := by
  unfold Ctx.setPred; split <;> rfl
@[simp] theorem Ctx.setPred_cpN (c : Ctx) (i : BitVec 3) (v : Bool) : (c.setPred i v).cpN = c.cpN := by
  unfold Ctx.setPred; split <;> rfl
@[simp] theorem Ctx.setPred_cov (c : Ctx) (i : BitVec 3) (v : Bool) : (c.setPred i v).cov = c.cov := by
  unfold Ctx.setPred; split <;> rfl
@[simp] theorem Ctx.setPred_wait (c : Ctx) (i : BitVec 3) (v : Bool) : (c.setPred i v).wait = c.wait := by
  unfold Ctx.setPred; split <;> rfl
@[simp] theorem Ctx.setPred_raised (c : Ctx) (i : BitVec 3) (v : Bool) : (c.setPred i v).raised = c.raised := by
  unfold Ctx.setPred; split <;> rfl
@[simp] theorem Ctx.setPred_weight (c : Ctx) (i : BitVec 3) (v : Bool) : (c.setPred i v).weight = c.weight := by
  unfold Ctx.setPred; split <;> rfl
@[simp] theorem Ctx.setPred_credit (c : Ctx) (i : BitVec 3) (v : Bool) : (c.setPred i v).credit = c.credit := by
  unfold Ctx.setPred; split <;> rfl
@[simp] theorem Ctx.setPred_skip (c : Ctx) (i : BitVec 3) (v : Bool) : (c.setPred i v).skip = c.skip := by
  unfold Ctx.setPred; split <;> rfl
@[simp] theorem Ctx.setPred_yielded (c : Ctx) (i : BitVec 3) (v : Bool) : (c.setPred i v).yielded = c.yielded := by
  unfold Ctx.setPred; split <;> rfl
@[simp] theorem Ctx.setPred_lease (c : Ctx) (i : BitVec 3) (v : Bool) : (c.setPred i v).lease = c.lease := by
  unfold Ctx.setPred; split <;> rfl
@[simp] theorem Ctx.setPred_near (c : Ctx) (i : BitVec 3) (v : Bool) : (c.setPred i v).near = c.near := by
  unfold Ctx.setPred; split <;> rfl
@[simp] theorem Ctx.setPred_joins (c : Ctx) (i : BitVec 3) (v : Bool) : (c.setPred i v).joins = c.joins := by
  unfold Ctx.setPred; split <;> rfl
@[simp] theorem Ctx.setPred_joinN (c : Ctx) (i : BitVec 3) (v : Bool) : (c.setPred i v).joinN = c.joinN := by
  unfold Ctx.setPred; split <;> rfl
@[simp] theorem Ctx.setPred_achInt (c : Ctx) (i : BitVec 3) (v : Bool) : (c.setPred i v).achInt = c.achInt := by
  unfold Ctx.setPred; split <;> rfl
@[simp] theorem Ctx.setPred_kicks (c : Ctx) (i : BitVec 3) (v : Bool) : (c.setPred i v).kicks = c.kicks := by
  unfold Ctx.setPred; split <;> rfl
@[simp] theorem Ctx.setPred_lsn (c : Ctx) (i : BitVec 3) (v : Bool) : (c.setPred i v).lsn = c.lsn := by
  unfold Ctx.setPred; split <;> rfl
@[simp] theorem Ctx.setPred_rso (c : Ctx) (i : BitVec 3) (v : Bool) : (c.setPred i v).rso = c.rso := by
  unfold Ctx.setPred; split <;> rfl
@[simp] theorem Ctx.setPred_cur (c : Ctx) (i : BitVec 3) (v : Bool) : (c.setPred i v).cur = c.cur := by
  unfold Ctx.setPred; split <;> rfl
@[simp] theorem Ctx.setPred_nxt (c : Ctx) (i : BitVec 3) (v : Bool) : (c.setPred i v).nxt = c.nxt := by
  unfold Ctx.setPred; split <;> rfl
@[simp] theorem Ctx.setPred_ran (c : Ctx) (i : BitVec 3) (v : Bool) : (c.setPred i v).ran = c.ran := by
  unfold Ctx.setPred; split <;> rfl
@[simp] theorem Ctx.setPred_miss (c : Ctx) (i : BitVec 3) (v : Bool) : (c.setPred i v).miss = c.miss := by
  unfold Ctx.setPred; split <;> rfl
@[simp] theorem Ctx.setPred_missed (c : Ctx) (i : BitVec 3) (v : Bool) : (c.setPred i v).missed = c.missed := by
  unfold Ctx.setPred; split <;> rfl
@[simp] theorem Ctx.setPred_fab (c : Ctx) (i : BitVec 3) (v : Bool) : (c.setPred i v).fab = c.fab := by
  unfold Ctx.setPred; split <;> rfl
@[simp] theorem Ctx.setPred_mn (c : Ctx) (i : BitVec 3) (v : Bool) : (c.setPred i v).mn = c.mn := by
  unfold Ctx.setPred; split <;> rfl
@[simp] theorem Ctx.setPred_det (c : Ctx) (i : BitVec 3) (v : Bool) : (c.setPred i v).det = c.det := by
  unfold Ctx.setPred; split <;> rfl
@[simp] theorem Ctx.setPred_wake (c : Ctx) (i : BitVec 3) (v : Bool) : (c.setPred i v).wake = c.wake := by
  unfold Ctx.setPred; split <;> rfl
@[simp] theorem Ctx.setPred_gateReq (c : Ctx) (i : BitVec 3) (v : Bool) : (c.setPred i v).gateReq = c.gateReq := by
  unfold Ctx.setPred; split <;> rfl
@[simp] theorem Ctx.setPred_gateAt (c : Ctx) (i : BitVec 3) (v : Bool) : (c.setPred i v).gateAt = c.gateAt := by
  unfold Ctx.setPred; split <;> rfl
@[simp] theorem Ctx.setPred_doom (c : Ctx) (i : BitVec 3) (v : Bool) : (c.setPred i v).doom = c.doom := by
  unfold Ctx.setPred; split <;> rfl
@[simp] theorem Ctx.setPred_drain (c : Ctx) (i : BitVec 3) (v : Bool) : (c.setPred i v).drain = c.drain := by
  unfold Ctx.setPred; split <;> rfl
@[simp] theorem Ctx.setPred_leaving (c : Ctx) (i : BitVec 3) (v : Bool) : (c.setPred i v).leaving = c.leaving := by
  unfold Ctx.setPred; split <;> rfl

end Sys2Proof.Machine
end

