-- ==== Sys2Proof/Laws/Ops.lean ====
section
/-! SUPPORT. What the shared operations can do, said once: contexts and registers, the issue of a control word, traps, and the step. -/

namespace Sys2Proof.Machine

/-! ### Contexts -/

@[simp] theorem State.ctx_setCtx_self (s : State) (c : CtxId) (x : Ctx) : (s.setCtx c x).ctx c = x := by
  simp [State.ctx, State.setCtx]

theorem State.ctx_setCtx (s : State) (c d : CtxId) (x : Ctx) : (s.setCtx c x).ctx d = if d = c then x else s.ctx d := by
  by_cases h : d = c <;> simp [State.ctx, State.setCtx, Map.get?_set, h]

/-- Every other context is left alone. -/
theorem State.ctx_setCtx_ne (s : State) {c d : CtxId} (x : Ctx) (h : d ≠ c) : (s.setCtx c x).ctx d = s.ctx d := by simp [State.ctx_setCtx, h]

@[simp] theorem State.core_setCtx (s : State) (c : CtxId) (x : Ctx) (k : CoreId) : (s.setCtx c x).core k = s.core k := rfl
@[simp] theorem State.die_setCtx (s : State) (c : CtxId) (x : Ctx) (d : Nat) : (s.setCtx c x).die d = s.die d := rfl
@[simp] theorem State.mgv_setCtx (s : State) (c : CtxId) (x : Ctx) (n : Nat) : (s.setCtx c x).mgv n = s.mgv n := rfl
@[simp] theorem State.devByte_setCtx (s : State) (c : CtxId) (x : Ctx) (pa : Nat) : (s.setCtx c x).devByte pa = s.devByte pa := rfl

/-! ### Registers (R13) -/

@[simp] theorem Ctx.reg_zero (c : Ctx) : c.reg 0 = 0 := rfl
@[simp] theorem Ctx.setReg_zero (c : Ctx) (v : W64) : c.setReg 0 v = c := rfl

theorem Ctx.reg_setReg_self (c : Ctx) {i : BitVec 5} (h : i ≠ 0) (v : W64) : (c.setReg i v).reg i = v := by
  unfold Ctx.setReg
  rw [if_neg h]
  unfold Ctx.reg
  rw [if_neg h]
  exact Vector.getElem_set_self i.isLt

/-- Every other register is left alone. -/
theorem Ctx.reg_setReg_ne (c : Ctx) {i j : BitVec 5} (v : W64) (h : j ≠ i) : (c.setReg i v).reg j = c.reg j := by
  unfold Ctx.setReg
  split
  · rfl
  · unfold Ctx.reg
    split
    · rfl
    · exact Vector.getElem_set_ne i.isLt j.isLt (fun e => h (BitVec.eq_of_toNat_eq e.symm))

@[simp] theorem Ctx.reg_advance (c : Ctx) (i : BitVec 5) : c.advance.reg i = c.reg i := rfl
@[simp] theorem Ctx.pred_advance (c : Ctx) (i : BitVec 3) : c.advance.pred i = c.pred i := rfl
@[simp] theorem Ctx.pred_setReg (c : Ctx) (i : BitVec 5) (v : W64) (j : BitVec 3) : (c.setReg i v).pred j = c.pred j := by simp [Ctx.pred]
@[simp] theorem Ctx.reg_setPred (c : Ctx) (i : BitVec 3) (v : Bool) (j : BitVec 5) : (c.setPred i v).reg j = c.reg j := by simp [Ctx.reg]

/-! ### The issue of a control word (R9, R13) -/

/-- All that a control word can do: it is held, its guard is false and it only advances, or it has its effect. -/
theorem State.issue_cases (s : State) (g : Guard) (hold : Ctx → Bool) (eff : Ctx → State) :
    (hold (s.ctx s.cur) = true ∧ s.issue g hold eff = .next s)
      ∨ (hold (s.ctx s.cur) = false ∧ (s.ctx s.cur).guard g = false ∧ s.issue g hold eff = .next (s.setCtx s.cur (s.ctx s.cur).advance))
      ∨ (hold (s.ctx s.cur) = false ∧ (s.ctx s.cur).guard g = true ∧ s.issue g hold eff = .next (eff (s.ctx s.cur))) := by
  unfold State.issue
  cases h : hold (s.ctx s.cur) <;> cases k : (s.ctx s.cur).guard g <;> simp [h, k]

theorem State.issue_go {s : State} {g : Guard} {hold : Ctx → Bool} {eff : Ctx → State} (h : hold (s.ctx s.cur) = false)
    (hg : (s.ctx s.cur).guard g = true) : s.issue g hold eff = .next (eff (s.ctx s.cur)) := by simp [State.issue, h, hg]

theorem State.simple_go {s : State} {g : Guard} {hold : Ctx → Bool} {eff : Ctx → Ctx} (h : hold (s.ctx s.cur) = false)
    (hg : (s.ctx s.cur).guard g = true) : s.simple g hold eff = .next (s.setCtx s.cur (eff (s.ctx s.cur)).advance) := by
  simp [State.simple, State.issue, h, hg]

/-- A control word's frame always answers a next state. -/
theorem State.issue_next (s : State) (g : Guard) (hold : Ctx → Bool) (eff : Ctx → State) : ∃ t, s.issue g hold eff = .next t := by
  rcases s.issue_cases g hold eff with h | h | h
  · exact ⟨_, h.2⟩
  · exact ⟨_, h.2.2⟩
  · exact ⟨_, h.2.2⟩

/-- A word of one context leaves every other context, the cores, the dies, the management registers and device memory alone. -/
theorem State.simple_frame {s t : State} {g : Guard} {hold : Ctx → Bool} {eff : Ctx → Ctx} (h : s.simple g hold eff = .next t) :
    (∀ c, c ≠ s.cur → t.ctx c = s.ctx c) ∧ t.cores = s.cores ∧ t.dies = s.dies ∧ t.mg = s.mg ∧ t.mem = s.mem ∧ t.unspec = s.unspec := by
  unfold State.simple at h
  rcases s.issue_cases g hold (fun c => s.setCtx s.cur (eff c).advance) with e | e | e
  · rw [e.2] at h; cases h; simp
  · rw [e.2.2] at h; cases h
    exact ⟨fun c hc => State.ctx_setCtx_ne s _ hc, rfl, rfl, rfl, rfl, rfl⟩
  · rw [e.2.2] at h; cases h
    exact ⟨fun c hc => State.ctx_setCtx_ne s _ hc, rfl, rfl, rfl, rfl, rfl⟩

/-! ### Management registers (R277) -/

theorem State.mgv_setMg (s : State) (n : Nat) (v : W64) (k : Nat) : (s.setMg n v).mgv k = if k = n then v else s.mgv k := by
  unfold State.mgv State.setMg
  split
  · rename_i h
    by_cases hk : k = n
    · subst hk; simp [Map.get?_erase, h]
    · simp [Map.get?_erase, hk]
  · by_cases hk : k = n <;> simp [Map.get?_set, hk]

@[simp] theorem State.mgv_setMg_self (s : State) (n : Nat) (v : W64) : (s.setMg n v).mgv n = v := by simp [State.mgv_setMg]

/-! ### Device memory (R25, R404) -/

/-- A write keeps the canonical form of device memory. -/
theorem State.poke_wf {s : State} (h : s.mem.wf = true) (pa : Nat) (bs : List Byte) : (s.poke pa bs).mem.wf = true := Mem.wf_setBytes h _ _

/-! ### Traps (R30) -/

@[simp] theorem Ctx.enter_ipc (c : Ctx) (t : Trap) : (c.enter t).ipc = 0x20#16 := rfl
@[simp] theorem Ctx.enter_trapa (c : Ctx) (t : Trap) : (c.enter t).trapa = c.ipc := rfl
@[simp] theorem Ctx.enter_trapv (c : Ctx) (t : Trap) : (c.enter t).trapv = t.val := rfl
@[simp] theorem Ctx.enter_st (c : Ctx) (t : Trap) : (c.enter t).st = .ready := rfl
@[simp] theorem Ctx.enter_g (c : Ctx) (t : Trap) : (c.enter t).g = c.g := rfl

/-- The oldest raised trap is taken at a boundary, with ACTIVE 0 and no load or store counted. -/
theorem State.trapEntry_enter {s : State} {c : CtxId} {t : Trap} {rest : List Trap} (hr : (s.ctx c).raised = t :: rest)
    (hs : (s.ctx c).st = .ready) (hg : (s.ctx c).gated = false) (ha : (s.ctx c).active = false) (hl : (s.ctx c).cntLd = 0)
    (ht : (s.ctx c).cntSt = 0) (hw : (s.ctx c).wait = none) :
    s.trapEntry c = s.updCtx c (fun x => { x with raised := rest }.enter t) := by
  have hwd : s.withdraw c = s := by simp [State.withdraw, hw]
  simp [State.trapEntry, hr, hs, hg, ha, hl, ht, hwd]

/-- A trap of a READY context whose counts of loads and stores are zero, with ACTIVE 0 and no older trap, is taken at once. -/
theorem State.raise_enter {s : State} {c : CtxId} {t : Trap} (hs : (s.ctx c).st = .ready) (hg : (s.ctx c).gated = false)
    (hr : (s.ctx c).raised = []) (ha : (s.ctx c).active = false) (hl : (s.ctx c).cntLd = 0) (ht : (s.ctx c).cntSt = 0)
    (hw : (s.ctx c).wait = none) : (s.raise c t).ctx c = { (s.ctx c) with raised := [] }.enter t := by
  have h1 : s.raise c t = (s.updCtx c (fun x => { x with raised := x.raised ++ [t] })).trapEntry c := by simp [State.raise, hs]
  have hc : (s.updCtx c (fun x => { x with raised := x.raised ++ [t] })).ctx c = { (s.ctx c) with raised := [] ++ [t] } := by
    simp [State.updCtx, hr]
  rw [h1, State.trapEntry_enter (t := t) (rest := [])]
  · simp only [State.updCtx, State.ctx_setCtx_self]
  all_goals rw [hc]
  all_goals first | rfl | assumption

/-! ### The step -/

/-- The next move of the agenda is taken, after the cycles it takes. -/
theorem step_agenda {s : State} {dt : Nat} {m : Move} {rest : List (Nat × Move)} (h : s.agenda = (dt, m) :: rest) :
    step s = { s with agenda := rest, time := s.time + dt }.perform m := by simp [step, State.oneStep, h]

end Sys2Proof.Machine
end

