-- ==== Sys2Proof/Laws/Dev.lean ====
section
/-! SUPPORT. Device memory: what a write through the home slices leaves in every byte, and what it never touches. -/

namespace Sys2Proof.Machine

/-- Setting a key twice leaves the second value. -/
@[simp] theorem Map.set_set {α : Type} (m : Map α) (k : Nat) (v w : α) : (m.set k v).set k w = m.set k w := by
  induction m with
  | nil => simp [Map.set]
  | cons e t ih =>
    obtain ⟨i, u⟩ := e
    by_cases h : k < i
    · simp [Map.set, h]
    · by_cases h2 : k = i
      · simp [Map.set, h2]
      · simp [Map.set, h, h2, ih]

/-- Replacing a context bank twice leaves the second. -/
@[simp] theorem State.setCtx_setCtx (s : State) (c : CtxId) (x y : Ctx) : (s.setCtx c x).setCtx c y = s.setCtx c y := by simp [State.setCtx]

/-- A single range, kept if it is not empty, holds x exactly where its bounds say. -/
theorem find_single (p q u x : Nat) :
    ((if p < q then [(p, q, u)] else []).find? (fun r => r.1 ≤ x && x < r.2.1)).map (·.2.2) = if p ≤ x ∧ x < q then some u else none := by
  by_cases h : p ≤ x ∧ x < q
  · have : p < q := by omega
    simp [this, h]
  · rw [if_neg h]
    split
    · simp only [List.find?_cons, List.find?_nil]
      have : (decide (p ≤ x) && decide (x < q)) = false := by simp only [Bool.and_eq_false_iff, decide_eq_false_iff_not]; omega
      simp [this]
    · rfl

/-- The tag of the first range that holds x: none inside the cut, the old one outside. -/
theorem cutRange_find (lo hi x : Nat) (l : List (Nat × Nat × Nat)) :
    ((cutRange lo hi l).find? (fun r => r.1 ≤ x && x < r.2.1)).map (·.2.2)
      = if lo ≤ x ∧ x < hi then none else (l.find? (fun r => r.1 ≤ x && x < r.2.1)).map (·.2.2) := by
  induction l with
  | nil => simp [cutRange]
  | cons e t ih =>
    obtain ⟨a, b, u⟩ := e
    simp only [cutRange, List.find?_append, Option.map_or, ih, find_single]
    have hc : (((a, b, u) :: t).find? (fun r => r.1 ≤ x && x < r.2.1)).map (·.2.2)
        = if a ≤ x ∧ x < b then some u else (t.find? (fun r => r.1 ≤ x && x < r.2.1)).map (·.2.2) := by
      by_cases h : a ≤ x ∧ x < b
      · simp [h]
      · have : (decide (a ≤ x) && decide (x < b)) = false := by simp only [Bool.and_eq_false_iff, decide_eq_false_iff_not]; omega
        simp [List.find?_cons, this, h]
    rw [hc]
    by_cases h0 : lo ≤ x ∧ x < hi
    · have h1 : ¬ (a ≤ x ∧ x < min lo b) := by omega
      have h2 : ¬ (max hi a ≤ x ∧ x < b) := by omega
      simp only [h0, h1, h2, if_true, if_false, and_self, Option.none_or]
    · by_cases h1 : a ≤ x ∧ x < b
      · by_cases h2 : x < lo
        · have h3 : a ≤ x ∧ x < min lo b := by omega
          rw [if_pos h3, if_neg h0, if_neg h0, if_pos h1]; rfl
        · have h3 : ¬ (a ≤ x ∧ x < min lo b) := by omega
          have h4 : max hi a ≤ x ∧ x < b := by omega
          rw [if_neg h3, if_pos h4, if_neg h0, if_neg h0, if_pos h1]; rfl
      · have h2 : ¬ (a ≤ x ∧ x < min lo b) := by omega
        have h3 : ¬ (max hi a ≤ x ∧ x < b) := by omega
        rw [if_neg h2, if_neg h3, if_neg h0, if_neg h0, if_neg h1]; rfl

/-- A byte of device memory after a poke. -/
theorem State.devByte_poke {s : State} (h : s.mem.wf = true) (pa : Nat) (bs : List Byte) (x : Nat) :
    (s.poke pa bs).devByte x = if memKey pa ≤ x ∧ x < memKey pa + bs.length then bs.getD (x - memKey pa) 0 else s.devByte x := by
  have key := cutRange_find (memKey pa) (memKey pa + bs.length) x s.unspec
  have hm : (s.poke pa bs).mem = s.mem.setBytes (memKey pa) bs := rfl
  have hu : (s.poke pa bs).unspec = cutRange (memKey pa) (memKey pa + bs.length) s.unspec := rfl
  simp only [State.devByte, hm, hu]
  generalize (cutRange (memKey pa) (memKey pa + bs.length) s.unspec).find? (fun r => r.1 ≤ x && x < r.2.1) = A at key ⊢
  generalize s.unspec.find? (fun r => r.1 ≤ x && x < r.2.1) = B at key ⊢
  by_cases hx : memKey pa ≤ x ∧ x < memKey pa + bs.length
  · rw [if_pos hx] at key ⊢
    obtain ⟨i, rfl⟩ : ∃ i, x = memKey pa + i := ⟨x - memKey pa, by omega⟩
    have hi : i < bs.length := by omega
    cases A with
    | none => simp [Mem.get_setBytes h _ _ hi, List.getD_eq_getElem?_getD, hi]
    | some a => simp at key
  · rw [if_neg hx] at key ⊢
    have hg : (s.mem.setBytes (memKey pa) bs).get x = s.mem.get x := Mem.get_setBytes_of_not_mem h _ _ (by omega)
    cases A <;> cases B <;> simp_all

/-- Invalidating remote copies changes neither memory nor what is unspecified. -/
theorem State.dropCopies_mem (s : State) (line : Nat) : (s.dropCopies line).mem = s.mem ∧ (s.dropCopies line).unspec = s.unspec :=
  ⟨rfl, rfl⟩

/-- Releasing a line's waiters changes neither memory nor what is unspecified. -/
theorem State.releaseBar_mem (s : State) (line : Nat) (ok : Bool) :
    (s.releaseBar line ok).mem = s.mem ∧ (s.releaseBar line ok).unspec = s.unspec := by
  have key : ∀ (l : List (Nat × CtxId)) (f : State → Nat × CtxId → Ctx → Ctx) (s : State),
      (l.foldl (fun s w => s.updCtx w.2 (f s w)) s).mem = s.mem ∧ (l.foldl (fun s w => s.updCtx w.2 (f s w)) s).unspec = s.unspec := by
    intro l f
    induction l with
    | nil => intro s; exact ⟨rfl, rfl⟩
    | cons w t ih => intro s; exact ih (s.updCtx w.2 (f s w))
  exact key _ (fun _ _ => _) s

/-- What a write of one line's bytes leaves in memory and in what is unspecified is what a poke leaves. -/
theorem State.homeWrite_mem (s : State) (pa : Nat) (bs : List Byte) (br : Bool) :
    (s.homeWrite pa bs br).mem = (s.poke pa bs).mem ∧ (s.homeWrite pa bs br).unspec = (s.poke pa bs).unspec := by
  have key (b : Bool) (u v : State) (line : Nat) (hu : u.mem = v.mem ∧ u.unspec = v.unspec) :
      (if b then (u.updHomeLine line (fun l => { l with armed := false })).releaseBar line false else u).mem = v.mem
        ∧ (if b then (u.updHomeLine line (fun l => { l with armed := false })).releaseBar line false else u).unspec = v.unspec := by
    cases b
    · exact hu
    · have := State.releaseBar_mem (u.updHomeLine line (fun l => { l with armed := false })) line false
      exact ⟨this.1.trans hu.1, this.2.trans hu.2⟩
  exact key _ _ _ _ ⟨rfl, rfl⟩

/-- Pieces that stand one behind the other from pa on. -/
def Contig : Nat → List (Nat × List Byte) → Prop
  | _, [] => True
  | pa, (a, l) :: r => a = pa ∧ Contig (pa + l.length) r

theorem cutLines_contig (pa : Nat) (bs : List Byte) : Contig pa (cutLines pa bs) ∧ ((cutLines pa bs).map (·.2)).flatten = bs := by
  induction bs generalizing pa with
  | nil => exact ⟨trivial, rfl⟩
  | cons b t ih =>
    have h := ih (pa + 1)
    unfold cutLines
    split
    · rename_i hn
      rw [hn] at h
      exact ⟨⟨rfl, trivial⟩, by simpa using h.2⟩
    · rename_i a l r hn
      rw [hn] at h
      obtain ⟨⟨rfl, hc⟩, hf⟩ := h
      split
      · exact ⟨⟨rfl, rfl, hc⟩, by simpa using hf⟩
      · refine ⟨⟨rfl, ?_⟩, by simpa using hf⟩
        have : pa + (b :: l).length = pa + 1 + l.length := by simp; omega
        rw [this]; exact hc

/-- Pieces written one behind the other write their bytes, and no other. -/
theorem State.devByte_pieces (L : List (Nat × List Byte)) (pa : Nat) (s : State) (h : s.mem.wf = true) (hc : Contig pa L)
    (hl : memKey pa + (L.map (·.2)).flatten.length ≤ 2 ^ 40) (x : Nat) :
    (L.foldl (fun s w => s.homeWrite w.1 w.2 true) s).mem.wf = true ∧
    (L.foldl (fun s w => s.homeWrite w.1 w.2 true) s).devByte x
      = if memKey pa ≤ x ∧ x < memKey pa + (L.map (·.2)).flatten.length then (L.map (·.2)).flatten.getD (x - memKey pa) 0 else s.devByte x := by
  induction L generalizing pa s with
  | nil =>
    refine ⟨h, ?_⟩
    simp only [List.foldl_nil, List.map_nil, List.flatten_nil, List.length_nil]
    rw [if_neg (by omega)]
  | cons w r ih =>
    obtain ⟨a, l⟩ := w
    obtain ⟨rfl, hr⟩ := hc
    simp only [List.map_cons, List.flatten_cons, List.length_append] at hl ⊢
    simp only [List.foldl_cons]
    have hm := State.homeWrite_mem s a l true
    have hw : (s.homeWrite a l true).mem.wf = true := by rw [hm.1]; exact State.poke_wf h a l
    have hd : (s.homeWrite a l true).devByte x = (s.poke a l).devByte x := by simp only [State.devByte, hm.1, hm.2]
    by_cases hz : (r.map (·.2)).flatten.length = 0
    · have hrl : memKey (a + l.length) + (r.map (·.2)).flatten.length ≤ 2 ^ 40 := by rw [hz]; unfold memKey; omega
      have := ih (a + l.length) _ hw hr hrl
      refine ⟨this.1, ?_⟩
      rw [this.2, hd, State.devByte_poke h]
      have hnil : (r.map (·.2)).flatten = [] := List.length_eq_zero_iff.mp hz
      simp only [hnil, List.length_nil, List.append_nil, Nat.add_zero]
      have : ¬ (memKey (a + l.length) ≤ x ∧ x < memKey (a + l.length)) := by omega
      rw [if_neg this]
    · have hk : memKey (a + l.length) = memKey a + l.length := by unfold memKey at hl ⊢; omega
      have := ih (a + l.length) _ hw hr (by rw [hk]; omega)
      refine ⟨this.1, ?_⟩
      rw [this.2, hd, State.devByte_poke h, hk]
      by_cases h1 : memKey a + l.length ≤ x ∧ x < memKey a + l.length + (r.map (·.2)).flatten.length
      · have h2 : memKey a ≤ x ∧ x < memKey a + (l.length + (r.map (·.2)).flatten.length) := by omega
        rw [if_pos h1, if_pos h2]
        simp only [List.getD_eq_getElem?_getD]
        rw [List.getElem?_append_right (by omega)]
        congr 2
        omega
      · rw [if_neg h1]
        by_cases h3 : memKey a ≤ x ∧ x < memKey a + l.length
        · have h2 : memKey a ≤ x ∧ x < memKey a + (l.length + (r.map (·.2)).flatten.length) := by omega
          rw [if_pos h3, if_pos h2]
          simp only [List.getD_eq_getElem?_getD]
          rw [List.getElem?_append_left (by omega)]
        · have h2 : ¬ (memKey a ≤ x ∧ x < memKey a + (l.length + (r.map (·.2)).flatten.length)) := by omega
          rw [if_neg h3, if_neg h2]

/-- A byte of device memory after a write through the home slices, which keeps the canonical form of memory. -/
theorem State.devByte_devWrite {s : State} (h : s.mem.wf = true) (pa : Nat) (bs : List Byte) (hl : memKey pa + bs.length ≤ 2 ^ 40) (x : Nat) :
    (s.devWrite pa bs).mem.wf = true ∧
    (s.devWrite pa bs).devByte x = if memKey pa ≤ x ∧ x < memKey pa + bs.length then bs.getD (x - memKey pa) 0 else s.devByte x := by
  have hc := cutLines_contig pa bs
  have := State.devByte_pieces (cutLines pa bs) pa s h hc.1 (by rw [hc.2]; exact hl) x
  rw [hc.2] at this
  exact this

end Sys2Proof.Machine
end

