-- ==== Sys2Proof/Laws/Scalar.lean ====
section
/-! SUPPORT. What the shared operations of the scalar words can do, each said once. -/

namespace Sys2Proof.Machine

/-- A word that writes a register: it goes where its guard is true and its destination is not pending. -/
theorem State.wrReg_go {s : State} {g : Guard} {d : BitVec 5} {f : Ctx → W64} (hg : (s.ctx s.cur).guard g = true)
    (hp : (s.ctx s.cur).pends d = false) :
    s.wrReg g d f = .next (s.setCtx s.cur ((s.ctx s.cur).setReg d (f (s.ctx s.cur))).advance) :=
  State.simple_go (hold := fun c => c.pends d) hp hg

/-- A pending destination holds the word. -/
theorem State.wrReg_hold {s : State} {g : Guard} {d : BitVec 5} {f : Ctx → W64} (hp : (s.ctx s.cur).pends d = true) :
    s.wrReg g d f = .next s := by simp [State.wrReg, State.simple, State.issue, hp]

/-- A false guard skips the word. -/
theorem State.wrReg_skip {s : State} {g : Guard} {d : BitVec 5} {f : Ctx → W64} (hg : (s.ctx s.cur).guard g = false)
    (hp : (s.ctx s.cur).pends d = false) : s.wrReg g d f = .next (s.setCtx s.cur (s.ctx s.cur).advance) := by
  simp [State.wrReg, State.simple, State.issue, hp, hg]

theorem State.alu_go {s : State} {g : Guard} {d a b : BitVec 5} {f : W64 → W64 → W64} (hg : (s.ctx s.cur).guard g = true)
    (hp : (s.ctx s.cur).pends d = false) :
    s.alu g d a b f = .next (s.setCtx s.cur ((s.ctx s.cur).setReg d (f ((s.ctx s.cur).reg a) ((s.ctx s.cur).reg b))).advance) :=
  State.wrReg_go hg hp

theorem State.aluI_go {s : State} {g : Guard} {d a : BitVec 5} {f : W64 → W64} (hg : (s.ctx s.cur).guard g = true)
    (hp : (s.ctx s.cur).pends d = false) :
    s.aluI g d a f = .next (s.setCtx s.cur ((s.ctx s.cur).setReg d (f ((s.ctx s.cur).reg a))).advance) :=
  State.wrReg_go hg hp

/-- A division goes where the divider is free too, and occupies it. -/
theorem State.divide_go {s : State} {g : Guard} {d a b : BitVec 5} {f : W64 → W64 → W64} (hg : (s.ctx s.cur).guard g = true)
    (hp : (s.ctx s.cur).pends d = false) (hb : (s.core (coreOf s.cur)).divBusy = false) :
    s.divide g d a b f = .next ((s.setCtx s.cur ((s.ctx s.cur).setReg d (f ((s.ctx s.cur).reg a) ((s.ctx s.cur).reg b))).advance).updCore
      (coreOf s.cur) (fun k => { k with divBusy := true })) :=
  State.issue_go (hold := fun c => c.pends d || (s.core (coreOf s.cur)).divBusy) (by simp [hp, hb]) hg

/-- A busy divider holds a division. -/
theorem State.divide_hold {s : State} {g : Guard} {d a b : BitVec 5} {f : W64 → W64 → W64}
    (hb : (s.core (coreOf s.cur)).divBusy = true) : s.divide g d a b f = .next s := by simp [State.divide, State.issue, hb]

/-- A compare goes wherever its guard is true. -/
theorem State.cmp_go {s : State} {g : Guard} {d : BitVec 3} {f : Ctx → Bool} (hg : (s.ctx s.cur).guard g = true) :
    s.cmp g d f = .next (s.setCtx s.cur ((s.ctx s.cur).setPred d (f (s.ctx s.cur))).advance) :=
  State.simple_go (hold := fun _ => false) rfl hg

/-- A compare-and-branch sets IPC to its target, or goes on. -/
theorem State.brIf_go {s : State} {g : Guard} {a b : BitVec 5} {off : BitVec 11} {f : W64 → W64 → Bool}
    (hg : (s.ctx s.cur).guard g = true) :
    s.brIf g a b off f = .next (s.setCtx s.cur (if f ((s.ctx s.cur).reg a) ((s.ctx s.cur).reg b)
      then { s.ctx s.cur with ipc := brTarget (s.ctx s.cur).ipc off } else (s.ctx s.cur).advance)) :=
  State.issue_go (hold := fun _ => false) rfl hg

/-- The target of a branch as the manual's unbounded arithmetic gives it (R57). -/
theorem brTarget_eq {n : Nat} (ipc : BitVec 16) (off : BitVec n) : brTarget ipc off = BitVec.ofInt 16 (ipc.toNat + 4 * off.toInt) := by
  simp [brTarget, BitVec.ofInt_add, BitVec.ofInt_mul]

/-- The core after an update of it. -/
@[simp] theorem State.core_updCore_self (s : State) (k : CoreId) (f : Core → Core) : (s.updCore k f).core k = f (s.core k) := by
  simp [State.updCore, State.setCore, State.core]

/-- An update of a core leaves every context alone. -/
@[simp] theorem State.ctx_updCore (s : State) (k : CoreId) (f : Core → Core) (c : CtxId) : (s.updCore k f).ctx c = s.ctx c := rfl

end Sys2Proof.Machine
end

