-- ==== Sys2Proof/Laws/Event.lean ====
section
/-! SUPPORT. What a write of device memory, an event and a trap leave alone: a context that waits at no barrier line, the cores, and the canonical
form of memory. -/

namespace Sys2Proof.Machine

/-- A context that waits at a barrier line for its release. -/
def Ctx.AtBarrier (x : Ctx) : Prop := ∃ d va pa r, x.wait = some (.barrier d va pa r none)

/-- Two states that agree on a context that waits at no barrier line, on the cores, and on how well formed memory is. -/
def State.Keeps (s t : State) : Prop :=
  (∀ c, ¬ (s.ctx c).AtBarrier → t.ctx c = s.ctx c) ∧ t.cores = s.cores ∧ (s.mem.wf = true → t.mem.wf = true)

theorem State.Keeps.refl (s : State) : s.Keeps s := ⟨fun _ _ => rfl, rfl, id⟩

theorem State.Keeps.trans {s t u : State} (h : s.Keeps t) (k : t.Keeps u) : s.Keeps u :=
  ⟨fun c hc => by rw [k.1 c (by rw [h.1 c hc]; exact hc), h.1 c hc], k.2.1.trans h.2.1, fun w => k.2.2 (h.2.2 w)⟩

/-- Equal contexts, cores and memory. -/
theorem State.Keeps.of_eq {s t : State} (h1 : t.ctxs = s.ctxs) (h2 : t.cores = s.cores) (h3 : t.mem = s.mem) : s.Keeps t :=
  ⟨fun c _ => by simp only [State.ctx, h1], h2, fun w => by rw [h3]; exact w⟩

theorem State.keeps_setMg (s : State) (n : Nat) (v : W64) : s.Keeps (s.setMg n v) := State.Keeps.of_eq rfl rfl rfl

theorem State.keeps_pend (s : State) (f v : Nat) : s.Keeps (s.pend f v) := State.Keeps.of_eq rfl rfl rfl

theorem State.keeps_updHomeLine (s : State) (pa : Nat) (f : L2Line → L2Line) : s.Keeps (s.updHomeLine pa f) := State.Keeps.of_eq rfl rfl rfl

theorem State.keeps_dropCopies (s : State) (line : Nat) : s.Keeps (s.dropCopies line) := State.Keeps.of_eq rfl rfl rfl

theorem State.keeps_poke (s : State) (pa : Nat) (bs : List Byte) : s.Keeps (s.poke pa bs) := ⟨fun _ _ => rfl, rfl, fun w => State.poke_wf w pa bs⟩

/-- The wait of a released waiter. -/
def Ctx.released (ok : Bool) (c : Ctx) : Ctx :=
  { c with wait := match c.wait with
    | some (.barrier d va pa _ none) => some (.barrier d va pa none (some ok))
    | x => x }

theorem Ctx.released_eq {ok : Bool} {c : Ctx} (h : ¬ c.AtBarrier) : c.released ok = c := by
  unfold Ctx.released
  split
  · exact absurd ⟨_, _, _, _, by assumption⟩ h
  · rfl

theorem State.keeps_released (ok : Bool) (l : List (Nat × CtxId)) (s : State) :
    s.Keeps (l.foldl (fun s w => s.updCtx w.2 (Ctx.released ok)) s) := by
  induction l generalizing s with
  | nil => exact State.Keeps.refl s
  | cons w t ih =>
    refine State.Keeps.trans (t := s.updCtx w.2 (Ctx.released ok)) ⟨fun c hc => ?_, rfl, id⟩ (ih _)
    by_cases e : c = w.2
    · subst e
      simp only [State.updCtx, State.ctx_setCtx_self]
      exact Ctx.released_eq hc
    · exact State.ctx_setCtx_ne _ _ e

theorem State.keeps_releaseBar (s : State) (line : Nat) (ok : Bool) : s.Keeps (s.releaseBar line ok) :=
  State.Keeps.trans (State.keeps_released ok (s.barWaiters.filter (fun w => w.1 == line)) s) (State.Keeps.of_eq rfl rfl rfl)

theorem State.keeps_homeWrite (s : State) (pa : Nat) (bs : List Byte) (br : Bool) : s.Keeps (s.homeWrite pa bs br) := by
  have h0 : ∀ (u : State) (b : Bool) (line : Nat), s.Keeps u →
      s.Keeps (if b then (u.updHomeLine line (fun l => { l with armed := false })).releaseBar line false else u) := by
    intro u b line h
    cases b
    · exact h
    · exact (h.trans (u.keeps_updHomeLine line _)).trans (State.keeps_releaseBar _ line false)
  exact h0 _ _ _ (((s.keeps_dropCopies _).trans (State.keeps_poke _ _ _)).trans (State.keeps_updHomeLine _ _ _))

theorem State.keeps_devWrite (s : State) (pa : Nat) (bs : List Byte) : s.Keeps (s.devWrite pa bs) := by
  have key : ∀ (l : List (Nat × List Byte)) (s : State), s.Keeps (l.foldl (fun s w => s.homeWrite w.1 w.2 true) s) := by
    intro l
    induction l with
    | nil => intro s; exact State.Keeps.refl s
    | cons w t ih => intro s; exact (s.keeps_homeWrite w.1 w.2 true).trans (ih _)
  exact key _ s

theorem State.keeps_foldl {α : Type} (f : State → α → State) (h : ∀ (s : State) (a : α), s.Keeps (f s a)) (l : List α) (s : State) :
    s.Keeps (l.foldl f s) := by
  induction l generalizing s with
  | nil => exact State.Keeps.refl s
  | cons a t ih => exact (h s a).trans (ih _)

theorem State.keeps_ite {s a b : State} {c : Prop} [Decidable c] (ha : s.Keeps a) (hb : s.Keeps b) : s.Keeps (if c then a else b) := by
  split <;> assumption

theorem State.keeps_updDie (s : State) (d : Nat) (f : Die → Die) : s.Keeps (s.updDie d f) := State.Keeps.of_eq rfl rfl rfl

theorem State.keeps_layerUse (s : State) (pa die h : Nat) (wr : Bool) : s.Keeps (s.layerUse pa die h wr) := by
  unfold State.layerUse
  simp only
  repeat' split
  all_goals exact State.Keeps.of_eq rfl rfl rfl

theorem State.keeps_l2Evict (s : State) (die : Nat) (l : L2Line) : s.Keeps (s.l2Evict die l) := by
  unfold State.l2Evict
  have h : s.Keeps (if l.remote then s.updHomeLine l.pa (fun h => { h with sharers := h.sharers.filter (· != die) })
      else if l.sharers.isEmpty then s else s.dropCopies l.pa) :=
    State.keeps_ite (s.keeps_updHomeLine _ _) (State.keeps_ite (State.Keeps.refl s) (s.keeps_dropCopies _))
  have h2 := h.trans (State.keeps_updDie _ die (fun d => { d with l2 := d.l2.filter (fun k => !(k.pa == l.pa && k.remote == l.remote)) }))
  exact State.keeps_ite (h2.trans (State.keeps_layerUse _ _ _ _ _)) h2

theorem State.keeps_demoteL2 (s : State) (die h : Nat) : s.Keeps (s.demoteL2 die h) := by
  unfold State.demoteL2
  refine State.keeps_foldl _ (fun s l => ?_) _ s
  refine State.keeps_ite ?_ (State.keeps_l2Evict _ _ _)
  exact (State.keeps_ite (State.keeps_layerUse s _ _ _ _) (State.Keeps.refl s)).trans (State.keeps_updDie _ _ _)

theorem State.keeps_l2Insert (s : State) (die : Nat) (ways : List Nat) (l : L2Line) : s.Keeps (s.l2Insert die ways l) := by
  unfold State.l2Insert
  simp only
  split
  · exact State.keeps_updDie _ _ _
  · split
    · exact (State.keeps_l2Evict _ _ _).trans (State.keeps_updDie _ _ _)
    · split
      · exact (State.keeps_demoteL2 _ _ _).trans (State.keeps_updDie _ _ _)
      · exact State.Keeps.refl _

theorem State.keeps_l2Put (s : State) (die asid va pa : Nat) : s.Keeps (s.l2Put die asid va pa) := by
  unfold State.l2Put
  exact State.keeps_ite ((State.keeps_l2Insert _ _ _ _).trans (State.keeps_updHomeLine _ _ _)) (State.keeps_l2Insert _ _ _ _)

theorem State.keeps_touch (s : State) (pa : Nat) : s.Keeps (s.touch pa) := by
  unfold State.touch
  split
  · exact State.keeps_updDie _ _ _
  · exact State.Keeps.refl s

theorem State.keeps_l2Home (s : State) (asid va pa : Nat) : s.Keeps (s.l2Home asid va pa) :=
  State.keeps_ite (s.keeps_touch pa) ((State.keeps_layerUse _ _ _ _ _).trans (State.keeps_l2Put _ _ _ _ _))

theorem State.keeps_l2Use (s : State) (die : Option Nat) (asid va pa : Nat) (wr : Bool) : s.Keeps (s.l2Use die asid va pa wr) := by
  unfold State.l2Use
  split
  · exact State.keeps_l2Home _ _ _ _
  · refine State.keeps_ite (State.keeps_l2Home _ _ _ _) ?_
    split
    · exact State.keeps_updDie _ _ _
    · exact (State.keeps_l2Home _ _ _ _).trans (State.keeps_l2Put _ _ _ _ _)

/-- What an access does to the L2 and the cache layer changes no context, no core and no byte. -/
theorem State.keeps_l2Span (s : State) (die : Option Nat) (asid va pa n : Nat) (wr : Bool) : s.Keeps (s.l2Span die asid va pa n wr) :=
  State.keeps_foldl _ (fun s _ => s.keeps_l2Use _ _ _ _ _) _ s

/-- Records in a ring change no context but those that wait at a barrier line that one of them overwrites. -/
theorem State.keeps_ringPut (s : State) (ring key h : Nat) (slot : Nat → Nat) (num : Bool) (bs : List Byte) : s.Keeps (s.ringPut ring key h slot num bs) := by
  have key' : ∀ (n : Nat) (l : List (RingRec × Nat)), s.Keeps (l.foldl (fun s e =>
      s.ringWrite (slot (h - n + e.2)) (if num then numbered (h - n + e.2) e.1.bytes else e.1.bytes)) s) :=
    fun n l => State.keeps_foldl _ (fun s _ => (s.keeps_l2Span _ _ _ _ _ _).trans (State.keeps_devWrite _ _ _)) l s
  exact (key' _ _).trans (State.Keeps.of_eq rfl rfl rfl)

/-- The ring writes of the present cycle set. -/
theorem State.keeps_recs (s : State) (r : Nat × List RingRec) : s.Keeps { s with recs := r } := State.Keeps.of_eq rfl rfl rfl

theorem State.keeps_pfEvent (s : State) (typ ten lid cls detail core bank : Nat) (info : W64) :
    s.Keeps (s.pfEvent typ ten lid cls detail core bank info) := by
  unfold State.pfEvent
  refine State.keeps_ite (((s.keeps_ringPut ..).trans (State.keeps_setMg _ _ _)).trans (State.keeps_pend _ _ _)) ?_
  simp only
  split
  · exact ((s.keeps_setMg _ _).trans (State.keeps_recs _ _)).trans (State.keeps_ringPut ..)
  · exact s.keeps_setMg _ _

/-- The head of a VF ring set. -/
theorem State.keeps_vfHead (s : State) (m : Map Nat) : s.Keeps { s with vfHead := m } := State.Keeps.of_eq rfl rfl rfl

theorem State.keeps_vfRecord (s : State) (ten vec pa : Nat) (bs : List Byte) : s.Keeps (s.vfRecord ten vec pa bs) := by
  unfold State.vfRecord
  exact (((s.keeps_l2Span _ _ _ _ _ _).trans (State.keeps_devWrite _ _ _)).trans (State.keeps_vfHead _ _)).trans (State.keeps_pend _ _ _)

theorem State.keeps_tlog (s : State) (ten pa : Nat) : s.Keeps (s.tlog ten pa) := by
  unfold State.tlog
  exact State.keeps_setMg s _ _

theorem State.keeps_vfBad {s x : State} (t : Option Trap) (h : s.Keeps x) : s.Keeps (vfState (.error (x, t))) := h

theorem State.keeps_vfAt (s : State) (ten vec : Nat) (bs : List Byte) (x : Xlat) : s.Keeps (vfState (s.vfAt ten vec bs x)) := by
  cases x with
  | mig => exact State.Keeps.refl s
  | fault t => exact State.Keeps.refl s
  | ok pa =>
    simp only [State.vfAt]
    split
    · exact State.Keeps.refl s
    · split
      · exact State.keeps_vfRecord ..
      · exact State.keeps_vfBad _ ((s.keeps_tlog ten _).trans (State.keeps_pfEvent ..))

theorem State.keeps_vfPut (s : State) (typ ten lid cls detail core bank vec : Nat) (info : W64) :
    s.Keeps (vfState (s.vfPut typ ten lid cls detail core bank vec info)) := by
  unfold State.vfPut
  split
  · exact State.keeps_vfAt ..
  · exact State.Keeps.refl s

theorem State.keeps_vfEvent (s : State) (typ ten lid cls detail core bank vec : Nat) (info : W64) :
    s.Keeps (s.vfEvent typ ten lid cls detail core bank vec info) := by
  unfold State.vfEvent
  exact s.keeps_vfPut ..

/-- An event changes no context but those that wait at a barrier line whose word it writes, no core, and keeps memory canonical. -/
theorem State.keeps_event (s : State) (typ ten lid cls detail core bank : Nat) (info : W64) :
    s.Keeps (s.event typ ten lid cls detail core bank info) := by
  unfold State.event
  simp only
  split
  · exact (s.keeps_pfEvent ..).trans (State.keeps_vfEvent ..)
  · exact s.keeps_pfEvent ..

theorem State.keeps_withdraw (s : State) (c : CtxId) : s.Keeps (s.withdraw c) := by
  unfold State.withdraw
  split
  · simp only
    split <;> exact State.Keeps.of_eq rfl rfl rfl
  · exact State.Keeps.refl s

/-- Withdrawing a registration changes no context. -/
@[simp] theorem State.ctx_withdraw (s : State) (c d : CtxId) : (s.withdraw c).ctx d = s.ctx d := by
  unfold State.withdraw
  split
  · simp only
    split <;> rfl
  · rfl

theorem State.keeps_breakLease (s : State) (c : CtxId) : s.Keeps (s.breakLease c) := by
  unfold State.breakLease
  simp only
  split
  · split
    · split <;> exact State.Keeps.of_eq rfl rfl rfl
    · exact State.Keeps.of_eq rfl rfl rfl
  · exact State.Keeps.refl s

theorem State.keeps_refreeze (s : State) (l : Nat) : s.Keeps (s.refreeze l) := by
  unfold State.refreeze
  split
  · exact State.Keeps.refl s
  · split <;> exact State.Keeps.of_eq rfl rfl rfl

/-- A second trap stops its context, records the class and the address, and keeps every register. -/
theorem State.stopTrap_ctx (s : State) (c : CtxId) (t : Trap) :
    (s.stopTrap c t).ctx c = { s.ctx c with st := .stopped, wait := none, raised := [], stop := (t.cls, (s.ctx c).ipc) } := by
  have h1 : ((s.withdraw c).updCtx c (fun x => { x with st := .stopped, wait := none, raised := [], stop := (t.cls, x.ipc) })).ctx c
      = { s.ctx c with st := .stopped, wait := none, raised := [], stop := (t.cls, (s.ctx c).ipc) } := by simp [State.updCtx]
  have hb : ¬ (({ s.ctx c with st := .stopped, wait := none, raised := [], stop := (t.cls, (s.ctx c).ipc) } : Ctx)).AtBarrier := by
    rintro ⟨d, pa, r, h⟩; simp at h
  have hk := (((State.keeps_breakLease ((s.withdraw c).updCtx c (fun x => { x with st := .stopped, wait := none, raised := [], stop := (t.cls, x.ipc) })) c).trans
    (State.keeps_refreeze _ (s.ctx c).lease)).trans
    (State.keeps_event _ 1 (s.ctx c).ten.toNat (s.ctx c).lease t.cls.toNat t.detail.toNat (coreOf c) (c % 4) ((s.ctx c).ipc.zeroExtend 64))).1 c
  rw [h1] at hk
  exact hk hb

/-- Where R30 lets a trap be taken at once, raising it enters the handler, and nothing else of the machine changes. -/
theorem State.raise_at_once {s : State} {c : CtxId} {t : Trap} (hs : (s.ctx c).st = .ready) (hg : (s.ctx c).gated = false)
    (hr : (s.ctx c).raised = []) (ha : (s.ctx c).active = false) (hl : (s.ctx c).cntLd = 0) (ht : (s.ctx c).cntSt = 0)
    (hw : (s.ctx c).wait = none) : s.raise c t = s.setCtx c ({ (s.ctx c) with raised := [] }.enter t) := by
  have h1 : s.raise c t = (s.updCtx c (fun x => { x with raised := x.raised ++ [t] })).trapEntry c := by simp [State.raise, hs]
  have hc : (s.updCtx c (fun x => { x with raised := x.raised ++ [t] })).ctx c = { (s.ctx c) with raised := [] ++ [t] } := by
    simp [State.updCtx, hr]
  rw [h1, State.trapEntry_enter (t := t) (rest := [])]
  · simp only [State.updCtx, State.ctx_setCtx_self, State.setCtx_setCtx]
  all_goals rw [hc]
  all_goals first | rfl | assumption

end Sys2Proof.Machine
end

