-- ==== Sys2Proof/Laws/Cells.lean ====
section
/-! SUPPORT. What the shared operations of the cells can do, each said once: a firing that nothing withholds goes, and where it goes it changes its
cell and the flag word of its context alone. -/

namespace Sys2Proof.Machine

@[simp] theorem Cell.tups_length (k : Cell) (m : Nat) : (k.tups m).length = m := by simp [Cell.tups]

/-- No more than four elements stand before the next marker in what a firing takes. -/
theorem headsOf_le {ps : List Part} {m : Nat} (h : headsOf ps = .data m) : m ≤ 4 := by
  have key : ∀ (ps : List Part) (n : Nat), ps.foldl (fun m p => min m p.els.length) n ≤ n := by
    intro ps
    induction ps with
    | nil => intro n; exact Nat.le_refl n
    | cons p t ih => intro n; exact Nat.le_trans (ih _) (Nat.min_le_left _ _)
  unfold headsOf at h
  split at h
  · split at h <;> simp at h
  · split at h
    · simp only at h; split at h <;> simp at h
    · split at h
      · simp at h
      · simp only [Heads.data.injEq] at h
        rw [← h]; exact key ps 4

/-- A firing that nothing withholds goes. -/
theorem State.tryFire_go {s : State} {c : CtxId} {n op lim m : Nat} {k : Cell} {room : Cell → Nat → Bool} (h : s.CellReady c n op k)
    (ho : k.Offers m) (hop : op ≠ 0x58) (hm : m ≤ lim) (hr : room k m = true) : s.tryFire c n op lim room = .yes (s.ctx c) k (k.tups m) := by
  obtain ⟨h1, h2, h3, h4, h5, h6, h7, h8, h9⟩ := h
  have ho' : headsOf ((wQueues k.word).map k.queue) = .data m := ho
  have hb : (op == 0x58) = false := by simpa using hop
  simp [State.tryFire, Cell.holds, h1, h2, h3, h4, h5, h6, h7, h8, h9, ho', hb, Nat.min_eq_left hm, hr]

/-- An arbiter's turn changes no context. -/
@[simp] theorem State.ctx_serve (s : State) (k : Nat) (c d : CtxId) : (s.serve k c).ctx d = s.ctx d := rfl

/-- An arbiter's turn and a change of a context are made in either order. -/
@[simp] theorem State.serve_setCtx (s : State) (k : Nat) (c d : CtxId) (x : Ctx) : (s.setCtx d x).serve k c = (s.serve k c).setCtx d x := rfl

/-- What a firing leaves: the cell replaced, the arbiter's turn taken, and the flags ORed in. -/
theorem State.fired_put (s : State) (c : CtxId) (n : Nat) (k : Cell) (fl : W32) : s.Fired ((s.putFired c n k).addFlags c fl) c n k fl := by
  constructor
  · simp only [State.OnlyFiring, State.putFired, State.putCell, State.addFlags, State.updFab, State.updCtx, State.serve_setCtx, State.ctx_setCtx_self,
      State.setCtx_setCtx]
    rfl
  · simp only [State.putFired, State.putCell, State.addFlags, State.updFab, State.updCtx, State.serve_setCtx, State.ctx_setCtx_self]
    rfl

/-- What a firing without flags leaves. -/
theorem State.fired_put0 (s : State) (c : CtxId) (n : Nat) (k : Cell) : s.Fired (s.putFired c n k) c n k 0 := by
  constructor
  · simp only [State.OnlyFiring, State.putFired, State.putCell, State.updFab, State.updCtx, State.serve_setCtx, State.ctx_setCtx_self]
    rfl
  · simp only [State.putFired, State.putCell, State.updFab, State.updCtx, State.serve_setCtx, State.ctx_setCtx_self, Ctx.addFlags]
    rfl

/-- A one-to-one cell operation that nothing withholds fires. -/
theorem State.fireMap_go {s : State} {c : CtxId} {n op m : Nat} {k : Cell} {f : ElTy → Round → Tup → W32 × W32} (h : s.CellReady c n op k)
    (ho : k.Offers m) (hop : op ≠ 0x58) (hr : k.pk.length + m ≤ 8) :
    ∃ t, s.fireMap c n op f = .next t ∧ s.Fired t c n (k.fired m ((k.tups m).map (fun u => (f (wTy k.word) k.round u).1)))
      ((k.tups m).foldl (fun a u => a ||| (f (wTy k.word) k.round u).2) 0) := by
  have e := State.tryFire_go (room := fits) h ho hop (headsOf_le ho) (by simpa [fits] using hr)
  refine ⟨_, ?_, State.fired_put s c n _ _⟩
  simp only [State.fireMap, e, List.length_map, Cell.tups_length, List.foldl_map, List.map_map, Function.comp_def]
  rfl

/-- A reduction that nothing withholds folds its elements. -/
theorem State.fireFold_go {s : State} {c : CtxId} {n op m : Nat} {k : Cell} {f : ElTy → Round → W32 → Tup → W32 × W32}
    (h : s.CellReady c n op k) (ho : k.Offers m) (hop : op ≠ 0x58) :
    ∃ t, s.fireFold c n op f = .next t ∧ s.Fired t c n
      { k.popQs (wQueues k.word) m with st := ((k.tups m).foldl (fun a u =>
        ((f (wTy k.word) k.round a.1 u).1, a.2 ||| (f (wTy k.word) k.round a.1 u).2)) (k.st, 0)).1 }
      ((k.tups m).foldl (fun a u => ((f (wTy k.word) k.round a.1 u).1, a.2 ||| (f (wTy k.word) k.round a.1 u).2)) (k.st, 0)).2 := by
  have e := State.tryFire_go (room := fun _ _ => true) h ho hop (headsOf_le ho) rfl
  refine ⟨_, ?_, State.fired_put s c n _ _⟩
  simp only [State.fireFold, e, Cell.tups_length, Cell.round]

/-- Flags of an operation that raises none. -/
theorem foldl_or_zero {α : Type} (l : List α) (g : α → W32) (h : ∀ x ∈ l, g x = 0) : l.foldl (fun a x => a ||| g x) 0 = 0 := by
  induction l with
  | nil => rfl
  | cons x t ih =>
    rw [List.foldl_cons, h x (by simp)]
    exact ih (fun y hy => h y (by simp [hy]))

/-- A sub-element operation that raises no flag. -/
theorem ElTy.map2_zero (t : ElTy) {f : Nat → Nat → Nat × W32} (h : ∀ a b, (f a b).2 = 0) (x y : W32) : (t.map2 f x y).2 = 0 := by
  unfold ElTy.map2
  apply foldl_or_zero
  intro z hz
  obtain ⟨i, hi, rfl⟩ := List.getElem_of_mem hz
  simp [h]

theorem ElTy.map3_zero (t : ElTy) {f : Nat → Nat → Nat → Nat × W32} (h : ∀ a b c, (f a b c).2 = 0) (x y z : W32) : (t.map3 f x y z).2 = 0 := by
  unfold ElTy.map3
  apply foldl_or_zero
  intro z hz
  obtain ⟨i, hi, rfl⟩ := List.getElem_of_mem hz
  simp [h]

end Sys2Proof.Machine
end

