-- ==== Sys2Proof/Laws/Encode.lean ====
section
/-! SUPPORT. Fields of appended bit strings, and a control word taken apart into guard, opcode and operand fields. -/

namespace Sys2Proof

/-- A field that lies in the low part of an append. -/
theorem fld_low {m n : Nat} (x : BitVec m) (y : BitVec n) {s l : Nat} (h : s + l ≤ n) : (x ++ y).extractLsb' s l = y.extractLsb' s l := by
  apply BitVec.eq_of_getLsbD_eq
  intro j hj
  have h1 : s + j < n := by omega
  simp [BitVec.getLsbD_append, BitVec.getLsbD_extractLsb', hj, h1]

/-- A field that lies in the high part of an append. -/
theorem fld_high {m n : Nat} (x : BitVec m) (y : BitVec n) {s l : Nat} (h : n ≤ s) : (x ++ y).extractLsb' s l = x.extractLsb' (s - n) l := by
  apply BitVec.eq_of_getLsbD_eq
  intro j hj
  have h1 : ¬ s + j < n := by omega
  have h2 : s + j - n = s - n + j := by omega
  simp [BitVec.getLsbD_append, BitVec.getLsbD_extractLsb', hj, h1, h2]

/-- A field that is all of a bit string. -/
theorem fld_all {n : Nat} (x : BitVec n) : x.extractLsb' 0 n = x := by
  apply BitVec.eq_of_getLsbD_eq
  intro j hj
  simp [BitVec.getLsbD_extractLsb', hj]

/-- The word of a guard, an opcode and operand fields that decode to an operation decodes to it (R54, R59). -/
theorem decodeWord_word {g : Guard} {op : BitVec 7} {f : BitVec 21} {i : Instr} (h : decodeOp op g f = .ok i) (hg : g.ok = true) :
    decodeWord (word g op f) = .ok i := by
  obtain ⟨x, n⟩ := g
  have h0 : (x ++ n ++ op ++ f).extractLsb' 0 21 = f := by rw [fld_low _ _ (by omega), fld_all]
  have h1 : (x ++ n ++ op ++ f).extractLsb' 21 7 = op := by rw [fld_high _ _ (by omega), fld_low _ _ (by omega), fld_all]
  have h2 : (x ++ n ++ op ++ f).extractLsb' 28 1 = n := by
    rw [fld_high _ _ (by omega), fld_high _ _ (by omega), fld_low _ _ (by omega), fld_all]
  have h3 : (x ++ n ++ op ++ f).extractLsb' 29 3 = x := by
    rw [fld_high _ _ (by omega), fld_high _ _ (by omega), fld_high _ _ (by omega), fld_all]
  unfold decodeWord word
  simp only
  rw [h0, h1, h2, h3, h]
  simp [hg]

end Sys2Proof
end

