-- ==== Sys2Proof/Laws/Exec.lean ====
section
/-! SUPPORT. What exec calls for each constructor, one lemma each, so that no proof unfolds the dispatch. -/

namespace Sys2Proof.Machine

variable (s : State)

@[simp] theorem exec_add {g d a b} : exec (.add g d a b) s = execAdd g d a b s := rfl
@[simp] theorem exec_sub {g d a b} : exec (.sub g d a b) s = execSub g d a b s := rfl
@[simp] theorem exec_and {g d a b} : exec (.and g d a b) s = execAnd g d a b s := rfl
@[simp] theorem exec_or {g d a b} : exec (.or g d a b) s = execOr g d a b s := rfl
@[simp] theorem exec_xor {g d a b} : exec (.xor g d a b) s = execXor g d a b s := rfl
@[simp] theorem exec_andn {g d a b} : exec (.andn g d a b) s = execAndn g d a b s := rfl
@[simp] theorem exec_orn {g d a b} : exec (.orn g d a b) s = execOrn g d a b s := rfl
@[simp] theorem exec_shl {g d a b} : exec (.shl g d a b) s = execShl g d a b s := rfl
@[simp] theorem exec_shr {g d a b} : exec (.shr g d a b) s = execShr g d a b s := rfl
@[simp] theorem exec_sra {g d a b} : exec (.sra g d a b) s = execSra g d a b s := rfl
@[simp] theorem exec_rol {g d a b} : exec (.rol g d a b) s = execRol g d a b s := rfl
@[simp] theorem exec_ror {g d a b} : exec (.ror g d a b) s = execRor g d a b s := rfl
@[simp] theorem exec_mul {g d a b} : exec (.mul g d a b) s = execMul g d a b s := rfl
@[simp] theorem exec_mulh {g d a b} : exec (.mulh g d a b) s = execMulh g d a b s := rfl
@[simp] theorem exec_mulhu {g d a b} : exec (.mulhu g d a b) s = execMulhu g d a b s := rfl
@[simp] theorem exec_div {g d a b} : exec (.div g d a b) s = execDiv g d a b s := rfl
@[simp] theorem exec_divu {g d a b} : exec (.divu g d a b) s = execDivu g d a b s := rfl
@[simp] theorem exec_rem {g d a b} : exec (.rem g d a b) s = execRem g d a b s := rfl
@[simp] theorem exec_remu {g d a b} : exec (.remu g d a b) s = execRemu g d a b s := rfl
@[simp] theorem exec_min {g d a b} : exec (.min g d a b) s = execMin g d a b s := rfl
@[simp] theorem exec_max {g d a b} : exec (.max g d a b) s = execMax g d a b s := rfl
@[simp] theorem exec_minu {g d a b} : exec (.minu g d a b) s = execMinu g d a b s := rfl
@[simp] theorem exec_maxu {g d a b} : exec (.maxu g d a b) s = execMaxu g d a b s := rfl
@[simp] theorem exec_addw {g d a b} : exec (.addw g d a b) s = execAddw g d a b s := rfl
@[simp] theorem exec_subw {g d a b} : exec (.subw g d a b) s = execSubw g d a b s := rfl
@[simp] theorem exec_mulw {g d a b} : exec (.mulw g d a b) s = execMulw g d a b s := rfl
@[simp] theorem exec_clz {g d a} : exec (.clz g d a) s = execClz g d a s := rfl
@[simp] theorem exec_ctz {g d a} : exec (.ctz g d a) s = execCtz g d a s := rfl
@[simp] theorem exec_popc {g d a} : exec (.popc g d a) s = execPopc g d a s := rfl
@[simp] theorem exec_addi {g d a imm} : exec (.addi g d a imm) s = execAddi g d a imm s := rfl
@[simp] theorem exec_andi {g d a imm} : exec (.andi g d a imm) s = execAndi g d a imm s := rfl
@[simp] theorem exec_ori {g d a imm} : exec (.ori g d a imm) s = execOri g d a imm s := rfl
@[simp] theorem exec_xori {g d a imm} : exec (.xori g d a imm) s = execXori g d a imm s := rfl
@[simp] theorem exec_shli {g d a s_} : exec (.shli g d a s_) s = execShli g d a s_ s := rfl
@[simp] theorem exec_shri {g d a s_} : exec (.shri g d a s_) s = execShri g d a s_ s := rfl
@[simp] theorem exec_srai {g d a s_} : exec (.srai g d a s_) s = execSrai g d a s_ s := rfl
@[simp] theorem exec_muli {g d a imm} : exec (.muli g d a imm) s = execMuli g d a imm s := rfl
@[simp] theorem exec_addwi {g d a imm} : exec (.addwi g d a imm) s = execAddwi g d a imm s := rfl
@[simp] theorem exec_movi {g d imm} : exec (.movi g d imm) s = execMovi g d imm s := rfl
@[simp] theorem exec_movz {g d imm} : exec (.movz g d imm) s = execMovz g d imm s := rfl
@[simp] theorem exec_movk16 {g d imm} : exec (.movk16 g d imm) s = execMovk16 g d imm s := rfl
@[simp] theorem exec_movk32 {g d imm} : exec (.movk32 g d imm) s = execMovk32 g d imm s := rfl
@[simp] theorem exec_movk48 {g d imm} : exec (.movk48 g d imm) s = execMovk48 g d imm s := rfl
@[simp] theorem exec_srrd {g d sr} : exec (.srrd g d sr) s = execSrrd g d sr s := rfl
@[simp] theorem exec_srwr {g d sr} : exec (.srwr g d sr) s = execSrwr g d sr s := rfl
@[simp] theorem exec_flgrd {g d} : exec (.flgrd g d) s = execFlgrd g d s := rfl
@[simp] theorem exec_br {g off} : exec (.br g off) s = execBr g off s := rfl
@[simp] theorem exec_call {g off} : exec (.call g off) s = execCall g off s := rfl
@[simp] theorem exec_jalr {g d a imm} : exec (.jalr g d a imm) s = execJalr g d a imm s := rfl
@[simp] theorem exec_beq {g a b off} : exec (.beq g a b off) s = execBeq g a b off s := rfl
@[simp] theorem exec_bne {g a b off} : exec (.bne g a b off) s = execBne g a b off s := rfl
@[simp] theorem exec_blt {g a b off} : exec (.blt g a b off) s = execBlt g a b off s := rfl
@[simp] theorem exec_bge {g a b off} : exec (.bge g a b off) s = execBge g a b off s := rfl
@[simp] theorem exec_bltu {g a b off} : exec (.bltu g a b off) s = execBltu g a b off s := rfl
@[simp] theorem exec_bgeu {g a b off} : exec (.bgeu g a b off) s = execBgeu g a b off s := rfl
@[simp] theorem exec_cmpEq {g d a b} : exec (.cmpEq g d a b) s = execCmpEq g d a b s := rfl
@[simp] theorem exec_cmpNe {g d a b} : exec (.cmpNe g d a b) s = execCmpNe g d a b s := rfl
@[simp] theorem exec_cmpLt {g d a b} : exec (.cmpLt g d a b) s = execCmpLt g d a b s := rfl
@[simp] theorem exec_cmpGe {g d a b} : exec (.cmpGe g d a b) s = execCmpGe g d a b s := rfl
@[simp] theorem exec_cmpLtu {g d a b} : exec (.cmpLtu g d a b) s = execCmpLtu g d a b s := rfl
@[simp] theorem exec_cmpGeu {g d a b} : exec (.cmpGeu g d a b) s = execCmpGeu g d a b s := rfl
@[simp] theorem exec_cmpTst {g d a b} : exec (.cmpTst g d a b) s = execCmpTst g d a b s := rfl
@[simp] theorem exec_cmpiEq {g d a imm} : exec (.cmpiEq g d a imm) s = execCmpiEq g d a imm s := rfl
@[simp] theorem exec_cmpiLt {g d a imm} : exec (.cmpiLt g d a imm) s = execCmpiLt g d a imm s := rfl
@[simp] theorem exec_cmpiLtu {g d a imm} : exec (.cmpiLtu g d a imm) s = execCmpiLtu g d a imm s := rfl
@[simp] theorem exec_pand {g d a b} : exec (.pand g d a b) s = execPand g d a b s := rfl
@[simp] theorem exec_por {g d a b} : exec (.por g d a b) s = execPor g d a b s := rfl
@[simp] theorem exec_pxor {g d a b} : exec (.pxor g d a b) s = execPxor g d a b s := rfl
@[simp] theorem exec_pandn {g d a b} : exec (.pandn g d a b) s = execPandn g d a b s := rfl
@[simp] theorem exec_pnot {g d a} : exec (.pnot g d a) s = execPnot g d a s := rfl
@[simp] theorem exec_pmov {g d a} : exec (.pmov g d a) s = execPmov g d a s := rfl
@[simp] theorem exec_pget {g d} : exec (.pget g d) s = execPget g d s := rfl
@[simp] theorem exec_pput {g a} : exec (.pput g a) s = execPput g a s := rfl
@[simp] theorem exec_ldb {g t a off} : exec (.ldb g t a off) s = execLdb g t a off s := rfl
@[simp] theorem exec_ldbs {g t a off} : exec (.ldbs g t a off) s = execLdbs g t a off s := rfl
@[simp] theorem exec_ldh {g t a off} : exec (.ldh g t a off) s = execLdh g t a off s := rfl
@[simp] theorem exec_ldhs {g t a off} : exec (.ldhs g t a off) s = execLdhs g t a off s := rfl
@[simp] theorem exec_ldw {g t a off} : exec (.ldw g t a off) s = execLdw g t a off s := rfl
@[simp] theorem exec_ldws {g t a off} : exec (.ldws g t a off) s = execLdws g t a off s := rfl
@[simp] theorem exec_ldd {g t a off} : exec (.ldd g t a off) s = execLdd g t a off s := rfl
@[simp] theorem exec_stb {g t a off} : exec (.stb g t a off) s = execStb g t a off s := rfl
@[simp] theorem exec_sth {g t a off} : exec (.sth g t a off) s = execSth g t a off s := rfl
@[simp] theorem exec_stw {g t a off} : exec (.stw g t a off) s = execStw g t a off s := rfl
@[simp] theorem exec_std {g t a off} : exec (.std g t a off) s = execStd g t a off s := rfl
@[simp] theorem exec_amoSwapW {g t a} : exec (.amoSwapW g t a) s = execAmoSwapW g t a s := rfl
@[simp] theorem exec_amoAddW {g t a} : exec (.amoAddW g t a) s = execAmoAddW g t a s := rfl
@[simp] theorem exec_amoAndW {g t a} : exec (.amoAndW g t a) s = execAmoAndW g t a s := rfl
@[simp] theorem exec_amoOrW {g t a} : exec (.amoOrW g t a) s = execAmoOrW g t a s := rfl
@[simp] theorem exec_amoXorW {g t a} : exec (.amoXorW g t a) s = execAmoXorW g t a s := rfl
@[simp] theorem exec_amoMinW {g t a} : exec (.amoMinW g t a) s = execAmoMinW g t a s := rfl
@[simp] theorem exec_amoMaxW {g t a} : exec (.amoMaxW g t a) s = execAmoMaxW g t a s := rfl
@[simp] theorem exec_amoMinuW {g t a} : exec (.amoMinuW g t a) s = execAmoMinuW g t a s := rfl
@[simp] theorem exec_amoMaxuW {g t a} : exec (.amoMaxuW g t a) s = execAmoMaxuW g t a s := rfl
@[simp] theorem exec_amoCasW {g t a} : exec (.amoCasW g t a) s = execAmoCasW g t a s := rfl
@[simp] theorem exec_amoSwapD {g t a} : exec (.amoSwapD g t a) s = execAmoSwapD g t a s := rfl
@[simp] theorem exec_amoAddD {g t a} : exec (.amoAddD g t a) s = execAmoAddD g t a s := rfl
@[simp] theorem exec_amoAndD {g t a} : exec (.amoAndD g t a) s = execAmoAndD g t a s := rfl
@[simp] theorem exec_amoOrD {g t a} : exec (.amoOrD g t a) s = execAmoOrD g t a s := rfl
@[simp] theorem exec_amoXorD {g t a} : exec (.amoXorD g t a) s = execAmoXorD g t a s := rfl
@[simp] theorem exec_amoMinD {g t a} : exec (.amoMinD g t a) s = execAmoMinD g t a s := rfl
@[simp] theorem exec_amoMaxD {g t a} : exec (.amoMaxD g t a) s = execAmoMaxD g t a s := rfl
@[simp] theorem exec_amoMinuD {g t a} : exec (.amoMinuD g t a) s = execAmoMinuD g t a s := rfl
@[simp] theorem exec_amoMaxuD {g t a} : exec (.amoMaxuD g t a) s = execAmoMaxuD g t a s := rfl
@[simp] theorem exec_amoCasD {g t a} : exec (.amoCasD g t a) s = execAmoCasD g t a s := rfl
@[simp] theorem exec_vpass {g d a b} : exec (.vpass g d a b) s = execVpass g d a b s := rfl
@[simp] theorem exec_vpassr {g d a b} : exec (.vpassr g d a b) s = execVpassr g d a b s := rfl
@[simp] theorem exec_wait {g ld st cp tl} : exec (.wait g ld st cp tl) s = execWait g ld st cp tl s := rfl
@[simp] theorem exec_waitAll {g ld st cp tl} : exec (.waitAll g ld st cp tl) s = execWaitAll g ld st cp tl s := rfl
@[simp] theorem exec_nop {g} : exec (.nop g) s = execNop g s := rfl
@[simp] theorem exec_endProg {g} : exec (.endProg g) s = execEndProg g s := rfl
@[simp] theorem exec_tret {g} : exec (.tret g) s = execTret g s := rfl
@[simp] theorem exec_shapeReq {g d f} : exec (.shapeReq g d f) s = execShapeReq g d f s := rfl
@[simp] theorem exec_shapeRel {g} : exec (.shapeRel g) s = execShapeRel g s := rfl
@[simp] theorem exec_cfgLd {g d a imm} : exec (.cfgLd g d a imm) s = execCfgLd g d a imm s := rfl
@[simp] theorem exec_cfgPre {g d a imm} : exec (.cfgPre g d a imm) s = execCfgPre g d a imm s := rfl
@[simp] theorem exec_cfgGo {g d id} : exec (.cfgGo g d id) s = execCfgGo g d id s := rfl
@[simp] theorem exec_cfgWait {g d} : exec (.cfgWait g d) s = execCfgWait g d s := rfl
@[simp] theorem exec_cfgStop {g} : exec (.cfgStop g) s = execCfgStop g s := rfl
@[simp] theorem exec_cfgDrop {g s_} : exec (.cfgDrop g s_) s = execCfgDrop g s_ s := rfl
@[simp] theorem exec_parmWr {g tile a b} : exec (.parmWr g tile a b) s = execParmWr g tile a b s := rfl
@[simp] theorem exec_cfgStat {g d} : exec (.cfgStat g d) s = execCfgStat g d s := rfl
@[simp] theorem exec_sqSend {g a ty} : exec (.sqSend g a ty) s = execSqSend g a ty s := rfl
@[simp] theorem exec_sqSendX2 {g a ty} : exec (.sqSendX2 g a ty) s = execSqSendX2 g a ty s := rfl
@[simp] theorem exec_sqSendEoi {g} : exec (.sqSendEoi g) s = execSqSendEoi g s := rfl
@[simp] theorem exec_sqSendEos {g} : exec (.sqSendEos g) s = execSqSendEos g s := rfl
@[simp] theorem exec_sqRecv {g d} : exec (.sqRecv g d) s = execSqRecv g d s := rfl
@[simp] theorem exec_leaseBar {g id} : exec (.leaseBar g id) s = execLeaseBar g id s := rfl
@[simp] theorem exec_achOpen {g d a b} : exec (.achOpen g d a b) s = execAchOpen g d a b s := rfl
@[simp] theorem exec_achJoin {g d a b} : exec (.achJoin g d a b) s = execAchJoin g d a b s := rfl
@[simp] theorem exec_achWait {g d cid} : exec (.achWait g d cid) s = execAchWait g d cid s := rfl
@[simp] theorem exec_achWaitJ {g d slot} : exec (.achWaitJ g d slot) s = execAchWaitJ g d slot s := rfl
@[simp] theorem exec_achClose {g cid} : exec (.achClose g cid) s = execAchClose g cid s := rfl
@[simp] theorem exec_achCloseJ {g slot} : exec (.achCloseJ g slot) s = execAchCloseJ g slot s := rfl
@[simp] theorem exec_achAbort {g cid} : exec (.achAbort g cid) s = execAchAbort g cid s := rfl
@[simp] theorem exec_achStat {g d cid} : exec (.achStat g d cid) s = execAchStat g d cid s := rfl
@[simp] theorem exec_achStatJ {g d slot} : exec (.achStatJ g d slot) s = execAchStatJ g d slot s := rfl
@[simp] theorem exec_cqSub {g d a b} : exec (.cqSub g d a b) s = execCqSub g d a b s := rfl
@[simp] theorem exec_cqKick {g a b} : exec (.cqKick g a b) s = execCqKick g a b s := rfl
@[simp] theorem exec_cntAdd {g d a b} : exec (.cntAdd g d a b) s = execCntAdd g d a b s := rfl
@[simp] theorem exec_cntWait {g d a b} : exec (.cntWait g d a b) s = execCntWait g d a b s := rfl
@[simp] theorem exec_cntRd {g d a} : exec (.cntRd g d a) s = execCntRd g d a s := rfl
@[simp] theorem exec_taskArm {g d} : exec (.taskArm g d) s = execTaskArm g d s := rfl
@[simp] theorem exec_taskKill {g d} : exec (.taskKill g d) s = execTaskKill g d s := rfl
@[simp] theorem exec_taskStat {g d} : exec (.taskStat g d) s = execTaskStat g d s := rfl
@[simp] theorem exec_bankMode {g d a rsz mode k} : exec (.bankMode g d a rsz mode k) s = execBankMode g d a rsz mode k s := rfl
@[simp] theorem exec_resOpen {g d a b} : exec (.resOpen g d a b) s = execResOpen g d a b s := rfl
@[simp] theorem exec_resPrio {g a b} : exec (.resPrio g a b) s = execResPrio g a b s := rfl
@[simp] theorem exec_resDrop {g a} : exec (.resDrop g a) s = execResDrop g a s := rfl
@[simp] theorem exec_amdSwapW {g d a b} : exec (.amdSwapW g d a b) s = execAmdSwapW g d a b s := rfl
@[simp] theorem exec_amdAddW {g d a b} : exec (.amdAddW g d a b) s = execAmdAddW g d a b s := rfl
@[simp] theorem exec_amdAndW {g d a b} : exec (.amdAndW g d a b) s = execAmdAndW g d a b s := rfl
@[simp] theorem exec_amdOrW {g d a b} : exec (.amdOrW g d a b) s = execAmdOrW g d a b s := rfl
@[simp] theorem exec_amdXorW {g d a b} : exec (.amdXorW g d a b) s = execAmdXorW g d a b s := rfl
@[simp] theorem exec_amdMinW {g d a b} : exec (.amdMinW g d a b) s = execAmdMinW g d a b s := rfl
@[simp] theorem exec_amdMaxW {g d a b} : exec (.amdMaxW g d a b) s = execAmdMaxW g d a b s := rfl
@[simp] theorem exec_amdMinuW {g d a b} : exec (.amdMinuW g d a b) s = execAmdMinuW g d a b s := rfl
@[simp] theorem exec_amdMaxuW {g d a b} : exec (.amdMaxuW g d a b) s = execAmdMaxuW g d a b s := rfl
@[simp] theorem exec_amdCasW {g d a b} : exec (.amdCasW g d a b) s = execAmdCasW g d a b s := rfl
@[simp] theorem exec_amdSwapD {g d a b} : exec (.amdSwapD g d a b) s = execAmdSwapD g d a b s := rfl
@[simp] theorem exec_amdAddD {g d a b} : exec (.amdAddD g d a b) s = execAmdAddD g d a b s := rfl
@[simp] theorem exec_amdAndD {g d a b} : exec (.amdAndD g d a b) s = execAmdAndD g d a b s := rfl
@[simp] theorem exec_amdOrD {g d a b} : exec (.amdOrD g d a b) s = execAmdOrD g d a b s := rfl
@[simp] theorem exec_amdXorD {g d a b} : exec (.amdXorD g d a b) s = execAmdXorD g d a b s := rfl
@[simp] theorem exec_amdMinD {g d a b} : exec (.amdMinD g d a b) s = execAmdMinD g d a b s := rfl
@[simp] theorem exec_amdMaxD {g d a b} : exec (.amdMaxD g d a b) s = execAmdMaxD g d a b s := rfl
@[simp] theorem exec_amdMinuD {g d a b} : exec (.amdMinuD g d a b) s = execAmdMinuD g d a b s := rfl
@[simp] theorem exec_amdMaxuD {g d a b} : exec (.amdMaxuD g d a b) s = execAmdMaxuD g d a b s := rfl
@[simp] theorem exec_amdCasD {g d a b} : exec (.amdCasD g d a b) s = execAmdCasD g d a b s := rfl
@[simp] theorem exec_amdAfadd {g d a b} : exec (.amdAfadd g d a b) s = execAmdAfadd g d a b s := rfl
@[simp] theorem exec_fence {g scope} : exec (.fence g scope) s = execFence g scope s := rfl
@[simp] theorem exec_barArr {g d a} : exec (.barArr g d a) s = execBarArr g d a s := rfl
@[simp] theorem exec_barWait {g d a b} : exec (.barWait g d a b) s = execBarWait g d a b s := rfl
@[simp] theorem exec_ringHead {g d a} : exec (.ringHead g d a) s = execRingHead g d a s := rfl
@[simp] theorem exec_ringTail {g d a} : exec (.ringTail g d a) s = execRingTail g d a s := rfl
@[simp] theorem exec_ringReset {g d a} : exec (.ringReset g d a) s = execRingReset g d a s := rfl
@[simp] theorem exec_tlbInva {g a b} : exec (.tlbInva g a b) s = execTlbInva g a b s := rfl
@[simp] theorem exec_tlbInvs {g a} : exec (.tlbInvs g a) s = execTlbInvs g a s := rfl
@[simp] theorem exec_tlbInvall {g} : exec (.tlbInvall g) s = execTlbInvall g s := rfl
@[simp] theorem exec_handStk {g a b} : exec (.handStk g a b) s = execHandStk g a b s := rfl
@[simp] theorem exec_trap {g code} : exec (.trap g code) s = execTrap g code s := rfl
@[simp] theorem exec_yield {g} : exec (.yield g) s = execYield g s := rfl
@[simp] theorem exec_mgr {g d reg} : exec (.mgr g d reg) s = execMgr g d reg s := rfl
@[simp] theorem exec_mgw {g d reg} : exec (.mgw g d reg) s = execMgw g d reg s := rfl
@[simp] theorem exec_trapEntry {c} : exec (.trapEntry c) s = execTrapEntry c s := rfl
@[simp] theorem exec_waitSatisfied {c} : exec (.waitSatisfied c) s = execWaitSatisfied c s := rfl
@[simp] theorem exec_spadLoadComplete {c i} : exec (.spadLoadComplete c i) s = execSpadLoadComplete c i s := rfl
@[simp] theorem exec_spadStoreComplete {c i} : exec (.spadStoreComplete c i) s = execSpadStoreComplete c i s := rfl
@[simp] theorem exec_amoComplete {c i} : exec (.amoComplete c i) s = execAmoComplete c i s := rfl
@[simp] theorem exec_dividerComplete {core} : exec (.dividerComplete core) s = execDividerComplete core s := rfl
@[simp] theorem exec_passChainStart {core} : exec (.passChainStart core) s = execPassChainStart core s := rfl
@[simp] theorem exec_passChainComplete {core} : exec (.passChainComplete core) s = execPassChainComplete core s := rfl
@[simp] theorem exec_endComplete {c} : exec (.endComplete c) s = execEndComplete c s := rfl
@[simp] theorem exec_packetArrive {c seg br} : exec (.packetArrive c seg br) s = execPacketArrive c seg br s := rfl
@[simp] theorem exec_laneSkipDemand {c seg br} : exec (.laneSkipDemand c seg br) s = execLaneSkipDemand c seg br s := rfl
@[simp] theorem exec_demandSend {c k} : exec (.demandSend c k) s = execDemandSend c k s := rfl
@[simp] theorem exec_demandArrive {c seg br} : exec (.demandArrive c seg br) s = execDemandArrive c seg br s := rfl
@[simp] theorem exec_packerClose {c p} : exec (.packerClose c p) s = execPackerClose c p s := rfl
@[simp] theorem exec_cellMarkerPass {c n} : exec (.cellMarkerPass c n) s = execCellMarkerPass c n s := rfl
@[simp] theorem exec_auxTokenSend {c n} : exec (.auxTokenSend c n) s = execAuxTokenSend c n s := rfl
@[simp] theorem exec_cellAdd {c n} : exec (.cellAdd c n) s = execCellAdd c n s := rfl
@[simp] theorem exec_cellSub {c n} : exec (.cellSub c n) s = execCellSub c n s := rfl
@[simp] theorem exec_cellRsub {c n} : exec (.cellRsub c n) s = execCellRsub c n s := rfl
@[simp] theorem exec_cellMul {c n} : exec (.cellMul c n) s = execCellMul c n s := rfl
@[simp] theorem exec_cellMulh {c n} : exec (.cellMulh c n) s = execCellMulh c n s := rfl
@[simp] theorem exec_cellMad {c n} : exec (.cellMad c n) s = execCellMad c n s := rfl
@[simp] theorem exec_cellAdds {c n} : exec (.cellAdds c n) s = execCellAdds c n s := rfl
@[simp] theorem exec_cellSubs {c n} : exec (.cellSubs c n) s = execCellSubs c n s := rfl
@[simp] theorem exec_cellMin {c n} : exec (.cellMin c n) s = execCellMin c n s := rfl
@[simp] theorem exec_cellMax {c n} : exec (.cellMax c n) s = execCellMax c n s := rfl
@[simp] theorem exec_cellMinu {c n} : exec (.cellMinu c n) s = execCellMinu c n s := rfl
@[simp] theorem exec_cellMaxu {c n} : exec (.cellMaxu c n) s = execCellMaxu c n s := rfl
@[simp] theorem exec_cellAbs {c n} : exec (.cellAbs c n) s = execCellAbs c n s := rfl
@[simp] theorem exec_cellNeg {c n} : exec (.cellNeg c n) s = execCellNeg c n s := rfl
@[simp] theorem exec_cellAnd {c n} : exec (.cellAnd c n) s = execCellAnd c n s := rfl
@[simp] theorem exec_cellOr {c n} : exec (.cellOr c n) s = execCellOr c n s := rfl
@[simp] theorem exec_cellXor {c n} : exec (.cellXor c n) s = execCellXor c n s := rfl
@[simp] theorem exec_cellShl {c n} : exec (.cellShl c n) s = execCellShl c n s := rfl
@[simp] theorem exec_cellShr {c n} : exec (.cellShr c n) s = execCellShr c n s := rfl
@[simp] theorem exec_cellSra {c n} : exec (.cellSra c n) s = execCellSra c n s := rfl
@[simp] theorem exec_cellClz {c n} : exec (.cellClz c n) s = execCellClz c n s := rfl
@[simp] theorem exec_cellPopc {c n} : exec (.cellPopc c n) s = execCellPopc c n s := rfl
@[simp] theorem exec_cellFadd {c n} : exec (.cellFadd c n) s = execCellFadd c n s := rfl
@[simp] theorem exec_cellFsub {c n} : exec (.cellFsub c n) s = execCellFsub c n s := rfl
@[simp] theorem exec_cellFmul {c n} : exec (.cellFmul c n) s = execCellFmul c n s := rfl
@[simp] theorem exec_cellFma {c n} : exec (.cellFma c n) s = execCellFma c n s := rfl
@[simp] theorem exec_cellFms {c n} : exec (.cellFms c n) s = execCellFms c n s := rfl
@[simp] theorem exec_cellFmin {c n} : exec (.cellFmin c n) s = execCellFmin c n s := rfl
@[simp] theorem exec_cellFmax {c n} : exec (.cellFmax c n) s = execCellFmax c n s := rfl
@[simp] theorem exec_cellFabs {c n} : exec (.cellFabs c n) s = execCellFabs c n s := rfl
@[simp] theorem exec_cellFneg {c n} : exec (.cellFneg c n) s = execCellFneg c n s := rfl
@[simp] theorem exec_cellScacc {c n} : exec (.cellScacc c n) s = execCellScacc c n s := rfl
@[simp] theorem exec_cellRcp {c n} : exec (.cellRcp c n) s = execCellRcp c n s := rfl
@[simp] theorem exec_cellRsq {c n} : exec (.cellRsq c n) s = execCellRsq c n s := rfl
@[simp] theorem exec_cellExp2 {c n} : exec (.cellExp2 c n) s = execCellExp2 c n s := rfl
@[simp] theorem exec_cellLog2 {c n} : exec (.cellLog2 c n) s = execCellLog2 c n s := rfl
@[simp] theorem exec_cellCmpEq {c n} : exec (.cellCmpEq c n) s = execCellCmpEq c n s := rfl
@[simp] theorem exec_cellCmpNe {c n} : exec (.cellCmpNe c n) s = execCellCmpNe c n s := rfl
@[simp] theorem exec_cellCmpLt {c n} : exec (.cellCmpLt c n) s = execCellCmpLt c n s := rfl
@[simp] theorem exec_cellCmpLe {c n} : exec (.cellCmpLe c n) s = execCellCmpLe c n s := rfl
@[simp] theorem exec_cellCmpLtu {c n} : exec (.cellCmpLtu c n) s = execCellCmpLtu c n s := rfl
@[simp] theorem exec_cellCmpLeu {c n} : exec (.cellCmpLeu c n) s = execCellCmpLeu c n s := rfl
@[simp] theorem exec_cellFcmpEq {c n} : exec (.cellFcmpEq c n) s = execCellFcmpEq c n s := rfl
@[simp] theorem exec_cellFcmpNe {c n} : exec (.cellFcmpNe c n) s = execCellFcmpNe c n s := rfl
@[simp] theorem exec_cellFcmpLt {c n} : exec (.cellFcmpLt c n) s = execCellFcmpLt c n s := rfl
@[simp] theorem exec_cellFcmpLe {c n} : exec (.cellFcmpLe c n) s = execCellFcmpLe c n s := rfl
@[simp] theorem exec_cellFcmpUn {c n} : exec (.cellFcmpUn c n) s = execCellFcmpUn c n s := rfl
@[simp] theorem exec_cellSel {c n} : exec (.cellSel c n) s = execCellSel c n s := rfl
@[simp] theorem exec_cellPand {c n} : exec (.cellPand c n) s = execCellPand c n s := rfl
@[simp] theorem exec_cellPor {c n} : exec (.cellPor c n) s = execCellPor c n s := rfl
@[simp] theorem exec_cellPxor {c n} : exec (.cellPxor c n) s = execCellPxor c n s := rfl
@[simp] theorem exec_cellPnot {c n} : exec (.cellPnot c n) s = execCellPnot c n s := rfl
@[simp] theorem exec_cellCvt {c n} : exec (.cellCvt c n) s = execCellCvt c n s := rfl
@[simp] theorem exec_cellRadd {c n} : exec (.cellRadd c n) s = execCellRadd c n s := rfl
@[simp] theorem exec_cellRmin {c n} : exec (.cellRmin c n) s = execCellRmin c n s := rfl
@[simp] theorem exec_cellRmax {c n} : exec (.cellRmax c n) s = execCellRmax c n s := rfl
@[simp] theorem exec_cellRfadd {c n} : exec (.cellRfadd c n) s = execCellRfadd c n s := rfl
@[simp] theorem exec_cellRfmin {c n} : exec (.cellRfmin c n) s = execCellRfmin c n s := rfl
@[simp] theorem exec_cellRfmax {c n} : exec (.cellRfmax c n) s = execCellRfmax c n s := rfl
@[simp] theorem exec_cellMov {c n} : exec (.cellMov c n) s = execCellMov c n s := rfl
@[simp] theorem exec_cellMerge {c n} : exec (.cellMerge c n) s = execCellMerge c n s := rfl
@[simp] theorem exec_cellSplit {c n} : exec (.cellSplit c n) s = execCellSplit c n s := rfl
@[simp] theorem exec_cellDup {c n} : exec (.cellDup c n) s = execCellDup c n s := rfl
@[simp] theorem exec_cellGate {c n} : exec (.cellGate c n) s = execCellGate c n s := rfl
@[simp] theorem exec_cellSteer {c n} : exec (.cellSteer c n) s = execCellSteer c n s := rfl
@[simp] theorem exec_cellSink {c n} : exec (.cellSink c n) s = execCellSink c n s := rfl
@[simp] theorem exec_cellConst {c n} : exec (.cellConst c n) s = execCellConst c n s := rfl
@[simp] theorem exec_cellMkins {c n} : exec (.cellMkins c n) s = execCellMkins c n s := rfl
@[simp] theorem exec_cellLd {c n} : exec (.cellLd c n) s = execCellLd c n s := rfl
@[simp] theorem exec_cellSt {c n} : exec (.cellSt c n) s = execCellSt c n s := rfl
@[simp] theorem exec_cellAmoAdd {c n} : exec (.cellAmoAdd c n) s = execCellAmoAdd c n s := rfl
@[simp] theorem exec_cellAmoMin {c n} : exec (.cellAmoMin c n) s = execCellAmoMin c n s := rfl
@[simp] theorem exec_cellAmoMax {c n} : exec (.cellAmoMax c n) s = execCellAmoMax c n s := rfl
@[simp] theorem exec_cellAmoSwap {c n} : exec (.cellAmoSwap c n) s = execCellAmoSwap c n s := rfl
@[simp] theorem exec_cellAmoAfadd {c n} : exec (.cellAmoAfadd c n) s = execCellAmoAfadd c n s := rfl
@[simp] theorem exec_cellOrdj {c n} : exec (.cellOrdj c n) s = execCellOrdj c n s := rfl
@[simp] theorem exec_cellSpawn {c n} : exec (.cellSpawn c n) s = execCellSpawn c n s := rfl
@[simp] theorem exec_spawnReply {c n} : exec (.spawnReply c n) s = execSpawnReply c n s := rfl
@[simp] theorem exec_cellCpy {c n} : exec (.cellCpy c n) s = execCellCpy c n s := rfl
@[simp] theorem exec_cellAcput {c n} : exec (.cellAcput c n) s = execCellAcput c n s := rfl
@[simp] theorem exec_memAccessEffect {c n} : exec (.memAccessEffect c n) s = execMemAccessEffect c n s := rfl
@[simp] theorem exec_agTileStart {c n} : exec (.agTileStart c n) s = execAgTileStart c n s := rfl
@[simp] theorem exec_agReadEmit {c n} : exec (.agReadEmit c n) s = execAgReadEmit c n s := rfl
@[simp] theorem exec_agWriteConsume {c n} : exec (.agWriteConsume c n) s = execAgWriteConsume c n s := rfl
@[simp] theorem exec_agGather {c n} : exec (.agGather c n) s = execAgGather c n s := rfl
@[simp] theorem exec_agTileEnd {c n} : exec (.agTileEnd c n) s = execAgTileEnd c n s := rfl
@[simp] theorem exec_dmReadReturn {c n} : exec (.dmReadReturn c n) s = execDmReadReturn c n s := rfl
@[simp] theorem exec_queuePush {c n} : exec (.queuePush c n) s = execQueuePush c n s := rfl
@[simp] theorem exec_queuePop {c n} : exec (.queuePop c n) s = execQueuePop c n s := rfl
@[simp] theorem exec_spillWrite {c k} : exec (.spillWrite c k) s = execSpillWrite c k s := rfl
@[simp] theorem exec_ringRefill {c k} : exec (.ringRefill c k) s = execRingRefill c k s := rfl
@[simp] theorem exec_loadStart {lid} : exec (.loadStart lid) s = execLoadStart lid s := rfl
@[simp] theorem exec_loadEnd {c} : exec (.loadEnd c) s = execLoadEnd c s := rfl
@[simp] theorem exec_quantumExpire {lid} : exec (.quantumExpire lid) s = execQuantumExpire lid s := rfl
@[simp] theorem exec_loadStop {lid} : exec (.loadStop lid) s = execLoadStop lid s := rfl
@[simp] theorem exec_leaseBreak {lid} : exec (.leaseBreak lid) s = execLeaseBreak lid s := rfl
@[simp] theorem exec_collectiveAbandon {lid} : exec (.collectiveAbandon lid) s = execCollectiveAbandon lid s := rfl
@[simp] theorem exec_leaseBarRelease {lid} : exec (.leaseBarRelease lid) s = execLeaseBarRelease lid s := rfl
@[simp] theorem exec_cfgLdComplete {c} : exec (.cfgLdComplete c) s = execCfgLdComplete c s := rfl
@[simp] theorem exec_cfgPreComplete {c} : exec (.cfgPreComplete c) s = execCfgPreComplete c s := rfl
@[simp] theorem exec_configStoreEcc {c unit} : exec (.configStoreEcc c unit) s = execConfigStoreEcc c unit s := rfl
@[simp] theorem exec_shapeGrant {core} : exec (.shapeGrant core) s = execShapeGrant core s := rfl
@[simp] theorem exec_shapeReleaseDone {c} : exec (.shapeReleaseDone c) s = execShapeReleaseDone c s := rfl
@[simp] theorem exec_mnMm {c} : exec (.mnMm c) s = execMnMm c s := rfl
@[simp] theorem exec_mnMv {c} : exec (.mnMv c) s = execMnMv c s := rfl
@[simp] theorem exec_mnGatherA {c} : exec (.mnGatherA c) s = execMnGatherA c s := rfl
@[simp] theorem exec_mnTload {c} : exec (.mnTload c) s = execMnTload c s := rfl
@[simp] theorem exec_mnZero {c} : exec (.mnZero c) s = execMnZero c s := rfl
@[simp] theorem exec_mnDrain {c} : exec (.mnDrain c) s = execMnDrain c s := rfl
@[simp] theorem exec_mnAcsend {c} : exec (.mnAcsend c) s = execMnAcsend c s := rfl
@[simp] theorem exec_mnCommandStart {c i} : exec (.mnCommandStart c i) s = execMnCommandStart c i s := rfl
@[simp] theorem exec_mnCommandComplete {c i} : exec (.mnCommandComplete c i) s = execMnCommandComplete c i s := rfl
@[simp] theorem exec_mnCtlEos {c} : exec (.mnCtlEos c) s = execMnCtlEos c s := rfl
@[simp] theorem exec_acnBlockSend {c slot} : exec (.acnBlockSend c slot) s = execAcnBlockSend c slot s := rfl
@[simp] theorem exec_acnBlockArrive {i} : exec (.acnBlockArrive i) s = execAcnBlockArrive i s := rfl
@[simp] theorem exec_acnBlockAdd {core cid} : exec (.acnBlockAdd core cid) s = execAcnBlockAdd core cid s := rfl
@[simp] theorem exec_acnCreditReturn {i} : exec (.acnCreditReturn i) s = execAcnCreditReturn i s := rfl
@[simp] theorem exec_acnJoinRequest {i} : exec (.acnJoinRequest i) s = execAcnJoinRequest i s := rfl
@[simp] theorem exec_acnJoinReply {i} : exec (.acnJoinReply i) s = execAcnJoinReply i s := rfl
@[simp] theorem exec_acnFinalise {core cid} : exec (.acnFinalise core cid) s = execAcnFinalise core cid s := rfl
@[simp] theorem exec_chainComplete {core cid} : exec (.chainComplete core cid) s = execChainComplete core cid s := rfl
@[simp] theorem exec_acnDoneEos {c} : exec (.acnDoneEos c) s = execAcnDoneEos c s := rfl
@[simp] theorem exec_acnAbortNotice {i} : exec (.acnAbortNotice i) s = execAcnAbortNotice i s := rfl
@[simp] theorem exec_acnRefusal {i} : exec (.acnRefusal i) s = execAcnRefusal i s := rfl
@[simp] theorem exec_bankZeroDone {core bank} : exec (.bankZeroDone core bank) s = execBankZeroDone core bank s := rfl
@[simp] theorem exec_l2WayConvert {die slice} : exec (.l2WayConvert die slice) s = execL2WayConvert die slice s := rfl
@[simp] theorem exec_homeSliceRead {i} : exec (.homeSliceRead i) s = execHomeSliceRead i s := rfl
@[simp] theorem exec_homeSliceWrite {i} : exec (.homeSliceWrite i) s = execHomeSliceWrite i s := rfl
@[simp] theorem exec_l2Fill {die pa handle} : exec (.l2Fill die pa handle) s = execL2Fill die pa handle s := rfl
@[simp] theorem exec_channelRequest {i} : exec (.channelRequest i) s = execChannelRequest i s := rfl
@[simp] theorem exec_cacheLayerFill {die pa handle} : exec (.cacheLayerFill die pa handle) s = execCacheLayerFill die pa handle s := rfl
@[simp] theorem exec_meshArbitration {core port} : exec (.meshArbitration core port) s = execMeshArbitration core port s := rfl
@[simp] theorem exec_flitCrcRetry {core side acn good} : exec (.flitCrcRetry core side acn good) s = execFlitCrcRetry core side acn good s := rfl
@[simp] theorem exec_pageWalk {die asid va} : exec (.pageWalk die asid va) s = execPageWalk die asid va s := rfl
@[simp] theorem exec_replayRetry {die i} : exec (.replayRetry die i) s = execReplayRetry die i s := rfl
@[simp] theorem exec_replayRelease {die asid va} : exec (.replayRelease die asid va) s = execReplayRelease die asid va s := rfl
@[simp] theorem exec_counterReread {c} : exec (.counterReread c) s = execCounterReread c s := rfl
@[simp] theorem exec_barrierReleaseMsg {c} : exec (.barrierReleaseMsg c) s = execBarrierReleaseMsg c s := rfl
@[simp] theorem exec_cePacketIntake {core} : exec (.cePacketIntake core) s = execCePacketIntake core s := rfl
@[simp] theorem exec_cePacketStart {core i} : exec (.cePacketStart core i) s = execCePacketStart core i s := rfl
@[simp] theorem exec_ceCopy {core i} : exec (.ceCopy core i) s = execCeCopy core i s := rfl
@[simp] theorem exec_ceCopy2d {core i} : exec (.ceCopy2d core i) s = execCeCopy2d core i s := rfl
@[simp] theorem exec_ceCopy4d {core i} : exec (.ceCopy4d core i) s = execCeCopy4d core i s := rfl
@[simp] theorem exec_ceFill {core i} : exec (.ceFill core i) s = execCeFill core i s := rfl
@[simp] theorem exec_ceGather {core i} : exec (.ceGather core i) s = execCeGather core i s := rfl
@[simp] theorem exec_ceScatter {core i} : exec (.ceScatter core i) s = execCeScatter core i s := rfl
@[simp] theorem exec_ceMcast {core i} : exec (.ceMcast core i) s = execCeMcast core i s := rfl
@[simp] theorem exec_ceCadd {core i} : exec (.ceCadd core i) s = execCeCadd core i s := rfl
@[simp] theorem exec_ceTaskarm {core i} : exec (.ceTaskarm core i) s = execCeTaskarm core i s := rfl
@[simp] theorem exec_ceLaunch {core i} : exec (.ceLaunch core i) s = execCeLaunch core i s := rfl
@[simp] theorem exec_ceSignal {core i} : exec (.ceSignal core i) s = execCeSignal core i s := rfl
@[simp] theorem exec_cePull {core i} : exec (.cePull core i) s = execCePull core i s := rfl
@[simp] theorem exec_cePacketComplete {core i} : exec (.cePacketComplete core i) s = execCePacketComplete core i s := rfl
@[simp] theorem exec_ceDoneEos {c} : exec (.ceDoneEos c) s = execCeDoneEos c s := rfl
@[simp] theorem exec_kickNoticeArrive {i} : exec (.kickNoticeArrive i) s = execKickNoticeArrive i s := rfl
@[simp] theorem exec_kickNoticeResend {i} : exec (.kickNoticeResend i) s = execKickNoticeResend i s := rfl
@[simp] theorem exec_pullAck {i} : exec (.pullAck i) s = execPullAck i s := rfl
@[simp] theorem exec_queueSlotTake {q} : exec (.queueSlotTake q) s = execQueueSlotTake q s := rfl
@[simp] theorem exec_queueError {q} : exec (.queueError q) s = execQueueError q s := rfl
@[simp] theorem exec_queueRestart {q} : exec (.queueRestart q) s = execQueueRestart q s := rfl
@[simp] theorem exec_taskCompletionReport {i} : exec (.taskCompletionReport i) s = execTaskCompletionReport i s := rfl
@[simp] theorem exec_taskFaultReport {i} : exec (.taskFaultReport i) s = execTaskFaultReport i s := rfl
@[simp] theorem exec_taskPush {i} : exec (.taskPush i) s = execTaskPush i s := rfl
@[simp] theorem exec_distributorSelect : exec (.distributorSelect) s = execDistributorSelect s := rfl
@[simp] theorem exec_launchDependenceMet {q} : exec (.launchDependenceMet q) s = execLaunchDependenceMet q s := rfl
@[simp] theorem exec_ostlerPlacement : exec (.ostlerPlacement) s = execOstlerPlacement s := rfl
@[simp] theorem exec_spawnPlace : exec (.spawnPlace) s = execSpawnPlace s := rfl
@[simp] theorem exec_contextRelease {c} : exec (.contextRelease c) s = execContextRelease c s := rfl
@[simp] theorem exec_launchComplete {lid} : exec (.launchComplete lid) s = execLaunchComplete lid s := rfl
@[simp] theorem exec_launchFault {lid} : exec (.launchFault lid) s = execLaunchFault lid s := rfl
@[simp] theorem exec_schedulerTurnEnd {lid} : exec (.schedulerTurnEnd lid) s = execSchedulerTurnEnd lid s := rfl
@[simp] theorem exec_compaction : exec (.compaction) s = execCompaction s := rfl
@[simp] theorem exec_relocation {lid} : exec (.relocation lid) s = execRelocation lid s := rfl
@[simp] theorem exec_relocationPairCopy {lid k} : exec (.relocationPairCopy lid k) s = execRelocationPairCopy lid k s := rfl
@[simp] theorem exec_relocationAbandon {lid} : exec (.relocationAbandon lid) s = execRelocationAbandon lid s := rfl
@[simp] theorem exec_contextGated {c} : exec (.contextGated c) s = execContextGated c s := rfl
@[simp] theorem exec_ctxcGate {c} : exec (.ctxcGate c) s = execCtxcGate c s := rfl
@[simp] theorem exec_ctxcUngate {c} : exec (.ctxcUngate c) s = execCtxcUngate c s := rfl
@[simp] theorem exec_ctxcDestroy {c} : exec (.ctxcDestroy c) s = execCtxcDestroy c s := rfl
@[simp] theorem exec_ctxcRelease {c} : exec (.ctxcRelease c) s = execCtxcRelease c s := rfl
@[simp] theorem exec_ostevEvict {lid} : exec (.ostevEvict lid) s = execOstevEvict lid s := rfl
@[simp] theorem exec_ostevRestore {lid} : exec (.ostevRestore lid) s = execOstevRestore lid s := rfl
@[simp] theorem exec_ostcmdGo : exec (.ostcmdGo) s = execOstcmdGo s := rfl
@[simp] theorem exec_trstGo {t} : exec (.trstGo t) s = execTrstGo t s := rfl
@[simp] theorem exec_ttabWrite {stack h v} : exec (.ttabWrite stack h v) s = execTtabWrite stack h v s := rfl
@[simp] theorem exec_tlogWrite {stack} : exec (.tlogWrite stack) s = execTlogWrite stack s := rfl
@[simp] theorem exec_fwlogWrite : exec (.fwlogWrite) s = execFwlogWrite s := rfl
@[simp] theorem exec_evlostWrite : exec (.evlostWrite) s = execEvlostWrite s := rfl
@[simp] theorem exec_wdrWrite {y v} : exec (.wdrWrite y v) s = execWdrWrite y v s := rfl
@[simp] theorem exec_l2remwWrite {die v} : exec (.l2remwWrite die v) s = execL2remwWrite die v s := rfl
@[simp] theorem exec_asidoWrite {a v} : exec (.asidoWrite a v) s = execAsidoWrite a v s := rfl
@[simp] theorem exec_lqcfgWrite {q v} : exec (.lqcfgWrite q v) s = execLqcfgWrite q v s := rfl
@[simp] theorem exec_ceqWrite {core n v} : exec (.ceqWrite core n v) s = execCeqWrite core n v s := rfl
@[simp] theorem exec_mlogtWrite {t v} : exec (.mlogtWrite t v) s = execMlogtWrite t v s := rfl
@[simp] theorem exec_registerWrite {n v} : exec (.registerWrite n v) s = execRegisterWrite n v s := rfl
@[simp] theorem exec_powerInterval {core hbm peak} : exec (.powerInterval core hbm peak) s = execPowerInterval core hbm peak s := rfl
@[simp] theorem exec_clkLower {mhz} : exec (.clkLower mhz) s = execClkLower mhz s := rfl
@[simp] theorem exec_clkRestore : exec (.clkRestore) s = execClkRestore s := rfl
@[simp] theorem exec_queueParityError {c buf lasting} : exec (.queueParityError c buf lasting) s = execQueueParityError c buf lasting s := rfl
@[simp] theorem exec_eccDoubleRetry {w clean lasting} : exec (.eccDoubleRetry w clean lasting) s = execEccDoubleRetry w clean lasting s := rfl
@[simp] theorem exec_stackHandOver {stack} : exec (.stackHandOver stack) s = execStackHandOver stack s := rfl
@[simp] theorem exec_ucieModuleFail {seam} : exec (.ucieModuleFail seam) s = execUcieModuleFail seam s := rfl
@[simp] theorem exec_jexlinkTrain {port} : exec (.jexlinkTrain port) s = execJexlinkTrain port s := rfl
@[simp] theorem exec_jexlinkKeyRenew {port} : exec (.jexlinkKeyRenew port) s = execJexlinkKeyRenew port s := rfl
@[simp] theorem exec_jexlinkLinkFail {port} : exec (.jexlinkLinkFail port) s = execJexlinkLinkFail port s := rfl
@[simp] theorem exec_jexlinkRequest {q} : exec (.jexlinkRequest q) s = execJexlinkRequest q s := rfl
@[simp] theorem exec_remoteStoreAck {i} : exec (.remoteStoreAck i) s = execRemoteStoreAck i s := rfl
@[simp] theorem exec_remoteStoreLost {i} : exec (.remoteStoreLost i) s = execRemoteStoreLost i s := rfl
@[simp] theorem exec_remoteReadTimeout {core i} : exec (.remoteReadTimeout core i) s = execRemoteReadTimeout core i s := rfl
@[simp] theorem exec_apertureRead {f off len tbit} : exec (.apertureRead f off len tbit) s = execApertureRead f off len tbit s := rfl
@[simp] theorem exec_apertureWrite {f off bytes tbit} : exec (.apertureWrite f off bytes tbit) s = execApertureWrite f off bytes tbit s := rfl
@[simp] theorem exec_apertureFetchadd {f off v tbit} : exec (.apertureFetchadd f off v tbit) s = execApertureFetchadd f off v tbit s := rfl
@[simp] theorem exec_apertureSwap {f off v tbit} : exec (.apertureSwap f off v tbit) s = execApertureSwap f off v tbit s := rfl
@[simp] theorem exec_apertureCas {f off expect v tbit} : exec (.apertureCas f off expect v tbit) s = execApertureCas f off expect v tbit s := rfl
@[simp] theorem exec_bar0RegisterAccess {f off wr tbit} : exec (.bar0RegisterAccess f off wr tbit) s = execBar0RegisterAccess f off wr tbit s := rfl
@[simp] theorem exec_msixInterrupt {f vec} : exec (.msixInterrupt f vec) s = execMsixInterrupt f vec s := rfl
@[simp] theorem exec_vfEnableClear : exec (.vfEnableClear) s = execVfEnableClear s := rfl
@[simp] theorem exec_spdmRequest {q data} : exec (.spdmRequest q data) s = execSpdmRequest q data s := rfl
@[simp] theorem exec_lockInterfaceRequest {t stream} : exec (.lockInterfaceRequest t stream) s = execLockInterfaceRequest t stream s := rfl
@[simp] theorem exec_startInterfaceRequest {t} : exec (.startInterfaceRequest t) s = execStartInterfaceRequest t s := rfl
@[simp] theorem exec_stopInterfaceRequest {t} : exec (.stopInterfaceRequest t) s = execStopInterfaceRequest t s := rfl
@[simp] theorem exec_getDeviceInterfaceReport {t} : exec (.getDeviceInterfaceReport t) s = execGetDeviceInterfaceReport t s := rfl
@[simp] theorem exec_tdispError {t cause whereAt} : exec (.tdispError t cause whereAt) s = execTdispError t cause whereAt s := rfl
@[simp] theorem exec_functionLevelReset {f} : exec (.functionLevelReset f) s = execFunctionLevelReset f s := rfl
@[simp] theorem exec_ideStreamFault {stream} : exec (.ideStreamFault stream) s = execIdeStreamFault stream s := rfl
@[simp] theorem exec_thermalEvent {die temp} : exec (.thermalEvent die temp) s = execThermalEvent die temp s := rfl
@[simp] theorem exec_thermalTrip {die temp} : exec (.thermalTrip die temp) s = execThermalTrip die temp s := rfl
@[simp] theorem exec_deviceReset : exec (.deviceReset) s = execDeviceReset s := rfl
@[simp] theorem exec_bootStageComplete {imgs trained} : exec (.bootStageComplete imgs trained) s = execBootStageComplete imgs trained s := rfl
@[simp] theorem exec_deviceResponse {i} : exec (.deviceResponse i) s = execDeviceResponse i s := rfl
@[simp] theorem exec_launchImagePlaced {lid} : exec (.launchImagePlaced lid) s = execLaunchImagePlaced lid s := rfl
@[simp] theorem exec_vfEnableSet {t} : exec (.vfEnableSet t) s = execVfEnableSet t s := rfl
@[simp] theorem exec_configSpaceWrite {t off v} : exec (.configSpaceWrite t off v) s = execConfigSpaceWrite t off v s := rfl
@[simp] theorem exec_msixVectorUnmask {f vec} : exec (.msixVectorUnmask f vec) s = execMsixVectorUnmask f vec s := rfl
@[simp] theorem exec_powerLoss : exec (.powerLoss) s = execPowerLoss s := rfl
@[simp] theorem exec_thermalRearm {die temp} : exec (.thermalRearm die temp) s = execThermalRearm die temp s := rfl

end Sys2Proof.Machine
end

