-- ==== Sys2Proof/Laws/PerInstr.lean ====
section
/-! SUPPORT. For every operation, decoding gives back what was encoded (R54 to R64). -/

namespace Sys2Proof

/-! ### The opcode map, one lemma for each opcode and each function (R61 to R63) -/

theorem decodeOp_00 (g : Guard) (f : BitVec 21) : decodeOp 0x00#7 g f = decodeFn00 g f := rfl
theorem decodeOp_01 (g : Guard) (f : BitVec 21) : decodeOp 0x01#7 g f = .ok (.addi g (fld f 16 5) (fld f 11 5) (fld f 0 11)) := rfl
theorem decodeOp_02 (g : Guard) (f : BitVec 21) : decodeOp 0x02#7 g f = .ok (.andi g (fld f 16 5) (fld f 11 5) (fld f 0 11)) := rfl
theorem decodeOp_03 (g : Guard) (f : BitVec 21) : decodeOp 0x03#7 g f = .ok (.ori g (fld f 16 5) (fld f 11 5) (fld f 0 11)) := rfl
theorem decodeOp_04 (g : Guard) (f : BitVec 21) : decodeOp 0x04#7 g f = .ok (.xori g (fld f 16 5) (fld f 11 5) (fld f 0 11)) := rfl
theorem decodeOp_05 (g : Guard) (f : BitVec 21) : decodeOp 0x05#7 g f = checked (fld f 6 5 == 0#5) (.shli g (fld f 16 5) (fld f 11 5) (fld f 0 6)) := rfl
theorem decodeOp_06 (g : Guard) (f : BitVec 21) : decodeOp 0x06#7 g f = checked (fld f 6 5 == 0#5) (.shri g (fld f 16 5) (fld f 11 5) (fld f 0 6)) := rfl
theorem decodeOp_07 (g : Guard) (f : BitVec 21) : decodeOp 0x07#7 g f = checked (fld f 6 5 == 0#5) (.srai g (fld f 16 5) (fld f 11 5) (fld f 0 6)) := rfl
theorem decodeOp_08 (g : Guard) (f : BitVec 21) : decodeOp 0x08#7 g f = .ok (.muli g (fld f 16 5) (fld f 11 5) (fld f 0 11)) := rfl
theorem decodeOp_09 (g : Guard) (f : BitVec 21) : decodeOp 0x09#7 g f = .ok (.addwi g (fld f 16 5) (fld f 11 5) (fld f 0 11)) := rfl
theorem decodeOp_0A (g : Guard) (f : BitVec 21) : decodeOp 0x0A#7 g f = .ok (.movi g (fld f 16 5) (fld f 0 16)) := rfl
theorem decodeOp_0B (g : Guard) (f : BitVec 21) : decodeOp 0x0B#7 g f = .ok (.movz g (fld f 16 5) (fld f 0 16)) := rfl
theorem decodeOp_0C (g : Guard) (f : BitVec 21) : decodeOp 0x0C#7 g f = .ok (.movk16 g (fld f 16 5) (fld f 0 16)) := rfl
theorem decodeOp_0D (g : Guard) (f : BitVec 21) : decodeOp 0x0D#7 g f = .ok (.movk32 g (fld f 16 5) (fld f 0 16)) := rfl
theorem decodeOp_0E (g : Guard) (f : BitVec 21) : decodeOp 0x0E#7 g f = .ok (.movk48 g (fld f 16 5) (fld f 0 16)) := rfl
theorem decodeOp_0F (g : Guard) (f : BitVec 21) : decodeOp 0x0F#7 g f = checked (fld f 4 12 == 0#12) (.srrd g (fld f 16 5) (fld f 0 4)) := rfl
theorem decodeOp_10 (g : Guard) (f : BitVec 21) : decodeOp 0x10#7 g f = checked (fld f 4 12 == 0#12) (.srwr g (fld f 16 5) (fld f 0 4)) := rfl
theorem decodeOp_11 (g : Guard) (f : BitVec 21) : decodeOp 0x11#7 g f = checked (fld f 0 16 == 0#16) (.flgrd g (fld f 16 5)) := rfl
theorem decodeOp_20 (g : Guard) (f : BitVec 21) : decodeOp 0x20#7 g f = .ok (.br g (fld f 0 21)) := rfl
theorem decodeOp_21 (g : Guard) (f : BitVec 21) : decodeOp 0x21#7 g f = .ok (.call g (fld f 0 21)) := rfl
theorem decodeOp_22 (g : Guard) (f : BitVec 21) : decodeOp 0x22#7 g f = .ok (.jalr g (fld f 16 5) (fld f 11 5) (fld f 0 11)) := rfl
theorem decodeOp_23 (g : Guard) (f : BitVec 21) : decodeOp 0x23#7 g f = .ok (.beq g (fld f 16 5) (fld f 11 5) (fld f 0 11)) := rfl
theorem decodeOp_24 (g : Guard) (f : BitVec 21) : decodeOp 0x24#7 g f = .ok (.bne g (fld f 16 5) (fld f 11 5) (fld f 0 11)) := rfl
theorem decodeOp_25 (g : Guard) (f : BitVec 21) : decodeOp 0x25#7 g f = .ok (.blt g (fld f 16 5) (fld f 11 5) (fld f 0 11)) := rfl
theorem decodeOp_26 (g : Guard) (f : BitVec 21) : decodeOp 0x26#7 g f = .ok (.bge g (fld f 16 5) (fld f 11 5) (fld f 0 11)) := rfl
theorem decodeOp_27 (g : Guard) (f : BitVec 21) : decodeOp 0x27#7 g f = .ok (.bltu g (fld f 16 5) (fld f 11 5) (fld f 0 11)) := rfl
theorem decodeOp_28 (g : Guard) (f : BitVec 21) : decodeOp 0x28#7 g f = .ok (.bgeu g (fld f 16 5) (fld f 11 5) (fld f 0 11)) := rfl
theorem decodeOp_29 (g : Guard) (f : BitVec 21) : decodeOp 0x29#7 g f = decodeFn29 g f := rfl
theorem decodeOp_2A (g : Guard) (f : BitVec 21) : decodeOp 0x2A#7 g f = checked (fld f 19 2 == 0#2) (.cmpiEq g (fld f 16 3) (fld f 11 5) (fld f 0 11)) := rfl
theorem decodeOp_2B (g : Guard) (f : BitVec 21) : decodeOp 0x2B#7 g f = checked (fld f 19 2 == 0#2) (.cmpiLt g (fld f 16 3) (fld f 11 5) (fld f 0 11)) := rfl
theorem decodeOp_2C (g : Guard) (f : BitVec 21) : decodeOp 0x2C#7 g f = checked (fld f 19 2 == 0#2) (.cmpiLtu g (fld f 16 3) (fld f 11 5) (fld f 0 11)) := rfl
theorem decodeOp_2D (g : Guard) (f : BitVec 21) : decodeOp 0x2D#7 g f = decodeFn2D g f := rfl
theorem decodeOp_2E (g : Guard) (f : BitVec 21) : decodeOp 0x2E#7 g f = (if fld f 0 6 = 0#6 then checked (fld f 6 10 == 0#10) (.pget g (fld f 16 5)) else .error .badFunction) := rfl
theorem decodeOp_2F (g : Guard) (f : BitVec 21) : decodeOp 0x2F#7 g f = (if fld f 0 6 = 0#6 then checked (fld f 16 5 == 0#5 && fld f 6 5 == 0#5) (.pput g (fld f 11 5)) else .error .badFunction) := rfl
theorem decodeOp_30 (g : Guard) (f : BitVec 21) : decodeOp 0x30#7 g f = .ok (.ldb g (fld f 16 5) (fld f 11 5) (fld f 0 11)) := rfl
theorem decodeOp_31 (g : Guard) (f : BitVec 21) : decodeOp 0x31#7 g f = .ok (.ldbs g (fld f 16 5) (fld f 11 5) (fld f 0 11)) := rfl
theorem decodeOp_32 (g : Guard) (f : BitVec 21) : decodeOp 0x32#7 g f = .ok (.ldh g (fld f 16 5) (fld f 11 5) (fld f 0 11)) := rfl
theorem decodeOp_33 (g : Guard) (f : BitVec 21) : decodeOp 0x33#7 g f = .ok (.ldhs g (fld f 16 5) (fld f 11 5) (fld f 0 11)) := rfl
theorem decodeOp_34 (g : Guard) (f : BitVec 21) : decodeOp 0x34#7 g f = .ok (.ldw g (fld f 16 5) (fld f 11 5) (fld f 0 11)) := rfl
theorem decodeOp_35 (g : Guard) (f : BitVec 21) : decodeOp 0x35#7 g f = .ok (.ldws g (fld f 16 5) (fld f 11 5) (fld f 0 11)) := rfl
theorem decodeOp_36 (g : Guard) (f : BitVec 21) : decodeOp 0x36#7 g f = .ok (.ldd g (fld f 16 5) (fld f 11 5) (fld f 0 11)) := rfl
theorem decodeOp_37 (g : Guard) (f : BitVec 21) : decodeOp 0x37#7 g f = .ok (.stb g (fld f 16 5) (fld f 11 5) (fld f 0 11)) := rfl
theorem decodeOp_38 (g : Guard) (f : BitVec 21) : decodeOp 0x38#7 g f = .ok (.sth g (fld f 16 5) (fld f 11 5) (fld f 0 11)) := rfl
theorem decodeOp_39 (g : Guard) (f : BitVec 21) : decodeOp 0x39#7 g f = .ok (.stw g (fld f 16 5) (fld f 11 5) (fld f 0 11)) := rfl
theorem decodeOp_3A (g : Guard) (f : BitVec 21) : decodeOp 0x3A#7 g f = .ok (.std g (fld f 16 5) (fld f 11 5) (fld f 0 11)) := rfl
theorem decodeOp_3B (g : Guard) (f : BitVec 21) : decodeOp 0x3B#7 g f = decodeFn3B g f := rfl
theorem decodeOp_40 (g : Guard) (f : BitVec 21) : decodeOp 0x40#7 g f = (if fld f 0 6 = 0#6 then .ok (.vpass g (fld f 16 5) (fld f 11 5) (fld f 6 5)) else .error .badFunction) := rfl
theorem decodeOp_41 (g : Guard) (f : BitVec 21) : decodeOp 0x41#7 g f = (if fld f 0 6 = 0#6 then .ok (.vpassr g (fld f 16 5) (fld f 11 5) (fld f 6 5)) else .error .badFunction) := rfl
theorem decodeOp_42 (g : Guard) (f : BitVec 21) : decodeOp 0x42#7 g f = checked (fld f 1 15 == 0#15) (.shapeReq g (fld f 16 5) (fld f 0 1)) := rfl
theorem decodeOp_43 (g : Guard) (f : BitVec 21) : decodeOp 0x43#7 g f = checked (fld f 0 21 == 0#21) (.shapeRel g) := rfl
theorem decodeOp_48 (g : Guard) (f : BitVec 21) : decodeOp 0x48#7 g f = .ok (.cfgLd g (fld f 16 5) (fld f 11 5) (fld f 0 11)) := rfl
theorem decodeOp_49 (g : Guard) (f : BitVec 21) : decodeOp 0x49#7 g f = .ok (.cfgPre g (fld f 16 5) (fld f 11 5) (fld f 0 11)) := rfl
theorem decodeOp_4A (g : Guard) (f : BitVec 21) : decodeOp 0x4A#7 g f = .ok (.cfgGo g (fld f 16 5) (fld f 0 16)) := rfl
theorem decodeOp_4B (g : Guard) (f : BitVec 21) : decodeOp 0x4B#7 g f = checked (fld f 0 16 == 0#16) (.cfgWait g (fld f 16 5)) := rfl
theorem decodeOp_4C (g : Guard) (f : BitVec 21) : decodeOp 0x4C#7 g f = checked (fld f 0 21 == 0#21) (.cfgStop g) := rfl
theorem decodeOp_4D (g : Guard) (f : BitVec 21) : decodeOp 0x4D#7 g f = checked (fld f 1 20 == 0#20) (.cfgDrop g (fld f 0 1)) := rfl
theorem decodeOp_4E (g : Guard) (f : BitVec 21) : decodeOp 0x4E#7 g f = (if fld f 0 6 = 0#6 then checked (fld f 20 1 == 0#1) (.parmWr g (fld f 16 4) (fld f 11 5) (fld f 6 5)) else .error .badFunction) := rfl
theorem decodeOp_4F (g : Guard) (f : BitVec 21) : decodeOp 0x4F#7 g f = checked (fld f 0 16 == 0#16) (.cfgStat g (fld f 16 5)) := rfl
theorem decodeOp_50 (g : Guard) (f : BitVec 21) : decodeOp 0x50#7 g f = (if fld f 0 6 = 0#6 then (if fld f 16 5 = 0#5 then checked (fld f 16 5 == 0#5 && fld f 9 2 == 0#2) (.sqSend g (fld f 11 5) (fld f 6 3)) else if fld f 16 5 = 1#5 then checked (fld f 16 5 == 1#5 && fld f 9 2 == 0#2) (.sqSendX2 g (fld f 11 5) (fld f 6 3)) else if fld f 16 5 = 2#5 then checked (fld f 6 15 == 2048#15) (.sqSendEoi g) else if fld f 16 5 = 3#5 then checked (fld f 6 15 == 3072#15) (.sqSendEos g) else .error .reservedField) else .error .badFunction) := rfl
theorem decodeOp_51 (g : Guard) (f : BitVec 21) : decodeOp 0x51#7 g f = (if fld f 0 6 = 0#6 then checked (fld f 6 10 == 0#10) (.sqRecv g (fld f 16 5)) else .error .badFunction) := rfl
theorem decodeOp_52 (g : Guard) (f : BitVec 21) : decodeOp 0x52#7 g f = checked (fld f 16 5 == 0#5) (.leaseBar g (fld f 0 16)) := rfl
theorem decodeOp_58 (g : Guard) (f : BitVec 21) : decodeOp 0x58#7 g f = (if fld f 0 6 = 0#6 then .ok (.achOpen g (fld f 16 5) (fld f 11 5) (fld f 6 5)) else .error .badFunction) := rfl
theorem decodeOp_59 (g : Guard) (f : BitVec 21) : decodeOp 0x59#7 g f = (if fld f 0 6 = 0#6 then .ok (.achJoin g (fld f 16 5) (fld f 11 5) (fld f 6 5)) else .error .badFunction) := rfl
theorem decodeOp_5A (g : Guard) (f : BitVec 21) : decodeOp 0x5A#7 g f = (if fld f 4 1 = 1#1 then checked (fld f 4 12 == 1#12) (.achWaitJ g (fld f 16 5) (fld f 0 4)) else checked (fld f 4 12 == 0#12) (.achWait g (fld f 16 5) (fld f 0 4))) := rfl
theorem decodeOp_5B (g : Guard) (f : BitVec 21) : decodeOp 0x5B#7 g f = (if fld f 4 1 = 1#1 then checked (fld f 4 17 == 1#17) (.achCloseJ g (fld f 0 4)) else checked (fld f 4 17 == 0#17) (.achClose g (fld f 0 4))) := rfl
theorem decodeOp_5C (g : Guard) (f : BitVec 21) : decodeOp 0x5C#7 g f = checked (fld f 4 17 == 0#17) (.achAbort g (fld f 0 4)) := rfl
theorem decodeOp_5D (g : Guard) (f : BitVec 21) : decodeOp 0x5D#7 g f = (if fld f 4 1 = 1#1 then checked (fld f 4 12 == 1#12) (.achStatJ g (fld f 16 5) (fld f 0 4)) else checked (fld f 4 12 == 0#12) (.achStat g (fld f 16 5) (fld f 0 4))) := rfl
theorem decodeOp_60 (g : Guard) (f : BitVec 21) : decodeOp 0x60#7 g f = (if fld f 0 6 = 0#6 then .ok (.cqSub g (fld f 16 5) (fld f 11 5) (fld f 6 5)) else .error .badFunction) := rfl
theorem decodeOp_61 (g : Guard) (f : BitVec 21) : decodeOp 0x61#7 g f = (if fld f 0 6 = 0#6 then checked (fld f 16 5 == 0#5) (.cqKick g (fld f 11 5) (fld f 6 5)) else .error .badFunction) := rfl
theorem decodeOp_62 (g : Guard) (f : BitVec 21) : decodeOp 0x62#7 g f = (if fld f 0 6 = 0#6 then .ok (.cntAdd g (fld f 16 5) (fld f 11 5) (fld f 6 5)) else .error .badFunction) := rfl
theorem decodeOp_63 (g : Guard) (f : BitVec 21) : decodeOp 0x63#7 g f = (if fld f 0 6 = 0#6 then .ok (.cntWait g (fld f 16 5) (fld f 11 5) (fld f 6 5)) else .error .badFunction) := rfl
theorem decodeOp_64 (g : Guard) (f : BitVec 21) : decodeOp 0x64#7 g f = (if fld f 0 6 = 0#6 then checked (fld f 6 5 == 0#5) (.cntRd g (fld f 16 5) (fld f 11 5)) else .error .badFunction) := rfl
theorem decodeOp_65 (g : Guard) (f : BitVec 21) : decodeOp 0x65#7 g f = checked (fld f 0 16 == 0#16) (.taskArm g (fld f 16 5)) := rfl
theorem decodeOp_66 (g : Guard) (f : BitVec 21) : decodeOp 0x66#7 g f = checked (fld f 0 16 == 0#16) (.taskKill g (fld f 16 5)) := rfl
theorem decodeOp_67 (g : Guard) (f : BitVec 21) : decodeOp 0x67#7 g f = checked (fld f 0 16 == 0#16) (.taskStat g (fld f 16 5)) := rfl
theorem decodeOp_68 (g : Guard) (f : BitVec 21) : decodeOp 0x68#7 g f = checked ((Instr.bankMode g (fld f 16 5) (fld f 11 5) (fld f 7 4) (fld f 5 2) (fld f 0 5)).fieldsOk) (.bankMode g (fld f 16 5) (fld f 11 5) (fld f 7 4) (fld f 5 2) (fld f 0 5)) := rfl
theorem decodeOp_69 (g : Guard) (f : BitVec 21) : decodeOp 0x69#7 g f = decodeFn69 g f := rfl
theorem decodeOp_6A (g : Guard) (f : BitVec 21) : decodeOp 0x6A#7 g f = decodeFn6A g f := rfl
theorem decodeOp_6B (g : Guard) (f : BitVec 21) : decodeOp 0x6B#7 g f = checked (fld f 3 18 == 0#18 && (Instr.fence g (fld f 0 3)).fieldsOk) (.fence g (fld f 0 3)) := rfl
theorem decodeOp_6C (g : Guard) (f : BitVec 21) : decodeOp 0x6C#7 g f = decodeFn6C g f := rfl
theorem decodeOp_6D (g : Guard) (f : BitVec 21) : decodeOp 0x6D#7 g f = decodeFn6D g f := rfl
theorem decodeOp_6E (g : Guard) (f : BitVec 21) : decodeOp 0x6E#7 g f = decodeFn6E g f := rfl
theorem decodeOp_6F (g : Guard) (f : BitVec 21) : decodeOp 0x6F#7 g f = (if fld f 0 6 = 0#6 then checked (fld f 16 5 == 0#5) (.handStk g (fld f 11 5) (fld f 6 5)) else .error .badFunction) := rfl
theorem decodeOp_70 (g : Guard) (f : BitVec 21) : decodeOp 0x70#7 g f = (if fld f 20 1 = 1#1 then .ok (.waitAll g (fld f 15 5) (fld f 10 5) (fld f 5 5) (fld f 0 5)) else .ok (.wait g (fld f 15 5) (fld f 10 5) (fld f 5 5) (fld f 0 5))) := rfl
theorem decodeOp_71 (g : Guard) (f : BitVec 21) : decodeOp 0x71#7 g f = checked (fld f 0 21 == 0#21) (.nop g) := rfl
theorem decodeOp_72 (g : Guard) (f : BitVec 21) : decodeOp 0x72#7 g f = checked (fld f 16 5 == 0#5) (.trap g (fld f 0 16)) := rfl
theorem decodeOp_73 (g : Guard) (f : BitVec 21) : decodeOp 0x73#7 g f = checked (fld f 0 21 == 0#21) (.yield g) := rfl
theorem decodeOp_74 (g : Guard) (f : BitVec 21) : decodeOp 0x74#7 g f = .ok (.mgr g (fld f 16 5) (fld f 0 16)) := rfl
theorem decodeOp_75 (g : Guard) (f : BitVec 21) : decodeOp 0x75#7 g f = .ok (.mgw g (fld f 16 5) (fld f 0 16)) := rfl
theorem decodeOp_7E (g : Guard) (f : BitVec 21) : decodeOp 0x7E#7 g f = checked (fld f 0 21 == 0#21) (.endProg g) := rfl
theorem decodeOp_7F (g : Guard) (f : BitVec 21) : decodeOp 0x7F#7 g f = checked (fld f 0 21 == 0#21) (.tret g) := rfl
theorem decodeFn00_01 {g : Guard} {f : BitVec 21} (h : fld f 0 6 = 1#6) : decodeFn00 g f = .ok (.add g (fld f 16 5) (fld f 11 5) (fld f 6 5)) := by
  simp only [decodeFn00, h]; rfl
theorem decodeFn00_02 {g : Guard} {f : BitVec 21} (h : fld f 0 6 = 2#6) : decodeFn00 g f = .ok (.sub g (fld f 16 5) (fld f 11 5) (fld f 6 5)) := by
  simp only [decodeFn00, h]; rfl
theorem decodeFn00_03 {g : Guard} {f : BitVec 21} (h : fld f 0 6 = 3#6) : decodeFn00 g f = .ok (.and g (fld f 16 5) (fld f 11 5) (fld f 6 5)) := by
  simp only [decodeFn00, h]; rfl
theorem decodeFn00_04 {g : Guard} {f : BitVec 21} (h : fld f 0 6 = 4#6) : decodeFn00 g f = .ok (.or g (fld f 16 5) (fld f 11 5) (fld f 6 5)) := by
  simp only [decodeFn00, h]; rfl
theorem decodeFn00_05 {g : Guard} {f : BitVec 21} (h : fld f 0 6 = 5#6) : decodeFn00 g f = .ok (.xor g (fld f 16 5) (fld f 11 5) (fld f 6 5)) := by
  simp only [decodeFn00, h]; rfl
theorem decodeFn00_06 {g : Guard} {f : BitVec 21} (h : fld f 0 6 = 6#6) : decodeFn00 g f = .ok (.andn g (fld f 16 5) (fld f 11 5) (fld f 6 5)) := by
  simp only [decodeFn00, h]; rfl
theorem decodeFn00_07 {g : Guard} {f : BitVec 21} (h : fld f 0 6 = 7#6) : decodeFn00 g f = .ok (.orn g (fld f 16 5) (fld f 11 5) (fld f 6 5)) := by
  simp only [decodeFn00, h]; rfl
theorem decodeFn00_08 {g : Guard} {f : BitVec 21} (h : fld f 0 6 = 8#6) : decodeFn00 g f = .ok (.shl g (fld f 16 5) (fld f 11 5) (fld f 6 5)) := by
  simp only [decodeFn00, h]; rfl
theorem decodeFn00_09 {g : Guard} {f : BitVec 21} (h : fld f 0 6 = 9#6) : decodeFn00 g f = .ok (.shr g (fld f 16 5) (fld f 11 5) (fld f 6 5)) := by
  simp only [decodeFn00, h]; rfl
theorem decodeFn00_0A {g : Guard} {f : BitVec 21} (h : fld f 0 6 = 10#6) : decodeFn00 g f = .ok (.sra g (fld f 16 5) (fld f 11 5) (fld f 6 5)) := by
  simp only [decodeFn00, h]; rfl
theorem decodeFn00_0B {g : Guard} {f : BitVec 21} (h : fld f 0 6 = 11#6) : decodeFn00 g f = .ok (.rol g (fld f 16 5) (fld f 11 5) (fld f 6 5)) := by
  simp only [decodeFn00, h]; rfl
theorem decodeFn00_0C {g : Guard} {f : BitVec 21} (h : fld f 0 6 = 12#6) : decodeFn00 g f = .ok (.ror g (fld f 16 5) (fld f 11 5) (fld f 6 5)) := by
  simp only [decodeFn00, h]; rfl
theorem decodeFn00_0D {g : Guard} {f : BitVec 21} (h : fld f 0 6 = 13#6) : decodeFn00 g f = .ok (.mul g (fld f 16 5) (fld f 11 5) (fld f 6 5)) := by
  simp only [decodeFn00, h]; rfl
theorem decodeFn00_0E {g : Guard} {f : BitVec 21} (h : fld f 0 6 = 14#6) : decodeFn00 g f = .ok (.mulh g (fld f 16 5) (fld f 11 5) (fld f 6 5)) := by
  simp only [decodeFn00, h]; rfl
theorem decodeFn00_0F {g : Guard} {f : BitVec 21} (h : fld f 0 6 = 15#6) : decodeFn00 g f = .ok (.mulhu g (fld f 16 5) (fld f 11 5) (fld f 6 5)) := by
  simp only [decodeFn00, h]; rfl
theorem decodeFn00_10 {g : Guard} {f : BitVec 21} (h : fld f 0 6 = 16#6) : decodeFn00 g f = .ok (.div g (fld f 16 5) (fld f 11 5) (fld f 6 5)) := by
  simp only [decodeFn00, h]; rfl
theorem decodeFn00_11 {g : Guard} {f : BitVec 21} (h : fld f 0 6 = 17#6) : decodeFn00 g f = .ok (.divu g (fld f 16 5) (fld f 11 5) (fld f 6 5)) := by
  simp only [decodeFn00, h]; rfl
theorem decodeFn00_12 {g : Guard} {f : BitVec 21} (h : fld f 0 6 = 18#6) : decodeFn00 g f = .ok (.rem g (fld f 16 5) (fld f 11 5) (fld f 6 5)) := by
  simp only [decodeFn00, h]; rfl
theorem decodeFn00_13 {g : Guard} {f : BitVec 21} (h : fld f 0 6 = 19#6) : decodeFn00 g f = .ok (.remu g (fld f 16 5) (fld f 11 5) (fld f 6 5)) := by
  simp only [decodeFn00, h]; rfl
theorem decodeFn00_14 {g : Guard} {f : BitVec 21} (h : fld f 0 6 = 20#6) : decodeFn00 g f = .ok (.min g (fld f 16 5) (fld f 11 5) (fld f 6 5)) := by
  simp only [decodeFn00, h]; rfl
theorem decodeFn00_15 {g : Guard} {f : BitVec 21} (h : fld f 0 6 = 21#6) : decodeFn00 g f = .ok (.max g (fld f 16 5) (fld f 11 5) (fld f 6 5)) := by
  simp only [decodeFn00, h]; rfl
theorem decodeFn00_16 {g : Guard} {f : BitVec 21} (h : fld f 0 6 = 22#6) : decodeFn00 g f = .ok (.minu g (fld f 16 5) (fld f 11 5) (fld f 6 5)) := by
  simp only [decodeFn00, h]; rfl
theorem decodeFn00_17 {g : Guard} {f : BitVec 21} (h : fld f 0 6 = 23#6) : decodeFn00 g f = .ok (.maxu g (fld f 16 5) (fld f 11 5) (fld f 6 5)) := by
  simp only [decodeFn00, h]; rfl
theorem decodeFn00_18 {g : Guard} {f : BitVec 21} (h : fld f 0 6 = 24#6) : decodeFn00 g f = .ok (.addw g (fld f 16 5) (fld f 11 5) (fld f 6 5)) := by
  simp only [decodeFn00, h]; rfl
theorem decodeFn00_19 {g : Guard} {f : BitVec 21} (h : fld f 0 6 = 25#6) : decodeFn00 g f = .ok (.subw g (fld f 16 5) (fld f 11 5) (fld f 6 5)) := by
  simp only [decodeFn00, h]; rfl
theorem decodeFn00_1A {g : Guard} {f : BitVec 21} (h : fld f 0 6 = 26#6) : decodeFn00 g f = .ok (.mulw g (fld f 16 5) (fld f 11 5) (fld f 6 5)) := by
  simp only [decodeFn00, h]; rfl
theorem decodeFn00_1B {g : Guard} {f : BitVec 21} (h : fld f 0 6 = 27#6) : decodeFn00 g f = checked (fld f 6 5 == 0#5) (.clz g (fld f 16 5) (fld f 11 5)) := by
  simp only [decodeFn00, h]; rfl
theorem decodeFn00_1C {g : Guard} {f : BitVec 21} (h : fld f 0 6 = 28#6) : decodeFn00 g f = checked (fld f 6 5 == 0#5) (.ctz g (fld f 16 5) (fld f 11 5)) := by
  simp only [decodeFn00, h]; rfl
theorem decodeFn00_1D {g : Guard} {f : BitVec 21} (h : fld f 0 6 = 29#6) : decodeFn00 g f = checked (fld f 6 5 == 0#5) (.popc g (fld f 16 5) (fld f 11 5)) := by
  simp only [decodeFn00, h]; rfl
theorem decodeFn29_01 {g : Guard} {f : BitVec 21} (h : fld f 0 6 = 1#6) : decodeFn29 g f = checked (fld f 19 2 == 0#2) (.cmpEq g (fld f 16 3) (fld f 11 5) (fld f 6 5)) := by
  simp only [decodeFn29, h]; rfl
theorem decodeFn29_02 {g : Guard} {f : BitVec 21} (h : fld f 0 6 = 2#6) : decodeFn29 g f = checked (fld f 19 2 == 0#2) (.cmpNe g (fld f 16 3) (fld f 11 5) (fld f 6 5)) := by
  simp only [decodeFn29, h]; rfl
theorem decodeFn29_03 {g : Guard} {f : BitVec 21} (h : fld f 0 6 = 3#6) : decodeFn29 g f = checked (fld f 19 2 == 0#2) (.cmpLt g (fld f 16 3) (fld f 11 5) (fld f 6 5)) := by
  simp only [decodeFn29, h]; rfl
theorem decodeFn29_04 {g : Guard} {f : BitVec 21} (h : fld f 0 6 = 4#6) : decodeFn29 g f = checked (fld f 19 2 == 0#2) (.cmpGe g (fld f 16 3) (fld f 11 5) (fld f 6 5)) := by
  simp only [decodeFn29, h]; rfl
theorem decodeFn29_05 {g : Guard} {f : BitVec 21} (h : fld f 0 6 = 5#6) : decodeFn29 g f = checked (fld f 19 2 == 0#2) (.cmpLtu g (fld f 16 3) (fld f 11 5) (fld f 6 5)) := by
  simp only [decodeFn29, h]; rfl
theorem decodeFn29_06 {g : Guard} {f : BitVec 21} (h : fld f 0 6 = 6#6) : decodeFn29 g f = checked (fld f 19 2 == 0#2) (.cmpGeu g (fld f 16 3) (fld f 11 5) (fld f 6 5)) := by
  simp only [decodeFn29, h]; rfl
theorem decodeFn29_07 {g : Guard} {f : BitVec 21} (h : fld f 0 6 = 7#6) : decodeFn29 g f = checked (fld f 19 2 == 0#2) (.cmpTst g (fld f 16 3) (fld f 11 5) (fld f 6 5)) := by
  simp only [decodeFn29, h]; rfl
theorem decodeFn2D_01 {g : Guard} {f : BitVec 21} (h : fld f 0 6 = 1#6) : decodeFn2D g f = checked (fld f 19 2 == 0#2 && fld f 14 2 == 0#2 && fld f 9 2 == 0#2) (.pand g (fld f 16 3) (fld f 11 3) (fld f 6 3)) := by
  simp only [decodeFn2D, h]; rfl
theorem decodeFn2D_02 {g : Guard} {f : BitVec 21} (h : fld f 0 6 = 2#6) : decodeFn2D g f = checked (fld f 19 2 == 0#2 && fld f 14 2 == 0#2 && fld f 9 2 == 0#2) (.por g (fld f 16 3) (fld f 11 3) (fld f 6 3)) := by
  simp only [decodeFn2D, h]; rfl
theorem decodeFn2D_03 {g : Guard} {f : BitVec 21} (h : fld f 0 6 = 3#6) : decodeFn2D g f = checked (fld f 19 2 == 0#2 && fld f 14 2 == 0#2 && fld f 9 2 == 0#2) (.pxor g (fld f 16 3) (fld f 11 3) (fld f 6 3)) := by
  simp only [decodeFn2D, h]; rfl
theorem decodeFn2D_04 {g : Guard} {f : BitVec 21} (h : fld f 0 6 = 4#6) : decodeFn2D g f = checked (fld f 19 2 == 0#2 && fld f 14 2 == 0#2 && fld f 9 2 == 0#2) (.pandn g (fld f 16 3) (fld f 11 3) (fld f 6 3)) := by
  simp only [decodeFn2D, h]; rfl
theorem decodeFn2D_05 {g : Guard} {f : BitVec 21} (h : fld f 0 6 = 5#6) : decodeFn2D g f = checked (fld f 19 2 == 0#2 && fld f 14 2 == 0#2 && fld f 6 5 == 0#5) (.pnot g (fld f 16 3) (fld f 11 3)) := by
  simp only [decodeFn2D, h]; rfl
theorem decodeFn2D_06 {g : Guard} {f : BitVec 21} (h : fld f 0 6 = 6#6) : decodeFn2D g f = checked (fld f 19 2 == 0#2 && fld f 14 2 == 0#2 && fld f 6 5 == 0#5) (.pmov g (fld f 16 3) (fld f 11 3)) := by
  simp only [decodeFn2D, h]; rfl
theorem decodeFn3B_01 {g : Guard} {f : BitVec 21} (h : fld f 0 6 = 1#6) : decodeFn3B g f = checked (fld f 6 5 == 0#5) (.amoSwapW g (fld f 16 5) (fld f 11 5)) := by
  simp only [decodeFn3B, h]; rfl
theorem decodeFn3B_02 {g : Guard} {f : BitVec 21} (h : fld f 0 6 = 2#6) : decodeFn3B g f = checked (fld f 6 5 == 0#5) (.amoAddW g (fld f 16 5) (fld f 11 5)) := by
  simp only [decodeFn3B, h]; rfl
theorem decodeFn3B_03 {g : Guard} {f : BitVec 21} (h : fld f 0 6 = 3#6) : decodeFn3B g f = checked (fld f 6 5 == 0#5) (.amoAndW g (fld f 16 5) (fld f 11 5)) := by
  simp only [decodeFn3B, h]; rfl
theorem decodeFn3B_04 {g : Guard} {f : BitVec 21} (h : fld f 0 6 = 4#6) : decodeFn3B g f = checked (fld f 6 5 == 0#5) (.amoOrW g (fld f 16 5) (fld f 11 5)) := by
  simp only [decodeFn3B, h]; rfl
theorem decodeFn3B_05 {g : Guard} {f : BitVec 21} (h : fld f 0 6 = 5#6) : decodeFn3B g f = checked (fld f 6 5 == 0#5) (.amoXorW g (fld f 16 5) (fld f 11 5)) := by
  simp only [decodeFn3B, h]; rfl
theorem decodeFn3B_06 {g : Guard} {f : BitVec 21} (h : fld f 0 6 = 6#6) : decodeFn3B g f = checked (fld f 6 5 == 0#5) (.amoMinW g (fld f 16 5) (fld f 11 5)) := by
  simp only [decodeFn3B, h]; rfl
theorem decodeFn3B_07 {g : Guard} {f : BitVec 21} (h : fld f 0 6 = 7#6) : decodeFn3B g f = checked (fld f 6 5 == 0#5) (.amoMaxW g (fld f 16 5) (fld f 11 5)) := by
  simp only [decodeFn3B, h]; rfl
theorem decodeFn3B_08 {g : Guard} {f : BitVec 21} (h : fld f 0 6 = 8#6) : decodeFn3B g f = checked (fld f 6 5 == 0#5) (.amoMinuW g (fld f 16 5) (fld f 11 5)) := by
  simp only [decodeFn3B, h]; rfl
theorem decodeFn3B_09 {g : Guard} {f : BitVec 21} (h : fld f 0 6 = 9#6) : decodeFn3B g f = checked (fld f 6 5 == 0#5) (.amoMaxuW g (fld f 16 5) (fld f 11 5)) := by
  simp only [decodeFn3B, h]; rfl
theorem decodeFn3B_0A {g : Guard} {f : BitVec 21} (h : fld f 0 6 = 10#6) : decodeFn3B g f = checked (fld f 6 5 == 0#5) (.amoCasW g (fld f 16 5) (fld f 11 5)) := by
  simp only [decodeFn3B, h]; rfl
theorem decodeFn3B_21 {g : Guard} {f : BitVec 21} (h : fld f 0 6 = 33#6) : decodeFn3B g f = checked (fld f 6 5 == 0#5) (.amoSwapD g (fld f 16 5) (fld f 11 5)) := by
  simp only [decodeFn3B, h]; rfl
theorem decodeFn3B_22 {g : Guard} {f : BitVec 21} (h : fld f 0 6 = 34#6) : decodeFn3B g f = checked (fld f 6 5 == 0#5) (.amoAddD g (fld f 16 5) (fld f 11 5)) := by
  simp only [decodeFn3B, h]; rfl
theorem decodeFn3B_23 {g : Guard} {f : BitVec 21} (h : fld f 0 6 = 35#6) : decodeFn3B g f = checked (fld f 6 5 == 0#5) (.amoAndD g (fld f 16 5) (fld f 11 5)) := by
  simp only [decodeFn3B, h]; rfl
theorem decodeFn3B_24 {g : Guard} {f : BitVec 21} (h : fld f 0 6 = 36#6) : decodeFn3B g f = checked (fld f 6 5 == 0#5) (.amoOrD g (fld f 16 5) (fld f 11 5)) := by
  simp only [decodeFn3B, h]; rfl
theorem decodeFn3B_25 {g : Guard} {f : BitVec 21} (h : fld f 0 6 = 37#6) : decodeFn3B g f = checked (fld f 6 5 == 0#5) (.amoXorD g (fld f 16 5) (fld f 11 5)) := by
  simp only [decodeFn3B, h]; rfl
theorem decodeFn3B_26 {g : Guard} {f : BitVec 21} (h : fld f 0 6 = 38#6) : decodeFn3B g f = checked (fld f 6 5 == 0#5) (.amoMinD g (fld f 16 5) (fld f 11 5)) := by
  simp only [decodeFn3B, h]; rfl
theorem decodeFn3B_27 {g : Guard} {f : BitVec 21} (h : fld f 0 6 = 39#6) : decodeFn3B g f = checked (fld f 6 5 == 0#5) (.amoMaxD g (fld f 16 5) (fld f 11 5)) := by
  simp only [decodeFn3B, h]; rfl
theorem decodeFn3B_28 {g : Guard} {f : BitVec 21} (h : fld f 0 6 = 40#6) : decodeFn3B g f = checked (fld f 6 5 == 0#5) (.amoMinuD g (fld f 16 5) (fld f 11 5)) := by
  simp only [decodeFn3B, h]; rfl
theorem decodeFn3B_29 {g : Guard} {f : BitVec 21} (h : fld f 0 6 = 41#6) : decodeFn3B g f = checked (fld f 6 5 == 0#5) (.amoMaxuD g (fld f 16 5) (fld f 11 5)) := by
  simp only [decodeFn3B, h]; rfl
theorem decodeFn3B_2A {g : Guard} {f : BitVec 21} (h : fld f 0 6 = 42#6) : decodeFn3B g f = checked (fld f 6 5 == 0#5 && (Instr.amoCasD g (fld f 16 5) (fld f 11 5)).fieldsOk) (.amoCasD g (fld f 16 5) (fld f 11 5)) := by
  simp only [decodeFn3B, h]; rfl
theorem decodeFn69_01 {g : Guard} {f : BitVec 21} (h : fld f 0 6 = 1#6) : decodeFn69 g f = .ok (.resOpen g (fld f 16 5) (fld f 11 5) (fld f 6 5)) := by
  simp only [decodeFn69, h]; rfl
theorem decodeFn69_02 {g : Guard} {f : BitVec 21} (h : fld f 0 6 = 2#6) : decodeFn69 g f = checked (fld f 16 5 == 0#5) (.resPrio g (fld f 11 5) (fld f 6 5)) := by
  simp only [decodeFn69, h]; rfl
theorem decodeFn69_03 {g : Guard} {f : BitVec 21} (h : fld f 0 6 = 3#6) : decodeFn69 g f = checked (fld f 16 5 == 0#5 && fld f 6 5 == 0#5) (.resDrop g (fld f 11 5)) := by
  simp only [decodeFn69, h]; rfl
theorem decodeFn6A_01 {g : Guard} {f : BitVec 21} (h : fld f 0 6 = 1#6) : decodeFn6A g f = .ok (.amdSwapW g (fld f 16 5) (fld f 11 5) (fld f 6 5)) := by
  simp only [decodeFn6A, h]; rfl
theorem decodeFn6A_02 {g : Guard} {f : BitVec 21} (h : fld f 0 6 = 2#6) : decodeFn6A g f = .ok (.amdAddW g (fld f 16 5) (fld f 11 5) (fld f 6 5)) := by
  simp only [decodeFn6A, h]; rfl
theorem decodeFn6A_03 {g : Guard} {f : BitVec 21} (h : fld f 0 6 = 3#6) : decodeFn6A g f = .ok (.amdAndW g (fld f 16 5) (fld f 11 5) (fld f 6 5)) := by
  simp only [decodeFn6A, h]; rfl
theorem decodeFn6A_04 {g : Guard} {f : BitVec 21} (h : fld f 0 6 = 4#6) : decodeFn6A g f = .ok (.amdOrW g (fld f 16 5) (fld f 11 5) (fld f 6 5)) := by
  simp only [decodeFn6A, h]; rfl
theorem decodeFn6A_05 {g : Guard} {f : BitVec 21} (h : fld f 0 6 = 5#6) : decodeFn6A g f = .ok (.amdXorW g (fld f 16 5) (fld f 11 5) (fld f 6 5)) := by
  simp only [decodeFn6A, h]; rfl
theorem decodeFn6A_06 {g : Guard} {f : BitVec 21} (h : fld f 0 6 = 6#6) : decodeFn6A g f = .ok (.amdMinW g (fld f 16 5) (fld f 11 5) (fld f 6 5)) := by
  simp only [decodeFn6A, h]; rfl
theorem decodeFn6A_07 {g : Guard} {f : BitVec 21} (h : fld f 0 6 = 7#6) : decodeFn6A g f = .ok (.amdMaxW g (fld f 16 5) (fld f 11 5) (fld f 6 5)) := by
  simp only [decodeFn6A, h]; rfl
theorem decodeFn6A_08 {g : Guard} {f : BitVec 21} (h : fld f 0 6 = 8#6) : decodeFn6A g f = .ok (.amdMinuW g (fld f 16 5) (fld f 11 5) (fld f 6 5)) := by
  simp only [decodeFn6A, h]; rfl
theorem decodeFn6A_09 {g : Guard} {f : BitVec 21} (h : fld f 0 6 = 9#6) : decodeFn6A g f = .ok (.amdMaxuW g (fld f 16 5) (fld f 11 5) (fld f 6 5)) := by
  simp only [decodeFn6A, h]; rfl
theorem decodeFn6A_0A {g : Guard} {f : BitVec 21} (h : fld f 0 6 = 10#6) : decodeFn6A g f = .ok (.amdCasW g (fld f 16 5) (fld f 11 5) (fld f 6 5)) := by
  simp only [decodeFn6A, h]; rfl
theorem decodeFn6A_21 {g : Guard} {f : BitVec 21} (h : fld f 0 6 = 33#6) : decodeFn6A g f = .ok (.amdSwapD g (fld f 16 5) (fld f 11 5) (fld f 6 5)) := by
  simp only [decodeFn6A, h]; rfl
theorem decodeFn6A_22 {g : Guard} {f : BitVec 21} (h : fld f 0 6 = 34#6) : decodeFn6A g f = .ok (.amdAddD g (fld f 16 5) (fld f 11 5) (fld f 6 5)) := by
  simp only [decodeFn6A, h]; rfl
theorem decodeFn6A_23 {g : Guard} {f : BitVec 21} (h : fld f 0 6 = 35#6) : decodeFn6A g f = .ok (.amdAndD g (fld f 16 5) (fld f 11 5) (fld f 6 5)) := by
  simp only [decodeFn6A, h]; rfl
theorem decodeFn6A_24 {g : Guard} {f : BitVec 21} (h : fld f 0 6 = 36#6) : decodeFn6A g f = .ok (.amdOrD g (fld f 16 5) (fld f 11 5) (fld f 6 5)) := by
  simp only [decodeFn6A, h]; rfl
theorem decodeFn6A_25 {g : Guard} {f : BitVec 21} (h : fld f 0 6 = 37#6) : decodeFn6A g f = .ok (.amdXorD g (fld f 16 5) (fld f 11 5) (fld f 6 5)) := by
  simp only [decodeFn6A, h]; rfl
theorem decodeFn6A_26 {g : Guard} {f : BitVec 21} (h : fld f 0 6 = 38#6) : decodeFn6A g f = .ok (.amdMinD g (fld f 16 5) (fld f 11 5) (fld f 6 5)) := by
  simp only [decodeFn6A, h]; rfl
theorem decodeFn6A_27 {g : Guard} {f : BitVec 21} (h : fld f 0 6 = 39#6) : decodeFn6A g f = .ok (.amdMaxD g (fld f 16 5) (fld f 11 5) (fld f 6 5)) := by
  simp only [decodeFn6A, h]; rfl
theorem decodeFn6A_28 {g : Guard} {f : BitVec 21} (h : fld f 0 6 = 40#6) : decodeFn6A g f = .ok (.amdMinuD g (fld f 16 5) (fld f 11 5) (fld f 6 5)) := by
  simp only [decodeFn6A, h]; rfl
theorem decodeFn6A_29 {g : Guard} {f : BitVec 21} (h : fld f 0 6 = 41#6) : decodeFn6A g f = .ok (.amdMaxuD g (fld f 16 5) (fld f 11 5) (fld f 6 5)) := by
  simp only [decodeFn6A, h]; rfl
theorem decodeFn6A_2A {g : Guard} {f : BitVec 21} (h : fld f 0 6 = 42#6) : decodeFn6A g f = checked ((Instr.amdCasD g (fld f 16 5) (fld f 11 5) (fld f 6 5)).fieldsOk) (.amdCasD g (fld f 16 5) (fld f 11 5) (fld f 6 5)) := by
  simp only [decodeFn6A, h]; rfl
theorem decodeFn6A_2B {g : Guard} {f : BitVec 21} (h : fld f 0 6 = 43#6) : decodeFn6A g f = .ok (.amdAfadd g (fld f 16 5) (fld f 11 5) (fld f 6 5)) := by
  simp only [decodeFn6A, h]; rfl
theorem decodeFn6C_01 {g : Guard} {f : BitVec 21} (h : fld f 0 6 = 1#6) : decodeFn6C g f = checked (fld f 6 5 == 0#5) (.barArr g (fld f 16 5) (fld f 11 5)) := by
  simp only [decodeFn6C, h]; rfl
theorem decodeFn6C_02 {g : Guard} {f : BitVec 21} (h : fld f 0 6 = 2#6) : decodeFn6C g f = .ok (.barWait g (fld f 16 5) (fld f 11 5) (fld f 6 5)) := by
  simp only [decodeFn6C, h]; rfl
theorem decodeFn6D_01 {g : Guard} {f : BitVec 21} (h : fld f 0 6 = 1#6) : decodeFn6D g f = checked (fld f 6 5 == 0#5) (.ringHead g (fld f 16 5) (fld f 11 5)) := by
  simp only [decodeFn6D, h]; rfl
theorem decodeFn6D_02 {g : Guard} {f : BitVec 21} (h : fld f 0 6 = 2#6) : decodeFn6D g f = checked (fld f 6 5 == 0#5) (.ringTail g (fld f 16 5) (fld f 11 5)) := by
  simp only [decodeFn6D, h]; rfl
theorem decodeFn6D_03 {g : Guard} {f : BitVec 21} (h : fld f 0 6 = 3#6) : decodeFn6D g f = checked (fld f 6 5 == 0#5) (.ringReset g (fld f 16 5) (fld f 11 5)) := by
  simp only [decodeFn6D, h]; rfl
theorem decodeFn6E_01 {g : Guard} {f : BitVec 21} (h : fld f 0 6 = 1#6) : decodeFn6E g f = checked (fld f 16 5 == 0#5) (.tlbInva g (fld f 11 5) (fld f 6 5)) := by
  simp only [decodeFn6E, h]; rfl
theorem decodeFn6E_02 {g : Guard} {f : BitVec 21} (h : fld f 0 6 = 2#6) : decodeFn6E g f = checked (fld f 16 5 == 0#5 && fld f 6 5 == 0#5) (.tlbInvs g (fld f 11 5)) := by
  simp only [decodeFn6E, h]; rfl
theorem decodeFn6E_03 {g : Guard} {f : BitVec 21} (h : fld f 0 6 = 3#6) : decodeFn6E g f = checked (fld f 6 15 == 0#15) (.tlbInvall g) := by
  simp only [decodeFn6E, h]; rfl

namespace Laws.Codec

/-- Decoding the word of a well-formed operation gives that operation back. -/
def Statement (i : Instr) : Prop := ∀ w, encode i = some w → i.wf = true → decodeWord w = .ok i

theorem add (g : Guard) (d : BitVec 5) (a : BitVec 5) (b : BitVec 5) : Statement (.add g d a b) := by
  intro w h hw
  cases (show some (word g 0x00#7 (d ++ a ++ b ++ 1#6)) = some w from h)
  refine decodeWord_word ?_ hw
  rw [decodeOp_00, decodeFn00_01 (by first | rfl | (simp (disch := omega) only [fld, fld_low, fld_all]; done) | (simp (disch := omega) only [fld, fld_low, fld_all]; rfl))]
  simp (disch := omega) only [fld, fld_low, fld_high, fld_all, Nat.reduceSub]
theorem sub (g : Guard) (d : BitVec 5) (a : BitVec 5) (b : BitVec 5) : Statement (.sub g d a b) := by
  intro w h hw
  cases (show some (word g 0x00#7 (d ++ a ++ b ++ 2#6)) = some w from h)
  refine decodeWord_word ?_ hw
  rw [decodeOp_00, decodeFn00_02 (by first | rfl | (simp (disch := omega) only [fld, fld_low, fld_all]; done) | (simp (disch := omega) only [fld, fld_low, fld_all]; rfl))]
  simp (disch := omega) only [fld, fld_low, fld_high, fld_all, Nat.reduceSub]
theorem and (g : Guard) (d : BitVec 5) (a : BitVec 5) (b : BitVec 5) : Statement (.and g d a b) := by
  intro w h hw
  cases (show some (word g 0x00#7 (d ++ a ++ b ++ 3#6)) = some w from h)
  refine decodeWord_word ?_ hw
  rw [decodeOp_00, decodeFn00_03 (by first | rfl | (simp (disch := omega) only [fld, fld_low, fld_all]; done) | (simp (disch := omega) only [fld, fld_low, fld_all]; rfl))]
  simp (disch := omega) only [fld, fld_low, fld_high, fld_all, Nat.reduceSub]
theorem or (g : Guard) (d : BitVec 5) (a : BitVec 5) (b : BitVec 5) : Statement (.or g d a b) := by
  intro w h hw
  cases (show some (word g 0x00#7 (d ++ a ++ b ++ 4#6)) = some w from h)
  refine decodeWord_word ?_ hw
  rw [decodeOp_00, decodeFn00_04 (by first | rfl | (simp (disch := omega) only [fld, fld_low, fld_all]; done) | (simp (disch := omega) only [fld, fld_low, fld_all]; rfl))]
  simp (disch := omega) only [fld, fld_low, fld_high, fld_all, Nat.reduceSub]
theorem xor (g : Guard) (d : BitVec 5) (a : BitVec 5) (b : BitVec 5) : Statement (.xor g d a b) := by
  intro w h hw
  cases (show some (word g 0x00#7 (d ++ a ++ b ++ 5#6)) = some w from h)
  refine decodeWord_word ?_ hw
  rw [decodeOp_00, decodeFn00_05 (by first | rfl | (simp (disch := omega) only [fld, fld_low, fld_all]; done) | (simp (disch := omega) only [fld, fld_low, fld_all]; rfl))]
  simp (disch := omega) only [fld, fld_low, fld_high, fld_all, Nat.reduceSub]
theorem andn (g : Guard) (d : BitVec 5) (a : BitVec 5) (b : BitVec 5) : Statement (.andn g d a b) := by
  intro w h hw
  cases (show some (word g 0x00#7 (d ++ a ++ b ++ 6#6)) = some w from h)
  refine decodeWord_word ?_ hw
  rw [decodeOp_00, decodeFn00_06 (by first | rfl | (simp (disch := omega) only [fld, fld_low, fld_all]; done) | (simp (disch := omega) only [fld, fld_low, fld_all]; rfl))]
  simp (disch := omega) only [fld, fld_low, fld_high, fld_all, Nat.reduceSub]
theorem orn (g : Guard) (d : BitVec 5) (a : BitVec 5) (b : BitVec 5) : Statement (.orn g d a b) := by
  intro w h hw
  cases (show some (word g 0x00#7 (d ++ a ++ b ++ 7#6)) = some w from h)
  refine decodeWord_word ?_ hw
  rw [decodeOp_00, decodeFn00_07 (by first | rfl | (simp (disch := omega) only [fld, fld_low, fld_all]; done) | (simp (disch := omega) only [fld, fld_low, fld_all]; rfl))]
  simp (disch := omega) only [fld, fld_low, fld_high, fld_all, Nat.reduceSub]
theorem shl (g : Guard) (d : BitVec 5) (a : BitVec 5) (b : BitVec 5) : Statement (.shl g d a b) := by
  intro w h hw
  cases (show some (word g 0x00#7 (d ++ a ++ b ++ 8#6)) = some w from h)
  refine decodeWord_word ?_ hw
  rw [decodeOp_00, decodeFn00_08 (by first | rfl | (simp (disch := omega) only [fld, fld_low, fld_all]; done) | (simp (disch := omega) only [fld, fld_low, fld_all]; rfl))]
  simp (disch := omega) only [fld, fld_low, fld_high, fld_all, Nat.reduceSub]
theorem shr (g : Guard) (d : BitVec 5) (a : BitVec 5) (b : BitVec 5) : Statement (.shr g d a b) := by
  intro w h hw
  cases (show some (word g 0x00#7 (d ++ a ++ b ++ 9#6)) = some w from h)
  refine decodeWord_word ?_ hw
  rw [decodeOp_00, decodeFn00_09 (by first | rfl | (simp (disch := omega) only [fld, fld_low, fld_all]; done) | (simp (disch := omega) only [fld, fld_low, fld_all]; rfl))]
  simp (disch := omega) only [fld, fld_low, fld_high, fld_all, Nat.reduceSub]
theorem sra (g : Guard) (d : BitVec 5) (a : BitVec 5) (b : BitVec 5) : Statement (.sra g d a b) := by
  intro w h hw
  cases (show some (word g 0x00#7 (d ++ a ++ b ++ 10#6)) = some w from h)
  refine decodeWord_word ?_ hw
  rw [decodeOp_00, decodeFn00_0A (by first | rfl | (simp (disch := omega) only [fld, fld_low, fld_all]; done) | (simp (disch := omega) only [fld, fld_low, fld_all]; rfl))]
  simp (disch := omega) only [fld, fld_low, fld_high, fld_all, Nat.reduceSub]
theorem rol (g : Guard) (d : BitVec 5) (a : BitVec 5) (b : BitVec 5) : Statement (.rol g d a b) := by
  intro w h hw
  cases (show some (word g 0x00#7 (d ++ a ++ b ++ 11#6)) = some w from h)
  refine decodeWord_word ?_ hw
  rw [decodeOp_00, decodeFn00_0B (by first | rfl | (simp (disch := omega) only [fld, fld_low, fld_all]; done) | (simp (disch := omega) only [fld, fld_low, fld_all]; rfl))]
  simp (disch := omega) only [fld, fld_low, fld_high, fld_all, Nat.reduceSub]
theorem ror (g : Guard) (d : BitVec 5) (a : BitVec 5) (b : BitVec 5) : Statement (.ror g d a b) := by
  intro w h hw
  cases (show some (word g 0x00#7 (d ++ a ++ b ++ 12#6)) = some w from h)
  refine decodeWord_word ?_ hw
  rw [decodeOp_00, decodeFn00_0C (by first | rfl | (simp (disch := omega) only [fld, fld_low, fld_all]; done) | (simp (disch := omega) only [fld, fld_low, fld_all]; rfl))]
  simp (disch := omega) only [fld, fld_low, fld_high, fld_all, Nat.reduceSub]
theorem mul (g : Guard) (d : BitVec 5) (a : BitVec 5) (b : BitVec 5) : Statement (.mul g d a b) := by
  intro w h hw
  cases (show some (word g 0x00#7 (d ++ a ++ b ++ 13#6)) = some w from h)
  refine decodeWord_word ?_ hw
  rw [decodeOp_00, decodeFn00_0D (by first | rfl | (simp (disch := omega) only [fld, fld_low, fld_all]; done) | (simp (disch := omega) only [fld, fld_low, fld_all]; rfl))]
  simp (disch := omega) only [fld, fld_low, fld_high, fld_all, Nat.reduceSub]
theorem mulh (g : Guard) (d : BitVec 5) (a : BitVec 5) (b : BitVec 5) : Statement (.mulh g d a b) := by
  intro w h hw
  cases (show some (word g 0x00#7 (d ++ a ++ b ++ 14#6)) = some w from h)
  refine decodeWord_word ?_ hw
  rw [decodeOp_00, decodeFn00_0E (by first | rfl | (simp (disch := omega) only [fld, fld_low, fld_all]; done) | (simp (disch := omega) only [fld, fld_low, fld_all]; rfl))]
  simp (disch := omega) only [fld, fld_low, fld_high, fld_all, Nat.reduceSub]
theorem mulhu (g : Guard) (d : BitVec 5) (a : BitVec 5) (b : BitVec 5) : Statement (.mulhu g d a b) := by
  intro w h hw
  cases (show some (word g 0x00#7 (d ++ a ++ b ++ 15#6)) = some w from h)
  refine decodeWord_word ?_ hw
  rw [decodeOp_00, decodeFn00_0F (by first | rfl | (simp (disch := omega) only [fld, fld_low, fld_all]; done) | (simp (disch := omega) only [fld, fld_low, fld_all]; rfl))]
  simp (disch := omega) only [fld, fld_low, fld_high, fld_all, Nat.reduceSub]
theorem div (g : Guard) (d : BitVec 5) (a : BitVec 5) (b : BitVec 5) : Statement (.div g d a b) := by
  intro w h hw
  cases (show some (word g 0x00#7 (d ++ a ++ b ++ 16#6)) = some w from h)
  refine decodeWord_word ?_ hw
  rw [decodeOp_00, decodeFn00_10 (by first | rfl | (simp (disch := omega) only [fld, fld_low, fld_all]; done) | (simp (disch := omega) only [fld, fld_low, fld_all]; rfl))]
  simp (disch := omega) only [fld, fld_low, fld_high, fld_all, Nat.reduceSub]
theorem divu (g : Guard) (d : BitVec 5) (a : BitVec 5) (b : BitVec 5) : Statement (.divu g d a b) := by
  intro w h hw
  cases (show some (word g 0x00#7 (d ++ a ++ b ++ 17#6)) = some w from h)
  refine decodeWord_word ?_ hw
  rw [decodeOp_00, decodeFn00_11 (by first | rfl | (simp (disch := omega) only [fld, fld_low, fld_all]; done) | (simp (disch := omega) only [fld, fld_low, fld_all]; rfl))]
  simp (disch := omega) only [fld, fld_low, fld_high, fld_all, Nat.reduceSub]
theorem rem (g : Guard) (d : BitVec 5) (a : BitVec 5) (b : BitVec 5) : Statement (.rem g d a b) := by
  intro w h hw
  cases (show some (word g 0x00#7 (d ++ a ++ b ++ 18#6)) = some w from h)
  refine decodeWord_word ?_ hw
  rw [decodeOp_00, decodeFn00_12 (by first | rfl | (simp (disch := omega) only [fld, fld_low, fld_all]; done) | (simp (disch := omega) only [fld, fld_low, fld_all]; rfl))]
  simp (disch := omega) only [fld, fld_low, fld_high, fld_all, Nat.reduceSub]
theorem remu (g : Guard) (d : BitVec 5) (a : BitVec 5) (b : BitVec 5) : Statement (.remu g d a b) := by
  intro w h hw
  cases (show some (word g 0x00#7 (d ++ a ++ b ++ 19#6)) = some w from h)
  refine decodeWord_word ?_ hw
  rw [decodeOp_00, decodeFn00_13 (by first | rfl | (simp (disch := omega) only [fld, fld_low, fld_all]; done) | (simp (disch := omega) only [fld, fld_low, fld_all]; rfl))]
  simp (disch := omega) only [fld, fld_low, fld_high, fld_all, Nat.reduceSub]
theorem min (g : Guard) (d : BitVec 5) (a : BitVec 5) (b : BitVec 5) : Statement (.min g d a b) := by
  intro w h hw
  cases (show some (word g 0x00#7 (d ++ a ++ b ++ 20#6)) = some w from h)
  refine decodeWord_word ?_ hw
  rw [decodeOp_00, decodeFn00_14 (by first | rfl | (simp (disch := omega) only [fld, fld_low, fld_all]; done) | (simp (disch := omega) only [fld, fld_low, fld_all]; rfl))]
  simp (disch := omega) only [fld, fld_low, fld_high, fld_all, Nat.reduceSub]
theorem max (g : Guard) (d : BitVec 5) (a : BitVec 5) (b : BitVec 5) : Statement (.max g d a b) := by
  intro w h hw
  cases (show some (word g 0x00#7 (d ++ a ++ b ++ 21#6)) = some w from h)
  refine decodeWord_word ?_ hw
  rw [decodeOp_00, decodeFn00_15 (by first | rfl | (simp (disch := omega) only [fld, fld_low, fld_all]; done) | (simp (disch := omega) only [fld, fld_low, fld_all]; rfl))]
  simp (disch := omega) only [fld, fld_low, fld_high, fld_all, Nat.reduceSub]
theorem minu (g : Guard) (d : BitVec 5) (a : BitVec 5) (b : BitVec 5) : Statement (.minu g d a b) := by
  intro w h hw
  cases (show some (word g 0x00#7 (d ++ a ++ b ++ 22#6)) = some w from h)
  refine decodeWord_word ?_ hw
  rw [decodeOp_00, decodeFn00_16 (by first | rfl | (simp (disch := omega) only [fld, fld_low, fld_all]; done) | (simp (disch := omega) only [fld, fld_low, fld_all]; rfl))]
  simp (disch := omega) only [fld, fld_low, fld_high, fld_all, Nat.reduceSub]
theorem maxu (g : Guard) (d : BitVec 5) (a : BitVec 5) (b : BitVec 5) : Statement (.maxu g d a b) := by
  intro w h hw
  cases (show some (word g 0x00#7 (d ++ a ++ b ++ 23#6)) = some w from h)
  refine decodeWord_word ?_ hw
  rw [decodeOp_00, decodeFn00_17 (by first | rfl | (simp (disch := omega) only [fld, fld_low, fld_all]; done) | (simp (disch := omega) only [fld, fld_low, fld_all]; rfl))]
  simp (disch := omega) only [fld, fld_low, fld_high, fld_all, Nat.reduceSub]
theorem addw (g : Guard) (d : BitVec 5) (a : BitVec 5) (b : BitVec 5) : Statement (.addw g d a b) := by
  intro w h hw
  cases (show some (word g 0x00#7 (d ++ a ++ b ++ 24#6)) = some w from h)
  refine decodeWord_word ?_ hw
  rw [decodeOp_00, decodeFn00_18 (by first | rfl | (simp (disch := omega) only [fld, fld_low, fld_all]; done) | (simp (disch := omega) only [fld, fld_low, fld_all]; rfl))]
  simp (disch := omega) only [fld, fld_low, fld_high, fld_all, Nat.reduceSub]
theorem subw (g : Guard) (d : BitVec 5) (a : BitVec 5) (b : BitVec 5) : Statement (.subw g d a b) := by
  intro w h hw
  cases (show some (word g 0x00#7 (d ++ a ++ b ++ 25#6)) = some w from h)
  refine decodeWord_word ?_ hw
  rw [decodeOp_00, decodeFn00_19 (by first | rfl | (simp (disch := omega) only [fld, fld_low, fld_all]; done) | (simp (disch := omega) only [fld, fld_low, fld_all]; rfl))]
  simp (disch := omega) only [fld, fld_low, fld_high, fld_all, Nat.reduceSub]
theorem mulw (g : Guard) (d : BitVec 5) (a : BitVec 5) (b : BitVec 5) : Statement (.mulw g d a b) := by
  intro w h hw
  cases (show some (word g 0x00#7 (d ++ a ++ b ++ 26#6)) = some w from h)
  refine decodeWord_word ?_ hw
  rw [decodeOp_00, decodeFn00_1A (by first | rfl | (simp (disch := omega) only [fld, fld_low, fld_all]; done) | (simp (disch := omega) only [fld, fld_low, fld_all]; rfl))]
  simp (disch := omega) only [fld, fld_low, fld_high, fld_all, Nat.reduceSub]
theorem clz (g : Guard) (d : BitVec 5) (a : BitVec 5) : Statement (.clz g d a) := by
  intro w h hw
  cases (show some (word g 0x00#7 (d ++ a ++ 27#11)) = some w from h)
  refine decodeWord_word ?_ hw
  rw [decodeOp_00, decodeFn00_1B (by first | rfl | (simp (disch := omega) only [fld, fld_low, fld_all]; done) | (simp (disch := omega) only [fld, fld_low, fld_all]; rfl))]
  simp (disch := omega) only [fld, fld_low, fld_high, fld_all, Nat.reduceSub]
  rfl
theorem ctz (g : Guard) (d : BitVec 5) (a : BitVec 5) : Statement (.ctz g d a) := by
  intro w h hw
  cases (show some (word g 0x00#7 (d ++ a ++ 28#11)) = some w from h)
  refine decodeWord_word ?_ hw
  rw [decodeOp_00, decodeFn00_1C (by first | rfl | (simp (disch := omega) only [fld, fld_low, fld_all]; done) | (simp (disch := omega) only [fld, fld_low, fld_all]; rfl))]
  simp (disch := omega) only [fld, fld_low, fld_high, fld_all, Nat.reduceSub]
  rfl
theorem popc (g : Guard) (d : BitVec 5) (a : BitVec 5) : Statement (.popc g d a) := by
  intro w h hw
  cases (show some (word g 0x00#7 (d ++ a ++ 29#11)) = some w from h)
  refine decodeWord_word ?_ hw
  rw [decodeOp_00, decodeFn00_1D (by first | rfl | (simp (disch := omega) only [fld, fld_low, fld_all]; done) | (simp (disch := omega) only [fld, fld_low, fld_all]; rfl))]
  simp (disch := omega) only [fld, fld_low, fld_high, fld_all, Nat.reduceSub]
  rfl
theorem addi (g : Guard) (d : BitVec 5) (a : BitVec 5) (imm : BitVec 11) : Statement (.addi g d a imm) := by
  intro w h hw
  cases (show some (word g 0x01#7 (d ++ a ++ imm)) = some w from h)
  refine decodeWord_word ?_ hw
  rw [decodeOp_01]
  simp (disch := omega) only [fld, fld_low, fld_high, fld_all, Nat.reduceSub]
theorem andi (g : Guard) (d : BitVec 5) (a : BitVec 5) (imm : BitVec 11) : Statement (.andi g d a imm) := by
  intro w h hw
  cases (show some (word g 0x02#7 (d ++ a ++ imm)) = some w from h)
  refine decodeWord_word ?_ hw
  rw [decodeOp_02]
  simp (disch := omega) only [fld, fld_low, fld_high, fld_all, Nat.reduceSub]
theorem ori (g : Guard) (d : BitVec 5) (a : BitVec 5) (imm : BitVec 11) : Statement (.ori g d a imm) := by
  intro w h hw
  cases (show some (word g 0x03#7 (d ++ a ++ imm)) = some w from h)
  refine decodeWord_word ?_ hw
  rw [decodeOp_03]
  simp (disch := omega) only [fld, fld_low, fld_high, fld_all, Nat.reduceSub]
theorem xori (g : Guard) (d : BitVec 5) (a : BitVec 5) (imm : BitVec 11) : Statement (.xori g d a imm) := by
  intro w h hw
  cases (show some (word g 0x04#7 (d ++ a ++ imm)) = some w from h)
  refine decodeWord_word ?_ hw
  rw [decodeOp_04]
  simp (disch := omega) only [fld, fld_low, fld_high, fld_all, Nat.reduceSub]
theorem shli (g : Guard) (d : BitVec 5) (a : BitVec 5) (s : BitVec 6) : Statement (.shli g d a s) := by
  intro w h hw
  cases (show some (word g 0x05#7 (d ++ a ++ 0#5 ++ s)) = some w from h)
  refine decodeWord_word ?_ hw
  rw [decodeOp_05]
  simp (disch := omega) only [fld, fld_low, fld_high, fld_all, Nat.reduceSub]
  rfl
theorem shri (g : Guard) (d : BitVec 5) (a : BitVec 5) (s : BitVec 6) : Statement (.shri g d a s) := by
  intro w h hw
  cases (show some (word g 0x06#7 (d ++ a ++ 0#5 ++ s)) = some w from h)
  refine decodeWord_word ?_ hw
  rw [decodeOp_06]
  simp (disch := omega) only [fld, fld_low, fld_high, fld_all, Nat.reduceSub]
  rfl
theorem srai (g : Guard) (d : BitVec 5) (a : BitVec 5) (s : BitVec 6) : Statement (.srai g d a s) := by
  intro w h hw
  cases (show some (word g 0x07#7 (d ++ a ++ 0#5 ++ s)) = some w from h)
  refine decodeWord_word ?_ hw
  rw [decodeOp_07]
  simp (disch := omega) only [fld, fld_low, fld_high, fld_all, Nat.reduceSub]
  rfl
theorem muli (g : Guard) (d : BitVec 5) (a : BitVec 5) (imm : BitVec 11) : Statement (.muli g d a imm) := by
  intro w h hw
  cases (show some (word g 0x08#7 (d ++ a ++ imm)) = some w from h)
  refine decodeWord_word ?_ hw
  rw [decodeOp_08]
  simp (disch := omega) only [fld, fld_low, fld_high, fld_all, Nat.reduceSub]
theorem addwi (g : Guard) (d : BitVec 5) (a : BitVec 5) (imm : BitVec 11) : Statement (.addwi g d a imm) := by
  intro w h hw
  cases (show some (word g 0x09#7 (d ++ a ++ imm)) = some w from h)
  refine decodeWord_word ?_ hw
  rw [decodeOp_09]
  simp (disch := omega) only [fld, fld_low, fld_high, fld_all, Nat.reduceSub]
theorem movi (g : Guard) (d : BitVec 5) (imm : BitVec 16) : Statement (.movi g d imm) := by
  intro w h hw
  cases (show some (word g 0x0A#7 (d ++ imm)) = some w from h)
  refine decodeWord_word ?_ hw
  rw [decodeOp_0A]
  simp (disch := omega) only [fld, fld_low, fld_high, fld_all, Nat.reduceSub]
theorem movz (g : Guard) (d : BitVec 5) (imm : BitVec 16) : Statement (.movz g d imm) := by
  intro w h hw
  cases (show some (word g 0x0B#7 (d ++ imm)) = some w from h)
  refine decodeWord_word ?_ hw
  rw [decodeOp_0B]
  simp (disch := omega) only [fld, fld_low, fld_high, fld_all, Nat.reduceSub]
theorem movk16 (g : Guard) (d : BitVec 5) (imm : BitVec 16) : Statement (.movk16 g d imm) := by
  intro w h hw
  cases (show some (word g 0x0C#7 (d ++ imm)) = some w from h)
  refine decodeWord_word ?_ hw
  rw [decodeOp_0C]
  simp (disch := omega) only [fld, fld_low, fld_high, fld_all, Nat.reduceSub]
theorem movk32 (g : Guard) (d : BitVec 5) (imm : BitVec 16) : Statement (.movk32 g d imm) := by
  intro w h hw
  cases (show some (word g 0x0D#7 (d ++ imm)) = some w from h)
  refine decodeWord_word ?_ hw
  rw [decodeOp_0D]
  simp (disch := omega) only [fld, fld_low, fld_high, fld_all, Nat.reduceSub]
theorem movk48 (g : Guard) (d : BitVec 5) (imm : BitVec 16) : Statement (.movk48 g d imm) := by
  intro w h hw
  cases (show some (word g 0x0E#7 (d ++ imm)) = some w from h)
  refine decodeWord_word ?_ hw
  rw [decodeOp_0E]
  simp (disch := omega) only [fld, fld_low, fld_high, fld_all, Nat.reduceSub]
theorem srrd (g : Guard) (d : BitVec 5) (sr : BitVec 4) : Statement (.srrd g d sr) := by
  intro w h hw
  cases (show some (word g 0x0F#7 (d ++ 0#12 ++ sr)) = some w from h)
  refine decodeWord_word ?_ hw
  rw [decodeOp_0F]
  simp (disch := omega) only [fld, fld_low, fld_high, fld_all, Nat.reduceSub]
  rfl
theorem srwr (g : Guard) (d : BitVec 5) (sr : BitVec 4) : Statement (.srwr g d sr) := by
  intro w h hw
  cases (show some (word g 0x10#7 (d ++ 0#12 ++ sr)) = some w from h)
  refine decodeWord_word ?_ hw
  rw [decodeOp_10]
  simp (disch := omega) only [fld, fld_low, fld_high, fld_all, Nat.reduceSub]
  rfl
theorem flgrd (g : Guard) (d : BitVec 5) : Statement (.flgrd g d) := by
  intro w h hw
  cases (show some (word g 0x11#7 (d ++ 0#16)) = some w from h)
  refine decodeWord_word ?_ hw
  rw [decodeOp_11]
  simp (disch := omega) only [fld, fld_low, fld_high, fld_all, Nat.reduceSub]
  rfl
theorem br (g : Guard) (off : BitVec 21) : Statement (.br g off) := by
  intro w h hw
  cases (show some (word g 0x20#7 (off)) = some w from h)
  refine decodeWord_word ?_ hw
  rw [decodeOp_20]
  simp (disch := omega) only [fld, fld_low, fld_high, fld_all, Nat.reduceSub]
theorem call (g : Guard) (off : BitVec 21) : Statement (.call g off) := by
  intro w h hw
  cases (show some (word g 0x21#7 (off)) = some w from h)
  refine decodeWord_word ?_ hw
  rw [decodeOp_21]
  simp (disch := omega) only [fld, fld_low, fld_high, fld_all, Nat.reduceSub]
theorem jalr (g : Guard) (d : BitVec 5) (a : BitVec 5) (imm : BitVec 11) : Statement (.jalr g d a imm) := by
  intro w h hw
  cases (show some (word g 0x22#7 (d ++ a ++ imm)) = some w from h)
  refine decodeWord_word ?_ hw
  rw [decodeOp_22]
  simp (disch := omega) only [fld, fld_low, fld_high, fld_all, Nat.reduceSub]
theorem beq (g : Guard) (a : BitVec 5) (b : BitVec 5) (off : BitVec 11) : Statement (.beq g a b off) := by
  intro w h hw
  cases (show some (word g 0x23#7 (a ++ b ++ off)) = some w from h)
  refine decodeWord_word ?_ hw
  rw [decodeOp_23]
  simp (disch := omega) only [fld, fld_low, fld_high, fld_all, Nat.reduceSub]
theorem bne (g : Guard) (a : BitVec 5) (b : BitVec 5) (off : BitVec 11) : Statement (.bne g a b off) := by
  intro w h hw
  cases (show some (word g 0x24#7 (a ++ b ++ off)) = some w from h)
  refine decodeWord_word ?_ hw
  rw [decodeOp_24]
  simp (disch := omega) only [fld, fld_low, fld_high, fld_all, Nat.reduceSub]
theorem blt (g : Guard) (a : BitVec 5) (b : BitVec 5) (off : BitVec 11) : Statement (.blt g a b off) := by
  intro w h hw
  cases (show some (word g 0x25#7 (a ++ b ++ off)) = some w from h)
  refine decodeWord_word ?_ hw
  rw [decodeOp_25]
  simp (disch := omega) only [fld, fld_low, fld_high, fld_all, Nat.reduceSub]
theorem bge (g : Guard) (a : BitVec 5) (b : BitVec 5) (off : BitVec 11) : Statement (.bge g a b off) := by
  intro w h hw
  cases (show some (word g 0x26#7 (a ++ b ++ off)) = some w from h)
  refine decodeWord_word ?_ hw
  rw [decodeOp_26]
  simp (disch := omega) only [fld, fld_low, fld_high, fld_all, Nat.reduceSub]
theorem bltu (g : Guard) (a : BitVec 5) (b : BitVec 5) (off : BitVec 11) : Statement (.bltu g a b off) := by
  intro w h hw
  cases (show some (word g 0x27#7 (a ++ b ++ off)) = some w from h)
  refine decodeWord_word ?_ hw
  rw [decodeOp_27]
  simp (disch := omega) only [fld, fld_low, fld_high, fld_all, Nat.reduceSub]
theorem bgeu (g : Guard) (a : BitVec 5) (b : BitVec 5) (off : BitVec 11) : Statement (.bgeu g a b off) := by
  intro w h hw
  cases (show some (word g 0x28#7 (a ++ b ++ off)) = some w from h)
  refine decodeWord_word ?_ hw
  rw [decodeOp_28]
  simp (disch := omega) only [fld, fld_low, fld_high, fld_all, Nat.reduceSub]
theorem cmpEq (g : Guard) (d : BitVec 3) (a : BitVec 5) (b : BitVec 5) : Statement (.cmpEq g d a b) := by
  intro w h hw
  cases (show some (word g 0x29#7 (0#2 ++ d ++ a ++ b ++ 1#6)) = some w from h)
  refine decodeWord_word ?_ hw
  rw [decodeOp_29, decodeFn29_01 (by first | rfl | (simp (disch := omega) only [fld, fld_low, fld_all]; done) | (simp (disch := omega) only [fld, fld_low, fld_all]; rfl))]
  simp (disch := omega) only [fld, fld_low, fld_high, fld_all, Nat.reduceSub]
  rfl
theorem cmpNe (g : Guard) (d : BitVec 3) (a : BitVec 5) (b : BitVec 5) : Statement (.cmpNe g d a b) := by
  intro w h hw
  cases (show some (word g 0x29#7 (0#2 ++ d ++ a ++ b ++ 2#6)) = some w from h)
  refine decodeWord_word ?_ hw
  rw [decodeOp_29, decodeFn29_02 (by first | rfl | (simp (disch := omega) only [fld, fld_low, fld_all]; done) | (simp (disch := omega) only [fld, fld_low, fld_all]; rfl))]
  simp (disch := omega) only [fld, fld_low, fld_high, fld_all, Nat.reduceSub]
  rfl
theorem cmpLt (g : Guard) (d : BitVec 3) (a : BitVec 5) (b : BitVec 5) : Statement (.cmpLt g d a b) := by
  intro w h hw
  cases (show some (word g 0x29#7 (0#2 ++ d ++ a ++ b ++ 3#6)) = some w from h)
  refine decodeWord_word ?_ hw
  rw [decodeOp_29, decodeFn29_03 (by first | rfl | (simp (disch := omega) only [fld, fld_low, fld_all]; done) | (simp (disch := omega) only [fld, fld_low, fld_all]; rfl))]
  simp (disch := omega) only [fld, fld_low, fld_high, fld_all, Nat.reduceSub]
  rfl
theorem cmpGe (g : Guard) (d : BitVec 3) (a : BitVec 5) (b : BitVec 5) : Statement (.cmpGe g d a b) := by
  intro w h hw
  cases (show some (word g 0x29#7 (0#2 ++ d ++ a ++ b ++ 4#6)) = some w from h)
  refine decodeWord_word ?_ hw
  rw [decodeOp_29, decodeFn29_04 (by first | rfl | (simp (disch := omega) only [fld, fld_low, fld_all]; done) | (simp (disch := omega) only [fld, fld_low, fld_all]; rfl))]
  simp (disch := omega) only [fld, fld_low, fld_high, fld_all, Nat.reduceSub]
  rfl
theorem cmpLtu (g : Guard) (d : BitVec 3) (a : BitVec 5) (b : BitVec 5) : Statement (.cmpLtu g d a b) := by
  intro w h hw
  cases (show some (word g 0x29#7 (0#2 ++ d ++ a ++ b ++ 5#6)) = some w from h)
  refine decodeWord_word ?_ hw
  rw [decodeOp_29, decodeFn29_05 (by first | rfl | (simp (disch := omega) only [fld, fld_low, fld_all]; done) | (simp (disch := omega) only [fld, fld_low, fld_all]; rfl))]
  simp (disch := omega) only [fld, fld_low, fld_high, fld_all, Nat.reduceSub]
  rfl
theorem cmpGeu (g : Guard) (d : BitVec 3) (a : BitVec 5) (b : BitVec 5) : Statement (.cmpGeu g d a b) := by
  intro w h hw
  cases (show some (word g 0x29#7 (0#2 ++ d ++ a ++ b ++ 6#6)) = some w from h)
  refine decodeWord_word ?_ hw
  rw [decodeOp_29, decodeFn29_06 (by first | rfl | (simp (disch := omega) only [fld, fld_low, fld_all]; done) | (simp (disch := omega) only [fld, fld_low, fld_all]; rfl))]
  simp (disch := omega) only [fld, fld_low, fld_high, fld_all, Nat.reduceSub]
  rfl
theorem cmpTst (g : Guard) (d : BitVec 3) (a : BitVec 5) (b : BitVec 5) : Statement (.cmpTst g d a b) := by
  intro w h hw
  cases (show some (word g 0x29#7 (0#2 ++ d ++ a ++ b ++ 7#6)) = some w from h)
  refine decodeWord_word ?_ hw
  rw [decodeOp_29, decodeFn29_07 (by first | rfl | (simp (disch := omega) only [fld, fld_low, fld_all]; done) | (simp (disch := omega) only [fld, fld_low, fld_all]; rfl))]
  simp (disch := omega) only [fld, fld_low, fld_high, fld_all, Nat.reduceSub]
  rfl
theorem cmpiEq (g : Guard) (d : BitVec 3) (a : BitVec 5) (imm : BitVec 11) : Statement (.cmpiEq g d a imm) := by
  intro w h hw
  cases (show some (word g 0x2A#7 (0#2 ++ d ++ a ++ imm)) = some w from h)
  refine decodeWord_word ?_ hw
  rw [decodeOp_2A]
  simp (disch := omega) only [fld, fld_low, fld_high, fld_all, Nat.reduceSub]
  rfl
theorem cmpiLt (g : Guard) (d : BitVec 3) (a : BitVec 5) (imm : BitVec 11) : Statement (.cmpiLt g d a imm) := by
  intro w h hw
  cases (show some (word g 0x2B#7 (0#2 ++ d ++ a ++ imm)) = some w from h)
  refine decodeWord_word ?_ hw
  rw [decodeOp_2B]
  simp (disch := omega) only [fld, fld_low, fld_high, fld_all, Nat.reduceSub]
  rfl
theorem cmpiLtu (g : Guard) (d : BitVec 3) (a : BitVec 5) (imm : BitVec 11) : Statement (.cmpiLtu g d a imm) := by
  intro w h hw
  cases (show some (word g 0x2C#7 (0#2 ++ d ++ a ++ imm)) = some w from h)
  refine decodeWord_word ?_ hw
  rw [decodeOp_2C]
  simp (disch := omega) only [fld, fld_low, fld_high, fld_all, Nat.reduceSub]
  rfl
theorem pand (g : Guard) (d : BitVec 3) (a : BitVec 3) (b : BitVec 3) : Statement (.pand g d a b) := by
  intro w h hw
  cases (show some (word g 0x2D#7 (0#2 ++ d ++ 0#2 ++ a ++ 0#2 ++ b ++ 1#6)) = some w from h)
  refine decodeWord_word ?_ hw
  rw [decodeOp_2D, decodeFn2D_01 (by first | rfl | (simp (disch := omega) only [fld, fld_low, fld_all]; done) | (simp (disch := omega) only [fld, fld_low, fld_all]; rfl))]
  simp (disch := omega) only [fld, fld_low, fld_high, fld_all, Nat.reduceSub]
  rfl
theorem por (g : Guard) (d : BitVec 3) (a : BitVec 3) (b : BitVec 3) : Statement (.por g d a b) := by
  intro w h hw
  cases (show some (word g 0x2D#7 (0#2 ++ d ++ 0#2 ++ a ++ 0#2 ++ b ++ 2#6)) = some w from h)
  refine decodeWord_word ?_ hw
  rw [decodeOp_2D, decodeFn2D_02 (by first | rfl | (simp (disch := omega) only [fld, fld_low, fld_all]; done) | (simp (disch := omega) only [fld, fld_low, fld_all]; rfl))]
  simp (disch := omega) only [fld, fld_low, fld_high, fld_all, Nat.reduceSub]
  rfl
theorem pxor (g : Guard) (d : BitVec 3) (a : BitVec 3) (b : BitVec 3) : Statement (.pxor g d a b) := by
  intro w h hw
  cases (show some (word g 0x2D#7 (0#2 ++ d ++ 0#2 ++ a ++ 0#2 ++ b ++ 3#6)) = some w from h)
  refine decodeWord_word ?_ hw
  rw [decodeOp_2D, decodeFn2D_03 (by first | rfl | (simp (disch := omega) only [fld, fld_low, fld_all]; done) | (simp (disch := omega) only [fld, fld_low, fld_all]; rfl))]
  simp (disch := omega) only [fld, fld_low, fld_high, fld_all, Nat.reduceSub]
  rfl
theorem pandn (g : Guard) (d : BitVec 3) (a : BitVec 3) (b : BitVec 3) : Statement (.pandn g d a b) := by
  intro w h hw
  cases (show some (word g 0x2D#7 (0#2 ++ d ++ 0#2 ++ a ++ 0#2 ++ b ++ 4#6)) = some w from h)
  refine decodeWord_word ?_ hw
  rw [decodeOp_2D, decodeFn2D_04 (by first | rfl | (simp (disch := omega) only [fld, fld_low, fld_all]; done) | (simp (disch := omega) only [fld, fld_low, fld_all]; rfl))]
  simp (disch := omega) only [fld, fld_low, fld_high, fld_all, Nat.reduceSub]
  rfl
theorem pnot (g : Guard) (d : BitVec 3) (a : BitVec 3) : Statement (.pnot g d a) := by
  intro w h hw
  cases (show some (word g 0x2D#7 (0#2 ++ d ++ 0#2 ++ a ++ 5#11)) = some w from h)
  refine decodeWord_word ?_ hw
  rw [decodeOp_2D, decodeFn2D_05 (by first | rfl | (simp (disch := omega) only [fld, fld_low, fld_all]; done) | (simp (disch := omega) only [fld, fld_low, fld_all]; rfl))]
  simp (disch := omega) only [fld, fld_low, fld_high, fld_all, Nat.reduceSub]
  rfl
theorem pmov (g : Guard) (d : BitVec 3) (a : BitVec 3) : Statement (.pmov g d a) := by
  intro w h hw
  cases (show some (word g 0x2D#7 (0#2 ++ d ++ 0#2 ++ a ++ 6#11)) = some w from h)
  refine decodeWord_word ?_ hw
  rw [decodeOp_2D, decodeFn2D_06 (by first | rfl | (simp (disch := omega) only [fld, fld_low, fld_all]; done) | (simp (disch := omega) only [fld, fld_low, fld_all]; rfl))]
  simp (disch := omega) only [fld, fld_low, fld_high, fld_all, Nat.reduceSub]
  rfl
theorem pget (g : Guard) (d : BitVec 5) : Statement (.pget g d) := by
  intro w h hw
  cases (show some (word g 0x2E#7 (d ++ 0#16)) = some w from h)
  refine decodeWord_word ?_ hw
  rw [decodeOp_2E]
  simp (disch := omega) only [fld, fld_low, fld_high, fld_all, Nat.reduceSub]
  rfl
theorem pput (g : Guard) (a : BitVec 5) : Statement (.pput g a) := by
  intro w h hw
  cases (show some (word g 0x2F#7 (0#5 ++ a ++ 0#11)) = some w from h)
  refine decodeWord_word ?_ hw
  rw [decodeOp_2F]
  simp (disch := omega) only [fld, fld_low, fld_high, fld_all, Nat.reduceSub]
  rfl
theorem ldb (g : Guard) (t : BitVec 5) (a : BitVec 5) (off : BitVec 11) : Statement (.ldb g t a off) := by
  intro w h hw
  cases (show some (word g 0x30#7 (t ++ a ++ off)) = some w from h)
  refine decodeWord_word ?_ hw
  rw [decodeOp_30]
  simp (disch := omega) only [fld, fld_low, fld_high, fld_all, Nat.reduceSub]
theorem ldbs (g : Guard) (t : BitVec 5) (a : BitVec 5) (off : BitVec 11) : Statement (.ldbs g t a off) := by
  intro w h hw
  cases (show some (word g 0x31#7 (t ++ a ++ off)) = some w from h)
  refine decodeWord_word ?_ hw
  rw [decodeOp_31]
  simp (disch := omega) only [fld, fld_low, fld_high, fld_all, Nat.reduceSub]
theorem ldh (g : Guard) (t : BitVec 5) (a : BitVec 5) (off : BitVec 11) : Statement (.ldh g t a off) := by
  intro w h hw
  cases (show some (word g 0x32#7 (t ++ a ++ off)) = some w from h)
  refine decodeWord_word ?_ hw
  rw [decodeOp_32]
  simp (disch := omega) only [fld, fld_low, fld_high, fld_all, Nat.reduceSub]
theorem ldhs (g : Guard) (t : BitVec 5) (a : BitVec 5) (off : BitVec 11) : Statement (.ldhs g t a off) := by
  intro w h hw
  cases (show some (word g 0x33#7 (t ++ a ++ off)) = some w from h)
  refine decodeWord_word ?_ hw
  rw [decodeOp_33]
  simp (disch := omega) only [fld, fld_low, fld_high, fld_all, Nat.reduceSub]
theorem ldw (g : Guard) (t : BitVec 5) (a : BitVec 5) (off : BitVec 11) : Statement (.ldw g t a off) := by
  intro w h hw
  cases (show some (word g 0x34#7 (t ++ a ++ off)) = some w from h)
  refine decodeWord_word ?_ hw
  rw [decodeOp_34]
  simp (disch := omega) only [fld, fld_low, fld_high, fld_all, Nat.reduceSub]
theorem ldws (g : Guard) (t : BitVec 5) (a : BitVec 5) (off : BitVec 11) : Statement (.ldws g t a off) := by
  intro w h hw
  cases (show some (word g 0x35#7 (t ++ a ++ off)) = some w from h)
  refine decodeWord_word ?_ hw
  rw [decodeOp_35]
  simp (disch := omega) only [fld, fld_low, fld_high, fld_all, Nat.reduceSub]
theorem ldd (g : Guard) (t : BitVec 5) (a : BitVec 5) (off : BitVec 11) : Statement (.ldd g t a off) := by
  intro w h hw
  cases (show some (word g 0x36#7 (t ++ a ++ off)) = some w from h)
  refine decodeWord_word ?_ hw
  rw [decodeOp_36]
  simp (disch := omega) only [fld, fld_low, fld_high, fld_all, Nat.reduceSub]
theorem stb (g : Guard) (t : BitVec 5) (a : BitVec 5) (off : BitVec 11) : Statement (.stb g t a off) := by
  intro w h hw
  cases (show some (word g 0x37#7 (t ++ a ++ off)) = some w from h)
  refine decodeWord_word ?_ hw
  rw [decodeOp_37]
  simp (disch := omega) only [fld, fld_low, fld_high, fld_all, Nat.reduceSub]
theorem sth (g : Guard) (t : BitVec 5) (a : BitVec 5) (off : BitVec 11) : Statement (.sth g t a off) := by
  intro w h hw
  cases (show some (word g 0x38#7 (t ++ a ++ off)) = some w from h)
  refine decodeWord_word ?_ hw
  rw [decodeOp_38]
  simp (disch := omega) only [fld, fld_low, fld_high, fld_all, Nat.reduceSub]
theorem stw (g : Guard) (t : BitVec 5) (a : BitVec 5) (off : BitVec 11) : Statement (.stw g t a off) := by
  intro w h hw
  cases (show some (word g 0x39#7 (t ++ a ++ off)) = some w from h)
  refine decodeWord_word ?_ hw
  rw [decodeOp_39]
  simp (disch := omega) only [fld, fld_low, fld_high, fld_all, Nat.reduceSub]
theorem std (g : Guard) (t : BitVec 5) (a : BitVec 5) (off : BitVec 11) : Statement (.std g t a off) := by
  intro w h hw
  cases (show some (word g 0x3A#7 (t ++ a ++ off)) = some w from h)
  refine decodeWord_word ?_ hw
  rw [decodeOp_3A]
  simp (disch := omega) only [fld, fld_low, fld_high, fld_all, Nat.reduceSub]
theorem amoSwapW (g : Guard) (t : BitVec 5) (a : BitVec 5) : Statement (.amoSwapW g t a) := by
  intro w h hw
  cases (show some (word g 0x3B#7 (t ++ a ++ 1#11)) = some w from h)
  refine decodeWord_word ?_ hw
  rw [decodeOp_3B, decodeFn3B_01 (by first | rfl | (simp (disch := omega) only [fld, fld_low, fld_all]; done) | (simp (disch := omega) only [fld, fld_low, fld_all]; rfl))]
  simp (disch := omega) only [fld, fld_low, fld_high, fld_all, Nat.reduceSub]
  rfl
theorem amoAddW (g : Guard) (t : BitVec 5) (a : BitVec 5) : Statement (.amoAddW g t a) := by
  intro w h hw
  cases (show some (word g 0x3B#7 (t ++ a ++ 2#11)) = some w from h)
  refine decodeWord_word ?_ hw
  rw [decodeOp_3B, decodeFn3B_02 (by first | rfl | (simp (disch := omega) only [fld, fld_low, fld_all]; done) | (simp (disch := omega) only [fld, fld_low, fld_all]; rfl))]
  simp (disch := omega) only [fld, fld_low, fld_high, fld_all, Nat.reduceSub]
  rfl
theorem amoAndW (g : Guard) (t : BitVec 5) (a : BitVec 5) : Statement (.amoAndW g t a) := by
  intro w h hw
  cases (show some (word g 0x3B#7 (t ++ a ++ 3#11)) = some w from h)
  refine decodeWord_word ?_ hw
  rw [decodeOp_3B, decodeFn3B_03 (by first | rfl | (simp (disch := omega) only [fld, fld_low, fld_all]; done) | (simp (disch := omega) only [fld, fld_low, fld_all]; rfl))]
  simp (disch := omega) only [fld, fld_low, fld_high, fld_all, Nat.reduceSub]
  rfl
theorem amoOrW (g : Guard) (t : BitVec 5) (a : BitVec 5) : Statement (.amoOrW g t a) := by
  intro w h hw
  cases (show some (word g 0x3B#7 (t ++ a ++ 4#11)) = some w from h)
  refine decodeWord_word ?_ hw
  rw [decodeOp_3B, decodeFn3B_04 (by first | rfl | (simp (disch := omega) only [fld, fld_low, fld_all]; done) | (simp (disch := omega) only [fld, fld_low, fld_all]; rfl))]
  simp (disch := omega) only [fld, fld_low, fld_high, fld_all, Nat.reduceSub]
  rfl
theorem amoXorW (g : Guard) (t : BitVec 5) (a : BitVec 5) : Statement (.amoXorW g t a) := by
  intro w h hw
  cases (show some (word g 0x3B#7 (t ++ a ++ 5#11)) = some w from h)
  refine decodeWord_word ?_ hw
  rw [decodeOp_3B, decodeFn3B_05 (by first | rfl | (simp (disch := omega) only [fld, fld_low, fld_all]; done) | (simp (disch := omega) only [fld, fld_low, fld_all]; rfl))]
  simp (disch := omega) only [fld, fld_low, fld_high, fld_all, Nat.reduceSub]
  rfl
theorem amoMinW (g : Guard) (t : BitVec 5) (a : BitVec 5) : Statement (.amoMinW g t a) := by
  intro w h hw
  cases (show some (word g 0x3B#7 (t ++ a ++ 6#11)) = some w from h)
  refine decodeWord_word ?_ hw
  rw [decodeOp_3B, decodeFn3B_06 (by first | rfl | (simp (disch := omega) only [fld, fld_low, fld_all]; done) | (simp (disch := omega) only [fld, fld_low, fld_all]; rfl))]
  simp (disch := omega) only [fld, fld_low, fld_high, fld_all, Nat.reduceSub]
  rfl
theorem amoMaxW (g : Guard) (t : BitVec 5) (a : BitVec 5) : Statement (.amoMaxW g t a) := by
  intro w h hw
  cases (show some (word g 0x3B#7 (t ++ a ++ 7#11)) = some w from h)
  refine decodeWord_word ?_ hw
  rw [decodeOp_3B, decodeFn3B_07 (by first | rfl | (simp (disch := omega) only [fld, fld_low, fld_all]; done) | (simp (disch := omega) only [fld, fld_low, fld_all]; rfl))]
  simp (disch := omega) only [fld, fld_low, fld_high, fld_all, Nat.reduceSub]
  rfl
theorem amoMinuW (g : Guard) (t : BitVec 5) (a : BitVec 5) : Statement (.amoMinuW g t a) := by
  intro w h hw
  cases (show some (word g 0x3B#7 (t ++ a ++ 8#11)) = some w from h)
  refine decodeWord_word ?_ hw
  rw [decodeOp_3B, decodeFn3B_08 (by first | rfl | (simp (disch := omega) only [fld, fld_low, fld_all]; done) | (simp (disch := omega) only [fld, fld_low, fld_all]; rfl))]
  simp (disch := omega) only [fld, fld_low, fld_high, fld_all, Nat.reduceSub]
  rfl
theorem amoMaxuW (g : Guard) (t : BitVec 5) (a : BitVec 5) : Statement (.amoMaxuW g t a) := by
  intro w h hw
  cases (show some (word g 0x3B#7 (t ++ a ++ 9#11)) = some w from h)
  refine decodeWord_word ?_ hw
  rw [decodeOp_3B, decodeFn3B_09 (by first | rfl | (simp (disch := omega) only [fld, fld_low, fld_all]; done) | (simp (disch := omega) only [fld, fld_low, fld_all]; rfl))]
  simp (disch := omega) only [fld, fld_low, fld_high, fld_all, Nat.reduceSub]
  rfl
theorem amoCasW (g : Guard) (t : BitVec 5) (a : BitVec 5) : Statement (.amoCasW g t a) := by
  intro w h hw
  cases (show some (word g 0x3B#7 (t ++ a ++ 10#11)) = some w from h)
  refine decodeWord_word ?_ hw
  rw [decodeOp_3B, decodeFn3B_0A (by first | rfl | (simp (disch := omega) only [fld, fld_low, fld_all]; done) | (simp (disch := omega) only [fld, fld_low, fld_all]; rfl))]
  simp (disch := omega) only [fld, fld_low, fld_high, fld_all, Nat.reduceSub]
  rfl
theorem amoSwapD (g : Guard) (t : BitVec 5) (a : BitVec 5) : Statement (.amoSwapD g t a) := by
  intro w h hw
  cases (show some (word g 0x3B#7 (t ++ a ++ 33#11)) = some w from h)
  refine decodeWord_word ?_ hw
  rw [decodeOp_3B, decodeFn3B_21 (by first | rfl | (simp (disch := omega) only [fld, fld_low, fld_all]; done) | (simp (disch := omega) only [fld, fld_low, fld_all]; rfl))]
  simp (disch := omega) only [fld, fld_low, fld_high, fld_all, Nat.reduceSub]
  rfl
theorem amoAddD (g : Guard) (t : BitVec 5) (a : BitVec 5) : Statement (.amoAddD g t a) := by
  intro w h hw
  cases (show some (word g 0x3B#7 (t ++ a ++ 34#11)) = some w from h)
  refine decodeWord_word ?_ hw
  rw [decodeOp_3B, decodeFn3B_22 (by first | rfl | (simp (disch := omega) only [fld, fld_low, fld_all]; done) | (simp (disch := omega) only [fld, fld_low, fld_all]; rfl))]
  simp (disch := omega) only [fld, fld_low, fld_high, fld_all, Nat.reduceSub]
  rfl
theorem amoAndD (g : Guard) (t : BitVec 5) (a : BitVec 5) : Statement (.amoAndD g t a) := by
  intro w h hw
  cases (show some (word g 0x3B#7 (t ++ a ++ 35#11)) = some w from h)
  refine decodeWord_word ?_ hw
  rw [decodeOp_3B, decodeFn3B_23 (by first | rfl | (simp (disch := omega) only [fld, fld_low, fld_all]; done) | (simp (disch := omega) only [fld, fld_low, fld_all]; rfl))]
  simp (disch := omega) only [fld, fld_low, fld_high, fld_all, Nat.reduceSub]
  rfl
theorem amoOrD (g : Guard) (t : BitVec 5) (a : BitVec 5) : Statement (.amoOrD g t a) := by
  intro w h hw
  cases (show some (word g 0x3B#7 (t ++ a ++ 36#11)) = some w from h)
  refine decodeWord_word ?_ hw
  rw [decodeOp_3B, decodeFn3B_24 (by first | rfl | (simp (disch := omega) only [fld, fld_low, fld_all]; done) | (simp (disch := omega) only [fld, fld_low, fld_all]; rfl))]
  simp (disch := omega) only [fld, fld_low, fld_high, fld_all, Nat.reduceSub]
  rfl
theorem amoXorD (g : Guard) (t : BitVec 5) (a : BitVec 5) : Statement (.amoXorD g t a) := by
  intro w h hw
  cases (show some (word g 0x3B#7 (t ++ a ++ 37#11)) = some w from h)
  refine decodeWord_word ?_ hw
  rw [decodeOp_3B, decodeFn3B_25 (by first | rfl | (simp (disch := omega) only [fld, fld_low, fld_all]; done) | (simp (disch := omega) only [fld, fld_low, fld_all]; rfl))]
  simp (disch := omega) only [fld, fld_low, fld_high, fld_all, Nat.reduceSub]
  rfl
theorem amoMinD (g : Guard) (t : BitVec 5) (a : BitVec 5) : Statement (.amoMinD g t a) := by
  intro w h hw
  cases (show some (word g 0x3B#7 (t ++ a ++ 38#11)) = some w from h)
  refine decodeWord_word ?_ hw
  rw [decodeOp_3B, decodeFn3B_26 (by first | rfl | (simp (disch := omega) only [fld, fld_low, fld_all]; done) | (simp (disch := omega) only [fld, fld_low, fld_all]; rfl))]
  simp (disch := omega) only [fld, fld_low, fld_high, fld_all, Nat.reduceSub]
  rfl
theorem amoMaxD (g : Guard) (t : BitVec 5) (a : BitVec 5) : Statement (.amoMaxD g t a) := by
  intro w h hw
  cases (show some (word g 0x3B#7 (t ++ a ++ 39#11)) = some w from h)
  refine decodeWord_word ?_ hw
  rw [decodeOp_3B, decodeFn3B_27 (by first | rfl | (simp (disch := omega) only [fld, fld_low, fld_all]; done) | (simp (disch := omega) only [fld, fld_low, fld_all]; rfl))]
  simp (disch := omega) only [fld, fld_low, fld_high, fld_all, Nat.reduceSub]
  rfl
theorem amoMinuD (g : Guard) (t : BitVec 5) (a : BitVec 5) : Statement (.amoMinuD g t a) := by
  intro w h hw
  cases (show some (word g 0x3B#7 (t ++ a ++ 40#11)) = some w from h)
  refine decodeWord_word ?_ hw
  rw [decodeOp_3B, decodeFn3B_28 (by first | rfl | (simp (disch := omega) only [fld, fld_low, fld_all]; done) | (simp (disch := omega) only [fld, fld_low, fld_all]; rfl))]
  simp (disch := omega) only [fld, fld_low, fld_high, fld_all, Nat.reduceSub]
  rfl
theorem amoMaxuD (g : Guard) (t : BitVec 5) (a : BitVec 5) : Statement (.amoMaxuD g t a) := by
  intro w h hw
  cases (show some (word g 0x3B#7 (t ++ a ++ 41#11)) = some w from h)
  refine decodeWord_word ?_ hw
  rw [decodeOp_3B, decodeFn3B_29 (by first | rfl | (simp (disch := omega) only [fld, fld_low, fld_all]; done) | (simp (disch := omega) only [fld, fld_low, fld_all]; rfl))]
  simp (disch := omega) only [fld, fld_low, fld_high, fld_all, Nat.reduceSub]
  rfl
theorem amoCasD (g : Guard) (t : BitVec 5) (a : BitVec 5) : Statement (.amoCasD g t a) := by
  intro w h hw
  have hw : (g.ok && decide (t ≠ 31#5)) = true := hw
  rw [Bool.and_eq_true] at hw
  cases (show some (word g 0x3B#7 (t ++ a ++ 42#11)) = some w from h)
  refine decodeWord_word ?_ hw.1
  rw [decodeOp_3B, decodeFn3B_2A (by first | rfl | (simp (disch := omega) only [fld, fld_low, fld_all]; done) | (simp (disch := omega) only [fld, fld_low, fld_all]; rfl))]
  simp (disch := omega) only [fld, fld_low, fld_high, fld_all, Nat.reduceSub]
  exact if_pos (by simpa [Instr.fieldsOk] using hw.2)
theorem vpass (g : Guard) (d : BitVec 5) (a : BitVec 5) (b : BitVec 5) : Statement (.vpass g d a b) := by
  intro w h hw
  cases (show some (word g 0x40#7 (d ++ a ++ b ++ 0#6)) = some w from h)
  refine decodeWord_word ?_ hw
  rw [decodeOp_40]
  simp (disch := omega) only [fld, fld_low, fld_high, fld_all, Nat.reduceSub]
  rfl
theorem vpassr (g : Guard) (d : BitVec 5) (a : BitVec 5) (b : BitVec 5) : Statement (.vpassr g d a b) := by
  intro w h hw
  cases (show some (word g 0x41#7 (d ++ a ++ b ++ 0#6)) = some w from h)
  refine decodeWord_word ?_ hw
  rw [decodeOp_41]
  simp (disch := omega) only [fld, fld_low, fld_high, fld_all, Nat.reduceSub]
  rfl
theorem wait (g : Guard) (ld : BitVec 5) (st : BitVec 5) (cp : BitVec 5) (tl : BitVec 5) : Statement (.wait g ld st cp tl) := by
  intro w h hw
  cases (show some (word g 0x70#7 (0#1 ++ ld ++ st ++ cp ++ tl)) = some w from h)
  refine decodeWord_word ?_ hw
  rw [decodeOp_70]
  simp (disch := omega) only [fld, fld_low, fld_high, fld_all, Nat.reduceSub]
  rfl
theorem waitAll (g : Guard) (ld : BitVec 5) (st : BitVec 5) (cp : BitVec 5) (tl : BitVec 5) : Statement (.waitAll g ld st cp tl) := by
  intro w h hw
  cases (show some (word g 0x70#7 (1#1 ++ ld ++ st ++ cp ++ tl)) = some w from h)
  refine decodeWord_word ?_ hw
  rw [decodeOp_70]
  simp (disch := omega) only [fld, fld_low, fld_high, fld_all, Nat.reduceSub]
  rfl
theorem nop (g : Guard) : Statement (.nop g) := by
  intro w h hw
  cases (show some (word g 0x71#7 (0#21)) = some w from h)
  refine decodeWord_word ?_ hw
  rw [decodeOp_71]
  simp (disch := omega) only [fld, fld_low, fld_high, fld_all, Nat.reduceSub]
  rfl
theorem endProg (g : Guard) : Statement (.endProg g) := by
  intro w h hw
  cases (show some (word g 0x7E#7 (0#21)) = some w from h)
  refine decodeWord_word ?_ hw
  rw [decodeOp_7E]
  simp (disch := omega) only [fld, fld_low, fld_high, fld_all, Nat.reduceSub]
  rfl
theorem tret (g : Guard) : Statement (.tret g) := by
  intro w h hw
  cases (show some (word g 0x7F#7 (0#21)) = some w from h)
  refine decodeWord_word ?_ hw
  rw [decodeOp_7F]
  simp (disch := omega) only [fld, fld_low, fld_high, fld_all, Nat.reduceSub]
  rfl
theorem shapeReq (g : Guard) (d : BitVec 5) (f : BitVec 1) : Statement (.shapeReq g d f) := by
  intro w h hw
  cases (show some (word g 0x42#7 (d ++ 0#15 ++ f)) = some w from h)
  refine decodeWord_word ?_ hw
  rw [decodeOp_42]
  simp (disch := omega) only [fld, fld_low, fld_high, fld_all, Nat.reduceSub]
  rfl
theorem shapeRel (g : Guard) : Statement (.shapeRel g) := by
  intro w h hw
  cases (show some (word g 0x43#7 (0#21)) = some w from h)
  refine decodeWord_word ?_ hw
  rw [decodeOp_43]
  simp (disch := omega) only [fld, fld_low, fld_high, fld_all, Nat.reduceSub]
  rfl
theorem cfgLd (g : Guard) (d : BitVec 5) (a : BitVec 5) (imm : BitVec 11) : Statement (.cfgLd g d a imm) := by
  intro w h hw
  cases (show some (word g 0x48#7 (d ++ a ++ imm)) = some w from h)
  refine decodeWord_word ?_ hw
  rw [decodeOp_48]
  simp (disch := omega) only [fld, fld_low, fld_high, fld_all, Nat.reduceSub]
theorem cfgPre (g : Guard) (d : BitVec 5) (a : BitVec 5) (imm : BitVec 11) : Statement (.cfgPre g d a imm) := by
  intro w h hw
  cases (show some (word g 0x49#7 (d ++ a ++ imm)) = some w from h)
  refine decodeWord_word ?_ hw
  rw [decodeOp_49]
  simp (disch := omega) only [fld, fld_low, fld_high, fld_all, Nat.reduceSub]
theorem cfgGo (g : Guard) (d : BitVec 5) (id : BitVec 16) : Statement (.cfgGo g d id) := by
  intro w h hw
  cases (show some (word g 0x4A#7 (d ++ id)) = some w from h)
  refine decodeWord_word ?_ hw
  rw [decodeOp_4A]
  simp (disch := omega) only [fld, fld_low, fld_high, fld_all, Nat.reduceSub]
theorem cfgWait (g : Guard) (d : BitVec 5) : Statement (.cfgWait g d) := by
  intro w h hw
  cases (show some (word g 0x4B#7 (d ++ 0#16)) = some w from h)
  refine decodeWord_word ?_ hw
  rw [decodeOp_4B]
  simp (disch := omega) only [fld, fld_low, fld_high, fld_all, Nat.reduceSub]
  rfl
theorem cfgStop (g : Guard) : Statement (.cfgStop g) := by
  intro w h hw
  cases (show some (word g 0x4C#7 (0#21)) = some w from h)
  refine decodeWord_word ?_ hw
  rw [decodeOp_4C]
  simp (disch := omega) only [fld, fld_low, fld_high, fld_all, Nat.reduceSub]
  rfl
theorem cfgDrop (g : Guard) (s : BitVec 1) : Statement (.cfgDrop g s) := by
  intro w h hw
  cases (show some (word g 0x4D#7 (0#20 ++ s)) = some w from h)
  refine decodeWord_word ?_ hw
  rw [decodeOp_4D]
  simp (disch := omega) only [fld, fld_low, fld_high, fld_all, Nat.reduceSub]
  rfl
theorem parmWr (g : Guard) (tile : BitVec 4) (a : BitVec 5) (b : BitVec 5) : Statement (.parmWr g tile a b) := by
  intro w h hw
  cases (show some (word g 0x4E#7 (0#1 ++ tile ++ a ++ b ++ 0#6)) = some w from h)
  refine decodeWord_word ?_ hw
  rw [decodeOp_4E]
  simp (disch := omega) only [fld, fld_low, fld_high, fld_all, Nat.reduceSub]
  rfl
theorem cfgStat (g : Guard) (d : BitVec 5) : Statement (.cfgStat g d) := by
  intro w h hw
  cases (show some (word g 0x4F#7 (d ++ 0#16)) = some w from h)
  refine decodeWord_word ?_ hw
  rw [decodeOp_4F]
  simp (disch := omega) only [fld, fld_low, fld_high, fld_all, Nat.reduceSub]
  rfl
theorem sqSend (g : Guard) (a : BitVec 5) (ty : BitVec 3) : Statement (.sqSend g a ty) := by
  intro w h hw
  cases (show some (word g 0x50#7 (0#5 ++ a ++ 0#2 ++ ty ++ 0#6)) = some w from h)
  refine decodeWord_word ?_ hw
  rw [decodeOp_50]
  simp (disch := omega) only [fld, fld_low, fld_high, fld_all, Nat.reduceSub]
  rfl
theorem sqSendX2 (g : Guard) (a : BitVec 5) (ty : BitVec 3) : Statement (.sqSendX2 g a ty) := by
  intro w h hw
  cases (show some (word g 0x50#7 (1#5 ++ a ++ 0#2 ++ ty ++ 0#6)) = some w from h)
  refine decodeWord_word ?_ hw
  rw [decodeOp_50]
  simp (disch := omega) only [fld, fld_low, fld_high, fld_all, Nat.reduceSub]
  rfl
theorem sqSendEoi (g : Guard) : Statement (.sqSendEoi g) := by
  intro w h hw
  cases (show some (word g 0x50#7 (131072#21)) = some w from h)
  refine decodeWord_word ?_ hw
  rw [decodeOp_50]
  simp (disch := omega) only [fld, fld_low, fld_high, fld_all, Nat.reduceSub]
  rfl
theorem sqSendEos (g : Guard) : Statement (.sqSendEos g) := by
  intro w h hw
  cases (show some (word g 0x50#7 (196608#21)) = some w from h)
  refine decodeWord_word ?_ hw
  rw [decodeOp_50]
  simp (disch := omega) only [fld, fld_low, fld_high, fld_all, Nat.reduceSub]
  rfl
theorem sqRecv (g : Guard) (d : BitVec 5) : Statement (.sqRecv g d) := by
  intro w h hw
  cases (show some (word g 0x51#7 (d ++ 0#16)) = some w from h)
  refine decodeWord_word ?_ hw
  rw [decodeOp_51]
  simp (disch := omega) only [fld, fld_low, fld_high, fld_all, Nat.reduceSub]
  rfl
theorem leaseBar (g : Guard) (id : BitVec 16) : Statement (.leaseBar g id) := by
  intro w h hw
  cases (show some (word g 0x52#7 (0#5 ++ id)) = some w from h)
  refine decodeWord_word ?_ hw
  rw [decodeOp_52]
  simp (disch := omega) only [fld, fld_low, fld_high, fld_all, Nat.reduceSub]
  rfl
theorem achOpen (g : Guard) (d : BitVec 5) (a : BitVec 5) (b : BitVec 5) : Statement (.achOpen g d a b) := by
  intro w h hw
  cases (show some (word g 0x58#7 (d ++ a ++ b ++ 0#6)) = some w from h)
  refine decodeWord_word ?_ hw
  rw [decodeOp_58]
  simp (disch := omega) only [fld, fld_low, fld_high, fld_all, Nat.reduceSub]
  rfl
theorem achJoin (g : Guard) (d : BitVec 5) (a : BitVec 5) (b : BitVec 5) : Statement (.achJoin g d a b) := by
  intro w h hw
  cases (show some (word g 0x59#7 (d ++ a ++ b ++ 0#6)) = some w from h)
  refine decodeWord_word ?_ hw
  rw [decodeOp_59]
  simp (disch := omega) only [fld, fld_low, fld_high, fld_all, Nat.reduceSub]
  rfl
theorem achWait (g : Guard) (d : BitVec 5) (cid : BitVec 4) : Statement (.achWait g d cid) := by
  intro w h hw
  cases (show some (word g 0x5A#7 (d ++ 0#12 ++ cid)) = some w from h)
  refine decodeWord_word ?_ hw
  rw [decodeOp_5A]
  simp (disch := omega) only [fld, fld_low, fld_high, fld_all, Nat.reduceSub]
  rfl
theorem achWaitJ (g : Guard) (d : BitVec 5) (slot : BitVec 4) : Statement (.achWaitJ g d slot) := by
  intro w h hw
  cases (show some (word g 0x5A#7 (d ++ 1#12 ++ slot)) = some w from h)
  refine decodeWord_word ?_ hw
  rw [decodeOp_5A]
  simp (disch := omega) only [fld, fld_low, fld_high, fld_all, Nat.reduceSub]
  rfl
theorem achClose (g : Guard) (cid : BitVec 4) : Statement (.achClose g cid) := by
  intro w h hw
  cases (show some (word g 0x5B#7 (0#17 ++ cid)) = some w from h)
  refine decodeWord_word ?_ hw
  rw [decodeOp_5B]
  simp (disch := omega) only [fld, fld_low, fld_high, fld_all, Nat.reduceSub]
  rfl
theorem achCloseJ (g : Guard) (slot : BitVec 4) : Statement (.achCloseJ g slot) := by
  intro w h hw
  cases (show some (word g 0x5B#7 (1#17 ++ slot)) = some w from h)
  refine decodeWord_word ?_ hw
  rw [decodeOp_5B]
  simp (disch := omega) only [fld, fld_low, fld_high, fld_all, Nat.reduceSub]
  rfl
theorem achAbort (g : Guard) (cid : BitVec 4) : Statement (.achAbort g cid) := by
  intro w h hw
  cases (show some (word g 0x5C#7 (0#17 ++ cid)) = some w from h)
  refine decodeWord_word ?_ hw
  rw [decodeOp_5C]
  simp (disch := omega) only [fld, fld_low, fld_high, fld_all, Nat.reduceSub]
  rfl
theorem achStat (g : Guard) (d : BitVec 5) (cid : BitVec 4) : Statement (.achStat g d cid) := by
  intro w h hw
  cases (show some (word g 0x5D#7 (d ++ 0#12 ++ cid)) = some w from h)
  refine decodeWord_word ?_ hw
  rw [decodeOp_5D]
  simp (disch := omega) only [fld, fld_low, fld_high, fld_all, Nat.reduceSub]
  rfl
theorem achStatJ (g : Guard) (d : BitVec 5) (slot : BitVec 4) : Statement (.achStatJ g d slot) := by
  intro w h hw
  cases (show some (word g 0x5D#7 (d ++ 1#12 ++ slot)) = some w from h)
  refine decodeWord_word ?_ hw
  rw [decodeOp_5D]
  simp (disch := omega) only [fld, fld_low, fld_high, fld_all, Nat.reduceSub]
  rfl
theorem cqSub (g : Guard) (d : BitVec 5) (a : BitVec 5) (b : BitVec 5) : Statement (.cqSub g d a b) := by
  intro w h hw
  cases (show some (word g 0x60#7 (d ++ a ++ b ++ 0#6)) = some w from h)
  refine decodeWord_word ?_ hw
  rw [decodeOp_60]
  simp (disch := omega) only [fld, fld_low, fld_high, fld_all, Nat.reduceSub]
  rfl
theorem cqKick (g : Guard) (a : BitVec 5) (b : BitVec 5) : Statement (.cqKick g a b) := by
  intro w h hw
  cases (show some (word g 0x61#7 (0#5 ++ a ++ b ++ 0#6)) = some w from h)
  refine decodeWord_word ?_ hw
  rw [decodeOp_61]
  simp (disch := omega) only [fld, fld_low, fld_high, fld_all, Nat.reduceSub]
  rfl
theorem cntAdd (g : Guard) (d : BitVec 5) (a : BitVec 5) (b : BitVec 5) : Statement (.cntAdd g d a b) := by
  intro w h hw
  cases (show some (word g 0x62#7 (d ++ a ++ b ++ 0#6)) = some w from h)
  refine decodeWord_word ?_ hw
  rw [decodeOp_62]
  simp (disch := omega) only [fld, fld_low, fld_high, fld_all, Nat.reduceSub]
  rfl
theorem cntWait (g : Guard) (d : BitVec 5) (a : BitVec 5) (b : BitVec 5) : Statement (.cntWait g d a b) := by
  intro w h hw
  cases (show some (word g 0x63#7 (d ++ a ++ b ++ 0#6)) = some w from h)
  refine decodeWord_word ?_ hw
  rw [decodeOp_63]
  simp (disch := omega) only [fld, fld_low, fld_high, fld_all, Nat.reduceSub]
  rfl
theorem cntRd (g : Guard) (d : BitVec 5) (a : BitVec 5) : Statement (.cntRd g d a) := by
  intro w h hw
  cases (show some (word g 0x64#7 (d ++ a ++ 0#11)) = some w from h)
  refine decodeWord_word ?_ hw
  rw [decodeOp_64]
  simp (disch := omega) only [fld, fld_low, fld_high, fld_all, Nat.reduceSub]
  rfl
theorem taskArm (g : Guard) (d : BitVec 5) : Statement (.taskArm g d) := by
  intro w h hw
  cases (show some (word g 0x65#7 (d ++ 0#16)) = some w from h)
  refine decodeWord_word ?_ hw
  rw [decodeOp_65]
  simp (disch := omega) only [fld, fld_low, fld_high, fld_all, Nat.reduceSub]
  rfl
theorem taskKill (g : Guard) (d : BitVec 5) : Statement (.taskKill g d) := by
  intro w h hw
  cases (show some (word g 0x66#7 (d ++ 0#16)) = some w from h)
  refine decodeWord_word ?_ hw
  rw [decodeOp_66]
  simp (disch := omega) only [fld, fld_low, fld_high, fld_all, Nat.reduceSub]
  rfl
theorem taskStat (g : Guard) (d : BitVec 5) : Statement (.taskStat g d) := by
  intro w h hw
  cases (show some (word g 0x67#7 (d ++ 0#16)) = some w from h)
  refine decodeWord_word ?_ hw
  rw [decodeOp_67]
  simp (disch := omega) only [fld, fld_low, fld_high, fld_all, Nat.reduceSub]
  rfl
theorem bankMode (g : Guard) (d : BitVec 5) (a : BitVec 5) (rsz : BitVec 4) (mode : BitVec 2) (k : BitVec 5) : Statement (.bankMode g d a rsz mode k) := by
  intro w h hw
  have hw : (g.ok && decide ((rsz ≠ 15#4 ∧ (mode = 2#2 ∨ rsz = 0#4)))) = true := hw
  rw [Bool.and_eq_true] at hw
  cases (show some (word g 0x68#7 (d ++ a ++ rsz ++ mode ++ k)) = some w from h)
  refine decodeWord_word ?_ hw.1
  rw [decodeOp_68]
  simp (disch := omega) only [fld, fld_low, fld_high, fld_all, Nat.reduceSub]
  exact if_pos (by simpa [Instr.fieldsOk] using hw.2)
theorem resOpen (g : Guard) (d : BitVec 5) (a : BitVec 5) (b : BitVec 5) : Statement (.resOpen g d a b) := by
  intro w h hw
  cases (show some (word g 0x69#7 (d ++ a ++ b ++ 1#6)) = some w from h)
  refine decodeWord_word ?_ hw
  rw [decodeOp_69, decodeFn69_01 (by first | rfl | (simp (disch := omega) only [fld, fld_low, fld_all]; done) | (simp (disch := omega) only [fld, fld_low, fld_all]; rfl))]
  simp (disch := omega) only [fld, fld_low, fld_high, fld_all, Nat.reduceSub]
theorem resPrio (g : Guard) (a : BitVec 5) (b : BitVec 5) : Statement (.resPrio g a b) := by
  intro w h hw
  cases (show some (word g 0x69#7 (0#5 ++ a ++ b ++ 2#6)) = some w from h)
  refine decodeWord_word ?_ hw
  rw [decodeOp_69, decodeFn69_02 (by first | rfl | (simp (disch := omega) only [fld, fld_low, fld_all]; done) | (simp (disch := omega) only [fld, fld_low, fld_all]; rfl))]
  simp (disch := omega) only [fld, fld_low, fld_high, fld_all, Nat.reduceSub]
  rfl
theorem resDrop (g : Guard) (a : BitVec 5) : Statement (.resDrop g a) := by
  intro w h hw
  cases (show some (word g 0x69#7 (0#5 ++ a ++ 3#11)) = some w from h)
  refine decodeWord_word ?_ hw
  rw [decodeOp_69, decodeFn69_03 (by first | rfl | (simp (disch := omega) only [fld, fld_low, fld_all]; done) | (simp (disch := omega) only [fld, fld_low, fld_all]; rfl))]
  simp (disch := omega) only [fld, fld_low, fld_high, fld_all, Nat.reduceSub]
  rfl
theorem amdSwapW (g : Guard) (d : BitVec 5) (a : BitVec 5) (b : BitVec 5) : Statement (.amdSwapW g d a b) := by
  intro w h hw
  cases (show some (word g 0x6A#7 (d ++ a ++ b ++ 1#6)) = some w from h)
  refine decodeWord_word ?_ hw
  rw [decodeOp_6A, decodeFn6A_01 (by first | rfl | (simp (disch := omega) only [fld, fld_low, fld_all]; done) | (simp (disch := omega) only [fld, fld_low, fld_all]; rfl))]
  simp (disch := omega) only [fld, fld_low, fld_high, fld_all, Nat.reduceSub]
theorem amdAddW (g : Guard) (d : BitVec 5) (a : BitVec 5) (b : BitVec 5) : Statement (.amdAddW g d a b) := by
  intro w h hw
  cases (show some (word g 0x6A#7 (d ++ a ++ b ++ 2#6)) = some w from h)
  refine decodeWord_word ?_ hw
  rw [decodeOp_6A, decodeFn6A_02 (by first | rfl | (simp (disch := omega) only [fld, fld_low, fld_all]; done) | (simp (disch := omega) only [fld, fld_low, fld_all]; rfl))]
  simp (disch := omega) only [fld, fld_low, fld_high, fld_all, Nat.reduceSub]
theorem amdAndW (g : Guard) (d : BitVec 5) (a : BitVec 5) (b : BitVec 5) : Statement (.amdAndW g d a b) := by
  intro w h hw
  cases (show some (word g 0x6A#7 (d ++ a ++ b ++ 3#6)) = some w from h)
  refine decodeWord_word ?_ hw
  rw [decodeOp_6A, decodeFn6A_03 (by first | rfl | (simp (disch := omega) only [fld, fld_low, fld_all]; done) | (simp (disch := omega) only [fld, fld_low, fld_all]; rfl))]
  simp (disch := omega) only [fld, fld_low, fld_high, fld_all, Nat.reduceSub]
theorem amdOrW (g : Guard) (d : BitVec 5) (a : BitVec 5) (b : BitVec 5) : Statement (.amdOrW g d a b) := by
  intro w h hw
  cases (show some (word g 0x6A#7 (d ++ a ++ b ++ 4#6)) = some w from h)
  refine decodeWord_word ?_ hw
  rw [decodeOp_6A, decodeFn6A_04 (by first | rfl | (simp (disch := omega) only [fld, fld_low, fld_all]; done) | (simp (disch := omega) only [fld, fld_low, fld_all]; rfl))]
  simp (disch := omega) only [fld, fld_low, fld_high, fld_all, Nat.reduceSub]
theorem amdXorW (g : Guard) (d : BitVec 5) (a : BitVec 5) (b : BitVec 5) : Statement (.amdXorW g d a b) := by
  intro w h hw
  cases (show some (word g 0x6A#7 (d ++ a ++ b ++ 5#6)) = some w from h)
  refine decodeWord_word ?_ hw
  rw [decodeOp_6A, decodeFn6A_05 (by first | rfl | (simp (disch := omega) only [fld, fld_low, fld_all]; done) | (simp (disch := omega) only [fld, fld_low, fld_all]; rfl))]
  simp (disch := omega) only [fld, fld_low, fld_high, fld_all, Nat.reduceSub]
theorem amdMinW (g : Guard) (d : BitVec 5) (a : BitVec 5) (b : BitVec 5) : Statement (.amdMinW g d a b) := by
  intro w h hw
  cases (show some (word g 0x6A#7 (d ++ a ++ b ++ 6#6)) = some w from h)
  refine decodeWord_word ?_ hw
  rw [decodeOp_6A, decodeFn6A_06 (by first | rfl | (simp (disch := omega) only [fld, fld_low, fld_all]; done) | (simp (disch := omega) only [fld, fld_low, fld_all]; rfl))]
  simp (disch := omega) only [fld, fld_low, fld_high, fld_all, Nat.reduceSub]
theorem amdMaxW (g : Guard) (d : BitVec 5) (a : BitVec 5) (b : BitVec 5) : Statement (.amdMaxW g d a b) := by
  intro w h hw
  cases (show some (word g 0x6A#7 (d ++ a ++ b ++ 7#6)) = some w from h)
  refine decodeWord_word ?_ hw
  rw [decodeOp_6A, decodeFn6A_07 (by first | rfl | (simp (disch := omega) only [fld, fld_low, fld_all]; done) | (simp (disch := omega) only [fld, fld_low, fld_all]; rfl))]
  simp (disch := omega) only [fld, fld_low, fld_high, fld_all, Nat.reduceSub]
theorem amdMinuW (g : Guard) (d : BitVec 5) (a : BitVec 5) (b : BitVec 5) : Statement (.amdMinuW g d a b) := by
  intro w h hw
  cases (show some (word g 0x6A#7 (d ++ a ++ b ++ 8#6)) = some w from h)
  refine decodeWord_word ?_ hw
  rw [decodeOp_6A, decodeFn6A_08 (by first | rfl | (simp (disch := omega) only [fld, fld_low, fld_all]; done) | (simp (disch := omega) only [fld, fld_low, fld_all]; rfl))]
  simp (disch := omega) only [fld, fld_low, fld_high, fld_all, Nat.reduceSub]
theorem amdMaxuW (g : Guard) (d : BitVec 5) (a : BitVec 5) (b : BitVec 5) : Statement (.amdMaxuW g d a b) := by
  intro w h hw
  cases (show some (word g 0x6A#7 (d ++ a ++ b ++ 9#6)) = some w from h)
  refine decodeWord_word ?_ hw
  rw [decodeOp_6A, decodeFn6A_09 (by first | rfl | (simp (disch := omega) only [fld, fld_low, fld_all]; done) | (simp (disch := omega) only [fld, fld_low, fld_all]; rfl))]
  simp (disch := omega) only [fld, fld_low, fld_high, fld_all, Nat.reduceSub]
theorem amdCasW (g : Guard) (d : BitVec 5) (a : BitVec 5) (b : BitVec 5) : Statement (.amdCasW g d a b) := by
  intro w h hw
  cases (show some (word g 0x6A#7 (d ++ a ++ b ++ 10#6)) = some w from h)
  refine decodeWord_word ?_ hw
  rw [decodeOp_6A, decodeFn6A_0A (by first | rfl | (simp (disch := omega) only [fld, fld_low, fld_all]; done) | (simp (disch := omega) only [fld, fld_low, fld_all]; rfl))]
  simp (disch := omega) only [fld, fld_low, fld_high, fld_all, Nat.reduceSub]
theorem amdSwapD (g : Guard) (d : BitVec 5) (a : BitVec 5) (b : BitVec 5) : Statement (.amdSwapD g d a b) := by
  intro w h hw
  cases (show some (word g 0x6A#7 (d ++ a ++ b ++ 33#6)) = some w from h)
  refine decodeWord_word ?_ hw
  rw [decodeOp_6A, decodeFn6A_21 (by first | rfl | (simp (disch := omega) only [fld, fld_low, fld_all]; done) | (simp (disch := omega) only [fld, fld_low, fld_all]; rfl))]
  simp (disch := omega) only [fld, fld_low, fld_high, fld_all, Nat.reduceSub]
theorem amdAddD (g : Guard) (d : BitVec 5) (a : BitVec 5) (b : BitVec 5) : Statement (.amdAddD g d a b) := by
  intro w h hw
  cases (show some (word g 0x6A#7 (d ++ a ++ b ++ 34#6)) = some w from h)
  refine decodeWord_word ?_ hw
  rw [decodeOp_6A, decodeFn6A_22 (by first | rfl | (simp (disch := omega) only [fld, fld_low, fld_all]; done) | (simp (disch := omega) only [fld, fld_low, fld_all]; rfl))]
  simp (disch := omega) only [fld, fld_low, fld_high, fld_all, Nat.reduceSub]
theorem amdAndD (g : Guard) (d : BitVec 5) (a : BitVec 5) (b : BitVec 5) : Statement (.amdAndD g d a b) := by
  intro w h hw
  cases (show some (word g 0x6A#7 (d ++ a ++ b ++ 35#6)) = some w from h)
  refine decodeWord_word ?_ hw
  rw [decodeOp_6A, decodeFn6A_23 (by first | rfl | (simp (disch := omega) only [fld, fld_low, fld_all]; done) | (simp (disch := omega) only [fld, fld_low, fld_all]; rfl))]
  simp (disch := omega) only [fld, fld_low, fld_high, fld_all, Nat.reduceSub]
theorem amdOrD (g : Guard) (d : BitVec 5) (a : BitVec 5) (b : BitVec 5) : Statement (.amdOrD g d a b) := by
  intro w h hw
  cases (show some (word g 0x6A#7 (d ++ a ++ b ++ 36#6)) = some w from h)
  refine decodeWord_word ?_ hw
  rw [decodeOp_6A, decodeFn6A_24 (by first | rfl | (simp (disch := omega) only [fld, fld_low, fld_all]; done) | (simp (disch := omega) only [fld, fld_low, fld_all]; rfl))]
  simp (disch := omega) only [fld, fld_low, fld_high, fld_all, Nat.reduceSub]
theorem amdXorD (g : Guard) (d : BitVec 5) (a : BitVec 5) (b : BitVec 5) : Statement (.amdXorD g d a b) := by
  intro w h hw
  cases (show some (word g 0x6A#7 (d ++ a ++ b ++ 37#6)) = some w from h)
  refine decodeWord_word ?_ hw
  rw [decodeOp_6A, decodeFn6A_25 (by first | rfl | (simp (disch := omega) only [fld, fld_low, fld_all]; done) | (simp (disch := omega) only [fld, fld_low, fld_all]; rfl))]
  simp (disch := omega) only [fld, fld_low, fld_high, fld_all, Nat.reduceSub]
theorem amdMinD (g : Guard) (d : BitVec 5) (a : BitVec 5) (b : BitVec 5) : Statement (.amdMinD g d a b) := by
  intro w h hw
  cases (show some (word g 0x6A#7 (d ++ a ++ b ++ 38#6)) = some w from h)
  refine decodeWord_word ?_ hw
  rw [decodeOp_6A, decodeFn6A_26 (by first | rfl | (simp (disch := omega) only [fld, fld_low, fld_all]; done) | (simp (disch := omega) only [fld, fld_low, fld_all]; rfl))]
  simp (disch := omega) only [fld, fld_low, fld_high, fld_all, Nat.reduceSub]
theorem amdMaxD (g : Guard) (d : BitVec 5) (a : BitVec 5) (b : BitVec 5) : Statement (.amdMaxD g d a b) := by
  intro w h hw
  cases (show some (word g 0x6A#7 (d ++ a ++ b ++ 39#6)) = some w from h)
  refine decodeWord_word ?_ hw
  rw [decodeOp_6A, decodeFn6A_27 (by first | rfl | (simp (disch := omega) only [fld, fld_low, fld_all]; done) | (simp (disch := omega) only [fld, fld_low, fld_all]; rfl))]
  simp (disch := omega) only [fld, fld_low, fld_high, fld_all, Nat.reduceSub]
theorem amdMinuD (g : Guard) (d : BitVec 5) (a : BitVec 5) (b : BitVec 5) : Statement (.amdMinuD g d a b) := by
  intro w h hw
  cases (show some (word g 0x6A#7 (d ++ a ++ b ++ 40#6)) = some w from h)
  refine decodeWord_word ?_ hw
  rw [decodeOp_6A, decodeFn6A_28 (by first | rfl | (simp (disch := omega) only [fld, fld_low, fld_all]; done) | (simp (disch := omega) only [fld, fld_low, fld_all]; rfl))]
  simp (disch := omega) only [fld, fld_low, fld_high, fld_all, Nat.reduceSub]
theorem amdMaxuD (g : Guard) (d : BitVec 5) (a : BitVec 5) (b : BitVec 5) : Statement (.amdMaxuD g d a b) := by
  intro w h hw
  cases (show some (word g 0x6A#7 (d ++ a ++ b ++ 41#6)) = some w from h)
  refine decodeWord_word ?_ hw
  rw [decodeOp_6A, decodeFn6A_29 (by first | rfl | (simp (disch := omega) only [fld, fld_low, fld_all]; done) | (simp (disch := omega) only [fld, fld_low, fld_all]; rfl))]
  simp (disch := omega) only [fld, fld_low, fld_high, fld_all, Nat.reduceSub]
theorem amdCasD (g : Guard) (d : BitVec 5) (a : BitVec 5) (b : BitVec 5) : Statement (.amdCasD g d a b) := by
  intro w h hw
  have hw : (g.ok && decide (b ≠ 31#5)) = true := hw
  rw [Bool.and_eq_true] at hw
  cases (show some (word g 0x6A#7 (d ++ a ++ b ++ 42#6)) = some w from h)
  refine decodeWord_word ?_ hw.1
  rw [decodeOp_6A, decodeFn6A_2A (by first | rfl | (simp (disch := omega) only [fld, fld_low, fld_all]; done) | (simp (disch := omega) only [fld, fld_low, fld_all]; rfl))]
  simp (disch := omega) only [fld, fld_low, fld_high, fld_all, Nat.reduceSub]
  exact if_pos (by simpa [Instr.fieldsOk] using hw.2)
theorem amdAfadd (g : Guard) (d : BitVec 5) (a : BitVec 5) (b : BitVec 5) : Statement (.amdAfadd g d a b) := by
  intro w h hw
  cases (show some (word g 0x6A#7 (d ++ a ++ b ++ 43#6)) = some w from h)
  refine decodeWord_word ?_ hw
  rw [decodeOp_6A, decodeFn6A_2B (by first | rfl | (simp (disch := omega) only [fld, fld_low, fld_all]; done) | (simp (disch := omega) only [fld, fld_low, fld_all]; rfl))]
  simp (disch := omega) only [fld, fld_low, fld_high, fld_all, Nat.reduceSub]
theorem fence (g : Guard) (scope : BitVec 3) : Statement (.fence g scope) := by
  intro w h hw
  have hw : (g.ok && decide (scope.toNat ≤ 4)) = true := hw
  rw [Bool.and_eq_true] at hw
  cases (show some (word g 0x6B#7 (0#18 ++ scope)) = some w from h)
  refine decodeWord_word ?_ hw.1
  rw [decodeOp_6B]
  simp (disch := omega) only [fld, fld_low, fld_high, fld_all, Nat.reduceSub]
  exact if_pos (by simpa [Instr.fieldsOk] using hw.2)
theorem barArr (g : Guard) (d : BitVec 5) (a : BitVec 5) : Statement (.barArr g d a) := by
  intro w h hw
  cases (show some (word g 0x6C#7 (d ++ a ++ 1#11)) = some w from h)
  refine decodeWord_word ?_ hw
  rw [decodeOp_6C, decodeFn6C_01 (by first | rfl | (simp (disch := omega) only [fld, fld_low, fld_all]; done) | (simp (disch := omega) only [fld, fld_low, fld_all]; rfl))]
  simp (disch := omega) only [fld, fld_low, fld_high, fld_all, Nat.reduceSub]
  rfl
theorem barWait (g : Guard) (d : BitVec 5) (a : BitVec 5) (b : BitVec 5) : Statement (.barWait g d a b) := by
  intro w h hw
  cases (show some (word g 0x6C#7 (d ++ a ++ b ++ 2#6)) = some w from h)
  refine decodeWord_word ?_ hw
  rw [decodeOp_6C, decodeFn6C_02 (by first | rfl | (simp (disch := omega) only [fld, fld_low, fld_all]; done) | (simp (disch := omega) only [fld, fld_low, fld_all]; rfl))]
  simp (disch := omega) only [fld, fld_low, fld_high, fld_all, Nat.reduceSub]
theorem ringHead (g : Guard) (d : BitVec 5) (a : BitVec 5) : Statement (.ringHead g d a) := by
  intro w h hw
  cases (show some (word g 0x6D#7 (d ++ a ++ 1#11)) = some w from h)
  refine decodeWord_word ?_ hw
  rw [decodeOp_6D, decodeFn6D_01 (by first | rfl | (simp (disch := omega) only [fld, fld_low, fld_all]; done) | (simp (disch := omega) only [fld, fld_low, fld_all]; rfl))]
  simp (disch := omega) only [fld, fld_low, fld_high, fld_all, Nat.reduceSub]
  rfl
theorem ringTail (g : Guard) (d : BitVec 5) (a : BitVec 5) : Statement (.ringTail g d a) := by
  intro w h hw
  cases (show some (word g 0x6D#7 (d ++ a ++ 2#11)) = some w from h)
  refine decodeWord_word ?_ hw
  rw [decodeOp_6D, decodeFn6D_02 (by first | rfl | (simp (disch := omega) only [fld, fld_low, fld_all]; done) | (simp (disch := omega) only [fld, fld_low, fld_all]; rfl))]
  simp (disch := omega) only [fld, fld_low, fld_high, fld_all, Nat.reduceSub]
  rfl
theorem ringReset (g : Guard) (d : BitVec 5) (a : BitVec 5) : Statement (.ringReset g d a) := by
  intro w h hw
  cases (show some (word g 0x6D#7 (d ++ a ++ 3#11)) = some w from h)
  refine decodeWord_word ?_ hw
  rw [decodeOp_6D, decodeFn6D_03 (by first | rfl | (simp (disch := omega) only [fld, fld_low, fld_all]; done) | (simp (disch := omega) only [fld, fld_low, fld_all]; rfl))]
  simp (disch := omega) only [fld, fld_low, fld_high, fld_all, Nat.reduceSub]
  rfl
theorem tlbInva (g : Guard) (a : BitVec 5) (b : BitVec 5) : Statement (.tlbInva g a b) := by
  intro w h hw
  cases (show some (word g 0x6E#7 (0#5 ++ a ++ b ++ 1#6)) = some w from h)
  refine decodeWord_word ?_ hw
  rw [decodeOp_6E, decodeFn6E_01 (by first | rfl | (simp (disch := omega) only [fld, fld_low, fld_all]; done) | (simp (disch := omega) only [fld, fld_low, fld_all]; rfl))]
  simp (disch := omega) only [fld, fld_low, fld_high, fld_all, Nat.reduceSub]
  rfl
theorem tlbInvs (g : Guard) (a : BitVec 5) : Statement (.tlbInvs g a) := by
  intro w h hw
  cases (show some (word g 0x6E#7 (0#5 ++ a ++ 2#11)) = some w from h)
  refine decodeWord_word ?_ hw
  rw [decodeOp_6E, decodeFn6E_02 (by first | rfl | (simp (disch := omega) only [fld, fld_low, fld_all]; done) | (simp (disch := omega) only [fld, fld_low, fld_all]; rfl))]
  simp (disch := omega) only [fld, fld_low, fld_high, fld_all, Nat.reduceSub]
  rfl
theorem tlbInvall (g : Guard) : Statement (.tlbInvall g) := by
  intro w h hw
  cases (show some (word g 0x6E#7 (3#21)) = some w from h)
  refine decodeWord_word ?_ hw
  rw [decodeOp_6E, decodeFn6E_03 (by first | rfl | (simp (disch := omega) only [fld, fld_low, fld_all]; done) | (simp (disch := omega) only [fld, fld_low, fld_all]; rfl))]
  simp (disch := omega) only [fld, fld_low, fld_high, fld_all, Nat.reduceSub]
  rfl
theorem handStk (g : Guard) (a : BitVec 5) (b : BitVec 5) : Statement (.handStk g a b) := by
  intro w h hw
  cases (show some (word g 0x6F#7 (0#5 ++ a ++ b ++ 0#6)) = some w from h)
  refine decodeWord_word ?_ hw
  rw [decodeOp_6F]
  simp (disch := omega) only [fld, fld_low, fld_high, fld_all, Nat.reduceSub]
  rfl
theorem trap (g : Guard) (code : BitVec 16) : Statement (.trap g code) := by
  intro w h hw
  cases (show some (word g 0x72#7 (0#5 ++ code)) = some w from h)
  refine decodeWord_word ?_ hw
  rw [decodeOp_72]
  simp (disch := omega) only [fld, fld_low, fld_high, fld_all, Nat.reduceSub]
  rfl
theorem yield (g : Guard) : Statement (.yield g) := by
  intro w h hw
  cases (show some (word g 0x73#7 (0#21)) = some w from h)
  refine decodeWord_word ?_ hw
  rw [decodeOp_73]
  simp (disch := omega) only [fld, fld_low, fld_high, fld_all, Nat.reduceSub]
  rfl
theorem mgr (g : Guard) (d : BitVec 5) (reg : BitVec 16) : Statement (.mgr g d reg) := by
  intro w h hw
  cases (show some (word g 0x74#7 (d ++ reg)) = some w from h)
  refine decodeWord_word ?_ hw
  rw [decodeOp_74]
  simp (disch := omega) only [fld, fld_low, fld_high, fld_all, Nat.reduceSub]
theorem mgw (g : Guard) (d : BitVec 5) (reg : BitVec 16) : Statement (.mgw g d reg) := by
  intro w h hw
  cases (show some (word g 0x75#7 (d ++ reg)) = some w from h)
  refine decodeWord_word ?_ hw
  rw [decodeOp_75]
  simp (disch := omega) only [fld, fld_low, fld_high, fld_all, Nat.reduceSub]
theorem trapEntry (c : CtxId) : Statement (.trapEntry c) := fun w h _ => nomatch (show none = some w from h)
theorem waitSatisfied (c : CtxId) : Statement (.waitSatisfied c) := fun w h _ => nomatch (show none = some w from h)
theorem spadLoadComplete (c : CtxId) (i : Nat) : Statement (.spadLoadComplete c i) := fun w h _ => nomatch (show none = some w from h)
theorem spadStoreComplete (c : CtxId) (i : Nat) : Statement (.spadStoreComplete c i) := fun w h _ => nomatch (show none = some w from h)
theorem amoComplete (c : CtxId) (i : Nat) : Statement (.amoComplete c i) := fun w h _ => nomatch (show none = some w from h)
theorem dividerComplete (core : CoreId) : Statement (.dividerComplete core) := fun w h _ => nomatch (show none = some w from h)
theorem passChainStart (core : CoreId) : Statement (.passChainStart core) := fun w h _ => nomatch (show none = some w from h)
theorem passChainComplete (core : CoreId) : Statement (.passChainComplete core) := fun w h _ => nomatch (show none = some w from h)
theorem endComplete (c : CtxId) : Statement (.endComplete c) := fun w h _ => nomatch (show none = some w from h)
theorem packetArrive (c : CtxId) (seg : Nat) (br : Nat) : Statement (.packetArrive c seg br) := fun w h _ => nomatch (show none = some w from h)
theorem laneSkipDemand (c : CtxId) (seg : Nat) (br : Nat) : Statement (.laneSkipDemand c seg br) := fun w h _ => nomatch (show none = some w from h)
theorem demandSend (c : CtxId) (k : Sink) : Statement (.demandSend c k) := fun w h _ => nomatch (show none = some w from h)
theorem demandArrive (c : CtxId) (seg : Nat) (br : Nat) : Statement (.demandArrive c seg br) := fun w h _ => nomatch (show none = some w from h)
theorem packerClose (c : CtxId) (p : Source) : Statement (.packerClose c p) := fun w h _ => nomatch (show none = some w from h)
theorem cellMarkerPass (c : CtxId) (n : Nat) : Statement (.cellMarkerPass c n) := fun w h _ => nomatch (show none = some w from h)
theorem auxTokenSend (c : CtxId) (n : Nat) : Statement (.auxTokenSend c n) := fun w h _ => nomatch (show none = some w from h)
theorem cellAdd (c : CtxId) (n : Nat) : Statement (.cellAdd c n) := fun w h _ => nomatch (show none = some w from h)
theorem cellSub (c : CtxId) (n : Nat) : Statement (.cellSub c n) := fun w h _ => nomatch (show none = some w from h)
theorem cellRsub (c : CtxId) (n : Nat) : Statement (.cellRsub c n) := fun w h _ => nomatch (show none = some w from h)
theorem cellMul (c : CtxId) (n : Nat) : Statement (.cellMul c n) := fun w h _ => nomatch (show none = some w from h)
theorem cellMulh (c : CtxId) (n : Nat) : Statement (.cellMulh c n) := fun w h _ => nomatch (show none = some w from h)
theorem cellMad (c : CtxId) (n : Nat) : Statement (.cellMad c n) := fun w h _ => nomatch (show none = some w from h)
theorem cellAdds (c : CtxId) (n : Nat) : Statement (.cellAdds c n) := fun w h _ => nomatch (show none = some w from h)
theorem cellSubs (c : CtxId) (n : Nat) : Statement (.cellSubs c n) := fun w h _ => nomatch (show none = some w from h)
theorem cellMin (c : CtxId) (n : Nat) : Statement (.cellMin c n) := fun w h _ => nomatch (show none = some w from h)
theorem cellMax (c : CtxId) (n : Nat) : Statement (.cellMax c n) := fun w h _ => nomatch (show none = some w from h)
theorem cellMinu (c : CtxId) (n : Nat) : Statement (.cellMinu c n) := fun w h _ => nomatch (show none = some w from h)
theorem cellMaxu (c : CtxId) (n : Nat) : Statement (.cellMaxu c n) := fun w h _ => nomatch (show none = some w from h)
theorem cellAbs (c : CtxId) (n : Nat) : Statement (.cellAbs c n) := fun w h _ => nomatch (show none = some w from h)
theorem cellNeg (c : CtxId) (n : Nat) : Statement (.cellNeg c n) := fun w h _ => nomatch (show none = some w from h)
theorem cellAnd (c : CtxId) (n : Nat) : Statement (.cellAnd c n) := fun w h _ => nomatch (show none = some w from h)
theorem cellOr (c : CtxId) (n : Nat) : Statement (.cellOr c n) := fun w h _ => nomatch (show none = some w from h)
theorem cellXor (c : CtxId) (n : Nat) : Statement (.cellXor c n) := fun w h _ => nomatch (show none = some w from h)
theorem cellShl (c : CtxId) (n : Nat) : Statement (.cellShl c n) := fun w h _ => nomatch (show none = some w from h)
theorem cellShr (c : CtxId) (n : Nat) : Statement (.cellShr c n) := fun w h _ => nomatch (show none = some w from h)
theorem cellSra (c : CtxId) (n : Nat) : Statement (.cellSra c n) := fun w h _ => nomatch (show none = some w from h)
theorem cellClz (c : CtxId) (n : Nat) : Statement (.cellClz c n) := fun w h _ => nomatch (show none = some w from h)
theorem cellPopc (c : CtxId) (n : Nat) : Statement (.cellPopc c n) := fun w h _ => nomatch (show none = some w from h)
theorem cellFadd (c : CtxId) (n : Nat) : Statement (.cellFadd c n) := fun w h _ => nomatch (show none = some w from h)
theorem cellFsub (c : CtxId) (n : Nat) : Statement (.cellFsub c n) := fun w h _ => nomatch (show none = some w from h)
theorem cellFmul (c : CtxId) (n : Nat) : Statement (.cellFmul c n) := fun w h _ => nomatch (show none = some w from h)
theorem cellFma (c : CtxId) (n : Nat) : Statement (.cellFma c n) := fun w h _ => nomatch (show none = some w from h)
theorem cellFms (c : CtxId) (n : Nat) : Statement (.cellFms c n) := fun w h _ => nomatch (show none = some w from h)
theorem cellFmin (c : CtxId) (n : Nat) : Statement (.cellFmin c n) := fun w h _ => nomatch (show none = some w from h)
theorem cellFmax (c : CtxId) (n : Nat) : Statement (.cellFmax c n) := fun w h _ => nomatch (show none = some w from h)
theorem cellFabs (c : CtxId) (n : Nat) : Statement (.cellFabs c n) := fun w h _ => nomatch (show none = some w from h)
theorem cellFneg (c : CtxId) (n : Nat) : Statement (.cellFneg c n) := fun w h _ => nomatch (show none = some w from h)
theorem cellScacc (c : CtxId) (n : Nat) : Statement (.cellScacc c n) := fun w h _ => nomatch (show none = some w from h)
theorem cellRcp (c : CtxId) (n : Nat) : Statement (.cellRcp c n) := fun w h _ => nomatch (show none = some w from h)
theorem cellRsq (c : CtxId) (n : Nat) : Statement (.cellRsq c n) := fun w h _ => nomatch (show none = some w from h)
theorem cellExp2 (c : CtxId) (n : Nat) : Statement (.cellExp2 c n) := fun w h _ => nomatch (show none = some w from h)
theorem cellLog2 (c : CtxId) (n : Nat) : Statement (.cellLog2 c n) := fun w h _ => nomatch (show none = some w from h)
theorem cellCmpEq (c : CtxId) (n : Nat) : Statement (.cellCmpEq c n) := fun w h _ => nomatch (show none = some w from h)
theorem cellCmpNe (c : CtxId) (n : Nat) : Statement (.cellCmpNe c n) := fun w h _ => nomatch (show none = some w from h)
theorem cellCmpLt (c : CtxId) (n : Nat) : Statement (.cellCmpLt c n) := fun w h _ => nomatch (show none = some w from h)
theorem cellCmpLe (c : CtxId) (n : Nat) : Statement (.cellCmpLe c n) := fun w h _ => nomatch (show none = some w from h)
theorem cellCmpLtu (c : CtxId) (n : Nat) : Statement (.cellCmpLtu c n) := fun w h _ => nomatch (show none = some w from h)
theorem cellCmpLeu (c : CtxId) (n : Nat) : Statement (.cellCmpLeu c n) := fun w h _ => nomatch (show none = some w from h)
theorem cellFcmpEq (c : CtxId) (n : Nat) : Statement (.cellFcmpEq c n) := fun w h _ => nomatch (show none = some w from h)
theorem cellFcmpNe (c : CtxId) (n : Nat) : Statement (.cellFcmpNe c n) := fun w h _ => nomatch (show none = some w from h)
theorem cellFcmpLt (c : CtxId) (n : Nat) : Statement (.cellFcmpLt c n) := fun w h _ => nomatch (show none = some w from h)
theorem cellFcmpLe (c : CtxId) (n : Nat) : Statement (.cellFcmpLe c n) := fun w h _ => nomatch (show none = some w from h)
theorem cellFcmpUn (c : CtxId) (n : Nat) : Statement (.cellFcmpUn c n) := fun w h _ => nomatch (show none = some w from h)
theorem cellSel (c : CtxId) (n : Nat) : Statement (.cellSel c n) := fun w h _ => nomatch (show none = some w from h)
theorem cellPand (c : CtxId) (n : Nat) : Statement (.cellPand c n) := fun w h _ => nomatch (show none = some w from h)
theorem cellPor (c : CtxId) (n : Nat) : Statement (.cellPor c n) := fun w h _ => nomatch (show none = some w from h)
theorem cellPxor (c : CtxId) (n : Nat) : Statement (.cellPxor c n) := fun w h _ => nomatch (show none = some w from h)
theorem cellPnot (c : CtxId) (n : Nat) : Statement (.cellPnot c n) := fun w h _ => nomatch (show none = some w from h)
theorem cellCvt (c : CtxId) (n : Nat) : Statement (.cellCvt c n) := fun w h _ => nomatch (show none = some w from h)
theorem cellRadd (c : CtxId) (n : Nat) : Statement (.cellRadd c n) := fun w h _ => nomatch (show none = some w from h)
theorem cellRmin (c : CtxId) (n : Nat) : Statement (.cellRmin c n) := fun w h _ => nomatch (show none = some w from h)
theorem cellRmax (c : CtxId) (n : Nat) : Statement (.cellRmax c n) := fun w h _ => nomatch (show none = some w from h)
theorem cellRfadd (c : CtxId) (n : Nat) : Statement (.cellRfadd c n) := fun w h _ => nomatch (show none = some w from h)
theorem cellRfmin (c : CtxId) (n : Nat) : Statement (.cellRfmin c n) := fun w h _ => nomatch (show none = some w from h)
theorem cellRfmax (c : CtxId) (n : Nat) : Statement (.cellRfmax c n) := fun w h _ => nomatch (show none = some w from h)
theorem cellMov (c : CtxId) (n : Nat) : Statement (.cellMov c n) := fun w h _ => nomatch (show none = some w from h)
theorem cellMerge (c : CtxId) (n : Nat) : Statement (.cellMerge c n) := fun w h _ => nomatch (show none = some w from h)
theorem cellSplit (c : CtxId) (n : Nat) : Statement (.cellSplit c n) := fun w h _ => nomatch (show none = some w from h)
theorem cellDup (c : CtxId) (n : Nat) : Statement (.cellDup c n) := fun w h _ => nomatch (show none = some w from h)
theorem cellGate (c : CtxId) (n : Nat) : Statement (.cellGate c n) := fun w h _ => nomatch (show none = some w from h)
theorem cellSteer (c : CtxId) (n : Nat) : Statement (.cellSteer c n) := fun w h _ => nomatch (show none = some w from h)
theorem cellSink (c : CtxId) (n : Nat) : Statement (.cellSink c n) := fun w h _ => nomatch (show none = some w from h)
theorem cellConst (c : CtxId) (n : Nat) : Statement (.cellConst c n) := fun w h _ => nomatch (show none = some w from h)
theorem cellMkins (c : CtxId) (n : Nat) : Statement (.cellMkins c n) := fun w h _ => nomatch (show none = some w from h)
theorem cellLd (c : CtxId) (n : Nat) : Statement (.cellLd c n) := fun w h _ => nomatch (show none = some w from h)
theorem cellSt (c : CtxId) (n : Nat) : Statement (.cellSt c n) := fun w h _ => nomatch (show none = some w from h)
theorem cellAmoAdd (c : CtxId) (n : Nat) : Statement (.cellAmoAdd c n) := fun w h _ => nomatch (show none = some w from h)
theorem cellAmoMin (c : CtxId) (n : Nat) : Statement (.cellAmoMin c n) := fun w h _ => nomatch (show none = some w from h)
theorem cellAmoMax (c : CtxId) (n : Nat) : Statement (.cellAmoMax c n) := fun w h _ => nomatch (show none = some w from h)
theorem cellAmoSwap (c : CtxId) (n : Nat) : Statement (.cellAmoSwap c n) := fun w h _ => nomatch (show none = some w from h)
theorem cellAmoAfadd (c : CtxId) (n : Nat) : Statement (.cellAmoAfadd c n) := fun w h _ => nomatch (show none = some w from h)
theorem cellOrdj (c : CtxId) (n : Nat) : Statement (.cellOrdj c n) := fun w h _ => nomatch (show none = some w from h)
theorem cellSpawn (c : CtxId) (n : Nat) : Statement (.cellSpawn c n) := fun w h _ => nomatch (show none = some w from h)
theorem spawnReply (c : CtxId) (n : Nat) : Statement (.spawnReply c n) := fun w h _ => nomatch (show none = some w from h)
theorem cellCpy (c : CtxId) (n : Nat) : Statement (.cellCpy c n) := fun w h _ => nomatch (show none = some w from h)
theorem cellAcput (c : CtxId) (n : Nat) : Statement (.cellAcput c n) := fun w h _ => nomatch (show none = some w from h)
theorem memAccessEffect (c : CtxId) (n : Nat) : Statement (.memAccessEffect c n) := fun w h _ => nomatch (show none = some w from h)
theorem agTileStart (c : CtxId) (n : Nat) : Statement (.agTileStart c n) := fun w h _ => nomatch (show none = some w from h)
theorem agReadEmit (c : CtxId) (n : Nat) : Statement (.agReadEmit c n) := fun w h _ => nomatch (show none = some w from h)
theorem agWriteConsume (c : CtxId) (n : Nat) : Statement (.agWriteConsume c n) := fun w h _ => nomatch (show none = some w from h)
theorem agGather (c : CtxId) (n : Nat) : Statement (.agGather c n) := fun w h _ => nomatch (show none = some w from h)
theorem agTileEnd (c : CtxId) (n : Nat) : Statement (.agTileEnd c n) := fun w h _ => nomatch (show none = some w from h)
theorem dmReadReturn (c : CtxId) (n : Nat) : Statement (.dmReadReturn c n) := fun w h _ => nomatch (show none = some w from h)
theorem queuePush (c : CtxId) (n : Nat) : Statement (.queuePush c n) := fun w h _ => nomatch (show none = some w from h)
theorem queuePop (c : CtxId) (n : Nat) : Statement (.queuePop c n) := fun w h _ => nomatch (show none = some w from h)
theorem spillWrite (c : CtxId) (k : Nat) : Statement (.spillWrite c k) := fun w h _ => nomatch (show none = some w from h)
theorem ringRefill (c : CtxId) (k : Nat) : Statement (.ringRefill c k) := fun w h _ => nomatch (show none = some w from h)
theorem loadStart (lid : Nat) : Statement (.loadStart lid) := fun w h _ => nomatch (show none = some w from h)
theorem loadEnd (c : CtxId) : Statement (.loadEnd c) := fun w h _ => nomatch (show none = some w from h)
theorem quantumExpire (lid : Nat) : Statement (.quantumExpire lid) := fun w h _ => nomatch (show none = some w from h)
theorem loadStop (lid : Nat) : Statement (.loadStop lid) := fun w h _ => nomatch (show none = some w from h)
theorem leaseBreak (lid : Nat) : Statement (.leaseBreak lid) := fun w h _ => nomatch (show none = some w from h)
theorem collectiveAbandon (lid : Nat) : Statement (.collectiveAbandon lid) := fun w h _ => nomatch (show none = some w from h)
theorem leaseBarRelease (lid : Nat) : Statement (.leaseBarRelease lid) := fun w h _ => nomatch (show none = some w from h)
theorem cfgLdComplete (c : CtxId) : Statement (.cfgLdComplete c) := fun w h _ => nomatch (show none = some w from h)
theorem cfgPreComplete (c : CtxId) : Statement (.cfgPreComplete c) := fun w h _ => nomatch (show none = some w from h)
theorem configStoreEcc (c : CtxId) (unit : Nat) : Statement (.configStoreEcc c unit) := fun w h _ => nomatch (show none = some w from h)
theorem shapeGrant (core : CoreId) : Statement (.shapeGrant core) := fun w h _ => nomatch (show none = some w from h)
theorem shapeReleaseDone (c : CtxId) : Statement (.shapeReleaseDone c) := fun w h _ => nomatch (show none = some w from h)
theorem mnMm (c : CtxId) : Statement (.mnMm c) := fun w h _ => nomatch (show none = some w from h)
theorem mnMv (c : CtxId) : Statement (.mnMv c) := fun w h _ => nomatch (show none = some w from h)
theorem mnGatherA (c : CtxId) : Statement (.mnGatherA c) := fun w h _ => nomatch (show none = some w from h)
theorem mnTload (c : CtxId) : Statement (.mnTload c) := fun w h _ => nomatch (show none = some w from h)
theorem mnZero (c : CtxId) : Statement (.mnZero c) := fun w h _ => nomatch (show none = some w from h)
theorem mnDrain (c : CtxId) : Statement (.mnDrain c) := fun w h _ => nomatch (show none = some w from h)
theorem mnAcsend (c : CtxId) : Statement (.mnAcsend c) := fun w h _ => nomatch (show none = some w from h)
theorem mnCommandStart (c : CtxId) (i : Nat) : Statement (.mnCommandStart c i) := fun w h _ => nomatch (show none = some w from h)
theorem mnCommandComplete (c : CtxId) (i : Nat) : Statement (.mnCommandComplete c i) := fun w h _ => nomatch (show none = some w from h)
theorem mnCtlEos (c : CtxId) : Statement (.mnCtlEos c) := fun w h _ => nomatch (show none = some w from h)
theorem acnBlockSend (c : CtxId) (slot : Nat) : Statement (.acnBlockSend c slot) := fun w h _ => nomatch (show none = some w from h)
theorem acnBlockArrive (i : Nat) : Statement (.acnBlockArrive i) := fun w h _ => nomatch (show none = some w from h)
theorem acnBlockAdd (core : CoreId) (cid : Nat) : Statement (.acnBlockAdd core cid) := fun w h _ => nomatch (show none = some w from h)
theorem acnCreditReturn (i : Nat) : Statement (.acnCreditReturn i) := fun w h _ => nomatch (show none = some w from h)
theorem acnJoinRequest (i : Nat) : Statement (.acnJoinRequest i) := fun w h _ => nomatch (show none = some w from h)
theorem acnJoinReply (i : Nat) : Statement (.acnJoinReply i) := fun w h _ => nomatch (show none = some w from h)
theorem acnFinalise (core : CoreId) (cid : Nat) : Statement (.acnFinalise core cid) := fun w h _ => nomatch (show none = some w from h)
theorem chainComplete (core : CoreId) (cid : Nat) : Statement (.chainComplete core cid) := fun w h _ => nomatch (show none = some w from h)
theorem acnDoneEos (c : CtxId) : Statement (.acnDoneEos c) := fun w h _ => nomatch (show none = some w from h)
theorem acnAbortNotice (i : Nat) : Statement (.acnAbortNotice i) := fun w h _ => nomatch (show none = some w from h)
theorem acnRefusal (i : Nat) : Statement (.acnRefusal i) := fun w h _ => nomatch (show none = some w from h)
theorem bankZeroDone (core : CoreId) (bank : Nat) : Statement (.bankZeroDone core bank) := fun w h _ => nomatch (show none = some w from h)
theorem l2WayConvert (die : Nat) (slice : Nat) : Statement (.l2WayConvert die slice) := fun w h _ => nomatch (show none = some w from h)
theorem homeSliceRead (i : Nat) : Statement (.homeSliceRead i) := fun w h _ => nomatch (show none = some w from h)
theorem homeSliceWrite (i : Nat) : Statement (.homeSliceWrite i) := fun w h _ => nomatch (show none = some w from h)
theorem l2Fill (die : Nat) (pa : Nat) (handle : Nat) : Statement (.l2Fill die pa handle) := fun w h _ => nomatch (show none = some w from h)
theorem channelRequest (i : Nat) : Statement (.channelRequest i) := fun w h _ => nomatch (show none = some w from h)
theorem cacheLayerFill (die : Nat) (pa : Nat) (handle : Nat) : Statement (.cacheLayerFill die pa handle) := fun w h _ => nomatch (show none = some w from h)
theorem meshArbitration (core : CoreId) (port : Nat) : Statement (.meshArbitration core port) := fun w h _ => nomatch (show none = some w from h)
theorem flitCrcRetry (core : CoreId) (side : Nat) (acn : Bool) (good : Bool) : Statement (.flitCrcRetry core side acn good) := fun w h _ => nomatch (show none = some w from h)
theorem pageWalk (die : Nat) (asid : Nat) (va : Nat) : Statement (.pageWalk die asid va) := fun w h _ => nomatch (show none = some w from h)
theorem replayRetry (die : Nat) (i : Nat) : Statement (.replayRetry die i) := fun w h _ => nomatch (show none = some w from h)
theorem replayRelease (die : Nat) (asid : Nat) (va : Nat) : Statement (.replayRelease die asid va) := fun w h _ => nomatch (show none = some w from h)
theorem counterReread (c : CtxId) : Statement (.counterReread c) := fun w h _ => nomatch (show none = some w from h)
theorem barrierReleaseMsg (c : CtxId) : Statement (.barrierReleaseMsg c) := fun w h _ => nomatch (show none = some w from h)
theorem cePacketIntake (core : CoreId) : Statement (.cePacketIntake core) := fun w h _ => nomatch (show none = some w from h)
theorem cePacketStart (core : CoreId) (i : Nat) : Statement (.cePacketStart core i) := fun w h _ => nomatch (show none = some w from h)
theorem ceCopy (core : CoreId) (i : Nat) : Statement (.ceCopy core i) := fun w h _ => nomatch (show none = some w from h)
theorem ceCopy2d (core : CoreId) (i : Nat) : Statement (.ceCopy2d core i) := fun w h _ => nomatch (show none = some w from h)
theorem ceCopy4d (core : CoreId) (i : Nat) : Statement (.ceCopy4d core i) := fun w h _ => nomatch (show none = some w from h)
theorem ceFill (core : CoreId) (i : Nat) : Statement (.ceFill core i) := fun w h _ => nomatch (show none = some w from h)
theorem ceGather (core : CoreId) (i : Nat) : Statement (.ceGather core i) := fun w h _ => nomatch (show none = some w from h)
theorem ceScatter (core : CoreId) (i : Nat) : Statement (.ceScatter core i) := fun w h _ => nomatch (show none = some w from h)
theorem ceMcast (core : CoreId) (i : Nat) : Statement (.ceMcast core i) := fun w h _ => nomatch (show none = some w from h)
theorem ceCadd (core : CoreId) (i : Nat) : Statement (.ceCadd core i) := fun w h _ => nomatch (show none = some w from h)
theorem ceTaskarm (core : CoreId) (i : Nat) : Statement (.ceTaskarm core i) := fun w h _ => nomatch (show none = some w from h)
theorem ceLaunch (core : CoreId) (i : Nat) : Statement (.ceLaunch core i) := fun w h _ => nomatch (show none = some w from h)
theorem ceSignal (core : CoreId) (i : Nat) : Statement (.ceSignal core i) := fun w h _ => nomatch (show none = some w from h)
theorem cePull (core : CoreId) (i : Nat) : Statement (.cePull core i) := fun w h _ => nomatch (show none = some w from h)
theorem cePacketComplete (core : CoreId) (i : Nat) : Statement (.cePacketComplete core i) := fun w h _ => nomatch (show none = some w from h)
theorem ceDoneEos (c : CtxId) : Statement (.ceDoneEos c) := fun w h _ => nomatch (show none = some w from h)
theorem kickNoticeArrive (i : Nat) : Statement (.kickNoticeArrive i) := fun w h _ => nomatch (show none = some w from h)
theorem kickNoticeResend (i : Nat) : Statement (.kickNoticeResend i) := fun w h _ => nomatch (show none = some w from h)
theorem pullAck (i : Nat) : Statement (.pullAck i) := fun w h _ => nomatch (show none = some w from h)
theorem queueSlotTake (q : Nat) : Statement (.queueSlotTake q) := fun w h _ => nomatch (show none = some w from h)
theorem queueError (q : Nat) : Statement (.queueError q) := fun w h _ => nomatch (show none = some w from h)
theorem queueRestart (q : Nat) : Statement (.queueRestart q) := fun w h _ => nomatch (show none = some w from h)
theorem taskCompletionReport (i : Nat) : Statement (.taskCompletionReport i) := fun w h _ => nomatch (show none = some w from h)
theorem taskFaultReport (i : Nat) : Statement (.taskFaultReport i) := fun w h _ => nomatch (show none = some w from h)
theorem taskPush (i : Nat) : Statement (.taskPush i) := fun w h _ => nomatch (show none = some w from h)
theorem distributorSelect : Statement (.distributorSelect ) := fun w h _ => nomatch (show none = some w from h)
theorem launchDependenceMet (q : Nat) : Statement (.launchDependenceMet q) := fun w h _ => nomatch (show none = some w from h)
theorem ostlerPlacement : Statement (.ostlerPlacement ) := fun w h _ => nomatch (show none = some w from h)
theorem spawnPlace : Statement (.spawnPlace ) := fun w h _ => nomatch (show none = some w from h)
theorem contextRelease (c : CtxId) : Statement (.contextRelease c) := fun w h _ => nomatch (show none = some w from h)
theorem launchComplete (lid : Nat) : Statement (.launchComplete lid) := fun w h _ => nomatch (show none = some w from h)
theorem launchFault (lid : Nat) : Statement (.launchFault lid) := fun w h _ => nomatch (show none = some w from h)
theorem schedulerTurnEnd (lid : Nat) : Statement (.schedulerTurnEnd lid) := fun w h _ => nomatch (show none = some w from h)
theorem compaction : Statement (.compaction ) := fun w h _ => nomatch (show none = some w from h)
theorem relocation (lid : Nat) : Statement (.relocation lid) := fun w h _ => nomatch (show none = some w from h)
theorem relocationPairCopy (lid : Nat) (k : Nat) : Statement (.relocationPairCopy lid k) := fun w h _ => nomatch (show none = some w from h)
theorem relocationAbandon (lid : Nat) : Statement (.relocationAbandon lid) := fun w h _ => nomatch (show none = some w from h)
theorem contextGated (c : CtxId) : Statement (.contextGated c) := fun w h _ => nomatch (show none = some w from h)
theorem ctxcGate (c : CtxId) : Statement (.ctxcGate c) := fun w h _ => nomatch (show none = some w from h)
theorem ctxcUngate (c : CtxId) : Statement (.ctxcUngate c) := fun w h _ => nomatch (show none = some w from h)
theorem ctxcDestroy (c : CtxId) : Statement (.ctxcDestroy c) := fun w h _ => nomatch (show none = some w from h)
theorem ctxcRelease (c : CtxId) : Statement (.ctxcRelease c) := fun w h _ => nomatch (show none = some w from h)
theorem ostevEvict (lid : Nat) : Statement (.ostevEvict lid) := fun w h _ => nomatch (show none = some w from h)
theorem ostevRestore (lid : Nat) : Statement (.ostevRestore lid) := fun w h _ => nomatch (show none = some w from h)
theorem ostcmdGo : Statement (.ostcmdGo ) := fun w h _ => nomatch (show none = some w from h)
theorem trstGo (t : Nat) : Statement (.trstGo t) := fun w h _ => nomatch (show none = some w from h)
theorem ttabWrite (stack : Nat) (h : Nat) (v : BitVec 64) : Statement (.ttabWrite stack h v) := fun w h _ => nomatch (show none = some w from h)
theorem tlogWrite (stack : Nat) : Statement (.tlogWrite stack) := fun w h _ => nomatch (show none = some w from h)
theorem fwlogWrite : Statement (.fwlogWrite ) := fun w h _ => nomatch (show none = some w from h)
theorem evlostWrite : Statement (.evlostWrite ) := fun w h _ => nomatch (show none = some w from h)
theorem wdrWrite (y : Nat) (v : BitVec 64) : Statement (.wdrWrite y v) := fun w h _ => nomatch (show none = some w from h)
theorem l2remwWrite (die : Nat) (v : BitVec 64) : Statement (.l2remwWrite die v) := fun w h _ => nomatch (show none = some w from h)
theorem asidoWrite (a : Nat) (v : BitVec 64) : Statement (.asidoWrite a v) := fun w h _ => nomatch (show none = some w from h)
theorem lqcfgWrite (q : Nat) (v : BitVec 64) : Statement (.lqcfgWrite q v) := fun w h _ => nomatch (show none = some w from h)
theorem ceqWrite (core : CoreId) (n : Nat) (v : BitVec 64) : Statement (.ceqWrite core n v) := fun w h _ => nomatch (show none = some w from h)
theorem mlogtWrite (t : Nat) (v : BitVec 64) : Statement (.mlogtWrite t v) := fun w h _ => nomatch (show none = some w from h)
theorem registerWrite (n : Nat) (v : BitVec 64) : Statement (.registerWrite n v) := fun w h _ => nomatch (show none = some w from h)
theorem powerInterval (core hbm : Nat) (peak : List Nat) : Statement (.powerInterval core hbm peak) := fun w h _ => nomatch (show none = some w from h)
theorem clkLower (mhz : Nat) : Statement (.clkLower mhz) := fun w h _ => nomatch (show none = some w from h)
theorem clkRestore : Statement (.clkRestore ) := fun w h _ => nomatch (show none = some w from h)
theorem queueParityError (c : CtxId) (buf : Buf) (lasting : Bool) : Statement (.queueParityError c buf lasting) := fun w h _ => nomatch (show none = some w from h)
theorem eccDoubleRetry (w : EccWord) (clean : Bool) (lasting : Bool) : Statement (.eccDoubleRetry w clean lasting) := fun w h _ => nomatch (show none = some w from h)
theorem stackHandOver (stack : Nat) : Statement (.stackHandOver stack) := fun w h _ => nomatch (show none = some w from h)
theorem ucieModuleFail (seam : Nat) : Statement (.ucieModuleFail seam) := fun w h _ => nomatch (show none = some w from h)
theorem jexlinkTrain (port : Nat) : Statement (.jexlinkTrain port) := fun w h _ => nomatch (show none = some w from h)
theorem jexlinkKeyRenew (port : Nat) : Statement (.jexlinkKeyRenew port) := fun w h _ => nomatch (show none = some w from h)
theorem jexlinkLinkFail (port : Nat) : Statement (.jexlinkLinkFail port) := fun w h _ => nomatch (show none = some w from h)
theorem jexlinkRequest (q : PeerReq) : Statement (.jexlinkRequest q) := fun w h _ => nomatch (show none = some w from h)
theorem remoteStoreAck (i : Nat) : Statement (.remoteStoreAck i) := fun w h _ => nomatch (show none = some w from h)
theorem remoteStoreLost (i : Nat) : Statement (.remoteStoreLost i) := fun w h _ => nomatch (show none = some w from h)
theorem remoteReadTimeout (core : CoreId) (i : Nat) : Statement (.remoteReadTimeout core i) := fun w h _ => nomatch (show none = some w from h)
theorem apertureRead (f : Nat) (off : Nat) (len : Nat) (tbit : Option Nat) : Statement (.apertureRead f off len tbit) := fun w h _ => nomatch (show none = some w from h)
theorem apertureWrite (f : Nat) (off : Nat) (bytes : List (BitVec 8)) (tbit : Option Nat) : Statement (.apertureWrite f off bytes tbit) := fun w h _ => nomatch (show none = some w from h)
theorem apertureFetchadd (f : Nat) (off : Nat) (v : BitVec 64) (tbit : Option Nat) : Statement (.apertureFetchadd f off v tbit) := fun w h _ => nomatch (show none = some w from h)
theorem apertureSwap (f : Nat) (off : Nat) (v : BitVec 64) (tbit : Option Nat) : Statement (.apertureSwap f off v tbit) := fun w h _ => nomatch (show none = some w from h)
theorem apertureCas (f : Nat) (off : Nat) (expect : BitVec 64) (v : BitVec 64) (tbit : Option Nat) : Statement (.apertureCas f off expect v tbit) := fun w h _ => nomatch (show none = some w from h)
theorem bar0RegisterAccess (f : Nat) (off : Nat) (wr : Option (BitVec 64)) (tbit : Option Nat) : Statement (.bar0RegisterAccess f off wr tbit) := fun w h _ => nomatch (show none = some w from h)
theorem msixInterrupt (f : Nat) (vec : Nat) : Statement (.msixInterrupt f vec) := fun w h _ => nomatch (show none = some w from h)
theorem vfEnableClear : Statement (.vfEnableClear ) := fun w h _ => nomatch (show none = some w from h)
theorem spdmRequest (q : SpdmReq) (data : List (BitVec 8)) : Statement (.spdmRequest q data) := fun w h _ => nomatch (show none = some w from h)
theorem lockInterfaceRequest (t : Nat) (stream : Nat) : Statement (.lockInterfaceRequest t stream) := fun w h _ => nomatch (show none = some w from h)
theorem startInterfaceRequest (t : Nat) : Statement (.startInterfaceRequest t) := fun w h _ => nomatch (show none = some w from h)
theorem stopInterfaceRequest (t : Nat) : Statement (.stopInterfaceRequest t) := fun w h _ => nomatch (show none = some w from h)
theorem getDeviceInterfaceReport (t : Nat) : Statement (.getDeviceInterfaceReport t) := fun w h _ => nomatch (show none = some w from h)
theorem tdispError (t : Nat) (cause : Nat) (whereAt : Nat) : Statement (.tdispError t cause whereAt) := fun w h _ => nomatch (show none = some w from h)
theorem functionLevelReset (f : Nat) : Statement (.functionLevelReset f) := fun w h _ => nomatch (show none = some w from h)
theorem ideStreamFault (stream : Nat) : Statement (.ideStreamFault stream) := fun w h _ => nomatch (show none = some w from h)
theorem thermalEvent (die : Nat) (temp : Nat) : Statement (.thermalEvent die temp) := fun w h _ => nomatch (show none = some w from h)
theorem thermalTrip (die : Nat) (temp : Nat) : Statement (.thermalTrip die temp) := fun w h _ => nomatch (show none = some w from h)
theorem deviceReset : Statement (.deviceReset ) := fun w h _ => nomatch (show none = some w from h)
theorem bootStageComplete (imgs : List FwImage) (trained : Bool) : Statement (.bootStageComplete imgs trained) := fun w h _ => nomatch (show none = some w from h)
theorem deviceResponse (i : Nat) : Statement (.deviceResponse i) := fun w h _ => nomatch (show none = some w from h)
theorem launchImagePlaced (lid : Nat) : Statement (.launchImagePlaced lid) := fun w h _ => nomatch (show none = some w from h)
theorem vfEnableSet (t : Nat) : Statement (.vfEnableSet t) := fun w h _ => nomatch (show none = some w from h)
theorem configSpaceWrite (t : Nat) (off : Nat) (v : BitVec 8) : Statement (.configSpaceWrite t off v) := fun w h _ => nomatch (show none = some w from h)
theorem msixVectorUnmask (f : Nat) (vec : Nat) : Statement (.msixVectorUnmask f vec) := fun w h _ => nomatch (show none = some w from h)
theorem powerLoss : Statement (.powerLoss ) := fun w h _ => nomatch (show none = some w from h)
theorem thermalRearm (die : Nat) (temp : Nat) : Statement (.thermalRearm die temp) := fun w h _ => nomatch (show none = some w from h)

end Laws.Codec

end Sys2Proof
end

