-- ==== Sys2Proof/Laws/Spad.lean ====
section
/-! SUPPORT. What the scratchpad's operations can do, each said once: the checks at issue, the issue of loads, stores and atomics, and a write. -/

namespace Sys2Proof.Machine

/-- An aligned access of at most eight bytes lies in one bank. -/
theorem bankIx_last {a n : Nat} (hn : n = 1 ∨ n = 2 ∨ n = 4 ∨ n = 8) (ha : a % n = 0) : bankIx (a + n - 1) = bankIx a := by
  unfold bankIx; rcases hn with rfl | rfl | rfl | rfl <;> omega

/-- An aligned access of at most eight bytes lies in one 8-byte word. -/
theorem word_last {a n : Nat} (hn : n = 1 ∨ n = 2 ∨ n = 4 ∨ n = 8) (ha : a % n = 0) : (a + n - 1) / 8 = a / 8 := by
  rcases hn with rfl | rfl | rfl | rfl <;> omega

/-- An access that every check passes has no fault at issue. -/
theorem State.spadFault_ok {s : State} {c : CtxId} {ea : W64} {n u : Nat} (hn : n = 1 ∨ n = 2 ∨ n = 4 ∨ n = 8) (h : s.SpadOk c ea.toNat n) :
    s.spadFault c ea n n u = none := by
  obtain ⟨h1, h2, h3, h4, _⟩ := h
  have hb : (s.ctx c).badBank ea.toNat n = none := by
    unfold Ctx.badBank
    rw [bankIx_last hn h1]
    obtain ⟨b, hb, hm⟩ := Option.map_eq_some_iff.mp h3
    have e : (s.ctx c).bank? (bankIx ea.toNat) = some b := hb
    simp [List.range_succ, e, hm]
  have hl : ¬ ((s.ctx c).budget < ea.toNat + n) := by unfold Ctx.budget; omega
  simp [State.spadFault, h1, hb, h4, hl]

/-- An access that every check passes touches no word with an uncorrectable error. -/
theorem State.spadEcc_ok {s : State} {c : CtxId} {a n : Nat} {w : Bool} (hn : n = 1 ∨ n = 2 ∨ n = 4 ∨ n = 8) (h : s.SpadOk c a n) :
    s.spadEcc c a n w = none := by
  obtain ⟨h1, _, _, _, h5⟩ := h
  unfold State.spadEcc
  rw [word_last hn h1]
  simp at h5
  simp [List.range_succ, h5]

/-- The effective address of the MEM format as the manual's unbounded arithmetic gives it (R57). -/
theorem effAddr_eq (b : W64) (n : Nat) (off : BitVec 11) : effAddr b n off = b + BitVec.ofInt 64 (n * off.toInt) := by
  unfold effAddr
  rw [BitVec.ofInt_mul, BitVec.ofInt_natCast]
  rfl

/-- A misaligned access raises MISALIGN. -/
theorem State.spadFault_align {s : State} {c : CtxId} {ea : W64} {n m u : Nat} (h : ea.toNat % n ≠ 0) :
    s.spadFault c ea n m u = some ⟨0x02, ea, BitVec.ofNat 16 n⟩ := by simp [State.spadFault, h]

/-- An aligned access beyond the budget raises SPAD_BOUNDS. -/
theorem State.spadFault_bounds {s : State} {c : CtxId} {ea : W64} {n m u : Nat} (h : ea.toNat % n = 0)
    (hb : (s.ctx c).banks.length * 2 ^ 17 < ea.toNat + m) : s.spadFault c ea n m u = some ⟨0x03, ea, BitVec.ofNat 16 n⟩ := by
  have hl : (s.ctx c).budget < ea.toNat + m := hb
  simp [State.spadFault, h, hl]

/-- A load that every check passes issues. -/
theorem State.load_go {s : State} {g : Guard} {t a : BitVec 5} {off : BitVec 11} {n : Nat} {sg : Bool} (hg : (s.ctx s.cur).guard g = true)
    (hp : (s.ctx s.cur).pends t = false) (hl : (s.ctx s.cur).cntLd < 31) (hn : n = 1 ∨ n = 2 ∨ n = 4 ∨ n = 8)
    (h : s.SpadOk s.cur (effAddr ((s.ctx s.cur).reg a) n off).toNat n) :
    s.load g t a off n sg
      = .next (s.setCtx s.cur ((s.ctx s.cur).pushOp false t (.load (effAddr ((s.ctx s.cur).reg a) n off).toNat n sg)).advance) := by
  have hl' : ¬ 31 ≤ (s.ctx s.cur).cntLd := by omega
  simp [State.load, State.issue, hg, hp, hl', State.spadFault_ok hn h, State.spadEcc_ok hn h]

/-- A store that every check passes issues. -/
theorem State.store_go {s : State} {g : Guard} {t a : BitVec 5} {off : BitVec 11} {n : Nat} (hg : (s.ctx s.cur).guard g = true)
    (hl : (s.ctx s.cur).cntSt < 31) (hn : n = 1 ∨ n = 2 ∨ n = 4 ∨ n = 8)
    (h : s.SpadOk s.cur (effAddr ((s.ctx s.cur).reg a) n off).toNat n) :
    s.store g t a off n
      = .next (s.setCtx s.cur ((s.ctx s.cur).pushOp true 0 (.store (effAddr ((s.ctx s.cur).reg a) n off).toNat n ((s.ctx s.cur).reg t))).advance) := by
  have hl' : ¬ 31 ≤ (s.ctx s.cur).cntSt := by omega
  simp [State.store, State.issue, hg, hl', State.spadFault_ok hn h]

/-- A local atomic that every check passes issues. -/
theorem State.amo_go {s : State} {g : Guard} {t a : BitVec 5} {op : AmoOp} {n : Nat} (hg : (s.ctx s.cur).guard g = true)
    (hp : (s.ctx s.cur).pends t = false) (hl : (s.ctx s.cur).cntLd < 31) (hn : n = 1 ∨ n = 2 ∨ n = 4 ∨ n = 8)
    (h : s.SpadOk s.cur ((s.ctx s.cur).reg a).toNat n) :
    s.amo g t a op n = .next (s.setCtx s.cur ((s.ctx s.cur).pushOp false t (.amo op n ((s.ctx s.cur).reg a).toNat
        (BitVec.ofNat 64 (((s.ctx s.cur).reg t).toNat % 2 ^ (8 * n)))
        (if n == 4 then (s.ctx s.cur).reg t >>> 32 else (s.ctx s.cur).reg (t + 1)))).advance) := by
  have hl' : ¬ 31 ≤ (s.ctx s.cur).cntLd := by omega
  simp [State.amo, State.issue, hg, hp, hl', State.spadFault_ok hn h, State.spadEcc_ok hn h]

/-- What a load, a store or an atomic can do: be held, be skipped, raise a trap, or issue. -/
theorem State.load_cases (s : State) (g : Guard) (t a : BitVec 5) (off : BitVec 11) (n : Nat) (sg : Bool) :
    ∃ u, s.load g t a off n sg = .next u ∧ (u = s ∨ u = s.setCtx s.cur (s.ctx s.cur).advance ∨ (∃ f, u = s.raise s.cur f)
      ∨ ∃ b, u = s.setCtx s.cur ((s.ctx s.cur).pushOp false t b).advance) := by
  unfold State.load
  rcases s.issue_cases g (fun c => c.pends t || c.cntLd ≥ 31) _ with e | e | e
  · exact ⟨_, e.2, .inl rfl⟩
  · exact ⟨_, e.2.2, .inr (.inl rfl)⟩
  · refine ⟨_, e.2.2, ?_⟩
    simp only
    split
    · exact .inr (.inr (.inl ⟨_, rfl⟩))
    · exact .inr (.inr (.inr ⟨_, rfl⟩))

theorem State.store_cases (s : State) (g : Guard) (t a : BitVec 5) (off : BitVec 11) (n : Nat) :
    ∃ u, s.store g t a off n = .next u ∧ (u = s ∨ u = s.setCtx s.cur (s.ctx s.cur).advance ∨ (∃ f, u = s.raise s.cur f)
      ∨ ∃ b, u = s.setCtx s.cur ((s.ctx s.cur).pushOp true 0 b).advance) := by
  unfold State.store
  rcases s.issue_cases g (fun c => c.cntSt ≥ 31) _ with e | e | e
  · exact ⟨_, e.2, .inl rfl⟩
  · exact ⟨_, e.2.2, .inr (.inl rfl)⟩
  · refine ⟨_, e.2.2, ?_⟩
    simp only
    split
    · exact .inr (.inr (.inl ⟨_, rfl⟩))
    · exact .inr (.inr (.inr ⟨_, rfl⟩))

theorem State.amo_cases (s : State) (g : Guard) (t a : BitVec 5) (op : AmoOp) (n : Nat) :
    ∃ u, s.amo g t a op n = .next u ∧ (u = s ∨ u = s.setCtx s.cur (s.ctx s.cur).advance ∨ (∃ f, u = s.raise s.cur f)
      ∨ ∃ b, u = s.setCtx s.cur ((s.ctx s.cur).pushOp false t b).advance) := by
  unfold State.amo
  rcases s.issue_cases g (fun c => c.pends t || c.cntLd ≥ 31) _ with e | e | e
  · exact ⟨_, e.2, .inl rfl⟩
  · exact ⟨_, e.2.2, .inr (.inl rfl)⟩
  · refine ⟨_, e.2.2, ?_⟩
    simp only
    split
    · exact .inr (.inr (.inl ⟨_, rfl⟩))
    · exact .inr (.inr (.inr ⟨_, rfl⟩))

/-! ### A write -/

/-- The bytes that a fold of writes places, one after the other, at the addresses that f gives. -/
def Mem.place (m : Mem) (f : Nat → Nat) (a : Nat) : List Byte → Mem
  | [] => m
  | b :: t => Mem.place (m.set (f a) b) f (a + 1) t

theorem Mem.wf_place {m : Mem} (h : m.wf = true) (f : Nat → Nat) (a : Nat) (bs : List Byte) : (m.place f a bs).wf = true := by
  induction bs generalizing m a with
  | nil => exact h
  | cons b t ih => exact ih (Mem.wf_set h _ _) _

theorem Mem.get_place_of_ne {m : Mem} (h : m.wf = true) (f : Nat → Nat) (a : Nat) (bs : List Byte) (x : Nat)
    (hx : ∀ j, j < bs.length → f (a + j) ≠ x) : (m.place f a bs).get x = m.get x := by
  induction bs generalizing m a with
  | nil => rfl
  | cons b t ih =>
    have h0 : f a ≠ x := hx 0 (by simp)
    show (Mem.place _ f (a + 1) t).get x = _
    rw [ih (Mem.wf_set h _ _), Mem.get_set h, if_neg (Ne.symm h0)]
    intro j hj
    have := hx (j + 1) (by simpa using hj)
    rwa [show a + (j + 1) = a + 1 + j by omega] at this

theorem Mem.get_place {m : Mem} (h : m.wf = true) (f : Nat → Nat) (a : Nat) (bs : List Byte)
    (hf : ∀ i j, i < bs.length → j < bs.length → f (a + i) = f (a + j) → i = j) {j : Nat} (hj : j < bs.length) :
    (m.place f a bs).get (f (a + j)) = bs[j] := by
  induction bs generalizing m a j with
  | nil => simp at hj
  | cons b t ih =>
    show (Mem.place _ f (a + 1) t).get _ = _
    cases j with
    | zero =>
      rw [Mem.get_place_of_ne (Mem.wf_set h _ _), Mem.get_set h]
      · simp
      · intro j hj e
        have := hf (j + 1) 0 (by simpa using hj) (by simp) (by rw [show a + (j + 1) = a + 1 + j by omega]; exact e)
        omega
    | succ j =>
      rw [show a + (j + 1) = a + 1 + j by omega]
      have hj' : j < t.length := by simpa using hj
      rw [ih (Mem.wf_set h _ _) (a + 1) ?_ hj']
      · simp
      · intro i k hi hk e
        have := hf (i + 1) (k + 1) (by simpa using hi) (by simpa using hk)
          (by rw [show a + (i + 1) = a + 1 + i by omega, show a + (k + 1) = a + 1 + k by omega]; exact e)
        omega

/-- The SRAM of a core after a scratchpad write. -/
theorem State.spadWrite_sram (s : State) (c : CtxId) (a : Nat) (bs : List Byte) :
    ((s.spadWrite c a bs).core (coreOf c)).sram = Mem.place (s.core (coreOf c)).sram (s.ctx c).sramAddr a bs := by
  have key : ∀ (bs : List Byte) (m : Mem) (a : Nat),
      (bs.foldl (fun (acc : Mem × Nat) b => (acc.1.set ((s.ctx c).sramAddr acc.2) b, acc.2 + 1)) (m, a)).1 = Mem.place m (s.ctx c).sramAddr a bs := by
    intro bs
    induction bs with
    | nil => intros; rfl
    | cons b t ih => intro m a; exact ih _ _
  unfold State.spadWrite
  rw [State.core_updCore_self]
  exact key bs _ a

/-- A scratchpad write changes no other core, and no context. -/
theorem State.spadWrite_frame (s : State) (c : CtxId) (a : Nat) (bs : List Byte) :
    (∀ k, k ≠ coreOf c → (s.spadWrite c a bs).core k = s.core k) ∧ (∀ d, (s.spadWrite c a bs).ctx d = s.ctx d)
      ∧ (s.spadWrite c a bs).mem = s.mem ∧ (s.spadWrite c a bs).unspec = s.unspec := by
  refine ⟨fun k hk => ?_, fun d => rfl, rfl, rfl⟩
  unfold State.spadWrite State.updCore State.setCore State.core
  rw [Map.get?_set_ne _ _ hk]

end Sys2Proof.Machine
end

