-- ==== Sys2Proof/Tests/Slice0.lean ====
section
/-! SUPPORT. The model's own tests: terms that well-formedness refuses, words that decode, steps on small states, and for every statement a state and
operands that meet its hypotheses. -/

namespace Sys2Proof.Tests

set_option Elab.async false

open Sys2Proof Sys2Proof.Machine

/-! ### Well-formedness refuses (R1, R55, R58, R87, R295, R303) -/

/-- The guard that is always true. -/
def gT : Guard := ⟨0, 0⟩
/-- The guard that is false while p1 is false. -/
def gF : Guard := ⟨1, 0⟩

/-- R55: the reserved guard. -/
theorem test_wf_reserved_guard : Instr.wf (.add ⟨0, 1⟩ 1 2 3) = false ∧ Instr.wf (.add gT 1 2 3) = true := by decide
/-- R87, R303: CAS.D has no register above t = 31. -/
theorem test_wf_cas_pair : Instr.wf (.amoCasD gT 31 1) = false ∧ Instr.wf (.amoCasD gT 30 1) = true := by decide
/-- R303: the pair of AMD.CAS.D. -/
theorem test_wf_device_cas_pair : Instr.wf (.amdCasD gT 1 2 31) = false ∧ Instr.wf (.amdCasD gT 1 2 30) = true := by decide
/-- R298: ring sizes have 15 encodings, and only FIFO has one. -/
theorem test_wf_bank_mode : Instr.wf (.bankMode gT 0 0 15 2 3) = false ∧ Instr.wf (.bankMode gT 0 0 1 0 3) = false
    ∧ Instr.wf (.bankMode gT 0 0 14 2 3) = true := by decide
/-- R305: five scopes. -/
theorem test_wf_fence_scope : Instr.wf (.fence gT 5) = false ∧ Instr.wf (.fence gT 4) = true := by decide
/-- R1: 1,280 context banks. -/
theorem test_wf_context : Instr.wf (.trapEntry 1280) = false ∧ Instr.wf (.trapEntry 1279) = true := by decide
/-- R1: 320 cores. -/
theorem test_wf_core : Instr.wf (.dividerComplete 320) = false ∧ Instr.wf (.dividerComplete 319) = true := by decide
/-- R100: 256 cells of a core. -/
theorem test_wf_cell : Instr.wf (.cellAdd 0 256) = false ∧ Instr.wf (.cellAdd 0 255) = true := by decide
/-- R125: 16 tiles of a core. -/
theorem test_wf_tile : Instr.wf (.agTileStart 0 16) = false ∧ Instr.wf (.agTileStart 0 15) = true := by decide
/-- R277: four dies have an L2REMW. -/
theorem test_wf_die : Instr.wf (.l2remwWrite 4 0) = false ∧ Instr.wf (.l2remwWrite 3 0) = true := by decide
/-- R459: five dies have sensors. -/
theorem test_wf_sensor : Instr.wf (.thermalTrip 5 126) = false ∧ Instr.wf (.thermalTrip 4 126) = true := by decide
/-- R278: sixteen stacks. -/
theorem test_wf_stack : Instr.wf (.tlogWrite 16) = false ∧ Instr.wf (.tlogWrite 15) = true := by decide

/-! ### Words decode (R54 to R63), each word written out from the encoding -/

/-- A word decodes to an operation, and that operation encodes to the word. -/
def reads (w : BitVec 32) (i : Instr) : Bool := (match decodeWord w with | .ok j => j == i | .error _ => false) && encode i == some w

/-- ALU and immediate words: G, N, opcode, fields from the top. -/
theorem test_decode_scalar :
    reads (0b000#3 ++ 0b0#1 ++ 0x01#7 ++ 1#5 ++ 1#5 ++ 8#11) (.addi gT 1 1 8) = true
    ∧ reads (0b011#3 ++ 0b1#1 ++ 0x00#7 ++ 4#5 ++ 4#5 ++ 5#5 ++ 1#6) (.add ⟨3, 1⟩ 4 4 5) = true
    ∧ reads 0x20129410 (.div ⟨1, 0⟩ 18 18 16) = true ∧ reads 0x001A964D (.mul gT 26 18 25) = true
    ∧ reads 0x018A1590 (.movk16 gT 10 0x1590) = true ∧ reads 0x022E0000 (.flgrd gT 14) = true ∧ reads 0x01EC0007 (.srrd gT 12 7) = true := by decide +kernel
/-- Flow and compare words. -/
theorem test_decode_flow :
    reads 0x0400000C (.br gT 12) = true ∧ reads 0x048207FD (.bne gT 2 0 0x7FD) = true ∧ reads 0x04CDA819 (.bge gT 13 21 0x19) = true
    ∧ reads 0x05414801 (.cmpiEq gT 1 9 1) = true ∧ reads 0x0FE00000 (.tret gT) = true ∧ reads 0x0FC00000 (.endProg gT) = true
    ∧ reads 0x0E400001 (.trap gT 1) = true ∧ reads 0x0E200000 (.nop gT) = true := by decide +kernel
/-- Scratchpad and pass-unit words. -/
theorem test_decode_memory :
    reads 0x07420801 (.std gT 2 1 1) = true ∧ reads 0x062F0204 (.ldbs gT 15 0 0x204) = true ∧ reads 0x27328800 (.stw ⟨1, 0⟩ 18 17 0) = true
    ∧ reads 0x080C0340 (.vpass gT 12 0 13) = true ∧ reads 0x0E1FFFE0 (.waitAll gT 31 31 31 0) = true
    ∧ reads 0x0E1FFC1F (.waitAll gT 31 31 0 31) = true := by decide +kernel
/-- Configuration, shape, accumulate-chain and stream words. -/
theorem test_decode_configuration :
    reads 0x09211000 (.cfgPre gT 1 2 0) = true ∧ reads 0x09430009 (.cfgGo gT 3 9) = true ∧ reads 0x09640000 (.cfgWait gT 4) = true
    ∧ reads 0x08410000 (.shapeReq gT 1 0) = true ∧ reads 0x0A015800 (.sqSendX2 gT 11 0) = true ∧ reads 0x0B0110C0 (.achOpen gT 1 2 3) = true := by decide +kernel
/-- Device, queue, task and management words. -/
theorem test_decode_device :
    reads 0x0D4010EB (.amdAfadd gT 0 2 3) = true ∧ reads 0x0D4056A1 (.amdSwapD gT 0 10 26) = true ∧ reads 0x0D852001 (.barArr gT 5 4) = true
    ∧ reads 0x0D600004 (.fence gT 4) = true ∧ reads 0x0DC05B01 (.tlbInva gT 11 12) = true ∧ reads 0x0D000003 (.bankMode gT 0 0 0 0 3) = true
    ∧ reads 0x0C000080 (.cqSub gT 0 0 2) = true ∧ reads 0x0CA60000 (.taskArm gT 6) = true ∧ reads 0x0CE70000 (.taskStat gT 7) = true
    ∧ reads 0x0C894800 (.cntRd gT 9 9) = true ∧ reads 0x0DE02140 (.handStk gT 4 5) = true ∧ reads 0x0EA508A5 (.mgw gT 5 0x08A5) = true := by decide +kernel
/-- R58, R61: a reserved guard, a reserved field and an unassigned opcode are refused, each by its name. -/
theorem test_decode_refuses :
    decodeWord (0b000#3 ++ 0b1#1 ++ 0x01#7 ++ 0#21) = .error .reservedGuard
    ∧ decodeWord (0b000#3 ++ 0b0#1 ++ 0x05#7 ++ 1#5 ++ 1#5 ++ 64#11) = .error .reservedField
    ∧ decodeWord (0b000#3 ++ 0b0#1 ++ 0x1F#7 ++ 0#21) = .error .badOpcode := by decide +kernel

/-! ### States for the witnesses -/

/-- Does a step go on? -/
def goes : Out → Bool
  | .next _ => true
  | _ => false

/-- An empty queue of a bank. -/
def q0 : ChanQ := ⟨0, 0, 0, 0, [], [], [], 0⟩
/-- A context that is READY with one bank in scratchpad mode. -/
def x0 : Ctx := { Ctx.blank with st := .ready, banks := [⟨0, .spad, false, q0⟩], ilen := 64, g := Vector.ofFn (fun i => BitVec.ofNat 64 (8 * i.val)) }
/-- The package whose context 0 is x. -/
def ws (x : Ctx) : State := State.reset.setCtx 0 x
/-- The state of most witnesses. -/
def s0 : State := ws x0
/-- A load into g1 is pending. -/
def xLd : Ctx := { x0 with ops := [⟨0, false, 1, .load 8 4 true, false, 0, none⟩], opN := 1 }
/-- A store is pending. -/
def xSt : Ctx := { x0 with ops := [⟨0, true, 0, .store 8 4 0x1234, false, 0, none⟩], opN := 1 }
/-- An atomic is pending. -/
def xAmo : Ctx := { x0 with ops := [⟨0, false, 1, .amo .cas 4 8 0 7, false, 0, none⟩], opN := 1 }
/-- A trap. -/
def trap0 : Trap := ⟨0x1A, 5, 6⟩

/-! ### Witnesses: scalar and flow -/

theorem witness_AluWords : s0.self.guard gT = true ∧ s0.self.pends 1 = false := by decide +kernel
theorem witness_BitCounts : (0x8000000000000000#64 ≠ 0) ∧ (1#64 ≠ 0) ∧ 0 < (clz64 1#64).toNat ∧ 0 < (ctz64 0x8000000000000000#64).toNat := by decide +kernel
theorem witness_Divisions : s0.self.guard gT = true ∧ s0.self.pends 1 = false ∧ (s0.core (coreOf s0.cur)).divBusy = false
    ∧ ((s0.setCore 0 { Core.blank with divBusy := true }).core (coreOf s0.cur)).divBusy = true := by decide +kernel
theorem witness_ImmediateWords : s0.self.guard gT = true ∧ s0.self.pends 31 = false ∧ 64 ≤ (64#11).toNat := by decide +kernel
theorem witness_SpecialRegisters : s0.self.det = false ∧ (ws { x0 with det := true }).self.det = true ∧ (12#4).toNat < 13
    ∧ (ws { x0 with det := true }).self.guard gT = true ∧ (ws { x0 with det := true }).self.pends 0 = false
    ∧ s0.self.flagNew = none ∧ (ws { x0 with flagNew := some (0, 1, 2) }).self.flagNew = some (s0.time, 1, 2) := by decide +kernel
theorem witness_FlowWords : s0.self.guard gF = false ∧ s0.self.guard gT = true ∧ s0.self.pends 31 = false
    ∧ s0.self.reg 1 = s0.self.reg 1 ∧ s0.self.reg 1 ≠ s0.self.reg 2 ∧ (s0.self.reg 1).toInt < (s0.self.reg 2).toInt := by decide +kernel
theorem witness_PredicateWords : s0.self.guard gT = true ∧ s0.self.pends 3 = false ∧ 8 ≤ (8#5).toNat := by decide +kernel
theorem witness_HardWired : (31#5 ≠ 0) ∧ (0#5 ≠ 31) ∧ (7#3 ≠ 0) ∧ (0#3 ≠ 7) := by decide
theorem witness_FalseGuards : (ws xLd).self.pends 1 = true ∧ (ws xLd).self.pends 2 = false ∧ (ws xLd).self.guard gF = false
    ∧ ((ws xLd).core (coreOf (ws xLd).cur)).divBusy = false := by decide +kernel
/-- Every word of the frame answers a next state. -/
theorem witness_ScalarFrame : ∀ w ∈ [Instr.add gT 1 2 3, .sub gT 1 2 3, .and gT 1 2 3, .or gT 1 2 3, .xor gT 1 2 3, .andn gT 1 2 3, .orn gT 1 2 3,
    .shl gT 1 2 3, .shr gT 1 2 3, .sra gT 1 2 3, .rol gT 1 2 3, .ror gT 1 2 3, .mul gT 1 2 3, .mulh gT 1 2 3, .mulhu gT 1 2 3, .div gT 1 2 3,
    .divu gT 1 2 3, .rem gT 1 2 3, .remu gT 1 2 3, .min gT 1 2 3, .max gT 1 2 3, .minu gT 1 2 3, .maxu gT 1 2 3, .addw gT 1 2 3, .subw gT 1 2 3,
    .mulw gT 1 2 3, .clz gT 1 2, .ctz gT 1 2, .popc gT 1 2, .addi gT 1 2 3, .andi gT 1 2 3, .ori gT 1 2 3, .xori gT 1 2 3, .shli gT 1 2 3,
    .shri gT 1 2 3, .srai gT 1 2 3, .muli gT 1 2 3, .addwi gT 1 2 3, .movi gT 1 3, .movz gT 1 3, .movk16 gT 1 3, .movk32 gT 1 3, .movk48 gT 1 3,
    .pget gT 1, .srrd gT 1 5, .flgrd gT 1, .pput gT 1, .srwr gT 1 6, .cmpEq gT 1 2 3, .cmpNe gT 1 2 3, .cmpLt gT 1 2 3, .cmpGe gT 1 2 3,
    .cmpLtu gT 1 2 3, .cmpGeu gT 1 2 3, .cmpTst gT 1 2 3, .cmpiEq gT 1 2 3, .cmpiLt gT 1 2 3, .cmpiLtu gT 1 2 3, .pand gT 1 2 3, .por gT 1 2 3,
    .pxor gT 1 2 3, .pandn gT 1 2 3, .pnot gT 1 2, .pmov gT 1 2], goes (exec w s0) = true := by decide +kernel

/-! ### Witnesses: the scratchpad -/

/-- The largest and the smallest size at the ends of the budget. -/
theorem witness_LoadsIssue : s0.self.guard gT = true ∧ s0.self.pends 1 = false ∧ s0.self.cntLd < 31 ∧ s0.SpadOk 0 131064 8 ∧ s0.SpadOk 0 131068 4
    ∧ s0.SpadOk 0 131070 2 ∧ s0.SpadOk 0 131071 1 ∧ s0.SpadOk 0 0 8
    ∧ (s0.self.reg 1 + BitVec.ofInt 64 (8 * (16#11).toInt)).toNat = 136 ∧ s0.SpadOk 0 136 8 := by decide +kernel
theorem witness_LoadsComplete : ((ws xLd).ctx 0).ops[0]? = some ⟨0, false, 1, .load 8 4 true, false, 0, none⟩ ∧ opReady 0 (.load 8 4 true) xLd.ops = true
    ∧ ((ws xLd).ctx 0).zeroing 8 4 = false ∧ ((ws xLd).ctx 0).ops.find? (fun q => q.id == 0) = some ⟨0, false, 1, .load 8 4 true, false, 0, none⟩
    ∧ (ws xLd).spadEcc 0 8 4 false = none ∧ (((ws xLd).setCore 0 { Core.blank with poison := [8] }).spadEcc 0 8 4 false).isSome = true := by decide +kernel
/-- A load whose bank access was made before. -/
theorem witness_LoadsCompleteLater : ∀ x ∈ [{ x0 with ops := [(⟨0, false, 1, .load 8 4 true, false, 0, some 7⟩ : MemOp)] }],
    ((ws x).ctx 0).ops[0]? = some ⟨0, false, 1, .load 8 4 true, false, 0, some 7⟩
    ∧ ((ws x).ctx 0).ops.find? (fun q => q.id == 0) = some ⟨0, false, 1, .load 8 4 true, false, 0, some 7⟩ := by decide +kernel
theorem witness_StoresIssue : s0.self.guard gT = true ∧ s0.self.cntSt < 31 ∧ s0.SpadOk 0 131064 8 ∧ s0.SpadOk 0 131071 1 := by decide +kernel
theorem witness_StoresComplete : ((ws xSt).ctx 0).ops[0]? = some ⟨0, true, 0, .store 8 4 0x1234, false, 0, none⟩ ∧ opReady 0 (.store 8 4 0x1234) xSt.ops = true
    ∧ ((ws xSt).ctx 0).zeroing 8 4 = false ∧ ((ws xSt).ctx 0).banks[8 / 2 ^ 17]? = some ⟨0, .spad, false, q0⟩
    ∧ 8 % 2 ^ 17 + 4 ≤ 2 ^ 17 ∧ ((ws xSt).core (coreOf 0)).sram.wf = true := by decide +kernel
theorem witness_AtomicsIssue : s0.self.guard gT = true ∧ s0.self.pends 1 = false ∧ s0.self.cntLd < 31 ∧ s0.SpadOk s0.cur (s0.self.reg 1).toNat 4
    ∧ s0.SpadOk s0.cur (s0.self.reg 1).toNat 8 := by decide +kernel
theorem witness_AtomicsComplete : ((ws xAmo).ctx 0).ops[0]? = some ⟨0, false, 1, .amo .cas 4 8 0 7, false, 0, none⟩ ∧ opReady 0 (.amo .cas 4 8 0 7) xAmo.ops = true
    ∧ ((ws xAmo).ctx 0).zeroing 8 4 = false ∧ ((ws xAmo).ctx 0).ops.find? (fun q => q.id == 0) = some ⟨0, false, 1, .amo .cas 4 8 0 7, false, 0, none⟩
    ∧ (ws xAmo).spadEcc 0 8 4 false = none ∧ (((ws xAmo).setCore 0 { Core.blank with poison := [8] }).spadEcc 0 8 4 false).isSome = true ∧ (32 = 8 * 4) ∧ (64 = 8 * 8) := by decide +kernel
/-- A misaligned address; and the least address outside the budget, for 8 bytes and for 1. -/
theorem witness_AddressFaults : s0.self.guard gT = true ∧ s0.self.pends 1 = false ∧ s0.self.cntLd < 31 ∧ s0.self.cntSt < 31 ∧ 9 % 8 ≠ 0
    ∧ s0.self.banks.length * 2 ^ 17 < 131072 + 8 ∧ 131072 % 8 = 0 ∧ s0.self.banks.length * 2 ^ 17 < 131072 + 1 := by decide +kernel
theorem witness_IssueFrame : ∀ w ∈ [Instr.ldb gT 1 2 3, .ldbs gT 1 2 3, .ldh gT 1 2 3, .ldhs gT 1 2 3, .ldw gT 1 2 3, .ldws gT 1 2 3, .ldd gT 1 2 3,
    .stb gT 1 2 3, .sth gT 1 2 3, .stw gT 1 2 3, .std gT 1 2 3, .amoSwapW gT 1 2, .amoAddW gT 1 2, .amoAndW gT 1 2, .amoOrW gT 1 2, .amoXorW gT 1 2,
    .amoMinW gT 1 2, .amoMaxW gT 1 2, .amoMinuW gT 1 2, .amoMaxuW gT 1 2, .amoCasW gT 1 2, .amoSwapD gT 1 2, .amoAddD gT 1 2, .amoAndD gT 1 2,
    .amoOrD gT 1 2, .amoXorD gT 1 2, .amoMinD gT 1 2, .amoMaxD gT 1 2, .amoMinuD gT 1 2, .amoMaxuD gT 1 2, .amoCasD gT 1 2],
    goes (exec w s0) = true := by decide +kernel
/-- Counters at the limits: all zero, a waiting load, and fields of 31. -/
theorem witness_WaitWords : s0.self.guard gT = true ∧ s0.self.cntLd ≤ (0#5).toNat ∧ s0.self.cntSt ≤ (0#5).toNat ∧ s0.self.cov = []
    ∧ ¬ (ws xLd).self.cntLd ≤ (0#5).toNat ∧ (ws xLd).self.cntLd ≤ (1#5).toNat ∧ (0#5 ≠ 31) := by decide +kernel
/-- A kept error of a chain. -/
def xCov : Ctx := { x0 with cov := [⟨false, 0, trap0⟩] }
theorem witness_KeptChainError : (ws xCov).self.guard gT = true ∧ (ws xCov).self.cntLd ≤ (31#5).toNat ∧ (ws xCov).self.cntTl = 0
    ∧ (ws xCov).self.cov = ⟨false, 0, trap0⟩ :: [] ∧ (CovFault.mk false 0 trap0).copy = false := by decide +kernel

/-- A descriptor of one stage, NEG on int32, with source 0 at 0x100. -/
def desc0 : BitVec 512 := BitVec.ofNat 512 (0x0A * 2 ^ 282 + 0x100)
/-- A descriptor of one stage, ADD, with source 0 at 0x100 and source 1 at 0x180. -/
def desc1 : BitVec 512 := BitVec.ofNat 512 (0x02 * 2 ^ 282 + 2 ^ 131 + 0x180 * 2 ^ 64 + 0x100)
/-- The bytes of desc0 and desc1, from address 0. -/
def mem0 : Mem := [⟨1, 1⟩, ⟨35, 0x28⟩]
/-- The bytes of desc1. -/
def mem1 : Mem := [⟨1, 1⟩, ⟨8, 0x80⟩, ⟨9, 1⟩, ⟨16, 8⟩, ⟨35, 8⟩]
/-- A descriptor stands at address 0; g1 is 0x200 (the destination), g2 is 0, g3 is n, g4 is n with a repeat count of 2. -/
def sPass (m : Mem) (n : Nat) : State :=
  (ws { x0 with g := Vector.ofFn (fun i => if i.val = 1 then 0x200 else if i.val = 3 then BitVec.ofNat 64 n else if i.val = 4
    then BitVec.ofNat 64 (2 * 2 ^ 32 + n) else 0) }).setCore 0 { Core.blank with sram := m }
/-- The chain of VPASS. -/
def kPass (w : BitVec 512) (n : Nat) : Chain := ⟨0, 0, w, 0x200, n, 1, false, false, 0, 0, [], 0, none⟩
theorem witness_PassCommands : ∀ e ∈ [(mem0, desc0), (mem1, desc1)], ∀ n ∈ [0, 16], (sPass e.1 n).self.guard gT = true ∧ (sPass e.1 n).self.cntSt = 0
    ∧ (sPass e.1 n).self.cntTl < 31 ∧ ((sPass e.1 n).core (coreOf 0)).chains.length < 4 ∧ (sPass e.1 n).spadFault 0 ((sPass e.1 n).self.reg 2) 64 64 unitSeq = none
    ∧ (sPass e.1 n).spadEcc 0 ((sPass e.1 n).self.reg 2).toNat 64 false = none
    ∧ e.2 = BitVec.ofNat 512 (ofBytes ((sPass e.1 n).spadBytes 0 ((sPass e.1 n).self.reg 2).toNat 64)) ∧ descFault e.2 = none := by decide +kernel
theorem witness_PassCommandsQueue : ∀ e ∈ [(mem0, desc0), (mem1, desc1)],
    (sPass e.1 16).streamFault 0 (BitVec.ofNat 64 (dbits e.2 63 0)) ((kPass e.2 16).str 159 144) 16 1 = none
    ∧ ((kPass e.2 16).s1 = true → (sPass e.1 16).streamFault 0 (BitVec.ofNat 64 (dbits e.2 127 64)) ((kPass e.2 16).str 175 160) 16 1 = none
        ∧ badOverlap (dbits e.2 127 64) 0x200 ((kPass e.2 16).str 175 160) ((kPass e.2 16).str 191 176) 16 1 = false)
    ∧ (sPass e.1 16).streamFault 0 ((sPass e.1 16).self.reg 1) ((kPass e.2 16).str 191 176) 16 1 = none
    ∧ badOverlap (dbits e.2 63 0) 0x200 ((kPass e.2 16).str 159 144) ((kPass e.2 16).str 191 176) 16 1 = false
    ∧ (kPass desc1 16).s1 = true := by decide +kernel
/-- A chain that has not started, alone and behind one that has; and one that has, at the head. -/
theorem witness_PassChains : (∀ pre ∈ [[], [{ kPass desc0 16 with started := true }]],
    (((sPass mem0 16).setCore 0 { Core.blank with chains := pre ++ [kPass desc0 16] }).core 0).chains = pre ++ kPass desc0 16 :: []
      ∧ (∀ h ∈ pre, h.started = true) ∧ (kPass desc0 16).started = false)
    ∧ (((sPass mem0 16).setCore 0 { Core.blank with chains := [{ kPass desc0 16 with started := true }] }).core 0).chains
      = { kPass desc0 16 with started := true } :: [] ∧ coreOf (kPass desc0 16).ctx = 0
    ∧ ((sPass mem0 16).setCore 0 { Core.blank with chains := [{ kPass desc0 16 with started := true }] }).chainZeroing (kPass desc0 16) = false := by decide +kernel
/-- The started chain of ADD over sixteen elements of two sources. -/
def sLoop : State := (sPass mem1 16).setCore 0 { Core.blank with sram := mem1, chains := [{ kPass desc1 16 with started := true }] }
theorem witness_PassLoop : (sLoop.core 0).chains = ⟨0, 0, desc1, 0x200, 16, 1, false, true, 0, 0, [], 0, none⟩ :: [] ∧ coreOf 0 = 0
    ∧ sLoop.chainZeroing ⟨0, 0, desc1, 0x200, 16, 1, false, true, 0, 0, [], 0, none⟩ = false ∧ desc1.getLsbD 131 = true
    ∧ (BitVec.extractLsb' 0 64 desc1).toNat = 0x100 ∧ (BitVec.extractLsb' 64 64 desc1).toNat = 0x180
    ∧ ∀ i < 16, sLoop.modeFault 0 (0x100 + 4 * i) 4 = none ∧ sLoop.modeFault 0 (0x180 + 4 * i) 4 = none ∧ sLoop.modeFault 0 (0x200 + 4 * i) 4 = none
        ∧ sLoop.spadEcc 0 (0x100 + 4 * i) 4 true = none ∧ sLoop.spadEcc 0 (0x180 + 4 * i) 4 true = none := by decide +kernel

/-! ### Witnesses: traps and the end of a program -/

/-- A trap is raised. -/
def xTrap : Ctx := { x0 with raised := [trap0], trapc := 0 }
theorem witness_TrapsEnter : ((ws xTrap).ctx 0).raised = trap0 :: [] ∧ ((ws xTrap).ctx 0).st = .ready ∧ ((ws xTrap).ctx 0).gated = false
    ∧ ((ws xTrap).ctx 0).active = false ∧ ((ws xTrap).ctx 0).cntLd = 0 ∧ ((ws xTrap).ctx 0).cntSt = 0 ∧ ((ws xTrap).ctx 0).wait = none
    ∧ ((ws { xTrap with st := .waiting, wait := some (.achWait 1 3) }).ctx 0).wait = some (.achWait 1 3) := by decide +kernel
theorem witness_TrapsWait : (ws { xLd with raised := [trap0] }).self.active = false ∧ (ws { xLd with raised := [trap0] }).self.cntLd ≠ 0 := by decide +kernel
theorem witness_SecondTrap : ((ws { xTrap with trapc := 0x100 }).ctx 0).raised = trap0 :: [] ∧ ((ws { xTrap with trapc := 0x100 }).ctx 0).st = .ready
    ∧ ((ws { xTrap with trapc := 0x100 }).ctx 0).gated = false ∧ ((ws { xTrap with trapc := 0x100 }).ctx 0).active = true := by decide +kernel
theorem witness_TrapReturn : (∀ x ∈ [{ x0 with trapc := 0x100, cur := { Slot.blank with st := .running, bad := [0x140] }, fab := { Fab.blank with held := true } }],
      (ws x).self.active = true ∧ (ws x).self.cur.bad = 0x140 :: [] ∧ (ws x).self.cur.st = .running ∧ (ws x).self.fab.stopped = false ∧ (ws x).self.fab.held = true)
    ∧ (ws { x0 with trapc := 0x100 }).self.active = true ∧ (ws { x0 with trapc := 0x100 }).self.cur.bad = [] ∧ s0.self.active = false
    ∧ s0.self.guard gT = true ∧ s0.self.st = .ready ∧ s0.self.gated = false ∧ s0.self.raised = [] ∧ s0.self.cntLd = 0 ∧ s0.self.cntSt = 0
    ∧ s0.self.wait = none := by decide +kernel
/-- A context that waits at its END. -/
def xEnd : Ctx := { x0 with st := .waiting, wait := some .endProg }
theorem witness_End : ((ws { xEnd with st := .ready }).ctx 0).st = .ready ∧ ((ws xEnd).ctx 0).st = .waiting ∧ ((ws xEnd).ctx 0).wait = some .endProg ∧ ((ws xEnd).ctx 0).raised = []
    ∧ ((ws xEnd).ctx 0).cntLd = 0 ∧ ((ws xEnd).ctx 0).cntSt = 0 ∧ ((ws xEnd).ctx 0).cntCp = 0 ∧ ((ws xEnd).ctx 0).cntTl = 0 ∧ ((ws xEnd).ctx 0).cov = []
    ∧ ((ws { xEnd with cov := [⟨true, 0, trap0⟩] }).ctx 0).cov = ⟨true, 0, trap0⟩ :: [] := by decide +kernel
/-- A context that waits for its counters. -/
def xWt : Ctx := { xLd with st := .waiting, wait := some (.counts true 1 0 0 0) }
theorem witness_CounterWaits : ((ws xWt).ctx 0).st = .waiting ∧ ((ws xWt).ctx 0).gated = false ∧ ((ws xWt).ctx 0).wait = some (.counts true 1 0 0 0) ∧ ((ws xWt).ctx 0).waitDone true 1 0 0 0 = true
    ∧ ((ws xWt).ctx 0).cov = [] ∧ ((ws xWt).ctx 0).raised = [] ∧ ((ws xWt).ctx 0).waitDone true 0 0 0 0 = false := by decide +kernel

/-! ### Witnesses: the cells -/

/-- A queue of two elements. -/
def qi (v : W32) : Part := { Part.blank 0 with items := [.el v false, .el 5 true] }
/-- A queue with one marker at its head. -/
def qm (k : Nat) : Part := { Part.blank 0 with items := [.marker k] }
/-- A cell with operands in queues 0, 1 and 2, the guard in queue 3 where w has one, and two elements in every queue. -/
def kc (w : Nat) : Cell :=
  { word := BitVec.ofNat 32 w, q := [qi 1, qi 3, qi 1, qi 1], pk := [], apk := [], held := [], st := 0, idx := 0, acc := [], buf := [], blk := 0,
    go := false, busy := none, waitBlk := [], lastIns := false, done := false }
/-- The word of an operation on a type. -/
def cw (op ty : Nat) : Nat := op * 2 ^ 24 + ty * 2 ^ 21 + 2 ^ 17 + 2 * 2 ^ 15
/-- A context whose load runs. -/
def xRun : Ctx := { x0 with cur := { Slot.blank with st := .running }, ran := true }
/-- The load of context 0 holds cell 3. -/
def sCell (k : Cell) : State := ws (xRun.withCell 3 k)

theorem witness_IntegerCells : ∀ op ∈ [0x01, 0x02, 0x03, 0x04, 0x05, 0x06, 0x07, 0x08, 0x09, 0x0A, 0x0B, 0x0C, 0x0D, 0x0E, 0x0F, 0x10, 0x11, 0x12, 0x13, 0x14,
    0x15, 0x16, 0x30, 0x31, 0x32, 0x33, 0x34, 0x35, 0x3B, 0x3C, 0x3D, 0x3E, 0x3F, 0x50, 0x67],
    (sCell (kc (cw op 0))).CellReady 0 3 op (kc (cw op 0)) ∧ (kc (cw op 0)).Offers 2 ∧ (kc (cw op 0)).pk.length + 2 ≤ 8 := by decide +kernel
/-- fp32 is type 5 of R41. -/
theorem witness_FloatingCells : ∀ op ∈ [0x20, 0x21, 0x22, 0x23, 0x24, 0x25, 0x26, 0x27, 0x28, 0x2C, 0x2D, 0x2E, 0x2F, 0x36, 0x37, 0x38, 0x39, 0x3A],
    (sCell (kc (cw op 3))).CellReady 0 3 op (kc (cw op 3)) ∧ (kc (cw op 3)).Offers 2 ∧ (kc (cw op 3)).pk.length + 2 ≤ 8
    ∧ ((wTy (kc (cw op 3)).word).fmt?).isSome = true := by decide +kernel
theorem witness_ReductionCells : (∀ op ∈ [0x48, 0x49, 0x4A, 0x29], (sCell (kc (cw op 0))).CellReady 0 3 op (kc (cw op 0)) ∧ (kc (cw op 0)).Offers 2)
    ∧ ∀ op ∈ [0x4B, 0x4C, 0x4D], (sCell (kc (cw op 3))).CellReady 0 3 op (kc (cw op 3)) ∧ (kc (cw op 3)).Offers 2
        ∧ ((wTy (kc (cw op 3)).word).fmt?).isSome = true := by decide +kernel
theorem witness_StreamCells : ∀ op ∈ [0x57, 0x56, 0x52, 0x53, 0x54, 0x55], (sCell (kc (cw op 0))).CellReady 0 3 op (kc (cw op 0))
    ∧ (kc (cw op 0)).Offers 2 ∧ (kc (cw op 0)).apk.length + 2 ≤ 8 ∧ (wAux (kc (cw op 0)).word && (sCell (kc (cw op 0))).self.fab.routed (.aux 3)) = false := by
  decide +kernel
/-- A rational value of every finite pattern. -/
theorem witness_RationalValues : ∃ q : Val → ℚ, ∀ n m e, q (.fin n m e) = (if n then -1 else 1) * (m : ℚ) * (2 : ℚ) ^ e :=
  ⟨fun v => match v with | .fin n m e => (if n then -1 else 1) * (m : ℚ) * (2 : ℚ) ^ e | _ => 0, fun _ _ _ => rfl⟩
/-- 3/2 is exact; 2^24 + 1 is not in fp32; the largest number overflows when doubled; a tiny number underflows, and is flushed in bf16. -/
theorem witness_Roundings : Fmt.fp32.round .rne false false 3 (-1) = (0x3FC00000, 0, false) ∧ (Fmt.fp32.round .rup false false 16777217 0).2.1 = flagNX
    ∧ (Fmt.fp32.round .rtz false true 0xFFFFFF 105).2.2 = true ∧ (Fmt.bf16.round .rne false false 1 (-130)).2.1 = flagUF ||| flagNX
    ∧ (Fmt.fp16.round .rdn false false 1 (-26)).2.1 &&& flagUF ≠ 0 := by decide +kernel
/-- 1 and 2, 1 and -1, 0 and 5, a signalling NaN, infinities of both signs. -/
theorem witness_FloatingOperands : (∃ m e m' e', Fmt.fp32.val 0x3F800000 = .fin false m e ∧ Fmt.fp32.val 0x40000000 = .fin false m' e')
    ∧ (∃ m e m' e', Fmt.fp32.val 0x3F800000 = .fin false m e ∧ Fmt.fp32.val 0xBF800000 = .fin true m' e') ∧ (∃ e, Fmt.fp32.val 0 = .fin false 0 e)
    ∧ Fmt.fp32.val 0x7FA00000 = .nan true ∧ (Fmt.fp32.val 0x7FA00000).isNan = true ∧ Fmt.fp32.val 0x7F800000 = .inf false ∧ Fmt.fp32.val 0xFF800000 = .inf (!false) :=
  ⟨⟨_, _, _, _, rfl, rfl⟩, ⟨_, _, _, _, rfl, rfl⟩, ⟨_, rfl⟩, by decide, by decide, by decide, by decide⟩
/-- MKINS with a block of two, which the firing fills, and of five. -/
theorem witness_BlockCell : ∀ n ∈ [2, 5], (sCell (kc (cw 0x58 0 + n))).CellReady 0 3 0x58 (kc (cw 0x58 0 + n)) ∧ (kc (cw 0x58 0 + n)).Offers 2
    ∧ (kc (cw 0x58 0 + n)).go = false ∧ (kc (cw 0x58 0 + n)).st.toNat + 2 ≤ wImm (kc (cw 0x58 0 + n)).word := by decide +kernel
/-- CVT of int32 to every type. -/
theorem witness_ConvertCell : ∀ d ∈ [0, 1, 2, 3, 4, 5, 6], (sCell (kc (cw 0x40 0 + d))).CellReady 0 3 0x40 (kc (cw 0x40 0 + d)) ∧ (kc (cw 0x40 0 + d)).Offers 2
    ∧ 2 * (wTy (kc (cw 0x40 0 + d)).word).count ≤ 4 * (cvtDst (kc (cw 0x40 0 + d)).word).1.count := by decide +kernel
/-- A marker on a: MERGE takes b; else it takes a. -/
theorem witness_MergeCell : ∀ q ∈ [[qi 1, qi 3], [qm 1, qi 3]], ((sCell { kc (cw 0x51 0) with q := q }).ctx 0).active? = true
    ∧ (({ kc (cw 0x51 0) with q := q } : Cell).queue (if (({ kc (cw 0x51 0) with q := q } : Cell).queue (wQA (kc (cw 0x51 0)).word)).marker?.isSome
        then wQB (kc (cw 0x51 0)).word else wQA (kc (cw 0x51 0)).word)).els ≠ [] ∧ (sCell (kc (cw 0x51 0))).self.fab.canClose (.out 3) 1 = true
    ∧ (sCell (kc (cw 0x51 0))).isOpen 0 = true ∧ (sCell (kc (cw 0x51 0))).turn 0 3 = true := by decide +kernel
theorem witness_IntegerConversions : (0 < 32 ∧ 0 < 8) ∧ intMax 8 true < patInt 32 true 128 ∧ patInt 32 true 0xFFFFFF7F < intMin 8 true := by decide +kernel
/-- LD, ST and the read-modify-write cells on an address in the budget; AFADD on an aligned record. -/
theorem witness_MemoryCells : (∀ op ∈ [0x60, 0x61, 0x62, 0x63, 0x64, 0x65], ∀ k ∈ [{ kc (cw op 0) with q := [qi 4, qi 3, qi 1, qi 1] }],
      ∀ k' ∈ [{ k with q := [{ qi 4 with items := [.el 4 false, .el 131068 true] }, qi 3, qi 1, qi 1] }],
      (sCell k').CellReady 0 3 op k' ∧ k'.Offers 2 ∧ k'.pk.length + k'.acc.length + 2 ≤ 8
      ∧ ∀ u ∈ k'.tups 2, u.g = true → (sCell k').spadFault 0 (u.a.zeroExtend 64) 4 4 (unitCell 3) = none)
    ∧ ∀ k ∈ [{ kc (cw 0x66 0) with q := [{ qi 0 with items := [.el 0 false, .el 131056 true] }, qi 3, qi 1, qi 1] }],
      (sCell k).CellReady 0 3 0x66 k ∧ k.Offers 2 ∧ ∀ u ∈ k.tups 2, u.g = true → (sCell k).spadFault 0 (u.a.zeroExtend 64) 16 16 (unitCell 3) = none := by
  decide +kernel
/-- The load of context 0 holds, or is held with, cell 3 with access a. -/
def sAcc (a : CellAcc) (h : Bool) : State := ws { (xRun.withCell 3 { kc (cw a.op 0) with acc := [a] }) with
  fab := { (xRun.withCell 3 { kc (cw a.op 0) with acc := [a] }).fab with held := h } }
/-- A suppressed access, one of each operation, one that took effect while the load was held, and a load in a held load. -/
theorem witness_MemoryCellAccesses : (∀ a ∈ [(⟨0x60, 4, 9, true, false, none⟩ : CellAcc), ⟨0x60, 4, 9, false, false, none⟩, ⟨0x61, 4, 9, false, false, none⟩,
      ⟨0x62, 4, 9, false, false, none⟩, ⟨0x63, 4, 9, false, false, none⟩, ⟨0x64, 4, 9, false, false, none⟩, ⟨0x65, 4, 9, false, false, none⟩,
      ⟨0x60, 4, 9, false, false, some 5⟩, ⟨0x66, 16, 9, false, false, none⟩], ∀ h ∈ [false, true],
      (sAcc a h).self.fab.cell? 3 = some { kc (cw a.op 0) with acc := a :: [] } ∧ (sAcc a h).self.fab.held = h ∧ (sAcc a h).self.cur.st = .running
      ∧ (sAcc a h).self.zeroing a.addr 16 = false ∧ (sAcc a h).self.zeroing a.addr 4 = false ∧ (sAcc a h).spadEcc 0 a.addr 4 false = none
      ∧ (sAcc a h).spadEcc 0 a.addr 16 false = none ∧ (sAcc a h).self.fab.stopped = false)
    ∧ (anchorOk 3, anchorOk 128) = (true, false) := by decide +kernel
/-- A guard queue. -/
def qg (g : Bool) : Part := { Part.blank 0 with items := [.el (if g then 1 else 0) false] }
/-- A SPAWN cell with a guard. -/
def kSpawn (g : Bool) : Cell := { kc (cw 0x70 0 + 3 * 2 ^ 12 + 2 ^ 11) with q := [qi 1, qi 3, qi 1, qg g] }
/-- A request with a true guard and with a false one. -/
theorem witness_SpawnCell : ∀ g ∈ [true, false], (sCell (kSpawn g)).CellReady 0 3 0x70 (kSpawn g) ∧ (kSpawn g).Offers 1 ∧ (kSpawn g).pk.length < 8
    ∧ (((kSpawn g).tups 1).map (·.g)) = [g] := by decide +kernel
/-- A reply. -/
theorem witness_SpawnReply : (sCell { kc (cw 0x70 0) with busy := some 8 }).leaseOf 0 = none ∧ (sCell { kc (cw 0x70 0) with busy := some 8 }).self.fab.cell? 3 = some { kc (cw 0x70 0) with busy := some (7 + 1) }
    ∧ wOp (kc (cw 0x70 0)).word = 0x70 := by decide +kernel
/-- A CPY cell with n elements gathered, and with the guard of its first element g. -/
def kCpy (n : Nat) (g : Bool) : Cell := { kc (cw 0x71 0) with buf := List.replicate n 0, go := g }
/-- An ACPUT cell with index i. -/
def kPutAt (i : Nat) : Cell := { kc (cw 0x72 0) with buf := List.replicate (i % 16) 0, idx := i }
/-- A join slot of a chain of len elements. -/
def js (st len : Nat) (anch : Bool) (credits : Nat) : JoinSlot := ⟨0, st, 0, 0, 1, len, anch, credits, 0, 0, 0, false⟩
/-- Context 0's load has cell 3, and its slot 0 is bound to a chain of 31 elements. -/
def sPut (k : Cell) (anch : Bool) : State := ws { (xRun.withCell 3 k) with joins := [js 4 31 anch 1] }
/-- CPY with an empty buffer and with one that the firing fills, suppressed and not. -/
theorem witness_CopyCells : ∀ n ∈ [0, 13, 14], ∀ g ∈ [true, false], (sCell (kCpy n g)).CellReady 0 3 0x71 (kCpy n g) ∧ (kCpy n g).Offers 2 ∧ (kCpy n g).pk.length + 2 ≤ 8
      ∧ (kCpy n g).buf.length + 2 ≤ 16 ∧ (n = 14 → ((kCpy n g).buf ++ ((kCpy n g).tups 2).map (·.a)).length = 16)
      ∧ (if (kCpy n g).buf = [] then (((kCpy n g).tups 2).map (·.g)).headD true else (kCpy n g).go) = (g || n == 0) := by decide +kernel
/-- ACPUT below its block's end, with a free slot and a bound one; an element that fills its block, and one that ends the chain. -/
theorem witness_AccumulateCells : (∀ k ∈ [kPutAt 13], (sCell k).CellReady 0 3 0x72 k ∧ (sCell k).self.putHeld = false ∧ k.Offers 2 ∧ k.idx % 16 + 2 < 16
      ∧ ((sCell k).self.join (wImm k.word % 16)).st = 0)
    ∧ (∀ i ∈ [15, 30], ∀ a ∈ [true, false], ∀ k ∈ [{ kPutAt i with q := [⟨[.el 1 true], 0, false, false, 0⟩, qi 3, qi 1, qi 1] }],
      (sPut k a).CellReady 0 3 0x72 k ∧ (sPut k a).self.putHeld = false ∧ k.Offers 1 ∧ (k.tups 1).length = 1 ∧ ((sPut k a).self.join 0).st = 4
      ∧ ((sPut k a).self.join (wImm k.word % 16)).len = 31 ∧ k.idx < 31 ∧ (k.idx % 16 = 15 ∨ k.idx + 1 = 31)
      ∧ ((sPut k a).self.join 0).anchored = a) ∧ 15 / 16 = (js 4 31 false 1).next ∧ 13 + 2 < (js 4 31 false 1).len := by decide +kernel
theorem witness_MisalignedStreams : ∀ e ∈ [(0x01, 0), (0x20, 3), (0x3B, 0), (0x55, 0)], ∀ k ∈ [{ kc (cw e.1 e.2) with q := [qi 1, qm 1, qi 1, qi 1] }],
    headsOf ((wQueues k.word).map k.queue) = .misaligned ∧ (sCell k).CellReady 0 3 e.1 k := by decide +kernel
/-- Every operation with a guard queue whose head is a marker; a STREAM_ALIGN of markers of two kinds. -/
theorem witness_MisalignedGuards : ∀ op ∈ [0x01, 0x02, 0x03, 0x04, 0x05, 0x06, 0x07, 0x08, 0x09, 0x0A, 0x0B, 0x0C, 0x0D, 0x0E, 0x0F, 0x10, 0x11, 0x12, 0x13, 0x14,
    0x15, 0x16, 0x20, 0x21, 0x22, 0x23, 0x24, 0x25, 0x26, 0x27, 0x28, 0x29, 0x2C, 0x2D, 0x2E, 0x2F, 0x30, 0x31, 0x32, 0x33, 0x34, 0x35, 0x36, 0x37, 0x38, 0x39,
    0x3A, 0x3B, 0x3C, 0x3D, 0x3E, 0x3F, 0x40, 0x48, 0x49, 0x4A, 0x4B, 0x4C, 0x4D, 0x50, 0x52, 0x53, 0x54, 0x55, 0x56, 0x57, 0x58, 0x60, 0x61, 0x62, 0x63, 0x64,
    0x65, 0x66, 0x67, 0x70, 0x71, 0x72], ∀ k ∈ [{ kc (cw op 0 + 3 * 2 ^ 12 + 2 ^ 11) with q := [qi 1, qi 3, qi 1, qm 1] }],
    headsOf ((wQueues k.word).map k.queue) = .misaligned ∧ (sCell k).CellReady 0 3 op k ∧ k.go = false ∧ (sCell k).self.putHeld = false := by decide +kernel
theorem witness_MarkerKinds : ∀ k ∈ [{ kc (cw 1 0) with q := [qm 1, qm 2, qi 1, qi 1] }],
    headsOf ((wQueues k.word).map k.queue) = .kinds ∧ (sCell k).CellReady 0 3 0x01 k ∧ k.acc = [] := by decide +kernel

/-! ### Witnesses: streams -/

/-- A branch to queue 0 of cell 3. -/
def br0 : Branch := { dst := .queue 3 0, lane := 0, cut := false, cum := 2, fly := [], rev := [], skip := 0, skipOwed := 0, mid := false }
/-- A packet of two elements. -/
def pk0 : Packet := { els := [7, 8], mark := 0, ty := 0, ten := 0, x1 := false }
/-- A route from cell 4's output to a branch. -/
def sSeg (b : Branch) (k : Cell) (stopped : Bool) : State := ws { xRun with fab := { xRun.fab with
  cells := [(3, k)], stopped := stopped, segs := [⟨.unit (.out 4), [b], 0, 0, none, 0, false⟩] } }
theorem witness_Packets : ∀ st ∈ [true, false], (((sSeg { br0 with fly := [pk0] } (kc (cw 1 0)) st).ctx 0).fab.segs[0]?).bind (fun g => g.branches[0]?)
      = some { br0 with fly := pk0 :: [] } ∧ ((sSeg br0 (kc (cw 1 0)) st).ctx 0).fab.stopped = st
    ∧ ((sSeg br0 (kc (cw 1 0)) st).ctx 0).fab.sink? (.queue 3 0) = some (qi 1) ∧ (qi 1).eosIn = false ∧ pk0.mark = 0 ∧ ((sSeg br0 (kc (cw 1 0)) st).ctx 0).cur.st = .running ∧ (br0.dst ≠ .port 48 ∧ br0.dst ≠ .port 53) := by decide +kernel
/-- A consumer that owes one credit and one that owes three. -/
theorem witness_Demand : (∀ n ∈ [1, 3], ((sSeg br0 { kc (cw 1 0) with q := [{ qi 1 with owed := n }] } false).ctx 0).fab.sink? (.queue 3 0)
        = some { qi 1 with owed := n } ∧ ({ qi 1 with owed := n }).owed ≠ 0)
    ∧ ((sSeg br0 (kc (cw 1 0)) false).ctx 0).fab.branchTo (.queue 3 0) = some (0, 0) ∧ ((sSeg br0 (kc (cw 1 0)) false).ctx 0).fab.stopped = false
    ∧ (((sSeg { br0 with rev := [2] } (kc (cw 1 0)) false).ctx 0).fab.segs[0]?).map (·.branches) = some [{ br0 with rev := 2 :: [] }]
    ∧ (((sSeg { br0 with skipOwed := 1 } (kc (cw 1 0)) false).ctx 0).fab.segs[0]?).bind (fun g => g.branches[0]?) = some { br0 with skipOwed := 1 }
    ∧ (∀ st ∈ [false, true], ((sSeg { br0 with rev := [2] } (kc (cw 1 0)) st).ctx 0).fab.stopped = st ∧ ((sSeg { br0 with rev := [2] } (kc (cw 1 0)) st).ctx 0).cur.st = .running)
    ∧ ((sSeg br0 (kc (cw 1 0)) false).ctx 0).fab.segs.map (fun g => (g.src, g.relay, g.eos)) = [(.unit (.out 4), none, false)] := by decide +kernel
theorem witness_DemandInside : ∀ sd pos, br0.dst ≠ .exit sd pos := by intro _ _; simp [br0]
/-- A packer, a held token, and a marker of each kind. -/
theorem witness_Producers : (sCell { kc (cw 1 0) with pk := [1] }).self.active? = true ∧ (sCell { kc (cw 1 0) with pk := [1] }).self.fab.cell? 3
      = some { kc (cw 1 0) with pk := [1] } ∧ (sCell (kc (cw 1 0))).self.fab.canClose (.out 3) 1 = true ∧ (sCell (kc (cw 1 0))).self.fab.canClose (.aux 3) 1 = true
    ∧ (sCell { kc (cw 0x40 0) with held := [5] }).self.fab.cell? 3 = some { kc (cw 0x40 0) with held := 5 :: [] } ∧ wOp (kc (cw 0x40 0)).word = 0x40
    ∧ ∀ m ∈ [1, 2], ∀ k ∈ [{ kc (cw 1 0) with q := [qm m, qm m, qi 1, qi 1] }], (sCell k).CellReady 0 3 0x01 k ∧ k.acc = [] ∧ k.pk = [] ∧ k.apk = []
        ∧ headsOf ((wQueues k.word).map k.queue) = .markers m ∧ wAux k.word = false := by decide +kernel
/-- Tile 2 and port 50 with something to close, beside an aux packer. -/
theorem witness_OtherProducers : (sCell { kc (cw 0x53 0) with apk := [1] }).self.fab.cell? 3 = some { kc (cw 0x53 0) with apk := [1] }
    ∧ (∀ x ∈ [{ xRun with fab := { xRun.fab with ports := [(50, ⟨Part.blank 0, [], 0, 0, [7], false⟩), (56, ⟨Part.blank 0, [1], 0, 0, [], false⟩)] } }],
        (ws x).self.active? = true ∧ (ws x).self.fab.port? 50 = some ⟨Part.blank 0, [], 0, 0, 7 :: [], false⟩
        ∧ (ws x).self.fab.port? 56 = some ⟨Part.blank 0, [1], 0, 0, [], false⟩ ∧ (ws x).self.fab.canClose (.port 50) 1 = true
        ∧ (ws x).self.fab.canClose (.port 56) 1 = true) := by decide +kernel
/-- A marker of each kind at an ADD, a reduction, a float reduction, a half-filled CVT and an MKINS, with a full packer. -/
theorem witness_CellMarkers : ∀ op ∈ [0x01, 0x48, 0x4A, 0x4C, 0x40, 0x58], ∀ m ∈ [1, 2],
    ∀ k ∈ [{ kc (cw op (if op = 0x4C then 3 else 0)) with q := [qm m, qm m, qm m, qm m], pk := List.replicate 8 1, idx := if op = 0x40 then 1 else 0 }],
      (sCell k).CellReady 0 3 op k ∧ k.acc = [] ∧ k.buf = [] ∧ k.go = false ∧ headsOf ((wQueues k.word).map k.queue) = .markers m ∧ k.pk.length ≤ 8
      ∧ (sCell k).self.fab.canClose (.out 3) 3 = true ∧ (sCell k).self.fab.canClose (.aux 3) 0 = true := by decide +kernel
/-- A cell that has not fired in the cycle, and one that has. -/
theorem witness_ProducerTurns : (sCell { kc (cw 1 0) with pk := [1] }).turns.get? (512 * coreOf 0 + 3) ≠ some (0 % 4, (sCell { kc (cw 1 0) with pk := [1] }).time)
    ∧ ({ sCell { kc (cw 1 0) with pk := [1] } with turns := [(3, (0, 0))] } : State).turns.get? (512 * coreOf 0 + 3) = some (0 % 4, s0.time) := by decide +kernel

/-! ### Witnesses: tiles, channel queues, bank modes -/

/-- CTRL of a tile: mode, target, start counter 1 when st, and done counter 2. -/
def ctrl0 (mode : Nat) (st : Bool) : W64 := BitVec.ofNat 64 (mode * 8 + (if st then 2 ^ 11 + 2 ^ 12 else 0) + 2 * 2 ^ 17)
/-- A tile over `n` consecutive words from address 0x100. -/
def tl (mode n : Nat) : Tile :=
  { base := 0x100, ext := [n, 1, 1, 2], str := [1, 0, 0, 0], ctrl := ctrl0 mode false, i3 := 0, running := true, pos := 0, pk := [],
    inp := { Part.blank 0 with items := [.el 4 false] }, par := Part.blank 0, parm := [], dm := [], pages := [], done := false }
/-- The load of context 0 has tile 2. -/
def sTile (t : Tile) : State := ws { xRun with fab := { xRun.fab with tiles := [(2, t)], cb := [0, 3, 0] } }
/-- A tile to be started, with or without a start counter. -/
def tlS (mode : Nat) (st : Bool) : Tile := { tl mode 4 with running := false, ctrl := ctrl0 mode st }
theorem witness_TilesStart : ∀ st ∈ [false, true], ∀ m ∈ [0, 1, 2, 3], ((sTile (tlS m st)).ctx 0).active? = true
    ∧ ((sTile (tlS m st)).ctx 0).fab.tiles.get? 2 = some (tlS m st) ∧ (tlS m st).running = false ∧ (tlS m st).done = false
    ∧ parTokens (tlS m st).par.items = ([], false) ∧ (tlS m st).parm = [] ∧ (tlS m st).ctrl.getLsbD 11 = st
    ∧ ((sTile (tlS m st)).ctx 0).fab.cb.getD (bits (tlS m st).ctrl 16 12) 0 = (if st then 3 else 0) ∧ (tlS m st).base % 4 = 0
    ∧ ((sTile (tlS m st)).ctx 0).fab.arcsOk 2 (tlS m st) = true ∧ agMode (tlS m st).ctrl = m ∧ agDm (tlS m st).ctrl = false
    ∧ (m < 2 → Ctx.tileFault (sTile (tlS m st)) 0 2 { tlS m st with par := (tlS m st).par.pop (tlS m st).par.items.length, parm := [], running := true, pos := 0, pages := [] } = none)
    ∧ parmOk 1 (2 ^ 24 - 1) = true := by decide +kernel
/-- A read tile before its end, with a full packer, and at its last element; a gather tile; a decoupled one of each kind. -/
theorem witness_ReadTiles : (∀ t ∈ [tl 0 9, { tl 0 9 with pos := 7, pk := [1, 2, 3, 4, 5, 6, 7] }, { tl 0 9 with pos := 8, pk := [1] }],
      (sTile t).TileRuns 0 2 0 t ∧ agDm t.ctrl = false ∧ t.pos < t.count ∧ ((0x100 + 4 * t.pos : Nat) : Int) = t.addr t.pos
      ∧ (sTile t).SpadOk 0 (0x100 + 4 * t.pos) 4 ∧ ((sTile t).ctx 0).zeroing (0x100 + 4 * t.pos) 4 = false
      ∧ ((sTile t).ctx 0).fab.canClose (.port 2) 1 = true)
    ∧ (tl 0 9).pk.length + 1 < 8 ∧ (tl 0 9).pos + 1 ≠ (tl 0 9).count ∧ 8 + 1 = (tl 0 9).count
    ∧ (sTile (tl 2 9)).TileRuns 0 2 2 (tl 2 9) ∧ (tl 2 9).inp.items = .el 4 false :: [] ∧ agDm (tl 2 9).ctrl = false
    ∧ BitVec.ofInt 64 ((tl 2 9).base + 4 * (4#32).toInt) = 0x110 ∧ (sTile (tl 2 9)).SpadOk 0 0x110 4 ∧ ((sTile (tl 2 9)).ctx 0).zeroing 0x110 4 = false
    ∧ ∀ m ∈ [0, 2], ∀ t ∈ [{ tl m 9 with ctrl := ctrl0 m false ||| BitVec.ofNat 64 (2 ^ 36), dm := [(0x100, some 5)] }],
        (sTile t).TileRuns 0 2 m t ∧ agDm t.ctrl = true ∧ t.dm = (0x100, some 5) :: [] := by decide +kernel
/-- An element inside the tile, at its last place and beyond it; a marker inside it. -/
theorem witness_WriteTiles : (∀ p ∈ [0, 3], ∀ t ∈ [{ tl 1 4 with pos := p }], (sTile t).TileRuns 0 2 1 t ∧ t.inp.items = .el 4 false :: [] ∧ t.pos < t.count
      ∧ agDm t.ctrl = false ∧ ((0x100 + 4 * p : Nat) : Int) = t.addr t.pos ∧ ((sTile t).ctx 0).zeroing (0x100 + 4 * p) 4 = false
      ∧ (sTile t).spadFault 0 (BitVec.ofNat 64 (0x100 + 4 * p)) 4 4 (0x100 + 2) = none)
    ∧ (sTile { tl 1 4 with pos := 4 }).TileRuns 0 2 1 { tl 1 4 with pos := 4 } ∧ (tl 1 4).count ≤ 4
    ∧ (sTile { tl 1 4 with inp := qm 1 }).TileRuns 0 2 1 { tl 1 4 with inp := qm 1 } ∧ (qm 1).items = .marker 1 :: [] := by decide +kernel
/-- The first tile of two and the last, of a read, a write and a gather tile. -/
theorem witness_TilesEnd : ∀ i ∈ [0, 1], ∀ e ∈ [(0, { tl 0 4 with pos := 4, i3 := i }), (1, { tl 1 4 with pos := 4, i3 := i, inp := qm (i + 1) }),
      (2, { tl 2 4 with i3 := i, inp := qm (i + 1) }), (3, { tl 3 4 with pos := 4, i3 := i })], (sTile e.2).TileRuns 0 2 e.1 e.2
    ∧ ((sTile e.2).ctx 0).fab.cb.getD (bits e.2.ctrl 21 17) 0 < 15 ∧ (e.1 ≠ 2 → e.2.count ≤ e.2.pos) ∧ e.2.pk = [] ∧ e.2.dm = []
    ∧ ((sTile e.2).ctx 0).fab.canClose (.port 2) 1 = true ∧ ((sTile e.2).ctx 0).pushes 2 = false
    ∧ (e.1 = 1 → e.2.inp.marker? = some (if e.2.i3 + 1 ≥ e.2.e 3 then 2 else 1)) ∧ (e.1 = 2 → e.2.inp.marker? = some (i + 1)) := by decide +kernel
/-- A translation of 128 KiB of local device memory, which is read and written. -/
def ent0 : TlbEnt := { asid := 0, va := 0x20000, size := 0x20000, pa := 0x40000, rd := true, wr := true, lvl := 0 }
/-- A translation to a page of another package. -/
def ent1 : TlbEnt := { asid := 0, va := 0x40000, size := 0x20000, pa := 0x40000 + 2 ^ 40, rd := true, wr := true, lvl := 0 }
/-- A state with those translations cached on die 0. -/
def dev (s : State) : State := { s with dies := [(0, { Die.blank with stlb := [ent0, ent1] })] }
theorem dev_covers : (dev s0).tlbHit 0 0 0 0x20100 = some ent0 ∧ (dev s0).tlbHit 0 0 0 0x40100 = some ent1 ∧ (dev s0).isLocal 0x40100 = true
    ∧ (dev s0).isLocal (0x40100 + 2 ^ 40) = false := by decide +kernel
/-- A decoupled tile over device memory. -/
def tlDm (m : Nat) (va : Nat) : Tile := { tl m 4 with ctrl := ctrl0 m false ||| BitVec.ofNat 64 (2 ^ 36), base := va }
theorem witness_DecoupledReads : (∀ t ∈ [tlDm 0 0x20100], ((dev (sTile t)).ctx 0).active? = true ∧ ((dev (sTile t)).ctx 0).fab.tiles.get? 2 = some t ∧ t.running = true
    ∧ agDm t.ctrl = true ∧ t.dm.length < 512 ∧ t.base % 4 = 0 ∧ t.pages = [] ∧ agMode t.ctrl = 0 ∧ t.pos + t.dm.length < t.count
    ∧ ((0x20100 : Nat) : Int) = t.addr (t.pos + t.dm.length) ∧ ((dev (sTile t)).ctx 0).nearWaits 0x40100 = false)
    ∧ ∀ t ∈ [tlDm 2 0x200F0], ((dev (sTile t)).ctx 0).fab.tiles.get? 2 = some t ∧ agMode t.ctrl = 2 ∧ t.inp.items = .el 4 false :: []
        ∧ ((0x20100 : Nat) : Int) = t.base + 4 * (4#32).toInt := by decide +kernel
theorem witness_DecoupledReadsTranslate : (dev (sTile (tlDm 0 0x20100))).UnitOk 0 0x20100 4 ⟨true, false⟩ 0x40100 :=
  ⟨⟨by decide, ent0, by decide +kernel⟩, by decide +kernel⟩
theorem witness_DecoupledWrites : (∀ t ∈ [tlDm 1 0x20100], (dev (sTile t)).TileRuns 0 2 1 t ∧ t.inp.items = .el 4 false :: [] ∧ t.pos < t.count
    ∧ ((0x20100 : Nat) : Int) = t.addr t.pos ∧ agDm t.ctrl = true ∧ t.base % 4 = 0 ∧ t.pages = [] ∧ 0x40100 % 4 = 0 ∧ (dev (sTile t)).mem.wf = true)
    ∧ (dev (sTile (tlDm 1 0x40100))).isLocal (0x40100 + 2 ^ 40) = false := by decide +kernel
theorem witness_DecoupledWritesTranslate : (dev (sTile (tlDm 1 0x20100))).UnitOk 0 0x20100 4 ⟨false, true⟩ 0x40100
    ∧ (dev (sTile (tlDm 1 0x40100))).Cached 0 0x40100 ⟨false, true⟩ (0x40100 + 2 ^ 40) :=
  ⟨⟨⟨by decide, ent0, by decide +kernel⟩, by decide +kernel⟩, by decide, ent1, by decide +kernel⟩
/-- A bank in FIFO mode whose queue is q, with tile 2 pushing into it when p. -/
def sFifo (q : ChanQ) (p : Bool) (t : Tile) : State := ws { xRun with
  banks := [⟨0, .fifo, false, q⟩], cur := { xRun.cur with sect := if p then [⟨0x1800, 18⟩, ⟨0x1801, 0x80⟩] else [] },
  fab := { xRun.fab with tiles := [(2, t)] } }
/-- A push with room in the bank part; a push to the ring; a pop. -/
theorem witness_ChannelQueues : ∀ q ∈ [q0, { q0 with rs := 0x10000, t := 4 }, { q0 with part := [7] }], ∀ p ∈ [true, false],
    (sFifo q p (tl 3 4)).TileRuns 0 2 3 (tl 3 4) ∧ ((sFifo q p (tl 3 4)).ctx 0).bank? (agTgt (tl 3 4).ctrl) = some ⟨0, .fifo, false, q⟩
    ∧ (tl 3 4).pos < (tl 3 4).count ∧ ((sFifo q p (tl 3 4)).ctx 0).pushes 2 = p ∧ q.part.length < 32768 ∧ (tl 3 4).inp.items = .el 4 false :: [] := by decide +kernel
theorem witness_ChannelQueueRing : (q0.t = q0.h) ∧ ({ q0 with rs := 0x10000, t := 4 } : ChanQ).h < 4 ∧ 4 - 0 < 0x10000 ∧ 4 % 64 ≠ 0
    ∧ (tl 3 4).pk.length + 1 < 8 ∧ (tl 3 4).pos + 1 ≠ (tl 3 4).count ∧ ({ q0 with part := [7] } : ChanQ).part = 7 :: [] := by decide +kernel
theorem witness_ChannelQueueFull : (List.replicate 32767 (0 : W32)).length < 32768 := by
  rw [List.length_replicate]; omega
/-- A ring at 0x20000 of 64 KiB: a full block to write, and 16 elements to take back. -/
def qSpill : ChanQ := { q0 with rb := 0x20000, rs := 0x10000, t := 64, held := List.replicate 16 (7, none) }
/-- A ring with 16 elements. -/
def qRefill : ChanQ := { q0 with rb := 0x20000, rs := 0x10000, t := 64, ring := List.replicate 16 (0, none) }
theorem witness_Spills : ((sFifo qSpill false (tl 3 4)).ctx 0).bank? 0 = some ⟨0, .fifo, false, qSpill⟩ ∧ ((sFifo qSpill false (tl 3 4)).ctx 0).cur.st = .running
    ∧ ((sFifo qSpill false (tl 3 4)).ctx 0).fab.held = false ∧ ((sFifo qSpill false (tl 3 4)).ctx 0).fab.stopped = false ∧ qSpill.held ≠ [] ∧ qSpill.t % 64 = 0
    ∧ 0x40000 % 4 = 0 ∧ (dev (sFifo qSpill false (tl 3 4))).mem.wf = true ∧ 0x20000 = qSpill.rb + (qSpill.t - 4 * qSpill.held.length) % max 1 qSpill.rs := by decide +kernel
theorem witness_SpillsTranslate : (dev (sFifo qSpill false (tl 3 4))).UnitOk 0 0x20000 (4 * qSpill.held.length) ⟨false, true⟩ 0x40000 :=
  ⟨⟨by decide, ent0, by decide +kernel⟩, by decide +kernel⟩
theorem witness_Refills : ((dev (sFifo qRefill false (tl 3 4))).ctx 0).bank? 0 = some ⟨0, .fifo, false, qRefill⟩
    ∧ ((dev (sFifo qRefill false (tl 3 4))).ctx 0).fab.owns 0 = true ∧ qRefill.h < qRefill.t ∧ qRefill.part.length + 16 ≤ 32768 ∧ qRefill.held = []
    ∧ 16 = min 16 ((qRefill.t - qRefill.h) / 4) ∧ qRefill.h + 4 * 16 ≤ qRefill.t ∧ qRefill.lost ≤ qRefill.h
    ∧ (∀ e ∈ qRefill.ring.take 16, (dev (sFifo qRefill false (tl 3 4))).ringHit e = false)
    ∧ (qRefill.ring.take 16).map (·.1) = (List.range 16).map (fun i => w32 ((dev (sFifo qRefill false (tl 3 4))).devBytes (0x40000 + 4 * i) 4)) := by decide +kernel
theorem witness_RefillsTranslate : ∀ i, i < 16 → (dev (sFifo qRefill false (tl 3 4))).UnitOk 0
    (qRefill.rb + (qRefill.h + 4 * i) % max 1 qRefill.rs) 4 ⟨true, false⟩ (0x40000 + 4 * i) := by
  have h : ∀ i, i < 16 → (dev (sFifo qRefill false (tl 3 4))).UnitOk 0 (0x20000 + 4 * i) 4 ⟨true, false⟩ (0x40000 + 4 * i) :=
    fun i hi => ⟨⟨by omega, ent0, by revert hi; revert i; decide +kernel⟩, by revert hi; revert i; decide +kernel⟩
  intro i hi
  have e : qRefill.rb + (qRefill.h + 4 * i) % max 1 qRefill.rs = 0x20000 + 4 * i := by simp [qRefill, q0]; omega
  rw [e]; exact h i hi
theorem witness_BankModes : s0.self.guard gT = true ∧ s0.self.pends 1 = false ∧ s0.self.bank? (0#5).toNat = some ⟨0, .spad, false, q0⟩
    ∧ s0.modeRefused 0 0 = false ∧ s0.bankBusy 0 0 = false ∧ (0#2 ≠ 2) ∧ (3#2 ≠ 2) ∧ 2 ^ (16 + (0#4).toNat) = 0x10000
    ∧ (sFifo qRefill false (tl 3 4)).self.det = false ∧ (ws { x0 with banks := [⟨0, .fifo, false, q0⟩] }).self.cur.st ≠ .running
    ∧ (ws { x0 with banks := [⟨0, .fifo, false, q0⟩] }).self.bank? ((ws { x0 with banks := [⟨0, .fifo, false, q0⟩] }).self.reg 0).toNat
        = some ⟨0, .fifo, false, q0⟩ := by decide +kernel
/-- A ring whose one page is readable, writable and of the tenant. -/
theorem witness_RingPages : ∀ i va, i < (0x20000 % 2 ^ 17 + 0x10000 + 2 ^ 17 - 1) / 2 ^ 17 → va = max 0x20000 ((0x20000 / 2 ^ 17 + i) * 2 ^ 17) →
    ∃ pa, (dev s0).Cached (dev s0).cur va ⟨true, true⟩ pa ∧ (dev s0).isLocal pa = true
      ∧ (dev s0).wallFault (dev s0).self.ten.toNat (some (dieOf (coreOf (dev s0).cur))) va pa = none := by
  intro i va hi hv
  have h0 : i = 0 := by omega
  subst h0; subst hv
  exact ⟨0x40000, ⟨by decide, ent0, by decide +kernel⟩, by decide +kernel⟩
/-- A store sent 1,048,576 cycles ago. -/
theorem witness_RemoteStores : ({ s0 with rstores := [⟨0, 0, 64, 5⟩], time := 1048581 } : State).rstores[0]? = some ⟨0, 0, 64, 5⟩
    ∧ (({ s0 with rstores := [⟨0, 0, 64, 5⟩], time := 1048581 } : State).ctx 0).lease = 0 ∧ 5 + 1048576 ≤ 1048581 := by decide +kernel

/-! ### Witnesses: configurations, collectives, shapes, sequencer streams -/

/-- An image with header and one empty section at scratchpad address 0: id 9, shape 1 × 1. -/
def imgMem : Mem := [⟨0, 0x46⟩, ⟨1, 0x43⟩, ⟨2, 0x58⟩, ⟨3, 0x4A⟩, ⟨4, 9⟩, ⟨8, 1⟩, ⟨9, 1⟩, ⟨16, 0xC0⟩, ⟨17, 0x18⟩]
/-- A context of a 1 × 1 lease on a core whose bank 0 holds the image. -/
def sImg : State := (ws { x0 with lw := 1, lh := 1 }).setCore 0 { Core.blank with sram := imgMem }
theorem witness_Images : sImg.self.guard gT = true ∧ sImg.self.pends 1 = false ∧ sImg.self.cntSt = 0 ∧ sImg.self.nxt.st ≠ .loading
    ∧ sImg.self.reg 0 + 64 * (0#11).signExtend 64 = 0 ∧ (0#64).getLsbD 63 = false ∧ sImg.self.cntTl < 31 := by decide +kernel
theorem witness_ScratchpadImage : ∃ m, sImg.SpadImage 0 0 m :=
  ⟨_, rfl, by decide +kernel, by decide +kernel, by decide +kernel, by decide +kernel, by decide +kernel, by decide +kernel, by decide +kernel⟩
/-- The image stands in the device memory that ent0 translates. -/
def sImgDev : State := { dev (ws { x0 with lw := 1, lh := 1 }) with mem := imgMem.map (fun e => ⟨0x40000 + e.1, e.2⟩) }
/-- The address of the image, with bit 63. -/
theorem witness_DeviceImage : (0x8000000000020000#64).getLsbD 63 = true ∧ bits 0x8000000000020000#64 62 56 = 0 ∧ bits 0x8000000000020000#64 55 0 = 0x20000
    ∧ ∃ m, sImgDev.DevImage 0 0x20000 (fun _ => 0x40000) m := by
  refine ⟨by decide, by decide, by decide, _, by decide, ⟨by decide, ent0, by decide +kernel⟩, by decide +kernel, by decide +kernel, by decide +kernel, ?_, rfl,
    by decide +kernel⟩
  have hl : (imgHeader (fun i => sImgDev.devByte (memKey (0x40000 + 0x20000 % 2 ^ 17) + i))).len = 0x18C0 := by decide +kernel
  intro k p q hk hp hq
  rw [hl] at hk hp
  have hk0 : k = 0 := by omega
  subst hk0; subst hp; subst hq
  exact ⟨⟨by decide +kernel, ent0, by decide +kernel⟩, by decide +kernel, by decide +kernel⟩
/-- A CFG.LD whose stores are under way, and a CFG.PRE. -/
theorem witness_ImagesComplete : ((ws { x0 with nxt := { Slot.blank with st := .loading }, wait := some (.cfgLd 1 9) }).ctx 0).nxt.st = .loading
    ∧ ((ws { x0 with nxt := { Slot.blank with st := .loading }, wait := some (.cfgLd 1 9) }).ctx 0).preLoading = false ∧ x0.gated = false
    ∧ ((ws { x0 with nxt := { Slot.blank with st := .loading }, wait := some (.cfgLd 1 9) }).ctx 0).wait = some (.cfgLd 1 9)
    ∧ ((ws { x0 with nxt := { Slot.blank with st := .loading }, tlq := [⟨0, true, false⟩] }).ctx 0).tlq = ⟨0, true, false⟩ :: []
    ∧ ((ws { x0 with nxt := { Slot.blank with st := .loading }, tlq := [⟨0, true, false⟩] }).ctx 0).nxt.st = .loading := by decide +kernel
/-- A lease of context 0 alone. -/
def le0 : Lease :=
  { ten := 0, asid := 0, x := 0, y := 0, w := 1, h := 1, nb := 1, ctxs := [0], go := none, bar := none, broken := none, quantum := 0, start := 0,
    stopAt := none, queue := none, qidx := 0, body := [], task := none, parent := none, args := (0, 0), det := false, started := true, ended := false,
    killed := false, fail := none, quant := 0, turn := false, turnStart := 0, moving := none, saved := [], frozen := none, slip := 0 }
/-- Context x in lease l with id 7, late in time. -/
def sLe (l : Lease) (x : Ctx) : State := { ws { x with lease := 7 } with leases := [(7, l)], time := 1000 }
/-- A context whose next slot is READY with id 9. -/
def xGo : Ctx := { x0 with nxt := { Slot.blank with st := .ready, id := 9 } }
/-- A collective that context e has joined. -/
def co0 (e : CtxId) : Coll := { id := 9, crc := 0, arrived := [⟨e, 9, 0, 0⟩], t0 := 5, made := 5, tied := [] }
theorem witness_LoadsStart : (sLe le0 xGo).self.guard gT = true ∧ (sLe le0 xGo).self.cur.st ≠ .running ∧ (sLe le0 xGo).self.nxt.st ≠ .loading
    ∧ (sLe le0 xGo).self.cntLd = 0 ∧ (sLe le0 xGo).self.cntSt = 0 ∧ ((sLe le0 xGo).leaseFor 0).broken = none
    ∧ xGo.nxt = (sLe le0 xGo).self.nxt ∧ xGo.nxt.st = .ready ∧ xGo.nxt.id = (9#16).toNat ∧ ((sLe le0 xGo).leaseFor 0).go = none
    ∧ ((sLe { le0 with go := some (co0 1) } xGo).leaseFor 0).go = some (co0 1) ∧ (co0 1).id = (9#16).toNat ∧ (co0 1).crc = xGo.nxt.crc
    ∧ (∀ q ∈ (co0 1).arrived ++ (co0 1).tied, q.ctx ≠ (sLe le0 xGo).cur) := by decide +kernel
theorem witness_LoadsStartTogether : ∀ x ∈ [{ xGo with st := .waiting, wait := some (.cfgGo 1 9) }],
    (sLe { le0 with go := some (co0 0) } x).leaseAt 7 = some { le0 with go := some (co0 0) } ∧ le0.broken = none
    ∧ (∀ c ∈ le0.ctxs, (∃ e ∈ (co0 0).arrived, e.ctx = c) ∧ ((sLe { le0 with go := some (co0 0) } x).ctx c).gated = false) ∧ (co0 0).t0 + le0.span ≤ (sLe le0 x).time ∧ le0.frozen = none ∧ le0.ctxs.Nodup
    ∧ ((sLe { le0 with go := some (co0 0) } x).ctx 0).wait = some (.cfgGo 1 (co0 0).id)
    ∧ ((sLe { le0 with go := some (co0 0) } x).ctx 0).goSlot (co0 0).id = some (true, xGo.nxt) ∧ xGo.nxt.bad = []
    ∧ (fabOf (sectImg xGo.nxt.sect) (seamSide (coreOf 0)) 1000).tiles = [] := by decide +kernel
theorem witness_LeaseBarriers : (sLe le0 x0).self.guard gT = true ∧ ((sLe le0 x0).leaseFor 0).broken = none ∧ ((sLe le0 x0).leaseFor 0).bar = none
    ∧ (sLe le0 x0).self.cntLd = 0 ∧ (sLe le0 x0).self.cntSt = 0 ∧ ((sLe { le0 with bar := some (co0 1) } x0).leaseFor 0).bar = some (co0 1)
    ∧ (co0 1).id = (9#16).toNat ∧ (co0 1).crc = 0 ∧ (∀ q ∈ (co0 1).arrived ++ (co0 1).tied, q.ctx ≠ (sLe le0 x0).cur)
    ∧ (sLe { le0 with bar := some (co0 0) } { x0 with wait := some (.leaseBar 9) }).leaseAt 7 = some { le0 with bar := some (co0 0) }
    ∧ (∀ c ∈ le0.ctxs, (∃ e ∈ (co0 0).arrived, e.ctx = c) ∧ ((sLe { le0 with bar := some (co0 0) } { x0 with wait := some (.leaseBar 9) }).ctx c).gated = false)
    ∧ (co0 0).t0 + le0.span ≤ (sLe le0 x0).time ∧ le0.frozen = none ∧ le0.ctxs.Nodup
    ∧ ((sLe { le0 with bar := some (co0 0) } { x0 with wait := some (.leaseBar 9) }).ctx 0).wait = some (.leaseBar 9)
    ∧ (sLe le0 { x0 with st := .stopped }).leases.get? 7 = some le0 ∧ 0 ∈ le0.ctxs ∧ ((sLe le0 { x0 with st := .stopped }).ctx 0).st = .stopped
    ∧ le0.started = true ∧ le0.saved = [] ∧ (sLe { le0 with broken := some (1, 5) } x0).leases.get? 7 = some { le0 with broken := some (1, 5) } := by
  decide +kernel
/-- The end of a load; the end of a stopped one; a load whose quantum expires and whose stop has come. -/
theorem witness_LoadsEnd : ((ws xRun).ctx 0).cur.st = .running ∧ ((ws xRun).ctx 0).fab.stopped = false ∧ ((ws xRun).ctx 0).fab.held = false
    ∧ ((ws xRun).ctx 0).loadDone = true
    ∧ ((ws { xRun with fab := { xRun.fab with stopped := true, stopAt := some (9, 2) } }).ctx 0).quiet = true
    ∧ ((ws { xRun with fab := { xRun.fab with stopped := true, stopAt := some (9, 2) } }).ctx 0).fab.stopAt = some (9, 2) ∧ xRun.mn.cmds = [] := by decide +kernel
/-- A running load with one cell that is not done, in a lease with quantum 100 and a stop at 999. -/
def sQ : State := sLe { le0 with quantum := 100, stopAt := some 999 } (xRun.withCell 3 (kc (cw 1 0)))
theorem witness_LoadsStop : sQ.leaseAt 7 = some { le0 with quantum := 100, stopAt := some 999 } ∧ (sQ.ctx 0).cur.st = .running
    ∧ (sQ.ctx 0).fab.start = le0.start ∧ (sQ.ctx 0).fab.stopped = false ∧ (sQ.ctx 0).loadDone = false ∧ le0.start + 100 + le0.slip ≤ sQ.time + 1
    ∧ 999 ≤ sQ.time ∧ le0.frozen = none ∧ le0.ctxs.Nodup ∧ (∀ c ∈ le0.ctxs, (sQ.ctx c).cur.st = .running ∧ (sQ.ctx c).fab.start = le0.start)
    ∧ (sLe { le0 with quantum := 100 } xRun).self.loadDone = true ∧ (sLe { le0 with quantum := 100 } xRun).self.fab.held = false := by decide +kernel
theorem witness_LoadWords : s0.self.nxt.st ≠ .loading ∧ (sLe le0 xRun).self.det = false ∧ s0.self.cur.st ≠ .running ∧ (ws xRun).self.cur.st = .running ∧ (ws xRun).self.pends 1 = false ∧ (ws xRun).self.guard gT = true
    ∧ (sLe le0 xRun).self.ran = true ∧ (sLe le0 xRun).self.fab.stopped = false ∧ (sLe le0 xRun).self.fab.start = ((sLe le0 xRun).leaseFor 0).start
    ∧ (sLe le0 xRun).cur ∈ ((sLe le0 xRun).leaseFor 0).ctxs ∧ ((sLe le0 xRun).leaseFor 0).stopAt = none ∧ (ws xGo).self.nxt.st = .ready
    ∧ (ws { x0 with cur := { Slot.blank with st := .ended } }).self.cur.st = .ended ∧ s0.self.det = false := by decide +kernel
/-- A request for all four groups. -/
def xShape : Ctx := x0.setReg 1 (BitVec.ofNat 64 (3 * 2 ^ 16 + 0x7F))
/-- Another context of the core holds the groups. -/
def sTaken (x : Ctx) : State := (ws x).setCtx 1 { x0 with shape := grantWord (xShape.reg 1) 0 }
theorem witness_Shapes : (ws xShape).self.guard gT = true ∧ (ws xShape).self.pends 1 = false ∧ (ws xShape).self.shape.getLsbD 31 = false
    ∧ shapeValid ((ws xShape).self.reg 1) = true ∧ (ws xShape).shapeWaiters 0 = []
    ∧ freeRun ((ws xShape).groups 0) (bits ((ws xShape).self.reg 1) 17 16 + 1) = some 0
    ∧ freeRun ((sTaken xShape).groups 0) (bits ((sTaken xShape).self.reg 1) 17 16 + 1) = none := by decide +kernel
theorem witness_ShapeGrants : ∀ s ∈ [(ws { xShape with st := .waiting, wait := some (.shape 1) }).setCore 0 { Core.blank with shapeQ := [0] }],
    s.shapeWaiters 0 = 0 :: [] ∧ (s.ctx 0).gated = false ∧ (s.ctx 0).wait = some (.shape 1) ∧ freeRun (s.groups 0) (bits ((s.ctx 0).reg 1) 17 16 + 1) = some 0 := by decide +kernel
theorem witness_ShapeReleases : ∀ x ∈ [{ x0 with shape := grantWord (xShape.reg 1) 0 }], (ws x).self.guard gT = true ∧ (ws x).self.cur.st ≠ .running
    ∧ (ws x).self.shape.getLsbD 31 = true ∧ (ws x).self.mn.cmds = [] ∧ ((ws { x with st := .stopped }).ctx 0).st = .stopped
    ∧ ((ws { x with st := .waiting, wait := some .shapeRel }).ctx 0).gated = false ∧ ((ws { x with st := .waiting, wait := some .shapeRel }).ctx 0).wait = some .shapeRel := by decide +kernel
/-- The load of context 0 has tile 2 and the ports of its sequencer streams. -/
def po (items : List QItem) (pk : List W32) : Port := { part := { Part.blank 0 with items := items }, pk := pk, pkTy := 0, pkAt := 0, toks := [], eos := false }
/-- Ports 55 and 56. -/
def sPorts (items : List QItem) (pk : List W32) : State := ws { xRun with fab := { xRun.fab with tiles := [(2, tl 0 4)], ports := [(55, po items []), (56, po [] pk)] } }
theorem witness_SequencerStreams : (∀ pk ∈ [[], [1, 2, 3, 4, 5]], (sPorts [] pk).self.guard gT = true ∧ (sPorts [] pk).self.cur.st = .running
      ∧ (sPorts [] pk).self.fab.stopped = false ∧ (sPorts [] pk).self.fab.port? 56 = some (po [] pk) ∧ pk.length + 2 < 8 ∧ (po [] pk).pkTy = (0#3).toNat ∧ (sPorts [] pk).time ≤ (po [] pk).pkAt + 1 ∧ (po [] pk).eos = false)
    ∧ (∀ pk ∈ [[1, 2, 3, 4, 5, 6, 7]], 8 ≤ pk.length + 1 ∧ (sPorts [] pk).self.fab.canClose (.port 56) 1 = true ∧ (sPorts [] pk).self.fab.canClose (.port 56) 2 = true
      ∧ (po [] pk).pk ≠ [] ∧ (po [] pk).pkTy ≠ (3#3).toNat)
    ∧ (sPorts [] []).self.fab.canClose (.port 56) 1 = true ∧ ∀ it ∈ [[], [.el 5 true], [.marker 1]], (sPorts it []).self.fab.port? 55 = some (po it [])
      ∧ (sPorts it []).self.pends 1 = false := by decide +kernel
theorem witness_ParameterWords : imgBound (sectImg (sPorts [] []).self.cur.sect) 0 (32 + (2#4).toNat) = false ∧ (sPorts [] []).self.fab.tiles.get? 2 = some (tl 0 4)
    ∧ (tl 0 4).done = false ∧ (tl 0 4).parm = [] ∧ parmOk (bits (1#64) 31 0) (bits (0xFFFFFF#64) 31 0) = true := by decide +kernel
/-- A next slot that is READY with tile 2 enabled, and a write of each field. -/
theorem witness_ParameterRecords : (∀ x ∈ [{ x0 with nxt := { Slot.blank with st := .ready, sect := [⟨0x14A8, 0x20⟩] } }], (ws x).self.cur.st ≠ .running ∧ (ws x).self.nxt.st = .ready
      ∧ agEn (agRec (sectImg (ws x).self.nxt.sect) (0x1400 + 64 * (2#4).toNat)).ctrl = true)
    ∧ ∀ e ∈ [0, 1, 2, 3, 4, 5], bits (BitVec.ofNat 64 e) 31 0 = e ∧ bits (0xFFFFFF#64) 31 0 < 2 ^ 24 := by decide +kernel
theorem witness_ConfigurationErrors : confUnit 0x10F = true ∧ confUnit 3 = true ∧ ((ws xRun).ctx 0).cur.st = .running ∧ ((ws xRun).ctx 0).fab.stopped = false := by decide +kernel

/-! ### Witnesses: the matrix node -/

/-- A token: operation, K and further bits. -/
def tok (o k more : Nat) : W64 := BitVec.ofNat 64 (o * 2 ^ 60 + k * 2 ^ 33 + more)
/-- The four elements of a command. -/
def cmd4 (t : W64) (a b : Nat) : List QItem := [.el (t.truncate 32) false, .el ((t >>> 32).truncate 32) false, .el (BitVec.ofNat 32 a) false, .el (BitVec.ofNat 32 b) true]
/-- A context with eight banks, one row of one column group granted, ports mn.ctl and mn.drain, a join slot 0 with `st`, and commands. -/
def xMn (items : List QItem) (cmds : List MnCmd) : Ctx := { xRun with
  banks := (List.range 8).map (fun i => ⟨i, .spad, false, q0⟩), shape := grantWord 0 0, joins := [js 4 64 false 1],
  mn := { Mn.blank with cmds := cmds }, fab := { xRun.fab with ports := [(48, po items []), (49, po [] [])] } }
/-- Operation, token, X and Y of one command each. -/
def cmds0 : List (Nat × W64 × Nat × Nat) := [(1, tok 1 1 0, 0, 0x80000), (2, tok 2 1 (2 ^ 19), 64, 0x1000), (3, tok 3 1 0, 4, 0x80000), (4, tok 4 0 0, 64, 0),
  (5, tok 5 0 0, 0, 0), (6, tok 6 0 0, 0, 0), (7, tok 7 0 0, 0, 0)]
theorem witness_MatrixCommands : ∀ e ∈ cmds0, (ws (xMn (cmd4 e.2.1 e.2.2.1 e.2.2.2) [])).self.active? = true
    ∧ (ws (xMn (cmd4 e.2.1 e.2.2.1 e.2.2.2) [])).self.fab.port? 48 = some (po (cmd4 e.2.1 e.2.2.1 e.2.2.2) [])
    ∧ (po (cmd4 e.2.1 e.2.2.1 e.2.2.2) []).part.marker? ≠ some 1 ∧ (po (cmd4 e.2.1 e.2.2.1 e.2.2.2) []).part.els
      = (e.2.1.truncate 32 : W32) :: ((e.2.1 >>> 32).truncate 32 : W32) :: BitVec.ofNat 32 e.2.2.1 :: BitVec.ofNat 32 e.2.2.2 :: []
    ∧ e.2.1 = ((e.2.1 >>> 32).truncate 32 : W32) ++ (e.2.1.truncate 32 : W32) ∧ tkOpc e.2.1 = e.1 := by decide +kernel
theorem witness_MatrixCommandsPass : ∀ e ∈ cmds0, ((ws (xMn [] [])).ctx 0).tokenCause e.2.1 e.2.2.1 e.2.2.2 = none
    ∧ (ws (xMn [] [])).operandFault 0 (((ws (xMn [] [])).ctx 0).cmdRanges e.2.1 e.2.2.1 e.2.2.2) = none ∧ ((ws (xMn [] [])).ctx 0).acsendFault e.2.1 = none
    ∧ (ws (xMn (cmd4 e.2.1 e.2.2.1 e.2.2.2) [])).myTurn (512 * coreOf 0 + 256) (ws (xMn (cmd4 e.2.1 e.2.2.1 e.2.2.2) [])).cmdReady 0 = true
    ∧ (ws (xMn (cmd4 e.2.1 e.2.2.1 e.2.2.2) [])).self.mn.cmds.length < 8 := by decide +kernel
/-- K = 0 is cause 5. -/
theorem witness_BadMatrixTokens : ((ws (xMn (cmd4 (tok 1 0 0) 0 0x80000) [])).ctx 0).tokenCause (tok 1 0 0) 0 0x80000 = some 5
    ∧ (ws (xMn (cmd4 (tok 1 0 0) 0 0x80000) [])).myTurn (512 * coreOf 0 + 256) (ws (xMn (cmd4 (tok 1 0 0) 0 0x80000) [])).cmdReady 0 = true ∧ tkOpc (tok 1 0 0) = 1 := by
  decide +kernel
/-- A state with the token, X and Y at mn.ctl. -/
def sTok (t : W64) (a b : Nat) (x : Ctx) : State := ws { x with fab := (xMn (cmd4 t a b) []).fab }
/-- An opcode of 0 and of 8; no grant; X and then Y misaligned; a store past the budget; an ACSEND on a free slot and on a short chain. -/
theorem witness_BadMatrixForms : (∀ o ∈ [0, 8], (sTok (tok o 1 0) 0 0 (xMn [] [])).self.active? = true ∧ (tkOpc (tok o 1 0) = 0 ∨ 7 < tkOpc (tok o 1 0)))
    ∧ (sTok (tok 1 1 0) 0 0 { xMn [] [] with shape := 0 }).self.shape.getLsbD 31 = false
    ∧ (∀ e ∈ [(tok 1 1 0, 1, 0), (tok 1 1 0, 0, 1), (tok 3 1 0, 2, 0), (tok 3 1 0, 4, 1), (tok 1 1 0, 0, 0x100000)],
        (sTok e.1 e.2.1 e.2.2 (xMn [] [])).self.tokenCause e.1 e.2.1 e.2.2 = none
        ∧ (sTok e.1 e.2.1 e.2.2 (xMn [] [])).myTurn (512 * coreOf 0 + 256) (sTok e.1 e.2.1 e.2.2 (xMn [] [])).cmdReady 0 = true)
    ∧ ((sTok (tok 1 1 0) 0 0x100000 (xMn [] [])).operandFault 0 ((sTok (tok 1 1 0) 0 0x100000 (xMn [] [])).self.cmdRanges (tok 1 1 0) 0 0x100000)).isSome = true
    ∧ (sTok (tok 7 0 0) 0 0 { xMn [] [] with joins := [] }).self.tokenCause (tok 7 0 0) 0 0 = none
    ∧ ((sTok (tok 7 0 0) 0 0 { xMn [] [] with joins := [] }).self.join (tkCh (tok 7 0 0))).st = 0
    ∧ (sTok (tok 7 0 0) 0 0 { xMn [] [] with joins := [js 4 31 false 1] }).self.tokenCause (tok 7 0 0) 0 0 = none
    ∧ ((sTok (tok 7 0 0) 0 0 { xMn [] [] with joins := [js 4 31 false 1] }).self.join (tkCh (tok 7 0 0))).len < 32
    ∧ tkM (xMn [] []).shape (tok 7 0 0) * tkN (xMn [] []).shape (tok 7 0 0) = 32 := by decide +kernel
/-- Products of finite numbers, one that sums to 0; a NaN; an infinity alone and two of both signs. -/
theorem witness_KGroups : (∃ m e, Fmt.bf16.val 0x3F80 = .fin false m e ∧ (-200 : Int) ≤ e) ∧ (∃ m e, Fmt.bf16.val 0xBF80 = .fin true m e ∧ (-200 : Int) ≤ e)
    ∧ (Fmt.bf16.val 0x7FC0).isNan = true ∧ ((Fmt.bf16.val 0x7F80).mul (Fmt.bf16.val 0x3F80)).1 = .inf false
    ∧ ((Fmt.bf16.val 0xFF80).mul (Fmt.bf16.val 0x3F80)).1 = .inf true ∧ [(Fmt.bf16.val 0x3F80, Fmt.bf16.val 0x3F80)].Perm [(Fmt.bf16.val 0x3F80, Fmt.bf16.val 0x3F80)] :=
  ⟨⟨_, _, rfl, by decide⟩, ⟨_, _, rfl, by decide⟩, by decide, by decide, by decide, List.Perm.refl _⟩
/-- A command at a place. -/
def mc (t : W64) (a b : Nat) (st : Bool) : MnCmd := ⟨t, a, b, st, 0, false, 0, [], none, false, [], false, []⟩
theorem witness_MatrixStarts : ∀ e ∈ cmds0, ∀ s ∈ [ws (xMn [] [mc e.2.1 e.2.2.1 e.2.2.2 false])], ∀ k ∈ [mc e.2.1 e.2.2.1 e.2.2.2 false],
    (s.ctx 0).active? = true ∧ (s.ctx 0).mn.cmds[0]? = some k ∧ tkOpc k.tok ∈ [1, 2, 3, 4, 5, 6, 7] ∧ (s.ctx 0).fab.port? 50 = none
    ∧ ((s.ctx 0).mn.cmds.take 0).any (mnBlocks (s.ctx 0).shape e.2.1) = false
    ∧ (tkOpc k.tok = 3 → (s.ctx 0).zeroing k.x (4 * tkM (s.ctx 0).shape k.tok) = false ∧ s.mnReadFault 0 k.x (4 * tkM (s.ctx 0).shape k.tok) = none
      ∧ ∀ a ∈ s.gatherIndex 0 k, s.spadFault 0 (BitVec.ofNat 64 a) (if aCb (s.ctx 0).shape k.tok then 1 else 2)
          (elBytes (aCb (s.ctx 0).shape k.tok) (tkK k.tok)) 0x300 = none)
    ∧ (∀ r ∈ s.storeRows 0 k, (s.ctx 0).zeroing r.1 r.2 = false ∧ s.mnReadFault 0 r.1 r.2 = none) := by decide +kernel
/-- K = 1 and K = 32, the first command of its pipe. -/
theorem witness_Multiplications : ∀ k ∈ [1, 32], ∀ o ∈ [1, 2, 3], ((ws (xMn [] [mc (tok o k 0) 0 (if o = 2 then 0x1000 else 0x80000) true])).ctx 0).mn.cmds[0]? = some (mc (tok o k 0) 0 (if o = 2 then 0x1000 else 0x80000) true)
    ∧ tkOpc (tok o k 0) ∈ [1, 2, 3] ∧ 0 < tkK (tok o k 0) ∧ tkK (tok o k 0) ≤ 32 ∧ (ws (xMn [] [])).isOpen 0 = true
    ∧ (([] : List MnCmd).any (fun e => tkCompute e.tok == tkCompute (tok o k 0))) = false ∧ ((ws (xMn [] [])).ctx 0).banks.all (fun b => !b.zeroing) = true
    ∧ (mc (tok o k 0) 0 (if o = 2 then 0x1000 else 0x80000) true).got = [] ∧ (∀ r ∈ ((ws (xMn [] [])).ctx 0).groupReads (mc (tok o k 0) 0 (if o = 2 then 0x1000 else 0x80000) true) 0, (ws (xMn [] [])).mnReadFault 0 r.1 r.2 = none)
    ∧ 0 < mulRows ((ws (xMn [] [])).ctx 0).shape (tok o k 0) := by decide +kernel
theorem witness_OtherCommands : ∀ s ∈ [ws (xMn [] [mc (tok 4 0 0) 64 0 true])], s.self.mn.cmds[0]? = some (mc (tok 4 0 0) 64 0 true) ∧ s.self.zeroing 64 64 = false
    ∧ s.mnReadFault 0 64 64 = none ∧ tkTs (tok 4 0 0) < s.self.mn.tabs.length
    ∧ (s.self.mn.cmds.take 0).any (fun e => tkCompute e.tok == tkCompute (tok 4 0 0)) = false := by decide +kernel
/-- A DRAIN that has read none, four, and all elements of a row, whose EOI is to be closed; an ACSEND that has read none and twelve. -/
theorem witness_DrainsAndSends : (∀ e ∈ [(0, 0, false), (4, 4, false), (8, 0, true), (32, 0, true)], ∀ k ∈ [{ mc (tok 6 0 (2 ^ 29)) 0 0 true with
      pos := e.1, buf := List.replicate e.2.1 0, eoi := e.2.2 }], ∀ s ∈ [ws (xMn [] [k])],
      s.self.active? = true ∧ s.self.mn.cmds[0]? = some k ∧ k.started = true ∧ tkOpc k.tok = 6 ∧ bits k.tok 28 27 = 0 ∧ s.self.fab.canClose (.port 49) 1 = true
      ∧ k.buf.length ≤ 4 ∧ k.eoi = e.2.2 ∧ tkM s.self.shape k.tok * tkN s.self.shape k.tok = 32 ∧ k.tok.getLsbD 17 = false)
    ∧ ∀ n ∈ [0, 12], ∀ k ∈ [{ mc (tok 7 0 0) 0 0 true with pos := n, buf := List.replicate n 0 }], ∀ s ∈ [ws (xMn [] [k])],
      s.self.mn.cmds[0]? = some k ∧ tkOpc k.tok = 7 ∧ bits k.tok 28 27 = 0 ∧ tkCh k.tok = 0 ∧ (s.self.join 0).credits ≠ 0
      ∧ s.self.fab.again = [] ∧ sendFault (s.self.join 0) (k.pos / 16) 0x300 = none ∧ 32 ≤ (s.self.join 0).len
      ∧ s.deadOn false 40 (coreOf 0) ((((s.leaseFor 0).at? (handleSink (s.self.join 0).handle)).map coreOf).getD (coreOf 0)) = none := by decide +kernel
theorem witness_MatrixEndOfStream : ∀ s ∈ [ws (xMn [.marker 2] [])], s.self.active? = true ∧ s.self.fab.port? 48 = some (po [.marker 2] []) ∧ s.self.mn.cmds = []
    ∧ s.self.fab.port? 49 = some (po [] []) ∧ (po [] []).toks = [] ∧ s.self.fab.canClose (.port 49) 1 = true ∧ s.self.fab.port? 50 = none := by decide +kernel

/-! ### Witnesses: the accumulate network -/

/-- A chain parameter of 16 elements, one block of it in one position, mode ORDERED or ANCHORED. -/
def par0 (anch : Bool) : W64 := BitVec.ofNat 64 (16 + 2 ^ 22 + (if anch then 2 ^ 51 else 0))
/-- An open chain of context 0 with position 0 joined by slot 0 of context 0. -/
def ch0 (st : Nat) (staged : List AcnBlock) : SinkChain :=
  { ctx := 0, st := st, param := par0 false, base := 0x400, cnt := 0, far := false, added := 0, flags := 0, joined := [(0, 0, 0)], staged := staged, next := [] }
/-- A block for it. -/
def blk0 : AcnBlock := { src := 0, key := 0, unit := 3, ten := 0, sink := (0, 0), cid := 0, pos := 0, blk := 0, els := [1, 2], room := 0 }
/-- Context x in a lease, its core with chains and the network with messages. -/
def sAcn (x : Ctx) (chains : Map SinkChain) (ms : List AcnMsg) : State :=
  { (sLe le0 x).setCore 0 { Core.blank with sinks := chains } with acnMsgs := ms }
/-- The lowest free id is 0, and 1 where 0 is in use. -/
theorem witness_AchOpen : ∀ a ∈ [false, true], ∀ s ∈ [sAcn { x0 with g := Vector.ofFn (fun i => if i.val = 1 then par0 a else if i.val = 2 then 0x400 else 0) } [] []],
    s.self.guard gT = true ∧ s.self.pends 3 = false ∧ s.self.cntSt = 0 ∧ s.openFault 0 (s.self.reg 1) (s.self.reg 2) = none ∧ s.chain? 0 0 = none
    ∧ ((s.setCore 0 { Core.blank with sinks := [(0, { ch0 1 [] with base := 0x800 })] }).chain? 0 0).isSome = true := by decide +kernel
/-- A reserved bit, a position above 511, a slot in use, and a handle in the lease. -/
theorem witness_AchJoin : ((1#64 <<< 20).toNat / 2 ^ 20 ≠ 0) ∧ (0#64).toNat / 16 % 32 < ((sAcn x0 [] []).leaseFor 0).w ∧ (0#64).toNat / 2 ^ 9 % 16 < ((sAcn x0 [] []).leaseFor 0).h
    ∧ 512 > 511 ∧ ((sAcn (xMn [] []) [] []).self.join 0).st ≠ 0 ∧ ((sAcn x0 [] []).self.join 0).st = 0 ∧ (sAcn x0 [] []).dead = []
    ∧ ((sAcn x0 [] []).leaseFor 0).at? (0, 0) = some 0 ∧ (0#64).toNat / 2 ^ 13 % 8 = 0 ∧ (sAcn x0 [] []).self.guard gT = true := by decide +kernel
theorem witness_AchWords : (∀ st ∈ [1, 2, 3], (sAcn x0 [(0, ch0 st [])] []).chain? 0 (0#4).toNat = some (ch0 st []) ∧ (ch0 st []).ctx = (sAcn x0 [] []).cur)
    ∧ (sAcn x0 [] []).chain? 0 0 = none ∧ ((sAcn x0 [] []).self.join 0).out = 0 ∧ (({ x0 with joins := [{ js 4 64 false 1 with out := 1 }] } : Ctx).join 0).out ≠ 0
    ∧ (sAcn x0 [] []).self.achInt ≠ some ((sAcn x0 [] []).self.ipc, 0) ∧ (sAcn { x0 with achInt := some (0, 0) } [] []).self.achInt = some (x0.ipc, 0)
    ∧ (sAcn x0 [] []).self.det = false ∧ (sAcn { x0 with det := true } [] []).self.det = true := by decide +kernel
theorem witness_AchAbort : (sAcn x0 [(0, ch0 1 [blk0])] []).chain? 0 0 = some (ch0 1 [blk0]) ∧ (sAcn x0 [(0, ch0 1 [blk0])] []).dead = [] := by decide +kernel
/-- A message of context 0 to itself. -/
def ms0 (b : AcnBody) : AcnMsg := ⟨7, 0, 0, b⟩
/-- A request for a free position, and one for an id not held. -/
theorem witness_JoinRequests : ∀ s ∈ [sAcn x0 [(0, { ch0 1 [] with joined := [] })] [ms0 (.joinReq 0 1 0 0 16)]], s.acnNextMsg 0 = some (ms0 (.joinReq 0 1 0 0 16))
    ∧ s.acnHeld 7 = false ∧ s.dead = [] ∧ s.leaseAt 7 = some le0 ∧ le0.at? (0, 0) = some 0 ∧ (s.ctx 0).st ≠ .empty
    ∧ s.chain? 0 0 = some { ch0 1 [] with joined := [] } ∧ 0 < (par0 false).toNat / 2 ^ 39 % 2 ^ 9 + 1 ∧ (sAcn x0 [] []).chain? 0 (1#64).toNat = none := by decide +kernel
theorem witness_JoinReplies : ∀ f ∈ [none, some trap0], ∀ s ∈ [sAcn { x0 with st := .waiting, wait := some (.achJoin 1 none) } [] [ms0 (.joinRep 0 0 f 1 16 false 0 0)]],
    (s.ctx 0).wait = some (.achJoin 1 none) ∧ (s.ctx 0).raised = [] ∧ s.acnNextMsg 0 = some (ms0 (.joinRep 0 0 f 1 16 false 0 0)) := by decide +kernel
/-- An ACPUT cell whose block waits. -/
def kPut : Cell := { kc (cw 0x72 0) with waitBlk := [(0, [1, 2])] }
theorem witness_BlockSends : ∀ s ∈ [sAcn ((xMn [] []).withCell 3 kPut) [] []], (s.ctx 0).cur.st = .running ∧ (s.ctx 0).fab.stopped = false ∧ s.dead = []
    ∧ (s.ctx 0).fab.cells.find? (fun e => wOp e.2.word == 0x72 && wImm e.2.word % 16 == 0 && !e.2.waitBlk.isEmpty) = some (3, kPut) ∧ kPut.waitBlk = (0, [1, 2]) :: []
    ∧ (∀ e ∈ (s.ctx 0).fab.again, e.1 ≠ 0) ∧ s.acnStop (s.ctx 0).lease = false ∧ ((s.ctx 0).join 0).credits ≠ 0 ∧ sendFault { (s.ctx 0).join 0 with next := 0 } 0 3 = none := by decide +kernel
/-- A refused block that is sent again. -/
theorem witness_BlockAgain : ∀ x ∈ [{ xMn [] [] with fab := { (xMn [] []).fab with again := [(0, 3, 0, [1, 2])] } }], ∀ s ∈ [sAcn x [] []],
    (s.ctx 0).cur.st = .running ∧ (s.ctx 0).fab.stopped = false ∧ s.dead = [] ∧ (s.ctx 0).fab.again = (0, 3, 0, [1, 2]) :: [] ∧ (s.ctx 0).fab.held = false
    ∧ s.acnStop (s.ctx 0).lease = false ∧ sendFault { (s.ctx 0).join 0 with next := 0 } 0 3 = none := by decide +kernel
/-- A block for an open chain, for a finalised one, for a complete one, for none, and of another tenant. -/
theorem witness_BlockArrivals : (∀ st ∈ [1, 2, 3], ∀ s ∈ [sAcn x0 [(0, ch0 st [])] [ms0 (.data blk0)]], s.acnNextMsg 0 = some (ms0 (.data blk0)) ∧ s.acnHeld 7 = false
      ∧ s.leaseAt 7 = some le0 ∧ le0.at? blk0.sink = some 0 ∧ (s.ctx 0).ten.toNat = blk0.ten ∧ s.chain? 0 blk0.cid = some (ch0 st []) ∧ (0, 0, 0) ∈ (ch0 st []).joined ∧ ((ch0 st []).staged.filter (fun q => q.pos == blk0.pos)).length < parW (ch0 st []).param)
    ∧ (sAcn x0 [] []).chain? 0 0 = none ∧ ((sAcn x0 [] []).ctx 0).st ≠ .empty ∧ ((sAcn x0 [] []).ctx 0).ten.toNat ≠ 5 ∧ (sAcn x0 [] []).dead = [] := by decide +kernel
/-- A full block for a chain of sixteen elements in either mode; an element that lies half way between two units of the anchor. -/
theorem witness_SinkAdditions : (∀ a ∈ [false, true], ∀ k ∈ [{ ch0 1 [] with param := par0 a }], ∀ s ∈ [sAcn x0 [(0, k)] []],
      16 = min 16 (parL k.param - 16 * 0) ∧ ((List.replicate 16 (1 : W32)).length = 16) ∧ ((s.ctx k.ctx).banks.map (·.bank)).Nodup ∧ k.base % 64 = 0
      ∧ k.base + parZ k.param ≤ (s.ctx k.ctx).budget ∧ (s.core (coreOf k.ctx)).sram.wf = true ∧ k.param.getLsbD 51 = a)
    ∧ (∃ m e, Fmt.fp32.val 0x3F800000 = .fin false m e) ∧ Fmt.fp32.val 0x7FC00000 = .nan false ∧ Fmt.fp32.val 0x7F800000 = .inf false
    ∧ Fmt.fp32.val 0xFF800000 = .inf true := ⟨by decide +kernel, ⟨_, _, rfl⟩, by decide, by decide, by decide⟩
/-- The chain served next, and the last in turn. -/
theorem witness_SinkAdder : (∀ n ∈ [0, 15], ∀ s ∈ [(sAcn x0 [] []).setCore 0 { Core.blank with sinks := [(0, ch0 1 [blk0])], acnNext := (16 - n) % 16 }],
      0 = ((s.core 0).acnNext + n) % 16 ∧ s.chain? 0 0 = some (ch0 1 [blk0]) ∧ s.dead = []
      ∧ (∀ m ∈ List.range n, s.chain? 0 (((s.core 0).acnNext + m) % 16) = none))
    ∧ (ch0 1 [blk0]).added < parKC (ch0 1 [blk0]).param ∧ (ch0 1 [blk0]).ready = some blk0 ∧ coreOf (ch0 1 [blk0]).ctx = 0
    ∧ ({ ch0 1 [blk0] with param := par0 true } : SinkChain).ready = some blk0 := by decide +kernel
theorem witness_Credits : (∀ b ∈ [AcnBody.credit 0 0, .abort 0 0, .refusal 0 0 3 2 blk0], (sAcn (xMn [] []) [] [ms0 b]).acnNextMsg 0 = some (ms0 b))
    ∧ ((sAcn (xMn [] []) [] []).self.join 0).st = 4 ∧ ((sAcn (xMn [] []) [] []).self.join (0 % 16)).key = 0 := by decide +kernel
/-- A chain whose blocks are all added; a finalised one, with acn.done bound and not bound; an acn.done with no chain open. -/
def xDone (toks : List W32) : Ctx :=
  { xRun with fab := { xRun.fab with ports := [(52, { po [] [] with toks := toks })], segs := [⟨.unit (.port 52), [{ br0 with cum := 5 }], 0, 0, none, 0, false⟩] } }
theorem witness_Completion : ∀ a ∈ [false, true], ∀ k ∈ [{ ch0 1 [] with added := 1, param := par0 a }], (sAcn x0 [(0, k)] []).chain? 0 0 = some k ∧ k.added ≥ parKC k.param
    ∧ k.param.getLsbD 51 = a ∧ coreOf k.ctx = 0 ∧ (sAcn x0 [(0, ch0 3 [blk0])] []).chain? 0 0 = some (ch0 3 [blk0]) ∧ (ch0 3 []).far = false
    ∧ ((sAcn x0 [] []).ctx 0).openPort 52 = none := by decide +kernel
/-- A counter in device memory. -/
def chFar : SinkChain := { ch0 3 [] with far := true, cnt := 0x20100, param := BitVec.ofNat 64 (16 + 2 ^ 22 + 2 ^ 52) }
theorem witness_FarCounter : (dev (sAcn x0 [(0, chFar)] [])).chain? 0 0 = some chFar ∧ chFar.param.getLsbD 52 = true ∧ 0x40100 % 8 = 0
    ∧ (dev (sAcn x0 [] [])).mem.wf = true ∧ ((dev (sAcn x0 [] [])).ctx 0).openPort 52 = none := by decide +kernel
theorem witness_FarCounterTranslates : (dev (sAcn x0 [(0, chFar)] [])).UnitOk 0 0x20100 8 ⟨true, true⟩ 0x40100 :=
  ⟨⟨by decide, ent0, by decide +kernel⟩, by decide +kernel⟩
theorem witness_CompletionPort : ∀ n ∈ [0, 3], ((sAcn (xDone (List.replicate n 0)) [] []).ctx 0).openPort 52 = some { po [] [] with toks := List.replicate n 0 }
    ∧ (List.replicate n (0 : W32)).length < 4 ∧ ((sAcn (xDone []) [] []).ctx 0).fab.routed (.port 52) = true
    ∧ ((sAcn (xDone []) [] []).ctx 0).fab.canClose (.port 52) 1 = true ∧ ((sAcn (xDone []) [] []).core 0).sinks = [] := by decide +kernel

/-! ### Witnesses: device memory as the sequencer reaches it -/

/-- Context 0 with g1 = a, g2 = b; the translations ent0 and ent1 are cached. -/
def sD (a b : Nat) : State := dev (ws { x0 with g := Vector.ofFn (fun i => if i.val = 1 then BitVec.ofNat 64 a else if i.val = 2 then BitVec.ofNat 64 b else 0) })
theorem witness_DevOk : ∀ e ∈ [(0x20004, 4, 63), (0x20008, 8, 63), (0x20010, 16, 63), (0x20040, 64, 63), (2 ^ 63 + 0x20008, 8, 62)],
    (sD e.1 0).DevOk 0 ((sD e.1 0).self.reg 1) e.2.1 e.2.2 ⟨true, true⟩ (0x20000 + e.1 % 2 ^ 56)
    ∧ (sD e.1 0).DevOk 0 ((sD e.1 0).self.reg 1) e.2.1 e.2.2 ⟨true, false⟩ (0x20000 + e.1 % 2 ^ 56) := by
  have h : ∀ e ∈ [(0x20004, 4, 63), (0x20008, 8, 63), (0x20010, 16, 63), (0x20040, 64, 63), (2 ^ 63 + 0x20008, 8, 62)],
      ((sD e.1 0).self.reg 1).toNat % e.2.1 = 0 ∧ bits ((sD e.1 0).self.reg 1) e.2.2 56 = 0 ∧ (sD e.1 0).isLocal (0x20000 + e.1 % 2 ^ 56) = true
      ∧ (sD e.1 0).accessFault ((sD e.1 0).ctx 0).ten.toNat (some (dieOf (coreOf 0))) (bits ((sD e.1 0).self.reg 1) 55 0) (0x20000 + e.1 % 2 ^ 56) e.2.1 = none
      ∧ (sD e.1 0).tlbHit (coreOf 0) (dieOf (coreOf 0)) ((sD e.1 0).ctx 0).asid.toNat (bits ((sD e.1 0).self.reg 1) 55 0) = some ent0
      ∧ 0x20000 + e.1 % 2 ^ 56 = ent0.pa + (bits ((sD e.1 0).self.reg 1) 55 0 - ent0.va) := by decide +kernel
  intro e he
  have ⟨h1, h2, h3, h4, h5, h6⟩ := h e he
  exact ⟨⟨h1, h2, h3, h4, ent0, h5, fun _ => rfl, fun _ => rfl, h6⟩, h1, h2, h3, h4, ent0, h5, fun _ => rfl, fun _ => rfl, h6⟩
/-- A local operand, and one in a page of another package. -/
theorem witness_DevAny : (sD 0x20010 0).DevAny 0 ((sD 0x20010 0).self.reg 1) 16 63 ⟨true, true⟩ 0x40010
    ∧ (sD 0x40010 0).DevAny 0 ((sD 0x40010 0).self.reg 1) 16 63 ⟨true, true⟩ (0x40010 + 2 ^ 40) :=
  ⟨⟨by decide +kernel, by decide +kernel, by decide +kernel, ent0, by decide +kernel⟩, by decide +kernel, by decide +kernel, by decide +kernel, ent1, by decide +kernel⟩
theorem witness_DeviceAtomics : (sD 0x20004 0).self.guard gT = true ∧ (sD 0x20004 0).self.pends 3 = false ∧ (sD 0x20004 0).self.cntLd < 31
    ∧ (sD 0x20004 0).self.det = false ∧ ((sD 0x20004 0).self.reg 1).toNat % 2 ^ 56 = 0x20004 := by decide +kernel
theorem witness_DeviceOperands : (sD 0x10001 0).self.det = false ∧ ((sD 0x10001 0).self.reg 1).toNat % 4 ≠ 0 ∧ ((sD (2 ^ 56) 0).self.reg 1).toNat % 4 = 0
    ∧ ((sD (2 ^ 56) 0).self.reg 1).toNat / 2 ^ 56 ≠ 0 ∧ (ws { x0 with det := true }).self.det = true := by decide +kernel
/-- A request of context 0 for the line at 0x40000. -/
def rq0 (k : DKind) (st : DStage) : DReq :=
  { id := 0, ipc := 0, who := .ctx 0, ten := 0, asid := 0, va := 0x20000, pa := 0x40000, kind := k, stage := st, res := 0, data := [], fault := none, checked := false }
/-- The line at 0x40000, in its home's L2. -/
def l2l : L2Line := { pa := 0x40000, way := 0, remote := false, dirty := false, sharers := [], ten := 0, handle := 0, armed := false }
/-- The request stands at the home slice of its line; the memory holds m. -/
def sH (k : DKind) (m : Mem) (x : Ctx) : State :=
  { ws x with dreqs := [rq0 k .home], dreqN := 1, mem := m, dies := [(0, { Die.blank with stlb := [ent0], l2 := [l2l] })] }
theorem witness_HomeRequests : ∀ k ∈ [DKind.amo .cas 4 5 7, .amo .add 8 5 7, .write [1, 2, 3], .afadd 0x3F800000 true false, .afadd 0x3F800000 true true, .read 8,
    .barArr, .barReg 0, .cntRead], (sH k [] x0).AtHome 0 (rq0 k .home) ∧ 0x40000 % 16 = 0 ∧ memKey 0x40000 + 3 ≤ 2 ^ 40 := by decide +kernel
/-- A record with a bad anchor. -/
theorem witness_BadRecord : (sH (.afadd 0 true false) [⟨0x4000A, 0x80⟩] x0).AtHome 0 (rq0 (.afadd 0 true false) .home)
    ∧ anchorOk (((sH (.afadd 0 true false) [⟨0x4000A, 0x80⟩] x0).devBytes 0x40000 16).getD 10 0) = false := by decide +kernel
/-- An addition to a record succeeds. -/
def isRec : Except (BitVec 8) (List Byte) → Bool
  | .ok _ => true
  | .error _ => false
theorem witness_AnchoredRecord : isRec (afaddRecord ((sH .barArr [] x0).devBytes 0x40000 16) 0x3F800000) = true := by decide +kernel
/-- A request for a page of another package. -/
theorem witness_FarRequests : ∀ k ∈ [DKind.read 8, .write [1], .amo .add 8 5 7], ∀ r ∈ [{ rq0 k .home with pa := 0x40000 + 2 ^ 40 }],
    ∀ s ∈ [{ s0 with dreqs := [r] }], s.dreqs[0]? = some r ∧ s.reqReady r = true ∧ s.isLocal r.pa = false := by decide +kernel
/-- Without a trained port the target is lost. -/
theorem witness_FarOutcome : s0.peerOutcome = 2 ∧ (∃ op v x, DKind.amo .add 4 5 7 = .amo op 4 v x) ∧ ∃ v, DKind.afadd 1 false true = .afadd v false true :=
  ⟨by decide +kernel, ⟨_, _, _, rfl⟩, _, rfl⟩
theorem witness_DeviceAnswers : ∀ f ∈ [none, some trap0], ∀ s ∈ [{ ws { x0 with ops := [⟨0, false, 1, .dev 0, false, 0, none⟩] } with
      dreqs := [{ rq0 (.read 4) .done with fault := f }] }], s.dreqs[0]? = some { rq0 (.read 4) .done with fault := f }
    ∧ (s.ctx 0).ops.find? (fun o => o.body == .dev 0) = some ⟨0, false, 1, .dev 0, false, 0, none⟩ := by
  decide +kernel
/-- Scope SYS with nothing outstanding; a load counted; a remote access; a waiting FENCE. -/
theorem witness_Fences : s0.self.cntLd = 0 ∧ s0.self.cntSt = 0 ∧ s0.self.rso = 0 ∧ s0.dreqs = [] ∧ (4#3).toNat = 4 ∧ (ws xLd).self.cntLd ≠ 0
    ∧ (∀ r ∈ [{ rq0 (.read 8) .out with pa := 2 ^ 40 }], r.who = .ctx 0 ∧ s0.isLocal r.pa = false)
    ∧ (∀ x ∈ [{ x0 with st := .waiting, wait := some (.fence 3) }], x.wait = some (.fence 3) ∧ (ws x).self.st = .waiting ∧ (ws x).self.raised = []
      ∧ (ws x).self.gated = false ∧ (ws x).self.cntLd = 0 ∧ (ws x).self.cntSt = 0) := by decide +kernel
/-- A counter in the scratchpad and one in device memory. -/
theorem witness_CounterWords : (sD 8 0).self.cntCp = 0 ∧ ((sD 8 0).self.reg 1).getLsbD 63 = false ∧ (sD 8 0).SpadOk 0 ((sD 8 0).self.reg 1).toNat 8
    ∧ ((sD (2 ^ 63 + 0x20008) 0).self.reg 1).getLsbD 63 = true ∧ (ws xLd).self.cntLd ≠ 0 ∧ (sD 8 0).self.spadBusy 8 8 = false
    ∧ (sD 8 0).self.reg 2 ≤ w64 ((sD 8 0).spadBytes 0 8 8) ∧ w64 ((sD 8 1).spadBytes 0 8 8) < (sD 8 1).self.reg 2 ∧ (sD 8 0).self.det = false
    ∧ (sD (2 ^ 63 + 0x20008) 0).lineBusy 0 0x40008 = false ∧ (sD 0 0).self.reg 2 ≤ (sD 0 0).dev64 0x40008 ∧ (sD 0 1).dev64 0x40008 < (sD 0 1).self.reg 2 ∧ (sD 0 0).dead = [] := by
  decide +kernel
/-- Context 0 waits at a counter. -/
def sCnt (w : Wait) : State := dev (ws { x0 with st := .waiting, wait := some w })
theorem witness_CounterWaitsEnd : (sCnt (.cntMem 1 0x20008 0 none)).lineBusy 0 0x40008 = false ∧ (0#64) ≤ s0.dev64 0x40008 ∧ s0.dev64 0x40008 < (1#64) ∧ (sCnt (.cntMem 1 0x20008 0 none)).dead = []
    ∧ (sCnt (.cntMem 1 0x20008 0 none)).isLocal 0x40008 = true
    ∧ (sCnt (.cntMem 1 0x20008 0 none)).accessFault 0 (some (dieOf (coreOf 0))) 0x20008 0x40008 8 = none := by decide +kernel
theorem witness_CounterWaitsEndLocal : (sCnt (.cntSpad 1 8 0)).self.wait = some (.cntSpad 1 8 0) ∧ (sCnt (.cntSpad 1 8 0)).self.spadBusy 8 8 = false
    ∧ (sCnt (.cntSpad 1 8 0)).SpadOk 0 8 8 ∧ (0#64) ≤ w64 (s0.spadBytes 0 8 8) ∧ w64 (s0.spadBytes 0 8 8) < (1#64)
    ∧ (sCnt (.cntMem 1 8 0 (some 5))).self.st = .waiting ∧ (sCnt (.cntMem 1 8 0 (some 5))).self.raised = [] ∧ (sCnt (.cntMem 1 8 0 (some 5))).self.gated = false := by
  decide +kernel
theorem witness_CounterWaitsTranslate : (sCnt (.cntMem 1 0x20008 0 none)).Cached 0 0x20008 ⟨true, false⟩ 0x40008 := ⟨by decide, ent0, by decide +kernel⟩
/-- A barrier word of generation 5, total 3, with `left` arrivals to come, at 0x40000. -/
def bar (left : BitVec 8) : Mem := if left = 0 then [⟨0x40002, 3⟩, ⟨0x40004, 5⟩] else [⟨0x40000, left⟩, ⟨0x40002, 3⟩, ⟨0x40004, 5⟩]
/-- g1 names the line, g2 is the generation waited for. -/
def sBar (left : BitVec 8) (gen : Nat) : State := { sD 0x20000 gen with mem := bar left }
theorem witness_BarrierWords : (∀ n ∈ [0, 1, 3, 4], ((sBar (BitVec.ofNat 8 n) 5).dev64 0x40000).toNat = 5 * 2 ^ 32 + 3 * 2 ^ 16 + n)
    ∧ ((sBar 1 5).self.reg 2).toNat % 2 ^ 16 = 5 ∧ ((sBar 1 6).self.reg 2).toNat % 2 ^ 16 ≠ 5
    ∧ (sBar 1 5).lineBusy 0 0x40000 = false ∧ (sBar 1 5).self.cntLd = 0 ∧ (sBar 1 5).self.cntSt = 0 ∧ 3 < 4
    ∧ ({ sBar 1 5 with dreqs := [rq0 .barArr .out] }).lineBusy 0 0x40000 = true := by decide +kernel
theorem witness_BarrierLine : (sBar 1 5).DevOk 0 ((sBar 1 5).self.reg 1) 64 63 ⟨true, true⟩ 0x40000 ∧ (sBar 1 5).DevOk 0 ((sBar 1 5).self.reg 1) 64 63 ⟨true, false⟩ 0x40000 :=
  ⟨⟨by decide +kernel, by decide +kernel, by decide +kernel, by decide +kernel, ent0, by decide +kernel⟩,
    by decide +kernel, by decide +kernel, by decide +kernel, by decide +kernel, ent0, by decide +kernel⟩
/-- Context 0 waits at the barrier, registered or about to register. -/
def xBar (st : Option Bool) : Ctx := { x0 with st := .waiting, wait := some (.barrier 1 0x20000 0x40000 none st) }
theorem witness_Barriers : ∀ left ∈ [0#8, 1, 3, 4], ∀ k ∈ [DKind.barArr, .barReg 5, .barReg 4], (sH k (bar left) (xBar none)).AtHome 0 (rq0 k .home)
    ∧ (sH k (bar left) (xBar none)).dev64 0x40000 = BitVec.ofNat 64 (5 * 2 ^ 32 + 3 * 2 ^ 16 + left.toNat)
    ∧ (sH k (bar left) (xBar none)).armedOthers 0x40000 < 8 ∧ ((sH k (bar left) (xBar none)).ctx 0).wait = some (.barrier 1 0x20000 0x40000 none none)
    ∧ ((ws (xBar (some false))).ctx 0).wait = some (.barrier 1 0x20000 0x40000 none (some false)) ∧ (ws (xBar (some false))).self.gated = false
    ∧ (ws (xBar (some false))).meshFault (coreOf 0) 0x20000 0x40000 = none := by decide +kernel
/-- No handle is open; one is; the greatest number is the only free one; all 255 are open. -/
def sRes (hs : List ResHandle) (a b : Nat) : State := { sD a b with dies := [(0, { Die.blank with handles := hs })] }
theorem witness_Residency : (sRes [] 0 (2 ^ 17 + 7)).self.guard gT = true ∧ (sRes [] 0 (2 ^ 17 + 7)).self.pends 3 = false ∧ ((sRes [] 0 (2 ^ 17 + 7)).self.reg 1).toNat % 2 ^ 17 = 0
    ∧ ((sRes [] 0 (2 ^ 17 + 7)).self.reg 2).toNat % 2 ^ 17 < 8 ∧ ((sRes [] 0 (2 ^ 17 + 7)).self.reg 2).toNat / 2 ^ 17 * 2 ^ 17 = 2 ^ 17
    ∧ ((sRes [] 0 (2 ^ 17 + 7)).self.reg 1).toNat + 2 ^ 17 ≤ 2 ^ 56 ∧ ((sRes [] 0 (2 ^ 17 + 7)).die 0).handles = [] ∧ dieOf (coreOf 0) = 0
    ∧ (∃ h ∈ ((sRes [⟨255, 0, 0, 2 ^ 17, 1⟩] 255 7).die 0).handles, h.num = ((sRes [⟨255, 0, 0, 2 ^ 17, 1⟩] 255 7).self.reg 1).toNat ∧ h.asid = 0)
    ∧ (sRes [⟨255, 0, 0, 2 ^ 17, 1⟩] 255 7).self.reg 2 < 8 := by decide +kernel
theorem witness_ResidencyFull : ∀ n, 1 ≤ n → n ≤ 255 →
    ∃ h ∈ ((sRes ((List.range 256).map (fun i => ⟨i, 1, 0, 0, 0⟩)) 0 (2 ^ 17)).die 0).handles, h.num = n := by
  intro n _ h2
  exact ⟨⟨n, 1, 0, 0, 0⟩, List.mem_map.mpr ⟨n, List.mem_range.mpr (by omega), rfl⟩, rfl⟩
/-- The system tenant with a good ASID; a tenant other than it with its own ASID and with another. -/
theorem witness_TlbWords : (sD 0x20000 3).self.ten = 0 ∧ ((sD 0x20000 3).self.reg 1).toNat < 2 ^ 56 ∧ ((sD 0x20000 3).self.reg 2).toNat < 2 ^ 11
    ∧ (sD 0x20000 3).tlbBusy 0 3 ((sD 0x20000 3).widestPage 3 0x20000) = false ∧ (sH (.read 4) [] x0).tlbBusy 0 0 ((sH (.read 4) [] x0).widestPage 0 0x20000) = true
    ∧ (ws { x0 with ten := 1 }).self.ten ≠ 0 ∧ ((ws { x0 with ten := 1 }).self.reg 1).toNat ≠ (ws { x0 with ten := 1 }).self.asid.toNat := by decide +kernel
/-- Page tables that map the first gigabyte of ASID 0 to itself; with a leaf that migrates. -/
def pgMem (mig : Bool) : Mem := [⟨0, 1⟩, ⟨2, 1⟩, ⟨0x10000, 1⟩, ⟨0x10002, 2⟩, ⟨0x20000, if mig then 0x2F else 0xF⟩]
/-- The leaf. -/
def leaf0 (mig : Bool) : Leaf := { va := 0, size := 2 ^ 30, pa := 0, rd := true, wr := true, mig := mig, lvl := 1 }
/-- A walk asked for. -/
def wk0 : WalkReq := ⟨.ctx 0, 0, 0x1234, false, true, true, (0, 2 ^ 30), 0⟩
/-- A walk found a leaf. -/
def isLeaf (l : Leaf) : Except (Nat × Nat) Leaf → Bool
  | .ok k => k == l
  | .error _ => false
theorem witness_Walks : (∀ m ∈ [false, true], isLeaf (leaf0 m) ({ s0 with mem := pgMem m, dies := [(0, { Die.blank with walks := [wk0] })] }.walk 0 0 0x1234) = true)
    ∧ (leaf0 false).va ≤ wk0.va ∧ wk0.va < (leaf0 false).va + (leaf0 false).size ∧ ({ s0 with dies := [(0, { Die.blank with walks := [wk0] })] }.die 0).walks = [wk0]
    ∧ ({ s0 with dies := [(0, { Die.blank with retry := [wk0] })] }.die 0).retry[0]? = some wk0 ∧ wk0.at_ + 64 ≤ 64
    ∧ ({ s0 with dies := [(0, { Die.blank with replay := [wk0] })] }.die 0).replay = [wk0] ∧ wk0.go = true ∧ wk0.page.1 ≤ wk0.va ∧ wk0.va < wk0.page.1 + wk0.page.2 := by
  decide +kernel
/-- A request that the L2 misses and that the tenant table admits, with its sector in the cache layer when h. -/
def sMiss (h : Bool) : State := { s0 with dreqs := [rq0 (.read 4) .home], hbm := if h then [⟨0, 0x40000, 0, [0], [], 0, 0⟩] else [] }
/-- A fill of an empty set; a slice in conversion; a request that the L2 misses, allowed and refused; a cache layer with the block and without. -/
theorem witness_Caches : (∀ h ∈ [false, true], (sMiss h).dreqs.find? (fun q => (sMiss h).missing q && lineOf q.pa == lineOf 0x40000
        && (sMiss h).ownerDie (stackOf q.pa) == 0 && (sMiss h).handleOf 0 q.asid q.va == 0) = some (rq0 (.read 4) .home)
      ∧ (sMiss h).hbm.any (fun b => b.blk == memKey 0x40000 / 4096 * 4096 && b.valid.contains (memKey 0x40000 / 256 % 16)) = h
      ∧ (sMiss h).dreqs[0]? = some (rq0 (.read 4) .home) ∧ (sMiss h).homeLine 0x40000 = none ∧ (sMiss h).reqFault (rq0 (.read 4) .home) 4 = none
      ∧ 0 < 16 - ((sMiss h).remw 0 (sliceOf (lineOf 0x40000))).2 ∧ (sMiss h).setLines 0 (lineOf 0x40000) = [] ∧ (sMiss h).isLocal 0x40000 = true)
    ∧ ((({ s0 with dies := [(0, { Die.blank with convert := [(7, 4)] })] }).die 0).convert.get? 7 = some 4)
    ∧ (∀ k ∈ [DKind.read 4, .barReg 5], ∀ s ∈ [{ s0 with dreqs := [rq0 k .home], hbmPoison := [0x40000] }],
      (s.reqFault (rq0 k .home) k.size).map (·.cls) = some 5 ∧ s.homeLine 0x40000 = none ∧ (rq0 k .home).who = .ctx 0) := by
  decide +kernel
/-- A flit of request 0 at a router, which has crossed n routers. -/
def fl (at_ dst : CoreId) (resp : Bool) (n : Nat) : Flit := ⟨0, resp, 0, at_, 0, dst, 3, if n = 0 then 0 else 1, n⟩
/-- A flit that leaves core 21 by each side, at the start of its segment and at its end; a response and a request at their last router. -/
theorem witness_Mesh : (∀ e ∈ [(1, 1), (2, 22), (3, 41), (4, 20)], ∀ n ∈ [0, 7], ∀ s ∈ [{ s0 with time := 1, dreqs := [rq0 (.read 4) .out], flits := [fl 21 e.2 false n] }],
      ∀ s₁ ∈ [{ s with flits := s.flits.map (Flit.settle s.time) }], fl 21 e.2 false n ∉ s₁.flits.erase (fl 21 e.2 false n)
      ∧ s.dreqs.find? (fun q => q.id == 0) = some (rq0 (.read 4) .out) ∧ s.dead = [] ∧ s₁.competing 21 e.1 = [fl 21 e.2 false n] ∧ (s.arb 21 e.1).last ≠ some s.time)
    ∧ (∀ s ∈ [{ s0 with time := 1, dreqs := [rq0 (.read 4) .back], flits := [fl 0 0 true 0] }], s.competing 0 0 = [fl 0 0 true 0] ∧ (s.arb 0 0).last ≠ some s.time)
    ∧ ∀ s ∈ [{ s0 with time := 1, dreqs := [rq0 (.read 4) .out], flits := [fl (s0.homeCore 0x40000) (s0.homeCore 0x40000) false 0] }],
      s.competing (s0.homeCore 0x40000) 0 = [fl (s0.homeCore 0x40000) (s0.homeCore 0x40000) false 0]
      ∧ s.performCore (rq0 (.read 4) .out) = s0.homeCore 0x40000 := by decide +kernel

/-! ### Witnesses: copy engines, queues, tasks -/

/-- A packet body: TYPE and the next header byte, then CA and the words at 0x10 to 0x38, low bytes first. -/
def body (ty fl : Byte) (ws : List Nat) : List Byte := [ty, fl, 0, 0, 0, 0, 0, 0] ++ (ws.map (toBytes 8)).flatten
/-- A packet of context 0. -/
def pkt (b : List Byte) (st : Nat) : Pkt := ⟨0, .local none, 0, 0, 0, b, st, none, none, [], [], 0, [], none⟩
/-- Context x, whose core's engine holds packets. -/
def sCe (x : Ctx) (l : List Pkt) : State := (ws x).setCore 0 { Core.blank with pkts := l }
/-- A COPY of 8 bytes. -/
def copyB (a b : Nat) : List Byte := body 1 0 [0, a, b, 8, 0, 0, 0]
/-- A packet behind one that has started; a local submission that is next. -/
theorem witness_PacketsEnter : (sCe x0 [pkt (copyB 0 8) 1, pkt (copyB 0x100 0x200) 0]).pkt? 0 1 = some (pkt (copyB 0x100 0x200) 0)
    ∧ (∀ q ∈ ((sCe x0 [pkt (copyB 0 8) 1, pkt (copyB 0x100 0x200) 0]).core 0).pkts.take 1, q.stage ≠ 0) ∧ (pk64 (copyB 0x100 0x200) 0).getLsbD 8 = false
    ∧ (pk64 (body 1 1 []) 0).getLsbD 8 = true ∧ (∀ k ∈ [0, 3], (((ws x0).setCore 0 { Core.blank with ceLast := (k + 7) % 8 }).core 0).ceLast = (k + 7) % 8)
    ∧ ([⟨3, 0, 0, copyB 0 8⟩] : List Sub).find? (fun e => e.ctx == 4 * 0 + 3) = some ⟨3, 0, 0, copyB 0 8⟩ ∧ s0.leases.get? (s0.ctx 3).lease = none := by decide +kernel
/-- A scratchpad address of a packet passes its checks. -/
def okS (s : State) (c : CtxId) (a : CeAddr) (n : Nat) (rd : Bool) : Bool :=
  a.dev == false && a.a == (a.a.toNat : Int) && s.spadFault c (BitVec.ofNat 64 a.a.toNat) (min 4 n) n unitSeq == none && (s.ctx c).zeroing a.a.toNat n == false
    && (!rd || s.spadEcc c a.a.toNat n false == none) && s.dead.isEmpty
theorem place_ok (s : State) (w : Who) (c : CtxId) (asid ten : Nat) (a : CeAddr) (n : Nat) (need : Need) (h : okS s c a n need.rd = true) :
    s.PlaceOk w c asid ten a n need (.spad a.a.toNat) := by
  simp only [okS, Bool.and_eq_true, beq_iff_eq] at h
  obtain ⟨⟨⟨⟨⟨h1, h2⟩, h3⟩, h4⟩, h5⟩, h6⟩ := h
  exact Or.inr ⟨h1, a.a.toNat, h2, rfl, h3, h4, fun hr => by simpa [hr] using h5, by simp [State.spadLost, h6]⟩
/-- What EngOk asks of an access in the page that ent0 translates. -/
def okE (s : State) (w : Who) (die : Nat) (home : Option Nat) (asid ten a n : Nat) : Bool :=
  s.tlbHit w.core die asid (0x20000 + a) == some ent0 && s.isLocal (0x40000 + a) && s.accessFault ten home (0x20000 + a) (0x40000 + a) n == none
    && s.wallFault ten home (0x20000 + a) (0x40000 + a) == none && s.meshFault w.core (0x20000 + a) (0x40000 + a) == none
theorem eng_reach (s : State) (w : Who) (die : Nat) (home : Option Nat) (asid ten a n : Nat) (need : Need) (ha : a < 2 ^ 17)
    (h : okE s w die home asid ten a n = true) : s.EngOk w die home asid ten (0x20000 + a) n need (0x40000 + a) := by
  simp only [okE, Bool.and_eq_true, beq_iff_eq] at h
  obtain ⟨⟨⟨⟨h2, h3⟩, h4⟩, h5⟩, h6⟩ := h
  exact ⟨by omega, ⟨ent0, h2, fun _ => rfl, fun _ => rfl, by simp [ent0]⟩, h3, by unfold State.grantFault; split <;> assumption, h6⟩
/-- The accesses of an element whose places are in the scratchpad. -/
def good (s : State) (o : CeOwner) (u : CeUnit) : CeGood :=
  match u.src with
  | some a => ⟨some (.spad a.a.toNat), s.placeBytes o.ctx o.ctx u.n (.spad a.a.toNat), .spad u.dst.a.toNat⟩
  | none => ⟨none, toBytes u.n u.val.toNat, .spad u.dst.a.toNat⟩
/-- They pass their checks. -/
def okU (s : State) (c : CtxId) (u : CeUnit) : Bool := okS s c u.dst u.n false && (match u.src with | some a => okS s c a u.n true | none => true)
theorem units_ok (s : State) (w : Who) (o : CeOwner) (us : List CeUnit) (h : us.all (okU s o.ctx) = true) :
    List.Forall₂ (s.UnitGood w o o) us (us.map (good s o)) := by
  rw [List.forall₂_map_right_iff, List.forall₂_same]
  intro u hu
  have h := List.all_eq_true.mp h u hu
  simp only [okU, Bool.and_eq_true] at h
  cases e : u.src with
  | none => exact ⟨by simp [good, e], by simp [e], by simpa [good, e] using place_ok s w o.ctx o.asid o.ten u.dst u.n ⟨false, true⟩ h.1⟩
  | some a =>
    rw [e] at h
    refine ⟨by simp [e], ?_, by simpa [good, e] using place_ok s w o.ctx o.asid o.ten u.dst u.n ⟨false, true⟩ h.1⟩
    intro b hb
    have : b = a := by simpa [e] using hb.symm
    subst this
    exact ⟨_, by simp [good, e], place_ok s w o.ctx o.asid o.ten b u.n ⟨true, false⟩ h.2, by simp [good, e], by simp⟩
/-- One body for each of COPY, COPY2D, COPY4D, FILL. -/
def moves : List (List Byte) := [copyB 0x100 0x200, body 2 0 [0, 0x100, 0x200, 4 + 2 * 2 ^ 32, 0x40 + 0x10 * 2 ^ 32, 0, 0],
  body 3 0 [0, 0x100, 0x200, 4 + 2 ^ 16 + 2 ^ 32 + 2 ^ 48, 0, 0, 0], body 4 0 [0, 0x100, 8 + 7 * 2 ^ 32, 0, 0, 0, 0]]
theorem witness_EngineMoves : ∀ e ∈ moves.zip [1, 2, 3, 4], (sCe x0 [pkt e.1 1]).pkt? 0 0 = some (pkt e.1 1) ∧ pkPull e.1 = false ∧ pkType e.1 = e.2
    ∧ (copyUnits e.1).all (okU (sCe x0 [pkt e.1 1]) 0) = true ∧ (copyUnits e.1).length ≠ 0 ∧ pkCause false false none e.1 = none := by decide +kernel
theorem witness_EngineMovesGood : ∀ e ∈ moves.zip [1, 2, 3, 4], ∃ l, List.Forall₂ ((sCe x0 [pkt e.1 1]).UnitGood ((pkt e.1 1).who s0 0) (s0.owner 0) (s0.owner 0))
    (copyUnits e.1) l := fun e he => ⟨_, units_ok _ _ (s0.owner 0) _ (witness_EngineMoves e he).2.2.2.1⟩
/-- A COPY of two words in device memory of which one or both have been read and none or the first written. -/
def pktG (g : Map CeDone) : Pkt := { pkt (copyB (2 ^ 63 + 0x20100) (2 ^ 63 + 0x20200)) 1 with got := g }
/-- It stands in the engine. -/
def sOne (got : Map CeDone) : State := dev (sCe x0 [pktG got])
/-- The word read first. -/
def got0 (b : Bool) : CeDone := ⟨some (.mem 0x40100), [1, 2, 3, 4], b⟩
theorem witness_EngineMovesOneByOne : ∀ g, (sOne g).pkt? 0 0 = some (pktG g) ∧ (pktG g).notice = none
    ∧ (sOne g).pktWork (pktG g) = some ((sOne g).owner 0, [], copyUnits (copyB (2 ^ 63 + 0x20100) (2 ^ 63 + 0x20200))) := by
  intro g
  refine ⟨rfl, rfl, ?_⟩
  have h : pkType (pktG g).body = 1 := by show pkType (copyB _ _) = 1; decide +kernel
  have k : pkPull (pktG g).body = false := by show pkPull (copyB _ _) = false; decide +kernel
  unfold State.pktWork
  rw [h, k]
  rfl
theorem witness_EngineMovesOneByOneUnits : (copyUnits (copyB (2 ^ 63 + 0x20100) (2 ^ 63 + 0x20200))).map (fun u => (u.src.map (fun a => (a.dev, a.a)), u.n, u.dst.dev, u.dst.a))
      = [(some (true, 0x20100), 4, true, 0x20200), (some (true, 0x20104), 4, true, 0x20204)] ∧ (got0 false).bs.length = 4
    ∧ (Place.mem 0x40100).meets 4 4 true (.mem 0x40200) = false ∧ (sOne []).mem.wf = true ∧ memKey 0x40204 + 4 ≤ 2 ^ 40
    ∧ (pktG [(0, got0 false), (1, got0 false)]).got.get? 1 = some (got0 false) ∧ (pktG [(0, got0 true), (1, got0 false)]).got.get? 0 = some (got0 true)
    ∧ (pktG [(0, got0 false), (1, got0 false)]).read = [(4, .mem 0x40100), (4, .mem 0x40100)] := by decide +kernel
theorem witness_EngineMovesOneByOneGood : (sOne []).SrcOk (.engine 0 0 0) ((sOne []).owner 0) ((sOne []).owner 0) (ceAddr (2 ^ 63 + 0x20100)) 4 (.mem 0x40100) [0, 0, 0, 0]
    ∧ (sOne [(0, got0 false), (1, got0 false)]).PlaceOk (.engine 0 0 0) 0 0 0 (ceAddr (2 ^ 63 + 0x20200)) 4 ⟨false, true⟩ (.mem 0x40200) := by
  have h : ∀ g ∈ [[], [(0, got0 false), (1, got0 false)]], ∀ a ∈ [0x100, 0x200], okE (sOne g) (.engine 0 0 0) 0 (some 0) 0 0 a 4 = true := by decide +kernel
  exact ⟨⟨Or.inl ⟨by decide +kernel, 0x20100, 0x40100, by decide +kernel, rfl, eng_reach _ _ _ _ _ _ 0x100 4 _ (by decide) (h _ (by decide) _ (by decide))⟩,
      by decide +kernel, fun pa hp => by cases hp; decide +kernel⟩,
    Or.inl ⟨by decide +kernel, 0x20200, 0x40200, by decide +kernel, rfl, eng_reach _ _ _ _ _ _ 0x200 4 _ (by decide) (h _ (by decide) _ (by decide))⟩⟩
/-- A GATHER or SCATTER of one row of four bytes. -/
def rowB (ty : Byte) : List Byte := body ty 0 [0, 0x100, 0x200, 0x300, 1 + 4 * 2 ^ 32, 0, 0]
/-- Its index. -/
def idx0 : List (Place × List Byte) := [(.spad 0x100, [0, 0, 0, 0])]
theorem witness_EngineRows : ∀ ty ∈ [5#8, 6], ∀ s ∈ [sCe x0 [pkt (rowB ty) 1]], idx0.length = pk (rowB ty) 0x28 4 ∧ okS s 0 ((ceAddr (pk64 (rowB ty) 0x10)).plus (4 * 0)) 4 true = true
    ∧ ((ceAddr (pk64 (rowB ty) 0x10)).plus (4 * 0)).a.toNat = 0x100 ∧ s.spadBytes 0 0x100 4 = [0, 0, 0, 0]
    ∧ (rowUnits (rowB ty) (idx0.map (fun q => some (w32 q.2)))).all (okU (s.ceNote 0 (pkt (rowB ty) 1) (idx0.map (fun q => (4, q.1)))) 0) = true
    ∧ pkType (rowB ty) = ty.toNat ∧ s0.mem.wf = true ∧ memKey 8 + 4 ≤ 2 ^ 40 ∧ 4 + 4 ≤ 8 := by decide +kernel
theorem witness_EngineRowsGood : ∀ ty ∈ [5#8, 6], ∀ s ∈ [sCe x0 [pkt (rowB ty) 1]],
    s.SrcOk ((pkt (rowB ty) 1).who s0 0) (s0.owner 0) (s0.owner 0) ((ceAddr (pk64 (rowB ty) 0x10)).plus (4 * 0)) 4 (.spad 0x100) [0, 0, 0, 0]
    ∧ ∃ l, List.Forall₂ ((s.ceNote 0 (pkt (rowB ty) 1) (idx0.map (fun q => (4, q.1)))).UnitGood ((pkt (rowB ty) 1).who s0 0) (s0.owner 0) (s0.owner 0))
        (rowUnits (rowB ty) (idx0.map (fun q => some (w32 q.2)))) l := by
  intro ty ht s hs
  have ⟨_, h2, h3, h4, h5, _⟩ := witness_EngineRows ty ht s hs
  exact ⟨⟨h3 ▸ place_ok s _ 0 _ _ _ 4 ⟨true, false⟩ h2, h4.symm, by simp⟩, _, units_ok _ _ (s0.owner 0) _ h5⟩
/-- A COPY from beyond the budget. -/
theorem witness_FaultedCopies : ∃ f, (sCe x0 [pkt (copyB 0x20000 0x200) 1]).ceRun ((pkt (copyB 0x20000 0x200) 1).who s0 0) (s0.owner 0) (s0.owner 0)
    (copyUnits (copyB 0x20000 0x200)) = .bad (sCe x0 [pkt (copyB 0x20000 0x200) 1]) f := ⟨_, rfl⟩
theorem witness_CaddAndSignal : pkType (body 8 0 [8, 5, 0, 0, 0, 0, 0]) = 8 ∧ pkType (body 0x0B 0 [0, 5, 3, 0, 0, 0, 0]) = 0x0B
    ∧ (sCe x0 [pkt (body 8 0 [8, 5, 0, 0, 0, 0, 0]) 1]).pkt? 0 0 = some (pkt (body 8 0 [8, 5, 0, 0, 0, 0, 0]) 1) := by decide +kernel
/-- A SIGNAL of tenant 1, whose VF ring is at 0x20000 of ASID 0: with room and without, in a page that may be written and in one that may not. -/
def sSig (h : Nat) (wr : Bool) : State :=
  { sCe { x0 with ten := 1 } [pkt (body 0x0B 0 [0, 5, 3, 0, 0, 0, 0]) 1] with
    vfHead := [(1, h)], dies := [(0, { Die.blank with stlb := [{ ent0 with wr := wr }] })], mg := [(0x0180, 64), (0x81A2, 2 ^ 63 + 0x20000)] }
theorem witness_Signals : (∀ h ∈ [0, 127], ∀ wr ∈ [true, false], 1 = ((sSig h wr).ctx 0).ten.toNat ∧ (sSig h wr).vfRoom 1 = true ∧ (sSig h wr).vfSlot 1 = 0x20000 + 32 * h
      ∧ (sSig h wr).tlbHit 0 0 ((sSig h wr).apAsid 1) ((sSig h wr).vfSlot 1) = some { ent0 with wr := wr })
    ∧ (sSig 128 true).vfRoom 1 = false ∧ (∀ h ∈ [0, 127], (match (sSig h true).xlate numCores 0 0 (0x20000 + 32 * h) ⟨false, true⟩ true with
      | .ok pa => pa == 0x40000 + 32 * h && (sSig h true).isLocal pa && (sSig h true).ownerTen pa == 0 | _ => false) = true) := by decide +kernel
/-- A rectangle of one position, (0, 1), in a lease of two rows. -/
def mcastB : List Byte := body 7 0 [0, 0x100, 8 + 9 * 2 ^ 32, 0x01010100, 0, 0, 0]
theorem witness_Mcast : ∀ s ∈ [{ sCe { x0 with lease := 7 } [pkt mcastB 1] with leases := [(7, { le0 with h := 2, ctxs := [0, 1] })] }],
    s.pkt? 0 0 = some (pkt mcastB 1) ∧ pkType mcastB = 7 ∧ [1] = (((List.range (pk mcastB 0x23 1)).map (fun dy => (List.range (pk mcastB 0x22 1)).map
      (fun dx => (pk mcastB 0x20 1 + dx, pk mcastB 0x21 1 + dy)))).flatten.filterMap (fun q => (s.leaseFor 0).at? q)).filter (· != 0)
    ∧ pkCause false false (some (1, 2)) mcastB = none := by decide +kernel
/-- A notice of 8 bytes at 0x100 of context 0, with tag 9. -/
def kick0 : Kick := ⟨0, 0, 0, 0, 0, 0, 9, 8, 0x100, false⟩
/-- A receiver with room, with room for one, with none, and an absent one. -/
theorem witness_Notices : (∀ n ∈ [0, 15, 16], ∀ st ∈ [CState.ready, .empty], ∀ s ∈ [{ (sCe x0 [{ pkt mcastB 3 with acks := [1] }]).setCtx 1 { x0 with
      st := st, kicks := List.replicate n kick0 } with kickMsgs := [⟨kick0, 1, none⟩], pullAcks := [⟨0, 1⟩] }],
      s.kickMsgs[0]? = some ⟨kick0, 1, none⟩ ∧ s.kickBlocked 0 = false ∧ s.acnHeld (s.ctx 1).lease = false ∧ (s.ctx 1).st = st ∧ (s.ctx 1).ten.toNat = kick0.ten
      ∧ s.dead = [] ∧ s.pkt? 0 0 = some { pkt mcastB 3 with acks := [1] } ∧ (pkt mcastB 3).num = kick0.pkt ∧ s.pullAcks[0]? = some ⟨0, 1⟩)
    ∧ ({ s0 with kickMsgs := [⟨kick0, 1, some 5⟩], time := 69 } : State).time ≥ 5 + 64 := by decide +kernel
/-- A posted receive of at most 64 bytes at 0x200 of the notice with tag 9. -/
def pullB : List Byte := body 1 4 [0, 9 * 2 ^ 24, 0x200, 64, 0, 0, 0]
/-- No byte of the source has been read, four have, all have. -/
theorem witness_Pulls : (sCe { x0 with kicks := [kick0] } [pkt pullB 1]).pkt? 0 0 = some (pkt pullB 1) ∧ pkType pullB = 1 ∧ pkPull pullB = true
    ∧ matchKick (pk64 pullB 0x10) [kick0] = some (kick0, []) ∧ matchKick (pk64 pullB 0x10) [{ kick0 with gone := true }] = some ({ kick0 with gone := true }, [])
    ∧ kick0.src.getLsbD 63 = false
    ∧ ∀ n ∈ [0, 4, 8], (giveBytes (List.replicate n 0) (pullUnits pullB kick0.src (min (pk pullB 0x20 4) kick0.len))).all (okU (sCe x0 [pkt pullB 1]) 0) = true := by
  decide +kernel
theorem witness_PullsGood : ∀ n ∈ [0, 4, 8], ∃ l, List.Forall₂ ((sCe x0 [pkt pullB 1]).UnitGood ((pkt pullB 1).who s0 0) ⟨kick0.fr, kick0.asid, kick0.ten⟩ (s0.owner 0))
    (giveBytes (List.replicate n 0) (pullUnits pullB kick0.src (min (pk pullB 0x20 4) kick0.len))) l :=
  fun n hn => ⟨_, units_ok _ _ (s0.owner 0) _ (witness_Pulls.2.2.2.2.2.2 n hn)⟩
/-- A copy, or the pull of a page, from another package to the scratchpad or to memory, which is late, or whose link is down. -/
def sFar (fl : Byte) (d : Nat) (t : Nat) (l : Map Nat) : State :=
  { dev (sCe x0 [pkt (body 1 fl [0, 2 ^ 63 + 0x40100, d, 8, 0, 0, 0]) 1]) with time := t, jex := l }
theorem witness_RemoteReads : (∀ fl ∈ [0#8, 2], ∀ d ∈ [0x200, 2 ^ 63 + 0x20200], ∀ e ∈ ([(1048576, []), (0, [(0, 2)])] : List (Nat × Map Nat)),
      (sFar fl d e.1 e.2).pkt? 0 0 = some (pkt (body 1 fl [0, 2 ^ 63 + 0x40100, d, 8, 0, 0, 0]) 1)
      ∧ ((sFar fl d e.1 e.2).time ≥ 0 + 1048576 ∨ ∃ k ∈ (sFar fl d e.1 e.2).jex, k.2 = 2) ∧ pkPull (body 1 fl [0, 2 ^ 63 + 0x40100, d, 8, 0, 0, 0]) = false
      ∧ (sFar fl d e.1 e.2).farWord (.engine 0 0 0) ((sFar fl d e.1 e.2).owner 0) (body 1 fl [0, 2 ^ 63 + 0x40100, d, 8, 0, 0, 0]) = some (BitVec.ofNat 64 (2 ^ 63 + 0x40100))
      ∧ okS (sFar fl 0x200 e.1 e.2) 0 (ceAddr 0x200) 4 false = true ∧ okE (sFar fl (2 ^ 63 + 0x20200) e.1 e.2) (.engine 0 0 0) 0 (some 0) 0 0 0x200 4 = true)
    ∧ (pk64 (body 1 2 []) 0).getLsbD 9 = true ∧ (pk64 (body 1 0 []) 0).getLsbD 9 = false := by decide +kernel
theorem witness_RemoteReadsPlaces : (sFar 2 0x200 0 [(0, 2)]).PlaceOk (.engine 0 0 0) 0 0 0 (ceAddr 0x200) 4 ⟨false, true⟩ (.spad 0x200)
    ∧ (sFar 2 (2 ^ 63 + 0x20200) 0 [(0, 2)]).PlaceOk (.engine 0 0 0) 0 0 0 (ceAddr (2 ^ 63 + 0x20200)) 4 ⟨false, true⟩ (.mem 0x40200) := by
  have h := witness_RemoteReads.1 2 (by decide) 0x200 (by decide) (0, [(0, 2)]) (by decide)
  exact ⟨place_ok _ _ 0 0 0 (ceAddr 0x200) 4 ⟨false, true⟩ h.2.2.2.2.1,
    Or.inl ⟨by decide +kernel, 0x20200, 0x40200, by decide +kernel, rfl, eng_reach _ _ _ _ _ _ 0x200 4 _ (by decide) h.2.2.2.2.2⟩⟩
/-- A word of device memory as a place of a packet. -/
theorem place_mem : (dev (sCe x0 [])).PlaceOk (.engine 0 0 0) 0 0 0 (ceAddr (2 ^ 63 + 0x20100)) 8 ⟨true, true⟩ (.mem 0x40100)
    ∧ (dev (sCe x0 [])).PlaceOk (.engine 0 0 0) 0 0 0 (ceAddr (2 ^ 63 + 0x20100)) 4 ⟨false, true⟩ (.mem 0x40100) := by
  have h : ∀ n ∈ [4, 8], okE (dev (sCe x0 [])) (.engine 0 0 0) 0 (some 0) 0 0 0x100 n = true := by decide +kernel
  exact ⟨Or.inl ⟨by decide +kernel, 0x20100, 0x40100, by decide +kernel, rfl, eng_reach _ _ _ _ _ _ 0x100 8 _ (by decide) (h 8 (by decide))⟩,
    Or.inl ⟨by decide +kernel, 0x20100, 0x40100, by decide +kernel, rfl, eng_reach _ _ _ _ _ _ 0x100 4 _ (by decide) (h 4 (by decide))⟩⟩
/-- A context whose load routes ce.done, with ce.cmd not bound. -/
def xCeDone : Ctx := { xRun with fab := { xRun.fab with ports := [(54, po [] [])], segs := [⟨.unit (.port 54), [{ br0 with cum := 5 }], 0, 0, none, 0, false⟩] } }
theorem witness_PacketsComplete : (sCe x0 [pkt (copyB 0x100 0x200) 2]).pkt? 0 0 = some (pkt (copyB 0x100 0x200) 2) ∧ pkCA (copyB 0x100 0x200) = 0
    ∧ (pk64 (copyB 0x100 0x200) 0).getLsbD 9 = false ∧ pkCA (body 8 0 [8, 5, 0, 0, 0, 0, 0]) ≠ 0 ∧ (pkt [] 2).pages = []
    ∧ okS (sCe x0 []) 0 (ceAddr 8) 8 true = true ∧ memKey 0x40100 + 8 ≤ 2 ^ 40
    ∧ ((ws xCeDone).ctx 0).openPort 54 = some (po [] []) ∧ xCeDone.fab.held = false ∧ xCeDone.fab.routed (.port 54) = true
    ∧ xCeDone.fab.canClose (.port 54) 1 = true ∧ xCeDone.fab.port? 53 = none := by decide +kernel
/-- A valid COPY at 64 of the scratchpad; g1 is a queue word and g8 is 64. -/
def sSub (x : Ctx) (a : Nat) : State :=
  dev ((ws { x with g := Vector.ofFn (fun i => if i.val = 1 then BitVec.ofNat 64 a else if i.val = 8 then 64 else 0) }).setCore 0
    { Core.blank with sram := [⟨64, 1⟩, ⟨0x51, 1⟩, ⟨0x59, 2⟩, ⟨0x60, 8⟩] })
theorem witness_Submissions : ∀ a ∈ [0, 2 ^ 63 + 0x20040], (sSub x0 a).self.guard gT = true ∧ (sSub x0 a).self.cntLd = 0 ∧ (sSub x0 a).self.cntSt = 0 ∧ (sSub x0 a).self.cntCp < 31
    ∧ (sSub x0 a).self.pends 1 = false ∧ (sSub x0 a).self.zeroing ((sSub x0 a).self.reg 8).toNat 64 = false ∧ (sSub x0 0).self.reg 1 = 0
    ∧ (sSub x0 a).spadFault 0 ((sSub x0 a).self.reg 8) 64 64 unitSeq = none ∧ (sSub x0 a).spadEcc 0 ((sSub x0 a).self.reg 8).toNat 64 false = none
    ∧ pkCause false false (some ((sSub x0 a).self.lw.toNat, (sSub x0 a).self.lh.toNat)) ((sSub x0 a).spadBytes 0 ((sSub x0 a).self.reg 8).toNat 64) = none
    ∧ ((sSub x0 (2 ^ 63 + 0x20040)).self.reg 1).getLsbD 63 = true ∧ (sSub x0 0).self.det = false ∧ (sSub { x0 with det := true } 0).self.det = true := by decide +kernel
/-- The queue operand of CQ.SUB. -/
theorem witness_QueueOperand : (sSub x0 (2 ^ 63 + 0x20040)).DevAny 0 ((sSub x0 (2 ^ 63 + 0x20040)).self.reg 1) 64 62 ⟨true, true⟩ 0x40040 :=
  ⟨by decide +kernel, by decide +kernel, by decide +kernel, ent0, by decide +kernel⟩
theorem witness_Kicks : bits (8#64) 46 32 = 0 ∧ pkCause false false (some (1, 1)) (kickPacket 8 0x100) = none := by decide +kernel
/-- Context 0 waits at CQ.SUB g2, g1, g8, before or after its claim; the control line at 0x40040 has 16 slots at 0x20100. -/
def sQs (idx : Option Nat) : State :=
  { sSub { x0 with st := .waiting, wait := some (.cqSub 2 idx), istore := Mem.setBytes [] 0 (toBytes 4 ((encode (.cqSub gT 2 1 8)).getD 0).toNat) } (2 ^ 63 + 0x20040) with
    mem := [⟨0x40051, 1⟩, ⟨0x40052, 2⟩] }
theorem witness_QueueSubmissions : ∀ i ∈ [none, some 0], ((sQs i).ctx 0).st = .waiting ∧ ((sQs i).ctx 0).raised = [] ∧ ((sQs i).ctx 0).wait = some (.cqSub 2 i)
    ∧ ((sQs i).ctx 0).gated = false ∧ (sQs i).mem.wf = true ∧ 0x40040 % 64 = 0 ∧ bits (((sQs i).ctx 0).reg 1) 55 0 = 0x20040
    ∧ 16 = 2 ^ (bits ((sQs i).dev64 (0x40040 + 16)) 3 0 + 4) ∧ 0 < ((sQs i).dev64 (0x40040 + 8)).toNat + 16 ∧ (sQs i).dreqs = []
    ∧ bits ((sQs i).dev64 (0x40040 + 16)) 55 6 * 64 + 64 * (0 % 16) = 0x20100 := by decide +kernel
theorem witness_QueueSubmissionsTranslate : ∀ i ∈ [none, some 0], (sQs i).EngOk (.ctx 0) (dieOf (coreOf 0)) (some (dieOf (coreOf 0))) ((sQs i).ctx 0).asid.toNat
      ((sQs i).ctx 0).ten.toNat 0x20040 64 ⟨true, true⟩ 0x40040
    ∧ (sQs i).EngOk (.ctx 0) (dieOf (coreOf 0)) (some (dieOf (coreOf 0))) ((sQs i).ctx 0).asid.toNat ((sQs i).ctx 0).ten.toNat 0x20100 64 ⟨false, true⟩ 0x40100 := by
  have h : ∀ i ∈ [none, some 0], ∀ a ∈ [0x40, 0x100], okE (sQs i) (.ctx 0) (dieOf (coreOf 0)) (some (dieOf (coreOf 0))) ((sQs i).ctx 0).asid.toNat
      ((sQs i).ctx 0).ten.toNat a 64 = true := by decide +kernel
  exact fun i hi => ⟨eng_reach _ _ _ _ _ _ 0x40 64 _ (by decide) (h i hi 0x40 (by decide)), eng_reach _ _ _ _ _ _ 0x100 64 _ (by decide) (h i hi 0x100 (by decide))⟩
/-- The word that a waiting context stands at. -/
def wordAt : Except Trap Instr → Option Instr
  | .ok i => some i
  | .error _ => none
theorem witness_QueueSubmissionWord : wordAt ((sQs none).ctx 0).fetch = some (.cqSub gT 2 1 8) := by decide +kernel
/-- Launch queue 0 and queue 0 of core 0 at 0x20040, of the system tenant with ASID 0; a COPY in slot 0; the state of one queue. -/
def sQu (q : Nat) (st : QState) : State :=
  { dev (ws x0) with
    mg := [(0x0880, 2 ^ 63 + 0x20040), (0x1000, 2 ^ 63), (0xA000, 2 ^ 63 + 0x20040)], queues := [(q, st)], mem := [⟨0x40051, 1⟩, ⟨0x40052, 2⟩, ⟨0x40100, 1⟩, ⟨0x40119, 2⟩, ⟨0x40120, 8⟩] }
/-- A queue that nothing stops. -/
def qs0 : QState := ⟨false, false, none, none⟩
theorem witness_QueueSlots : ∀ q ∈ [0, 64], ((sQu q qs0).qState q).head = none
    ∧ bits ((sQu q qs0).mgv (0x8260 + (sQu q qs0).qTen q)) 1 0 ≠ 1 ∧ ((sQu q qs0).core 0).pkts.length < 8 ∧ ((sQu q qs0).ctx ((sQu q qs0).qCtx 64)).st ≠ .empty
    ∧ ((sQu q qs0).ctx ((sQu q qs0).qCtx 64)).ten.toNat = (sQu q qs0).qTen 64 ∧ (sQu q qs0).leases.get? ((sQu q qs0).ctx ((sQu q qs0).qCtx 64)).lease = none
    ∧ ((sQu q qs0).mgv (0x80A0 + (sQu q qs0).qTen 64)).getLsbD 0 = false ∧ (pk64 (copyB 0 0x200) 0).getLsbD 11 = false
    ∧ pkCause false false (some (1, 1)) (copyB 0 0x200) = none ∧ (sQu q qs0).mem.wf = true ∧ 0x40040 % 64 = 0
    ∧ (((sQu q qs0).setCore 0 { Core.blank with ceLast := 3 }).core 0).ceLast = 3 + 64 % 4
    ∧ ((sQu q qs0).poke 0x40106 [1]).hdrAt (memKey 0x40106) ≠ (sQu q qs0).hdrAt (memKey 0x40106) := by decide +kernel
/-- An error to be written, or not. -/
def qe (line : Bool) : QErr := ⟨⟨0x18, 1, 1, 0⟩, 0, false, line⟩
/-- The states of a queue in the witnesses. -/
def qss : List QState := [qs0, { qs0 with pend := some (qe true) }, { qs0 with err := true }]
/-- The queue's line and its slot are reached. -/
theorem queue_reach : ∀ q ∈ [0, 64], ∀ st ∈ qss, ∀ n m : Need, (sQu q st).QOk q 0x20040 64 n 0x40040 ∧ (sQu q st).QOk q 0x20100 64 m 0x40100 := by
  have h : ∀ q ∈ [0, 64], ∀ st ∈ qss, ∀ a ∈ [0x40, 0x100], okE (sQu q st) (.engine hubCore q ((sQu q st).qTen q)) 0 none ((sQu q st).qAsid q) ((sQu q st).qTen q) a 64 = true
      ∧ okE (sQu q st) (.engine ((q - 64) / 4) (2 ^ 40 + q % 4) ((sQu q st).qTen q)) (dieOf ((q - 64) / 4)) (some (dieOf ((q - 64) / 4))) ((sQu q st).qAsid q)
        ((sQu q st).qTen q) a 64 = true := by decide +kernel
  have k : ∀ q ∈ [0, 64], ∀ st ∈ qss, ∀ a ∈ [0x40, 0x100], ∀ n : Need, (sQu q st).QOk q (0x20000 + a) 64 n (0x40000 + a) := by
    intro q hq st hs a ha n
    have hv : a < 2 ^ 17 := by revert ha; revert a; decide
    exact ⟨fun _ => eng_reach _ _ _ _ _ _ a 64 n hv (h q hq st hs a ha).1, fun _ => eng_reach _ _ _ _ _ _ a 64 n hv (h q hq st hs a ha).2⟩
  exact fun q hq st hs n m => ⟨k q hq st hs 0x40 (by decide) n, k q hq st hs 0x100 (by decide) m⟩
theorem witness_QueueSlotsReady : ∀ q ∈ [0, 64], (sQu q qs0).SlotReady q 0 (copyB 0 0x200) 0x40040 0 := by
  have h : ∀ q ∈ [0, 64], ((sQu q qs0).qCfg q).getLsbD 63 = true ∧ ((sQu q qs0).qState q) = qs0 ∧ (sQu q qs0).intakeStopped ((sQu q qs0).qTen q) = false
      ∧ (sQu q qs0).asidOk ((sQu q qs0).qAsid q) ((sQu q qs0).qTen q) = true ∧ (sQu q qs0).qLine q = 0x20040 ∧ bits ((sQu q qs0).dev64 (0x40040 + 24)) 7 0 = 0
      ∧ 0 = ((sQu q qs0).dev64 (0x40040 + 8)).toNat
      ∧ bits ((sQu q qs0).dev64 (0x40040 + 16)) 55 6 * 64 + 64 * (0 % 2 ^ (bits ((sQu q qs0).dev64 (0x40040 + 16)) 3 0 + 4)) = 0x20100
      ∧ copyB 0 0x200 = (sQu q qs0).devBytes 0x40100 64 ∧ 0 = ((sQu q qs0).hdrs.get? (memKey 0x40100 / 64)).getD 0 ∧ pkType (copyB 0 0x200) ≠ 0
      ∧ pk (copyB 0 0x200) 6 2 = 0 % 65536 := by decide +kernel
  intro q hq
  have ⟨h1, h2, h3, h4, h5, h6, h7, h8, h9, h10, h11, h12⟩ := h q hq
  have r := queue_reach q hq qs0 (by decide) ⟨true, true⟩ ⟨true, false⟩
  exact ⟨h1, by rw [h2]; rfl, by rw [h2]; rfl, by rw [h2]; rfl, h3, h4, h5 ▸ r.1, h6, h7, 0x40100, h8 ▸ r.2, h9, h10, h11, h12⟩
theorem witness_QueueErrors : (∀ l ∈ [true, false], ((sQu 0 { qs0 with pend := some (qe l) }).qState 0).pend = some (qe l))
    ∧ ∀ st ∈ qss, (sQu 0 st).qLine 0 = 0x20040 ∧ (sQu 0 st).qState 0 = st ∧ (sQu 0 st).asidOk ((sQu 0 st).qAsid 0) ((sQu 0 st).qTen 0) = true
      ∧ bits ((sQu 0 st).dev64 (0x40040 + 24)) 7 0 = 0 := by decide +kernel
/-- A task block at 0x40080: NPRED p, its ready queue at 0x20040, its payload a COPY to 0x200. -/
def tcb (p : Byte) : Mem := (if p = 0 then [] else [⟨0x40080, p⟩]) ++ [⟨0x40090, 0x40⟩, ⟨0x40092, 2⟩, ⟨0x40097, 0x80⟩, ⟨0x40098, 1⟩, ⟨0x400B1, 2⟩, ⟨0x400B8, 8⟩]
/-- Its snapshot. -/
def snap (p : Byte) : List Byte :=
  [p, 0] ++ List.replicate 14 0 ++ [0x40, 0, 2, 0, 0, 0, 0, 0x80] ++ copyB 0 0x200 ++ List.replicate 40 0
/-- Its entry. -/
def blk (p : Byte) (st : Nat) : TaskBlk := ⟨0, 0, 0x20080, 0, snap p, st, p.toNat, false, none, none, none⟩
/-- The walker holds entries; g1 names the block; the ready queue is queue 0 of core 0; a system ASID 0. -/
def sTk (x : Ctx) (m : Mem) (w : List TaskBlk) : State :=
  { dev (ws { x with g := Vector.ofFn (fun i => if i.val = 1 then 2 ^ 63 + 0x20080 else 0) }) with mem := m, walker := w, mg := [(0x1000, 2 ^ 63), (0xA000, 2 ^ 63 + 0x20040)] }
theorem witness_TaskWords : (sTk x0 (tcb 1) []).self.guard gT = true ∧ ((sTk x0 (tcb 1) []).self.reg 1).getLsbD 63 = true ∧ 0x20080 = ((sTk x0 (tcb 1) []).self.reg 1).toNat % 2 ^ 56
    ∧ (∀ st ∈ [1, 2, 3, 5], (sTk x0 (tcb 1) [blk 1 st]).blk? 0 0x20080 = some (blk 1 st)) ∧ (sTk x0 (tcb 1) []).blk? 0 0x20080 = none
    ∧ (sTk x0 (tcb 1) []).self.pends 1 = false ∧ (sTk x0 (tcb 1) []).self.cntLd < 31 ∧ (sTk x0 (tcb 1) []).self.cntSt = 0
    ∧ (sTk { x0 with det := true } (tcb 1) []).self.det = true := by decide +kernel
/-- The operand of a task word. -/
theorem witness_TaskOperand : (sTk x0 (tcb 1) []).DevOk 0 ((sTk x0 (tcb 1) []).self.reg 1) 128 62 ⟨true, true⟩ 0x40080 :=
  ⟨by decide +kernel, by decide +kernel, by decide +kernel, by decide +kernel, ent0, by decide +kernel⟩
/-- The hub reaches the block, the ready queue's line and its slot. -/
theorem hub_reach (x : Ctx) (p : Byte) (hx : x ∈ [x0, { x0 with st := .waiting, wait := some (.task 1 false) }]) (hp : p ∈ [0#8, 1]) :
    (sTk x (tcb p) []).HubOk 201 0 0 0x20080 128 ⟨true, true⟩ 0x40080 := by
  have h : ∀ x ∈ [x0, { x0 with st := .waiting, wait := some (.task 1 false) }], ∀ p ∈ [0#8, 1],
      okE (sTk x (tcb p) []) (.engine hubCore 201 0) 0 none 0 0 0x80 128 = true := by decide +kernel
  exact eng_reach _ _ _ _ _ _ 0x80 128 _ (by decide) (h x hx p hp)
/-- NPRED 0 and 1; a block whose reserved bytes are not zero. -/
theorem witness_Arming : (sTk x0 (tcb 1) [blk 1 1]).blk? 0 0x20080 = some (blk 1 1)
    ∧ (∀ x ∈ [x0, { x0 with st := .waiting, wait := some (.task 1 false) }], ∀ p ∈ [0#8, 1], (sTk x (tcb p) []).devBytes 0x40080 128 = snap p
      ∧ (sTk x (tcb p) []).tcbBad 0 (snap p) = false ∧ bits (((sTk x (tcb p) []).ctx 0).reg 1) 55 0 = 0x20080)
    ∧ (sTk x0 [⟨0x40082, 9⟩] []).tcbBad 0 ((sTk x0 [⟨0x40082, 9⟩] []).devBytes 0x40080 128) = true := by decide +kernel
theorem witness_ArmingFull : (List.replicate 4096 (blk 1 1)).length ≥ 4096 := by rw [List.length_replicate]
theorem witness_ArmingWaits : ((sTk { x0 with st := .waiting, wait := some (.task 1 false) } (tcb 1) []).ctx 0).wait = some (.task 1 false)
    ∧ ((sTk { x0 with st := .waiting, wait := some (.task 1 true) } (tcb 1) []).ctx 0).wait = some (.task 1 true)
    ∧ pkType (body 9 0 [0, 2 ^ 63 + 0x20080, 0, 0, 0, 0, 0]) = 9 ∧ bits (pk64 (body 9 0 [0, 2 ^ 63 + 0x20080, 0, 0, 0, 0, 0]) 0x10) 55 0 = 0x20080 := by decide +kernel
/-- A pushed block with the next block as its successor, which waits for one or for two. -/
def pred0 : TaskBlk := { blk 0 3 with snap := [0, 0, 1] ++ List.replicate 85 0 ++ [1] ++ List.replicate 39 0 }
/-- The successor. -/
def succ0 (n : Nat) : TaskBlk := { blk 1 1 with va := 0x20100, rem := n }
theorem witness_TaskReports : (∀ n ∈ [1, 2], ∀ s ∈ [{ sTk x0 [] [pred0, succ0 n] with reports := [⟨0, 0x20080, none⟩] }], s.reports[0]? = some ⟨0, 0x20080, none⟩
      ∧ s.blk? 0 0x20080 = some pred0 ∧ tcbNext 0x20080 pred0.snap = [0x20100] ∧ s.blk? 0 0x20100 = some (succ0 n))
    ∧ ({ sTk x0 [] [pred0] with reports := [⟨0, 0x20080, some ⟨0x17, 1, 1, 0⟩⟩] } : State).reports[0]? = some ⟨0, 0x20080, some ⟨0x17, 1, 1, 0⟩⟩ := by decide +kernel
/-- A READY block before and after its claim; its queue has 16 slots at 0x20100, of which n are filled. -/
def sPush (cl : Option Nat) : State := sTk x0 [⟨0x40051, 1⟩, ⟨0x40052, 2⟩] [{ blk 0 2 with claim := cl }]
theorem witness_TaskPushes : ∀ cl ∈ [none, some 0, some 16], (sPush cl).walker[0]? = some { blk 0 2 with claim := cl } ∧ (sPush cl).blk? 0 0x20080 = some { blk 0 2 with claim := cl }
    ∧ tcbRQ (blk 0 2).snap = 0x20040 ∧ ((sPush cl).taskClaim { blk 0 2 with claim := cl } 0x40040).1 = cl.getD 0 ∧ (sPush cl).mem.wf = true
    ∧ 16 = 2 ^ (bits ((sPush cl).dev64 (0x40040 + 16)) 3 0 + 4) ∧ (0 < ((sPush cl).dev64 (0x40040 + 8)).toNat + 16 ∧ 16 ≥ ((sPush cl).dev64 (0x40040 + 8)).toNat + 16)
    ∧ bits ((sPush cl).dev64 (0x40040 + 16)) 55 6 * 64 + 64 * (0 % 16) = 0x20100 ∧ 0x40100 % 64 = 0 := by decide +kernel
theorem witness_TaskPushesFirst : ∀ cl ∈ [none, some 0, some 16], ∀ e ∈ (sPush cl).walker, 0 < e.arm ∨ (0 = e.arm ∧ 0x20080 ≤ e.va) := by decide +kernel
theorem witness_TaskPushesReach : ∀ cl ∈ [none, some 0], (sPush cl).HubOk 202 0 0 0x20040 64 ⟨true, true⟩ 0x40040
    ∧ ((sPush cl).taskClaim { blk 0 2 with claim := cl } 0x40040).2.HubOk 203 0 0 0x20100 64 ⟨false, true⟩ 0x40100 := by
  have h : ∀ cl ∈ [none, some 0], okE (sPush cl) (.engine hubCore 202 0) 0 none 0 0 0x40 64 = true
      ∧ okE ((sPush cl).taskClaim { blk 0 2 with claim := cl } 0x40040).2 (.engine hubCore 203 0) 0 none 0 0 0x100 64 = true := by decide +kernel
  exact fun cl hc => ⟨eng_reach _ _ _ _ _ _ 0x40 64 _ (by decide) (h cl hc).1, eng_reach _ _ _ _ _ _ 0x100 64 _ (by decide) (h cl hc).2⟩

/-! ### Witnesses: gating, destruction, launches, turns, moves, partition reset -/

/-- A context that a source asks to gate, and one that the system holds gated. -/
theorem witness_Gates : ((ws x0).ctx 0).st = .ready ∧ ((ws x0).ctx 0).gated = false ∧ ((ws { x0 with st := .stopped }).ctx 0).st = .stopped
    ∧ ((ws { x0 with gateReq := 1, gateAt := 0 }).ctx 0).gateReq ≠ 0 ∧ ((ws { x0 with gateReq := 1 }).ctx 0).doom = false ∧ ((ws { x0 with gated := true, gsrc := 1 }).ctx 0).doom = false ∧ ((ws { x0 with st := .stopped, gateReq := 1 }).ctx 0).doom = false ∧ ((ws { x0 with st := .stopped, gateReq := 1 }).ctx 0).gateReq ≠ 0
    ∧ (∀ n ∈ [0x7500, 0x750F], n = 0x7500 + min 15 (((n - 0x7500) * 14 + 13) / 14))
    ∧ ((ws { x0 with gated := true, gsrc := 1 }).ctx 0).gsrc = 1#4 ∧ ((ws { x0 with gated := true, gsrc := 1 }).ctx 0).raised = [] := by decide +kernel
theorem witness_Destruction : s0.leases.get? (s0.ctx 0).lease = none ∧ (ws { x0 with st := .stopped }).settled 0 = true ∧ ((ws { x0 with st := .stopped }).ctx 0).st = .stopped
    ∧ (ws { xLd with st := .stopped }).settled 0 = false ∧ ((ws { xLd with leaving := true }).ctx 0).leaving = true ∧ ((ws { x0 with doom := true, gateReq := 1 }).ctx 0).doom = true
    ∧ ((ws { x0 with doom := true, gateReq := 1 }).ctx 0).raised = [] ∧ ((sLe le0 { x0 with st := .stopped }).ctx 0).lease ≠ 0 ∧ ((sLe le0 { x0 with st := .stopped }).ctx 0).leaving = false
    ∧ ((ws { x0 with gated := true, gsrc := 1 }).ctx 0).st ≠ .empty ∧ ((ws { x0 with gated := true, gsrc := 1 }).ctx 0).gated = true
    ∧ (s0.ctx 0).st = .ready ∧ (s0.ctx 0).gated = false
    ∧ (sLe le0 { x0 with st := .stopped }).leases.get? 7 = some le0 ∧ le0.started = true ∧ ((sLe le0 { x0 with st := .stopped }).ctx 0).stop.1 = 0
    ∧ (∀ d ∈ le0.ctxs, ((sLe le0 { x0 with st := .stopped }).ctx d).rso = 0) := by decide +kernel
/-- A LAUNCH of one core with one bank and one word of text, with a dependence or none. -/
def launchB (ca dep : Nat) : List Byte :=
  body 0x0A 0 [ca, 2 ^ 63 + 0x20000, 2 ^ 63 + 0x20000, 77, dep, 0, 2 ^ 57 + 2 ^ 52 + 2 ^ 47 + 2 ^ 32]
/-- The head of launch queue 0. -/
def lh0 (dep : Nat) (checked met : Bool) : LHead := ⟨0, launchB 0 dep, 0, checked, met, none, 0⟩
/-- Launch queue 0 with a head. -/
def sLh (h : LHead) : State := sQu 0 { qs0 with head := some h }
theorem witness_LaunchHeads : ((sLh (lh0 0 false false)).qState 0).head = some (lh0 0 false false) ∧ (pk64 (launchB 0 0) 0).getLsbD 11 = false
    ∧ pkCause true false none (launchB 0 0) = none ∧ pkCause true false none (launchB 0 (2 ^ 63 + 0x20200)) = none
    ∧ ((sLh (lh0 (2 ^ 63 + 0x20200) true false)).qState 0).head = some (lh0 (2 ^ 63 + 0x20200) true false)
    ∧ okE (sLh (lh0 (2 ^ 63 + 0x20200) true false)) (.engine hubCore 64 0) 0 none 0 0 0x200 8 = true ∧ (sLh (lh0 0 true false)).qAsid 0 = 0 ∧ (sLh (lh0 0 true false)).qTen 0 = 0
    ∧ bits (pk64 (launchB 0 (2 ^ 63 + 0x20200)) 0x28) 55 0 = 0x20200 ∧ pk (launchB 0 (2 ^ 63 + 0x20200)) 0x30 8 ≤ ((sLh (lh0 0 true false)).dev64 0x40200).toNat
    ∧ (sLh (lh0 0 true true)).ost = none ∧ (sLh (lh0 0 true true)).spawns = [] ∧ (sLh (lh0 0 true true)).restores = [] ∧ (sLh (lh0 0 true true)).compact = none
    ∧ (sLh (lh0 0 true true)).pickHead = some 0 ∧ (sLh (lh0 0 false false)).served 0 = true ∧ (sLh (lh0 (2 ^ 63 + 0x20200) true false)).served 0 = true := by decide +kernel
/-- A head, one that has been refused sixteen times, and one that is refused now. -/
theorem witness_Heads : (sLh (lh0 0 true true)).GoodHead 0 (lh0 0 true true) ∧ (sLh { lh0 0 true true with noplace := 16 }).Reserved
    ∧ (sLh { lh0 0 true true with refused := some 0 }).refusedMark { lh0 0 true true with refused := some 0 } = true :=
  ⟨⟨by decide, ⟨_, List.mem_cons_self .., rfl⟩, by decide +kernel, rfl, rfl, by decide +kernel⟩, ⟨0, _, _, by decide, List.mem_cons_self .., rfl, by decide⟩, by decide +kernel⟩
/-- Ostler holds the head of launch queue 0. -/
def sOs (mg : Map W64) : State := { sLh (lh0 0 true true) with ost := some 0, mg := (sLh (lh0 0 true true)).mg ++ mg }
/-- Every core withdrawn. -/
def allOut : Map W64 := (List.range 16).map (fun y => (0x7600 + y, 0xFFFFF))
theorem witness_Placement : (sOs []).served 0 = true ∧ okE (sOs []) (.engine hubCore 0 0) 0 none 0 0 0x40 64 = true ∧ (sOs []).qLine 0 = 0x20040 ∧ (sOs []).qAsid 0 = 0
    ∧ (sOs []).qTen 0 = 0 ∧ (firstOrigin (lwW (launchB 0 0)) (lwH (launchB 0 0)) (fun _ k => (sOs []).eligible k (lwNB (launchB 0 0)) [])).isSome = true
    ∧ (sOs []).compact = none ∧ (sOs []).leases.length < 2 ^ 31 - 1 ∧ lwW (launchB 0 0) = 1 ∧ lwH (launchB 0 0) = 1
    ∧ (∀ x ∈ [0, 19], ∀ y ∈ [0, 15], x + 1 ≤ 20 ∧ y + 1 ≤ 16 ∧ (sOs []).eligible (coreAt x y) 1 [] = true)
    ∧ (∀ e ∈ (sOs []).ctxs, e.2.raised = []) := by decide +kernel
/-- A rectangle that fits at the origin alone, one that fits nowhere, and one that fits only in the second row (R371). -/
theorem witness_Origins : firstOrigin 20 16 (fun _ _ => true) = some (0, 0) ∧ firstOrigin 20 16 (fun _ k => k != 319) = none
    ∧ firstOrigin 20 1 (fun _ k => 20 ≤ k) = some (0, 1) := by decide +kernel
/-- Ostler holds the head, no core has room, and OSTCFG asks for no compaction. -/
def sNo : State := { sOs [] with mg := (0x0880, 2 ^ 63 + 0x20040) :: (0x09C0, 0x01000000) :: (0x1000, 2 ^ 63) :: allOut }
theorem witness_NoPlace : sNo.served 0 = true ∧ firstOrigin 20 16 (fun _ k => sNo.eligible k 1 []) = none ∧ (sNo.mgv 0x09C0).getLsbD 0 = false := by decide +kernel
/-- A SPAWN request of cell 3 of context 0. -/
def sp0 : SpawnReq := ⟨0, 0, 3, 0, 5, 0⟩
/-- The request stands at Ostler; the spawn table of tenant 0 is at 0x20000, valid or not. -/
def sSp (v : Bool) (ex : Map W64) : State :=
  { dev (ws (xRun.withCell 3 (kc (cw 1 0)))) with
    spawns := [sp0], mg := (if v then [(0x0980, 2 ^ 63 + 0x20000), (0x1000, 2 ^ 63)] else []) ++ ex
    mem := [⟨0x40000, 0x0A⟩, ⟨0x40012, 2⟩, ⟨0x40017, 0x80⟩, ⟨0x4001A, 2⟩, ⟨0x4001F, 0x80⟩, ⟨0x4003C, 1⟩, ⟨0x4003D, 0x80⟩, ⟨0x4003E, 0x10⟩, ⟨0x4003F, 2⟩] }
theorem witness_Spawns : (∀ v ∈ [true, false], (sSp v []).spawns = [sp0] ∧ (sSp v []).restores = [] ∧ (sSp v []).compact = none ∧ (sSp v []).ost = none ∧ sp0.ctx < 2 ^ 20
      ∧ ((sSp v []).ctx 0).fab.cell? 3 = some (kc (cw 1 0)) ∧ ((sSp v []).mgv 0x0980).getLsbD 63 = v)
    ∧ (sSp true []).resets.get? 0 = none ∧ (sSp true []).tds 0 ≠ 3 ∧ ({ sSp true [] with resets := [(0, 2)] } : State).resets.get? sp0.ten ≠ none
    ∧ (sSp true [(0x8260, 3)]).tds sp0.ten = 3 ∧ (∀ e ∈ [(7, 0), (8, 1)], sp0.seq ≤ e.2) ∧ okE { sSp true [] with spawns := [] } (.engine hubCore 128 0) 0 none 0 0 0 64 = true
    ∧ bits ((sSp true []).mgv 0x0980) 55 16 * 2 ^ 16 + 64 * 0 = 0x20000
    ∧ pkCause true false none ((sSp true []).devBytes 0x40000 64) = none ∧ pk64 ((sSp true []).devBytes 0x40000 64) 0x28 = 0
    ∧ (firstOrigin (lwW ((sSp true []).devBytes 0x40000 64)) (lwH ((sSp true []).devBytes 0x40000 64))
        (fun _ k => ({ sSp true [] with spawns := [] } : State).eligible k (lwNB ((sSp true []).devBytes 0x40000 64)) [])).isSome = true := by decide +kernel
theorem witness_SpawnsNoPlace : firstOrigin (lwW ((sSp true allOut).devBytes 0x40000 64)) (lwH ((sSp true allOut).devBytes 0x40000 64))
        (fun _ k => ({ sSp true allOut with spawns := [] } : State).eligible k (lwNB ((sSp true allOut).devBytes 0x40000 64)) []) = none := by decide +kernel
/-- A placed lease. -/
def leL : Lease := { le0 with body := launchB 0 0, started := false, queue := some 0 }
/-- The lease is placed, over device memory. -/
def sLl (l : Lease) : State := { dev (sLe l x0) with mg := [(0x1000, 2 ^ 63)] }
theorem witness_Starts : (sLl leL).leases.get? 7 = some leL ∧ leL.fail = none ∧ leL.moving = none ∧ leL.saved = [] ∧ leL.body ≠ []
    ∧ lwText leL.body = 1 ∧ lwDLen leL.body = 0 ∧ bits (pk64 leL.body 0x10) 55 0 = 0x20000 ∧ okE (sLl leL) (.engine hubCore 129 0) 0 none 0 0 0 4 = true
    ∧ (sLl { leL with fail := some ⟨0x14, 1, 1, 0⟩ }).leases.get? 7 = some { leL with fail := some ⟨0x14, 1, 1, 0⟩ } ∧ leL.parent = none ∧ leL.queue = some 0 := by
  decide +kernel
/-- A launch whose context has gone. -/
def leE (ca : Nat) (t : Option (Nat × Nat)) : Lease := { leL with started := true, body := launchB ca 0, task := t }
/-- The lease has ended normally, with a context destroyed, and not at all; its pair is unfinished. -/
theorem witness_Endings : (∀ l ∈ [leE 0 none, { leE 0 none with killed := true }, { leE 0 none with ended := true }], ∀ s ∈ [({ sLl l with ctxs := [] } : State)],
      s.leases.get? 7 = some l ∧ (∀ c ∈ l.ctxs, (s.ctx c).st = .empty) ∧ l.saved = [] ∧ l.started = true ∧ l.body ≠ []) ∧ (leE 0 none).ended = false
    ∧ (leE 0 none).killed = false ∧ (∃ c ∈ (leE 0 none).ctxs, ((sLl (leE 0 none)).ctx c).st ≠ .empty)
    ∧ (∀ e ∈ (sLl (leE 0 none)).ctxs, e.2.raised = []) ∧ (∀ e ∈ (sLl (leE 0 none)).leases, e.1 ≠ 7 → 0 ∉ e.2.ctxs) ∧ coreOf 0 < numCores := by decide +kernel
/-- The completion of a launch whose context has gone. -/
def sFin (ca : Nat) (t : Option (Nat × Nat)) : State := { sLl (leE ca t) with ctxs := [], leases := [], finals := [(7, leE ca t)] }
theorem witness_Completions : (∀ t ∈ [none, some (0, 0x20080)], (sFin 0 t).finals.get? 7 = some (leE 0 t) ∧ (leE 0 t).parent = none)
    ∧ pkCA (launchB 0 0) = 0 ∧ pkCA (launchB (2 ^ 63 + 0x20008) 0) ≠ 0 ∧ bits (pkCA (launchB (2 ^ 63 + 0x20008) 0)) 55 0 = 0x20008
    ∧ okE (sFin (2 ^ 63 + 0x20008) none) (.engine hubCore 130 0) 0 none 0 0 8 8 = true ∧ (sFin (2 ^ 63 + 0x20008) none).mem.wf = true ∧ memKey 0x40008 + 8 ≤ 2 ^ 40
    ∧ (∀ s ∈ [{ sLl (leE 0 none) with ctxs := [(0, { x0 with st := .stopped, lease := 7, rso := 1 })] }], s.finals.get? 7 = none ∧ s.leases.get? 7 = some (leE 0 none)
      ∧ (∃ c ∈ (leE 0 none).ctxs, (s.ctx c).rso ≠ 0) ∧ ∀ c ∈ (leE 0 none).ctxs, (s.ctx c).st = .stopped ∧ (s.ctx c).stop.1 = 0) := by decide +kernel
/-- Two leases that share a core: the turn goes up, and from the last id to the first. -/
def leT (c : CtxId) (t : Bool) : Lease := { le0 with quant := 100, turn := t, ctxs := [c] }
/-- The leases 7 and 9. -/
def sTu (a : Bool) : State := { (s0.setCtx 1 { x0 with yielded := true, lease := 9 }) with leases := [(7, leT 0 a), (9, leT 1 (!a))], time := 1000 }
theorem witness_Turns : (sTu true).leases.get? 7 = some (leT 0 true) ∧ (sTu false).leases.get? 9 = some (leT 1 true)
    ∧ (((sTu true).group 7).filter (fun e => e.1 != 7)).find? (fun e => e.1 > 7) = some (9, leT 1 false)
    ∧ (((sTu false).group 9).filter (fun e => e.1 != 9)).find? (fun e => e.1 > 9) = none
    ∧ (((sTu false).group 9).filter (fun e => e.1 != 9)).head? = some (7, leT 0 false) ∧ (sTu true).time + 1 ≥ 0 + 100
    ∧ (∀ c ∈ (leT 1 true).ctxs, ((sTu false).ctx c).st ≠ .ready ∨ ((sTu false).ctx c).yielded = true)
    ∧ (∃ c ∈ (leT 1 true).ctxs, ((sTu false).ctx c).yielded = true) ∧ (leT 1 true).ctxs.Nodup ∧ (∀ d ∈ [0, 1], ((sTu true).ctx d).raised = [] ∧ ((sTu true).ctx d).doom = false)
    ∧ (∀ s ∈ [(sTu true).setCtx 0 { x0 with gated := true }], (s.ctx 0).gated = true ∧ (s.ctx 0).cur.st ≠ .running)
    ∧ (({ sTu true with leases := [(7, leT 0 true)] } : State).group 7).filter (fun e => e.1 != 7) = [] := by decide +kernel
/-- A lease at the second column, with context 0 of core 1. -/
def leM (m : Option Moving) : Lease := { le0 with x := 1, ctxs := [4], moving := m }
/-- The lease 7 stands so; a compaction is at hand. -/
def sMv (x : Ctx) (m : Option Moving) (todo : List Nat) (t : Nat) : State :=
  { (State.reset.setCtx 4 { x with lease := 7 }) with leases := [(7, leM m)], compact := some ⟨todo, none⟩, time := t }
theorem witness_Compaction : s0.compact = none ∧ (sMv x0 none [] 0).compact = some ⟨[], none⟩ ∧ (sMv x0 none [7] 0).compact = some ⟨[7], none⟩
    ∧ (sMv x0 none [7] 0).leases.get? 7 = some (leM none) ∧ (∀ e ∈ (sMv x0 none [7] 0).leases, e.2.moving = none) ∧ (sMv x0 none [7] 0).pinned (leM none) = false
    ∧ (leM none).saved = [] ∧ (leM none).fail = none ∧ (sMv x0 none [7] 0).resets.get? 0 = none ∧ (sMv x0 none [7] 0).target (leM none) = some (0, 0) ∧ (sLe le0 x0).target le0 = none := by decide +kernel
/-- A move at a step, a relocation or an eviction. -/
def mv (e : Bool) (k : Nat) (ps : List Pair) : Moving := ⟨e, 0, 0, k, 0, ps⟩
theorem witness_Relocations : (∀ e ∈ [false, true], ∀ k ∈ [0, 1, 2, 3, 4, 5], (sMv x0 (some (mv e k [])) [] 0).leases.get? 7 = some (leM (some (mv e k [])))
      ∧ (sMv x0 (some (mv e k [])) [] 0).resets.get? 0 = none ∧ (sMv x0 (some (mv e k [])) [] 0).counting (leM (some (mv e k []))) = false
      ∧ (sMv x0 (some (mv e k [])) [] 0).pinned (leM (some (mv e k []))) = false ∧ (sMv x0 (some (mv e k [])) [] 0).quiesced 4 = true
      ∧ (sMv x0 (some (mv e k [])) [] 0).acnMsgs = [] ∧ ((sMv x0 (some (mv e k [])) [] 0).core (coreOf 4)).sinks = [])
    ∧ ((sMv { x0 with gated := true, gsrc := 4 } (some (mv false 1 [])) [] 0).ctx 4).gated = true ∧ ((sMv x0 (some (mv false 2 [])) [] 0).ctx 4).drained = true
    ∧ (∀ s ∈ [(sMv x0 (some (mv true 3 [])) [] 0).setCore 1 { Core.blank with sinks := [(0, { ch0 2 [] with ctx := 4 })] }], s.quiesced 4 = true
      ∧ ∃ e ∈ (s.core (coreOf 4)).sinks, e.2.ctx = 4)
    ∧ (sMv x0 (some (mv false 2 [])) [] 1000000000).time - 0 > 256 * bits ((sMv x0 (some (mv false 2 [])) [] 0).mgv 0x09C0) 31 16 := by decide +kernel
theorem witness_Evictions : (∀ l ∈ [leM (some (mv true 3 []))], ∀ s ∈ [sMv x0 (some (mv true 3 [])) [] 0], s.leases.get? 7 = some l ∧ (∀ e ∈ s.ctxs, e.2.raised = []) ∧ l.ctxs.Nodup
      ∧ (∀ c ∈ l.ctxs, c < 2 ^ 20) ∧ (s.leases.map (·.1)).Nodup ∧ (∀ e ∈ s.leases, e.1 ≠ 7 → ∀ c ∈ l.ctxs, c ∉ e.2.ctxs))
    ∧ (∀ e ∈ [true, false], (mv e 3 []).pairs = [] ∧ (mv e 3 []).evict = e) ∧ (leM none).saved = [] := by decide +kernel
theorem witness_Pairs : (List.range 1).find? (fun i => (sMv x0 (some (mv false 4 [⟨none, 0, false⟩])) [] 0).pairReady (leM none) (mv false 4 [⟨none, 0, false⟩]) i) = some 0
    ∧ (List.range 1).find? (fun i => (sMv x0 (some (mv false 4 [⟨some 0, 0, false⟩])) [] 1000000).pairReady (leM none) (mv false 4 [⟨some 0, 0, false⟩]) i) = none
    ∧ (sMv x0 none [] 1000000).time ≥ 0 + ((sMv x0 none [] 0).saveCtx 4).ctx.copyCycles 1 ∧ (leM none).ctxs[0]? = some 4 ∧ (leM none).saved = []
    ∧ (sMv x0 none [] 0).eligible 0 1 [] = true ∧ ((sMv x0 none [] 0).core (coreOf 4)).sram.wf = true ∧ ((sMv x0 none [] 0).ctx 4).banks.length = 1
    ∧ (((sMv x0 none [] 0).ctx 4).banks.map (·.mode)) = [.spad] ∧ (∀ m ∈ [Mem.wf [⟨0, 1⟩, ⟨131071, 2⟩]], m = true)
    ∧ (∀ e ∈ (((sMv x0 none [] 0).setCore 1 { Core.blank with sinks := [(0, { ch0 2 [] with ctx := 4 })] }).core (coreOf 4)).sinks, e.2.ctx = 4) := by decide +kernel
/-- A lease that has been evicted, with 0, a wish for its restore. -/
def sEv (r : List (Nat × Nat)) (mg : Map W64) : State := { sLe { le0 with saved := [⟨x0, [([], [])]⟩], ctxs := [evictedId 7 0] } x0 with restores := r, mg := mg }
/-- A lease of tenant 1 in each state of its interface; an evicted one; a restore with a place and with none. -/
theorem witness_Ostev : (∀ v ∈ [0, 1, 2, 3], ({ s0 with mg := [(0x8261, BitVec.ofNat 64 v)], leases := [(7, { le0 with ten := 1 })] } : State).tds 1 = v
      ∧ ({ s0 with mg := [(0x8261, BitVec.ofNat 64 v)], leases := [(7, { le0 with ten := 1 })] } : State).ostevBusy = false)
    ∧ (sEv [] []).leases.get? 7 = some { le0 with saved := [⟨x0, [([], [])]⟩], ctxs := [evictedId 7 0] } ∧ (sEv [] []).ostevBusy = false ∧ (7 : Nat) < 2 ^ 31
    ∧ (∀ r ∈ [[(7, 0)], [(7, 0), (9, 1)]], ∀ mg ∈ [[], allOut], (sEv r mg).restores = (7, 0) :: r.tail ∧ (∀ e ∈ r.tail, e.1 ≠ 7) ∧ (sEv r mg).compact = none ∧ (sEv r mg).ost = none
      ∧ (sEv r mg).spawns = [] ∧ (x0.shape).getLsbD 31 = false)
    ∧ firstOrigin 1 1 (fun _ k => (sEv [(7, 0)] allOut).eligible k 1 []) = none ∧ firstOrigin 1 1 (fun _ k => (sEv [(7, 0)] []).eligible k 1 []) = some (0, 0) := by decide +kernel
/-- A tenant in each state of its interface before the reset, in each step of it, with a lease on the move and with none. -/
theorem witness_PartitionReset : s0.resets.get? 63 = none ∧ (∀ k ∈ [2, 3, 5, 6, 7], ({ s0 with resets := [(1, k)] } : State).resets.get? 1 = some k)
    ∧ (∀ v ∈ [0, 1, 2, 3], ({ s0 with mg := [(0x8261, BitVec.ofNat 64 v)] } : State).tds 1 = v ∧ ({ s0 with mg := [(0x8261, BitVec.ofNat 64 v)] } : State).resets.get? 1 = none)
    ∧ (∀ e ∈ s0.leases, e.2.ten = 1 → e.2.moving = none) ∧ s0.ctxsOf 1 = []
    ∧ (∃ e ∈ [(7, { leM (some (mv false 1 [])) with ten := 1 })], e.2.ten = 1 ∧ e.2.moving ≠ none)
    ∧ (ws { x0 with ten := 1, gated := true, gsrc := 8 }).ctxsOf 1 = [0] ∧ s0.tdis.get? 1 = none
    ∧ (∀ b ∈ [true, false], ({ s0 with tdis := [(1, ⟨7, 0, 0, b⟩)] } : State).tdis.get? 1 = some ⟨7, 0, 0, b⟩) := by decide +kernel


/-! ### Witnesses: registers, hand-over, detected errors -/

/-- Boot is DONE, the link is up, and VF 1 is enabled. -/
def sBt (mg : Map W64) : State := { dev s0 with link := true, vfs := [1], mg := mg ++ [(0x9001, 5)] }
/-- A context of tenant 1: its own DUTY register, a table of all tenants, an unassigned number that its tenant may not read. -/
theorem witness_Mgr : s0.self.guard gT = true ∧ s0.self.pends 1 = false ∧ (ws { x0 with det := true }).self.det = true ∧ s0.self.det = false
    ∧ (ws { x0 with ten := 1 }).mgReadable 1 0x0802 = false ∧ (ws { x0 with ten := 1 }).mgReadable 1 0x0801 = true ∧ (mgFields 0x0801).isSome = true
    ∧ (∀ n ∈ [0x0801, 0x0841, 0x0882, 0x09E0, 0x09EF, 0x9000, 0x9002, 0x9010, 0x9014], (ws { x0 with ten := 1, g := x0.g }).mgReadable 1 n = (n != 0x0882))
    ∧ ({ s0 with mg := [(0x0881, 1)] } : State).mgReadable 1 0x0882 = true ∧ s0.mgReadable 0 0xFFFF = true ∧ mgFields 0xFFFF = none := by decide +kernel
theorem witness_Mgw : (ws xLd).self.cntLd ≠ 0 ∧ s0.self.cntLd = 0 ∧ s0.self.cntSt = 0 ∧ (ws { x0 with ten := 1 }).self.ten ≠ 0 ∧ s0.self.ten = 0
    ∧ mgFields 0xFFFF = none ∧ (∀ r ∈ [0x0800, 0x8020, 0x8060, 0x0A42, 0x09C0, 0x0980], (mgFields r).isSome = true ∧ plainReg r) ∧ s0.lockedTenants = [] := by decide +kernel
theorem witness_LastWriter : (∀ n, s0.LastWriter s0.cur n) ∧ ∀ n, s0.LastWriter hostId n := ⟨fun _ _ h => (nomatch h), fun _ _ h => (nomatch h)⟩
theorem witness_LastWriterBooted : ∀ n, (sBt []).LastWriter hostId n := fun _ _ h => (nomatch h)
/-- A later core has written the register in this cycle. -/
theorem witness_EarlierWriter : ∃ e ∈ (s0.wroteBy 4 0x0800 5).mgNow 0x0800, (s0.wroteBy 4 0x0800 5).cur < e.1 := by decide +kernel
/-- g1 and g2 at and past the last stack and die; a stack whose owner is the die, and is not; every region of a stack is tenant 0's. -/
theorem witness_HandOvers : s0.self.guard gT = true ∧ 15 < 16 ∧ 3 < 4 ∧ 2 ∉ stackPorts 0 ∧ 1 ∈ stackPorts 0 ∧ 3 ∈ stackPorts 4
    ∧ (ws { x0 with ten := 1 }).self.ten ≠ 0 ∧ s0.ttab 0 15 ≠ 1 ∧ s0.ownerDie 0 = 0 ∧ s0.ownerDie 4 ≠ 3
    ∧ (∀ r ∈ List.range 16, ({ ws { x0 with ten := 1 } with mg := [(0x0180, 0x41041041041), (0x0181, 0x41041041041)] } : State).ttab 0 r = 1)
    ∧ ({ s0 with hubQ := [.hand 0 1 0 0] } : State).hubQ = .hand 0 1 0 0 :: []
    ∧ (∀ q ∈ [HubReq.hand 0 1 4 0, HubReq.ttab 3 1 0 0 5], (HubReq.hand 2 3 8 5).before q = false) ∧ (∀ l ∈ (s0.die (s0.ownerDie 0)).l2, l.armed = false) := by decide +kernel
theorem witness_RegisterRows : (sBt []).booted = true ∧ s0.booted = false ∧ (sBt []).lockedTenants = [] ∧ (mgFields 0x0800).isSome = true ∧ plainReg 0x0800 ∧ (∀ r ∈ (sBt []).hubQ, r.stack ≠ 15) ∧ (0xFFFFFFFFFFFF#64).toNat < 2 ^ 48 ∧ ((sBt []).mgv (0x0180 + 2 * 15 + 1)).toNat < 2 ^ 48
    ∧ ttEntry ((sBt []).mgv 0x0180) 7 ≠ ttEntry 0xFFFFFFFFFFFF 7 ∧ (∃ l, mgFields 0x0100 = some l ∧ fldsOk l 15 = false) := by
  refine ⟨by decide +kernel, by decide +kernel, by decide +kernel, by decide +kernel, by decide +kernel, by decide +kernel, by decide, by decide +kernel, by decide +kernel, ⟨_, rfl, by decide +kernel⟩⟩
theorem witness_BindingRows : (8#64).toNat ≤ 8 ∧ bits ((sBt []).mgv (0x0100 + 16 * 3)) 3 0 ≠ 8 ∧ (sBt []).mgv (0x0100 + 16 * 3) = BitVec.ofNat 64 (bits ((sBt []).mgv (0x0100 + 16 * 3)) 3 0)
    ∧ (0x800000000000003F#64).toNat % 2 ^ 63 < 64 ∧ (sBt []).mgv (0x1000 + 2047) = 0 ∧ (sBt []).qCfg 63 = 0 ∧ (sBt []).qCfg (64 + 4 * 319 + 3) = 0
    ∧ (sBt [(0x1000, 2 ^ 63)]).asidOk ((sBt []).qAsid 63) ((sBt []).qTen 63) = true
    ∧ 0x8000000000010078#64 = BitVec.ofNat 64 (2 ^ 63 + bits (0x8000000000010078#64) 55 6 * 64 + bits (0x8000000000010078#64) 5 3 * 8)
    ∧ 0x8000000000010040#64 = BitVec.ofNat 64 (2 ^ 63 + bits (0x8000000000010040#64) 55 6 * 64) ∧ mgFields 0xFFFF = none := by decide +kernel
/-- No queue of the booted machine is bound. -/
theorem witness_NoQueueBound : ∀ q, (sBt []).qCfg q = 0 := by
  intro q
  have h : qReg q ≥ 0x0880 := by unfold qReg; split <;> omega
  have h2 : q < 64 → qReg q % 4 = 0 ∧ qReg q < 0x0980 := by intro hq; unfold qReg; rw [if_pos hq]; omega
  have h3 : ¬ q < 64 → qReg q ≥ 0xA000 := by intro hq; unfold qReg; rw [if_neg hq]; omega
  have h4 : qReg q ≠ 0x9001 := by by_cases hq : q < 64 <;> [have := h2 hq; have := h3 hq] <;> omega
  unfold State.qCfg State.mgv
  have e : (sBt []).mg.get? (qReg q) = none := by simp only [sBt, List.nil_append, Map.get?]; simp; exact h4
  rw [e]
  show mgReset (qReg q) = 0
  unfold mgReset
  by_cases hq : q < 64
  · have := h2 hq
    simp only [Bool.and_eq_true, decide_eq_true_eq, beq_iff_eq]
    repeat (rw [if_neg (by omega)])
  · have := h3 hq
    simp only [Bool.and_eq_true, decide_eq_true_eq, beq_iff_eq]
    repeat (rw [if_neg (by omega)])
theorem witness_LinkErrors : besideCore 0 1 = some 1 ∧ besideCore 319 0 = some 299 ∧ s0.flits = [] ∧ s0.acnMsgs = [] ∧ s0.dead = []
    ∧ ((ws xRun).ctx 0).cur.st = .running ∧ ((ws xRun).ctx 0).fab.stopped = false ∧ ((ws xRun).leaseFor 0).stopAt = none ∧ s0.off = false := by decide +kernel
/-- An element in the middle of a queue, alone, and before a last mark (R112). -/
theorem witness_LostElements : (loseItem [.el 1 false, .el 2 false, .el 3 true] 1 = [.el 1 false, .el 3 true])
    ∧ loseItem [.el 1 false, .el 3 true] 1 = [.el 1 true] ∧ loseItem [.el 1 true] 0 = [] := by decide
theorem witness_DoubleBitErrors : 2 ^ 22 - 8 < 2 ^ 22 ∧ 319 < 320 ∧ 60 < (s0.ctx 0).ilen ∧ ((ws xRun).ctx 0).cur.st = .running ∧ ((ws xRun).ctx 0).fab.stopped = false
    ∧ (∀ u ∈ [0, 0x10F, 0x400, 0x4FF, 0x500, 0x53B], confUnit u = true) ∧ s0.isLocal 0x40000 = true ∧ s0.off = false := by decide +kernel
/-- A seam with no module out, with fourteen, and with fifteen. -/
theorem witness_SeamModules : (∀ n ∈ [0, 14], (({ s0 with ucie := if n = 0 then [] else [(3, n)] } : State).ucie.get? 3).getD 0 < 15) ∧ 3 < 4
    ∧ (({ s0 with ucie := [(3, 15)] } : State).ucie.get? 3).getD 0 = 15 ∧ s0.flits = [] ∧ s0.acnMsgs = [] ∧ s0.off = false := by decide +kernel

/-! ### Witnesses: power, temperature, boot, the package's edge -/

/-- An interval that is due and one that is not; its energy, split by the events of a lease that is charged to queue 3; a cap that is met. -/
def sPw (time : Nat) : State :=
  { s0 with time := time, leases := [(7, { le0 with queue := some 3 })], events := [(512 * 7, 5)], mg := [(0x0801, 0x1F301)], frac := [(0x0840, 1 / 2)] }
theorem witness_Power : (sPw 0).off = false ∧ (sPw 0).micros < (10 * ((sPw 0).intervals + 1) : Nat) ∧ (10 * ((sPw 11000).intervals + 1) : Nat) ≤ (sPw 11000).micros
    ∧ (0 : Rat) ≤ ((sPw 0).frac.get? 0x0840).getD 0 ∧ ((sPw 0).frac.get? 0x0840).getD 0 < (1 : Rat) ∧ 3 ∈ (sPw 0).chargedQueues
    ∧ bits ((sPw 0).mgv 0x0800) 31 16 = 0 ∧ bits ((sPw 0).mgv 0x0801) 31 16 ≠ 0 ∧ (10001 : Rat) > 10 * 1000 ∧ 8 * (8749 : Rat) < 70 * 1000
    ∧ (10000 : Rat) ≤ 10 * 1000 ∧ 70 * (1000 : Rat) ≤ 8 * 8750 ∧ 0 < 1100 ∧ 1100 ≤ 1100 := by decide +kernel
theorem witness_Thermal : s0.off = false ∧ 115 < 116 ∧ 4 ≤ 4 ∧ 4 ∉ s0.hot ∧ 4 ∈ ({ s0 with hot := [4] } : State).hot ∧ 109 < 110 ∧ 125 < 126 := by decide
/-- A number's bytes, most significant first. -/
def beBytes (n k : Nat) : List Byte := (List.range k).map (fun i => BitVec.ofNat 8 (n / 256 ^ (k - 1 - i)))
/-- RFC 8032, 7.1, TEST 3: its message, af 82, is the version 0x82AF of an empty image. -/
def fw0 : FwImage :=
  ⟨[], 0x82AF, beBytes 0xfc51cd8e6218a1a38da47ed00230f0580816ed13ba3303ac5deb911548908025 32,
    beBytes 0x6291d657deec24024827e69c3abe01a30ce548a284743a445e3680d7db5ac3ac18ff9b538d16f290ae67f760984dc6594a7c15e9716ed28dc027beceea1ec40a 64⟩
/-- A boot stage of a package with that key's digest fused, and a rollback counter. -/
def sBoot (k ver : Nat) : State := { s0 with mg := [(0x9001, BitVec.ofNat 64 k)], fuse := (sha512 fw0.key, ver) }
/-- Each boot stage; an image that passes, one below the fused version, one of another key, and one whose bytes are not those signed. -/
theorem witness_Boot : (∀ k ∈ [0, 1, 2, 3, 4], (sBoot k 0).off = false ∧ bits ((sBoot k 0).mgv 0x9001) 3 0 = k) ∧ 0x82AF < 0x82B0 ∧ 0x82AF ≤ fw0.ver.toNat ∧ fw0.ver.toNat < 0x82B0 := by decide +kernel
theorem witness_BootSigned : edVerify fw0.key (toBytes 2 fw0.ver.toNat ++ fw0.code) fw0.sig = true := by decide +kernel
theorem witness_BootForged : edVerify fw0.key (toBytes 2 fw0.ver.toNat ++ [0]) fw0.sig = false := by decide +kernel
theorem witness_BootKey : sha512 [] ≠ (sBoot 1 0).fuse.1 := by decide +kernel
theorem witness_BootImages : (sBoot 1 0x82AF).fwFault fw0 = none ∧ (sBoot 1 0x82B0).fwFault fw0 = some 2 ∧ (sBoot 1 0).fwFault { fw0 with code := [0] } = some 1 := by
  have h : sha512 fw0.key = (sBoot 1 0).fuse.1 := rfl
  have e := witness_BootSigned
  have f := witness_BootForged
  have g : fw0.ver.toNat = 0x82AF := rfl
  refine ⟨?_, ?_, ?_⟩ <;> simp only [State.fwFault, sBoot, bne_self_eq_false, Bool.false_or] <;> simp_all
/-- FIPS 180-2, C.1: the digest of "abc". -/
theorem test_sha512 : sha512 [0x61, 0x62, 0x63]
    = 0xddaf35a193617abacc417349ae20413112e6fa4e89a97ea20a9eeee64b55d39a2192992a274fc1a836ba3c23a3feebbd454d4423643ce80e2a9ac94fa54ca49f := by decide +kernel
/-- The aperture of function 0 is over the first 4 MiB of ASID 0, which is the system tenant's. -/
def sAp : State := sBt [(0x1000, 2 ^ 63), (0x82A0, 2 ^ 63)]
theorem sAp_aperOk (a : Nat) (w : Bool) (tb : Option Nat) (need : Need) (ha : a < 2 ^ 17) (ho : 0x20000 + a + 8 ≤ 2 ^ 22)
    (hp : (0x20000 + a) / 4096 = (0x20000 + a + 8 - 1) / 4096) (h : okE sAp (.engine hubCore 300 0) 0 none 0 0 a 8 = true)
    (hk : ((sAp.die 0).stlb.any (·.covers 0 (0x20000 + a))) = true) :
    sAp.AperOk 0 (0x20000 + a) 8 w tb need (0x40000 + a)
      ((sAp.spend 0 (if w then 1 else 0) 8).hubUse 0 (0x20000 + a) (0x40000 + a) 8 w) := by
  refine ⟨by decide +kernel, by decide, .inl rfl, fun h => absurd rfl h, by decide +kernel, by decide, ho, hp, by decide +kernel, by decide +kernel, fun _ => by decide +kernel,
    rfl, by cases w <;> decide +kernel, ?_⟩
  have h0 : bits (sAp.mgv (0x82A0 + 0)) 10 0 = 0 := by decide +kernel
  have h1 : bits (sAp.mgv (0x82A0 + 0)) 55 22 = 0 := by decide +kernel
  intro asid va walks ea ev ew
  rw [h0] at ea
  rw [h1, Nat.zero_mul, Nat.zero_add] at ev
  rw [ea, ev, hk, if_pos rfl] at ew
  rw [ea, ev, ew]
  exact ⟨by decide +kernel, eng_reach sAp _ _ _ _ _ _ _ need ha h, rfl⟩
/-- Accesses of 8 bytes at each end of the first 4 KiB of a page. -/
theorem witness_Aperture : ∀ a ∈ [0, 0xFF8], ∀ w tb, ∀ need, sAp.AperOk 0 (0x20000 + a) 8 w tb need (0x40000 + a)
    ((sAp.spend 0 (if w then 1 else 0) 8).hubUse 0 (0x20000 + a) (0x40000 + a) 8 w) := by
  intro a ha w tb need
  have h : ∀ a ∈ [0, 0xFF8], a < 2 ^ 17 ∧ 0x20000 + a + 8 ≤ 2 ^ 22 ∧ (0x20000 + a) / 4096 = (0x20000 + a + 8 - 1) / 4096
      ∧ okE sAp (.engine hubCore 300 0) 0 none 0 0 a 8 = true ∧ ((sAp.die 0).stlb.any (·.covers 0 (0x20000 + a))) = true := by decide +kernel
  obtain ⟨h1, h2, h3, h4, h5⟩ := h a ha
  exact sAp_aperOk a w tb need h1 h2 h3 h4 h5
theorem witness_ApertureState : (((sAp.spend 0 1 8).hubUse 0 0x20FF8 0x40FF8 8 true).mgv (0x80A0 + 0)).getLsbD 0 = false
    ∧ ((sAp.spend 0 1 8).hubUse 0 0x20FF8 0x40FF8 8 true).mem.wf = true ∧ memKey 0x40FF8 + 8 ≤ 2 ^ 40
    ∧ (0x20000 + 0xFF8) % 8 = 0 ∧ 0x40FF8 % 8 = 0 := by decide +kernel
/-- A vector with one event, masked or not. -/
def sVec (m : Bool) : State := { sBt [] with msix := [(64 * 63 + 63, { masked := m, pba := m, pending := 1, since := 0, addr := 0, data := 0 })] }
/-- MSI-X of function 1 on, with every vector masked or not; a wait of TMAX that has passed and one that has not. -/
theorem witness_Interrupts : (∀ m ∈ [0x80, 0xC0], (({ sBt [] with vfCfg := (List.range 4096).map (fun o => (4096 + o, m)) } : State).cfgByte 1 4095) = m)
    ∧ ((0x80#8).getLsbD 7 = true ∧ (0x80#8).getLsbD 6 = false ∧ (0xC0#8).getLsbD 6 = true ∧ (0#8).getLsbD 7 = false)
    ∧ (∀ s ∈ [sBt [(0x8220, 2 ^ 16 * 3 + 2)]], bits (s.mgv 0x8220) 7 0 = 2 ∧ 1 < bits (s.mgv 0x8220) 7 0 ∧ s.micros - 0 < (bits (s.mgv 0x8220) 31 16 : Nat)
      ∧ (bits (s.mgv 0x8220) 31 16 : Nat) ≤ ({ s with time := 3300 } : State).micros - 0) := by decide +kernel
theorem witness_Functions : (sBt []).booted = true ∧ (sBt []).off = false ∧ (sBt []).link = true ∧ (mgFields 0x9000).isSome = true ∧ 0x9000 < 2 ^ 16
    ∧ (∀ m ∈ [true, false], ((sVec m).vector 63 63).pending ≠ 0 ∧ bits ((sVec m).mgv (0x8220 + 63)) 7 0 ≤ ((sVec m).vector 63 63).pending
        ∧ (sVec m).tds 63 ≠ 3 ∧ ((sVec m).vector 63 63).masked = m)
    ∧ 63 ∉ (sBt []).vfs ∧ (∃ k ∈ (sBt []).vfs, 0 < k ∧ k < 64) := by decide +kernel
/-- The interface of VF 1 in a state, bound to stream 7, whose keys have been programmed, with a session or without. -/
def sTd (v : Nat) (ses : Bool := true) : State :=
  { sBt [(0x8261, BitVec.ofNat 64 v)] with tdis := [(1, ⟨7, 0, 0, false⟩)], vfCfg := [(4096, 0)], session := ses, ideKeys := [7], meas := [(1, 5)] }
theorem witness_Interfaces : ∀ v ∈ [0, 1, 2, 3], ∀ b ∈ [true, false], (sTd v b).booted = true ∧ 1 ∈ (sTd v b).vfs ∧ (sTd v b).session = b ∧ (sTd v b).tds 1 = v
    ∧ (sTd v b).tdis.get? 1 = some ⟨7, 0, 0, false⟩ ∧ (sTd v b).resets.get? 1 = none ∧ 7 ∈ (sTd v b).ideKeys ∧ 6 ∉ (sTd v b).ideKeys ∧ 7 < 8 ∧ 8 ≤ 8 ∧ 4095 < 4096
    ∧ (∃ e ∈ (sTd v b).meas, e.1 = 1) := by decide +kernel
/-- A tenant's running context, gated and not, and an evicted lease of it. -/
theorem witness_InterfaceErrors : (∀ g ∈ [true, false], ((ws { x0 with ten := 1, gated := g }).ctx 0).ten.toNat = 1 ∧ ((ws { x0 with ten := 1, gated := g }).ctx 0).st = .ready
      ∧ ((ws { x0 with ten := 1, gated := g }).ctx 0).gated = g) ∧ ({ s0 with leases := [(7, { le0 with ten := 1 })] } : State).leases.get? 7 = some { le0 with ten := 1 } := by decide +kernel
theorem witness_BoundStream : (sTd 1).lockedTenants.filter (fun j => ((sTd 1).tdis.get? j).any (fun d => d.stream == 7)) = [1] := by decide +kernel
/-- A write that changes a frozen byte. -/
theorem witness_FrozenByte : frozenByte 1 0 1 ≠ frozenByte 1 0 ((sTd 1).cfgByte 1 0) ∧ frozenByte 1 0 1 ≠ frozenByte 1 0 ((sTd 2).cfgByte 1 0) := by
  constructor <;> (show (if (0 == Config.msixCap 1 + 3) = true then (1#8 &&& 0x3F#8) else 1#8) ≠ if (0 == Config.msixCap 1 + 3) = true then (0#8 &&& 0x3F#8) else 0#8) <;> split <;> decide
/-- A peer's request for this node and for another; tenant 63 has the fabric tag 0xFFFF. -/
def sPe : State := { sBt [(0x8020 + 63, 0x1FFFF)] with jex := [(31, 1)] }
theorem witness_Peers : (∃ e ∈ sPe.jex, e.2 = 1) ∧ sPe.booted = true ∧ (sPe.jex.get? 0).getD 0 = 0 ∧ sPe.jex.get? 31 = some 1 ∧ 5 ≠ sPe.node
    ∧ (∀ t ∈ List.range 64, (sPe.mgv (0x8020 + t)).getLsbD 16 = true → bits (sPe.mgv (0x8020 + t)) 15 0 ≠ (7#16).toNat)
    ∧ (sPe.mgv (0x8020 + 63)).getLsbD 16 = true ∧ bits (sPe.mgv (0x8020 + 63)) 15 0 = (0xFFFF#16).toNat
    ∧ (∀ j ∈ List.range 63, (sPe.mgv (0x8020 + j)).getLsbD 16 = true → bits (sPe.mgv (0x8020 + j)) 15 0 ≠ (0xFFFF#16).toNat)
    ∧ sPe.canSpend 63 3 64 = true ∧ sPe.canSpend 63 4 64 = true ∧ (sPe.mgv (0x80A0 + 63)).getLsbD 0 = false ∧ sPe.mem.wf = true ∧ memKey (2 ^ 40 - 64) + 64 ≤ 2 ^ 40 := by decide +kernel
/-- A region of tenant 63, and one of another's; a request that fits its budget and one that does not. -/
theorem witness_PeerReads : (({ sPe with mg := (0x0180, 63) :: sPe.mg } : State).accessFault 63 none 64 64 64) = none
    ∧ (({ sPe with mg := (0x0180, 63) :: sPe.mg } : State).wallFault 63 none 64 64) = none ∧ (sPe.accessFault 63 none 64 64 64).isSome = true
    ∧ sPe.inBudget ⟨8 * 63 + 3, 64, 64⟩ = true ∧ sPe.inBudget ⟨8 * 63 + 4, 64, 64⟩ = true
    ∧ ({ sPe with mg := (0x8060 + 63, 2 ^ 30) :: sPe.mg, spent := [(8 * 63 + 3, 4096)] } : State).canSpend 63 3 64 = false
    ∧ ({ sPe with budgetQ := [⟨8 * 63 + 3, 0, 8⟩] } : State).inBudget ⟨8 * 63 + 3, 64, 64⟩ = false := by decide +kernel

/-! ### Witnesses: the machine as a whole -/

/-- A word stands at the IPC of bank b of core 0, in the cycle 1, after bank l has issued. -/
def sRun (b l : Nat) (w : BitVec 32) (x : Ctx) : State :=
  { (State.reset.setCtx b { x with istore := Mem.setBytes [] 0 (wordBytes w) }).updCore 0 (fun k => { k with lastBank := l }) with agenda := [], time := 1 }
/-- The bank next to the last one issues, and a bank after three that are empty. -/
theorem witness_Turn : ∀ b ∈ [0, 3], (sRun b 3 0x00210808 x0).Turn 0 (b + 1) b := by
  intro b hb
  have h : ∀ b ∈ [0, 3], 1 ≤ b + 1 ∧ b + 1 ≤ 4 ∧ b = 4 * 0 + (((sRun b 3 0x00210808 x0).core 0).lastBank + (b + 1)) % 4
      ∧ ((sRun b 3 0x00210808 x0).core 0).issued ≠ some (sRun b 3 0x00210808 x0).time ∧ (sRun b 3 0x00210808 x0).canIssue b = true
      ∧ ((sRun b 3 0x00210808 x0).ctx b).credit ≠ 0 ∧ ((sRun b 3 0x00210808 x0).ctx b).skip = false := by decide +kernel
  have g : ∀ b ∈ [0, 3], ∀ m ∈ [1, 2, 3], m < b + 1 → (sRun b 3 0x00210808 x0).canIssue (4 * 0 + (((sRun b 3 0x00210808 x0).core 0).lastBank + m) % 4) = false := by
    decide +kernel
  obtain ⟨h1, h2, h3, h4, h5, h6, h7⟩ := h b hb
  refine ⟨h1, h2, h3, h4, h5, h6, h7, fun m m1 m2 => .inl (g b hb m ?_ m2)⟩
  simp only [List.mem_cons, List.not_mem_nil, or_false] at hb
  have hm : m = 1 ∨ m = 2 ∨ m = 3 := by omega
  rcases hm with rfl | rfl | rfl <;> decide
theorem witness_StepRuns : (∀ b ∈ [0, 3], ((sRun b 3 0x00210808 x0).ctx b).ipc.toNat < ((sRun b 3 0x00210808 x0).ctx b).ilen
      ∧ ((sRun b 3 0x00210808 x0).ctx b).ipoison.contains (((sRun b 3 0x00210808 x0).ctx b).ipc.toNat / 8 * 8) = false
      ∧ ((sRun b 3 0x00210808 x0).ctx b).wordAt 0 = 0x00210808)
    ∧ ((sRun 0 3 0 { x0 with ipoison := [0] }).ctx 0).ipoison.contains 0 = true ∧ (sRun 0 3 0 { x0 with ipoison := [0] }).canIssue 0 = true
    ∧ ((sRun 0 3 0 { x0 with ipc := 64 }).ctx 0).ilen ≤ ((sRun 0 3 0 { x0 with ipc := 64 }).ctx 0).ipc.toNat ∧ (sRun 0 3 0 { x0 with ipc := 64 }).canIssue 0 = true
    ∧ (Instr.dividerComplete 0).wf = true ∧ encode (.dividerComplete 0) = none := by decide +kernel
/-- A word that decodes, and one that does not. -/
theorem witness_StepDecodes : decodeWord (((sRun 0 3 0x00210808 x0).ctx 0).wordAt 0) = .ok (.addi gT 1 1 8)
    ∧ (∃ e, decodeWord (((sRun 0 3 0xFFFFFFFF x0).ctx 0).wordAt 0) = .error e) := ⟨by rfl, ⟨_, rfl⟩⟩
/-- A word's effect is another state, which is that of a word that is not held. -/
def goesOn (s : State) : Out → Bool
  | .next t => t != s
  | _ => false
theorem witness_WordGoes : ∀ b ∈ [0, 3], goesOn { sRun b 3 0x00210808 x0 with cur := b } (exec (.addi gT 1 1 8) { sRun b 3 0x00210808 x0 with cur := b }) = true := by
  decide +kernel
/-- A context whose load has made no access yet. -/
theorem witness_Closed : ((ws { x0 with st := .waiting }).ctx 0).st ≠ .ready ∧ ((ws { x0 with wait := some .endProg }).ctx 0).wait ≠ none
    ∧ ((ws { x0 with wake := 2 }).ctx 0).wake > (ws x0).time ∧ ((ws { x0 with gated := true }).ctx 0).gated = true ∧ ((ws { x0 with raised := [trap0] }).ctx 0).raised ≠ []
    ∧ (∃ o ∈ ((ws xLd).ctx 0).ops, (ws xLd).retired o = false) ∧ ({ ws x0 with mg := [(0x0800, 0)], time := 1 + 1 } : State).isOpen 0 = false := by decide +kernel
/-- A core with nothing to issue, and one that has issued in this cycle. -/
theorem witness_Idle : (∀ b ∈ [0, 1, 2, 3], ({ State.reset with time := 1 } : State).canIssue (4 * 0 + b) = false)
    ∧ (({ State.reset with time := 1 } : State).core 0).issued ≠ some 1 ∧ ({ s0 with agenda := [(1, .issue 0)] } : State).agenda = (1, .issue 0) :: []
    ∧ ((s0.updCore 0 (fun k => { k with issued := some 1 })).core 0).issued = some 1 := by decide +kernel
/-- A context with credit and one with none, that is not EMPTY. -/
theorem witness_Rounds : ((ws x0).ctx (4 * 0 + 0)).st = .ready ∧ ((ws x0).ctx (4 * 0 + 0)).gated = false ∧ ((ws x0).ctx (4 * 0 + 0)).credit ≠ 0 ∧ ((ws x0).ctx (4 * 0 + 0)).skip = false
    ∧ (∀ x ∈ [{ x0 with credit := 0 }, { x0 with skip := true }, { x0 with gated := true }], ∀ b ∈ [0, 1, 2, 3], ((ws x).ctx (4 * 0 + b)).st = .ready →
        ((ws x).ctx (4 * 0 + b)).gated = true ∨ ((ws x).ctx (4 * 0 + b)).credit = 0 ∨ ((ws x).ctx (4 * 0 + b)).skip = true)
    ∧ ((ws { x0 with credit := 0 }).ctx (4 * 0 + 0)).st ≠ .empty := by decide +kernel
theorem witness_Encodings : (Instr.addi gT 1 1 8).wf = true ∧ encode (.addi gT 1 1 8) = some 0x00210808 ∧ (Instr.dividerComplete 0).wf = true := by decide +kernel
/-- The invariants of the counters, the channel queues and the windows hold at reset, and of contexts that are at work. -/
theorem witness_ResetAllCtx : State.reset.AllCtx Ctx.Counted ∧ State.reset.AllCtx Ctx.QueuesFit ∧ State.reset.AllCtx Ctx.WindowsHold :=
  ⟨⟨fun _ h => (nomatch h), fun _ h => (nomatch h)⟩, ⟨fun _ h => (nomatch h), fun _ h => (nomatch h)⟩, fun _ h => (nomatch h), fun _ h => (nomatch h)⟩
theorem witness_Counted : Ctx.Counted xLd ∧ Ctx.Counted { x0 with st := .waiting, wait := some (.cqSub 3 none) } :=
  ⟨⟨by decide, by decide, by decide, by decide, by decide, by decide, by decide, fun _ _ h => (nomatch h)⟩,
    by decide, by decide, by decide, by decide, by decide, by decide, by decide, fun _ _ _ => rfl⟩
/-- A bank in CHANNEL or FIFO mode whose queue holds one element in the ring and one in the spill block. -/
theorem witness_QueuesFit : Ctx.QueuesFit { x0 with banks := [⟨0, .spad, false, { q0 with t := 8, rs := 1024, ring := [(1, none)], held := [(2, none)] }⟩] } := by
  intro b hb
  simp only [List.mem_singleton] at hb
  subst hb
  decide
/-- A slot with three credits and one block on its way. -/
theorem witness_WindowsHold : Ctx.WindowsHold { x0 with joins := [{ (x0.join 0) with w := 4, credits := 3, out := 1 }] } := by
  intro j hj
  simp only [List.mem_singleton] at hj
  subst hj
  rfl
theorem witness_Canonical : State.reset.mem.wf = true ∧ (State.reset.core 319).sram.wf = true ∧ Mem.wf [⟨0, 1⟩, ⟨5, 2⟩] = true := by decide +kernel

/-! ### Steps -/

/-- The first step after reset, with ADDI g1, g0, 8 placed where it is fetched, adds; with TRET outside a trap it traps (R33, R41, R413). -/
theorem test_first_step_addi : (match step (State.reset.withFetchWord 32 0x00210008) with | .next t => (t.ctx 0).reg 1 == 8 && (t.ctx 0).ipc == 4 | _ => false) = true := by
  decide +kernel
/-- A reserved word takes ILLEGAL, class 0x01, with TRAPV the word (R20, R49). -/
theorem test_first_step_reserved : (match step (State.reset.withFetchWord 32 0xFFFFFFFF) with
    | .next t => (t.ctx 0).trapc.toNat % 256 == 1 && (t.ctx 0).trapv == 0xFFFFFFFF | _ => false) = true := by decide +kernel

end Sys2Proof.Tests
end

/-! The scalar words (R71 to R80): a pending destination holds them, a false guard skips them, and what they may change. -/

namespace Sys2Proof.Machine

/-! ### What a scalar word may change in its own context -/

theorem Ctx.reg_congr {x y : Ctx} (h : y.g = x.g) (j : BitVec 5) : y.reg j = x.reg j := by simp [Ctx.reg, h]

/-- What a scalar word may write in its own context besides the IPC: a register, a register and the flag word (FLGRD), one predicate, all predicates
(PPUT), or a trap register (SRWR). -/
inductive ScalarDest
  | reg (d : BitVec 5)
  | regAndFlags (d : BitVec 5)
  | pred (u : BitVec 3)
  | preds
  | special

/-- Context y differs from x in its IPC and in the destination w, and in nothing else. -/
def Ctx.ChangesOnly (x y : Ctx) : ScalarDest → Prop
  | .reg d => y = { x with g := y.g, ipc := y.ipc } ∧ ∀ j, j ≠ d → y.reg j = x.reg j
  | .regAndFlags d => y = { x with g := y.g, flags := y.flags, flagNew := y.flagNew, ipc := y.ipc } ∧ ∀ j, j ≠ d → y.reg j = x.reg j
  | .pred u => y = { x with p := y.p, ipc := y.ipc } ∧ ∀ q, q ≠ u → y.pred q = x.pred q
  | .preds => y = { x with p := y.p, ipc := y.ipc }
  | .special => y = { x with trapa := y.trapa, trapv := y.trapv, trapc := y.trapc, ipc := y.ipc }

/-- The fields that a scalar word can change at all. -/
theorem Ctx.ChangesOnly.frame {x y : Ctx} {w : ScalarDest} (h : x.ChangesOnly y w) :
    y = { x with g := y.g, p := y.p, trapa := y.trapa, trapv := y.trapv, trapc := y.trapc, flags := y.flags, flagNew := y.flagNew, ipc := y.ipc } := by
  cases w
  case reg | regAndFlags | pred => rw [h.1]
  case preds | special => rw [show y = _ from h]

theorem Ctx.ChangesOnly.g_eq {x y : Ctx} {w : ScalarDest} (h : x.ChangesOnly y w) (hr : ∀ d, w ≠ .reg d) (hf : ∀ d, w ≠ .regAndFlags d) :
    y.g = x.g := by
  cases w
  case reg d => exact absurd rfl (hr d)
  case regAndFlags d => exact absurd rfl (hf d)
  case pred => rw [h.1]
  case preds | special => rw [show y = _ from h]

theorem Ctx.ChangesOnly.p_eq {x y : Ctx} {w : ScalarDest} (h : x.ChangesOnly y w) (hu : ∀ u, w ≠ .pred u) (hp : w ≠ .preds) : y.p = x.p := by
  cases w
  case reg | regAndFlags => rw [h.1]
  case pred u => exact absurd rfl (hu u)
  case preds => exact absurd rfl hp
  case special => rw [show y = _ from h]

theorem Ctx.ChangesOnly.traps_eq {x y : Ctx} {w : ScalarDest} (h : x.ChangesOnly y w) (hw : w ≠ .special) :
    y.trapa = x.trapa ∧ y.trapv = x.trapv ∧ y.trapc = x.trapc := by
  cases w
  case reg | regAndFlags | pred => rw [h.1]; exact ⟨rfl, rfl, rfl⟩
  case preds => rw [show y = _ from h]; exact ⟨rfl, rfl, rfl⟩
  case special => exact absurd rfl hw

theorem Ctx.ChangesOnly.flags_eq {x y : Ctx} {w : ScalarDest} (h : x.ChangesOnly y w) (hf : ∀ d, w ≠ .regAndFlags d) :
    y.flags = x.flags ∧ y.flagNew = x.flagNew := by
  cases w
  case reg | pred => rw [h.1]; exact ⟨rfl, rfl⟩
  case regAndFlags d => exact absurd rfl (hf d)
  case preds | special => rw [show y = _ from h]; exact ⟨rfl, rfl⟩

theorem Ctx.ChangesOnly.refl (x : Ctx) : ∀ w, x.ChangesOnly x w
  | .reg _ | .regAndFlags _ | .pred _ => ⟨rfl, fun _ _ => rfl⟩
  | .preds | .special => rfl

theorem Ctx.ChangesOnly.advance {x y : Ctx} : ∀ {w}, x.ChangesOnly y w → x.ChangesOnly y.advance w
  | .reg _, h | .regAndFlags _, h | .pred _, h => ⟨congrArg Ctx.advance h.1, h.2⟩
  | .preds, h | .special, h => congrArg Ctx.advance h

theorem Ctx.changesOnly_setReg (x : Ctx) (d : BitVec 5) (v : W64) : x.ChangesOnly (x.setReg d v) (.reg d) := by
  refine ⟨?_, fun j hj => Ctx.reg_setReg_ne x v hj⟩
  unfold Ctx.setReg
  split <;> rfl

/-- Every other predicate is left alone. -/
theorem Ctx.pred_setPred_ne (c : Ctx) {i j : BitVec 3} (v : Bool) (h : j ≠ i) : (c.setPred i v).pred j = c.pred j := by
  unfold Ctx.setPred
  split
  · rfl
  · have hj : j.toNat < 8 := j.isLt
    have hn : j.toNat ≠ i.toNat := fun e => h (BitVec.eq_of_toNat_eq e)
    rcases Nat.lt_or_gt_of_ne hn with hlt | hgt
    · simp [Ctx.pred, hlt, hj]
    · have hd : j.toNat - i.toNat ≠ 0 := by omega
      cases v <;> simp [Ctx.pred, hd, hgt.not_gt, hj]

theorem Ctx.changesOnly_setPred (x : Ctx) (u : BitVec 3) (v : Bool) : x.ChangesOnly (x.setPred u v) (.pred u) := by
  refine ⟨?_, fun q hq => Ctx.pred_setPred_ne x v hq⟩
  unfold Ctx.setPred
  split <;> rfl

theorem Ctx.changesOnly_setSreg (x : Ctx) (n : BitVec 4) (v : W64) : x.ChangesOnly (x.setSreg n v) .special := by
  unfold Ctx.setSreg
  split <;> rfl

theorem Ctx.takeFlags_eq (x : Ctx) (t : Nat) :
    (x.takeFlags t).2 = { x with flags := (x.takeFlags t).2.flags, flagNew := (x.takeFlags t).2.flagNew } := by
  unfold Ctx.takeFlags
  repeat' split
  all_goals rfl

theorem Ctx.changesOnly_takeFlags_setReg (x : Ctx) (t : Nat) (d : BitVec 5) (v : W64) :
    x.ChangesOnly ((x.takeFlags t).2.setReg d v) (.regAndFlags d) := by
  rw [Ctx.takeFlags_eq x t]
  refine ⟨?_, fun j hj => Ctx.reg_setReg_ne _ v hj⟩
  unfold Ctx.setReg
  split <;> rfl

/-! ### What a scalar word may change in the machine -/

/-- From s to t, the context that executes changes its IPC and the destination w; outside it nothing changes but whether a divider is busy. -/
structure State.ScalarStep (s t : State) (w : ScalarDest) : Prop where
  others : ∀ c, c ≠ s.cur → t.ctx c = s.ctx c
  devByte : ∀ pa, t.devByte pa = s.devByte pa
  mem : t.mem = s.mem
  mg : t.mg = s.mg
  dies : t.dies = s.dies
  core : ∀ c, t.core c = { s.core c with divBusy := (t.core c).divBusy }
  own : s.self.ChangesOnly t.self w

theorem State.ScalarStep.refl (s : State) (w : ScalarDest) : s.ScalarStep s w :=
  ⟨fun _ _ => rfl, fun _ => rfl, rfl, rfl, rfl, fun _ => rfl, .refl _ w⟩

theorem State.scalarStep_withSelf {s : State} {x : Ctx} {w : ScalarDest} (h : s.self.ChangesOnly x w) : s.ScalarStep (s.withSelf x) w where
  others _ hc := State.ctx_setCtx_ne s x hc
  devByte _ := rfl
  mem := rfl
  mg := rfl
  dies := rfl
  core _ := rfl
  own := by simpa [State.self] using h

/-- Every other core is left alone. -/
theorem State.core_updCore_ne (s : State) {k c : CoreId} (f : Core → Core) (h : c ≠ k) : (s.updCore k f).core c = s.core c := by
  simp [State.updCore, State.setCore, State.core, Map.get?_set_ne _ _ h]

/-- A scalar step that occupies a divider too is a scalar step. -/
theorem State.ScalarStep.occupyDivider {s t : State} {w : ScalarDest} (h : s.ScalarStep t w) (k : CoreId) :
    s.ScalarStep (t.updCore k (fun x => { x with divBusy := true })) w where
  others := h.others
  devByte := h.devByte
  mem := h.mem
  mg := h.mg
  dies := h.dies
  core c := by
    by_cases hc : c = k
    · subst hc
      rw [State.core_updCore_self, h.core c]
    · rw [State.core_updCore_ne t _ hc]
      exact h.core c
  own := h.own

/-! ### The issue of a scalar word -/

theorem State.issue_hold {s : State} {g : Guard} {hold : Ctx → Bool} {eff : Ctx → State} (h : hold s.self = true) :
    s.issue g hold eff = .next s := by simp [State.issue, h]

theorem State.issue_skip {s : State} {g : Guard} {hold : Ctx → Bool} {eff : Ctx → State} (h : hold s.self = false)
    (hg : s.self.guard g = false) : s.issue g hold eff = .next (s.withSelf s.self.advance) := by simp [State.issue, h, hg]

/-- A control word whose effect is a scalar step makes a scalar step, also where it is held or skipped. -/
theorem State.issue_scalarStep {s t : State} {g : Guard} {hold : Ctx → Bool} {eff : Ctx → State} {w : ScalarDest}
    (h : s.issue g hold eff = .next t) (he : s.ScalarStep (eff s.self) w) : s.ScalarStep t w := by
  rcases s.issue_cases g hold eff with ⟨-, e⟩ | ⟨-, -, e⟩ | ⟨-, -, e⟩ <;> rw [e] at h <;> cases h
  case inl => exact .refl s w
  case inr.inl => exact State.scalarStep_withSelf (Ctx.ChangesOnly.refl _ w).advance
  case inr.inr => exact he

theorem State.simple_scalarStep {s t : State} {g : Guard} {hold : Ctx → Bool} {eff : Ctx → Ctx} {w : ScalarDest}
    (h : s.simple g hold eff = .next t) (he : s.self.ChangesOnly (eff s.self) w) : s.ScalarStep t w :=
  State.issue_scalarStep h (State.scalarStep_withSelf he.advance)

theorem State.wrReg_scalarStep {s t : State} {g : Guard} {d : BitVec 5} {f : Ctx → W64} (h : s.wrReg g d f = .next t) :
    s.ScalarStep t (.reg d) := State.simple_scalarStep h (Ctx.changesOnly_setReg _ d _)

theorem State.divide_scalarStep {s t : State} {g : Guard} {d a b : BitVec 5} {f : W64 → W64 → W64} (h : s.divide g d a b f = .next t) :
    s.ScalarStep t (.reg d) :=
  State.issue_scalarStep h ((State.scalarStep_withSelf (Ctx.changesOnly_setReg _ d _).advance).occupyDivider _)

theorem State.cmp_scalarStep {s t : State} {g : Guard} {u : BitVec 3} {f : Ctx → Bool} (h : s.cmp g u f = .next t) :
    s.ScalarStep t (.pred u) := State.simple_scalarStep h (Ctx.changesOnly_setPred _ u _)

theorem execSrrd_scalarStep {s t : State} {g : Guard} {d : BitVec 5} {n : BitVec 4} (hn : s.self.det = true → n ≠ 5)
    (h : execSrrd g d n s = .next t) : s.ScalarStep t (.reg d) := by
  refine State.issue_scalarStep h ?_
  have hc : ¬(s.self.det && n == 5) = true := by simpa using hn
  rw [if_neg hc]
  exact State.scalarStep_withSelf (Ctx.changesOnly_setReg _ d _).advance

theorem execSrwr_scalarStep {s t : State} {g : Guard} {d : BitVec 5} {n : BitVec 4} (h : execSrwr g d n s = .next t) :
    s.ScalarStep t .special := State.simple_scalarStep h (Ctx.changesOnly_setSreg _ n _)

theorem execPput_scalarStep {s t : State} {g : Guard} {a : BitVec 5} (h : execPput g a s = .next t) : s.ScalarStep t .preds :=
  State.simple_scalarStep h rfl

theorem execFlgrd_scalarStep {s t : State} {g : Guard} {d : BitVec 5} (h : execFlgrd g d s = .next t) :
    s.ScalarStep t (.regAndFlags d) := State.simple_scalarStep h (Ctx.changesOnly_takeFlags_setReg _ _ d _)

/-! ### The words by what they write -/

section Words
variable (g : Guard) (d a b : BitVec 5) (i : BitVec 11) (k : BitVec 6) (h : BitVec 16) (u v w : BitVec 3)

/-- The words of R71 that precede the divisions in the opcode table. -/
def aluWords : List Instr :=
  [.add g d a b, .sub g d a b, .and g d a b, .or g d a b, .xor g d a b, .andn g d a b, .orn g d a b, .shl g d a b, .shr g d a b, .sra g d a b,
    .rol g d a b, .ror g d a b, .mul g d a b, .mulh g d a b, .mulhu g d a b]

/-- The divisions (R72). -/
def divWords : List Instr := [.div g d a b, .divu g d a b, .rem g d a b, .remu g d a b]

/-- The words of R71 that follow the divisions, and those of R73 and R74. -/
def immWords : List Instr :=
  [.min g d a b, .max g d a b, .minu g d a b, .maxu g d a b, .addw g d a b, .subw g d a b, .mulw g d a b, .clz g d a, .ctz g d a, .popc g d a,
    .addi g d a i, .andi g d a i, .ori g d a i, .xori g d a i, .shli g d a k, .shri g d a k, .srai g d a k, .muli g d a i, .addwi g d a i,
    .movi g d h, .movz g d h, .movk16 g d h, .movk32 g d h, .movk48 g d h]

/-- The words that write one predicate (R77 to R79). -/
def predWords : List Instr :=
  [.cmpEq g u a b, .cmpNe g u a b, .cmpLt g u a b, .cmpGe g u a b, .cmpLtu g u a b, .cmpGeu g u a b, .cmpTst g u a b, .cmpiEq g u a i, .cmpiLt g u a i,
    .cmpiLtu g u a i, .pand g u v w, .por g u v w, .pxor g u v w, .pandn g u v w, .pnot g u v, .pmov g u v]

variable {g d a b i k h u v w} {e : Instr} (s : State)

theorem exec_eq_wrReg_of_mem_aluWords (he : e ∈ aluWords g d a b) : ∃ f, exec e s = s.wrReg g d f := by
  revert e
  simp [aluWords, execAdd, execSub, execAnd, execOr, execXor, execAndn, execOrn, execShl, execShr, execSra, execRol, execRor, execMul, execMulh,
    execMulhu, State.alu]

theorem exec_eq_wrReg_of_mem_immWords (he : e ∈ immWords g d a b i k h) : ∃ f, exec e s = s.wrReg g d f := by
  revert e
  simp [immWords, execMin, execMax, execMinu, execMaxu, execAddw, execSubw, execMulw, execClz, execCtz, execPopc, execAddi, execAndi, execOri, execXori,
    execShli, execShri, execSrai, execMuli, execAddwi, execMovi, execMovz, execMovk16, execMovk32, execMovk48, State.alu, State.aluI]

theorem exec_eq_divide_of_mem_divWords (he : e ∈ divWords g d a b) : ∃ f, exec e s = s.divide g d a b f := by
  revert e
  simp [divWords, execDiv, execDivu, execRem, execRemu]

theorem exec_eq_cmp_of_mem_predWords (he : e ∈ predWords g a b i u v w) : ∃ f, exec e s = s.cmp g u f := by
  revert e
  simp [predWords, execCmpEq, execCmpNe, execCmpLt, execCmpGe, execCmpLtu, execCmpGeu, execCmpTst, execCmpiEq, execCmpiLt, execCmpiLtu, execPand, execPor,
    execPxor, execPandn, execPnot, execPmov]

/-- The words that write a register, the divisions left out: R21 holds them at a pending destination, and the guard does the rest. -/
theorem exec_eq_issue_of_writesReg {n : BitVec 4}
    (he : e ∈ (aluWords g d a b ++ immWords g d a b i k h) ++ [.flgrd g d, .pget g d, .srrd g d n]) :
    ∃ eff, exec e s = s.issue g (fun c => c.pends d) eff := by
  simp only [List.mem_append, List.mem_cons, List.not_mem_nil, or_false] at he
  rcases he with (he | he) | rfl | rfl | rfl
  · obtain ⟨f, hf⟩ := exec_eq_wrReg_of_mem_aluWords s he
    rw [hf, State.wrReg, State.simple]
    exact ⟨_, rfl⟩
  · obtain ⟨f, hf⟩ := exec_eq_wrReg_of_mem_immWords s he
    rw [hf, State.wrReg, State.simple]
    exact ⟨_, rfl⟩
  · rw [exec_flgrd, execFlgrd, State.simple]
    exact ⟨_, rfl⟩
  · rw [exec_pget, execPget, State.wrReg, State.simple]
    exact ⟨_, rfl⟩
  · rw [exec_srrd, execSrrd]
    exact ⟨_, rfl⟩

/-- The words of R76 to R80 that write no register are held by nothing. -/
theorem exec_eq_issue_of_writesNoReg {n : BitVec 4} (he : e ∈ predWords g a b i u v w ++ [.pput g a, .srwr g d n]) :
    ∃ eff, exec e s = s.issue g (fun _ => false) eff := by
  simp only [List.mem_append, List.mem_cons, List.not_mem_nil, or_false] at he
  rcases he with he | rfl | rfl
  · obtain ⟨f, hf⟩ := exec_eq_cmp_of_mem_predWords s he
    rw [hf, State.cmp, State.simple]
    exact ⟨_, rfl⟩
  · rw [exec_pput, execPput, State.simple]
    exact ⟨_, rfl⟩
  · rw [exec_srwr, execSrwr, State.simple]
    exact ⟨_, rfl⟩

/-- The words whose only destination is g[d]. -/
def regWords (g : Guard) (d a b : BitVec 5) (i : BitVec 11) (k : BitVec 6) (h : BitVec 16) (n : BitVec 4) : List Instr :=
  (aluWords g d a b ++ divWords g d a b ++ immWords g d a b i k h) ++ [.pget g d, .srrd g d n]

theorem exec_regWord_scalarStep {n : BitVec 4} {s t : State} (he : e ∈ regWords g d a b i k h n) (hn : s.self.det = true → e ≠ .srrd g d 5)
    (hx : exec e s = .next t) : s.ScalarStep t (.reg d) := by
  simp only [regWords, List.mem_append, List.mem_cons, List.not_mem_nil, or_false] at he
  rcases he with ((he | he) | he) | rfl | rfl
  · obtain ⟨f, hf⟩ := exec_eq_wrReg_of_mem_aluWords s he
    exact State.wrReg_scalarStep (hf ▸ hx)
  · obtain ⟨f, hf⟩ := exec_eq_divide_of_mem_divWords s he
    exact State.divide_scalarStep (hf ▸ hx)
  · obtain ⟨f, hf⟩ := exec_eq_wrReg_of_mem_immWords s he
    exact State.wrReg_scalarStep (hf ▸ hx)
  · rw [exec_pget, execPget] at hx
    exact State.wrReg_scalarStep hx
  · exact execSrrd_scalarStep (fun hd h5 => hn hd (h5 ▸ rfl)) hx

theorem exec_predWord_scalarStep {s t : State} (he : e ∈ predWords g a b i u v w) (hx : exec e s = .next t) : s.ScalarStep t (.pred u) := by
  obtain ⟨f, hf⟩ := exec_eq_cmp_of_mem_predWords s he
  exact State.cmp_scalarStep (hf ▸ hx)

theorem ne_of_mem_regWords {n m : BitVec 4} (he : e ∈ regWords g d a b i k h n) :
    e ∉ predWords g a b i u v w ∧ e ≠ .pput g a ∧ e ≠ .srwr g d m := by
  revert e
  simp [regWords, aluWords, divWords, immWords, predWords]

theorem flgrd_notMem_predWords : .flgrd g d ∉ predWords g a b i u v w := by simp [predWords]

theorem pput_notMem_predWords : .pput g a ∉ predWords g a b i u v w := by simp [predWords]

theorem srwr_notMem_predWords {n : BitVec 4} : .srwr g d n ∉ predWords g a b i u v w := by simp [predWords]

end Words

/-! ### The statement -/

theorem scalarWords_hold_and_skip (s : State) (g : Guard) (d a b : BitVec 5) (i : BitVec 11) (k : BitVec 6) (h : BitVec 16) (n : BitVec 4)
    (u v w : BitVec 3) :
    (∀ e ∈ (aluWords g d a b ++ immWords g d a b i k h) ++ [.flgrd g d, .pget g d, .srrd g d n],
        (s.self.pends d = true → exec e s = .next s)
        ∧ (s.self.pends d = false → s.self.guard g = false → exec e s = .next (s.withSelf s.self.advance)))
      ∧ (∀ e ∈ divWords g d a b, (s.core (coreOf s.cur)).divBusy = false →
        (s.self.pends d = true → exec e s = .next s)
        ∧ (s.self.pends d = false → s.self.guard g = false → exec e s = .next (s.withSelf s.self.advance)))
      ∧ ∀ e ∈ predWords g a b i u v w ++ [.pput g a, .srwr g d n],
        s.self.guard g = false → exec e s = .next (s.withSelf s.self.advance) := by
  refine ⟨fun e he => ?_, fun e he hb => ?_, fun e he hg => ?_⟩
  · obtain ⟨eff, hx⟩ := exec_eq_issue_of_writesReg s he
    rw [hx]
    exact ⟨fun hp => State.issue_hold hp, fun hp hg => State.issue_skip hp hg⟩
  · obtain ⟨f, hx⟩ := exec_eq_divide_of_mem_divWords s he
    rw [hx, State.divide]
    exact ⟨fun hp => State.issue_hold (by simp [hp]), fun hp hg => State.issue_skip (by simp [hp, hb]) hg⟩
  · obtain ⟨eff, hx⟩ := exec_eq_issue_of_writesNoReg s he
    rw [hx]
    exact State.issue_skip rfl hg

/-- Settles O7. Each word is issued by one of the shared operations, and each of those makes a scalar step to the word's destination. -/
theorem scalarWordsChangeOnlyTheirDestination : Obligations.ScalarWordsChangeOnlyTheirDestination := by
  unfold Obligations.ScalarWordsChangeOnlyTheirDestination
  refine ⟨scalarWords_hold_and_skip, ?_⟩
  intro s t g d a b i k h n u v w preds hpreds e hx he hn
  obtain rfl : preds = predWords g a b i u v w := hpreds
  change e ∈ (regWords g d a b i k h n ++ [.flgrd g d, .pput g a, .srwr g d n]) ++ predWords g a b i u v w at he
  simp only [List.mem_append, List.mem_cons, List.not_mem_nil, or_false] at he
  rcases he with (he | rfl | rfl | rfl) | he
  case inl.inl =>
    have hs := exec_regWord_scalarStep he hn hx
    obtain ⟨hp, hput, hsr⟩ := ne_of_mem_regWords (u := u) (v := v) (w := w) (m := n) he
    exact ⟨hs.others, hs.devByte, hs.mem, hs.mg, hs.dies, hs.core, hs.own.frame, hs.own.2, (by simp [hp, hput, hsr]),
      fun _ => hs.own.traps_eq nofun, fun _ => hs.own.flags_eq nofun, fun hw => absurd hw hp, fun _ _ => hs.own.p_eq nofun nofun⟩
  case inl.inr.inl =>
    have hs := execFlgrd_scalarStep hx
    exact ⟨hs.others, hs.devByte, hs.mem, hs.mg, hs.dies, hs.core, hs.own.frame, hs.own.2, (by simp [flgrd_notMem_predWords]),
      fun _ => hs.own.traps_eq nofun, fun hw => absurd rfl hw, fun hw => absurd hw flgrd_notMem_predWords, fun _ _ => hs.own.p_eq nofun nofun⟩
  case inl.inr.inr.inl =>
    have hs := execPput_scalarStep hx
    have hg := hs.own.g_eq nofun nofun
    exact ⟨hs.others, hs.devByte, hs.mem, hs.mg, hs.dies, hs.core, hs.own.frame, fun j _ => Ctx.reg_congr hg j, fun _ => hg,
      fun _ => hs.own.traps_eq nofun, fun _ => hs.own.flags_eq nofun, fun hw => absurd hw pput_notMem_predWords, fun _ hw => absurd rfl hw⟩
  case inl.inr.inr.inr =>
    have hs := execSrwr_scalarStep hx
    have hg := hs.own.g_eq nofun nofun
    exact ⟨hs.others, hs.devByte, hs.mem, hs.mg, hs.dies, hs.core, hs.own.frame, fun j _ => Ctx.reg_congr hg j, fun _ => hg,
      fun hw => absurd rfl hw, fun _ => hs.own.flags_eq nofun, fun hw => absurd hw srwr_notMem_predWords,
      fun _ _ => hs.own.p_eq nofun nofun⟩
  case inr =>
    have hs := exec_predWord_scalarStep he hx
    have hg := hs.own.g_eq nofun nofun
    exact ⟨hs.others, hs.devByte, hs.mem, hs.mg, hs.dies, hs.core, hs.own.frame, fun j _ => Ctx.reg_congr hg j, fun _ => hg,
      fun _ => hs.own.traps_eq nofun, fun _ => hs.own.flags_eq nofun, fun _ => hs.own.2, fun hw => absurd he hw⟩

end Sys2Proof.Machine

/-! The register file and reset (R13, R14, R33, R294, R346, R387, R410, R460). -/

namespace Sys2Proof.Machine

/-- A written predicate reads as written. -/
theorem Ctx.pred_setPred_self (c : Ctx) {p : BitVec 3} (h : p ≠ 0) (b : Bool) : (c.setPred p b).pred p = b := by
  have h0 : ¬p = 0#3 := h
  rw [Ctx.setPred, if_neg h]
  cases b <;> simp [Ctx.pred, h0, p.isLt]

/-- Settles O6, from the laws of the register and predicate files. -/
theorem hardWiredRegistersAndPredicates : Obligations.HardWiredRegistersAndPredicates := by
  unfold Obligations.HardWiredRegistersAndPredicates
  intro x i j p q v b
  exact ⟨rfl, rfl, rfl, rfl, fun h => Ctx.reg_setReg_self x h v, fun h => Ctx.reg_setReg_ne x v h, Ctx.setReg_p x i v,
    fun h => Ctx.pred_setPred_self x h b, fun h => Ctx.pred_setPred_ne x b h, Ctx.setPred_g x p b⟩

/-- Settles O60. Nothing is listed at reset, so every context, core and register reads as its default. -/
theorem resetIsTheManuals : Obligations.ResetIsTheManuals := by
  unfold Obligations.ResetIsTheManuals
  refine ⟨fun c => ⟨rfl, rfl, rfl, rfl⟩, fun k => ⟨rfl, rfl, rfl, rfl⟩, rfl, rfl, rfl, fun k => rfl, fun t ht => ?_, fun m hm => ?_, rfl, rfl⟩
  · have h0 : ¬(0x0100 ≤ 0x0800 + t ∧ 0x0800 + t < 0x0140) := by omega
    have h1 : 0x0800 ≤ 0x0800 + t ∧ 0x0800 + t < 0x0840 := by omega
    change mgReset (0x0800 + t) = 0xF301
    simp only [mgReset, Bool.and_eq_true, decide_eq_true_eq]
    rw [if_neg h0, if_pos h1]
  · obtain rfl | rfl | rfl | rfl : m = 0 ∨ m = 1 ∨ m = 2 ∨ m = 3 := by omega
    all_goals exact ⟨rfl, rfl, rfl⟩

end Sys2Proof.Machine

/-! Scratchpad words: the faults of their addresses and the frame of their issue (R22, R84 to R87). -/

namespace Sys2Proof.Machine

/-! ### Scratchpad words (R22, R84 to R87) -/

section SpadWords
variable {s : State} {g : Guard} {r a : BitVec 5} {off : BitVec 11} {n : Nat} {sg : Bool} {op : AmoOp} {f : Trap}

theorem State.load_fault (hg : s.self.guard g = true) (hp : s.self.pends r = false) (hl : s.self.cntLd < 31)
    (hf : s.spadFault s.cur (effAddr (s.self.reg a) n off) n n unitSeq = some f) : s.load g r a off n sg = .next (s.raise s.cur f) := by
  rw [State.load, State.issue_go (by simpa [hp] using hl) hg]
  simp only [hf]

theorem State.store_fault (hg : s.self.guard g = true) (hl : s.self.cntSt < 31)
    (hf : s.spadFault s.cur (effAddr (s.self.reg a) n off) n n unitSeq = some f) : s.store g r a off n = .next (s.raise s.cur f) := by
  rw [State.store, State.issue_go (by simpa using hl) hg]
  simp only [hf]

theorem State.amo_fault (hg : s.self.guard g = true) (hp : s.self.pends r = false) (hl : s.self.cntLd < 31)
    (hf : s.spadFault s.cur (s.self.reg a) n n unitSeq = some f) : s.amo g r a op n = .next (s.raise s.cur f) := by
  rw [State.amo, State.issue_go (by simpa [hp] using hl) hg]
  simp only [hf]

end SpadWords

/-- The word w makes an access of n bytes at address ea (R22): where that address has a fault at issue, the word raises it. -/
def State.FaultsAt (s : State) (w : Instr) (ea : W64) (n : Nat) : Prop :=
  ∀ f, s.spadFault s.cur ea n n unitSeq = some f → exec w s = .next (s.raise s.cur f)

/-- The two address faults of R22 of a word that raises what its address meets. -/
theorem State.FaultsAt.alignment_and_bounds {s : State} {w : Instr} {ea : W64} {n : Nat} (h : s.FaultsAt w ea n) :
    (ea.toNat % n ≠ 0 → exec w s = .next (s.raise s.cur ⟨0x02, ea, BitVec.ofNat 16 n⟩))
      ∧ (ea.toNat % n = 0 → s.self.banks.length * 2 ^ 17 < ea.toNat + n → exec w s = .next (s.raise s.cur ⟨0x03, ea, BitVec.ofNat 16 n⟩)) :=
  ⟨fun ha => h _ (State.spadFault_align ha), fun ha hb => h _ (State.spadFault_bounds ha hb)⟩

/-- From s to t a word has been held or skipped, or has counted an operation: it has changed no more of its context than operations and IPC. -/
def State.OnlyIssues (s t : State) : Prop :=
  s.SameElsewhere t ∧ t.self = { s.self with ops := t.self.ops, opN := t.self.opN, ipc := t.self.ipc }
    ∧ (∀ pa, t.devByte pa = s.devByte pa) ∧ ∀ b n, t.spadBytes s.cur b n = s.spadBytes s.cur b n

theorem State.onlyIssues_withSelf {s : State} {x : Ctx} (h : x = { s.self with ops := x.ops, opN := x.opN, ipc := x.ipc }) :
    s.OnlyIssues (s.withSelf x) := by
  refine ⟨⟨fun c hc => State.ctx_setCtx_ne s x hc, rfl, rfl, rfl, rfl⟩, by simpa [State.self] using h, fun _ => rfl, fun b n => ?_⟩
  have hb : x.banks = s.self.banks := by rw [h]
  have hx : ∀ i, x.sramAddr i = s.self.sramAddr i := by rw [h]; exact fun _ => rfl
  simp [State.spadBytes, State.self, hx]

/-- What the issue of a load, a store or a local atomic can do. -/
theorem State.raises_or_onlyIssues {s t : State} {o : Out} (ho : o = .next t)
    (h : ∃ u, o = .next u ∧ (u = s ∨ u = s.withSelf s.self.advance ∨ (∃ f, u = s.raise s.cur f)
      ∨ ∃ st d b, u = s.withSelf (s.self.pushOp st d b).advance)) : (∃ f, t = s.raise s.cur f) ∨ s.OnlyIssues t := by
  obtain ⟨u, hu, hc⟩ := h
  obtain rfl : u = t := by rw [ho] at hu; injection hu with e; exact e.symm
  rcases hc with rfl | rfl | hf | ⟨st, d, b, rfl⟩
  · exact .inr ⟨⟨fun _ _ => rfl, rfl, rfl, rfl, rfl⟩, rfl, fun _ => rfl, fun _ _ => rfl⟩
  · exact .inr (State.onlyIssues_withSelf rfl)
  · exact .inl hf
  · exact .inr (State.onlyIssues_withSelf rfl)

theorem State.load_raises_or_onlyIssues {s t : State} {g : Guard} {r a : BitVec 5} {off : BitVec 11} {n : Nat} {sg : Bool}
    (h : s.load g r a off n sg = .next t) : (∃ f, t = s.raise s.cur f) ∨ s.OnlyIssues t := by
  obtain ⟨u, hu, hc⟩ := s.load_cases g r a off n sg
  exact State.raises_or_onlyIssues h ⟨u, hu, hc.imp_right (.imp_right (.imp_right fun ⟨b, e⟩ => ⟨_, _, b, e⟩))⟩

theorem State.store_raises_or_onlyIssues {s t : State} {g : Guard} {r a : BitVec 5} {off : BitVec 11} {n : Nat}
    (h : s.store g r a off n = .next t) : (∃ f, t = s.raise s.cur f) ∨ s.OnlyIssues t := by
  obtain ⟨u, hu, hc⟩ := s.store_cases g r a off n
  exact State.raises_or_onlyIssues h ⟨u, hu, hc.imp_right (.imp_right (.imp_right fun ⟨b, e⟩ => ⟨_, _, b, e⟩))⟩

theorem State.amo_raises_or_onlyIssues {s t : State} {g : Guard} {r a : BitVec 5} {op : AmoOp} {n : Nat}
    (h : s.amo g r a op n = .next t) : (∃ f, t = s.raise s.cur f) ∨ s.OnlyIssues t := by
  obtain ⟨u, hu, hc⟩ := s.amo_cases g r a op n
  exact State.raises_or_onlyIssues h ⟨u, hu, hc.imp_right (.imp_right (.imp_right fun ⟨b, e⟩ => ⟨_, _, b, e⟩))⟩

/-! ### The scratchpad words by the operation that they share -/

section Groups
variable (g : Guard) (r a : BitVec 5) (off : BitVec 11) (s : State)

/-- The loads of R84, with the bytes that each reads and whether it extends their sign. -/
def loadWords : List (Instr × Nat × Bool) :=
  [(.ldb g r a off, 1, false), (.ldbs g r a off, 1, true), (.ldh g r a off, 2, false), (.ldhs g r a off, 2, true), (.ldw g r a off, 4, false),
    (.ldws g r a off, 4, true), (.ldd g r a off, 8, false)]

/-- The stores of R85, with the bytes that each writes. -/
def storeWords : List (Instr × Nat) := [(.stb g r a off, 1), (.sth g r a off, 2), (.stw g r a off, 4), (.std g r a off, 8)]

/-- The local atomics of R86 and R87, with the operation and the bytes of each. -/
def amoWords : List (Instr × AmoOp × Nat) :=
  [(.amoSwapW g r a, .swap, 4), (.amoAddW g r a, .add, 4), (.amoAndW g r a, .and, 4), (.amoOrW g r a, .or, 4), (.amoXorW g r a, .xor, 4),
    (.amoMinW g r a, .min, 4), (.amoMaxW g r a, .max, 4), (.amoMinuW g r a, .minu, 4), (.amoMaxuW g r a, .maxu, 4), (.amoCasW g r a, .cas, 4),
    (.amoSwapD g r a, .swap, 8), (.amoAddD g r a, .add, 8), (.amoAndD g r a, .and, 8), (.amoOrD g r a, .or, 8), (.amoXorD g r a, .xor, 8),
    (.amoMinD g r a, .min, 8), (.amoMaxD g r a, .max, 8), (.amoMinuD g r a, .minu, 8), (.amoMaxuD g r a, .maxu, 8), (.amoCasD g r a, .cas, 8)]

variable {g r a off}

theorem exec_loadWord {e : Instr × Nat × Bool} (he : e ∈ loadWords g r a off) : exec e.1 s = s.load g r a off e.2.1 e.2.2 := by
  simp only [loadWords, List.mem_cons, List.not_mem_nil, or_false] at he
  rcases he with rfl | rfl | rfl | rfl | rfl | rfl | rfl <;> rfl

theorem exec_storeWord {e : Instr × Nat} (he : e ∈ storeWords g r a off) : exec e.1 s = s.store g r a off e.2 := by
  simp only [storeWords, List.mem_cons, List.not_mem_nil, or_false] at he
  rcases he with rfl | rfl | rfl | rfl <;> rfl

theorem exec_amoWord {e : Instr × AmoOp × Nat} (he : e ∈ amoWords g r a) : exec e.1 s = s.amo g r a e.2.1 e.2.2 := by
  simp only [amoWords, List.mem_cons, List.not_mem_nil, or_false] at he
  rcases he with rfl | rfl | rfl | rfl | rfl | rfl | rfl | rfl | rfl | rfl | rfl | rfl | rfl | rfl | rfl | rfl | rfl | rfl | rfl | rfl <;> rfl

end Groups

section Issue
variable {s : State} {g : Guard} {r a : BitVec 5} {off : BitVec 11}

theorem faultsAt_loadWord (hg : s.self.guard g = true) (hp : s.self.pends r = false) (hl : s.self.cntLd < 31) {e : Instr × Nat × Bool}
    (he : e ∈ loadWords g r a off) : s.FaultsAt e.1 (s.self.reg a + BitVec.ofInt 64 (e.2.1 * off.toInt)) e.2.1 := fun f hf => by
  rw [← effAddr_eq] at hf
  rw [exec_loadWord s he, State.load_fault hg hp hl hf]

theorem faultsAt_storeWord (hg : s.self.guard g = true) (hl : s.self.cntSt < 31) {e : Instr × Nat}
    (he : e ∈ storeWords g r a off) : s.FaultsAt e.1 (s.self.reg a + BitVec.ofInt 64 (e.2 * off.toInt)) e.2 := fun f hf => by
  rw [← effAddr_eq] at hf
  rw [exec_storeWord s he, State.store_fault hg hl hf]

theorem faultsAt_amoWord (hg : s.self.guard g = true) (hp : s.self.pends r = false) (hl : s.self.cntLd < 31) {e : Instr × AmoOp × Nat}
    (he : e ∈ amoWords g r a) : s.FaultsAt e.1 (s.self.reg a) e.2.2 := fun f hf => by rw [exec_amoWord s he, State.amo_fault hg hp hl hf]

end Issue

/-- Settles O11. Loads, stores and atomics share one operation each; the operation says both what faults and what is changed. -/
theorem loadAndStoreFaultsAndFrame : Obligations.LoadAndStoreFaultsAndFrame := by
  unfold Obligations.LoadAndStoreFaultsAndFrame
  refine ⟨?_, ?_⟩
  · intro s g r a off hg hp hl ht e he
    have load : ∀ e ∈ loadWords g r a off, s.FaultsAt e.1 (s.self.reg a + BitVec.ofInt 64 (e.2.1 * off.toInt)) e.2.1 :=
      fun _ he => faultsAt_loadWord hg hp hl he
    have store : ∀ e ∈ storeWords g r a off, s.FaultsAt e.1 (s.self.reg a + BitVec.ofInt 64 (e.2 * off.toInt)) e.2 :=
      fun _ he => faultsAt_storeWord hg ht he
    have amo : ∀ e ∈ amoWords g r a, s.FaultsAt e.1 (s.self.reg a) e.2.2 := fun _ he => faultsAt_amoWord hg hp hl he
    simp only [loadWords, storeWords, amoWords, List.forall_mem_cons, Nat.cast_one, Nat.cast_ofNat, one_mul] at load store amo
    refine State.FaultsAt.alignment_and_bounds ?_
    revert e
    simp only [List.forall_mem_cons]
    simp [load, store, amo]
  · intro s t g r a off w hw hx
    change w ∈ (loadWords g r a off).map (·.1) ++ (storeWords g r a off).map (·.1) ++ (amoWords g r a).map (·.1) at hw
    change (∃ f, t = s.raise s.cur f) ∨ s.OnlyIssues t
    simp only [List.mem_append, List.mem_map] at hw
    obtain (⟨e, he, rfl⟩ | ⟨e, he, rfl⟩) | ⟨e, he, rfl⟩ := hw
    · exact State.load_raises_or_onlyIssues (exec_loadWord s he ▸ hx)
    · exact State.store_raises_or_onlyIssues (exec_storeWord s he ▸ hx)
    · exact State.amo_raises_or_onlyIssues (exec_amoWord s he ▸ hx)

end Sys2Proof.Machine

/-! Waits, traps, and the ends of contexts (R18, R27, R30 to R32, R88, R89, R136, R398, R399). -/

namespace Sys2Proof.Machine

/-! ### Waits on counters (R18, R27, R88, R89) -/

/-- R88's condition of a WAIT.ALL. -/
theorem Ctx.waitDone_all (x : Ctx) (ld st cp tl : Nat) :
    x.waitDone true ld st cp tl = true ↔ x.cntLd ≤ ld ∧ x.cntSt ≤ st ∧ x.cntCp ≤ cp ∧ x.cntTl ≤ tl := by
  simp [Ctx.waitDone, and_assoc]

/-- R88's condition of a WAIT: one counter that it names is low enough, or it names none. -/
theorem Ctx.waitDone_any (x : Ctx) (ld st cp tl : BitVec 5) :
    x.waitDone false ld.toNat st.toNat cp.toNat tl.toNat = true ↔ (ld = 31 ∧ st = 31 ∧ cp = 31 ∧ tl = 31) ∨ (ld ≠ 31 ∧ x.cntLd ≤ ld.toNat)
      ∨ (st ≠ 31 ∧ x.cntSt ≤ st.toNat) ∨ (cp ≠ 31 ∧ x.cntCp ≤ cp.toNat) ∨ (tl ≠ 31 ∧ x.cntTl ≤ tl.toNat) := by
  have h31 (v : BitVec 5) : v.toNat = 31 ↔ v = 31 := ⟨fun h => BitVec.eq_of_toNat_eq h, fun h => h ▸ rfl⟩
  by_cases hn : ld = 31 ∧ st = 31 ∧ cp = 31 ∧ tl = 31
  · simp [Ctx.waitDone, hn]
  · simp [Ctx.waitDone, h31, or_assoc]
    tauto

/-- A satisfied WAIT that covers no kept fault retires. -/
theorem State.waitRetire_of_cov_nil {s : State} {c : CtxId} (h : (s.ctx c).cov = []) (all : Bool) (ld st cp tl : Nat) :
    s.waitRetire c all ld st cp tl = s.setCtx c { s.ctx c with st := .ready, wait := none, wake := s.time + 1, ipc := (s.ctx c).ipc + 4 } := by
  have hf : (s.ctx c).cov.find? (fun f => (s.ctx c).covers all ld st cp tl f) = none := by rw [h]; rfl
  simp only [State.waitRetire, hf]
  rfl

section WaitWords
variable {s : State} {g : Guard} {all : Bool} {ld st cp tl : BitVec 5}

theorem State.waitOp_done (hg : s.self.guard g = true) (h : s.self.waitDone all ld.toNat st.toNat cp.toNat tl.toNat = true) :
    s.waitOp g all ld st cp tl = .next (s.waitRetire s.cur all ld.toNat st.toNat cp.toNat tl.toNat) := by
  rw [State.waitOp, State.issue_go rfl hg, if_pos h]

theorem State.waitOp_waits (hg : s.self.guard g = true) (h : s.self.waitDone all ld.toNat st.toNat cp.toNat tl.toNat ≠ true) :
    s.waitOp g all ld st cp tl
      = .next (s.withSelf { s.self with st := .waiting, wait := some (.counts all ld.toNat st.toNat cp.toNat tl.toNat) }) := by
  rw [State.waitOp, State.issue_go rfl hg, if_neg h]
  rfl

/-- A WAIT whose condition is P retires where P holds and no fault is kept, and waits where P does not hold. -/
theorem State.waitOp_retires_or_waits {P : Prop} (hg : s.self.guard g = true)
    (hP : s.self.waitDone all ld.toNat st.toNat cp.toNat tl.toNat = true ↔ P) :
    (P → s.self.cov = [] →
        s.waitOp g all ld st cp tl = .next (s.withSelf { s.self with st := .ready, wait := none, wake := s.time + 1, ipc := s.self.ipc + 4 }))
      ∧ (¬P → s.waitOp g all ld st cp tl
        = .next (s.withSelf { s.self with st := .waiting, wait := some (.counts all ld.toNat st.toNat cp.toNat tl.toNat) })) := by
  refine ⟨fun h hc => ?_, fun h => State.waitOp_waits hg fun hd => h (hP.mp hd)⟩
  rw [State.waitOp_done hg (hP.mpr h), State.waitRetire_of_cov_nil hc]

end WaitWords

/-- A WAIT.ALL down to no chain covers every kept error of a chain. -/
theorem Ctx.covers_all_zero (x : Ctx) (ld st cp : Nat) {f : CovFault} (h : f.copy = false) : x.covers true ld st cp 0 f = true := by
  simp [Ctx.covers, h]

/-- Settles O12. WAIT and WAIT.ALL differ in their condition alone. -/
theorem waitsEndWhenTheirCountersAllow : Obligations.WaitsEndWhenTheirCountersAllow := by
  unfold Obligations.WaitsEndWhenTheirCountersAllow
  refine ⟨⟨?_, ?_⟩, ?_, ?_⟩
  · intro s g ld st cp tl hg e he
    simp only [List.mem_cons, List.not_mem_nil, or_false] at he
    obtain rfl | rfl := he
    · exact State.waitOp_retires_or_waits hg (s.self.waitDone_all ..)
    · exact State.waitOp_retires_or_waits hg (s.self.waitDone_any ..)
  · intro s g hg
    exact State.simple_go (hold := fun _ => false) rfl hg
  · intro s g ld st cp f rest hg hld hst hcp htl hcov hf
    have hdone : s.self.waitDone true ld.toNat st.toNat cp.toNat (0#5).toNat = true := (s.self.waitDone_all ..).mpr ⟨hld, hst, hcp, htl.le⟩
    have hfind : s.self.cov.find? (fun f => s.self.covers true ld.toNat st.toNat cp.toNat (0#5).toNat f) = some f := by
      rw [hcov]
      exact List.find?_cons_of_pos (Ctx.covers_all_zero s.self ld.toNat st.toNat cp.toNat hf)
    change s.waitOp g true ld st cp 0#5 = _
    rw [State.waitOp_done hg hdone, State.waitRetire]
    simp only [hfind, State.updCtx]
    rw [show (s.ctx s.cur).cov.erase f = rest by rw [hcov, List.erase_cons_head]]
  · intro s c all ld st cp tl hs hr hg hw
    have hx : exec (.waitSatisfied c) s
        = if (s.ctx c).waitDone all ld st cp tl then .next (s.waitRetire c all ld st cp tl) else .next s := by
      rw [exec_waitSatisfied, execWaitSatisfied]
      simp [hs, hr, hg, hw]
    rw [hx]
    exact ⟨fun hd hc => by rw [if_pos hd, State.waitRetire_of_cov_nil hc], fun hd => by simp [hd]⟩

/-! ### Traps (R30, R246) -/

/-- A context that may take a trap: READY or WAITING, and not gated. -/
theorem Ctx.takesTraps {x : Ctx} {t : Nat} (hs : x.st = .ready ∨ x.st = .waiting) (hg : x.gated = false) :
    ¬((x.gated && x.gateAt != t) || (x.st != .ready && x.st != .waiting)) = true := by
  rcases hs with h | h <;> simp [h, hg]

/-- Settles O14. TRAP_ENTRY enters the handler, waits for older accesses, or stops the context. -/
theorem trapsEnterTheHandlerOrStop : Obligations.TrapsEnterTheHandlerOrStop := by
  unfold Obligations.TrapsEnterTheHandlerOrStop
  refine ⟨?_, ?_, ?_⟩
  · intro s c t rest hr hs hg ha hl hst hw
    have hwd : s.withdraw c = s := by
      unfold State.withdraw
      split
      · rename_i d va pa r hb
        exact absurd hb (hw d va pa r)
      · rfl
    rw [exec_trapEntry, execTrapEntry, State.trapEntry]
    simp only [hr]
    rw [if_neg (Ctx.takesTraps hs hg)]
    simp only [ha, hl, hst, hwd]
    rfl
  · intro s c ha hc
    have hcnt : ((s.ctx c).cntLd == 0 && (s.ctx c).cntSt == 0) = false := by simpa [imp_iff_not_or] using hc
    rw [exec_trapEntry, execTrapEntry, State.trapEntry]
    split
    · rfl
    · simp [ha, hcnt]
  · intro s c t rest hr hs hg ha
    refine ⟨s.stopTrap c t, ?_, s.stopTrap_ctx c t⟩
    rw [exec_trapEntry, execTrapEntry, State.trapEntry]
    simp only [hr]
    rw [if_neg (Ctx.takesTraps hs hg), if_pos ha]

/-! ### TRET, TRAP, END and YIELD (R31, R32, R136, R398, R399) -/

theorem State.ctx_breakLease (s : State) (c d : CtxId) : (s.breakLease c).ctx d = s.ctx d := by
  unfold State.breakLease
  simp only
  repeat' split
  all_goals rfl

theorem State.ctx_refreeze (s : State) (lid : Nat) (d : CtxId) : (s.refreeze lid).ctx d = s.ctx d := by
  unfold State.refreeze
  repeat' split
  all_goals rfl

theorem State.mem_breakLease (s : State) (c : CtxId) : (s.breakLease c).mem = s.mem := by
  unfold State.breakLease
  simp only
  repeat' split
  all_goals rfl

theorem State.mem_refreeze (s : State) (lid : Nat) : (s.refreeze lid).mem = s.mem := by
  unfold State.refreeze
  repeat' split
  all_goals rfl

/-- END_COMPLETE where END has issued, no trap waits and every counter is zero. -/
theorem execEndComplete_idle {s : State} {c : CtxId} (hs : (s.ctx c).st = .ready ∨ (s.ctx c).st = .waiting) (hw : (s.ctx c).wait = some .endProg)
    (hr : (s.ctx c).raised = []) (hl : (s.ctx c).cntLd = 0) (ht : (s.ctx c).cntSt = 0) (hp : (s.ctx c).cntCp = 0) (hq : (s.ctx c).cntTl = 0) :
    execEndComplete c s = match (s.ctx c).cov with
      | f :: rest => .next ((s.setCtx c { s.ctx c with cov := rest }).raise c f.trap)
      | [] => .next (((s.setCtx c { s.ctx c with st := .stopped, wait := none, gated := false, stop := (0, 0) }).breakLease c).refreeze (s.ctx c).lease) := by
  rcases hs with h | h <;> simp [execEndComplete, h, hw, hr, hl, ht, hp, hq] <;> rfl

/-- Settles O15. -/
theorem trapReturnEndAndYield : Obligations.TrapReturnEndAndYield := by
  unfold Obligations.TrapReturnEndAndYield
  refine ⟨⟨?_, ?_, ?_, ?_⟩, ?_, ?_, ?_⟩
  · intro s g hg ha x hx
    have hret : exec (.tret g) s = .next (match s.self.cur.bad with
        | u :: _ => if s.self.cur.st == .running && !s.self.fab.stopped && s.self.fab.held then (s.withSelf x).fabFault s.cur (confTrap u) else s.withSelf x
        | [] => s.withSelf x) := by
      rw [exec_tret, execTret, State.issue_go rfl hg, if_pos ha, hx] <;> rfl
    rw [hret]
    refine ⟨fun h => ?_, fun u rest hb hr hs hh => by simp [hb, hr, hs, hh]⟩
    split
    · rename_i u rest hb
      rcases h with h | h | h | h
      · simp [h] at hb
      all_goals simp [h]
    · rfl
  · intro s g hg ha
    rw [exec_tret, execTret, State.issue_go rfl hg]
    change Host.Outcome.next (if s.self.active = true then _ else _) = _
    simp [ha]
    rfl
  · intro s g code hg
    rw [exec_trap, execTrap, State.issue_go rfl hg, wordTrap, BitVec.ofNat_toNat, BitVec.setWidth_eq]
  · intro s g code hg hs hgt hr ha hl ht hw
    refine ⟨_, by rw [exec_trap, execTrap, State.issue_go rfl hg, State.raise_at_once hs hgt hr ha hl ht hw], ?_, ?_⟩
    · have hc : (code.zeroExtend 64 <<< 16) ||| 0x100#64 ||| (0x1A : BitVec 8).zeroExtend 64 = (code.zeroExtend 64 <<< 16) ||| 0x11A#64 := by
        rw [BitVec.or_assoc]
        rfl
      simp only [State.self, State.setCtx_cur, State.ctx_setCtx_self, Ctx.enter, wordTrap, BitVec.ofNat_toNat, BitVec.setWidth_eq]
      rw [hc]
      simp [hw, hr, hs]
    · exact ⟨fun c hc => State.ctx_setCtx_ne s _ hc, rfl, rfl, rfl, rfl⟩
  · intro s g hg
    rw [exec_endProg, execEndProg, State.issue_go rfl hg]
  · intro s c hs hw hr hl ht hp hq
    rw [exec_endComplete, execEndComplete_idle hs hw hr hl ht hp hq]
    refine ⟨fun hc => ?_, fun f rest hc => by simp only [hc]⟩
    simp only [hc]
    refine ⟨_, rfl, ?_, ?_, ?_, fun e he => ?_⟩
    · simp [State.ctx_refreeze, State.ctx_breakLease]
    · simp [State.mem_refreeze, State.mem_breakLease]
    · exact ((State.keeps_breakLease _ c).trans (State.keeps_refreeze _ _)).2.1
    · simp [State.ctx_refreeze, State.ctx_breakLease, State.ctx_setCtx_ne _ _ he]
  · intro s g hg
    rw [exec_yield, execYield, State.simple_go rfl hg]
    rfl

end Sys2Proof.Machine

/-! The step, cycles and rounds (R18 to R20, R366, R384, R399). -/

namespace Sys2Proof.Machine

/-! ### A raised trap changes its context (R30) -/

/-- A context that may issue is READY, waits for nothing, is not gated and has no trap waiting. -/
theorem State.idle_of_canIssue {s : State} {c : CtxId} (h : s.canIssue c = true) :
    (s.ctx c).st = .ready ∧ (s.ctx c).wait = none ∧ (s.ctx c).gated = false ∧ (s.ctx c).raised = [] := by
  simp only [State.canIssue, Bool.and_eq_true, beq_iff_eq, Option.isNone_iff_eq_none, Bool.not_eq_true', List.isEmpty_iff] at h
  exact ⟨h.1.1.1.1.1.1, h.1.1.1.1.1.2, h.1.1.1.2, h.1.1.2⟩

theorem Ctx.enter_trapc (x : Ctx) (t : Trap) : (x.enter t).trapc = (t.detail.zeroExtend 64 <<< 16) ||| 0x100#64 ||| t.cls.zeroExtend 64 := rfl

theorem Ctx.active_enter (x : Ctx) (t : Trap) : (x.enter t).active = true := by
  simp [Ctx.active, Ctx.enter_trapc]

/-- A trap raised in a context that may issue is taken, stops the context, or waits: it is seen in the context each time. -/
theorem State.ctx_raise_ne {s : State} {c : CtxId} (h : s.canIssue c = true) (t : Trap) : (s.raise c t).ctx c ≠ s.ctx c := by
  obtain ⟨hs, hw, hg, hr⟩ := State.idle_of_canIssue h
  have hraise : s.raise c t = (s.updCtx c (fun x => { x with raised := x.raised ++ [t] })).trapEntry c := by simp [State.raise, hs]
  have hc : (s.updCtx c (fun x => { x with raised := x.raised ++ [t] })).ctx c = { s.ctx c with raised := [t] } := by simp [State.updCtx, hr]
  generalize s.updCtx c (fun x => { x with raised := x.raised ++ [t] }) = u at hraise hc
  rw [hraise, State.trapEntry]
  simp only [hc, hs, hg]
  intro he
  split at he
  · rename_i hn
    simp at hn
  · split at he
    · rw [State.stopTrap_ctx, hc] at he
      exact absurd (congrArg Ctx.st he) (by simp [hs])
    · split at he
      · rename_i ha hl
        have hact : (s.ctx c).active = true := by
          rw [← he, State.updCtx, State.ctx_setCtx_self]
          exact Ctx.active_enter _ t
        exact ha hact
      · rw [hc] at he
        exact absurd (congrArg Ctx.raised he) (by simp [hr])

/-! ### What a context offers in a cycle (R19) -/

/-- A context that is passed over offers nothing, or a held word that leaves the state as it is. -/
theorem State.tryIssue_passed {s : State} {c : CtxId} (h : s.Passed c) : s.tryIssue c = .no ∨ s.tryIssue c = .held s := by
  by_cases hc : (!s.canIssue c || (s.ctx c).credit == 0 || (s.ctx c).skip) = true
  · exact .inl (by rw [State.tryIssue, if_pos hc])
  · obtain ⟨i, hi, hf, hx⟩ : ∃ i, (s.ctx c).fetch = .ok i ∧ Instr.isFlow (s.ctx c) i = false
        ∧ exec i { s with cur := c } = .next { s with cur := c } := by
      rcases h with h | h | h | h
      · simp [h] at hc
      · simp [h] at hc
      · simp [h] at hc
      · exact h
    have hcan : s.canIssue c = true := by
      by_contra hn
      simp [hn] at hc
    have hrun : s.runCtx c = .next { s with cur := c } := by
      have hcan' : ({ s with cur := c } : State).canIssue c = true := hcan
      have hi' : (({ s with cur := c } : State).ctx c).fetch = .ok i := hi
      simp only [State.runCtx, hcan', hi', hx]
      rfl
    have hctx : ({ s with cur := c } : State).ctx c = s.ctx c := rfl
    refine .inr ?_
    rw [State.tryIssue, if_neg hc]
    simp [hi, hf, hrun, hctx]

/-- A word that changes its context, or that goes on without a change, issues. -/
theorem State.tryIssue_done {s t : State} {c : CtxId} (hc : s.canIssue c = true) (h0 : (s.ctx c).credit ≠ 0) (hk : (s.ctx c).skip = false)
    (hr : s.runCtx c = .next t) (ht : t.ctx c ≠ s.ctx c ∨ ∃ i, (s.ctx c).fetch = .ok i ∧ Instr.isFlow (s.ctx c) i = true) :
    s.tryIssue c = .done (.next t) := by
  have hg : ¬(!s.canIssue c || (s.ctx c).credit == 0 || (s.ctx c).skip) = true := by simp [hc, h0, hk]
  rw [State.tryIssue, if_neg hg]
  rcases ht with ht | ⟨i, hi, hf⟩
  · simp [hr, ht]
  · simp [hr, hi, hf]

/-! ### A cycle of a core (R19) -/

/-- Banks that are passed over leave the cycle to those behind them. -/
theorem State.issueFrom_passed {s : State} {k : CoreId} (l r : List Nat) (h : ∀ b ∈ l, s.Passed (4 * k + b)) :
    s.issueFrom k (l ++ r) = s.issueFrom k r := by
  induction l with
  | nil => rfl
  | cons b l ih =>
    rw [List.cons_append, State.issueFrom]
    have ih := ih fun d hd => h d (List.mem_cons_of_mem b hd)
    rcases State.tryIssue_passed (h b List.mem_cons_self) with e | e <;> rw [e] <;> exact ih

/-- The bank whose word issues ends the cycle. -/
theorem State.issueFrom_done {s t : State} {k : CoreId} {b : Nat} (hb : b < 4) (r : List Nat) (h : s.tryIssue (4 * k + b) = .done (.next t)) :
    s.issueFrom k (b :: r) = .next (s.issuedBy t k (4 * k + b)) := by
  have hm : (4 * k + b) % 4 = b := by rw [Nat.mul_add_mod, Nat.mod_eq_of_lt hb]
  rw [State.issueFrom]
  simp only [h, State.issuedBy, hm]

/-- The order in which a core looks at its banks. -/
def Core.order (u : Core) : List Nat := [1, 2, 3, 4].map (fun i => (u.lastBank + i) % 4)

theorem State.issueCore_eq {s : State} {k : CoreId} (h : (s.core k).issued ≠ some s.time) :
    s.issueCore k = s.issueFrom k (s.core k).order := by
  rw [State.issueCore, if_neg (by simpa using h)]
  rfl

theorem State.issueCore_of_issued {s : State} {k : CoreId} (h : (s.core k).issued = some s.time) : s.issueCore k = .next s := by
  rw [State.issueCore, if_pos (by simpa using h)]

/-- The banks before the n-th after the last one, and that bank with those behind it. -/
theorem Core.order_split (u : Core) {n : Nat} (h1 : 1 ≤ n) (h4 : n ≤ 4) :
    ∃ l r, u.order = l ++ (u.lastBank + n) % 4 :: r ∧ ∀ b ∈ l, ∃ m, 1 ≤ m ∧ m < n ∧ b = (u.lastBank + m) % 4 := by
  obtain rfl | rfl | rfl | rfl : n = 1 ∨ n = 2 ∨ n = 3 ∨ n = 4 := by omega
  · exact ⟨[], _, rfl, by simp⟩
  · exact ⟨[(u.lastBank + 1) % 4], _, rfl, by simpa using ⟨1, by omega⟩⟩
  · refine ⟨[(u.lastBank + 1) % 4, (u.lastBank + 2) % 4], _, rfl, ?_⟩
    simp only [List.forall_mem_cons, List.not_mem_nil, false_imp_iff, implies_true, and_true]
    exact ⟨⟨1, by omega⟩, ⟨2, by omega⟩⟩
  · refine ⟨[(u.lastBank + 1) % 4, (u.lastBank + 2) % 4, (u.lastBank + 3) % 4], _, rfl, ?_⟩
    simp only [List.forall_mem_cons, List.not_mem_nil, false_imp_iff, implies_true, and_true]
    exact ⟨⟨1, by omega⟩, ⟨2, by omega⟩, ⟨3, by omega⟩⟩

/-- The cycle of a core in which context c has its turn: what running c leads to, if it is a step of c, is the cycle. -/
theorem State.issueCore_turn {s t : State} {k n c : Nat} (h : s.Turn k n c) (hr : s.runCtx c = .next t)
    (ht : t.ctx c ≠ s.ctx c ∨ ∃ i, (s.ctx c).fetch = .ok i ∧ Instr.isFlow (s.ctx c) i = true) : s.issueCore k = .next (s.issuedBy t k c) := by
  obtain ⟨h1, h4, hc, hi, hcan, hcr, hsk, hp⟩ := h
  obtain ⟨l, r, hl, hm⟩ := (s.core k).order_split h1 h4
  have hpass : ∀ b ∈ l, s.Passed (4 * k + b) := fun b hb => by
    obtain ⟨m, hm1, hmn, rfl⟩ := hm b hb
    exact hp m hm1 hmn
  rw [State.issueCore_eq hi, hl, State.issueFrom_passed _ _ hpass, hc]
  rw [hc] at hcan hcr hsk hr ht
  exact State.issueFrom_done (Nat.mod_lt _ (by omega)) r (State.tryIssue_done hcan hcr hsk hr ht)

/-- The word of a context that may issue is executed. -/
theorem State.runCtx_ok {s : State} {c : CtxId} {i : Instr} (h : s.canIssue c = true) (hf : (s.ctx c).fetch = .ok i) :
    s.runCtx c = exec i { s with cur := c } := by
  have h' : ({ s with cur := c } : State).canIssue c = true := h
  have hf' : (({ s with cur := c } : State).ctx c).fetch = .ok i := hf
  simp only [State.runCtx, h', hf']
  rfl

theorem State.runCtx_error {s : State} {c : CtxId} {t : Trap} (h : s.canIssue c = true) (hf : (s.ctx c).fetch = .error t) :
    s.runCtx c = .next (({ s with cur := c } : State).raise c t) := by
  have h' : ({ s with cur := c } : State).canIssue c = true := h
  have hf' : (({ s with cur := c } : State).ctx c).fetch = .error t := hf
  simp only [State.runCtx, h', hf']
  rfl

/-- A fetch that fails in the context whose turn it is takes its trap in that cycle. -/
theorem State.issueCore_fetchError {s : State} {k n c : Nat} {t : Trap} (h : s.Turn k n c) (hf : (s.ctx c).fetch = .error t) :
    s.issueCore k = .next (s.issuedBy (({ s with cur := c } : State).raise c t) k c) :=
  have hcan : s.canIssue c = true := h.2.2.2.2.1
  State.issueCore_turn h (State.runCtx_error hcan hf) (.inl (State.ctx_raise_ne (s := { s with cur := c }) hcan t))

/-! ### The fetch of a word (R20, R24, R59) -/

theorem Ctx.fetch_inside {x : Ctx} (h : x.ipc.toNat < x.ilen) (hp : x.ipoison.contains (x.ipc.toNat / 8 * 8) = false) :
    x.fetch = match decodeWord (x.wordAt x.ipc.toNat) with
      | .ok i => .ok i
      | .error _ => .error ⟨0x01, (x.wordAt x.ipc.toNat).zeroExtend 64, 0⟩ := by
  have hn : ¬x.ipc.toNat ≥ x.ilen := by omega
  simp only [Ctx.fetch, hn, if_false, hp]
  rfl

theorem Ctx.fetch_outside {x : Ctx} (h : x.ilen ≤ x.ipc.toNat) : x.fetch = .error ⟨0x06, x.ipc.zeroExtend 64, 0⟩ := by
  simp only [Ctx.fetch, ge_iff_le, h, if_true]

theorem Ctx.fetch_poison {x : Ctx} (h : x.ipc.toNat < x.ilen) (hp : x.ipoison.contains (x.ipc.toNat / 8 * 8) = true) :
    x.fetch = .error ⟨0x05, x.ipc.zeroExtend 64, 0x80⟩ := by
  have hn : ¬x.ipc.toNat ≥ x.ilen := by omega
  simp only [Ctx.fetch, hn, if_false, hp, if_true]

/-- Settles O52. The banks before the context whose turn it is are passed over, and its word is what the cycle runs. -/
theorem stepRunsTheDecodedWord : Obligations.StepRunsTheDecodedWord := by
  unfold Obligations.StepRunsTheDecodedWord
  refine ⟨?_, ?_⟩
  · intro s s1 dt k n c rest ha hs1 hturn
    have hctx : s1.ctx c = s.ctx c := by rw [hs1]; rfl
    have hstep : ∀ t, s1.issueCore k = .next t → step s = .next (s1.tally (.issue k) t) := fun t ht => by
      rw [step_agenda ha, ← hs1]
      simp only [State.perform, State.take, ht]
    have herror : ∀ t, (s.ctx c).fetch = .error t →
        step s = .next (s1.tally (.issue k) (s1.issuedBy (({ s1 with cur := c } : State).raise c t) k c)) := fun t ht =>
      hstep _ (State.issueCore_fetchError hturn (hctx ▸ ht))
    refine ⟨fun hin hp => ⟨fun i t hd hx hne => ?_, fun e hd => ?_⟩, fun hout => herror _ (Ctx.fetch_outside hout),
      fun hin hp => herror _ (Ctx.fetch_poison hin hp)⟩
    · have hf : (s1.ctx c).fetch = .ok i := by rw [hctx, Ctx.fetch_inside hin hp, hd]
      refine hstep _ (State.issueCore_turn hturn ((State.runCtx_ok hturn.2.2.2.2.1 hf).trans hx) ?_)
      rw [hctx]
      exact hne.imp_right fun hflow => ⟨i, hctx ▸ hf, hflow⟩
    · exact herror _ (by rw [Ctx.fetch_inside hin hp, hd])
  · intro s s1 t dt i rest ha hs1 hw he hx
    have htake : s1.take (.act i) = .next t := by simp [State.take, hw, Instr.isWord, he, hx]
    rw [step_agenda ha, ← hs1]
    simp only [State.perform, htake]

/-! ### Rounds (R18, R19, R366, R399) -/

theorem State.canIssue_closed {s : State} {c : CtxId} (h : (s.ctx c).st ≠ .ready ∨ (s.ctx c).wait ≠ none ∨ (s.ctx c).wake > s.time
    ∨ (s.ctx c).gated = true ∨ (s.ctx c).raised ≠ [] ∨ (∃ o ∈ (s.ctx c).ops, s.retired o = false) ∨ s.isOpen (s.ctx c).ten.toNat = false) :
    s.canIssue c = false := by
  by_contra hn
  rw [Bool.not_eq_false] at hn
  obtain ⟨hs, hw, hg, hr⟩ := State.idle_of_canIssue hn
  simp only [State.canIssue, Bool.and_eq_true, decide_eq_true_eq, List.all_eq_true] at hn
  obtain ⟨⟨⟨⟨⟨⟨-, -⟩, hk⟩, -⟩, -⟩, ho⟩, hopen⟩ := hn
  rcases h with h | h | h | h | h | ⟨o, hmem, hret⟩ | h
  · exact h hs
  · exact h hw
  · omega
  · simp [hg] at h
  · exact h hr
  · simp [ho o hmem] at hret
  · simp [hopen] at h

/-- A new round for one context: the credit of its tenant's weight, unless it is EMPTY or has it already (R19, R366). -/
def State.refill (k : CoreId) (s : State) (c : CtxId) : State :=
  let w := bits (s.mgv (0x0800 + (s.ctx c).ten.toNat)) 3 0
  if (s.ctx c).st == .empty || ((s.ctx c).credit == w && (s.ctx c).weight == w && !(s.ctx c).skip) then s
  else (s.updCtx c (fun x => { x with weight := w, credit := w, skip := false })).updCore k (fun k => { k with issued := some s.time })

/-- The context banks of a core. -/
def banksOf (k : CoreId) : List CtxId := (List.range 4).map (fun b => 4 * k + b)

/-- Does a context keep the round going? -/
def Ctx.inRound (x : Ctx) : Bool := x.st == .ready && !x.gated && x.credit ≥ 1 && !x.skip

theorem State.endRound_eq (s : State) (k : CoreId) :
    s.endRound k = if (banksOf k).any (fun c => (s.ctx c).inRound) then s else (banksOf k).foldl (State.refill k) s := rfl

/-- The context after a new round, with the weight of its tenant. -/
def Ctx.refilled (x : Ctx) (w : Nat) : Ctx := { x with weight := w, credit := w, skip := false }

theorem Ctx.refilled_eq_self {x : Ctx} {w : Nat} (hc : x.credit = w) (hw : x.weight = w) (hk : x.skip = false) : x.refilled w = x := by
  cases x
  cases hc
  cases hw
  cases hk
  rfl

/-- A round leaves time and the management registers, and every context but its own, as they were. -/
theorem State.refill_frame (k : CoreId) (s : State) (c : CtxId) :
    (s.refill k c).time = s.time ∧ (s.refill k c).mg = s.mg ∧ (∀ d, d ≠ c → (s.refill k c).ctx d = s.ctx d)
      ∧ ((s.core k).issued = some s.time → ((s.refill k c).core k).issued = some s.time) := by
  unfold State.refill
  simp only
  split
  · exact ⟨rfl, rfl, fun _ _ => rfl, id⟩
  · exact ⟨rfl, rfl, fun d hd => State.ctx_setCtx_ne s _ hd, fun _ => by simp⟩

theorem State.refill_self {k : CoreId} {s : State} {c : CtxId} (h : (s.ctx c).st ≠ .empty) {w : Nat}
    (hw : w = bits (s.mgv (0x0800 + (s.ctx c).ten.toNat)) 3 0) :
    (s.refill k c).ctx c = (s.ctx c).refilled w ∧ ((s.ctx c).credit ≠ w → ((s.refill k c).core k).issued = some s.time) := by
  unfold State.refill
  rw [← hw]
  simp only
  split
  · rename_i hif
    have hsame : (s.ctx c).credit = w ∧ (s.ctx c).weight = w ∧ (s.ctx c).skip = false := by simpa [h, and_assoc] using hif
    obtain ⟨hc, hwt, hk⟩ := hsame
    exact ⟨(Ctx.refilled_eq_self hc hwt hk).symm, fun hne => absurd hc hne⟩
  · exact ⟨by simp [State.updCtx, Ctx.refilled], fun _ => by simp⟩

/-- A new round of several banks gives each of them its credit. -/
theorem State.foldl_refill {k : CoreId} {c : CtxId} {w : Nat} (l : List CtxId) (hl : l.Nodup) (s : State)
    (h : (s.ctx c).st ≠ .empty) (hw : w = bits (s.mgv (0x0800 + (s.ctx c).ten.toNat)) 3 0) :
    (c ∉ l → (l.foldl (State.refill k) s).ctx c = s.ctx c ∧ ((s.core k).issued = some s.time → ((l.foldl (State.refill k) s).core k).issued = some s.time))
    ∧ (c ∈ l → (l.foldl (State.refill k) s).ctx c = (s.ctx c).refilled w
        ∧ ((s.ctx c).credit ≠ w → ((l.foldl (State.refill k) s).core k).issued = some s.time)) := by
  induction l generalizing s with
  | nil => exact ⟨fun _ => ⟨rfl, id⟩, fun hc => absurd hc (List.not_mem_nil)⟩
  | cons d l ih =>
    obtain ⟨hd, htl⟩ := List.nodup_cons.mp hl
    obtain ⟨htime, hmg, hother, hiss⟩ := State.refill_frame k s d
    simp only [List.foldl_cons]
    have hmgv : ∀ n, (s.refill k d).mgv n = s.mgv n := fun n => by simp only [State.mgv, hmg]
    by_cases hcd : c = d
    · subst hcd
      obtain ⟨hself, hcore⟩ := State.refill_self (k := k) h hw
      refine ⟨fun hn => absurd List.mem_cons_self hn, fun _ => ?_⟩
      have := (ih htl (s.refill k c) (by rw [hself]; exact h) (by rw [hself, hmgv]; exact hw)).1 hd
      rw [htime, hself] at this
      exact ⟨this.1, fun hne => this.2 (hcore hne)⟩
    · have hc : (s.refill k d).ctx c = s.ctx c := hother c hcd
      have := ih htl (s.refill k d) (by rw [hc]; exact h) (by rw [hc, hmgv]; exact hw)
      rw [hc, htime] at this
      refine ⟨fun hn => ?_, fun hm => this.2 ((List.mem_cons.mp hm).resolve_left hcd)⟩
      obtain ⟨hn1, hn2⟩ := this.1 fun hm => hn (List.mem_cons_of_mem d hm)
      exact ⟨hn1, fun hi => hn2 (hiss hi)⟩

theorem nodup_banksOf (k : CoreId) : (banksOf k).Nodup := by
  simp [banksOf, List.range_succ]

theorem mem_banksOf {k : CoreId} {b : Nat} (h : b < 4) : 4 * k + b ∈ banksOf k := List.mem_map.mpr ⟨b, List.mem_range.mpr h, rfl⟩

/-- A round that some READY context has credit for goes on. -/
theorem State.endRound_goes_on {s : State} {k : CoreId} (h : ∃ b, b < 4 ∧ (s.ctx (4 * k + b)).inRound = true) : s.endRound k = s := by
  obtain ⟨b, hb, hr⟩ := h
  rw [State.endRound_eq, if_pos (List.any_eq_true.mpr ⟨_, mem_banksOf hb, hr⟩)]

/-- A round that no READY context has credit for gives way to a new one. -/
theorem State.endRound_new {s : State} {k : CoreId} (h : ∀ b, b < 4 → (s.ctx (4 * k + b)).inRound = false) :
    s.endRound k = (banksOf k).foldl (State.refill k) s := by
  have hn : ¬(banksOf k).any (fun c => (s.ctx c).inRound) = true := by
    simpa [banksOf] using h
  rw [State.endRound_eq, if_neg hn]

/-- A cycle in which no context has its turn only ends. -/
theorem State.issueCore_passed {s : State} {k : CoreId} (h : ∀ b, b < 4 → s.Passed (4 * k + b)) (hi : (s.core k).issued ≠ some s.time) :
    s.issueCore k = .next (s.endRound k) := by
  have hp : ∀ b ∈ (s.core k).order, s.Passed (4 * k + b) := fun b hb => by
    obtain ⟨m, -, rfl⟩ := List.mem_map.mp hb
    exact h _ (Nat.mod_lt _ (by omega))
  have := State.issueFrom_passed (s := s) (k := k) (s.core k).order [] hp
  rw [List.append_nil] at this
  rw [State.issueCore_eq hi, this, State.issueFrom]

end Sys2Proof.Machine

/-! What an event may change (R280, R409, R433): device memory and what stands for it in the L2 and in the cache layer, waits at barrier lines, the rings'
own registers. -/

namespace Sys2Proof.Machine

/-! ### The L2 and the cache layer -/

/-- The state s with the L2 lines and the cached blocks of t. -/
def State.cached (s t : State) : State := { s with dies := t.dies, hbm := t.hbm }

/-- Between s and t nothing but what accesses do to the L2 and to the cache layer. -/
def State.Caches (s t : State) : Prop := t = s.cached t

namespace State.Caches
variable {s t u : State}

theorem refl (s : State) : s.Caches s := rfl

theorem trans (h : s.Caches t) (k : t.Caches u) : s.Caches u := by
  rw [State.Caches, k, h]
  rfl

theorem ite {p : Prop} [Decidable p] (h : s.Caches t) (k : s.Caches u) : s.Caches (if p then t else u) := by
  split <;> assumption

theorem foldl {α : Type} {f : State → α → State} (hf : ∀ (s : State) (a : α), s.Caches (f s a)) (l : List α) (s : State) :
    s.Caches (l.foldl f s) := by
  induction l generalizing s with
  | nil => exact refl s
  | cons a l ih => exact (hf s a).trans (ih _)

theorem updDie (s : State) (d : Nat) (f : Die → Die) : s.Caches (s.updDie d f) := rfl

theorem updHomeLine (s : State) (pa : Nat) (f : L2Line → L2Line) : s.Caches (s.updHomeLine pa f) := rfl

theorem dropCopies (s : State) (line : Nat) : s.Caches (s.dropCopies line) :=
  (foldl (fun s d => updDie s d _) _ s).trans (updHomeLine ..)

theorem layerUse (s : State) (pa die h : Nat) (wr : Bool) : s.Caches (s.layerUse pa die h wr) := by
  unfold State.layerUse
  simp only
  repeat' split
  all_goals exact rfl

theorem l2Evict (s : State) (die : Nat) (l : L2Line) : s.Caches (s.l2Evict die l) := by
  have h := (ite (p := l.remote = true) (updHomeLine s l.pa (fun h => { h with sharers := h.sharers.filter (· != die) }))
    (ite (p := l.sharers.isEmpty = true) (refl s) (dropCopies s l.pa))).trans
    (updDie _ die (fun d => { d with l2 := d.l2.filter (fun k => !(k.pa == l.pa && k.remote == l.remote)) }))
  exact ite (h.trans (layerUse ..)) h

theorem demoteL2 (s : State) (die h : Nat) : s.Caches (s.demoteL2 die h) :=
  foldl (fun s _ => ite ((ite (layerUse s ..) (refl s)).trans (updDie ..)) (l2Evict ..)) _ s

theorem l2Insert (s : State) (die : Nat) (ways : List Nat) (l : L2Line) : s.Caches (s.l2Insert die ways l) := by
  unfold State.l2Insert
  simp only
  split
  · exact updDie ..
  · split
    · exact (l2Evict ..).trans (updDie ..)
    · split
      · exact (demoteL2 ..).trans (updDie ..)
      · exact refl s

theorem l2Put (s : State) (die asid va pa : Nat) : s.Caches (s.l2Put die asid va pa) := by
  unfold State.l2Put
  exact ite ((l2Insert ..).trans (updHomeLine ..)) (l2Insert ..)

theorem l2Home (s : State) (asid va pa : Nat) : s.Caches (s.l2Home asid va pa) := by
  refine ite ?_ ((layerUse ..).trans (l2Put ..))
  unfold State.touch
  split
  · exact updDie ..
  · exact refl s

theorem l2Use (s : State) (die : Option Nat) (asid va pa : Nat) (wr : Bool) : s.Caches (s.l2Use die asid va pa wr) := by
  unfold State.l2Use
  split
  · exact l2Home ..
  · refine ite (l2Home ..) ?_
    split
    · exact updDie ..
    · exact (l2Home ..).trans (l2Put ..)

theorem l2Span (s : State) (die : Option Nat) (asid va pa n : Nat) (wr : Bool) : s.Caches (s.l2Span die asid va pa n wr) :=
  foldl (fun s _ => l2Use s ..) _ s

theorem mem (h : s.Caches t) : t.mem = s.mem := (congrArg State.mem h).trans rfl

theorem devByte (h : s.Caches t) (pa : Nat) : t.devByte pa = s.devByte pa := (congrArg (State.devByte · pa) h).trans rfl

end State.Caches

/-! ### Records -/

/-- The state s with the parts of t that a write to device memory, a record in a ring or the taking of a free value may change. -/
def State.recorded (s t : State) : State :=
  { s with
    free := t.free, ctxs := t.ctxs, dies := t.dies, mem := t.mem, unspec := t.unspec, hbmPoison := t.hbmPoison, hdrs := t.hdrs, hbm := t.hbm
    barWaiters := t.barWaiters, mg := t.mg, recs := t.recs, msix := t.msix, vfHead := t.vfHead, lost := t.lost, spilled := t.spilled }

/-- Between s and t nothing but such writes: a context changes at most in what it waits for, and of the management registers only those below the cores'
own (0x4000) may differ. -/
structure State.Records (s t : State) : Prop where
  eq : t = s.recorded t
  ctx : ∀ c, ∃ w, t.ctx c = { s.ctx c with wait := w }
  mgv : ∀ n, 0x4000 ≤ n → t.mgv n = s.mgv n

namespace State.Records
variable {s t u : State}

theorem refl (s : State) : s.Records s := ⟨rfl, fun _ => ⟨_, rfl⟩, fun _ _ => rfl⟩

theorem trans (h : s.Records t) (k : t.Records u) : s.Records u :=
  ⟨by rw [k.eq, h.eq]; rfl, fun c => by
    obtain ⟨w, hw⟩ := h.ctx c
    obtain ⟨v, hv⟩ := k.ctx c
    exact ⟨v, by rw [hv, hw]⟩, fun n hn => (k.mgv n hn).trans (h.mgv n hn)⟩

/-- The registers and contexts are as they were. -/
theorem of_eq (h : t = s.recorded t) (hm : t.mg = s.mg) (hc : t.ctxs = s.ctxs) : s.Records t :=
  ⟨h, fun c => ⟨_, show t.ctx c = s.ctx c by rw [State.ctx, hc, State.ctx]⟩, fun n _ => by rw [State.mgv, hm, State.mgv]⟩

theorem ite {p : Prop} [Decidable p] (h : s.Records t) (k : s.Records u) : s.Records (if p then t else u) := by
  split <;> assumption

theorem foldl {α : Type} {f : State → α → State} (hf : ∀ (s : State) (a : α), s.Records (f s a)) (l : List α) (s : State) :
    s.Records (l.foldl f s) := by
  induction l generalizing s with
  | nil => exact refl s
  | cons a l ih => exact (hf s a).trans (ih _)

theorem setMg (s : State) {n : Nat} (v : W64) (hn : n < 0x4000) : s.Records (s.setMg n v) :=
  ⟨rfl, fun _ => ⟨_, rfl⟩, fun k hk => by rw [State.mgv_setMg, if_neg (by omega)]⟩

theorem of_caches (h : s.Caches t) : s.Records t := by
  rw [h]
  exact of_eq rfl rfl rfl

theorem setWait (s : State) (c : CtxId) (w : Option Wait) : s.Records (s.setCtx c { s.ctx c with wait := w }) := by
  refine ⟨rfl, fun d => ?_, fun _ _ => rfl⟩
  by_cases hd : d = c
  · exact ⟨w, by rw [hd, State.ctx_setCtx_self]⟩
  · exact ⟨_, State.ctx_setCtx_ne _ _ hd⟩

theorem freeAddr (s : State) : s.Records s.freeAddr.2 := of_eq rfl rfl rfl

/-! ### Writes to device memory -/

theorem releaseBar (s : State) (line : Nat) (ok : Bool) : s.Records (s.releaseBar line ok) :=
  (foldl (fun s (w : Nat × CtxId) => setWait s w.2 _) _ s).trans (of_eq rfl rfl rfl)

theorem homeWrite (s : State) (pa : Nat) (bs : List Byte) (br : Bool) : s.Records (s.homeWrite pa bs br) := by
  have hpoke (s : State) : s.Records (s.poke pa bs) := of_eq rfl rfl rfl
  have hw := ((of_caches (.dropCopies s (lineOf pa))).trans (hpoke _)).trans (of_caches (.updHomeLine _ (lineOf pa) (fun l => { l with dirty := true })))
  exact ite (hw.trans ((of_caches (.updHomeLine ..)).trans (releaseBar ..))) hw

theorem devWrite (s : State) (pa : Nat) (bs : List Byte) : s.Records (s.devWrite pa bs) := by
  have h (s : State) (w : Nat × List Byte) : s.Records (s.homeWrite w.1 w.2 true) := homeWrite ..
  exact foldl h _ s

/-! ### Event rings -/

theorem ringPut (s : State) (ring key h : Nat) (slot : Nat → Nat) (num : Bool) (bs : List Byte) : s.Records (s.ringPut ring key h slot num bs) :=
  (foldl (fun s _ => (of_caches (.l2Span s ..)).trans (devWrite ..)) _ s).trans (of_eq rfl rfl rfl)

theorem pend (s : State) (f v : Nat) : s.Records (s.pend f v) := of_eq rfl rfl rfl

theorem pfEvent (s : State) (typ ten lid cls detail core bank : Nat) (info : W64) : s.Records (s.pfEvent typ ten lid cls detail core bank info) := by
  have hrecs (s : State) (r : Nat × List RingRec) : s.Records { s with recs := r } := of_eq rfl rfl rfl
  have hlost : s.Records (s.setMg 0x0A43 (s.mgv 0x0A43 + 1)) := setMg s _ (by decide)
  unfold State.pfEvent
  refine ite (((ringPut ..).trans (setMg _ _ (by decide))).trans (pend ..)) ?_
  simp only
  split
  · exact (hlost.trans (hrecs ..)).trans (ringPut ..)
  · exact hlost

theorem vfRecord (s : State) (ten vec pa : Nat) (bs : List Byte) : s.Records (s.vfRecord ten vec pa bs) := by
  have hhead (s : State) (m : Map Nat) : s.Records { s with vfHead := m } := of_eq rfl rfl rfl
  unfold State.vfRecord
  exact (((of_caches (.l2Span ..)).trans (devWrite ..)).trans (hhead ..)).trans (pend ..)

theorem tlog (s : State) (ten pa : Nat) : s.Records (s.tlog ten pa) := by
  have hpa : stackOf pa < 16 := Nat.mod_lt _ (by decide)
  exact setMg s _ (by omega)

theorem vfRefused (r : Option Trap) (h : s.Records t) : s.Records (vfState (.error (t, r))) := h

theorem vfEvent (s : State) (typ ten lid cls detail core bank vec : Nat) (info : W64) : s.Records (s.vfEvent typ ten lid cls detail core bank vec info) := by
  unfold State.vfEvent State.vfPut
  split
  · cases s.xlate numCores 0 (s.apAsid ten) (s.vfSlot ten) ⟨false, true⟩ true with
    | mig => exact refl s
    | fault t => exact refl s
    | ok pa =>
      rw [State.vfAt]
      split
      · exact refl s
      · split
        · exact vfRecord ..
        · exact vfRefused _ ((tlog s ten pa).trans (pfEvent ..))
  · exact refl s

/-- An event is recorded, and changes nothing else. -/
theorem event (s : State) (typ ten lid cls detail core bank : Nat) (info : W64) : s.Records (s.event typ ten lid cls detail core bank info) :=
  ite ((pfEvent ..).trans (vfEvent ..)) (pfEvent ..)

theorem lasting (s : State) (ten : Nat) (k : CoreId) (bank : Nat) (info : W64) : s.Records (s.lasting ten k bank info) := event ..

theorem lastingCtx (s : State) (c : CtxId) (info : W64) : s.Records (s.lastingCtx c info) := event ..

theorem lastingBank (s : State) (k : CoreId) (bank : Nat) (info : W64) : s.Records (s.lastingBank k bank info) := by
  unfold State.lastingBank
  split
  · exact lastingCtx ..
  · exact lasting ..

theorem raised (h : s.Records t) (c : CtxId) : (t.ctx c).raised = (s.ctx c).raised := by
  obtain ⟨w, hw⟩ := h.ctx c
  rw [hw]

theorem dead (h : s.Records t) : t.dead = s.dead := (congrArg State.dead h.eq).trans rfl

theorem leases (h : s.Records t) : t.leases = s.leases := (congrArg State.leases h.eq).trans rfl

theorem cores (h : s.Records t) : t.cores = s.cores := (congrArg State.cores h.eq).trans rfl

theorem ucie (h : s.Records t) : t.ucie = s.ucie := (congrArg State.ucie h.eq).trans rfl

theorem flits (h : s.Records t) : t.flits = s.flits := (congrArg State.flits h.eq).trans rfl

theorem acnMsgs (h : s.Records t) : t.acnMsgs = s.acnMsgs := (congrArg State.acnMsgs h.eq).trans rfl

theorem withdrawn (h : s.Records t) (k : CoreId) : t.withdrawn k = s.withdrawn k := by rw [State.withdrawn, h.mgv _ (by omega), State.withdrawn]

end State.Records

/-! ### Withdrawn cores (R410) -/

/-- Withdrawing a core sets its bit in WDR. -/
theorem State.mgv_withdrawCore (s : State) (k : CoreId) (n : Nat) :
    (s.withdrawCore k).mgv n = if n = 0x7600 + coreY k then s.mgv (0x7600 + coreY k) ||| (1#64 <<< coreX k) else s.mgv n :=
  s.mgv_setMg _ _ n

theorem State.withdrawn_withdrawCore (s : State) (k j : CoreId) :
    (s.withdrawCore k).withdrawn j = (s.withdrawn j || (coreY j == coreY k && coreX j == coreX k)) := by
  have hx (i : CoreId) : coreX i < 20 := Nat.mod_lt _ (by decide)
  have hj := hx j
  have hk := hx k
  simp only [State.withdrawn, State.mgv_withdrawCore, Nat.add_left_cancel_iff]
  by_cases hy : coreY j = coreY k
  · have hbit : (1#64 <<< coreX k).getLsbD (coreX j) = (coreX j == coreX k) := by
      rw [BitVec.getLsbD_shiftLeft, BitVec.getLsbD_one]
      by_cases hjk : coreX j = coreX k
      · simp [hjk, show coreX k < 64 by omega]
      · simp only [show coreX j < 64 by omega, decide_true, Bool.true_and, beq_eq_false_iff_ne.mpr hjk, Bool.and_eq_false_iff,
          Bool.not_eq_false', decide_eq_true_eq, decide_eq_false_iff_not]
        omega
    simp [hy, hbit]
  · simp [hy]

theorem State.withdrawn_withdrawCore_self (s : State) (k : CoreId) : (s.withdrawCore k).withdrawn k = true := by
  simp [State.withdrawn_withdrawCore]

theorem State.withdrawn_withdrawCore_mono {s : State} {j : CoreId} (k : CoreId) (h : s.withdrawn j = true) : (s.withdrawCore k).withdrawn j = true := by
  simp [State.withdrawn_withdrawCore, h]

theorem State.withdrawCore_flits (s : State) (k : CoreId) : (s.withdrawCore k).flits = s.flits := rfl

theorem State.withdrawCore_acnMsgs (s : State) (k : CoreId) : (s.withdrawCore k).acnMsgs = s.acnMsgs := rfl

theorem State.withdrawCore_dead (s : State) (k : CoreId) : (s.withdrawCore k).dead = s.dead := rfl

theorem State.withdrawCore_cores (s : State) (k : CoreId) : (s.withdrawCore k).cores = s.cores := rfl

theorem State.withdrawCore_ucie (s : State) (k : CoreId) : (s.withdrawCore k).ucie = s.ucie := rfl

/-- Withdrawing the cores at both ends of links withdraws the first end of each. -/
theorem State.withdrawn_foldl {α : Type} (a b : α → CoreId) (l : List α) (s : State) (j : CoreId) (h : s.withdrawn j = true ∨ ∃ e ∈ l, a e = j) :
    (l.foldl (fun s e => (s.withdrawCore (a e)).withdrawCore (b e)) s).withdrawn j = true := by
  induction l generalizing s with
  | nil => simpa using h
  | cons e l ih =>
    rw [List.foldl_cons]
    refine ih _ ?_
    rcases h with h | ⟨d, hd, rfl⟩
    · exact .inl (State.withdrawn_withdrawCore_mono _ (State.withdrawn_withdrawCore_mono _ h))
    · rcases List.mem_cons.mp hd with rfl | hd
      · exact .inl (State.withdrawn_withdrawCore_mono _ (State.withdrawn_withdrawCore_self ..))
      · exact .inr ⟨d, hd, rfl⟩

/-! ### Links that fail (R405, R419) -/

/-- Where no flit is on its way, a failing link loses none. -/
theorem State.failFlits_nil {s : State} (h : s.flits = []) (k : CoreId) (side src : Nat) : s.failFlits k side src = s := by
  simp [State.failFlits, State.flitsOver, h]

theorem State.failAcn_nil {s : State} (h : s.acnMsgs = []) : s.failAcn = s := by
  calc s.failAcn = { s with acnMsgs := [] } := by simp [State.failAcn, h]
    _ = s := by rw [← h]

end Sys2Proof.Machine

/-! Hardware errors: what the errors of links, queues, words and seam modules leave (R24, R403 to R407, R415, R419). -/

namespace Sys2Proof.Machine

theorem side_lt_of_besideCore {k j : CoreId} {side : Nat} (h : besideCore k side = some j) : side < 4 := by
  unfold besideCore at h
  by_contra hn
  have h0 : side ≠ 0 ∧ side ≠ 1 ∧ side ≠ 2 ∧ side ≠ 3 := by omega
  simp [h0] at h

theorem oppSide_ne {side : Nat} : oppSide side ≠ side := by
  unfold oppSide
  omega

theorem State.kill_flits (s : State) (k j : CoreId) (side src : Nat) (mesh : Bool) : (s.kill k j side mesh src).flits = s.flits := rfl

theorem State.kill_acnMsgs (s : State) (k j : CoreId) (side src : Nat) (mesh : Bool) : (s.kill k j side mesh src).acnMsgs = s.acnMsgs := rfl

theorem State.kill_mgv (s : State) (k j : CoreId) (side src : Nat) (mesh : Bool) (n : Nat) : (s.kill k j side mesh src).mgv n = s.mgv n := rfl

/-- The first link that fails is dead at both of its ends. -/
theorem State.dead_kill {s : State} (h : s.dead = []) (k j : CoreId) (side src : Nat) (mesh : Bool) :
    (s.kill k j side mesh src).dead = [⟨k, side, mesh, src⟩, ⟨j, oppSide side, mesh, src⟩] := by
  simp [State.kill, h, oppSide_ne.symm]

/-- The registers of the links and banks are none of the withdrawn cores. -/
theorem State.mgv_withdrawCore_below (s : State) (k : CoreId) {n : Nat} (h : n < 0x7600) : (s.withdrawCore k).mgv n = s.mgv n := by
  rw [State.mgv_withdrawCore, if_neg (by omega)]

/-- A flit that fails again marks its link and fails it for ever, at both of its ends, and withdraws both cores. -/
theorem flitCrcRetry_fails {s : State} {core j : CoreId} {side n : Nat} (acn : Bool) (hoff : s.off = false) (hcore : core < 320)
    (hj : besideCore core side = some j) (hn : n = 0x6800 + 8 * core + side) (hf : s.flits = []) (ha : s.acnMsgs = []) (hd : s.dead = []) :
    ∃ t, exec (.flitCrcRetry core side acn false) s = .next t ∧ t.mgv n = setBits (s.mgv n) 32 32 1
      ∧ t.dead = [⟨core, side, !acn, if acn then 3 else 2⟩, ⟨j, oppSide side, !acn, if acn then 3 else 2⟩]
      ∧ t.withdrawn core = true ∧ t.withdrawn j = true := by
  have hside := side_lt_of_besideCore hj
  obtain ⟨hlo, hhi⟩ : 0x4000 ≤ n ∧ n < 0x7600 := by
    have hlt : LT.lt (α := Nat) core 320 := hcore
    omega
  obtain ⟨u, hu⟩ : ∃ u, u = (s.setMg n (setBits (s.mgv n) 32 32 1)).kill core j side (!acn) (if acn then 3 else 2) := ⟨_, rfl⟩
  obtain ⟨w, hw⟩ : ∃ w, w = u.freeAddr.2.lasting 0 core 0 u.freeAddr.1 := ⟨_, rfl⟩
  have hrec : u.Records w := by
    rw [hw]
    exact (State.Records.freeAddr u).trans (State.Records.lasting ..)
  have hfu : u.flits = [] := by rw [hu, State.kill_flits, State.setMg_flits, hf]
  have hau : u.acnMsgs = [] := by rw [hu, State.kill_acnMsgs, State.setMg_acnMsgs, ha]
  have hex : exec (.flitCrcRetry core side acn false) s = .next ((w.withdrawCore core).withdrawCore j) := by
    have hover : u.flitsOver core side = [] := by rw [State.flitsOver, hfu]; rfl
    have hwf : ((w.withdrawCore core).withdrawCore j).flits = [] := by
      rw [State.withdrawCore_flits, State.withdrawCore_flits, hrec.flits, hfu]
    have hwa : ((w.withdrawCore core).withdrawCore j).acnMsgs = [] := by
      rw [State.withdrawCore_acnMsgs, State.withdrawCore_acnMsgs, hrec.acnMsgs, hau]
    rw [exec_flitCrcRetry]
    unfold execFlitCrcRetry
    simp only [hj, ← hn]
    rw [if_neg (by simp [hcore, hoff, numCores]), if_neg (by simp)]
    simp only [← hu, hover, List.head?_nil, Option.bind_none]
    rw [← hw, State.failAcn_nil hwa, State.failFlits_nil hwf, State.failFlits_nil hwf, ite_self]
  refine ⟨_, hex, ?_, ?_, State.withdrawn_withdrawCore_mono _ (State.withdrawn_withdrawCore_self ..), State.withdrawn_withdrawCore_self ..⟩
  · rw [State.mgv_withdrawCore_below _ _ hhi, State.mgv_withdrawCore_below _ _ hhi, hrec.mgv _ hlo, hu, State.kill_mgv, State.mgv_setMg_self]
  · rw [State.withdrawCore_dead, State.withdrawCore_dead, hrec.dead, hu]
    exact State.dead_kill ((State.setMg_dead ..).trans hd) ..

/-- A parity error of an element in a queue or buffer takes it out and stops the load (R406). -/
theorem queueParityError_stops {s X Y : State} {c : CtxId} {buf : Buf} {f : Fab} (hoff : s.off = false) (hr : (s.ctx c).cur.st = .running)
    (hs : (s.ctx c).fab.stopped = false) (hf : (s.ctx c).fab.lose buf = some f) (hY : Y = (s.setCtx c { s.ctx c with fab := f }).cmdLost c buf)
    (hX : X = (Y.putLease (Y.lidOf c) { Y.leaseFor c with stopAt := some (((Y.leaseFor c).stopAt.map (fun t => min t (s.time + 1))).getD (s.time + 1)) }).raise c
      ⟨0x1D, BitVec.ofNat 64 (bufUnit buf), 1⟩) (lasting : Bool) :
    exec (.queueParityError c buf lasting) s = .next (if lasting then (X.lastingCtx c (BitVec.ofNat 64 (bufUnit buf))).withdrawCore (coreOf c) else X) := by
  have htime : Y.time = s.time := by
    rw [hY]
    unfold State.cmdLost
    split <;> rfl
  have hupd : s.updCtx c (fun x => { x with fab := f }) = s.setCtx c { s.ctx c with fab := f } := rfl
  rw [exec_queueParityError]
  unfold execQueueParityError
  simp only [hf]
  rw [if_neg (by simp [hr, hs, hoff])]
  rw [hupd]
  simp only [← hY, htime]
  rw [hX]
  cases (Y.leaseFor c).stopAt <;> rfl
/-! ### Elements that are lost (R406) -/

theorem loseItem_of_not_credit {l : List QItem} {i : Nat} (h : ∀ v, l[i]? ≠ some (.el v true)) : loseItem l i = l.take i ++ l.drop (i + 1) := by
  unfold loseItem
  split
  · rename_i v hv
    exact absurd hv (h v)
  · rfl

theorem loseItem_credit {l : List QItem} {i : Nat} {u v : W32} {b : Bool} (hu : l[i]? = some (.el u b)) (hv : l[i + 1]? = some (.el v true)) :
    loseItem l (i + 1) = l.take i ++ [.el u true] ++ l.drop (i + 2) := by
  have htake : l.take (i + 1) = l.take i ++ [.el u b] := by rw [List.take_add_one, hu]; rfl
  unfold loseItem
  simp [hv, htake]

theorem getElem?_modAt {α : Type} (g : α → α) (l : List α) (n : Nat) : (modAt g l n)[n]? = l[n]?.map g := by
  induction l generalizing n with
  | nil => rfl
  | cons a l ih => cases n with
    | zero => rfl
    | succ n => simpa [modAt] using ih n

/-- What the update of a queue leaves there. -/
theorem Fab.sink?_updSink_queue {f : Fab} {n q : Nat} {p : Part} (h : f.sink? (.queue n q) = some p) (g : Part → Part) :
    (f.updSink (.queue n q) g).sink? (.queue n q) = some (g p) := by
  obtain ⟨x, hx, hq⟩ : ∃ x, f.cells.get? n = some x ∧ x.q[q]? = some p := by simpa [Fab.sink?, Option.bind_eq_some_iff] using h
  simp [Fab.updSink, Fab.sink?, Fab.setCell, hx, getElem?_modAt, hq]

/-! ### Words with a double-bit error (R24, R403, R404) -/

theorem contains_insert (l : List Nat) (a : Nat) : (if l.contains a then l else a :: l).contains a = true := by
  split
  · assumption
  · simp

/-- The state with a word of a bank poisoned. -/
def State.poisonBank (s : State) (core : CoreId) (a : Nat) : State :=
  s.updCore core (fun k => { k with poison := if k.poison.contains a then k.poison else a :: k.poison })

theorem State.poison_poisonBank (s : State) (core : CoreId) (a : Nat) : ((s.poisonBank core a).core core).poison.contains a = true := by
  rw [State.poisonBank, core_updCore_self]
  exact contains_insert ..

theorem eccDoubleRetry_bank {s : State} {core : CoreId} {a : Nat} (hoff : s.off = false) (hcore : core < 320) (ha : a < 2 ^ 22) :
    exec (.eccDoubleRetry (.bank core a) true false) s = .next (s.countUp (0x4000 + 32 * core + a / 2 ^ 17) 47 32)
      ∧ exec (.eccDoubleRetry (.bank core a) false false) s = .next ((s.poisonBank core (a / 8 * 8)).countUp (0x4000 + 32 * core + a / 2 ^ 17) 47 32)
      ∧ exec (.eccDoubleRetry (.bank core a) false true) s
        = .next (((s.poisonBank core (a / 8 * 8)).lastingBank core (a / 2 ^ 17) (BitVec.ofNat 64 (a / 8 * 8))).withdrawCore core) := by
  have hc : ¬ (core ≥ numCores || a ≥ 2 ^ 22) = true := by simpa [numCores, hcore] using ha
  simp only [exec_eccDoubleRetry, execEccDoubleRetry, hoff]
  rw [if_neg hc, if_neg hc, if_neg hc]
  exact ⟨rfl, rfl, rfl⟩

theorem State.countUp_core (s : State) (n hi lo : Nat) (k : CoreId) : (s.countUp n hi lo).core k = s.core k := rfl

theorem doubleBitErrors_bank {s : State} {core : CoreId} {a n : Nat} (hoff : s.off = false) (hcore : core < 320) (ha : a < 2 ^ 22)
    (hn : n = 0x4000 + 32 * core + a / 2 ^ 17) :
    exec (.eccDoubleRetry (.bank core a) true false) s = .next (s.setMg n (setBits (s.mgv n) 47 32 (min (2 ^ 16 - 1) (bits (s.mgv n) 47 32 + 1))))
      ∧ ∃ t, exec (.eccDoubleRetry (.bank core a) false false) s = .next t ∧ (t.core core).poison.contains (a / 8 * 8) = true ∧ t.mem = s.mem := by
  obtain ⟨hclean, hbad, -⟩ := eccDoubleRetry_bank hoff hcore ha
  rw [← hn] at hclean hbad
  exact ⟨hclean, _, hbad, by rw [State.countUp_core]; exact State.poison_poisonBank .., rfl⟩

theorem lastingDoubleBitError_bank {s : State} {core : CoreId} {a : Nat} (hoff : s.off = false) (hcore : core < 320) (ha : a < 2 ^ 22) :
    ∃ t, exec (.eccDoubleRetry (.bank core a) false true) s = .next t ∧ (t.core core).poison.contains (a / 8 * 8) = true ∧ t.withdrawn core = true := by
  obtain ⟨-, -, hlast⟩ := eccDoubleRetry_bank hoff hcore ha
  refine ⟨_, hlast, ?_, State.withdrawn_withdrawCore_self ..⟩
  have hrec := State.Records.lastingBank (s.poisonBank core (a / 8 * 8)) core (a / 2 ^ 17) (BitVec.ofNat 64 (a / 8 * 8))
  rw [State.core, State.withdrawCore_cores, hrec.cores]
  exact State.poison_poisonBank ..

theorem doubleBitError_text {s : State} {c : CtxId} {a : Nat} (hoff : s.off = false) (ha : a < (s.ctx c).ilen) :
    ∃ t, exec (.eccDoubleRetry (.text c a) false false) s = .next t ∧ s.OnlyCtx t c ∧ (t.ctx c).ipoison.contains (a / 8 * 8) = true := by
  refine ⟨s.setCtx c { s.ctx c with ipoison := if (s.ctx c).ipoison.contains (a / 8 * 8) then (s.ctx c).ipoison else a / 8 * 8 :: (s.ctx c).ipoison }, ?_, ?_, ?_⟩
  · simp only [exec_eccDoubleRetry, execEccDoubleRetry, hoff]
    rw [if_neg (by simp), if_neg (by simp [ha])]
    rfl
  · rw [State.OnlyCtx, State.ctx_setCtx_self]
  · rw [State.ctx_setCtx_self]
    exact contains_insert ..

theorem doubleBitError_conf {s : State} {c : CtxId} {u : Nat} (hoff : s.off = false) (hr : (s.ctx c).cur.st = .running)
    (hs : (s.ctx c).fab.stopped = false) (hu : confUnit u = true) :
    exec (.eccDoubleRetry (.conf c u) false false) s = .next
      ((s.setCtx c { s.ctx c with cur := { (s.ctx c).cur with bad := u :: (s.ctx c).cur.bad } }).fabFault c (confTrap u)) := by
  simp only [exec_eccDoubleRetry, execEccDoubleRetry, hoff]
  rw [if_neg (by simp), if_neg (by simp [hr, hs, hu])]
  rfl

/-- Of an entry of a sink table only a lasting error is seen. -/
theorem doubleBitErrors_sink {s : State} {core : CoreId} (id : Nat) (hoff : s.off = false) (hcore : core < 320) :
    exec (.eccDoubleRetry (.sink core id) false false) s = .next s ∧ exec (.eccDoubleRetry (.sink core id) true false) s = .next s
      ∧ ∃ t, exec (.eccDoubleRetry (.sink core id) false true) s = .next t ∧ t.withdrawn core = true ∧ (t.core core).sinks = (s.core core).sinks := by
  simp only [exec_eccDoubleRetry, execEccDoubleRetry, hoff]
  refine ⟨rfl, rfl, (s.freeAddr.2.lasting 0 core 0 s.freeAddr.1).withdrawCore core, ?_, State.withdrawn_withdrawCore_self .., ?_⟩
  · rw [if_neg (by simp), if_neg (by simp [numCores, hcore])]
  · rw [State.core, State.withdrawCore_cores, ((State.Records.freeAddr s).trans (State.Records.lasting ..)).cores, State.core]

theorem doubleBitError_memory {s : State} {pa : Nat} (hoff : s.off = false) (hl : s.isLocal pa = true) {w : EccWord} (hw : w ∈ ([.l2 pa, .hbm pa] : List EccWord)) :
    ∃ t, exec (.eccDoubleRetry w false false) s = .next t ∧ t = { s with hbmPoison := t.hbmPoison } ∧ t.hbmPoison.contains (memKey pa / 8 * 8) = true := by
  refine ⟨s.poisonWord pa, ?_, rfl, contains_insert ..⟩
  simp only [List.mem_cons, List.not_mem_nil, or_false] at hw
  rcases hw with rfl | rfl <;> simp [execEccDoubleRetry, hoff, hl]

/-! ### Seams (R415, R419) -/

/-- What every step of a run over a list leaves alone, the run leaves alone. -/
theorem State.foldl_same {α β : Type} {f : State → α → State} (g : State → β) (h : ∀ s a, g (f s a) = g s) (l : List α) (s : State) :
    g (l.foldl f s) = g s := by
  induction l generalizing s with
  | nil => rfl
  | cons a l ih => rw [List.foldl_cons, ih, h]

/-- A link of the mesh that has failed, at one of its ends. -/
def State.MeshDead (s : State) (k : CoreId) (side : Nat) : Prop := ∃ d ∈ s.dead, d.core = k ∧ d.side = side ∧ d.mesh = true

theorem State.MeshDead.kill_mono {s : State} {k : CoreId} {side : Nat} (h : s.MeshDead k side) (i j : CoreId) (m src : Nat) (mesh : Bool) :
    (s.kill i j m mesh src).MeshDead k side := by
  obtain ⟨d, hd, he⟩ := h
  refine ⟨d, ?_, he⟩
  simp only [State.kill]
  repeat' split
  all_goals simp [hd]

theorem State.MeshDead.kill (s : State) (k j : CoreId) (side src : Nat) : (s.kill k j side true src).MeshDead k side := by
  by_cases h : s.dead.any (fun e => e.core == k && e.side == side && e.mesh == true) = true
  · obtain ⟨d, hd, he⟩ := List.any_eq_true.mp h
    refine kill_mono ⟨d, hd, ?_⟩ ..
    simpa [and_assoc] using he
  · refine ⟨⟨k, side, true, src⟩, ?_, rfl, rfl, rfl⟩
    simp only [State.kill, if_neg h]
    split <;> simp

/-- The two nets of the links of a seam fail together. -/
def State.killBoth (s : State) (e : CoreId × Nat × CoreId) : State := (s.kill e.1 e.2.2 e.2.1 true 3).kill e.1 e.2.2 e.2.1 false 3

theorem State.MeshDead.foldl_killBoth (l : List (CoreId × Nat × CoreId)) (s : State) {k : CoreId} {side : Nat}
    (h : s.MeshDead k side ∨ ∃ j, (k, side, j) ∈ l) : (l.foldl State.killBoth s).MeshDead k side := by
  induction l generalizing s with
  | nil => simpa using h
  | cons e l ih =>
    rw [List.foldl_cons]
    refine ih _ ?_
    rcases h with h | ⟨j, hj⟩
    · exact .inl (kill_mono (kill_mono h ..) ..)
    · rcases List.mem_cons.mp hj with rfl | hj
      · exact .inl (kill_mono (State.MeshDead.kill ..) ..)
      · exact .inr ⟨j, hj⟩

/-- The links of a seam, with the cores beyond them. -/
def seamEnds (seam : Nat) : List (CoreId × Nat × CoreId) := (seamLinks seam).filterMap (fun e => (besideCore e.1 e.2).map (fun j => (e.1, e.2, j)))

/-- Every link of a seam has a core at its other end. -/
theorem mem_seamEnds {seam : Nat} (h : seam < 4) {e : CoreId × Nat} (he : e ∈ seamLinks seam) : ∃ j, (e.1, e.2, j) ∈ seamEnds seam := by
  have hall : ∀ m < 4, ∀ e ∈ seamLinks m, (besideCore e.1 e.2).isSome = true := by decide
  obtain ⟨j, hj⟩ := Option.isSome_iff_exists.mp (hall seam h e he)
  exact ⟨j, List.mem_filterMap.mpr ⟨e, he, by rw [hj]; rfl⟩⟩

/-- A module of a seam taken out of service, and the event of it. -/
def State.moduleOut (s : State) (seam : Nat) : State :=
  { s with ucie := s.ucie.set seam ((s.ucie.get? seam).getD 0 + 1) }.freeAddr.2.lasting 0 0 0
    { s with ucie := s.ucie.set seam ((s.ucie.get? seam).getD 0 + 1) }.freeAddr.1

theorem State.records_moduleOut (s : State) (seam : Nat) :
    { s with ucie := s.ucie.set seam ((s.ucie.get? seam).getD 0 + 1) }.Records (s.moduleOut seam) :=
  (State.Records.freeAddr _).trans (State.Records.lasting ..)

theorem State.ucie_moduleOut (s : State) (seam : Nat) : (s.moduleOut seam).ucie.get? seam = some ((s.ucie.get? seam).getD 0 + 1) := by
  rw [(s.records_moduleOut seam).ucie]
  exact Map.get?_set_self ..

theorem ucieModuleFail_one {s : State} {seam : Nat} (hoff : s.off = false) (hs : seam < 4) (hn : (s.ucie.get? seam).getD 0 < 15) :
    ∃ t, exec (.ucieModuleFail seam) s = .next t ∧ t.ucie.get? seam = some ((s.ucie.get? seam).getD 0 + 1)
      ∧ t.dead = s.dead ∧ ∀ k, t.withdrawn k = s.withdrawn k := by
  have hrec := s.records_moduleOut seam
  refine ⟨s.moduleOut seam, ?_, s.ucie_moduleOut seam, hrec.dead, fun k => hrec.withdrawn k⟩
  rw [exec_ucieModuleFail]
  unfold execUcieModuleFail
  simp only
  rw [if_neg (by simp [hoff]; omega), if_pos (by omega)]
  rfl

/-- The last module of a seam takes its links and their cores with it. -/
theorem ucieModuleFail_last {s : State} {seam : Nat} (hoff : s.off = false) (hs : seam < 4) (hn : (s.ucie.get? seam).getD 0 = 15)
    (hf : s.flits = []) (ha : s.acnMsgs = []) :
    ∃ t, exec (.ucieModuleFail seam) s = .next t ∧ t.ucie.get? seam = some 16
      ∧ ∀ e ∈ seamLinks seam, t.withdrawn e.1 = true ∧ ∃ d ∈ t.dead, d.core = e.1 ∧ d.side = e.2 ∧ d.mesh = true := by
  have hrec := s.records_moduleOut seam
  obtain ⟨u, hu⟩ : ∃ u, u = (seamEnds seam).foldl State.killBoth (s.moduleOut seam) := ⟨_, rfl⟩
  obtain ⟨w, hw⟩ : ∃ w, w = (seamEnds seam).foldl (fun s e => (s.withdrawCore e.1).withdrawCore e.2.2) u := ⟨_, rfl⟩
  have hwu {β : Type} (g : State → β) (h : ∀ s k, g (State.withdrawCore s k) = g s) : g w = g u := by
    rw [hw]
    exact State.foldl_same g (fun s e => by rw [h, h]) ..
  have hus {β : Type} (g : State → β) (h : ∀ s e, g (State.killBoth s e) = g s) : g u = g (s.moduleOut seam) := by
    rw [hu]
    exact State.foldl_same g h ..
  have hwf : w.flits = [] := by
    rw [hwu State.flits fun _ _ => rfl, hus State.flits fun _ _ => rfl, hrec.flits, ← hf]
  have hwa : w.acnMsgs = [] := by
    rw [hwu State.acnMsgs fun _ _ => rfl, hus State.acnMsgs fun _ _ => rfl, hrec.acnMsgs, ← ha]
  have hlost : (seamEnds seam).foldl (fun s e => (s.failFlits e.1 e.2.1 3).failFlits e.2.2 (oppSide e.2.1) 3) w = w := by
    generalize seamEnds seam = l
    induction l with
    | nil => rfl
    | cons e l ih => rw [List.foldl_cons, State.failFlits_nil hwf, State.failFlits_nil hwf, ih]
  refine ⟨w, ?_, ?_, fun e he => ?_⟩
  · rw [exec_ucieModuleFail]
    unfold execUcieModuleFail
    simp only
    rw [if_neg (by simp [hoff, hn]; omega), if_neg (by omega)]
    change (.next (State.failAcn ((seamEnds seam).foldl (fun s e => (s.failFlits e.1 e.2.1 3).failFlits e.2.2 (oppSide e.2.1) 3)
      ((seamEnds seam).foldl (fun s e => (s.withdrawCore e.1).withdrawCore e.2.2) ((seamEnds seam).foldl State.killBoth (s.moduleOut seam))))) : Out) = _
    rw [← hu, ← hw, hlost, State.failAcn_nil hwa]
  · rw [hwu State.ucie fun _ _ => rfl, hus State.ucie fun _ _ => rfl, State.ucie_moduleOut, hn]
  · obtain ⟨j, hj⟩ := mem_seamEnds hs he
    refine ⟨?_, ?_⟩
    · rw [hw]
      exact State.withdrawn_foldl _ _ _ _ _ (.inr ⟨_, hj, rfl⟩)
    · rw [hwu State.dead fun _ _ => rfl, hu]
      exact State.MeshDead.foldl_killBoth _ _ (.inr ⟨j, hj⟩)

/-! ### Hardware errors (R24, R403 to R407, R415, R419) -/

/-- Settles O48: each kind of error is one operation, whose next state is read off its definition; the events that it records are a frame. -/
theorem hardwareErrorsAreContained : Obligations.HardwareErrorsAreContained := by
  unfold Obligations.HardwareErrorsAreContained
  refine ⟨⟨fun s core j side n acn hoff hcore hj hn => ⟨?_, fun hf ha hd => flitCrcRetry_fails acn hoff hcore hj hn hf ha hd⟩,
    fun s core i n hoff hcore hi hn => ?_, fun s c buf f X Y hoff hr hs hf hY hX => ?_, fun f n q i p it hp hi => ?_,
    fun l i => ⟨loseItem_of_not_credit, fun u v b => loseItem_credit⟩⟩, fun s hoff => ⟨?_, ?_, ?_, ?_, ?_, ?_⟩,
    fun s seam hoff hs => ⟨ucieModuleFail_one hoff hs, ucieModuleFail_last hoff hs⟩⟩
  · rw [exec_flitCrcRetry]
    unfold execFlitCrcRetry
    simp only [hj, ← hn]
    rw [if_neg (by simp [hcore, hoff, numCores]), if_pos (by simp)]
    rfl
  · rw [State.corrected, if_pos (by simp [hcore, hi, hoff, numCores]), ← hn]
    rfl
  · exact ⟨queueParityError_stops hoff hr hs hf hY hX false, queueParityError_stops hoff hr hs hf hY hX true⟩
  · exact ⟨f.updSink (.queue n q) (fun p => { p with items := loseItem p.items i }), by simp [Fab.lose, hp, hi], Fab.sink?_updSink_queue hp _⟩
  · exact fun core a n => doubleBitErrors_bank hoff
  · exact fun core a => lastingDoubleBitError_bank hoff
  · exact fun c a => doubleBitError_text hoff
  · exact fun c u => doubleBitError_conf hoff
  · exact fun core id => doubleBitErrors_sink id hoff
  · exact fun pa hl w => doubleBitError_memory hoff hl
end Sys2Proof.Machine

/-! Leases that start, end, complete and take turns (R33, R330, R332, R340, R345, R358, R373, R375, R391, R399, R411, R412, R427). -/

namespace Sys2Proof.Machine

/-! ### Tables -/

theorem Map.mem_set {α : Type} {m : Map α} {k : Nat} {v : α} {e : Nat × α} (h : e ∈ m.set k v) : e = (k, v) ∨ e ∈ m := by
  induction m with
  | nil => exact .inl (List.mem_singleton.mp h)
  | cons a t ih =>
    obtain ⟨i, w⟩ := a
    rw [Map.set] at h
    split at h
    · exact List.mem_cons.mp h
    · split at h
      · exact (List.mem_cons.mp h).imp_right (List.mem_cons_of_mem _)
      · rcases List.mem_cons.mp h with rfl | h
        · exact .inr List.mem_cons_self
        · exact (ih h).imp_right (List.mem_cons_of_mem _)

theorem Map.mem_of_get? {α : Type} {m : Map α} {k : Nat} {v : α} (h : m.get? k = some v) : (k, v) ∈ m := by
  induction m with
  | nil => simp [Map.get?] at h
  | cons a t ih =>
    obtain ⟨i, w⟩ := a
    rw [Map.get?] at h
    split at h
    · rename_i hk
      cases h
      exact hk ▸ List.mem_cons_self
    · exact List.mem_cons_of_mem _ (ih h)

theorem Map.mem_of_mem_erase {α : Type} {m : Map α} {k : Nat} {e : Nat × α} (h : e ∈ m.erase k) : e ∈ m := (List.mem_filter.mp h).1

theorem Map.get?_map {α : Type} (f : α → α) (m : Map α) (k : Nat) : Map.get? (m.map fun e => (e.1, f e.2)) k = (m.get? k).map f := by
  induction m with
  | nil => rfl
  | cons a t ih =>
    rw [List.map_cons, Map.get?, Map.get?, ih]
    split <;> rfl

/-- A range of memory holds no entry. -/
def Mem.Clear (m : Mem) (a n : Nat) : Prop := ∀ e ∈ m, ¬(a ≤ e.1 ∧ e.1 < a + n)

theorem Mem.clear_zero (m : Mem) (a n : Nat) : (m.zero a n).Clear a n := by
  intro e he
  have := (List.mem_filter.mp he).2
  simp only [Bool.or_eq_true, decide_eq_true_eq] at this
  omega

theorem Mem.Clear.zero {m : Mem} {a n : Nat} (h : m.Clear a n) (b k : Nat) : (m.zero b k).Clear a n := fun e he => h e (List.mem_filter.mp he).1

theorem Mem.Clear.get {m : Mem} {a n : Nat} (h : m.Clear a n) {i : Nat} (hi : i < n) : m.get (a + i) = 0 := by
  have habs : ∀ e ∈ m, e.1 ≠ a + i := fun e he hn => h e he (by omega)
  clear h
  induction m with
  | nil => rfl
  | cons e t ih =>
    obtain ⟨k, v⟩ := e
    rw [Mem.get, if_neg (habs (k, v) List.mem_cons_self).symm, ih fun e he => habs e (List.mem_cons_of_mem _ he), ite_self]

/-! ### The start of a lease's contexts (R33, R340, R411) -/

/-- What HubOk says: the access of a hub's unit goes to its address. -/
theorem State.hubAt_ok {s : State} {i asid ten va n : Nat} {need : Need} {pa : Nat} (h : s.HubOk i asid ten va n need pa) :
    s.hubAt i asid ten va n need = .ok pa := by
  obtain ⟨hva, ⟨e, htlb, hrd, hwr, hpa⟩, hl, hg, hm⟩ := h
  have hx : s.unitXlate (.engine hubCore i ten) (Who.core (.engine hubCore i ten)) 0 asid va need = .ok pa := by
    have hperm : ((need.rd && !e.rd) || (need.wr && !e.wr)) = false := by
      simpa using ⟨hrd, hwr⟩
    rw [State.unitXlate, if_neg (by omega), htlb]
    simp only [hperm]
    rw [hpa]
    rfl
  have he : s.engAt (.engine hubCore i ten) 0 none asid ten va n need = .ok pa := by
    rw [State.engAt, if_neg (by simp; omega), Int.toNat_natCast, hx]
    simp [hl, hg, hm]
  rw [State.hubAt, he, State.onlyLocal, if_pos hl]

/-- Words that all translate are read. -/
theorem State.hubWords_ok {s : State} {asid ten n : Nat} {va : Nat} {p : Nat → Nat} (h : ∀ i, i < n → s.HubOk 129 asid ten (va + 4 * i) 4 ⟨true, false⟩ (p i)) :
    s.hubWords asid ten n va = .ok ((List.range n).map (fun i => s.devBytes (p i) 4)).flatten := by
  induction n generalizing va p with
  | zero => rfl
  | succ n ih =>
    have ih := ih (va := va + 4) (p := fun i => p (i + 1)) fun i hi => by
      have := h (i + 1) (by omega)
      rwa [show va + 4 * (i + 1) = va + 4 + 4 * i by ring] at this
    rw [State.hubWords, State.hubAt_ok (by simpa using h 0 (by omega))]
    simp only [ih, List.range_succ_eq_map, List.map_cons, List.map_map, List.flatten_cons]
    rfl

/-- Two contexts that agree in all but who gates them (R391). -/
def Ctx.SameButGate (x y : Ctx) : Prop := y = { x with gsrc := y.gsrc, gateReq := y.gateReq, gateAt := y.gateAt }

theorem Ctx.SameButGate.trans {x y z : Ctx} (h : x.SameButGate y) (k : y.SameButGate z) : x.SameButGate z := by
  rw [Ctx.SameButGate, k, h]

theorem State.sameButGate_gate (s : State) (c : CtxId) (src : Nat) : (s.ctx c).SameButGate ((s.gate c src).ctx c) := by
  unfold State.gate
  simp only
  split
  · rfl
  · split <;> rw [State.ctx_setCtx_self] <;> rfl

theorem State.sameButGate_ite {s t : State} {c : CtxId} {p : Prop} [Decidable p] (h : (s.ctx c).SameButGate (t.ctx c)) :
    (s.ctx c).SameButGate ((if p then t else s).ctx c) := by
  split
  · exact h
  · rfl

/-- A started context, but for its gate. -/
def Ctx.started (x : Ctx) (l : Lease) (text : List Byte) : Ctx :=
  { x with st := .ready, g := (x.g.set 1 l.args.1).set 2 l.args.2, istore := Mem.setBytes [] 0 text, ilen := text.length }

theorem State.ctx_startCtx (s : State) (l : Lease) (text data : List Byte) (c : CtxId) :
    ((s.ctx c).started l text).SameButGate ((s.startCtx l text data c).ctx c) := by
  have hload : ((s.setCtx c ((s.ctx c).started l text)).spadWrite c (64 * lwDOff l.body) data).ctx c = (s.ctx c).started l text := by
    rw [(State.spadWrite_frame ..).2.1 c, State.ctx_setCtx_self]
  rw [← hload]
  unfold State.startCtx
  exact (State.sameButGate_ite (State.sameButGate_gate ..)).trans (State.sameButGate_ite (State.sameButGate_gate ..))

theorem startCtx_values (s : State) (l : Lease) (text data : List Byte) (c : CtxId) :
    ((s.startCtx l text data c).ctx c).st = .ready ∧ ((s.startCtx l text data c).ctx c).reg 1 = l.args.1
      ∧ ((s.startCtx l text data c).ctx c).reg 2 = l.args.2 ∧ ((s.startCtx l text data c).ctx c).ilen = text.length
      ∧ ∀ i, i < text.length → ((s.startCtx l text data c).ctx c).istore.get i = text.getD i 0 := by
  rw [State.ctx_startCtx s l text data c]
  refine ⟨rfl, ?_, ?_, rfl, fun i hi => ?_⟩
  · exact (Vector.getElem_set_ne (i := 2) (j := 1) (by decide) (by decide) (by decide)).trans (Vector.getElem_set_self ..)
  · exact Vector.getElem_set_self (i := 2) ..
  · have := Mem.get_setBytes (m := []) rfl 0 text hi
    rwa [Nat.zero_add, ← List.getD_eq_getElem text 0 hi] at this

/-- A placed lease whose text and data translate starts its contexts. -/
theorem execLaunchImagePlaced_starts {s : State} {lid : Nat} {l : Lease} {pt pd : Nat → Nat} (hl : s.leases.get? lid = some l) (hs : l.started = false)
    (hf : l.fail = none) (hm : l.moving = none) (hv : l.saved = []) (hb : l.body ≠ [])
    (ht : ∀ i, i < lwText l.body → s.HubOk 129 l.asid l.ten (bits (pk64 l.body 0x10) 55 0 + 4 * i) 4 ⟨true, false⟩ (pt i))
    (hd : ∀ i, i < 16 * lwDLen l.body → s.HubOk 129 l.asid l.ten (bits (pk64 l.body 0x18) 55 0 + 4 * i) 4 ⟨true, false⟩ (pd i)) :
    exec (.launchImagePlaced lid) s = .next (l.ctxs.foldl (fun u c => u.startCtx { l with started := true }
        ((List.range (lwText l.body)).map (fun i => s.devBytes (pt i) 4)).flatten
        ((List.range (16 * lwDLen l.body)).map (fun i => s.devBytes (pd i) 4)).flatten c)
      { s with leases := s.leases.set lid { l with started := true } }) := by
  rw [exec_launchImagePlaced, execLaunchImagePlaced]
  simp only [hl, hs, hf, hm, hv, State.hubWords_ok ht, State.hubWords_ok hd]
  rw [if_neg (by simpa using hb)]

/-! ### The end of a lease (R340, R345, R373, R411) -/

theorem State.leaseOver_of_busy {s : State} {lid : Nat} {l : Lease} (hl : s.leases.get? lid = some l) (h : ∃ c ∈ l.ctxs, (s.ctx c).st ≠ .empty) :
    s.leaseOver lid = s := by
  obtain ⟨c, hc, he⟩ := h
  rw [State.leaseOver]
  simp only [hl]
  refine if_neg ?_
  simp only [Bool.and_eq_true, List.all_eq_true, beq_iff_eq, not_and]
  exact fun _ h => he (h c hc)

theorem State.leaseOver_of_empty {s : State} {lid : Nat} {l : Lease} (hl : s.leases.get? lid = some l) (h : ∀ c ∈ l.ctxs, (s.ctx c).st = .empty)
    (hv : l.saved = []) (hs : l.started = true ∨ l.killed = true) :
    s.leaseOver lid = (if l.ended || l.killed || l.body.isEmpty then s else { s with finals := s.finals.set lid l }).freeLease lid := by
  rw [State.leaseOver]
  simp only [hl]
  refine if_pos ?_
  simp only [Bool.and_eq_true, Bool.or_eq_true, List.all_eq_true, beq_iff_eq, List.isEmpty_iff]
  exact ⟨⟨hs, hv⟩, h⟩

/-- A core with a bank zeroed. -/
def Core.zeroBank (k : Core) (b : Nat) : Core :=
  { k with sram := k.sram.zero (b * 2 ^ 17) (2 ^ 17), poison := k.poison.filter (fun w => w / 2 ^ 17 != b) }

theorem Core.sinks_zeroBanks (k : Core) (l : List Nat) : (l.foldl Core.zeroBank k).sinks = k.sinks := by
  induction l generalizing k with
  | nil => rfl
  | cons b l ih => exact ih _

theorem Core.clear_zeroBanks_mono {k : Core} {a n : Nat} (h : k.sram.Clear a n) (l : List Nat) : (l.foldl Core.zeroBank k).sram.Clear a n := by
  induction l generalizing k with
  | nil => exact h
  | cons b l ih => exact ih (k := k.zeroBank b) (h.zero _ _)

theorem Core.clear_zeroBanks (k : Core) {l : List Nat} {b : Nat} (hb : b ∈ l) : (l.foldl Core.zeroBank k).sram.Clear (b * 2 ^ 17) (2 ^ 17) := by
  induction l generalizing k with
  | nil => exact absurd hb List.not_mem_nil
  | cons d l ih =>
    rw [List.foldl_cons]
    rcases List.mem_cons.mp hb with rfl | hb
    · exact Core.clear_zeroBanks_mono (Mem.clear_zero _ _ _) l
    · exact ih _ hb

theorem State.core_zeroBanks_self (s : State) (k : CoreId) (l : List Nat) : (s.zeroBanks k l).core k = l.foldl Core.zeroBank (s.core k) :=
  State.core_updCore_self ..

theorem State.core_zeroBanks_ne (s : State) {k j : CoreId} (l : List Nat) (h : j ≠ k) : (s.zeroBanks k l).core j = s.core j :=
  State.core_updCore_ne _ _ h

/-- What giving up a bank does to the sinks: those of its context go. -/
theorem State.sinks_unreserve (s : State) (b : CtxId) (k : CoreId) : ((s.unreserve b).core k).sinks
    = if k = coreOf b then (s.core k).sinks.filter (fun e => e.2.ctx != b) else (s.core k).sinks := by
  rw [State.unreserve, State.core_setCtx]
  split
  · rename_i hk
    rw [hk, State.core_zeroBanks_self, Core.sinks_zeroBanks, State.core_updCore_self]
  · rename_i hk
    rw [State.core_zeroBanks_ne _ _ hk, State.core_updCore_ne _ _ hk]

/-- Bank b has been given up: its context is EMPTY, and no sink of its core names it. -/
def State.GivenUp (s : State) (b : CtxId) : Prop := s.ctx b = Ctx.blank ∧ ∀ e ∈ (s.core (coreOf b)).sinks, e.2.ctx ≠ b

theorem State.givenUp_unreserve (s : State) (b : CtxId) : (s.unreserve b).GivenUp b := by
  refine ⟨State.ctx_setCtx_self .., fun e he => ?_⟩
  rw [State.sinks_unreserve, if_pos rfl] at he
  simpa using (List.mem_filter.mp he).2

theorem State.GivenUp.unreserve {s : State} {b : CtxId} (h : s.GivenUp b) (d : CtxId) : (s.unreserve d).GivenUp b := by
  refine ⟨?_, fun e he => h.2 e ?_⟩
  · by_cases hb : b = d
    · exact hb ▸ State.ctx_setCtx_self ..
    · exact (State.ctx_setCtx_ne _ _ hb).trans h.1
  · rw [State.sinks_unreserve] at he
    split at he
    · exact List.mem_of_mem_filter he
    · exact he

/-- The destinations of a move that has not ended are given up. -/
theorem State.givenUp_unreserveAll (s : State) (m : Moving) {p : Pair} {b : CtxId} (hp : p ∈ m.pairs) (hb : p.dest = some b) (hd : p.done = false) :
    (s.unreserveAll m).GivenUp b := by
  unfold State.unreserveAll
  generalize m.pairs = l at hp
  have hmono (l : List Pair) {s : State} (h : s.GivenUp b) : (l.foldl (fun s p => match p.dest with
      | some b => if p.done then s else s.unreserve b
      | none => s) s).GivenUp b := by
    induction l generalizing s with
    | nil => exact h
    | cons q l ih =>
      rw [List.foldl_cons]
      refine ih ?_
      split
      · split
        · exact h
        · exact h.unreserve _
      · exact h
  induction l generalizing s with
  | nil => exact absurd hp List.not_mem_nil
  | cons q l ih =>
    rw [List.foldl_cons]
    rcases List.mem_cons.mp hp with rfl | hp
    · refine hmono l ?_
      simp only [hb, hd]
      exact s.givenUp_unreserve b
    · exact ih _ hp

end Sys2Proof.Machine

namespace Sys2Proof.Machine

/-! ### Turns (R375, R391, R399) -/

/-- What makes a lease's turn: its contexts, its quantum, whether it has the turn and since when. -/
def Lease.turnOf (l : Lease) : List CtxId × Nat × Bool × Nat := (l.ctxs, l.quant, l.turn, l.turnStart)

/-- The freezing of a lease's collectives leaves its turn, and every other lease, as they were. -/
theorem State.turnOf_refreeze (s : State) (lid k : Nat) :
    ((s.refreeze lid).leases.get? k).map Lease.turnOf = (s.leases.get? k).map Lease.turnOf := by
  unfold State.refreeze
  split
  · rfl
  · rename_i l hl
    split
    · by_cases hk : k = lid
      · subst hk
        rw [Map.get?_set_self, hl]
        rfl
      · rw [Map.get?_set_ne _ _ hk]
    · by_cases hk : k = lid
      · subst hk
        rw [Map.get?_set_self, hl]
        rfl
      · rw [Map.get?_set_ne _ _ hk]
    · rfl

theorem State.trapEntry_of_nil {s : State} {c : CtxId} (h : (s.ctx c).raised = []) : s.trapEntry c = s := by
  rw [State.trapEntry]
  simp only [h]

/-- A context that gets or loses a turn. -/
def State.turnCtx (s : State) (on : Bool) (c : CtxId) : State :=
  if on then (s.updCtx c (fun x => { x with yielded := false })).ungate c 1 else s.gate c 1

/-- Its state after that, at a time. -/
def Ctx.turned (x : Ctx) (on : Bool) (now : Nat) : Ctx :=
  if on then { x with
      yielded := false
      gsrc := x.gsrc &&& 13#4
      gateReq := if x.doom then x.gateReq else x.gateReq &&& 13#4
      gated := x.gated && x.gsrc &&& 13#4 != 0 }
  else if x.st == .empty then x
  else if x.st == .stopped || x.gated then { x with gsrc := x.gsrc ||| 2#4 }
  else { x with gateReq := x.gateReq ||| 2#4, gateAt := if x.gateReq == 0 then now else x.gateAt }

theorem Ctx.raised_turned (x : Ctx) (on : Bool) (now : Nat) : (x.turned on now).raised = x.raised := by
  unfold Ctx.turned
  repeat' split
  all_goals rfl

theorem State.refreeze_eq (s : State) (lid : Nat) : s.refreeze lid = { s with leases := (s.refreeze lid).leases } := by
  unfold State.refreeze
  repeat' split
  all_goals rfl

/-- A context that gets the turn. -/
theorem State.turnCtx_on {s : State} {c : CtxId} (h : (s.ctx c).raised = []) :
    s.turnCtx true c = (s.setCtx c ((s.ctx c).turned true s.time)).refreeze (s.ctx c).lease := by
  have hctx : (s.updCtx c (fun x => { x with yielded := false })).ctx c = { s.ctx c with yielded := false } := State.ctx_setCtx_self ..
  have hset (x : Ctx) : (s.updCtx c (fun x => { x with yielded := false })).setCtx c x = s.setCtx c x := State.setCtx_setCtx ..
  rw [State.turnCtx, if_pos rfl, State.ungate]
  simp only [hctx, hset]
  rw [State.trapEntry_of_nil]
  · rfl
  · rw [State.ctx_refreeze, State.ctx_setCtx_self]
    exact h

/-- A context that loses it. -/
theorem State.turnCtx_off (s : State) (c : CtxId) : s.turnCtx false c = s ∧ (s.ctx c).turned false s.time = s.ctx c
    ∨ s.turnCtx false c = s.setCtx c ((s.ctx c).turned false s.time) := by
  unfold State.turnCtx State.gate Ctx.turned
  by_cases he : ((s.ctx c).st == .empty) = true
  · exact .inl (by simp [he])
  · refine .inr ?_
    simp only [he]
    by_cases hg : ((s.ctx c).st == .stopped || (s.ctx c).gated) = true
    · simp [hg]
    · simp only [hg]
      rfl

/-- Between s and t contexts of D have got or lost turns, and no trap was taken. -/
structure State.Turns (s t : State) (D : List CtxId) : Prop where
  eq : t = { s with ctxs := t.ctxs, leases := t.leases }
  raised : ∀ c, (t.ctx c).raised = (s.ctx c).raised
  ctx : ∀ c, c ∉ D → t.ctx c = s.ctx c

/-- What the turn of one context leaves. -/
structure State.TurnOf (s t : State) (on : Bool) (c : CtxId) : Prop extends s.Turns t [c] where
  self : t.ctx c = (s.ctx c).turned on s.time
  leases : ∀ k, (t.leases.get? k).map Lease.turnOf = (s.leases.get? k).map Lease.turnOf

theorem State.turnOf_setCtx (s : State) (on : Bool) (c : CtxId) : s.TurnOf (s.setCtx c ((s.ctx c).turned on s.time)) on c := by
  refine ⟨⟨rfl, fun d => ?_, fun d hd => State.ctx_setCtx_ne _ _ (by simpa using hd)⟩, State.ctx_setCtx_self .., fun k => rfl⟩
  by_cases hd : d = c
  · rw [hd, State.ctx_setCtx_self, Ctx.raised_turned]
  · rw [State.ctx_setCtx_ne _ _ hd]

theorem State.turnOf_turnCtx {s : State} {c : CtxId} (on : Bool) (h : (s.ctx c).raised = []) : s.TurnOf (s.turnCtx on c) on c := by
  have hset := s.turnOf_setCtx on c
  cases on with
  | true =>
    rw [State.turnCtx_on h]
    refine ⟨⟨?_, fun d => ?_, fun d hd => ?_⟩, ?_, fun k => ?_⟩
    · rw [State.refreeze_eq]
      rfl
    · rw [State.ctx_refreeze, hset.raised]
    · rw [State.ctx_refreeze, hset.ctx d hd]
    · rw [State.ctx_refreeze, hset.self]
    · rw [State.turnOf_refreeze, hset.leases]
  | false =>
    rcases s.turnCtx_off c with ⟨h1, h2⟩ | h1
    · rw [h1]
      exact ⟨⟨rfl, fun _ => rfl, fun _ _ => rfl⟩, h2.symm, fun _ => rfl⟩
    · rw [h1]
      exact hset

namespace State.Turns
variable {s t u : State} {D E : List CtxId}

theorem trans (h : s.Turns t D) (k : t.Turns u E) : s.Turns u (D ++ E) := by
  refine ⟨?_, fun c => (k.raised c).trans (h.raised c), fun c hc => ?_⟩
  · rw [k.eq, h.eq]
  · rw [List.mem_append, not_or] at hc
    rw [k.ctx c hc.2, h.ctx c hc.1]

theorem time (h : s.Turns t D) : t.time = s.time := (congrArg State.time h.eq).trans rfl

end State.Turns

/-- The contexts of a lease that gets or loses its turn. -/
theorem State.turns_foldl {s : State} (on : Bool) {l : List CtxId} (h : ∀ c ∈ l, (s.ctx c).raised = []) :
    s.Turns (l.foldl (fun s c => s.turnCtx on c) s) l
      ∧ ∀ k, ((l.foldl (fun s c => s.turnCtx on c) s).leases.get? k).map Lease.turnOf = (s.leases.get? k).map Lease.turnOf := by
  induction l generalizing s with
  | nil => exact ⟨⟨rfl, fun _ => rfl, fun _ _ => rfl⟩, fun _ => rfl⟩
  | cons c l ih =>
    have h1 := State.turnOf_turnCtx on (h c List.mem_cons_self)
    obtain ⟨h2, h3⟩ := ih (s := s.turnCtx on c) fun d hd => by rw [h1.raised, h d (List.mem_cons_of_mem c hd)]
    exact ⟨h1.toTurns.trans h2, fun k => by rw [List.foldl_cons, h3, h1.leases]⟩

/-- Each of them, when it stands there once. -/
theorem State.ctx_turns_foldl {s : State} (on : Bool) {l : List CtxId} (hn : l.Nodup) (h : ∀ c ∈ l, (s.ctx c).raised = []) {c : CtxId} (hc : c ∈ l) :
    (l.foldl (fun s c => s.turnCtx on c) s).ctx c = (s.ctx c).turned on s.time := by
  induction l generalizing s with
  | nil => exact absurd hc List.not_mem_nil
  | cons d l ih =>
    obtain ⟨hd, hn⟩ := List.nodup_cons.mp hn
    have h1 := State.turnOf_turnCtx on (h d List.mem_cons_self)
    have hr (e : CtxId) (he : e ∈ l) : ((s.turnCtx on d).ctx e).raised = [] := by rw [h1.raised, h e (List.mem_cons_of_mem d he)]
    rw [List.foldl_cons]
    rcases List.mem_cons.mp hc with rfl | hc
    · rw [(State.turns_foldl on hr).1.ctx c hd, h1.self]
    · rw [ih hn hr hc, h1.time, h1.ctx c (by simpa using fun he : c = d => hd (he ▸ hc))]

end Sys2Proof.Machine

namespace Sys2Proof.Machine

theorem State.setTurn_some {s : State} {lid : Nat} {l : Lease} (h : s.leases.get? lid = some l) (on : Bool) :
    s.setTurn lid on = l.ctxs.foldl (fun s c => s.turnCtx on c) { s with leases := s.leases.set lid { l with turn := on, turnStart := s.time + 1 } } := by
  rw [State.setTurn]
  simp only [h]
  rfl

/-- Turns have passed between leases of s: no lease has come, gone or changed its contexts, and a context of no lease is as it was. -/
structure State.TurnsPass (s t : State) : Prop where
  eq : t = { s with ctxs := t.ctxs, leases := t.leases }
  raised : ∀ c, (t.ctx c).raised = (s.ctx c).raised
  leases : ∀ k, (t.leases.get? k).map (·.ctxs) = (s.leases.get? k).map (·.ctxs)
  ctx : ∀ c, (∀ k l, s.leases.get? k = some l → c ∉ l.ctxs) → t.ctx c = s.ctx c

namespace State.TurnsPass
variable {s t u : State}

theorem refl (s : State) : s.TurnsPass s := ⟨rfl, fun _ => rfl, fun _ => rfl, fun _ _ => rfl⟩

/-- A context of no lease is of none after turns have passed. -/
theorem unleased (h : s.TurnsPass t) {c : CtxId} (hc : ∀ k l, s.leases.get? k = some l → c ∉ l.ctxs) : ∀ k l, t.leases.get? k = some l → c ∉ l.ctxs := by
  intro k l hl
  have hk := h.leases k
  rw [hl] at hk
  obtain ⟨m, hm, he⟩ := Option.map_eq_some_iff.mp hk.symm
  have he : m.ctxs = l.ctxs := he
  exact he ▸ hc k m hm

theorem trans (h : s.TurnsPass t) (k : t.TurnsPass u) : s.TurnsPass u :=
  ⟨by rw [k.eq, h.eq], fun c => (k.raised c).trans (h.raised c), fun i => (k.leases i).trans (h.leases i),
    fun c hc => (k.ctx c (h.unleased hc)).trans (h.ctx c hc)⟩

theorem foldl {α : Type} {f : State → α → State} (hf : ∀ (s : State) (a : α), (∀ c, (s.ctx c).raised = []) → s.TurnsPass (f s a)) (l : List α) {s : State}
    (hs : ∀ c, (s.ctx c).raised = []) : s.TurnsPass (l.foldl f s) := by
  induction l generalizing s with
  | nil => exact refl s
  | cons a l ih =>
    have h := hf s a hs
    exact h.trans (ih fun c => (h.raised c).trans (hs c))

theorem setTurn (hs : ∀ c, (s.ctx c).raised = []) (lid : Nat) (on : Bool) : s.TurnsPass (s.setTurn lid on) := by
  cases hl : s.leases.get? lid with
  | none => rw [State.setTurn, hl]; exact refl s
  | some l =>
    rw [State.setTurn_some hl]
    obtain ⟨h, hk⟩ := State.turns_foldl (s := { s with leases := s.leases.set lid { l with turn := on, turnStart := s.time + 1 } }) on (l := l.ctxs)
      fun c _ => hs c
    refine ⟨?_, h.raised, fun k => ?_, fun c hc => h.ctx c (hc lid l hl)⟩
    · rw [h.eq]
    · have hk := congrArg (Option.map (·.1)) (hk k)
      rw [Option.map_map, Option.map_map] at hk
      refine Eq.trans hk ?_
      by_cases hkl : k = lid
      · subst hkl
        rw [Map.get?_set_self, hl]
        rfl
      · rw [Map.get?_set_ne _ _ hkl]
        rfl

theorem giveTurns (hs : ∀ c, (s.ctx c).raised = []) (next : Option Nat) : s.TurnsPass (s.giveTurns next) := by
  unfold State.giveTurns
  refine foldl (fun s e hs => ?_) _ hs
  simp only
  split
  · split
    · exact setTurn hs ..
    · exact refl s
  · refine foldl (fun s k hs => ?_) _ hs
    split
    · exact refl s
    · exact setTurn hs ..

end State.TurnsPass

/-! ### A lease that is freed (R373, R411) -/

/-- What the end of a lease does to the launch packets that its contexts have not taken: no lease, no scratchpad and no waiting trap changes. -/
structure State.Drops (s t : State) : Prop where
  leases : t.leases = s.leases
  ctx : ∀ c, ¬(s.ctx c).AtBarrier → t.ctx c = s.ctx c
  raised : ∀ c, (t.ctx c).raised = (s.ctx c).raised
  sram : ∀ k, (t.core k).sram = (s.core k).sram

namespace State.Drops
variable {s t u : State}

theorem refl (s : State) : s.Drops s := ⟨rfl, fun _ _ => rfl, fun _ => rfl, fun _ => rfl⟩

theorem trans (h : s.Drops t) (k : t.Drops u) : s.Drops u :=
  ⟨k.leases.trans h.leases, fun c hc => by rw [k.ctx c (by rw [h.ctx c hc]; exact hc), h.ctx c hc], fun c => (k.raised c).trans (h.raised c),
    fun i => (k.sram i).trans (h.sram i)⟩

theorem of_records (h : s.Records t) (k : s.Keeps t) : s.Drops t :=
  ⟨h.leases, k.1, h.raised, fun i => by rw [State.core, h.cores, State.core]⟩

theorem updPktNum (s : State) (n : Nat) (f : Pkt → Pkt) : s.Drops (s.updPktNum n f) := by
  refine ⟨rfl, fun _ _ => rfl, fun _ => rfl, fun k => ?_⟩
  have hmap : (s.updPktNum n f).core k
      = ((s.cores.get? k).map fun e => { e with pkts := updFirst (fun p => p.num == n) f e.pkts }).getD Core.blank :=
    congrArg (·.getD Core.blank) (Map.get?_map (fun e => { e with pkts := updFirst (fun p => p.num == n) f e.pkts }) _ _)
  rw [hmap, State.core]
  cases s.cores.get? k <;> rfl

theorem dropKick (s : State) (m : KickMsg) : s.Drops (s.dropKick m 0) := by
  have hfw (s : State) (ten cb core side kind b : Nat) : s.Drops (s.fwDrop ten cb core side kind b) := by
    unfold State.fwDrop
    exact of_records ((State.Records.setMg s (n := 0x09C2) _ (by decide)).trans (State.Records.event ..)) ((State.keeps_setMg ..).trans (State.keeps_event ..))
  have hif : s.Drops (if coreOf m.dest < numCores then s.fwDrop m.kick.ten (m.dest % 4) (coreOf m.dest) 0 1 0 else s) := by
    split
    · exact hfw ..
    · exact refl s
  exact hif.trans (updPktNum ..)

theorem foldl_dropKick (l : List KickMsg) (s : State) : s.Drops (l.foldl (fun s m => s.dropKick m 0) s) := by
  induction l generalizing s with
  | nil => exact refl s
  | cons m l ih => exact (dropKick s m).trans (ih _)

theorem setMg (s : State) (n : Nat) (v : W64) : s.Drops (s.setMg n v) := ⟨rfl, fun _ _ => rfl, fun _ => rfl, fun _ => rfl⟩

end State.Drops

/-- A context whose lease ends: its banks are zeroed, and it is EMPTY. -/
def State.endCtx (s : State) (c : CtxId) : State := (s.zeroBanks (coreOf c) ((s.ctx c).banks.map (·.bank))).setCtx c Ctx.blank

/-- The context is EMPTY, and the bank u zero. -/
def State.Ended (s : State) (c : CtxId) (u : BudBank) : Prop := s.ctx c = Ctx.blank ∧ (s.core (coreOf c)).sram.Clear (u.bank * 2 ^ 17) (2 ^ 17)

theorem State.clear_endCtx {s : State} {k : CoreId} {a n : Nat} (h : (s.core k).sram.Clear a n) (d : CtxId) : ((s.endCtx d).core k).sram.Clear a n := by
  rw [State.endCtx, State.core_setCtx]
  by_cases hk : k = coreOf d
  · rw [hk, State.core_zeroBanks_self]
    exact Core.clear_zeroBanks_mono (hk ▸ h) _
  · rw [State.core_zeroBanks_ne _ _ hk]
    exact h

theorem State.ctx_endCtx (s : State) (c d : CtxId) : (s.endCtx d).ctx c = if c = d then Ctx.blank else s.ctx c := by
  rw [State.endCtx]
  split
  · rename_i h
    rw [h, State.ctx_setCtx_self]
  · rename_i h
    rw [State.ctx_setCtx_ne _ _ h]
    rfl

theorem State.Ended.endCtx {s : State} {c : CtxId} {u : BudBank} (h : s.Ended c u) (d : CtxId) : (s.endCtx d).Ended c u := by
  refine ⟨?_, State.clear_endCtx h.2 d⟩
  rw [State.ctx_endCtx, h.1, ite_self]

theorem State.ended_endCtx {s : State} {c : CtxId} {u : BudBank} (hu : u ∈ (s.ctx c).banks) : (s.endCtx c).Ended c u := by
  refine ⟨by rw [State.ctx_endCtx, if_pos rfl], ?_⟩
  rw [State.endCtx, State.core_setCtx, State.core_zeroBanks_self]
  exact Core.clear_zeroBanks _ (List.mem_map_of_mem hu)

/-- The contexts of a lease that ends. -/
theorem State.ended_foldl {s : State} {l : List CtxId} {c : CtxId} {u : BudBank} (hc : c ∈ l) (hu : u ∈ (s.ctx c).banks) :
    (l.foldl State.endCtx s).Ended c u := by
  have hmono (l : List CtxId) {s : State} (h : s.Ended c u) : (l.foldl State.endCtx s).Ended c u := by
    induction l generalizing s with
    | nil => exact h
    | cons d l ih => exact ih (h.endCtx d)
  induction l generalizing s with
  | nil => exact absurd hc List.not_mem_nil
  | cons d l ih =>
    rw [List.foldl_cons]
    by_cases hd : c = d
    · exact hmono l (hd ▸ State.ended_endCtx (hd ▸ hu))
    · exact ih ((List.mem_cons.mp hc).resolve_left hd) (by rwa [State.ctx_endCtx, if_neg hd])

theorem State.ctx_foldl_endCtx (s : State) (l : List CtxId) (c : CtxId) : (l.foldl State.endCtx s).ctx c = if c ∈ l then Ctx.blank else s.ctx c := by
  induction l generalizing s with
  | nil => rfl
  | cons d l ih =>
    rw [List.foldl_cons, ih, State.ctx_endCtx]
    by_cases hd : c = d <;> by_cases hl : c ∈ l <;> simp [hd, hl]

/-- Destinations given up change no lease, and clear the waiting traps of their contexts. -/
theorem State.unreserveAll_leases (s : State) (m : Moving) : (s.unreserveAll m).leases = s.leases :=
  State.foldl_same State.leases (fun s p => by
    split
    · split <;> rfl
    · rfl) ..

theorem State.raised_unreserveAll {s : State} (h : ∀ c, (s.ctx c).raised = []) (m : Moving) (c : CtxId) : ((s.unreserveAll m).ctx c).raised = [] := by
  unfold State.unreserveAll
  generalize m.pairs = l
  induction l generalizing s with
  | nil => exact h c
  | cons p l ih =>
    rw [List.foldl_cons]
    refine ih fun c => ?_
    split
    · rename_i b _
      split
      · exact h c
      · by_cases hc : c = b
        · rw [hc, (s.givenUp_unreserve b).1]
          rfl
        · rw [State.unreserve, State.ctx_setCtx_ne _ _ hc]
          exact h c
    · exact h c

/-- Nothing of a freed lease is left. -/
theorem freeLease_frees {s t : State} {lid : Nat} {l : Lease} (hl : s.leases.get? lid = some l) (hr : ∀ c, (s.ctx c).raised = []) (ht : t = s.freeLease lid) :
    t.leases.get? lid = none ∧ (∀ e ∈ t.restores, e.1 ≠ lid) ∧ (∀ m ∈ t.acnMsgs, m.lid ≠ lid) ∧ (∀ m ∈ t.kickMsgs, m.dest ∉ l.ctxs)
      ∧ ∀ c ∈ l.ctxs, coreOf c < numCores → (∀ e ∈ s.leases, e.1 ≠ lid → c ∉ e.2.ctxs) → t.ctx c = Ctx.blank
        ∧ ∀ u ∈ (s.ctx c).banks, l.moving = none → ∀ o, o < 2 ^ 17 → (t.core (coreOf c)).sram.get (u.bank * 2 ^ 17 + o) = 0 := by
  obtain ⟨a, ha⟩ : ∃ a, a = (match l.moving with | some m => s.unreserveAll m | none => s) := ⟨_, rfl⟩
  obtain ⟨b, hb⟩ : ∃ b, b = (l.ctxs.filter (fun c => coreOf c < numCores)).foldl State.endCtx a := ⟨_, rfl⟩
  obtain ⟨d, hd⟩ : ∃ d, d = (b.kickMsgs.filter (fun m => l.ctxs.contains m.dest)).foldl (fun s m => s.dropKick m 0) b := ⟨_, rfl⟩
  obtain ⟨e, he⟩ : ∃ e, e = (if bits (d.mgv 0x09C3) 61 60 == 1 && bits (d.mgv 0x09C3) 30 0 == lid then d.setMg 0x09C3 (BitVec.ofNat 64 lid) else d) := ⟨_, rfl⟩
  have hfree : t = (({ e with
      leases := e.leases.erase lid
      restores := e.restores.filter (fun r => r.1 != lid)
      kickMsgs := e.kickMsgs.filter (fun m => !l.ctxs.contains m.dest)
      acnMsgs := e.acnMsgs.filter (fun m => m.lid != lid) } : State).mapChanged).giveTurns (s.heir lid l) := by
    rw [ht, State.freeLease]
    simp only [hl]
    rw [he, hd, hb, ha]
    rfl
  obtain ⟨r, hrec⟩ : ∃ r, r = (({ e with
      leases := e.leases.erase lid
      restores := e.restores.filter (fun r => r.1 != lid)
      kickMsgs := e.kickMsgs.filter (fun m => !l.ctxs.contains m.dest)
      acnMsgs := e.acnMsgs.filter (fun m => m.lid != lid) } : State).mapChanged) := ⟨_, rfl⟩
  rw [← hrec] at hfree
  have har : ∀ c, (a.ctx c).raised = [] := by
    rw [ha]
    split
    · exact State.raised_unreserveAll hr _
    · exact hr
  have hal : a.leases = s.leases := by
    rw [ha]
    split
    · exact s.unreserveAll_leases _
    · rfl
  have hbl : b.leases = a.leases := by
    rw [hb]
    exact State.foldl_same (f := State.endCtx) State.leases (fun _ _ => rfl) ..
  have hbr (c : CtxId) : (b.ctx c).raised = [] := by
    rw [hb, State.ctx_foldl_endCtx]
    split
    · rfl
    · exact har c
  have hbe : b.Drops e := by
    have hde : d.Drops e := by
      rw [he]
      split
      · exact State.Drops.setMg ..
      · exact State.Drops.refl d
    exact (hd ▸ State.Drops.foldl_dropKick ..).trans hde
  have hctx (c : CtxId) : r.ctx c = e.ctx c := by rw [hrec]; rfl
  have hturn : r.TurnsPass t := by
    rw [hfree]
    exact State.TurnsPass.giveTurns (fun c => by rw [hctx, hbe.raised, hbr]) _
  have hleases : r.leases = s.leases.erase lid := by
    rw [← hal, ← hbl, ← hbe.leases, hrec]
    rfl
  have hcores : t.cores = e.cores := by
    rw [hturn.eq, hrec]
    rfl
  refine ⟨?_, ?_, ?_, ?_, fun c hc hcore hother => ?_⟩
  · have hk := hturn.leases lid
    rwa [hleases, Map.get?_erase, if_pos rfl, Option.map_none, Option.map_eq_none_iff] at hk
  · rw [hturn.eq, hrec]
    exact fun m hm => by simpa using (List.mem_filter.mp hm).2
  · rw [hturn.eq, hrec]
    exact fun m hm => by simpa using (List.mem_filter.mp hm).2
  · rw [hturn.eq, hrec]
    exact fun m hm => by simpa using (List.mem_filter.mp hm).2
  · have hcl : c ∈ l.ctxs.filter (fun c => coreOf c < numCores) := List.mem_filter.mpr ⟨hc, by simpa using hcore⟩
    have hblank : b.ctx c = Ctx.blank := by rw [hb, State.ctx_foldl_endCtx, if_pos hcl]
    refine ⟨?_, fun u hu hm o ho => ?_⟩
    · have hunl : ∀ k m, r.leases.get? k = some m → c ∉ m.ctxs := by
        intro k m hk
        rw [hleases, Map.get?_erase] at hk
        split at hk
        · simp at hk
        · rename_i hne
          exact hother (k, m) (Map.mem_of_get? hk) hne
      rw [hturn.ctx c hunl, hctx, hbe.ctx c, hblank]
      rw [hblank]
      rintro ⟨_, _, _, _, hw⟩
      simp [Ctx.blank] at hw
    · have has : a = s := by rw [ha, hm]
      have hclear : (t.core (coreOf c)).sram.Clear (u.bank * 2 ^ 17) (2 ^ 17) := by
        rw [State.core, hcores, ← State.core, hbe.sram, hb]
        exact (State.ended_foldl hcl (has ▸ hu)).2
      exact hclear.get ho

/-! ### Completions and turns (R330, R373, R375, R412, R427) -/

/-- The access of a hub's unit leaves memory, the leases and their completions as they are. -/
theorem State.hubUse_same (s : State) (asid va pa n : Nat) (wr : Bool) :
    (s.hubUse asid va pa n wr).mem = s.mem ∧ (∀ x, (s.hubUse asid va pa n wr).devByte x = s.devByte x)
      ∧ (s.hubUse asid va pa n wr).finals = s.finals ∧ (s.hubUse asid va pa n wr).leases = s.leases
      ∧ (s.hubUse asid va pa n wr).reports = s.reports := by
  have hfill (e : Leaf) : s.Caches (s.fillTlb 0 hubCore asid e) := by
    unfold State.fillTlb
    simp only
    rw [if_neg (by decide)]
    exact .updDie ..
  have htlb : s.Caches (s.tlbUse hubCore 0 asid va) := by
    unfold State.tlbUse
    split
    · exact hfill _
    · split
      · split
        · exact .refl s
        · exact hfill _
      · exact .refl s
  have h : s.Caches (s.hubUse asid va pa n wr) := by
    unfold State.hubUse State.reach
    simp only
    split
    · exact htlb.trans (.l2Span ..)
    · exact htlb
  exact ⟨h.mem, h.devByte, (congrArg State.finals h).trans rfl, (congrArg State.leases h).trans rfl, (congrArg State.reports h).trans rfl⟩

theorem launchComplete_counts {s : State} {lid : Nat} {l : Lease} (hl : s.finals.get? lid = some l) (hp : l.parent = none) {pa : Nat}
    (hca : pkCA l.body ≠ 0) (h : s.HubOk 130 l.asid l.ten (bits (pkCA l.body) 55 0) 8 ⟨true, true⟩ pa) (hwf : s.mem.wf = true)
    (hk : memKey pa + 8 ≤ 2 ^ 40) :
    ∃ t, exec (.launchComplete lid) s = .next t ∧ s.DevWritten t pa (toBytes 8 (s.dev64 pa + 1).toNat) ∧ t.finals = s.finals.erase lid
      ∧ t.leases = s.leases ∧ t.reports = s.reports ++ (l.task.map (fun (b : Nat × Nat) => TaskRep.mk b.1 b.2 none)).toList := by
  obtain ⟨u, hu⟩ : ∃ u, u = (s.hubUse l.asid (bits (pkCA l.body) 55 0) pa 8 true).devWrite pa (toBytes 8 (s.dev64 pa + 1).toNat) := ⟨_, rfl⟩
  have hto : s.toComplete lid = some l := by rw [State.toComplete, hl]
  refine ⟨{ u with
    reports := u.reports ++ (l.task.map (fun (b : Nat × Nat) => TaskRep.mk b.1 b.2 none)).toList
    finals := u.finals.erase lid
    leases := if (u.finals.get? lid).isSome then u.leases else u.leases.set lid { l with ended := true } }, ?_, ?_⟩
  · rw [exec_launchComplete, execLaunchComplete]
    simp only [hto, hp]
    rw [if_neg (by simpa using hca), State.hubAt_ok h]
    simp only [← hu]
    cases l.task with
    | none => cases l.queue <;> simp
    | some b => rfl
  · obtain ⟨hmem, hbyte, hfin, hleases, hrep⟩ := s.hubUse_same l.asid (bits (pkCA l.body) 55 0) pa 8 true
    have hrec : (s.hubUse l.asid (bits (pkCA l.body) 55 0) pa 8 true).Records u := hu ▸ .devWrite ..
    have hlen : (toBytes 8 (s.dev64 pa + 1).toNat).length = 8 := rfl
    have hf : u.finals = s.finals := ((congrArg State.finals hrec.eq).trans rfl).trans hfin
    refine ⟨fun x => ?_, ?_, ?_, ?_⟩
    · rw [← hbyte x]
      have := (State.devByte_devWrite (hmem ▸ hwf) pa (toBytes 8 (s.dev64 pa + 1).toNat) (by rw [hlen]; exact hk) x).2
      rw [← hu] at this
      exact this
    · simp [hf]
    · simp [hf, hl, hrec.leases, hleases]
    · rw [show u.reports = s.reports from ((congrArg State.reports hrec.eq).trans rfl).trans hrep]

theorem launchComplete_without_counter {s : State} {lid : Nat} {l : Lease} (hl : s.finals.get? lid = some l) (hp : l.parent = none)
    (hca : pkCA l.body = 0) : exec (.launchComplete lid) s = .next { s with
      reports := s.reports ++ (l.task.map (fun (b : Nat × Nat) => TaskRep.mk b.1 b.2 none)).toList, finals := s.finals.erase lid } := by
  have hto : s.toComplete lid = some l := by rw [State.toComplete, hl]
  rw [exec_launchComplete, execLaunchComplete]
  simp only [hto, hp, hca]
  cases l.task with
  | none => cases l.queue <;> simp [hl]
  | some b => simp [hl]

/-- The completion of a live lease whose contexts have ended, with remote stores in flight. -/
theorem launchComplete_of_stores {s : State} {lid : Nat} {l : Lease} (hn : s.finals.get? lid = none) (hl : s.leases.get? lid = some l)
    (hs : l.started = true) (he : l.ended = false) (hk : l.killed = false) (hv : l.saved = []) (hb : l.body ≠ []) (hp : l.parent = none)
    (hca : pkCA l.body = 0) (hrs : ∃ c ∈ l.ctxs, (s.ctx c).rso ≠ 0)
    (hst : ∀ c ∈ l.ctxs, (s.ctx c).st = .empty ∨ ((s.ctx c).st = .stopped ∧ (s.ctx c).stop.1 = 0)) :
    ∃ t, exec (.launchComplete lid) s = .next t ∧ t.leases = s.leases.set lid { l with ended := true }
      ∧ t.reports = s.reports ++ (l.task.map (fun (b : Nat × Nat) => TaskRep.mk b.1 b.2 none)).toList ∧ ∀ c, t.ctx c = s.ctx c := by
  have hto : s.toComplete lid = some l := by
    have hany : l.ctxs.any (fun c => (s.ctx c).rso != 0) = true := by simpa using hrs
    have hall : l.ctxs.all (fun c => (s.ctx c).st == .empty || ((s.ctx c).st == .stopped && (s.ctx c).stop.1 == 0)) = true := by simpa using hst
    rw [State.toComplete, hn, hl]
    simp only [Option.filter_some, hs, he, hk, hv, hany, hall]
    simp [hb]
  refine ⟨{ s with
    reports := s.reports ++ (l.task.map (fun (b : Nat × Nat) => TaskRep.mk b.1 b.2 none)).toList
    finals := s.finals.erase lid
    leases := s.leases.set lid { l with ended := true } }, ?_, rfl, rfl, fun _ => rfl⟩
  rw [exec_launchComplete, execLaunchComplete]
  simp only [hto, hp, hca]
  cases l.task with
  | none => cases l.queue <;> simp [hn]
  | some b => simp [hn]

/-- A turn ends where its quantum has passed, its lease is idle, or it has yielded. -/
theorem execSchedulerTurnEnd_ends {s : State} {lid : Nat} {l : Lease} (hl : s.leases.get? lid = some l) (ht : l.turn = true)
    (h : s.time + 1 ≥ l.turnStart + l.quant
      ∨ (∀ c ∈ l.ctxs, ((s.ctx c).st ≠ .ready ∨ (s.ctx c).gated = true) ∧ (s.ctx c).cur.st ≠ .running)
      ∨ ((∃ c ∈ l.ctxs, (s.ctx c).yielded = true) ∧ ∀ c ∈ l.ctxs, (s.ctx c).st ≠ .ready ∨ (s.ctx c).yielded = true)) :
    exec (.schedulerTurnEnd lid) s = .next ((s.nextTurn lid).elim (s.setTurn lid true) fun k => (s.setTurn lid false).setTurn k true) := by
  have hpass : ¬(!l.turn || (s.time + 1 < l.turnStart + l.quant
      && !(l.ctxs.all (fun c => ((s.ctx c).st != .ready || (s.ctx c).gated) && (s.ctx c).cur.st != .running))
      && !(l.ctxs.any (fun c => (s.ctx c).yielded) && l.ctxs.all (fun c => (s.ctx c).st != .ready || (s.ctx c).yielded)))) = true := by
    rcases h with h | h | ⟨h1, h2⟩
    · simp only [ht]
      simp only [Bool.not_true, Bool.false_or, Bool.and_eq_true, decide_eq_true_eq]
      omega
    · have : l.ctxs.all (fun c => ((s.ctx c).st != .ready || (s.ctx c).gated) && (s.ctx c).cur.st != .running) = true := by simpa using h
      simp [ht, this]
    · have h1 : l.ctxs.any (fun c => (s.ctx c).yielded) = true := by simpa using h1
      have h2 : l.ctxs.all (fun c => (s.ctx c).st != .ready || (s.ctx c).yielded) = true := by simpa using h2
      simp [ht, h1, h2]
  rw [exec_schedulerTurnEnd, execSchedulerTurnEnd]
  simp only [hl]
  rw [if_neg hpass]
  cases s.nextTurn lid <;> rfl

theorem State.nextTurn_eq {s : State} {lid k : Nat} {n : Lease} {g : Map Lease} (hg : g = (s.group lid).filter (fun e => e.1 != lid))
    (h : g.find? (fun e => e.1 > lid) = some (k, n) ∨ (g.find? (fun e => e.1 > lid) = none ∧ g.head? = some (k, n))) :
    s.nextTurn lid = some k := by
  unfold State.nextTurn
  simp only [← hg]
  rcases h with h | ⟨h1, h2⟩
  · rw [h]
    rfl
  · rw [h1, h2]
    rfl

theorem Ctx.turned_off {x : Ctx} {now : Nat} (hs : x.st = .ready ∨ x.st = .waiting) (hg : x.gated = false) :
    x.turned false now = { x with gateReq := x.gateReq ||| 2#4, gateAt := if x.gateReq = 0 then now else x.gateAt } := by
  rcases hs with hs | hs <;> simp [Ctx.turned, hs, hg]

theorem Ctx.turned_on {x : Ctx} {now : Nat} (hd : x.doom = false) : x.turned true now = { x with
    yielded := false, gsrc := x.gsrc &&& 13#4, gateReq := x.gateReq &&& 13#4, gated := x.gated && x.gsrc &&& 13#4 != 0 } := by
  simp [Ctx.turned, hd]

/-- What a lease that gets or loses the turn is left with. -/
theorem setTurn_leaves {s : State} {lid : Nat} {l : Lease} (on : Bool) (hl : s.leases.get? lid = some l) (hn : l.ctxs.Nodup)
    (hr : ∀ d ∈ l.ctxs, (s.ctx d).raised = []) :
    (∃ k, (s.setTurn lid on).leases.get? lid = some k ∧ k.turn = on ∧ k.turnStart = s.time + 1 ∧ k.quant = l.quant)
      ∧ ∀ c ∈ l.ctxs, (s.setTurn lid on).ctx c = (s.ctx c).turned on s.time := by
  rw [State.setTurn_some hl]
  obtain ⟨u, hu⟩ : ∃ u, u = ({ s with leases := s.leases.set lid { l with turn := on, turnStart := s.time + 1 } } : State) := ⟨_, rfl⟩
  have hctx (c : CtxId) : u.ctx c = s.ctx c := by rw [hu]; rfl
  have htime : u.time = s.time := by rw [hu]
  have hr (d : CtxId) (hd : d ∈ l.ctxs) : (u.ctx d).raised = [] := by rw [hctx, hr d hd]
  rw [← hu]
  refine ⟨?_, fun c hc => by rw [State.ctx_turns_foldl on hn hr hc, hctx, htime]⟩
  have hk := (State.turns_foldl on hr).2 lid
  rw [show u.leases.get? lid = some { l with turn := on, turnStart := s.time + 1 } by rw [hu]; exact Map.get?_set_self ..] at hk
  obtain ⟨k, hk, he⟩ := Option.map_eq_some_iff.mp hk
  simp only [Lease.turnOf, Prod.mk.injEq] at he
  obtain ⟨-, hq, ht, hs⟩ := he
  exact ⟨k, hk, ht, hs, hq⟩

/-- Settles O43: the start, the end, the completion and the turns of leases, each by the lemma about its operation. -/
theorem launchedContextsStartAndComplete : Obligations.LaunchedContextsStartAndComplete := by
  unfold Obligations.LaunchedContextsStartAndComplete
  refine ⟨⟨?_, startCtx_values, fun s lid l f hl hf => ⟨fun q hp hq => ?_, fun hp => ?_⟩⟩,
    ⟨fun s lid l hl => ⟨State.leaseOver_of_busy hl, fun he hv => ⟨fun hs hn hk hb => ?_, fun h => ?_⟩⟩,
      fun s t lid l hl hr ht => freeLease_frees hl hr ht, fun s m p b hp hb hd => s.givenUp_unreserveAll m hp hb hd,
      fun s q idx f hasAddr => ⟨fun asid va => rfl, rfl⟩⟩,
    ⟨fun s lid l hl hp => ⟨launchComplete_without_counter hl hp, fun pa hca h hwf hk => launchComplete_counts hl hp hca h hwf hk⟩,
      fun s lid l hn hl hs he hk hv hb hp hca hrs hst => launchComplete_of_stores hn hl hs he hk hv hb hp hca hrs hst⟩,
    ⟨fun s lid l hl ht h g hg => ⟨fun hnil => ?_, fun k n hk => ?_⟩, fun s lid l hl ht => ?_, fun s lid l on hl hn hr => ?_⟩⟩
  · rintro s lid l pt pd text data hl hs hf hm hv hb ht hd rfl rfl
    exact execLaunchImagePlaced_starts hl hs hf hm hv hb ht hd
  · rw [exec_launchFault, execLaunchFault]
    simp only [hl, hf, hp, hq]
  · rw [exec_launchFault, execLaunchFault]
    simp only [hl, hf]
    cases hpar : l.parent with
    | none => exact absurd hpar hp
    | some _ => rfl
  · rw [State.leaseOver_of_empty hl he hv (.inl hs), if_neg (by simp [hn, hk, hb])]
  · rw [State.leaseOver_of_empty hl he hv (by tauto), if_pos (by rcases h with h | ⟨-, h⟩ <;> simp [h])]
  · have hnone : s.nextTurn lid = none := by
      unfold State.nextTurn
      simp only [← hg, hnil]
      rfl
    rw [execSchedulerTurnEnd_ends hl ht h, hnone]
    rfl
  · rw [execSchedulerTurnEnd_ends hl ht h, State.nextTurn_eq hg hk]
    rfl
  · rw [exec_schedulerTurnEnd, execSchedulerTurnEnd]
    simp [hl, ht]
  · obtain ⟨hlease, hctx⟩ := setTurn_leaves on hl hn hr
    refine ⟨hlease, fun c hc => ⟨fun hon hst hg => ?_, fun hon hd => ?_⟩⟩
    · rw [hctx c hc, hon, Ctx.turned_off hst hg]
    · rw [hctx c hc, hon, Ctx.turned_on hd]

end Sys2Proof.Machine

/-! Properties of contexts that every step keeps, in general: what such a property must allow, and the state's own operations. -/

namespace Sys2Proof.Machine

/-- What an operation is known by: its number, its class and the register that it writes (R17, R21, R69). -/
def MemOp.key (o : MemOp) : Nat × Bool × BitVec 5 := (o.id, o.isStore, o.dst)

/-- A channel queue keeps within its part and its ring (R263, R264): what QueuesFit says of each bank. -/
def ChanQ.Fits (q : ChanQ) : Prop := q.part.length ≤ 32768 ∧ q.h ≤ q.t ∧ q.t < q.h + q.rs + 4 ∧ q.t = q.h + 4 * (q.ring.length + q.held.length)

/-- A channel queue without elements is in order. -/
theorem ChanQ.Fits.of_empty {q : ChanQ} (hp : q.part = []) (hh : q.held = []) (hr : q.ring = []) (ht : q.t = q.h) : q.Fits := by
  refine ⟨?_, ?_, ?_, ?_⟩ <;> simp [hp, hh, hr, ht]
  omega

/-- Context y has the counted operations of x, and its windows and channel queues are in order if those of x are. -/
structure Ctx.SameWork (x y : Ctx) : Prop where
  ops : y.ops = x.ops
  opN : y.opN = x.opN
  tlq : y.tlq = x.tlq
  cpq : y.cpq = x.cpq
  joins : x.WindowsHold → y.WindowsHold
  banks : x.QueuesFit → y.QueuesFit

/-- A wait for the slot of a CQ.SUB (R348). -/
def Wait.forSlot : Option Wait → Prop
  | some (.cqSub _ _) => True
  | _ => False

/-- A property of contexts that the changes keep which a step makes in a context's counted operations, waits, channel queues and join table. -/
structure CtxInv where
  Ok : Ctx → Prop
  blank : Ok Ctx.blank
  /-- a change of what is not counted; a wait may begin or end, but none for the slot of a CQ.SUB begins -/
  edit {x y : Ctx} : x.SameWork y → y.wait = x.wait ∨ ¬Wait.forSlot y.wait → Ok x → Ok y
  /-- the wait of a CQ.SUB begins or goes on -/
  slot {x : Ctx} (d : BitVec 5) (k : Option Nat) : x.ops = [] ∨ Wait.forSlot x.wait → Ok x → Ok { x with wait := some (.cqSub d k) }
  /-- the wait of a CQ.SUB ends with the write of its slot -/
  claim {x : Ctx} (d : BitVec 5) (b : OpBody) : Wait.forSlot x.wait → Ok x → Ok ({ x with st := .ready, wait := none }.pushOp true d b)
  /-- an operation is counted in, its class being below 31 and its destination not pending -/
  push {x : Ctx} {isStore : Bool} {d : BitVec 5} (b : OpBody) : x.wait = none → (isStore = true → x.cntSt < 31) → (isStore = false → x.cntLd < 31) →
    x.pends d = false → Ok x → Ok (x.pushOp isStore d b)
  /-- operations are marked or counted out -/
  shrinkOps {x : Ctx} {l : List MemOp} : (l.map MemOp.key).Sublist (x.ops.map MemOp.key) → Ok x → Ok { x with ops := l }
  pushTl {x : Ctx} (o : TlOp) : x.cntTl < 31 → Ok x → Ok { x with tlq := x.tlq ++ [o] }
  shrinkTl {x : Ctx} {l : List TlOp} : l.length ≤ x.tlq.length → Ok x → Ok { x with tlq := l }
  pushCp {x : Ctx} (o : CpOp) : x.cntCp < 31 → Ok x → Ok { x with cpq := x.cpq ++ [o] }
  shrinkCp {x : Ctx} {l : List CpOp} : l.length ≤ x.cpq.length → Ok x → Ok { x with cpq := l }

/-- The property holds of every context of s: of the context banks, and of those that evicted leases have saved. -/
def State.Every (s : State) (I : CtxInv) : Prop := s.AllCtx I.Ok

/-- It holds of every context that a lease has saved. -/
def Lease.Every (l : Lease) (I : CtxInv) : Prop := ∀ v ∈ l.saved, I.Ok v.ctx

section
variable {I : CtxInv} {s t : State} {x y : Ctx} {l : Lease} {c : CtxId} {lid : Nat}

/-! ### Contexts -/

/-- What SameWork speaks of. -/
def Ctx.work (x : Ctx) : List MemOp × Nat × List TlOp × List CpOp × List JoinSlot × List BudBank := (x.ops, x.opN, x.tlq, x.cpq, x.joins, x.banks)

theorem Ctx.SameWork.of_work (h : y.work = x.work) : x.SameWork y := by
  simp only [Ctx.work, Prod.mk.injEq] at h
  obtain ⟨h1, h2, h3, h4, h5, h6⟩ := h
  exact ⟨h1, h2, h3, h4, fun hj j hm => hj j (h5 ▸ hm), fun hq b hb => hq b (h6 ▸ hb)⟩

/-- Nothing that is counted, no queue and no wait has changed. -/
theorem CtxInv.Ok.record (h : I.Ok x) (hwork : y.work = x.work) (hwait : y.wait = x.wait) : I.Ok y := I.edit (.of_work hwork) (.inl hwait) h

/-- A wait has begun or ended, none for a slot begins, and nothing that is counted has changed. -/
theorem CtxInv.Ok.waits (h : I.Ok x) (hwork : y.work = x.work) (hwait : ¬Wait.forSlot y.wait) : I.Ok y := I.edit (.of_work hwork) (.inr hwait) h

/-- The banks have changed, their channel queues still in order. -/
theorem CtxInv.Ok.banks (h : I.Ok x) (hc : (y.ops, y.opN, y.tlq, y.cpq, y.joins) = (x.ops, x.opN, x.tlq, x.cpq, x.joins)) (hwait : y.wait = x.wait)
    (hq : x.QueuesFit → y.QueuesFit) : I.Ok y := by
  simp only [Prod.mk.injEq] at hc
  obtain ⟨h1, h2, h3, h4, h5⟩ := hc
  exact I.edit ⟨h1, h2, h3, h4, fun hj j hm => hj j (h5 ▸ hm), hq⟩ (.inl hwait) h

/-! ### Leases -/

/-- The same contexts are saved. -/
theorem Lease.Every.record {k : Lease} (h : l.Every I) (hk : k.saved = l.saved) : k.Every I := fun v hv => h v (hk ▸ hv)

theorem Lease.Every.unsaved (h : l.saved = []) : l.Every I := fun _ hv => absurd (h ▸ hv) List.not_mem_nil

/-! ### States -/

theorem State.Every.ctx (h : s.Every I) : I.Ok (s.ctx c) := by
  unfold State.ctx
  cases hc : s.ctxs.get? c with
  | none => exact I.blank
  | some x => exact h.1 _ (Map.mem_of_get? hc)

theorem State.Every.lease (h : s.Every I) (hl : s.leases.get? lid = some l) : l.Every I := h.2 _ (Map.mem_of_get? hl)

/-- Equal contexts and leases. -/
theorem State.Every.of_eq (h : s.Every I) (hc : t.ctxs = s.ctxs) (hl : t.leases = s.leases) : t.Every I :=
  ⟨fun e he => h.1 e (hc ▸ he), fun e he => h.2 e (hl ▸ he)⟩

/-- No contexts any more, and the same leases. -/
theorem State.Every.noCtxs (h : s.Every I) (hc : t.ctxs = []) (hl : t.leases = s.leases) : t.Every I :=
  ⟨fun _ he => absurd (hc ▸ he) List.not_mem_nil, fun e he => h.2 e (hl ▸ he)⟩

/-- A record of the state that keeps the contexts and leases of s. -/
theorem State.Every.record {agenda : List (Nat × Move)} {cur : CtxId} {free time : Nat} {cores : Map Core} {dies : Map Die} {mem : Mem}
    {unspec : List (Nat × Nat × Nat)} {hbmPoison : List Nat} {hdrs : Map Nat} {turns : Map (Nat × Nat)} {hbm : List HbmBlock}
    {barWaiters : List (Nat × CtxId)} {dreqs : List DReq} {dreqN : Nat} {flits : List Flit} {ports : Map PortArb} {acnMsgs : List AcnMsg}
    {mg : Map W64} {mgLast : Map (Nat × List (CtxId × W64))} {recs : Nat × List RingRec} {msix : Map MsixVec} {vfHead : Map Nat} {vfs : List Nat}
    {spawns : List SpawnReq} {ostN mapAt : Nat} {finals : Map Lease} {lost spilled : List (Nat × Nat × Nat)} {rstores : List RStore} {pktN : Nat}
    {kickMsgs : List KickMsg} {pullAcks : List PullAck} {mcasts : Map (List Byte)} {queues : Map QState} {walker : List TaskBlk}
    {killedSlots : List (Nat × Nat × Nat)} {reports : List TaskRep} {stats : List TaskBlk} {ost : Option Nat} {lastLid : Nat}
    {compact : Option Compact} {restores : List (Nat × Nat)} {hubQ : List HubReq} {resets : Map Nat} {tdis : Map Tdi} {vfCfg : Map Byte}
    {jex ucie : Map Nat} {dead : List DeadLink} {reply : Reply} {hot : List Nat} {off link : Bool} {frac : Map Rat} {clkBase : Nat × Rat}
    {intervals : Nat} {events : Map Nat} {dutyNext : Map (Nat × Nat)} {spent : Map Nat} {budgetQ : List BudReq} {keys : Map Nat}
    {meas : Map (BitVec 512)} {session : Bool} {ideKeys : List Nat} {fuse : BitVec 512 × Nat} (h : s.Every I) :
    ({ s with
      agenda := agenda, cur := cur, free := free, time := time, cores := cores, dies := dies, mem := mem, unspec := unspec,
      hbmPoison := hbmPoison, hdrs := hdrs, turns := turns, hbm := hbm, barWaiters := barWaiters, dreqs := dreqs, dreqN := dreqN, flits := flits,
      ports := ports, acnMsgs := acnMsgs, mg := mg, mgLast := mgLast, recs := recs, msix := msix, vfHead := vfHead, vfs := vfs, spawns := spawns,
      ostN := ostN, mapAt := mapAt, finals := finals, lost := lost, spilled := spilled, rstores := rstores, pktN := pktN, kickMsgs := kickMsgs,
      pullAcks := pullAcks, mcasts := mcasts, queues := queues, walker := walker, killedSlots := killedSlots, reports := reports, stats := stats,
      ost := ost, lastLid := lastLid, compact := compact, restores := restores, hubQ := hubQ, resets := resets, tdis := tdis, vfCfg := vfCfg,
      jex := jex, ucie := ucie, dead := dead, reply := reply, hot := hot, off := off, link := link, frac := frac, clkBase := clkBase,
      intervals := intervals, events := events, dutyNext := dutyNext, spent := spent, budgetQ := budgetQ, keys := keys, meas := meas,
      session := session, ideKeys := ideKeys, fuse := fuse } : State).Every I :=
  h.of_eq rfl rfl

theorem State.Every.setCtx (h : s.Every I) (hx : I.Ok x) : (s.setCtx c x).Every I :=
  ⟨fun _ he => (Map.mem_set he).elim (fun e => e ▸ hx) (h.1 _), h.2⟩

theorem State.Every.updCtx {f : Ctx → Ctx} (h : s.Every I) (hf : I.Ok (s.ctx c) → I.Ok (f (s.ctx c))) : (s.updCtx c f).Every I :=
  h.setCtx (hf h.ctx)

theorem State.Every.setLeases {m : Map Lease} (h : s.Every I) (hm : ∀ e ∈ m, e.2.Every I) : ({ s with leases := m } : State).Every I :=
  ⟨h.1, hm⟩

theorem State.Every.putLease (h : s.Every I) (hl : l.Every I) : (s.putLease lid l).Every I :=
  h.setLeases fun e he => (Map.mem_set he).elim (fun e => e ▸ hl) (h.2 e)

theorem State.Every.eraseLease (h : s.Every I) : ({ s with leases := s.leases.erase lid } : State).Every I :=
  h.setLeases fun _ he => h.2 _ (Map.mem_of_mem_erase he)

theorem State.Every.ite {p : Prop} [Decidable p] (hs : s.Every I) (ht : t.Every I) : (if p then s else t).Every I := by
  split <;> assumption

theorem State.Every.foldl {α : Type} {f : State → α → State} {l : List α} (hf : ∀ (s : State) (a : α), s.Every I → (f s a).Every I) (h : s.Every I) :
    (l.foldl f s).Every I := by
  induction l generalizing s with
  | nil => exact h
  | cons a l ih => exact ih (hf s a h)

theorem State.Every.fst {α : Type} {r : State × α} {a : α} (h : r.1.Every I) (hr : r = (t, a)) : t.Every I := by
  subst hr
  exact h

theorem State.Every.snd {α : Type} {r : α × State} {a : α} (h : r.2.Every I) (hr : r = (a, t)) : t.Every I := by
  subst hr
  exact h

end

end Sys2Proof.Machine

namespace Sys2Proof.Machine

/-! ### What a context's own operations keep -/

theorem updFirst_map {α β : Type} (p : α → Bool) {f : α → α} (g : α → β) (hf : ∀ a, g (f a) = g a) (l : List α) :
    (updFirst p f l).map g = l.map g := by
  induction l with
  | nil => rfl
  | cons a l ih =>
    rw [updFirst]
    split
    · simp [hf]
    · simp [ih]

theorem length_updFirst {α : Type} (p : α → Bool) (f : α → α) (l : List α) : (updFirst p f l).length = l.length := by
  simpa using congrArg List.length (updFirst_map p (fun _ => ()) (fun _ => rfl) l (f := f))

theorem sweepOps_sublist (st : Bool) (l : List MemOp) : (sweepOps st l).Sublist l := by
  induction l with
  | nil => exact .slnil
  | cons o l ih =>
    rw [sweepOps]
    split
    · split
      · exact ih.cons o
      · exact List.Sublist.refl _
    · exact ih.cons_cons o

theorem length_sweepTl (l : List TlOp) : (sweepTl l).length ≤ l.length := by
  induction l with
  | nil => exact le_rfl
  | cons o l ih =>
    rw [sweepTl]
    split
    · exact ih.trans (Nat.le_succ _)
    · exact le_rfl

theorem length_sweepCp (l : List CpOp) : (sweepCp l).length ≤ l.length := by
  induction l with
  | nil => exact le_rfl
  | cons o l ih =>
    rw [sweepCp]
    split
    · exact ih.trans (Nat.le_succ _)
    · exact le_rfl

theorem mem_modAt {α : Type} {f : α → α} {l : List α} {k : Nat} {b : α} (h : b ∈ modAt f l k) : b ∈ l ∨ ∃ a, l[k]? = some a ∧ b = f a := by
  induction l generalizing k with
  | nil => exact absurd h List.not_mem_nil
  | cons a l ih =>
    cases k with
    | zero =>
      obtain rfl | h := List.mem_cons.mp h
      · exact .inr ⟨a, rfl, rfl⟩
      · exact .inl (.tail _ h)
    | succ k =>
      obtain rfl | h := List.mem_cons.mp h
      · exact .inl (.head _)
      · exact (ih h).imp (.tail _) id

namespace CtxInv.Ok
variable {I : CtxInv} {x : Ctx}

theorem setReg {i : BitVec 5} {v : W64} (h : I.Ok x) : I.Ok (x.setReg i v) := by
  unfold Ctx.setReg
  split
  · exact h
  · exact record h rfl rfl

theorem setPred {i : BitVec 3} {b : Bool} (h : I.Ok x) : I.Ok (x.setPred i b) := by
  unfold Ctx.setPred
  split
  · exact h
  · exact record h rfl rfl

theorem advance (h : I.Ok x) : I.Ok x.advance := record h rfl rfl

theorem addFlags {t : Nat} {fl : W32} (h : I.Ok x) : I.Ok (x.addFlags t fl) := by
  unfold Ctx.addFlags
  split
  · exact h
  · exact record h rfl rfl

theorem takeFlags {t : Nat} (h : I.Ok x) : I.Ok (x.takeFlags t).2 := by
  rw [Ctx.takeFlags_eq]
  exact record h rfl rfl

theorem setSreg {n : BitVec 4} {v : W64} (h : I.Ok x) : I.Ok (x.setSreg n v) := by
  unfold Ctx.setSreg
  split
  · exact record h rfl rfl
  · exact record h rfl rfl
  · exact record h rfl rfl
  · exact h

theorem enter {t : Trap} (h : I.Ok x) : I.Ok (x.enter t) := waits h rfl id

theorem grant {d : BitVec 5} {v : W64} (h : I.Ok x) : I.Ok (x.grant d v) := record (setReg h) rfl rfl

theorem recv {d : BitVec 5} {y : Ctx} (h : I.Ok x) (hy : x.recv d = some y) : I.Ok y := by
  unfold Ctx.recv at hy
  split at hy
  · split at hy
    · cases hy
      exact record (setReg h) rfl rfl
    · cases hy
  · cases hy

theorem nearWrite {pa : Nat} {bs : List Byte} (h : I.Ok x) : I.Ok (x.nearWrite pa bs) := record h rfl rfl

theorem nearFill {b : NearBlk} (h : I.Ok x) : I.Ok (x.nearFill b) := record h rfl rfl

theorem acquire {scope : Nat} (h : I.Ok x) : I.Ok (x.acquire scope) := by
  unfold Ctx.acquire
  split
  · exact record h rfl rfl
  · exact h

theorem dropPages {sel asid va : Nat} (h : I.Ok x) : I.Ok (x.dropPages sel asid va) := by
  unfold Ctx.dropPages
  split
  · exact h
  · exact record h rfl rfl

/-- A slot of the join table changed, its window still made up. -/
theorem setJoin {i : Nat} {v : JoinSlot} (h : I.Ok x) (hv : (x.join i).credits + (x.join i).out = (x.join i).w → v.credits + v.out = v.w) :
    I.Ok (x.setJoin i v) := by
  refine I.edit (x := x) ⟨rfl, rfl, rfl, rfl, fun hj j hm => ?_, id⟩ (.inl rfl) h
  have hslot (n : Nat) : (x.join n).credits + (x.join n).out = (x.join n).w := by
    unfold Ctx.join
    cases hn : x.joins[n]? with
    | none => rfl
    | some j => exact hj j (List.mem_of_getElem? hn)
  obtain ⟨n, -, rfl⟩ := List.mem_map.mp hm
  split
  · exact hv (hslot i)
  · exact hslot n

/-- A bank changed, its channel queue still in order. -/
theorem updBank {k : Nat} {f : BudBank → BudBank} (h : I.Ok x) (hf : ∀ b, x.bank? k = some b → b.q.Fits → (f b).q.Fits) :
    I.Ok { x with banks := modAt f x.banks k } := by
  refine I.edit (x := x) ⟨rfl, rfl, rfl, rfl, id, fun hq b hb => ?_⟩ (.inl rfl) h
  obtain ha | ⟨a, ha, rfl⟩ := mem_modAt hb
  · exact hq b ha
  · exact hf a ha (hq a (List.mem_of_getElem? ha))

/-- An outstanding operation changed in what it is not known by. -/
theorem updOp {p : MemOp → Bool} {f : MemOp → MemOp} (h : I.Ok x) (hf : ∀ o, (f o).key = o.key) : I.Ok { x with ops := updFirst p f x.ops } :=
  I.shrinkOps (updFirst_map p MemOp.key hf x.ops ▸ List.Sublist.refl _) h

theorem finishOp {id : Nat} (h : I.Ok x) : I.Ok (x.finishOp id) := by
  refine I.shrinkOps ?_ h
  rw [← updFirst_map (fun o => o.id == id) MemOp.key (f := fun o => { o with done := true }) (fun _ => rfl) x.ops]
  exact ((sweepOps_sublist true _).trans (sweepOps_sublist false _)).map _

theorem finishTl {id : Nat} (h : I.Ok x) : I.Ok (x.finishTl id) :=
  I.shrinkTl ((length_sweepTl _).trans (length_updFirst ..).le) h

theorem cpDone {seq : Nat} {f : Option PFault} (h : I.Ok x) : I.Ok (x.cpDone seq f) := by
  have hc : I.Ok { x with cpq := sweepCp (updFirst (fun o => o.seq == seq) (fun o => { o with done := true }) x.cpq) } :=
    I.shrinkCp ((length_sweepCp _).trans (length_updFirst ..).le) h
  unfold Ctx.cpDone
  split
  · dsimp only
    split
    · exact hc
    · exact record hc rfl rfl
  · exact hc

theorem submit (h : I.Ok x) (hc : x.cntCp < 31) : I.Ok x.submit := record (I.pushCp _ hc h) rfl rfl

/-- An operation is counted in. -/
theorem pushOp {isStore : Bool} {d : BitVec 5} {b : OpBody} (h : I.Ok x) (hw : x.wait = none) (hst : isStore = true → x.cntSt < 31)
    (hld : isStore = false → x.cntLd < 31) (hp : x.pends d = false) : I.Ok (x.pushOp isStore d b) := I.push b hw hst hld hp h

/-- A load or an atomic is counted in. -/
theorem pushLoad {d : BitVec 5} {b : OpBody} (h : I.Ok x) (hw : x.wait = none) (hh : x.pends d = false ∧ x.cntLd < 31) : I.Ok (x.pushOp false d b) :=
  I.push b hw nofun (fun _ => hh.2) hh.1 h

/-- A store is counted in. -/
theorem pushStore {b : OpBody} (h : I.Ok x) (hw : x.wait = none) (hc : x.cntSt < 31) : I.Ok (x.pushOp true 0 b) :=
  I.push b hw (fun _ => hc) nofun rfl h

/-- A barrier's answer reaches the contexts that wait at its line (R301). -/
theorem released {y : Ctx} (h : I.Ok x) (hwork : y.work = x.work) (hwait : Wait.forSlot y.wait → y.wait = x.wait) : I.Ok y := by
  by_cases hs : Wait.forSlot y.wait
  · exact record h hwork (hwait hs)
  · exact waits h hwork hs

end CtxInv.Ok

/-! ### What a word's hold rules out -/

theorem Ctx.free_of_not_held {x : Ctx} {d : BitVec 5} (h : (x.pends d || decide (x.cntLd ≥ 31)) = false) : x.pends d = false ∧ x.cntLd < 31 := by
  simpa using h

theorem Ctx.free_of_no_loads {x : Ctx} {d : BitVec 5} (hp : x.pends d = false) (hld : (x.cntLd != 0) = false) : x.pends d = false ∧ x.cntLd < 31 := by
  rw [bne_eq_false_iff_eq] at hld
  exact ⟨hp, hld ▸ by decide⟩

theorem Ctx.ops_eq_nil {x : Ctx} (hld : (x.cntLd != 0) = false) (hst : (x.cntSt != 0) = false) : x.ops = [] := by
  simp only [Ctx.cntLd, Ctx.cntSt, bne_eq_false_iff_eq, List.length_eq_zero_iff, List.filter_eq_nil_iff] at hld hst
  refine List.eq_nil_iff_forall_not_mem.mpr fun o ho => ?_
  have := hld o ho
  have := hst o ho
  simp_all

end Sys2Proof.Machine

/-! Properties of contexts that every step keeps: the results that carry a state. -/

namespace Sys2Proof.Machine

/-- The property holds in the state that a translation leaves. -/
def SeqX.Every : SeqX → CtxInv → Prop
  | .ok _, _ => True
  | .hold s, I => s.Every I
  | .fault s _, I => s.Every I

/-- The same of the read of an image. -/
def ImgRead.Every : ImgRead → CtxInv → Prop
  | .ok _, _ => True
  | .hold s, I => s.Every I
  | .fault s _, I => s.Every I

/-- The same of the place of an address in a packet. -/
def PlaceRes.Every : PlaceRes → CtxInv → Prop
  | .ok _, _ => True
  | .hold s, I => s.Every I
  | .bad s _, I => s.Every I

/-- The same of a run of a copy engine. -/
def CeRun.Every : CeRun → CtxInv → Prop
  | .ok _, _ => True
  | .hold s, I => s.Every I
  | .bad s _, I => s.Every I

/-- The same of the end of a packet. -/
def CeAdd.Every : CeAdd → CtxInv → Prop
  | .held s, I => s.Every I
  | .made s _, I => s.Every I

/-- The same of a look at a queue. -/
def QPeek.Every : QPeek → CtxInv → Prop
  | .idle, _ => True
  | .hold s, I => s.Every I
  | .bad s, I => s.Every I
  | .ready _ _ _ _, _ => True

/-- The same of arming a task block. -/
def ArmRes.Every : ArmRes → CtxInv → Prop
  | .ok s, I => s.Every I
  | .hold s, I => s.Every I
  | .state _, _ => True
  | .fault s _, I => s.Every I

/-- The same of the intake of a packet. -/
def Intake.Every : Intake → CtxInv → Prop
  | .none, _ => True
  | .aside s, I => s.Every I
  | .took s, I => s.Every I

/-- The same of an access of the host. -/
def Aper.Every : Aper → CtxInv → Prop
  | .out s, I => s.Every I
  | .hold s, I => s.Every I
  | .go _ _ _ s, I => s.Every I

/-- An outcome is a next state in which the property holds. -/
def Out.Leads : Out → CtxInv → Prop
  | .next t, I => t.Every I
  | _, _ => False

/-- The same of a context that was given its turn. -/
def Try.Every : Try → CtxInv → Prop
  | .no, _ => True
  | .held s, I => s.Every I
  | .done o, I => Out.Leads o I

/-- What a computation leaves, an error or a value, has the property of its kind. -/
def Leaves {ε α : Type} (p : ε → Prop) (q : α → Prop) : Except ε α → Prop
  | .error e => p e
  | .ok a => q a

theorem Out.leads_iff {o : Out} {I : CtxInv} : Out.Leads o I ↔ ∃ t, o = .next t ∧ t.Every I := by
  cases o with
  | next t => exact ⟨fun h => ⟨t, rfl, h⟩, fun ⟨_, ht, h⟩ => by cases ht; exact h⟩
  | fault r => exact ⟨False.elim, fun ⟨_, ht, _⟩ => nomatch ht⟩
  | refused r => exact ⟨False.elim, fun ⟨_, ht, _⟩ => nomatch ht⟩

section
variable {I : CtxInv} {t : State}

theorem SeqX.Every.hold {r : SeqX} (h : r.Every I) (hr : r = .hold t) : t.Every I := by
  subst hr
  exact h

theorem SeqX.Every.fault {r : SeqX} {b : Trap} (h : r.Every I) (hr : r = .fault t b) : t.Every I := by
  subst hr
  exact h

theorem ImgRead.Every.hold {r : ImgRead} (h : r.Every I) (hr : r = .hold t) : t.Every I := by
  subst hr
  exact h

theorem ImgRead.Every.fault {r : ImgRead} {b : Trap} (h : r.Every I) (hr : r = .fault t b) : t.Every I := by
  subst hr
  exact h

theorem PlaceRes.Every.hold {r : PlaceRes} (h : r.Every I) (hr : r = .hold t) : t.Every I := by
  subst hr
  exact h

theorem PlaceRes.Every.bad {r : PlaceRes} {b : PFault} (h : r.Every I) (hr : r = .bad t b) : t.Every I := by
  subst hr
  exact h

theorem CeRun.Every.hold {r : CeRun} (h : r.Every I) (hr : r = .hold t) : t.Every I := by
  subst hr
  exact h

theorem CeRun.Every.bad {r : CeRun} {b : PFault} (h : r.Every I) (hr : r = .bad t b) : t.Every I := by
  subst hr
  exact h

theorem CeAdd.Every.held {r : CeAdd} (h : r.Every I) (hr : r = .held t) : t.Every I := by
  subst hr
  exact h

theorem CeAdd.Every.made {r : CeAdd} {b : Option PFault} (h : r.Every I) (hr : r = .made t b) : t.Every I := by
  subst hr
  exact h

theorem QPeek.Every.hold {r : QPeek} (h : r.Every I) (hr : r = .hold t) : t.Every I := by
  subst hr
  exact h

theorem QPeek.Every.bad {r : QPeek} (h : r.Every I) (hr : r = .bad t) : t.Every I := by
  subst hr
  exact h

theorem ArmRes.Every.ok {r : ArmRes} (h : r.Every I) (hr : r = .ok t) : t.Every I := by
  subst hr
  exact h

theorem ArmRes.Every.hold {r : ArmRes} (h : r.Every I) (hr : r = .hold t) : t.Every I := by
  subst hr
  exact h

theorem ArmRes.Every.fault {r : ArmRes} {b : Trap} (h : r.Every I) (hr : r = .fault t b) : t.Every I := by
  subst hr
  exact h

theorem Intake.Every.aside {r : Intake} (h : r.Every I) (hr : r = .aside t) : t.Every I := by
  subst hr
  exact h

theorem Intake.Every.took {r : Intake} (h : r.Every I) (hr : r = .took t) : t.Every I := by
  subst hr
  exact h

theorem Aper.Every.out {r : Aper} (h : r.Every I) (hr : r = .out t) : t.Every I := by
  subst hr
  exact h

theorem Aper.Every.hold {r : Aper} (h : r.Every I) (hr : r = .hold t) : t.Every I := by
  subst hr
  exact h

theorem Aper.Every.go {r : Aper} {a : Nat} {b : Nat} {c : Nat} (h : r.Every I) (hr : r = .go a b c t) : t.Every I := by
  subst hr
  exact h

theorem CeAdd.Every.ite {p : Prop} [Decidable p] {a b : CeAdd} (ha : a.Every I) (hb : b.Every I) : (if p then a else b).Every I := by
  split <;> assumption

theorem SeqX.Every.ite {p : Prop} [Decidable p] {a b : SeqX} (ha : a.Every I) (hb : b.Every I) : (if p then a else b).Every I := by
  split <;> assumption

theorem ImgRead.Every.ite {p : Prop} [Decidable p] {a b : ImgRead} (ha : a.Every I) (hb : b.Every I) : (if p then a else b).Every I := by
  split <;> assumption

theorem PlaceRes.Every.ite {p : Prop} [Decidable p] {a b : PlaceRes} (ha : a.Every I) (hb : b.Every I) : (if p then a else b).Every I := by
  split <;> assumption

theorem CeRun.Every.ite {p : Prop} [Decidable p] {a b : CeRun} (ha : a.Every I) (hb : b.Every I) : (if p then a else b).Every I := by
  split <;> assumption

theorem QPeek.Every.ite {p : Prop} [Decidable p] {a b : QPeek} (ha : a.Every I) (hb : b.Every I) : (if p then a else b).Every I := by
  split <;> assumption

theorem ArmRes.Every.ite {p : Prop} [Decidable p] {a b : ArmRes} (ha : a.Every I) (hb : b.Every I) : (if p then a else b).Every I := by
  split <;> assumption

theorem Intake.Every.ite {p : Prop} [Decidable p] {a b : Intake} (ha : a.Every I) (hb : b.Every I) : (if p then a else b).Every I := by
  split <;> assumption

theorem Aper.Every.ite {p : Prop} [Decidable p] {a b : Aper} (ha : a.Every I) (hb : b.Every I) : (if p then a else b).Every I := by
  split <;> assumption

theorem Try.Every.ite {p : Prop} [Decidable p] {a b : Try} (ha : a.Every I) (hb : b.Every I) : (if p then a else b).Every I := by
  split <;> assumption

theorem Out.Leads.ite {p : Prop} [Decidable p] {a b : Out} (ha : Out.Leads a I) (hb : Out.Leads b I) : Out.Leads (if p then a else b) I := by
  split <;> assumption

theorem Out.Leads.next {r : Out} (h : Out.Leads r I) (hr : r = .next t) : t.Every I := by
  subst hr
  exact h

theorem Try.Every.held {r : Try} (h : r.Every I) (hr : r = .held t) : t.Every I := by
  subst hr
  exact h

theorem Leaves.ite {ε α : Type} {p : ε → Prop} {q : α → Prop} {c : Prop} [Decidable c] {a b : Except ε α} (ha : Leaves p q a) (hb : Leaves p q b) :
    Leaves p q (if c then a else b) := by
  split <;> assumption

theorem Try.Every.done {r : Try} {o : Out} (h : r.Every I) (hr : r = .done o) : Out.Leads o I := by
  subst hr
  exact h

theorem Leaves.error {ε α : Type} {p : ε → Prop} {q : α → Prop} {r : Except ε α} {e : ε} (h : Leaves p q r) (hr : r = .error e) : p e := by
  subst hr
  exact h

theorem Leaves.ok {ε α : Type} {p : ε → Prop} {q : α → Prop} {r : Except ε α} {a : α} (h : Leaves p q r) (hr : r = .ok a) : q a := by
  subst hr
  exact h

theorem State.Every.ofSome (h : t.Every I) : ∀ u ∈ some t, u.Every I := fun _ hu => Option.mem_some.mp hu ▸ h

theorem State.Every.ofPair {α : Type} {a : α} (h : t.Every I) : ∀ r ∈ some (t, a), r.1.Every I := fun _ hr => Option.mem_some.mp hr ▸ h

theorem State.Every.ofNoPair {α : Type} : ∀ r ∈ (none : Option (State × α)), r.1.Every I := fun _ hr => nomatch hr

theorem State.Every.ofNone : ∀ u ∈ (none : Option State), u.Every I := fun _ hu => nomatch hu

end

/-! ### The issue of a word, and the changes of one context or lease -/

namespace State.Every
variable {I : CtxInv} {s : State} {c : CtxId}

theorem foldlFst {α β : Type} {f : State × β → α → State × β} {l : List α} {r : State × β} (hf : ∀ (r : State × β) (a : α), r.1.Every I → (f r a).1.Every I)
    (h : r.1.Every I) : (l.foldl f r).1.Every I := by
  induction l generalizing r with
  | nil => exact h
  | cons a l ih => exact ih (hf r a h)

theorem findSome {α β : Type} {f : α → Option (State × β)} {l : List α} (hf : ∀ a, ∀ r ∈ f a, r.1.Every I) : ∀ r ∈ l.findSome? f, r.1.Every I := by
  intro r hr
  obtain ⟨a, -, ha⟩ := List.exists_of_findSome?_eq_some hr
  exact hf a r ha

theorem mapPair {α β : Type} {f : α → State × β} {o : Option α} (hf : ∀ a, (f a).1.Every I) : ∀ r ∈ o.map f, r.1.Every I := by
  intro r hr
  obtain ⟨a, -, rfl⟩ := Option.map_eq_some_iff.mp hr
  exact hf a

theorem optIte {p : Prop} [Decidable p] {a b : Option State} (ha : ∀ t ∈ a, t.Every I) (hb : ∀ t ∈ b, t.Every I) : ∀ t ∈ if p then a else b, t.Every I := by
  split <;> assumption

theorem optPairIte {β : Type} {p : Prop} [Decidable p] {a b : Option (State × β)} (ha : ∀ r ∈ a, r.1.Every I) (hb : ∀ r ∈ b, r.1.Every I) :
    ∀ r ∈ if p then a else b, r.1.Every I := by
  split <;> assumption

theorem iteFst {β : Type} {p : Prop} [Decidable p] {a b : State × β} (ha : a.1.Every I) (hb : b.1.Every I) : (if p then a else b).1.Every I := by
  split <;> assumption

theorem iteSnd {β : Type} {p : Prop} [Decidable p] {a b : β × State} (ha : a.2.Every I) (hb : b.2.Every I) : (if p then a else b).2.Every I := by
  split <;> assumption

theorem issue {g : Guard} {hold : Ctx → Bool} {eff : Ctx → State} (hI : s.Every I) (he : hold (s.ctx s.cur) = false → (eff (s.ctx s.cur)).Every I) :
    Out.Leads (s.issue g hold eff) I := by
  unfold State.issue
  simp only
  split
  · exact hI
  split
  · exact he (Bool.eq_false_iff.mpr ‹_›)
  · exact hI.setCtx hI.ctx.advance

theorem simple {g : Guard} {hold : Ctx → Bool} {eff : Ctx → Ctx} (hI : s.Every I) (he : I.Ok (s.ctx s.cur) → I.Ok (eff (s.ctx s.cur))) :
    Out.Leads (s.simple g hold eff) I := by
  unfold State.simple
  exact issue hI fun _ => hI.setCtx (he hI.ctx).advance

theorem waitFor {w : Wait} (hI : s.Every I) (hw : ¬Wait.forSlot (some w)) : (s.waitFor c w).Every I := by
  unfold State.waitFor
  exact hI.updCtx fun hx => hx.waits rfl hw

theorem retire {f : Ctx → Ctx} (hI : s.Every I) (hf : I.Ok (s.ctx c) → I.Ok (f (s.ctx c))) : (s.retire c f).Every I := by
  unfold State.retire
  exact hI.updCtx fun hx => .advance (.waits (hf hx) rfl id)

theorem updOp {id : Nat} {f : MemOp → MemOp} (hI : s.Every I) (hf : ∀ o, (f o).key = o.key) : (s.updOp c id f).Every I := by
  unfold State.updOp
  exact hI.updCtx fun hx => hx.updOp hf

theorem updLease {lid : Nat} {f : Lease → Lease} (hI : s.Every I) (hf : ∀ {l : Lease}, l.Every I → (f l).Every I) : (s.updLease lid f).Every I := by
  unfold State.updLease
  split
  · next l hl => exact hI.putLease (hf (hI.lease hl))
  · exact hI

theorem leaseAt {lid : Nat} {l : Lease} (hI : s.Every I) (hl : s.leaseAt lid = some l) : l.Every I := by
  unfold State.leaseAt at hl
  split at hl
  · next k hk => exact Option.some.inj hl ▸ hI.lease hk
  · split at hl
    · exact Option.some.inj hl ▸ .unsaved rfl
    · cases hl

theorem leaseFor (hI : s.Every I) : (s.leaseFor c).Every I := by
  unfold State.leaseFor
  cases hl : s.leaseAt (s.lidOf c) with
  | none => exact .unsaved rfl
  | some l => exact hI.leaseAt hl

theorem updBank {k : Nat} {f : BudBank → BudBank} (hI : s.Every I) (hf : ∀ b, (s.ctx c).bank? k = some b → b.q.Fits → (f b).q.Fits) :
    (s.updBank c k f).Every I := by
  unfold State.updBank
  exact hI.updCtx fun hx => hx.updBank hf

theorem reset : State.reset.Every I := ⟨fun _ he => (nomatch he), fun _ he => (nomatch he)⟩

/-- A change of every context. -/
theorem mapCtxs {f : Ctx → Ctx} (hI : s.Every I) (hf : ∀ {x : Ctx}, I.Ok x → I.Ok (f x)) :
    State.Every { s with ctxs := s.ctxs.map fun e => (e.1, f e.2) } I :=
  ⟨List.forall_mem_map.mpr fun e he => hf (hI.1 e he), hI.2⟩

/-- A change of every lease. -/
theorem mapLeases {f : Lease → Lease} (hI : s.Every I) (hf : ∀ {l : Lease}, l.Every I → (f l).Every I) :
    State.Every { s with leases := s.leases.map fun e => (e.1, f e.2) } I :=
  hI.setLeases (List.forall_mem_map.mpr fun e he => hf (hI.2 e he))

end State.Every
end Sys2Proof.Machine

/-! What every step keeps of the contexts (continued): from "Contexts, cores, dies" to "Elements". -/

namespace Sys2Proof.Machine
namespace State.Every
variable {I : CtxInv} {s : State}

/-! ### Contexts, cores, dies -/

theorem setCore {k : CoreId} {x : Core} (hI : s.Every I) : (s.setCore k x).Every I := by
  unfold State.setCore
  exact record hI

theorem updCore {k : CoreId} {f : Core → Core} (hI : s.Every I) : (s.updCore k f).Every I := by
  unfold State.updCore
  exact setCore hI

theorem setDie {d : Nat} {x : Die} (hI : s.Every I) : (s.setDie d x).Every I := by
  unfold State.setDie
  exact record hI

theorem updDie {d : Nat} {f : Die → Die} (hI : s.Every I) : (s.updDie d f).Every I := by
  unfold State.updDie
  exact setDie hI

/-! ### Registers -/

theorem addFlags {c : CtxId} {fl : W32} (hI : s.Every I) : (s.addFlags c fl).Every I := by
  unfold State.addFlags
  exact updCtx hI (fun hx => .addFlags hx)

/-! ### Management registers: stored part (R277) -/

theorem setMg {n : Nat} {v : W64} (hI : s.Every I) : (s.setMg n v).Every I := by
  unfold State.setMg
  exact record hI

/-! ### Device memory -/

theorem poke {pa : Nat} {bs : List Byte} (hI : s.Every I) : (s.poke pa bs).Every I := by
  unfold State.poke
  exact record (record hI)

theorem lose {pa n : Nat} (hI : s.Every I) : (s.lose pa n).Every I := by
  unfold State.lose
  exact record hI

theorem updHomeLine {pa : Nat} {f : L2Line → L2Line} (hI : s.Every I) : (s.updHomeLine pa f).Every I := by
  unfold State.updHomeLine
  exact updDie hI

theorem releaseBar {line : Nat} {ok : Bool} (hI : s.Every I) : (s.releaseBar line ok).Every I := by
  unfold State.releaseBar
  refine record (foldl (fun _ _ hs => updCtx hs fun hx => .released hx rfl ?_) hI)
  dsimp only
  split
  · exact False.elim
  · exact fun _ => rfl

theorem dropCopies {line : Nat} (hI : s.Every I) : (s.dropCopies line).Every I := by
  unfold State.dropCopies
  exact updHomeLine (foldl (fun _ _ hs => updDie hs) hI)

theorem homeWrite {pa : Nat} {bs : List Byte} {breaks : Bool} (hI : s.Every I) : (s.homeWrite pa bs breaks).Every I := by
  unfold State.homeWrite
  exact ite (releaseBar (updHomeLine (updHomeLine (poke (dropCopies hI))))) (updHomeLine (poke (dropCopies hI)))

theorem breakRange {pa n : Nat} (hI : s.Every I) : (s.breakRange pa n).Every I := by
  unfold State.breakRange
  exact foldl (fun _ _ hs => ite (dropCopies hs) (ite (releaseBar (updHomeLine hs)) (updHomeLine hs))) hI

theorem devWrite {pa : Nat} {bs : List Byte} (hI : s.Every I) : (s.devWrite pa bs).Every I := by
  unfold State.devWrite
  exact foldl (fun _ _ hs => homeWrite hs) hI

/-! ### Translation (R289, R290) -/

theorem tlog {ten pa : Nat} (hI : s.Every I) : (s.tlog ten pa).Every I := by
  unfold State.tlog
  exact setMg hI

theorem fillTlb {die : Nat} {core : CoreId} {asid : Nat} {l : Leaf} (hI : s.Every I) : (s.fillTlb die core asid l).Every I := by
  unfold State.fillTlb
  exact ite (updCore (updDie hI)) (updDie hI)

/-! ### The L2 and the cache layer (R265 to R271, R280, R281) -/

theorem layerUse {pa die handle : Nat} {wr : Bool} (hI : s.Every I) : (s.layerUse pa die handle wr).Every I := by
  unfold State.layerUse
  simp only
  split
  · exact record hI
  · split
    · exact record hI
    · split
      · exact record hI
      · split
        · exact record hI
        · exact hI

theorem l2Evict {die : Nat} {l : L2Line} (hI : s.Every I) : (s.l2Evict die l).Every I := by
  unfold State.l2Evict
  exact ite (layerUse (updDie (ite (updHomeLine hI) (ite hI (dropCopies hI))))) (updDie (ite (updHomeLine hI) (ite hI (dropCopies hI))))

theorem demoteL2 {die h : Nat} (hI : s.Every I) : (s.demoteL2 die h).Every I := by
  unfold State.demoteL2
  exact foldl (fun _ _ hs => ite (updDie (ite (layerUse hs) hs)) (l2Evict hs)) hI

theorem l2Insert {die : Nat} {ways : List Nat} {line : L2Line} (hI : s.Every I) : (s.l2Insert die ways line).Every I := by
  unfold State.l2Insert
  simp only
  split
  · exact updDie hI
  · split
    · exact updDie (l2Evict hI)
    · split
      · exact updDie (demoteL2 hI)
      · exact hI

theorem l2Put {die asid va pa : Nat} (hI : s.Every I) : (s.l2Put die asid va pa).Every I := by
  unfold State.l2Put
  exact ite (updHomeLine (l2Insert hI)) (l2Insert hI)

theorem touch {pa : Nat} (hI : s.Every I) : (s.touch pa).Every I := by
  unfold State.touch
  split
  · exact updDie hI
  · exact hI

theorem l2Home {asid va pa : Nat} (hI : s.Every I) : (s.l2Home asid va pa).Every I := by
  unfold State.l2Home
  exact ite (touch hI) (l2Put (layerUse hI))

theorem l2Use {die : Option Nat} {asid va pa : Nat} {wr : Bool} (hI : s.Every I) : (s.l2Use die asid va pa wr).Every I := by
  unfold State.l2Use
  split
  · exact l2Home hI
  · refine ite (l2Home hI) ?_
    split
    · exact updDie hI
    · exact l2Put (l2Home hI)

theorem l2Span {die : Option Nat} {asid va pa n : Nat} {wr : Bool} (hI : s.Every I) : (s.l2Span die asid va pa n wr).Every I := by
  unfold State.l2Span
  exact foldl (fun _ _ hs => l2Use hs) hI

/-! ### Events (R409) and interrupts (R433) -/

theorem pend {f vec : Nat} (hI : s.Every I) : (s.pend f vec).Every I := by
  unfold State.pend
  exact record hI

theorem ringWrite {pa : Nat} {bs : List Byte} (hI : s.Every I) : (s.ringWrite pa bs).Every I := by
  unfold State.ringWrite
  exact devWrite (l2Span hI)

theorem ringPut {ring key h : Nat} {slot : Nat → Nat} {num : Bool} {bs : List Byte} (hI : s.Every I) : (s.ringPut ring key h slot num bs).Every I := by
  unfold State.ringPut
  exact record (foldl (fun _ _ hs => ringWrite hs) hI)

theorem pfEvent {typ ten lid cls detail core bank : Nat} {info : W64} (hI : s.Every I) : (s.pfEvent typ ten lid cls detail core bank info).Every I := by
  unfold State.pfEvent
  refine ite (pend (setMg (ringPut hI))) ?_
  simp only
  split
  · exact ringPut (record (setMg hI))
  · exact setMg hI

theorem vfRecord {ten vec pa : Nat} {bs : List Byte} (hI : s.Every I) : (s.vfRecord ten vec pa bs).Every I := by
  unfold State.vfRecord
  exact pend (record (devWrite (l2Span hI)))

theorem vfAt {ten vec : Nat} {bs : List Byte} {r : Xlat} (hI : s.Every I) : Leaves (·.1.Every I) (·.Every I) (s.vfAt ten vec bs r) := by
  unfold State.vfAt
  split
  · exact hI
  · exact hI
  · exact Leaves.ite hI (Leaves.ite (vfRecord hI) (pfEvent (tlog hI)))

theorem vfPut {typ ten lid cls detail core bank vec : Nat} {info : W64} (hI : s.Every I) : Leaves (·.1.Every I) (·.Every I) (s.vfPut typ ten lid cls detail core bank vec info) := by
  unfold State.vfPut
  exact Leaves.ite (vfAt hI) hI

theorem vfState_every {r : Except (State × Option Trap) State} (hr : Leaves (·.1.Every I) (·.Every I) r) : (vfState r).Every I := by
  cases r with
  | ok t => exact hr
  | error e => exact hr

theorem vfEvent {typ ten lid cls detail core bank vec : Nat} {info : W64} (hI : s.Every I) : (s.vfEvent typ ten lid cls detail core bank vec info).Every I := by
  unfold State.vfEvent
  exact vfState_every (vfPut hI)

theorem event {typ ten lid cls detail core bank : Nat} {info : W64} (hI : s.Every I) : (s.event typ ten lid cls detail core bank info).Every I := by
  unfold State.event
  exact ite (vfEvent (pfEvent hI)) (pfEvent hI)

theorem noteRefusal {core ten pa : Nat} {t : Trap} (hI : s.Every I) : (s.noteRefusal core ten pa t).Every I := by
  unfold State.noteRefusal
  exact ite (event (tlog hI)) hI

/-! ### Traps (R30) -/

theorem withdraw {c : CtxId} (hI : s.Every I) : (s.withdraw c).Every I := by
  unfold State.withdraw
  split
  · exact ite (record hI) (updHomeLine (record hI))
  · exact hI

theorem breakLease {c : CtxId} (hI : s.Every I) : (s.breakLease c).Every I := by
  unfold State.breakLease
  simp only
  split
  · rename_i hl
    split
    · exact ite (putLease hI (.record (lease hI hl) rfl)) hI
    · exact putLease hI (.record (lease hI hl) rfl)
  · exact hI

theorem refreeze {lid : Nat} (hI : s.Every I) : (s.refreeze lid).Every I := by
  unfold State.refreeze
  split
  · exact hI
  · rename_i hl
    split
    · exact putLease hI (.record (lease hI hl) rfl)
    · exact putLease hI (.record (lease hI hl) rfl)
    · exact hI

theorem stopTrap {c : CtxId} {t : Trap} (hI : s.Every I) : (s.stopTrap c t).Every I := by
  unfold State.stopTrap
  exact event (refreeze (breakLease (updCtx (withdraw hI) (fun hx => .waits hx rfl not_false))))

theorem trapEntry {c : CtxId} (hI : s.Every I) : (s.trapEntry c).Every I := by
  unfold State.trapEntry
  simp only
  split
  · exact hI
  · exact ite hI (ite (stopTrap hI) (ite (updCtx (withdraw hI) (fun hx => .enter (.record hx rfl rfl))) hI))

theorem raise {c : CtxId} {t : Trap} (hI : s.Every I) : (s.raise c t).Every I := by
  unfold State.raise
  exact ite (trapEntry (updCtx hI (fun hx => .record hx rfl rfl))) hI

/-! ### Lasting-failed links (R405, R408, R419) -/

theorem freeAddr (hI : s.Every I) : (s.freeAddr).2.Every I := by
  unfold State.freeAddr
  exact record hI

theorem lostMessage {c : CtxId} {src : Nat} (hI : s.Every I) : (s.lostMessage c src).Every I := by
  unfold State.lostMessage
  exact raise (freeAddr hI)

/-! ### The issue of a control word -/

theorem trapAt {cls : BitVec 8} {val : W64} {detail : Nat} (hI : s.Every I) : (s.trapAt cls val detail).Every I := by
  unfold State.trapAt
  exact raise hI

/-! ### Elements -/

theorem wrReg {g : Guard} {d : BitVec 5} {f : Ctx → W64} (hI : s.Every I) : Out.Leads (s.wrReg g d f) I := by
  unfold State.wrReg
  exact simple hI (fun hx => .setReg hx)

theorem alu {g : Guard} {d a b : BitVec 5} {f : W64 → W64 → W64} (hI : s.Every I) : Out.Leads (s.alu g d a b f) I := by
  unfold State.alu
  exact wrReg hI

theorem aluI {g : Guard} {d a : BitVec 5} {f : W64 → W64} (hI : s.Every I) : Out.Leads (s.aluI g d a f) I := by
  unfold State.aluI
  exact wrReg hI

theorem divide {g : Guard} {d a b : BitVec 5} {f : W64 → W64 → W64} (hI : s.Every I) : Out.Leads (s.divide g d a b f) I := by
  unfold State.divide
  exact issue hI (fun _ => updCore (setCtx hI (.advance (.setReg (ctx hI)))))

theorem cmp {g : Guard} {d : BitVec 3} {f : Ctx → Bool} (hI : s.Every I) : Out.Leads (s.cmp g d f) I := by
  unfold State.cmp
  exact simple hI (fun hx => .setPred hx)

theorem brIf {g : Guard} {a b : BitVec 5} {off : BitVec 11} {f : W64 → W64 → Bool} (hI : s.Every I) : Out.Leads (s.brIf g a b off f) I := by
  unfold State.brIf
  refine issue hI (fun _ => ?_)
  refine setCtx hI ?_
  split
  · exact .record (ctx hI) rfl rfl
  · exact .advance (ctx hI)

theorem execAdd_leads {g : Guard} {d a b : BitVec 5} (hI : s.Every I) : Out.Leads (execAdd g d a b s) I := by
  unfold execAdd
  exact alu hI

theorem execSub_leads {g : Guard} {d a b : BitVec 5} (hI : s.Every I) : Out.Leads (execSub g d a b s) I := by
  unfold execSub
  exact alu hI

theorem execAnd_leads {g : Guard} {d a b : BitVec 5} (hI : s.Every I) : Out.Leads (execAnd g d a b s) I := by
  unfold execAnd
  exact alu hI

theorem execOr_leads {g : Guard} {d a b : BitVec 5} (hI : s.Every I) : Out.Leads (execOr g d a b s) I := by
  unfold execOr
  exact alu hI

theorem execXor_leads {g : Guard} {d a b : BitVec 5} (hI : s.Every I) : Out.Leads (execXor g d a b s) I := by
  unfold execXor
  exact alu hI

theorem execAndn_leads {g : Guard} {d a b : BitVec 5} (hI : s.Every I) : Out.Leads (execAndn g d a b s) I := by
  unfold execAndn
  exact alu hI

theorem execOrn_leads {g : Guard} {d a b : BitVec 5} (hI : s.Every I) : Out.Leads (execOrn g d a b s) I := by
  unfold execOrn
  exact alu hI

theorem execShl_leads {g : Guard} {d a b : BitVec 5} (hI : s.Every I) : Out.Leads (execShl g d a b s) I := by
  unfold execShl
  exact alu hI

theorem execShr_leads {g : Guard} {d a b : BitVec 5} (hI : s.Every I) : Out.Leads (execShr g d a b s) I := by
  unfold execShr
  exact alu hI

theorem execSra_leads {g : Guard} {d a b : BitVec 5} (hI : s.Every I) : Out.Leads (execSra g d a b s) I := by
  unfold execSra
  exact alu hI

theorem execRol_leads {g : Guard} {d a b : BitVec 5} (hI : s.Every I) : Out.Leads (execRol g d a b s) I := by
  unfold execRol
  exact alu hI

theorem execRor_leads {g : Guard} {d a b : BitVec 5} (hI : s.Every I) : Out.Leads (execRor g d a b s) I := by
  unfold execRor
  exact alu hI

theorem execMul_leads {g : Guard} {d a b : BitVec 5} (hI : s.Every I) : Out.Leads (execMul g d a b s) I := by
  unfold execMul
  exact alu hI

theorem execMulh_leads {g : Guard} {d a b : BitVec 5} (hI : s.Every I) : Out.Leads (execMulh g d a b s) I := by
  unfold execMulh
  exact alu hI

theorem execMulhu_leads {g : Guard} {d a b : BitVec 5} (hI : s.Every I) : Out.Leads (execMulhu g d a b s) I := by
  unfold execMulhu
  exact alu hI

theorem execDiv_leads {g : Guard} {d a b : BitVec 5} (hI : s.Every I) : Out.Leads (execDiv g d a b s) I := by
  unfold execDiv
  exact divide hI

theorem execDivu_leads {g : Guard} {d a b : BitVec 5} (hI : s.Every I) : Out.Leads (execDivu g d a b s) I := by
  unfold execDivu
  exact divide hI

theorem execRem_leads {g : Guard} {d a b : BitVec 5} (hI : s.Every I) : Out.Leads (execRem g d a b s) I := by
  unfold execRem
  exact divide hI

theorem execRemu_leads {g : Guard} {d a b : BitVec 5} (hI : s.Every I) : Out.Leads (execRemu g d a b s) I := by
  unfold execRemu
  exact divide hI

theorem execMin_leads {g : Guard} {d a b : BitVec 5} (hI : s.Every I) : Out.Leads (execMin g d a b s) I := by
  unfold execMin
  exact alu hI

theorem execMax_leads {g : Guard} {d a b : BitVec 5} (hI : s.Every I) : Out.Leads (execMax g d a b s) I := by
  unfold execMax
  exact alu hI

theorem execMinu_leads {g : Guard} {d a b : BitVec 5} (hI : s.Every I) : Out.Leads (execMinu g d a b s) I := by
  unfold execMinu
  exact alu hI

theorem execMaxu_leads {g : Guard} {d a b : BitVec 5} (hI : s.Every I) : Out.Leads (execMaxu g d a b s) I := by
  unfold execMaxu
  exact alu hI

theorem execAddw_leads {g : Guard} {d a b : BitVec 5} (hI : s.Every I) : Out.Leads (execAddw g d a b s) I := by
  unfold execAddw
  exact alu hI

theorem execSubw_leads {g : Guard} {d a b : BitVec 5} (hI : s.Every I) : Out.Leads (execSubw g d a b s) I := by
  unfold execSubw
  exact alu hI

theorem execMulw_leads {g : Guard} {d a b : BitVec 5} (hI : s.Every I) : Out.Leads (execMulw g d a b s) I := by
  unfold execMulw
  exact alu hI

theorem execClz_leads {g : Guard} {d a : BitVec 5} (hI : s.Every I) : Out.Leads (execClz g d a s) I := by
  unfold execClz
  exact aluI hI

theorem execCtz_leads {g : Guard} {d a : BitVec 5} (hI : s.Every I) : Out.Leads (execCtz g d a s) I := by
  unfold execCtz
  exact aluI hI

theorem execPopc_leads {g : Guard} {d a : BitVec 5} (hI : s.Every I) : Out.Leads (execPopc g d a s) I := by
  unfold execPopc
  exact aluI hI

theorem execAddi_leads {g : Guard} {d a : BitVec 5} {imm : BitVec 11} (hI : s.Every I) : Out.Leads (execAddi g d a imm s) I := by
  unfold execAddi
  exact aluI hI

theorem execAndi_leads {g : Guard} {d a : BitVec 5} {imm : BitVec 11} (hI : s.Every I) : Out.Leads (execAndi g d a imm s) I := by
  unfold execAndi
  exact aluI hI

theorem execOri_leads {g : Guard} {d a : BitVec 5} {imm : BitVec 11} (hI : s.Every I) : Out.Leads (execOri g d a imm s) I := by
  unfold execOri
  exact aluI hI

theorem execXori_leads {g : Guard} {d a : BitVec 5} {imm : BitVec 11} (hI : s.Every I) : Out.Leads (execXori g d a imm s) I := by
  unfold execXori
  exact aluI hI

theorem execShli_leads {g : Guard} {d a : BitVec 5} {sh : BitVec 6} (hI : s.Every I) : Out.Leads (execShli g d a sh s) I := by
  unfold execShli
  exact aluI hI

theorem execShri_leads {g : Guard} {d a : BitVec 5} {sh : BitVec 6} (hI : s.Every I) : Out.Leads (execShri g d a sh s) I := by
  unfold execShri
  exact aluI hI

theorem execSrai_leads {g : Guard} {d a : BitVec 5} {sh : BitVec 6} (hI : s.Every I) : Out.Leads (execSrai g d a sh s) I := by
  unfold execSrai
  exact aluI hI

theorem execMuli_leads {g : Guard} {d a : BitVec 5} {imm : BitVec 11} (hI : s.Every I) : Out.Leads (execMuli g d a imm s) I := by
  unfold execMuli
  exact aluI hI

theorem execAddwi_leads {g : Guard} {d a : BitVec 5} {imm : BitVec 11} (hI : s.Every I) : Out.Leads (execAddwi g d a imm s) I := by
  unfold execAddwi
  exact aluI hI

theorem execMovi_leads {g : Guard} {d : BitVec 5} {imm : BitVec 16} (hI : s.Every I) : Out.Leads (execMovi g d imm s) I := by
  unfold execMovi
  exact wrReg hI

theorem execMovz_leads {g : Guard} {d : BitVec 5} {imm : BitVec 16} (hI : s.Every I) : Out.Leads (execMovz g d imm s) I := by
  unfold execMovz
  exact wrReg hI

theorem execMovk16_leads {g : Guard} {d : BitVec 5} {imm : BitVec 16} (hI : s.Every I) : Out.Leads (execMovk16 g d imm s) I := by
  unfold execMovk16
  exact wrReg hI

theorem execMovk32_leads {g : Guard} {d : BitVec 5} {imm : BitVec 16} (hI : s.Every I) : Out.Leads (execMovk32 g d imm s) I := by
  unfold execMovk32
  exact wrReg hI

theorem execMovk48_leads {g : Guard} {d : BitVec 5} {imm : BitVec 16} (hI : s.Every I) : Out.Leads (execMovk48 g d imm s) I := by
  unfold execMovk48
  exact wrReg hI

theorem execSrrd_leads {g : Guard} {d : BitVec 5} {sr : BitVec 4} (hI : s.Every I) : Out.Leads (execSrrd g d sr s) I := by
  unfold execSrrd
  exact issue hI (fun _ => ite (raise hI) (setCtx hI (.advance (.setReg (ctx hI)))))

theorem execSrwr_leads {g : Guard} {d : BitVec 5} {sr : BitVec 4} (hI : s.Every I) : Out.Leads (execSrwr g d sr s) I := by
  unfold execSrwr
  exact simple hI (fun hx => .setSreg hx)

theorem execFlgrd_leads {g : Guard} {d : BitVec 5} (hI : s.Every I) : Out.Leads (execFlgrd g d s) I := by
  unfold execFlgrd
  exact simple hI (fun hx => .setReg (.takeFlags hx))

theorem execBr_leads {g : Guard} {off : BitVec 21} (hI : s.Every I) : Out.Leads (execBr g off s) I := by
  unfold execBr
  exact issue hI (fun _ => setCtx hI (.record (ctx hI) rfl rfl))

theorem execCall_leads {g : Guard} {off : BitVec 21} (hI : s.Every I) : Out.Leads (execCall g off s) I := by
  unfold execCall
  exact issue hI (fun _ => setCtx hI (.record (.setReg (ctx hI)) rfl rfl))

theorem execJalr_leads {g : Guard} {d a : BitVec 5} {imm : BitVec 11} (hI : s.Every I) : Out.Leads (execJalr g d a imm s) I := by
  unfold execJalr
  exact issue hI (fun _ => setCtx hI (.record (.setReg (ctx hI)) rfl rfl))

theorem execBeq_leads {g : Guard} {a b : BitVec 5} {off : BitVec 11} (hI : s.Every I) : Out.Leads (execBeq g a b off s) I := by
  unfold execBeq
  exact brIf hI

theorem execBne_leads {g : Guard} {a b : BitVec 5} {off : BitVec 11} (hI : s.Every I) : Out.Leads (execBne g a b off s) I := by
  unfold execBne
  exact brIf hI

theorem execBlt_leads {g : Guard} {a b : BitVec 5} {off : BitVec 11} (hI : s.Every I) : Out.Leads (execBlt g a b off s) I := by
  unfold execBlt
  exact brIf hI

theorem execBge_leads {g : Guard} {a b : BitVec 5} {off : BitVec 11} (hI : s.Every I) : Out.Leads (execBge g a b off s) I := by
  unfold execBge
  exact brIf hI

theorem execBltu_leads {g : Guard} {a b : BitVec 5} {off : BitVec 11} (hI : s.Every I) : Out.Leads (execBltu g a b off s) I := by
  unfold execBltu
  exact brIf hI

theorem execBgeu_leads {g : Guard} {a b : BitVec 5} {off : BitVec 11} (hI : s.Every I) : Out.Leads (execBgeu g a b off s) I := by
  unfold execBgeu
  exact brIf hI

theorem execCmpEq_leads {g : Guard} {d : BitVec 3} {a b : BitVec 5} (hI : s.Every I) : Out.Leads (execCmpEq g d a b s) I := by
  unfold execCmpEq
  exact cmp hI

theorem execCmpNe_leads {g : Guard} {d : BitVec 3} {a b : BitVec 5} (hI : s.Every I) : Out.Leads (execCmpNe g d a b s) I := by
  unfold execCmpNe
  exact cmp hI

theorem execCmpLt_leads {g : Guard} {d : BitVec 3} {a b : BitVec 5} (hI : s.Every I) : Out.Leads (execCmpLt g d a b s) I := by
  unfold execCmpLt
  exact cmp hI

theorem execCmpGe_leads {g : Guard} {d : BitVec 3} {a b : BitVec 5} (hI : s.Every I) : Out.Leads (execCmpGe g d a b s) I := by
  unfold execCmpGe
  exact cmp hI

theorem execCmpLtu_leads {g : Guard} {d : BitVec 3} {a b : BitVec 5} (hI : s.Every I) : Out.Leads (execCmpLtu g d a b s) I := by
  unfold execCmpLtu
  exact cmp hI

theorem execCmpGeu_leads {g : Guard} {d : BitVec 3} {a b : BitVec 5} (hI : s.Every I) : Out.Leads (execCmpGeu g d a b s) I := by
  unfold execCmpGeu
  exact cmp hI

theorem execCmpTst_leads {g : Guard} {d : BitVec 3} {a b : BitVec 5} (hI : s.Every I) : Out.Leads (execCmpTst g d a b s) I := by
  unfold execCmpTst
  exact cmp hI

theorem execCmpiEq_leads {g : Guard} {d : BitVec 3} {a : BitVec 5} {imm : BitVec 11} (hI : s.Every I) : Out.Leads (execCmpiEq g d a imm s) I := by
  unfold execCmpiEq
  exact cmp hI

theorem execCmpiLt_leads {g : Guard} {d : BitVec 3} {a : BitVec 5} {imm : BitVec 11} (hI : s.Every I) : Out.Leads (execCmpiLt g d a imm s) I := by
  unfold execCmpiLt
  exact cmp hI

theorem execCmpiLtu_leads {g : Guard} {d : BitVec 3} {a : BitVec 5} {imm : BitVec 11} (hI : s.Every I) : Out.Leads (execCmpiLtu g d a imm s) I := by
  unfold execCmpiLtu
  exact cmp hI

theorem execPand_leads {g : Guard} {d a b : BitVec 3} (hI : s.Every I) : Out.Leads (execPand g d a b s) I := by
  unfold execPand
  exact cmp hI

theorem execPor_leads {g : Guard} {d a b : BitVec 3} (hI : s.Every I) : Out.Leads (execPor g d a b s) I := by
  unfold execPor
  exact cmp hI

theorem execPxor_leads {g : Guard} {d a b : BitVec 3} (hI : s.Every I) : Out.Leads (execPxor g d a b s) I := by
  unfold execPxor
  exact cmp hI

theorem execPandn_leads {g : Guard} {d a b : BitVec 3} (hI : s.Every I) : Out.Leads (execPandn g d a b s) I := by
  unfold execPandn
  exact cmp hI

theorem execPnot_leads {g : Guard} {d a : BitVec 3} (hI : s.Every I) : Out.Leads (execPnot g d a s) I := by
  unfold execPnot
  exact cmp hI

theorem execPmov_leads {g : Guard} {d a : BitVec 3} (hI : s.Every I) : Out.Leads (execPmov g d a s) I := by
  unfold execPmov
  exact cmp hI

theorem execPget_leads {g : Guard} {d : BitVec 5} (hI : s.Every I) : Out.Leads (execPget g d s) I := by
  unfold execPget
  exact wrReg hI

theorem execPput_leads {g : Guard} {a : BitVec 5} (hI : s.Every I) : Out.Leads (execPput g a s) I := by
  unfold execPput
  exact simple hI (fun hx => .record hx rfl rfl)

theorem execDividerComplete_leads {core : CoreId} (hI : s.Every I) : Out.Leads (execDividerComplete core s) I := by
  unfold execDividerComplete
  exact updCore hI

end State.Every
end Sys2Proof.Machine

/-! What every step keeps of the contexts (continued): from "Addresses and checks" to "Firing (R116 to R119)". -/

namespace Sys2Proof.Machine
namespace State.Every
variable {I : CtxInv} {s : State}

/-! ### Addresses and checks -/

theorem spadWrite {c : CtxId} {a : Nat} {bs : List Byte} (hI : s.Every I) : (s.spadWrite c a bs).Every I := by
  unfold State.spadWrite
  exact updCore hI

/-! ### The pass unit's stages (R92 to R96) -/

theorem updChain {core : CoreId} {i : Nat} {k : Chain} (hI : s.Every I) : (s.updChain core i k).Every I := by
  unfold State.updChain
  exact updCore hI

theorem chainRead {core : CoreId} {i : Nat} (hI : s.Every I) : (s.chainRead core i).Every I := by
  unfold State.chainRead
  split
  · exact hI
  · refine ite hI ?_
    split <;> exact updChain hI

theorem chainPut_every {k : Chain} {r : ChainRun} {j i : Nat} {v : W32} (hr : r.s.Every I) : (chainPut k r j i v).s.Every I := by
  unfold chainPut
  split
  · exact hr
  · exact spadWrite hr

theorem chainEl_every {k : Chain} {r : ChainRun} {j i : Nat} (hr : r.s.Every I) : (chainEl k r j i).s.Every I := by
  unfold chainEl
  split
  · exact hr
  split
  · exact hr
  · exact chainPut_every hr

theorem chainRun_foldl {α : Type} {f : ChainRun → α → ChainRun} {l : List α} {r : ChainRun} (hf : ∀ (r : ChainRun) (a : α), r.s.Every I → (f r a).s.Every I)
    (h : r.s.Every I) : (l.foldl f r).s.Every I := by
  induction l generalizing r with
  | nil => exact h
  | cons a l ih => exact ih (hf r a h)

theorem chainRun_every {k : Chain} (hI : s.Every I) : (chainRun k s).s.Every I := by
  unfold chainRun chainFlush
  exact chainRun_foldl (fun _ _ hr => chainRun_foldl (fun _ _ hr => chainEl_every hr) hr) (chainRun_foldl (fun _ _ hr => chainPut_every hr) hI)

theorem chainWrite {core : CoreId} {i el : Nat} (hI : s.Every I) : (s.chainWrite core i el).Every I := by
  unfold State.chainWrite
  split
  · exact hI
  split
  · exact hI
  refine ite hI ?_
  exact updChain (chainPut_every hI)

/-! ### Issue of loads, stores and atomics -/

theorem load {g : Guard} {t a : BitVec 5} {off : BitVec 11} {size : Nat} {signed : Bool} (hI : s.Every I) (hw : (s.ctx s.cur).wait = none) :
    Out.Leads (s.load g t a off size signed) I := by
  unfold State.load
  refine issue hI fun hh => ?_
  dsimp only
  split
  · exact raise hI
  · exact setCtx hI (.advance (.pushLoad (ctx hI) hw (Ctx.free_of_not_held hh)))

theorem store {g : Guard} {t a : BitVec 5} {off : BitVec 11} {size : Nat} (hI : s.Every I) (hw : (s.ctx s.cur).wait = none) :
    Out.Leads (s.store g t a off size) I := by
  unfold State.store
  refine issue hI fun hh => ?_
  dsimp only
  split
  · exact raise hI
  · exact setCtx hI (.advance (.pushStore (ctx hI) hw (by simpa using hh)))

theorem amo {g : Guard} {t a : BitVec 5} {op : AmoOp} {size : Nat} (hI : s.Every I) (hw : (s.ctx s.cur).wait = none) :
    Out.Leads (s.amo g t a op size) I := by
  unfold State.amo
  refine issue hI fun hh => ?_
  dsimp only
  split
  · exact raise hI
  · exact setCtx hI (.advance (.pushLoad (ctx hI) hw (Ctx.free_of_not_held hh)))

theorem execLdb_leads {g : Guard} {t a : BitVec 5} {off : BitVec 11} (hI : s.Every I) (hw : (s.ctx s.cur).wait = none) : Out.Leads (execLdb g t a off s) I := by
  unfold execLdb
  exact load hI hw

theorem execLdbs_leads {g : Guard} {t a : BitVec 5} {off : BitVec 11} (hI : s.Every I) (hw : (s.ctx s.cur).wait = none) : Out.Leads (execLdbs g t a off s) I := by
  unfold execLdbs
  exact load hI hw

theorem execLdh_leads {g : Guard} {t a : BitVec 5} {off : BitVec 11} (hI : s.Every I) (hw : (s.ctx s.cur).wait = none) : Out.Leads (execLdh g t a off s) I := by
  unfold execLdh
  exact load hI hw

theorem execLdhs_leads {g : Guard} {t a : BitVec 5} {off : BitVec 11} (hI : s.Every I) (hw : (s.ctx s.cur).wait = none) : Out.Leads (execLdhs g t a off s) I := by
  unfold execLdhs
  exact load hI hw

theorem execLdw_leads {g : Guard} {t a : BitVec 5} {off : BitVec 11} (hI : s.Every I) (hw : (s.ctx s.cur).wait = none) : Out.Leads (execLdw g t a off s) I := by
  unfold execLdw
  exact load hI hw

theorem execLdws_leads {g : Guard} {t a : BitVec 5} {off : BitVec 11} (hI : s.Every I) (hw : (s.ctx s.cur).wait = none) : Out.Leads (execLdws g t a off s) I := by
  unfold execLdws
  exact load hI hw

theorem execLdd_leads {g : Guard} {t a : BitVec 5} {off : BitVec 11} (hI : s.Every I) (hw : (s.ctx s.cur).wait = none) : Out.Leads (execLdd g t a off s) I := by
  unfold execLdd
  exact load hI hw

theorem execStb_leads {g : Guard} {t a : BitVec 5} {off : BitVec 11} (hI : s.Every I) (hw : (s.ctx s.cur).wait = none) : Out.Leads (execStb g t a off s) I := by
  unfold execStb
  exact store hI hw

theorem execSth_leads {g : Guard} {t a : BitVec 5} {off : BitVec 11} (hI : s.Every I) (hw : (s.ctx s.cur).wait = none) : Out.Leads (execSth g t a off s) I := by
  unfold execSth
  exact store hI hw

theorem execStw_leads {g : Guard} {t a : BitVec 5} {off : BitVec 11} (hI : s.Every I) (hw : (s.ctx s.cur).wait = none) : Out.Leads (execStw g t a off s) I := by
  unfold execStw
  exact store hI hw

theorem execStd_leads {g : Guard} {t a : BitVec 5} {off : BitVec 11} (hI : s.Every I) (hw : (s.ctx s.cur).wait = none) : Out.Leads (execStd g t a off s) I := by
  unfold execStd
  exact store hI hw

theorem execAmoSwapW_leads {g : Guard} {t a : BitVec 5} (hI : s.Every I) (hw : (s.ctx s.cur).wait = none) : Out.Leads (execAmoSwapW g t a s) I := by
  unfold execAmoSwapW
  exact amo hI hw

theorem execAmoAddW_leads {g : Guard} {t a : BitVec 5} (hI : s.Every I) (hw : (s.ctx s.cur).wait = none) : Out.Leads (execAmoAddW g t a s) I := by
  unfold execAmoAddW
  exact amo hI hw

theorem execAmoAndW_leads {g : Guard} {t a : BitVec 5} (hI : s.Every I) (hw : (s.ctx s.cur).wait = none) : Out.Leads (execAmoAndW g t a s) I := by
  unfold execAmoAndW
  exact amo hI hw

theorem execAmoOrW_leads {g : Guard} {t a : BitVec 5} (hI : s.Every I) (hw : (s.ctx s.cur).wait = none) : Out.Leads (execAmoOrW g t a s) I := by
  unfold execAmoOrW
  exact amo hI hw

theorem execAmoXorW_leads {g : Guard} {t a : BitVec 5} (hI : s.Every I) (hw : (s.ctx s.cur).wait = none) : Out.Leads (execAmoXorW g t a s) I := by
  unfold execAmoXorW
  exact amo hI hw

theorem execAmoMinW_leads {g : Guard} {t a : BitVec 5} (hI : s.Every I) (hw : (s.ctx s.cur).wait = none) : Out.Leads (execAmoMinW g t a s) I := by
  unfold execAmoMinW
  exact amo hI hw

theorem execAmoMaxW_leads {g : Guard} {t a : BitVec 5} (hI : s.Every I) (hw : (s.ctx s.cur).wait = none) : Out.Leads (execAmoMaxW g t a s) I := by
  unfold execAmoMaxW
  exact amo hI hw

theorem execAmoMinuW_leads {g : Guard} {t a : BitVec 5} (hI : s.Every I) (hw : (s.ctx s.cur).wait = none) : Out.Leads (execAmoMinuW g t a s) I := by
  unfold execAmoMinuW
  exact amo hI hw

theorem execAmoMaxuW_leads {g : Guard} {t a : BitVec 5} (hI : s.Every I) (hw : (s.ctx s.cur).wait = none) : Out.Leads (execAmoMaxuW g t a s) I := by
  unfold execAmoMaxuW
  exact amo hI hw

theorem execAmoCasW_leads {g : Guard} {t a : BitVec 5} (hI : s.Every I) (hw : (s.ctx s.cur).wait = none) : Out.Leads (execAmoCasW g t a s) I := by
  unfold execAmoCasW
  exact amo hI hw

theorem execAmoSwapD_leads {g : Guard} {t a : BitVec 5} (hI : s.Every I) (hw : (s.ctx s.cur).wait = none) : Out.Leads (execAmoSwapD g t a s) I := by
  unfold execAmoSwapD
  exact amo hI hw

theorem execAmoAddD_leads {g : Guard} {t a : BitVec 5} (hI : s.Every I) (hw : (s.ctx s.cur).wait = none) : Out.Leads (execAmoAddD g t a s) I := by
  unfold execAmoAddD
  exact amo hI hw

theorem execAmoAndD_leads {g : Guard} {t a : BitVec 5} (hI : s.Every I) (hw : (s.ctx s.cur).wait = none) : Out.Leads (execAmoAndD g t a s) I := by
  unfold execAmoAndD
  exact amo hI hw

theorem execAmoOrD_leads {g : Guard} {t a : BitVec 5} (hI : s.Every I) (hw : (s.ctx s.cur).wait = none) : Out.Leads (execAmoOrD g t a s) I := by
  unfold execAmoOrD
  exact amo hI hw

theorem execAmoXorD_leads {g : Guard} {t a : BitVec 5} (hI : s.Every I) (hw : (s.ctx s.cur).wait = none) : Out.Leads (execAmoXorD g t a s) I := by
  unfold execAmoXorD
  exact amo hI hw

theorem execAmoMinD_leads {g : Guard} {t a : BitVec 5} (hI : s.Every I) (hw : (s.ctx s.cur).wait = none) : Out.Leads (execAmoMinD g t a s) I := by
  unfold execAmoMinD
  exact amo hI hw

theorem execAmoMaxD_leads {g : Guard} {t a : BitVec 5} (hI : s.Every I) (hw : (s.ctx s.cur).wait = none) : Out.Leads (execAmoMaxD g t a s) I := by
  unfold execAmoMaxD
  exact amo hI hw

theorem execAmoMinuD_leads {g : Guard} {t a : BitVec 5} (hI : s.Every I) (hw : (s.ctx s.cur).wait = none) : Out.Leads (execAmoMinuD g t a s) I := by
  unfold execAmoMinuD
  exact amo hI hw

theorem execAmoMaxuD_leads {g : Guard} {t a : BitVec 5} (hI : s.Every I) (hw : (s.ctx s.cur).wait = none) : Out.Leads (execAmoMaxuD g t a s) I := by
  unfold execAmoMaxuD
  exact amo hI hw

theorem execAmoCasD_leads {g : Guard} {t a : BitVec 5} (hI : s.Every I) (hw : (s.ctx s.cur).wait = none) : Out.Leads (execAmoCasD g t a s) I := by
  unfold execAmoCasD
  exact amo hI hw

/-! ### Completion of loads, stores and atomics (R69, R84 to R87) -/

theorem lateTrap {c : CtxId} {id : Nat} {ipc : BitVec 16} {t : Trap} (hI : s.Every I) : (s.lateTrap c id ipc t).Every I := by
  unfold State.lateTrap
  exact raise (updCtx hI fun hx => .record (I.shrinkOps (List.filter_sublist.map _) hx) rfl rfl)

theorem bankAccess {c : CtxId} {o : MemOp} (hI : s.Every I) : (s.bankAccess c o).Every I := by
  unfold State.bankAccess
  simp only
  split
  · exact hI
  · refine ite hI ?_
    split
    · exact lateTrap hI
    · split
      · exact updOp hI (fun _ => rfl)
      · exact updOp (spadWrite hI) (fun _ => rfl)
      · exact hI

theorem opWrite {c : CtxId} {id : Nat} (hI : s.Every I) : (s.opWrite c id).Every I := by
  unfold State.opWrite
  split
  · exact updCtx hI (fun hx => .finishOp (.setReg hx))
  · exact hI

theorem execSpadLoadComplete_leads {c : CtxId} {i : Nat} (hI : s.Every I) : Out.Leads (execSpadLoadComplete c i s) I := by
  unfold execSpadLoadComplete
  split
  · split
    · exact Out.Leads.ite hI (opWrite (bankAccess hI))
    · exact hI
  · exact hI

theorem execSpadStoreComplete_leads {c : CtxId} {i : Nat} (hI : s.Every I) : Out.Leads (execSpadStoreComplete c i s) I := by
  unfold execSpadStoreComplete
  simp only
  split
  · split
    · exact Out.Leads.ite hI (updCtx (spadWrite hI) (fun hx => .finishOp hx))
    · exact hI
  · exact hI

theorem execAmoComplete_leads {c : CtxId} {i : Nat} (hI : s.Every I) : Out.Leads (execAmoComplete c i s) I := by
  unfold execAmoComplete
  split
  · split
    · exact Out.Leads.ite hI (opWrite (bankAccess hI))
    · exact hI
  · exact hI

/-! ### WAIT and NOP (R88, R89) -/

theorem waitRetire {c : CtxId} {all : Bool} {ld st cp tl : Nat} (hI : s.Every I) : (s.waitRetire c all ld st cp tl).Every I := by
  unfold State.waitRetire
  simp only
  split
  · exact raise (updCtx hI (fun hx => .record hx rfl rfl))
  · exact retire hI id

theorem waitOp {g : Guard} {all : Bool} {ld st cp tl : BitVec 5} (hI : s.Every I) : Out.Leads (s.waitOp g all ld st cp tl) I := by
  unfold State.waitOp
  exact issue hI (fun _ => ite (waitRetire hI) (waitFor hI not_false))

theorem execWait_leads {g : Guard} {ld st cp tl : BitVec 5} (hI : s.Every I) : Out.Leads (execWait g ld st cp tl s) I := by
  unfold execWait
  exact waitOp hI

theorem execWaitAll_leads {g : Guard} {ld st cp tl : BitVec 5} (hI : s.Every I) : Out.Leads (execWaitAll g ld st cp tl s) I := by
  unfold execWaitAll
  exact waitOp hI

theorem execNop_leads {g : Guard} (hI : s.Every I) : Out.Leads (execNop g s) I := by
  unfold execNop
  exact simple hI id

/-! ### VPASS and VPASSR (R90 to R99) -/

theorem vpassOp {g : Guard} {d a b : BitVec 5} {rep : Bool} (hI : s.Every I) : Out.Leads (s.vpassOp g d a b rep) I := by
  unfold State.vpassOp
  refine issue hI fun hh => ?_
  have hc : (s.ctx s.cur).cntTl < 31 := by
    simp only [Bool.or_eq_false_iff, decide_eq_false_iff_not, Nat.not_le] at hh
    exact hh.2
  dsimp only
  split
  · exact raise hI
  split
  · exact raise hI
  split
  · exact raise hI
  refine ite (setCtx hI (.advance (ctx hI))) ?_
  split
  · exact raise hI
  · exact ite (raise hI) (updCore (setCtx hI (.advance (.record (I.pushTl _ hc (ctx hI)) rfl rfl))))

theorem execVpass_leads {g : Guard} {d a b : BitVec 5} (hI : s.Every I) : Out.Leads (execVpass g d a b s) I := by
  unfold execVpass
  exact vpassOp hI

theorem execVpassr_leads {g : Guard} {d a b : BitVec 5} (hI : s.Every I) : Out.Leads (execVpassr g d a b s) I := by
  unfold execVpassr
  exact vpassOp hI

theorem execPassChainStart_leads {core : CoreId} (hI : s.Every I) : Out.Leads (execPassChainStart core s) I := by
  unfold execPassChainStart
  exact updCore hI

theorem execPassChainComplete_leads {core : CoreId} (hI : s.Every I) : Out.Leads (execPassChainComplete core s) I := by
  unfold execPassChainComplete
  split
  · exact hI
  · exact Out.Leads.ite hI (updCtx (addFlags (updCore (chainRun_every hI))) (fun hx => .record (.finishTl hx) rfl rfl))

theorem execBankZeroDone_leads {core : CoreId} {bank : Nat} (hI : s.Every I) : Out.Leads (execBankZeroDone core bank s) I := by
  unfold execBankZeroDone
  refine foldl (fun _ _ hs => updCtx hs fun hx => .banks hx rfl rfl fun hq b hb => ?_) hI
  obtain ⟨a, ha, rfl⟩ := List.mem_map.mp hb
  split
  · exact hq a ha
  · exact hq a ha

/-! ### Units of a load -/

theorem updFab {c : CtxId} {f : Fab → Fab} (hI : s.Every I) : (s.updFab c f).Every I := by
  unfold State.updFab
  exact updCtx hI (fun hx => .record hx rfl rfl)

theorem fabFault {c : CtxId} {t : Trap} (hI : s.Every I) : (s.fabFault c t).Every I := by
  unfold State.fabFault
  exact raise (updFab hI)

theorem linkFault {c : CtxId} {src : Nat} (hI : s.Every I) : (s.linkFault c src).Every I := by
  unfold State.linkFault
  exact fabFault (freeAddr hI)

/-! ### Cross-core links (R102, R380, R416, R417) -/

theorem fwDrop {ten cb core side kind : Nat} {bten : Nat} (hI : s.Every I) : (s.fwDrop ten cb core side kind bten).Every I := by
  unfold State.fwDrop
  exact event (setMg hI)

theorem holdMiss {c : CtxId} {e : BrEnd} {p : Packet} (hI : s.Every I) : (s.holdMiss c e p).Every I := by
  unfold State.holdMiss
  exact ite (updCtx hI (fun hx => .record hx rfl rfl)) (raise (updCtx hI (fun hx1 => .record hx1 rfl rfl)))

theorem boxTest {d : CtxId} {side pos start : Nat} {p : Packet} (hI : s.Every I) : (s.boxTest d side pos start p).Every I := by
  unfold State.boxTest
  exact ite hI (ite (updFab hI) (fwDrop hI))

theorem relayDrain {d : CtxId} {side pos n : Nat} (hI : s.Every I) : (s.relayDrain d side pos n).Every I := by
  induction n generalizing s with
  | zero => exact hI
  | succ n ih =>
    rw [State.relayDrain]
    split
    · split
      · exact ite hI (ih (boxTest (updFab hI)))
      · exact hI
    · exact hI

theorem cross {c : CtxId} {side pos : Nat} {p : Packet} (hI : s.Every I) : (s.cross c side pos p).Every I := by
  unfold State.cross
  split
  · exact hI
  · simp only
    split
    · exact relayDrain (updFab hI)
    · exact boxTest hI

theorem forwardDemand {c : CtxId} {i : Nat} (hI : s.Every I) : (s.forwardDemand c i).Every I := by
  unfold State.forwardDemand
  split
  · split
    · refine ite hI ?_
      simp only
      split
      · exact updFab hI
      · split
        · exact updFab hI
        · exact updFab (updFab hI)
    · exact hI
  · exact hI

/-! ### The steps of streams -/

theorem cmdArrive {c : CtxId} {e : BrEnd} {l : List QItem} {n : Nat} (hI : s.Every I) : (s.cmdArrive c e l n).Every I := by
  unfold State.cmdArrive
  exact ite (updCore hI) hI

theorem execPacketArrive_leads {c : CtxId} {seg br : Nat} (hI : s.Every I) : Out.Leads (execPacketArrive c seg br s) I := by
  unfold execPacketArrive
  simp only
  split
  · exact hI
  · split
    · exact hI
    · refine Out.Leads.ite (updFab hI) ?_
      split
      · split
        · exact Out.Leads.ite hI (linkFault (updFab hI))
        · exact Out.Leads.ite hI (cross (updFab (updFab hI)))
      · split
        · exact holdMiss (updFab hI)
        · exact Out.Leads.ite (Out.Leads.ite hI (fabFault hI)) (Out.Leads.ite (Out.Leads.ite (updFab (updFab hI)) (updFab (updFab (updFab hI)))) (cmdArrive (updFab (ite (updFab (updFab hI)) (updFab hI)))))

theorem execLaneSkipDemand_leads {c : CtxId} {seg br : Nat} (hI : s.Every I) : Out.Leads (execLaneSkipDemand c seg br s) I := by
  unfold execLaneSkipDemand
  split
  · exact hI
  · exact Out.Leads.ite hI (updFab hI)

theorem execDemandArrive_leads {c : CtxId} {seg br : Nat} (hI : s.Every I) : Out.Leads (execDemandArrive c seg br s) I := by
  unfold execDemandArrive
  split
  · exact hI
  · split
    · exact hI
    · split
      · exact Out.Leads.ite hI (linkFault (updFab hI))
      · refine Out.Leads.ite (updFab hI) ?_
        simp only
        split
        · exact forwardDemand (relayDrain (updFab hI))
        · exact forwardDemand (updFab hI)

theorem sendFrom_every {c : CtxId} {x : Ctx} {e : BrEnd} (hI : s.Every I) : (execDemandSend.sendFrom c s x e).Every I := by
  unfold execDemandSend.sendFrom
  split
  · exact ite hI (updFab hI)
  · exact hI

theorem execDemandSend_leads {c : CtxId} {k : Sink} (hI : s.Every I) : Out.Leads (execDemandSend c k s) I := by
  unfold execDemandSend
  refine Out.Leads.ite hI ?_
  split
  · split
    · exact hI
    · split
      · refine Out.Leads.ite hI ?_
        simp only
        split
        · exact updFab hI
        · split
          · exact updFab hI
          · exact updFab (updFab hI)
      · exact hI
  · exact sendFrom_every hI
  · exact sendFrom_every hI

theorem execPackerClose_leads {c : CtxId} {p : Source} (hI : s.Every I) : Out.Leads (execPackerClose c p s) I := by
  unfold execPackerClose
  refine Out.Leads.ite hI ?_
  split
  · split
    · exact Out.Leads.ite hI (updFab hI)
    · exact hI
  · split
    · exact Out.Leads.ite hI (updFab hI)
    · exact hI
  · refine Out.Leads.ite ?_ ?_
    · split
      · exact Out.Leads.ite hI (updFab hI)
      · exact hI
    · split
      · refine Out.Leads.ite hI ?_
        split
        · exact hI
        · exact updFab hI
        · exact updFab hI
      · exact hI

theorem execAuxTokenSend_leads {c : CtxId} {n : Nat} (hI : s.Every I) : Out.Leads (execAuxTokenSend c n s) I := by
  unfold execAuxTokenSend
  refine Out.Leads.ite hI ?_
  split
  · split
    · exact Out.Leads.ite hI (updFab hI)
    · exact hI
  · exact hI

/-! ### Firing (R116 to R119) -/

theorem serve {key : Nat} {c : CtxId} (hI : s.Every I) : (s.serve key c).Every I := by
  unfold State.serve
  exact record hI

theorem putCell {c : CtxId} {n : Nat} {k : Cell} (hI : s.Every I) : (s.putCell c n k).Every I := by
  unfold State.putCell
  exact updFab hI

theorem putFired {c : CtxId} {n : Nat} {k : Cell} (hI : s.Every I) : (s.putFired c n k).Every I := by
  unfold State.putFired
  exact serve (putCell hI)

theorem fireMap {c : CtxId} {n op : Nat} {f : ElTy → Round → Tup → W32 × W32} (hI : s.Every I) : Out.Leads (s.fireMap c n op f) I := by
  unfold State.fireMap
  split
  · exact hI
  · exact fabFault hI
  · exact addFlags (putFired hI)

theorem execCellAdd_leads {c : CtxId} {n : Nat} (hI : s.Every I) : Out.Leads (execCellAdd c n s) I := by
  unfold execCellAdd
  exact fireMap hI

theorem execCellSub_leads {c : CtxId} {n : Nat} (hI : s.Every I) : Out.Leads (execCellSub c n s) I := by
  unfold execCellSub
  exact fireMap hI

theorem execCellRsub_leads {c : CtxId} {n : Nat} (hI : s.Every I) : Out.Leads (execCellRsub c n s) I := by
  unfold execCellRsub
  exact fireMap hI

theorem execCellMul_leads {c : CtxId} {n : Nat} (hI : s.Every I) : Out.Leads (execCellMul c n s) I := by
  unfold execCellMul
  exact fireMap hI

theorem execCellMulh_leads {c : CtxId} {n : Nat} (hI : s.Every I) : Out.Leads (execCellMulh c n s) I := by
  unfold execCellMulh
  exact fireMap hI

theorem execCellMad_leads {c : CtxId} {n : Nat} (hI : s.Every I) : Out.Leads (execCellMad c n s) I := by
  unfold execCellMad
  exact fireMap hI

theorem execCellAdds_leads {c : CtxId} {n : Nat} (hI : s.Every I) : Out.Leads (execCellAdds c n s) I := by
  unfold execCellAdds
  exact fireMap hI

theorem execCellSubs_leads {c : CtxId} {n : Nat} (hI : s.Every I) : Out.Leads (execCellSubs c n s) I := by
  unfold execCellSubs
  exact fireMap hI

theorem execCellMin_leads {c : CtxId} {n : Nat} (hI : s.Every I) : Out.Leads (execCellMin c n s) I := by
  unfold execCellMin
  exact fireMap hI

theorem execCellMax_leads {c : CtxId} {n : Nat} (hI : s.Every I) : Out.Leads (execCellMax c n s) I := by
  unfold execCellMax
  exact fireMap hI

theorem execCellMinu_leads {c : CtxId} {n : Nat} (hI : s.Every I) : Out.Leads (execCellMinu c n s) I := by
  unfold execCellMinu
  exact fireMap hI

theorem execCellMaxu_leads {c : CtxId} {n : Nat} (hI : s.Every I) : Out.Leads (execCellMaxu c n s) I := by
  unfold execCellMaxu
  exact fireMap hI

theorem execCellAbs_leads {c : CtxId} {n : Nat} (hI : s.Every I) : Out.Leads (execCellAbs c n s) I := by
  unfold execCellAbs
  exact fireMap hI

theorem execCellNeg_leads {c : CtxId} {n : Nat} (hI : s.Every I) : Out.Leads (execCellNeg c n s) I := by
  unfold execCellNeg
  exact fireMap hI

theorem execCellAnd_leads {c : CtxId} {n : Nat} (hI : s.Every I) : Out.Leads (execCellAnd c n s) I := by
  unfold execCellAnd
  exact fireMap hI

theorem execCellOr_leads {c : CtxId} {n : Nat} (hI : s.Every I) : Out.Leads (execCellOr c n s) I := by
  unfold execCellOr
  exact fireMap hI

theorem execCellXor_leads {c : CtxId} {n : Nat} (hI : s.Every I) : Out.Leads (execCellXor c n s) I := by
  unfold execCellXor
  exact fireMap hI

theorem execCellShl_leads {c : CtxId} {n : Nat} (hI : s.Every I) : Out.Leads (execCellShl c n s) I := by
  unfold execCellShl
  exact fireMap hI

theorem execCellShr_leads {c : CtxId} {n : Nat} (hI : s.Every I) : Out.Leads (execCellShr c n s) I := by
  unfold execCellShr
  exact fireMap hI

theorem execCellSra_leads {c : CtxId} {n : Nat} (hI : s.Every I) : Out.Leads (execCellSra c n s) I := by
  unfold execCellSra
  exact fireMap hI

theorem execCellClz_leads {c : CtxId} {n : Nat} (hI : s.Every I) : Out.Leads (execCellClz c n s) I := by
  unfold execCellClz
  exact fireMap hI

theorem execCellPopc_leads {c : CtxId} {n : Nat} (hI : s.Every I) : Out.Leads (execCellPopc c n s) I := by
  unfold execCellPopc
  exact fireMap hI

theorem execCellFadd_leads {c : CtxId} {n : Nat} (hI : s.Every I) : Out.Leads (execCellFadd c n s) I := by
  unfold execCellFadd
  exact fireMap hI

theorem execCellFsub_leads {c : CtxId} {n : Nat} (hI : s.Every I) : Out.Leads (execCellFsub c n s) I := by
  unfold execCellFsub
  exact fireMap hI

theorem execCellFmul_leads {c : CtxId} {n : Nat} (hI : s.Every I) : Out.Leads (execCellFmul c n s) I := by
  unfold execCellFmul
  exact fireMap hI

theorem execCellFma_leads {c : CtxId} {n : Nat} (hI : s.Every I) : Out.Leads (execCellFma c n s) I := by
  unfold execCellFma
  exact fireMap hI

theorem execCellFms_leads {c : CtxId} {n : Nat} (hI : s.Every I) : Out.Leads (execCellFms c n s) I := by
  unfold execCellFms
  exact fireMap hI

theorem execCellFmin_leads {c : CtxId} {n : Nat} (hI : s.Every I) : Out.Leads (execCellFmin c n s) I := by
  unfold execCellFmin
  exact fireMap hI

theorem execCellFmax_leads {c : CtxId} {n : Nat} (hI : s.Every I) : Out.Leads (execCellFmax c n s) I := by
  unfold execCellFmax
  exact fireMap hI

theorem execCellFabs_leads {c : CtxId} {n : Nat} (hI : s.Every I) : Out.Leads (execCellFabs c n s) I := by
  unfold execCellFabs
  exact fireMap hI

theorem execCellFneg_leads {c : CtxId} {n : Nat} (hI : s.Every I) : Out.Leads (execCellFneg c n s) I := by
  unfold execCellFneg
  exact fireMap hI

theorem execCellRcp_leads {c : CtxId} {n : Nat} (hI : s.Every I) : Out.Leads (execCellRcp c n s) I := by
  unfold execCellRcp
  exact fireMap hI

theorem execCellRsq_leads {c : CtxId} {n : Nat} (hI : s.Every I) : Out.Leads (execCellRsq c n s) I := by
  unfold execCellRsq
  exact fireMap hI

theorem execCellExp2_leads {c : CtxId} {n : Nat} (hI : s.Every I) : Out.Leads (execCellExp2 c n s) I := by
  unfold execCellExp2
  exact fireMap hI

theorem execCellLog2_leads {c : CtxId} {n : Nat} (hI : s.Every I) : Out.Leads (execCellLog2 c n s) I := by
  unfold execCellLog2
  exact fireMap hI

theorem execCellCmpEq_leads {c : CtxId} {n : Nat} (hI : s.Every I) : Out.Leads (execCellCmpEq c n s) I := by
  unfold execCellCmpEq
  exact fireMap hI

theorem execCellCmpNe_leads {c : CtxId} {n : Nat} (hI : s.Every I) : Out.Leads (execCellCmpNe c n s) I := by
  unfold execCellCmpNe
  exact fireMap hI

theorem execCellCmpLt_leads {c : CtxId} {n : Nat} (hI : s.Every I) : Out.Leads (execCellCmpLt c n s) I := by
  unfold execCellCmpLt
  exact fireMap hI

theorem execCellCmpLe_leads {c : CtxId} {n : Nat} (hI : s.Every I) : Out.Leads (execCellCmpLe c n s) I := by
  unfold execCellCmpLe
  exact fireMap hI

theorem execCellCmpLtu_leads {c : CtxId} {n : Nat} (hI : s.Every I) : Out.Leads (execCellCmpLtu c n s) I := by
  unfold execCellCmpLtu
  exact fireMap hI

theorem execCellCmpLeu_leads {c : CtxId} {n : Nat} (hI : s.Every I) : Out.Leads (execCellCmpLeu c n s) I := by
  unfold execCellCmpLeu
  exact fireMap hI

theorem execCellFcmpEq_leads {c : CtxId} {n : Nat} (hI : s.Every I) : Out.Leads (execCellFcmpEq c n s) I := by
  unfold execCellFcmpEq
  exact fireMap hI

theorem execCellFcmpNe_leads {c : CtxId} {n : Nat} (hI : s.Every I) : Out.Leads (execCellFcmpNe c n s) I := by
  unfold execCellFcmpNe
  exact fireMap hI

theorem execCellFcmpLt_leads {c : CtxId} {n : Nat} (hI : s.Every I) : Out.Leads (execCellFcmpLt c n s) I := by
  unfold execCellFcmpLt
  exact fireMap hI

theorem execCellFcmpLe_leads {c : CtxId} {n : Nat} (hI : s.Every I) : Out.Leads (execCellFcmpLe c n s) I := by
  unfold execCellFcmpLe
  exact fireMap hI

theorem execCellFcmpUn_leads {c : CtxId} {n : Nat} (hI : s.Every I) : Out.Leads (execCellFcmpUn c n s) I := by
  unfold execCellFcmpUn
  exact fireMap hI

theorem execCellSel_leads {c : CtxId} {n : Nat} (hI : s.Every I) : Out.Leads (execCellSel c n s) I := by
  unfold execCellSel
  exact fireMap hI

theorem execCellPand_leads {c : CtxId} {n : Nat} (hI : s.Every I) : Out.Leads (execCellPand c n s) I := by
  unfold execCellPand
  exact fireMap hI

theorem execCellPor_leads {c : CtxId} {n : Nat} (hI : s.Every I) : Out.Leads (execCellPor c n s) I := by
  unfold execCellPor
  exact fireMap hI

theorem execCellPxor_leads {c : CtxId} {n : Nat} (hI : s.Every I) : Out.Leads (execCellPxor c n s) I := by
  unfold execCellPxor
  exact fireMap hI

theorem execCellPnot_leads {c : CtxId} {n : Nat} (hI : s.Every I) : Out.Leads (execCellPnot c n s) I := by
  unfold execCellPnot
  exact fireMap hI

theorem execCellMov_leads {c : CtxId} {n : Nat} (hI : s.Every I) : Out.Leads (execCellMov c n s) I := by
  unfold execCellMov
  exact fireMap hI

theorem execCellOrdj_leads {c : CtxId} {n : Nat} (hI : s.Every I) : Out.Leads (execCellOrdj c n s) I := by
  unfold execCellOrdj
  exact fireMap hI

theorem execCellConst_leads {c : CtxId} {n : Nat} (hI : s.Every I) : Out.Leads (execCellConst c n s) I := by
  unfold execCellConst
  split
  · exact hI
  · exact fabFault hI
  · exact putFired hI

theorem execCellSink_leads {c : CtxId} {n : Nat} (hI : s.Every I) : Out.Leads (execCellSink c n s) I := by
  unfold execCellSink
  split
  · exact hI
  · exact fabFault hI
  · exact putFired hI

end State.Every
end Sys2Proof.Machine

/-! What every step keeps of the contexts (continued): from "Conversion (R162, R163)" to "AMD (R302 to R304)". -/

namespace Sys2Proof.Machine
namespace State.Every
variable {I : CtxInv} {s : State}

/-! ### Conversion (R162, R163) -/

theorem execCellCvt_leads {c : CtxId} {n : Nat} (hI : s.Every I) : Out.Leads (execCellCvt c n s) I := by
  unfold execCellCvt
  simp only
  split
  · exact hI
  · exact fabFault hI
  · exact addFlags (putFired hI)

/-! ### Reductions (R164, R165) -/

theorem fireFold {c : CtxId} {n op : Nat} {f : ElTy → Round → W32 → Tup → W32 × W32} (hI : s.Every I) : Out.Leads (s.fireFold c n op f) I := by
  unfold State.fireFold
  split
  · exact hI
  · exact fabFault hI
  · exact addFlags (putFired hI)

theorem execCellRadd_leads {c : CtxId} {n : Nat} (hI : s.Every I) : Out.Leads (execCellRadd c n s) I := by
  unfold execCellRadd
  exact fireFold hI

theorem execCellRmin_leads {c : CtxId} {n : Nat} (hI : s.Every I) : Out.Leads (execCellRmin c n s) I := by
  unfold execCellRmin
  exact fireFold hI

theorem execCellRmax_leads {c : CtxId} {n : Nat} (hI : s.Every I) : Out.Leads (execCellRmax c n s) I := by
  unfold execCellRmax
  exact fireFold hI

theorem execCellRfadd_leads {c : CtxId} {n : Nat} (hI : s.Every I) : Out.Leads (execCellRfadd c n s) I := by
  unfold execCellRfadd
  exact fireFold hI

theorem execCellRfmin_leads {c : CtxId} {n : Nat} (hI : s.Every I) : Out.Leads (execCellRfmin c n s) I := by
  unfold execCellRfmin
  exact fireFold hI

theorem execCellRfmax_leads {c : CtxId} {n : Nat} (hI : s.Every I) : Out.Leads (execCellRfmax c n s) I := by
  unfold execCellRfmax
  exact fireFold hI

theorem execCellScacc_leads {c : CtxId} {n : Nat} (hI : s.Every I) : Out.Leads (execCellScacc c n s) I := by
  unfold execCellScacc
  exact fireFold hI

/-! ### Stream shaping (R167 to R169, R172) -/

theorem execCellMerge_leads {c : CtxId} {n : Nat} (hI : s.Every I) : Out.Leads (execCellMerge c n s) I := by
  unfold execCellMerge
  simp only
  split
  · exact hI
  · exact Out.Leads.ite hI (Out.Leads.ite hI (putFired hI))

theorem fireSplit {c : CtxId} {n op : Nat} {dest : Tup → Nat → Bool × Bool} (hI : s.Every I) : Out.Leads (s.fireSplit c n op dest) I := by
  unfold State.fireSplit
  simp only
  split
  · exact hI
  · exact fabFault hI
  · exact putFired hI

theorem execCellSplit_leads {c : CtxId} {n : Nat} (hI : s.Every I) : Out.Leads (execCellSplit c n s) I := by
  unfold execCellSplit
  exact fireSplit hI

theorem execCellDup_leads {c : CtxId} {n : Nat} (hI : s.Every I) : Out.Leads (execCellDup c n s) I := by
  unfold execCellDup
  exact fireSplit hI

theorem execCellGate_leads {c : CtxId} {n : Nat} (hI : s.Every I) : Out.Leads (execCellGate c n s) I := by
  unfold execCellGate
  exact fireSplit hI

theorem execCellSteer_leads {c : CtxId} {n : Nat} (hI : s.Every I) : Out.Leads (execCellSteer c n s) I := by
  unfold execCellSteer
  exact fireSplit hI

theorem execCellMkins_leads {c : CtxId} {n : Nat} (hI : s.Every I) : Out.Leads (execCellMkins c n s) I := by
  unfold execCellMkins
  simp only
  split
  · exact hI
  · refine Out.Leads.ite (Out.Leads.ite hI (Out.Leads.ite (updFab hI) (updFab hI))) ?_
    split
    · exact hI
    · exact fabFault hI
    · exact putFired hI

/-! ### Memory operators (R173 to R176) -/

theorem fireMem {c : CtxId} {n op : Nat} (hI : s.Every I) : Out.Leads (s.fireMem c n op) I := by
  unfold State.fireMem
  split
  · exact hI
  · exact fabFault hI
  · split
    · exact fabFault hI
    · exact putFired hI

theorem execCellLd_leads {c : CtxId} {n : Nat} (hI : s.Every I) : Out.Leads (execCellLd c n s) I := by
  unfold execCellLd
  exact fireMem hI

theorem execCellSt_leads {c : CtxId} {n : Nat} (hI : s.Every I) : Out.Leads (execCellSt c n s) I := by
  unfold execCellSt
  exact fireMem hI

theorem execCellAmoAdd_leads {c : CtxId} {n : Nat} (hI : s.Every I) : Out.Leads (execCellAmoAdd c n s) I := by
  unfold execCellAmoAdd
  exact fireMem hI

theorem execCellAmoMin_leads {c : CtxId} {n : Nat} (hI : s.Every I) : Out.Leads (execCellAmoMin c n s) I := by
  unfold execCellAmoMin
  exact fireMem hI

theorem execCellAmoMax_leads {c : CtxId} {n : Nat} (hI : s.Every I) : Out.Leads (execCellAmoMax c n s) I := by
  unfold execCellAmoMax
  exact fireMem hI

theorem execCellAmoSwap_leads {c : CtxId} {n : Nat} (hI : s.Every I) : Out.Leads (execCellAmoSwap c n s) I := by
  unfold execCellAmoSwap
  exact fireMem hI

theorem execCellAmoAfadd_leads {c : CtxId} {n : Nat} (hI : s.Every I) : Out.Leads (execCellAmoAfadd c n s) I := by
  unfold execCellAmoAfadd
  exact fireMem hI

theorem accFault {c : CtxId} {n : Nat} {k : Cell} {i : Nat} {t : Trap} (hI : s.Every I) : (s.accFault c n k i t).Every I := by
  unfold State.accFault
  exact ite (raise (putCell hI)) (fabFault (putCell hI))

theorem accEffect {c : CtxId} {a : CellAcc} (hI : s.Every I) : ∀ r ∈ s.accEffect c a, Leaves (fun _ => True) (·.1.Every I) r := by
  unfold State.accEffect
  intro r hr
  simp only at hr
  repeat' split at hr
  all_goals cases hr
  exacts [hI, trivial, trivial, spadWrite hI, hI, spadWrite hI]

theorem execMemAccessEffect_leads {c : CtxId} {n : Nat} (hI : s.Every I) : Out.Leads (execMemAccessEffect c n s) I := by
  unfold execMemAccessEffect
  simp only
  split
  · exact hI
  refine .ite hI ?_
  split
  · exact putCell hI
  split
  · exact hI
  refine .ite hI ?_
  split
  · exact hI
  · exact accFault hI
  · rename_i hx
    have ht := accEffect hI _ hx
    exact .ite (putCell ht) (putCell ht)

/-! ### Operations beyond the core (R179 to R181) -/

theorem execCellSpawn_leads {c : CtxId} {n : Nat} (hI : s.Every I) : Out.Leads (execCellSpawn c n s) I := by
  unfold execCellSpawn
  split
  · exact hI
  · exact fabFault hI
  · split
    · exact Out.Leads.ite (record (putFired hI)) (putFired hI)
    · exact hI

theorem execSpawnReply_leads {c : CtxId} {n : Nat} (hI : s.Every I) : Out.Leads (execSpawnReply c n s) I := by
  unfold execSpawnReply
  simp only
  split
  · exact hI
  · split
    · exact Out.Leads.ite hI (putCell hI)
    · exact hI

theorem addPkt {core : CoreId} {c : CtxId} {src : PSrc} {lsn seq stage : Nat} {b : List Byte} (hI : s.Every I) : (s.addPkt core c src lsn seq stage b).Every I := by
  unfold State.addPkt
  exact record (updCore hI)

theorem execCellCpy_leads {c : CtxId} {n : Nat} (hI : s.Every I) : Out.Leads (execCellCpy c n s) I := by
  unfold execCellCpy
  simp only
  split
  · exact hI
  · exact fabFault hI
  · exact Out.Leads.ite (putFired hI) (Out.Leads.ite (updCore (putFired hI)) (addPkt (updCtx (putFired hI) (fun hx => .record hx rfl rfl))))

theorem execCellAcput_leads {c : CtxId} {n : Nat} (hI : s.Every I) : Out.Leads (execCellAcput c n s) I := by
  unfold execCellAcput
  refine Out.Leads.ite hI ?_
  split
  · exact hI
  · exact fabFault hI
  · simp only
    split
    · exact Out.Leads.ite (fabFault (putCell hI)) (putFired hI)
    · exact putFired hI

/-! ### Markers (R113, R114) -/

theorem execCellMarkerPass_leads {c : CtxId} {n : Nat} (hI : s.Every I) : Out.Leads (execCellMarkerPass c n s) I := by
  unfold execCellMarkerPass
  simp only
  split
  · exact hI
  · refine Out.Leads.ite hI ?_
    split
    · exact Out.Leads.ite hI (fabFault hI)
    · exact fabFault hI
    · refine Out.Leads.ite (fabFault hI) ?_
      split
      · exact fabFault hI
      · exact Out.Leads.ite hI (updFab (putFired hI))
    · exact hI

/-! ### The units of a load (R110, R131, R143, R187) -/

theorem unitXlate {who : Who} {core : CoreId} {die asid va : Nat} {need : Need} (hI : s.Every I) : (s.unitXlate who core die asid va need).Every I := by
  unfold State.unitXlate
  refine SeqX.Every.ite hI ?_
  split
  · exact SeqX.Every.ite hI trivial
  · simp only
    split
    · split
      · exact setDie hI
      · exact SeqX.Every.ite (setDie hI) (updDie (setDie hI))
    · exact ite hI (setDie hI)

theorem seqXlate {c : CtxId} {va : Nat} {need : Need} (hI : s.Every I) : (s.seqXlate c va need).Every I := by
  unfold State.seqXlate
  exact unitXlate hI

theorem onlyLocal {core : CoreId} {die asid : Nat} {va : Int} {wr : Bool} {r : SeqX} (hI : s.Every I) (hr : r.Every I) : (s.onlyLocal core die asid va wr r).Every I := by
  unfold State.onlyLocal
  split
  · exact SeqX.Every.ite trivial hI
  · exact hr

/-! ### Leases -/

theorem readSpadImage {c : CtxId} {ea : W64} (hI : s.Every I) : (s.readSpadImage c ea).Every I := by
  unfold State.readSpadImage
  simp only
  split
  · exact hI
  · split
    · exact hI
    · split
      · exact hI
      · refine ImgRead.Every.ite hI ?_
        split
        · exact hI
        · split
          · exact hI
          · split
            · exact hI
            · exact trivial

theorem transPage {c : CtxId} {va : Nat} (hI : s.Every I) : (s.transPage c va).Every I := by
  unfold State.transPage
  exact onlyLocal hI (seqXlate hI)

theorem readFault {c : CtxId} {va pa n : Nat} (hI : s.Every I) : ∀ r ∈ (s.readFault c va pa n), r.1.Every I := by
  unfold State.readFault
  exact mapPair (fun _ => noteRefusal hI)

theorem readPages {c : CtxId} {va len fuel k : Nat} (hI : s.Every I) : Leaves (·.Every I) (fun _ => True) (s.readPages c va len fuel k) := by
  induction fuel generalizing k with
  | zero => exact trivial
  | succ fuel ih =>
    rw [State.readPages]
    split
    · split
      · exact trivial
      · next hx => exact (ih (k := k + 1)).error hx
    · exact transPage hI

theorem readDevImage {c : CtxId} {ea : W64} (hI : s.Every I) : (s.readDevImage c ea).Every I := by
  unfold State.readDevImage
  refine ImgRead.Every.ite hI ?_
  refine ImgRead.Every.ite hI ?_
  split
  · split
    · rename_i hx
      exact ((readFault hI) _ hx)
    · simp only
      split
      · exact hI
      · split
        · rename_i hx1
          split
          · exact ((readPages hI).error hx1)
          · exact ((readPages hI).error hx1)
          · exact hI
        · split
          · rename_i hx2
            exact ((findSome (fun _ => readFault hI)) _ hx2)
          · split
            · exact hI
            · exact trivial
  · simp only
    split
    · rename_i hx3
      exact ((transPage hI).hold hx3)
    · rename_i hx4
      exact ((transPage hI).fault hx4)
    · exact hI

theorem cfgLoad {g : Guard} {d a : BitVec 5} {imm : BitVec 11} {pre : Bool} (hI : s.Every I) : Out.Leads (s.cfgLoad g d a imm pre) I := by
  unfold State.cfgLoad
  refine issue hI fun hh => ?_
  dsimp only
  have hr : (if ((s.ctx s.cur).reg a + 64 * imm11 imm).getLsbD 63 = true then s.readDevImage s.cur ((s.ctx s.cur).reg a + 64 * imm11 imm)
      else s.readSpadImage s.cur ((s.ctx s.cur).reg a + 64 * imm11 imm)).Every I := .ite (readDevImage hI) (readSpadImage hI)
  split
  · next hx => exact hr.hold hx
  · next hx => exact raise (hr.fault hx)
  · split
    · next hp =>
      have hc : (s.ctx s.cur).cntTl < 31 := by
        simp only [hp, Bool.true_and, Bool.or_eq_false_iff, decide_eq_false_iff_not, Nat.not_le] at hh
        exact hh.2
      exact setCtx hI (.advance (.record (I.pushTl ⟨(s.ctx s.cur).tlN, true, false⟩ hc (ctx hI)) (by simp [Ctx.work]) (by simp)))
    · exact waitFor (setCtx hI (.record (ctx hI) rfl rfl)) not_false

theorem execCfgLd_leads {g : Guard} {d a : BitVec 5} {imm : BitVec 11} (hI : s.Every I) : Out.Leads (execCfgLd g d a imm s) I := by
  unfold execCfgLd
  exact cfgLoad hI

theorem execCfgPre_leads {g : Guard} {d a : BitVec 5} {imm : BitVec 11} (hI : s.Every I) : Out.Leads (execCfgPre g d a imm s) I := by
  unfold execCfgPre
  exact cfgLoad hI

theorem execCfgLdComplete_leads {c : CtxId} (hI : s.Every I) : Out.Leads (execCfgLdComplete c s) I := by
  unfold execCfgLdComplete
  refine Out.Leads.ite hI ?_
  simp only
  split
  · exact retire (ite (updCtx hI (fun hx => .record hx rfl rfl)) hI) (fun hx1 => .setReg hx1)
  · exact ite (updCtx hI (fun hx2 => .record hx2 rfl rfl)) hI

theorem execCfgPreComplete_leads {c : CtxId} (hI : s.Every I) : Out.Leads (execCfgPreComplete c s) I := by
  unfold execCfgPreComplete
  simp only
  split
  · exact Out.Leads.ite hI (updCtx hI (fun hx => .record (.finishTl hx) rfl rfl))
  · exact hI

/-! ### Collectives (R131 to R133, R191, R203) -/

theorem execCfgGo_leads {g : Guard} {d : BitVec 5} {id : BitVec 16} (hI : s.Every I) : Out.Leads (execCfgGo g d id s) I := by
  unfold execCfgGo
  refine issue hI (fun _ => ?_)
  simp only
  split
  · exact raise hI
  · split
    · exact raise hI
    · split
      · exact waitFor (putLease hI (.record (leaseFor hI) rfl)) not_false
      · exact raise hI
      · exact raise (putLease hI (.record (leaseFor hI) rfl))

theorem execLeaseBar_leads {g : Guard} {id : BitVec 16} (hI : s.Every I) : Out.Leads (execLeaseBar g id s) I := by
  unfold execLeaseBar
  refine issue hI (fun _ => ?_)
  simp only
  split
  · exact raise hI
  · split
    · exact waitFor (putLease hI (.record (leaseFor hI) rfl)) not_false
    · exact raise hI
    · exact raise hI

theorem startLoad {c : CtxId} {id : Nat} (hI : s.Every I) : (s.startLoad c id).Every I := by
  unfold State.startLoad State.startLoad.id_
  simp only
  split
  · exact hI
  · have hs : ∀ {x : Ctx} {f : Core → Core}, x.work = (s.ctx c).work → x.wait = (s.ctx c).wait → ((s.setCtx c x).updCore (coreOf c) f).Every I :=
      fun h1 h2 => updCore (setCtx hI (.record (ctx hI) h1 h2))
    split
    · refine fabFault ?_
      split
      · exact retire (hs rfl rfl) fun h => h
      · exact hs rfl rfl
    · split
      · exact retire (hs rfl rfl) fun h => h
      · exact hs rfl rfl

theorem execLeaseBarRelease_leads {lid : Nat} (hI : s.Every I) : Out.Leads (execLeaseBarRelease lid s) I := by
  unfold execLeaseBarRelease
  split
  · exact hI
  · rename_i hl
    split
    · exact hI
    · refine Out.Leads.ite hI ?_
      refine foldl (fun _ _ hs1 => ?_) (putLease hI (.record (leaseAt hI hl) rfl))
      split
      · exact retire hs1 (fun hx2 => hx2)
      · exact hs1

theorem execLeaseBreak_leads {lid : Nat} (hI : s.Every I) : Out.Leads (execLeaseBreak lid s) I := by
  unfold execLeaseBreak
  split
  · exact hI
  · rename_i hl
    split
    · exact Out.Leads.ite hI (putLease hI (.record (lease hI hl) rfl))
    · exact hI

theorem execCollectiveAbandon_leads {lid : Nat} (hI : s.Every I) : Out.Leads (execCollectiveAbandon lid s) I := by
  unfold execCollectiveAbandon
  split
  · exact hI
  · rename_i hl
    split
    · exact hI
    · refine foldl (fun _ _ hs1 => ?_) (putLease hI (.record (lease hI hl) rfl))
      split
      · exact ite (raise hs1) hs1
      · exact ite (raise hs1) hs1
      · exact hs1

/-! ### The end of a load (R134, R192 to R194) -/

theorem dropCmds {c : CtxId} (hI : s.Every I) : (s.dropCmds c).Every I := by
  unfold State.dropCmds
  exact updCore hI

theorem endLoad {c : CtxId} {status : Nat} (hI : s.Every I) : (s.endLoad c status).Every I := by
  unfold State.endLoad
  exact dropCmds (updCtx hI (fun hx => .record hx rfl rfl))

theorem stopLoad {c : CtxId} {status : Nat} (hI : s.Every I) : (s.stopLoad c status).Every I := by
  unfold State.stopLoad
  exact dropCmds (updCtx hI (fun hx => .record hx rfl rfl))

theorem execLoadEnd_leads {c : CtxId} (hI : s.Every I) : Out.Leads (execLoadEnd c s) I := by
  unfold execLoadEnd
  exact Out.Leads.ite hI (Out.Leads.ite (Out.Leads.ite (endLoad hI) hI) (Out.Leads.ite hI (endLoad hI)))

theorem execQuantumExpire_leads {lid : Nat} (hI : s.Every I) : Out.Leads (execQuantumExpire lid s) I := by
  unfold execQuantumExpire
  split
  · exact hI
  · rename_i hl
    exact Out.Leads.ite hI (foldl (fun _ _ hs1 => ite hs1 (ite (endLoad hs1) (stopLoad hs1))) (putLease hI (.record (leaseAt hI hl) rfl)))

theorem execLoadStop_leads {lid : Nat} (hI : s.Every I) : Out.Leads (execLoadStop lid s) I := by
  unfold execLoadStop
  split
  · exact hI
  · rename_i hl
    split
    · exact hI
    · exact Out.Leads.ite hI (foldl (fun _ _ hs1 => ite hs1 (ite (endLoad hs1) (stopLoad hs1))) hI)

theorem execCfgWait_leads {g : Guard} {d : BitVec 5} (hI : s.Every I) : Out.Leads (execCfgWait g d s) I := by
  unfold execCfgWait
  exact issue hI (fun _ => ite (waitFor hI not_false) (setCtx hI (.advance (.setReg (ctx hI)))))

theorem execCfgStop_leads {g : Guard} (hI : s.Every I) : Out.Leads (execCfgStop g s) I := by
  unfold execCfgStop
  exact issue hI (fun _ => setCtx (ite (putLease hI (.record (leaseFor hI) rfl)) hI) (.advance (.record (ctx hI) rfl rfl)))

theorem execCfgDrop_leads {g : Guard} {sl : BitVec 1} (hI : s.Every I) : Out.Leads (execCfgDrop g sl s) I := by
  unfold execCfgDrop
  exact issue hI (fun _ => ite (raise hI) (ite (setCtx hI (.advance (.record (ctx hI) rfl rfl))) (setCtx hI (.advance (.record (ctx hI) rfl rfl)))))

theorem execCfgStat_leads {g : Guard} {d : BitVec 5} (hI : s.Every I) : Out.Leads (execCfgStat g d s) I := by
  unfold execCfgStat
  exact issue hI (fun _ => ite (raise hI) (setCtx hI (.advance (.setReg (ctx hI)))))

/-! ### Shapes (R197 to R199) -/

theorem execShapeReq_leads {g : Guard} {d : BitVec 5} {f : BitVec 1} (hI : s.Every I) : Out.Leads (execShapeReq g d f s) I := by
  unfold execShapeReq
  refine issue hI (fun _ => ?_)
  refine ite (raise hI) ?_
  refine ite (raise hI) ?_
  simp only
  split
  · exact setCtx hI (.advance (.grant (ctx hI)))
  · exact ite (setCtx hI (.advance (.setReg (ctx hI)))) (waitFor (updCore hI) not_false)

theorem execShapeGrant_leads {core : CoreId} (hI : s.Every I) : Out.Leads (execShapeGrant core s) I := by
  unfold execShapeGrant
  split
  · exact hI
  · split
    · simp only
      split
      · exact retire (updCore hI) (fun hx => .grant hx)
      · exact hI
    · exact hI

theorem execShapeRel_leads {g : Guard} (hI : s.Every I) : Out.Leads (execShapeRel g s) I := by
  unfold execShapeRel
  exact issue hI (fun _ => ite (raise hI) (ite (setCtx hI (.advance (ctx hI))) (ite (setCtx hI (.advance (.record (ctx hI) rfl rfl))) (waitFor hI not_false))))

theorem execShapeReleaseDone_leads {c : CtxId} (hI : s.Every I) : Out.Leads (execShapeReleaseDone c s) I := by
  unfold execShapeReleaseDone
  refine Out.Leads.ite hI ?_
  split
  · exact setCtx hI (.record (ctx hI) rfl rfl)
  · exact retire hI (fun hx => .record hx rfl rfl)
  · exact hI

/-! ### Parameters and sequencer streams (R200 to R202) -/

theorem execParmWr_leads {g : Guard} {tile : BitVec 4} {a b : BitVec 5} (hI : s.Every I) : Out.Leads (execParmWr g tile a b s) I := by
  unfold execParmWr
  refine issue hI (fun _ => ?_)
  refine ite (raise hI) ?_
  refine ite (raise hI) ?_
  refine ite ?_ (setCtx hI (.advance (.record (ctx hI) rfl rfl)))
  split
  · exact setCtx hI (.advance (.record (ctx hI) rfl rfl))
  · exact hI

theorem sqSend {g : Guard} {i : Instr} {els : Ctx → List W32} {ty mark : Nat} (hI : s.Every I) : Out.Leads (s.sqSend g i els ty mark) I := by
  unfold State.sqSend
  refine issue hI (fun _ => ?_)
  split
  · exact ite (raise hI) (setCtx hI (.advance (.record (ctx hI) rfl rfl)))
  · exact raise hI

theorem execSqSend_leads {g : Guard} {a : BitVec 5} {ty : BitVec 3} (hI : s.Every I) : Out.Leads (execSqSend g a ty s) I := by
  unfold execSqSend
  exact sqSend hI

theorem execSqSendX2_leads {g : Guard} {a : BitVec 5} {ty : BitVec 3} (hI : s.Every I) : Out.Leads (execSqSendX2 g a ty s) I := by
  unfold execSqSendX2
  exact sqSend hI

theorem execSqSendEoi_leads {g : Guard} (hI : s.Every I) : Out.Leads (execSqSendEoi g s) I := by
  unfold execSqSendEoi
  exact sqSend hI

theorem execSqSendEos_leads {g : Guard} (hI : s.Every I) : Out.Leads (execSqSendEos g s) I := by
  unfold execSqSendEos
  exact sqSend hI

theorem execSqRecv_leads {g : Guard} {d : BitVec 5} (hI : s.Every I) : Out.Leads (execSqRecv g d s) I := by
  unfold execSqRecv
  refine issue hI fun _ => ite (raise hI) ?_
  split
  · next hx => exact setCtx hI (.advance (.recv (ctx hI) hx))
  · exact waitFor hI not_false

/-! ### Errors in the configuration store (R136) -/

theorem execConfigStoreEcc_leads {c : CtxId} {unit : Nat} (hI : s.Every I) : Out.Leads (execConfigStoreEcc c unit s) I := by
  unfold execConfigStoreEcc
  exact Out.Leads.ite hI (fabFault (updCtx hI (fun hx => .record hx rfl rfl)))

/-! ### Routing on the mesh (R272 to R275) -/

theorem sendFlit {req : Nat} {resp : Bool} {vc : Nat} {fr tgt : CoreId} (hI : s.Every I) : (s.sendFlit req resp vc fr tgt).Every I := by
  unfold State.sendFlit
  exact record hI

theorem updReq {id : Nat} {f : DReq → DReq} (hI : s.Every I) : (s.updReq id f).Every I := by
  unfold State.updReq
  exact record hI

theorem reqLost {r : DReq} {src : Nat} (hI : s.Every I) : (s.reqLost r src).Every I := by
  unfold State.reqLost
  simp only
  split
  · split
    · exact ite (raise (updCtx (record hI) (fun hx => .finishOp hx))) (lateTrap (record hI))
    · exact raise (record hI)
  · exact record hI

theorem execMeshArbitration_leads {core : CoreId} {port : Nat} (hI : s.Every I) : Out.Leads (execMeshArbitration core port s) I := by
  unfold execMeshArbitration
  refine Out.Leads.ite hI ?_
  split
  · exact hI
  · refine Out.Leads.ite ?_ ?_
    · split
      · split
        · exact reqLost (record (record hI))
        · exact record (record hI)
      · exact record (record (record hI))
    · split
      · exact record (record hI)
      · exact Out.Leads.ite (updReq (record (record hI))) (Out.Leads.ite (sendFlit (record (record hI))) (updReq (record (record hI))))

/-! ### Requests of the sequencer (R296, R297, R302) -/

theorem devTrans {c : CtxId} {ea : W64} {size hi : Nat} {need : Need} {remote : Bool} (hI : s.Every I) : (s.devTrans c ea size hi need remote).Every I := by
  unfold State.devTrans
  exact SeqX.Every.ite hI (SeqX.Every.ite hI (SeqX.Every.ite (seqXlate hI) (onlyLocal hI (seqXlate hI))))

theorem devOperand {c : CtxId} {ea : W64} {size hi : Nat} {need : Need} {remote : Bool} (hI : s.Every I) : (s.devOperand c ea size hi need remote).Every I := by
  unfold State.devOperand
  split
  · refine SeqX.Every.ite trivial ?_
    split
    · exact noteRefusal hI
    · exact trivial
  · exact devTrans hI

theorem devSend {c : CtxId} {isStore : Bool} {d : BitVec 5} {va pa : Nat} {kind : DKind} {vc : Nat} (hI : s.Every I)
    (hpush : I.Ok ((s.ctx c).pushOp isStore d (.dev s.dreqN))) : (s.devSend c isStore d va pa kind vc).Every I := by
  unfold State.devSend
  exact setCtx (sendFlit (record hI)) hpush.advance

theorem answer {r : DReq} {res : W64} {data : List Byte} {fault : Option Trap} (hI : s.Every I) : (s.answer r res data fault).Every I := by
  unfold State.answer
  exact sendFlit (updReq hI)

/-! ### Near cache (R259 to R261) -/

theorem walkReads {die asid va : Nat} (hI : s.Every I) : (s.walkReads die asid va).Every I := by
  unfold State.walkReads
  exact foldl (fun _ _ hs => l2Home hs) hI

theorem tlbUse {core : CoreId} {die asid va : Nat} (hI : s.Every I) : (s.tlbUse core die asid va).Every I := by
  unfold State.tlbUse
  split
  · exact fillTlb hI
  · split
    · exact ite hI (fillTlb hI)
    · exact hI

theorem reach {core : CoreId} {die : Nat} {home : Option Nat} {asid va pa n : Nat} {wr : Bool} (hI : s.Every I) : (s.reach core die home asid va pa n wr).Every I := by
  unfold State.reach
  exact ite (l2Span (tlbUse hI)) (tlbUse hI)

/-! ### Reads through the near cache (R258 to R261) -/

theorem nearNote {c : CtxId} {asid va pa n : Nat} (hI : s.Every I) : (s.nearNote c asid va pa n).Every I := by
  unfold State.nearNote
  simp only
  split
  · exact setCtx hI (.record (ctx hI) rfl rfl)
  · exact ite (l2Span hI) (record (setCtx (l2Span hI) (.nearFill (ctx (l2Span hI)))))

/-! ### The rows of the L2 and the cache layer -/

theorem execL2Fill_leads {die pa handle : Nat} (hI : s.Every I) : Out.Leads (execL2Fill die pa handle s) I := by
  unfold execL2Fill
  split
  · exact hI
  · exact Out.Leads.ite hI (Out.Leads.ite (l2Put hI) hI)

theorem execL2WayConvert_leads {die slice : Nat} (hI : s.Every I) : Out.Leads (execL2WayConvert die slice s) I := by
  unfold execL2WayConvert
  split
  · exact hI
  · exact updDie (foldl (fun _ _ hs1 => l2Insert hs1) (updDie (foldl (fun _ _ hs => l2Evict hs) hI)))

theorem execCacheLayerFill_leads {die pa handle : Nat} (hI : s.Every I) : Out.Leads (execCacheLayerFill die pa handle s) I := by
  unfold execCacheLayerFill
  split
  · exact hI
  · exact Out.Leads.ite hI (layerUse hI)

theorem refuseReq {r : DReq} {t : Trap} (hI : s.Every I) : (s.refuseReq r t).Every I := by
  unfold State.refuseReq
  simp only
  split
  · exact raise (record (noteRefusal hI))
  · exact answer (noteRefusal hI)

theorem execChannelRequest_leads {i : Nat} (hI : s.Every I) : Out.Leads (execChannelRequest i s) I := by
  unfold execChannelRequest
  split
  · exact hI
  · refine Out.Leads.ite hI ?_
    split
    · exact refuseReq hI
    · exact layerUse hI

theorem devCheck {id : Nat} (hI : s.Every I) : (s.devCheck id).Every I := by
  unfold State.devCheck
  split
  · exact hI
  · refine ite hI ?_
    split
    · exact refuseReq hI
    · split
      · exact updReq hI
      · exact updReq hI
      · exact updReq hI
      · exact updReq hI
      · exact hI

theorem dropReq {r : DReq} (hI : s.Every I) : (s.dropReq r).Every I := by
  unfold State.dropReq
  exact record hI

theorem barRegister {r : DReq} {c : CtxId} {e : Nat} (hI : s.Every I) : (s.barRegister r c e).Every I := by
  have hseen {t : State} {st : Option Bool} (ht : t.Every I) : (t.updCtx c fun x => { x with wait := match x.wait with
      | some (.barrier d va pa _ _) => some (.barrier d va pa none st)
      | o => o }).Every I := by
    refine updCtx ht fun hx => .released hx rfl ?_
    dsimp only
    split
    · exact False.elim
    · exact fun _ => rfl
  unfold State.barRegister
  exact ite (raise (dropReq hI)) (ite (hseen (dropReq hI)) (ite (raise (dropReq hI)) (hseen (record (updHomeLine (dropReq hI))))))

theorem farAnswer {r : DReq} {n : Nat} (hI : s.Every I) : (s.farAnswer r n).Every I := by
  unfold State.farAnswer
  simp only
  split <;> exact answer (record hI)

theorem execHomeSliceRead_leads {i : Nat} (hI : s.Every I) : Out.Leads (execHomeSliceRead i s) I := by
  unfold execHomeSliceRead
  split
  · exact hI
  · refine Out.Leads.ite hI ?_
    split
    · exact refuseReq hI
    · simp only
      split
      · exact Out.Leads.ite (answer (touch hI)) (farAnswer (touch hI))
      · exact answer (touch hI)
      · exact barRegister (touch hI)
      · exact touch hI

theorem reqWrite {r : DReq} {bs : List Byte} (hI : s.Every I) : (s.reqWrite r bs).Every I := by
  unfold State.reqWrite
  simp only
  split
  · exact updCtx (devWrite hI) (fun hx => .nearWrite hx)
  · exact devWrite hI

theorem execHomeSliceWrite_leads {i : Nat} (hI : s.Every I) : Out.Leads (execHomeSliceWrite i s) I := by
  unfold execHomeSliceWrite
  split
  · exact hI
  refine Out.Leads.ite hI ?_
  split
  · exact refuseReq hI
  refine Out.Leads.ite (farAnswer (touch hI)) ?_
  next r _ _ _ =>
  generalize r.kind = k
  cases k with
  | write bs => exact answer (reqWrite (touch hI))
  | amo op n v x => exact answer (ite (dropCopies (touch hI)) (reqWrite (touch hI)))
  | afadd v out64 readout =>
    dsimp only
    split
    · exact answer (touch hI)
    · exact answer (reqWrite (touch hI))
  | barArr =>
    exact Out.Leads.ite (answer (touch hI)) (Out.Leads.ite (answer (touch hI))
      (answer (ite (releaseBar (updHomeLine (homeWrite (touch hI)))) (updHomeLine (homeWrite (touch hI))))))
  | _ => exact touch hI

theorem execDeviceResponse_leads {i : Nat} (hI : s.Every I) : Out.Leads (execDeviceResponse i s) I := by
  unfold execDeviceResponse
  split
  · exact hI
  · refine Out.Leads.ite hI ?_
    split
    · simp only
      split
      · exact record hI
      · split
        · exact setCtx (record hI) (.finishOp (.setReg (ctx hI)))
        · exact lateTrap (record hI)
    · exact record hI

/-! ### AMD (R302 to R304) -/

theorem amd {i : Instr} {g : Guard} {d a b : BitVec 5} {op : AmoOp} {size : Nat} (hI : s.Every I) (hw : (s.ctx s.cur).wait = none) :
    Out.Leads (s.amd i g d a b op size) I := by
  unfold State.amd
  refine issue hI fun hh => ?_
  refine ite (raise hI) ?_
  split
  · next hx => exact (devOperand hI).hold hx
  · next hx => exact raise ((devOperand hI).fault hx)
  · exact devSend hI (.pushLoad (ctx hI) hw (Ctx.free_of_not_held hh))

theorem execAmdSwapW_leads {g : Guard} {d a b : BitVec 5} (hI : s.Every I) (hw : (s.ctx s.cur).wait = none) : Out.Leads (execAmdSwapW g d a b s) I := by
  unfold execAmdSwapW
  exact amd hI hw

theorem execAmdAddW_leads {g : Guard} {d a b : BitVec 5} (hI : s.Every I) (hw : (s.ctx s.cur).wait = none) : Out.Leads (execAmdAddW g d a b s) I := by
  unfold execAmdAddW
  exact amd hI hw

theorem execAmdAndW_leads {g : Guard} {d a b : BitVec 5} (hI : s.Every I) (hw : (s.ctx s.cur).wait = none) : Out.Leads (execAmdAndW g d a b s) I := by
  unfold execAmdAndW
  exact amd hI hw

theorem execAmdOrW_leads {g : Guard} {d a b : BitVec 5} (hI : s.Every I) (hw : (s.ctx s.cur).wait = none) : Out.Leads (execAmdOrW g d a b s) I := by
  unfold execAmdOrW
  exact amd hI hw

theorem execAmdXorW_leads {g : Guard} {d a b : BitVec 5} (hI : s.Every I) (hw : (s.ctx s.cur).wait = none) : Out.Leads (execAmdXorW g d a b s) I := by
  unfold execAmdXorW
  exact amd hI hw

theorem execAmdMinW_leads {g : Guard} {d a b : BitVec 5} (hI : s.Every I) (hw : (s.ctx s.cur).wait = none) : Out.Leads (execAmdMinW g d a b s) I := by
  unfold execAmdMinW
  exact amd hI hw

theorem execAmdMaxW_leads {g : Guard} {d a b : BitVec 5} (hI : s.Every I) (hw : (s.ctx s.cur).wait = none) : Out.Leads (execAmdMaxW g d a b s) I := by
  unfold execAmdMaxW
  exact amd hI hw

theorem execAmdMinuW_leads {g : Guard} {d a b : BitVec 5} (hI : s.Every I) (hw : (s.ctx s.cur).wait = none) : Out.Leads (execAmdMinuW g d a b s) I := by
  unfold execAmdMinuW
  exact amd hI hw

theorem execAmdMaxuW_leads {g : Guard} {d a b : BitVec 5} (hI : s.Every I) (hw : (s.ctx s.cur).wait = none) : Out.Leads (execAmdMaxuW g d a b s) I := by
  unfold execAmdMaxuW
  exact amd hI hw

theorem execAmdCasW_leads {g : Guard} {d a b : BitVec 5} (hI : s.Every I) (hw : (s.ctx s.cur).wait = none) : Out.Leads (execAmdCasW g d a b s) I := by
  unfold execAmdCasW
  exact amd hI hw

theorem execAmdSwapD_leads {g : Guard} {d a b : BitVec 5} (hI : s.Every I) (hw : (s.ctx s.cur).wait = none) : Out.Leads (execAmdSwapD g d a b s) I := by
  unfold execAmdSwapD
  exact amd hI hw

theorem execAmdAddD_leads {g : Guard} {d a b : BitVec 5} (hI : s.Every I) (hw : (s.ctx s.cur).wait = none) : Out.Leads (execAmdAddD g d a b s) I := by
  unfold execAmdAddD
  exact amd hI hw

theorem execAmdAndD_leads {g : Guard} {d a b : BitVec 5} (hI : s.Every I) (hw : (s.ctx s.cur).wait = none) : Out.Leads (execAmdAndD g d a b s) I := by
  unfold execAmdAndD
  exact amd hI hw

theorem execAmdOrD_leads {g : Guard} {d a b : BitVec 5} (hI : s.Every I) (hw : (s.ctx s.cur).wait = none) : Out.Leads (execAmdOrD g d a b s) I := by
  unfold execAmdOrD
  exact amd hI hw

theorem execAmdXorD_leads {g : Guard} {d a b : BitVec 5} (hI : s.Every I) (hw : (s.ctx s.cur).wait = none) : Out.Leads (execAmdXorD g d a b s) I := by
  unfold execAmdXorD
  exact amd hI hw

theorem execAmdMinD_leads {g : Guard} {d a b : BitVec 5} (hI : s.Every I) (hw : (s.ctx s.cur).wait = none) : Out.Leads (execAmdMinD g d a b s) I := by
  unfold execAmdMinD
  exact amd hI hw

theorem execAmdMaxD_leads {g : Guard} {d a b : BitVec 5} (hI : s.Every I) (hw : (s.ctx s.cur).wait = none) : Out.Leads (execAmdMaxD g d a b s) I := by
  unfold execAmdMaxD
  exact amd hI hw

theorem execAmdMinuD_leads {g : Guard} {d a b : BitVec 5} (hI : s.Every I) (hw : (s.ctx s.cur).wait = none) : Out.Leads (execAmdMinuD g d a b s) I := by
  unfold execAmdMinuD
  exact amd hI hw

theorem execAmdMaxuD_leads {g : Guard} {d a b : BitVec 5} (hI : s.Every I) (hw : (s.ctx s.cur).wait = none) : Out.Leads (execAmdMaxuD g d a b s) I := by
  unfold execAmdMaxuD
  exact amd hI hw

theorem execAmdCasD_leads {g : Guard} {d a b : BitVec 5} (hI : s.Every I) (hw : (s.ctx s.cur).wait = none) : Out.Leads (execAmdCasD g d a b s) I := by
  unfold execAmdCasD
  exact amd hI hw

theorem execAmdAfadd_leads {g : Guard} {d a b : BitVec 5} (hI : s.Every I) (hw : (s.ctx s.cur).wait = none) :
    Out.Leads (execAmdAfadd g d a b s) I := by
  unfold execAmdAfadd
  refine issue hI fun hh => ?_
  split
  · next hx => exact (devOperand hI).hold hx
  · next hx => exact raise ((devOperand hI).fault hx)
  · exact devSend hI (.pushLoad (ctx hI) hw (Ctx.free_of_not_held hh))

end State.Every
end Sys2Proof.Machine

/-! What every step keeps of the contexts (continued): from "Fences (R305, R429)" to "The operations (R214 to R220)". -/

namespace Sys2Proof.Machine
namespace State.Every
variable {I : CtxInv} {s : State}

/-! ### Fences (R305, R429) -/

theorem execFence_leads {g : Guard} {scope : BitVec 3} (hI : s.Every I) : Out.Leads (execFence g scope s) I := by
  unfold execFence
  exact issue hI (fun _ => ite (setCtx hI (.advance (.acquire (ctx hI)))) (waitFor hI not_false))

/-! ### Counters (R306, R350) -/

theorem counterOf {c : CtxId} {v : W64} {need : Need} {remote : Bool} (hI : s.Every I) : Leaves (·.1.Every I) (fun _ => True) (s.counterOf c v need remote) := by
  unfold State.counterOf
  refine Leaves.ite ?_ ?_
  · split
    · exact trivial
    · rename_i hx
      exact ((devOperand hI).hold hx)
    · rename_i hx1
      exact ((devOperand hI).fault hx1)
  · split
    · exact hI
    · exact trivial

theorem afterError_every {e : State × Option Trap}  (he : e.1.Every I) : (afterError e).Every I := by
  unfold afterError
  split
  · exact raise he
  · exact he

theorem execCntAdd_leads {g : Guard} {d a b : BitVec 5} (hI : s.Every I) (hw : (s.ctx s.cur).wait = none) : Out.Leads (execCntAdd g d a b s) I := by
  unfold execCntAdd
  refine issue hI fun hh => ite (raise hI) ?_
  simp only [Bool.or_eq_false_iff] at hh
  have hp {o : OpBody} : I.Ok ((s.ctx s.cur).pushOp false d o) := .pushLoad (ctx hI) hw (Ctx.free_of_no_loads hh.1.1.1 hh.1.1.2)
  split
  · next hx => exact afterError_every ((counterOf hI).error hx)
  · exact devSend hI hp
  · exact setCtx hI (.advance hp)

theorem execCntRd_leads {g : Guard} {d a : BitVec 5} (hI : s.Every I) (hw : (s.ctx s.cur).wait = none) : Out.Leads (execCntRd g d a s) I := by
  unfold execCntRd
  refine issue hI fun hh => ite (raise hI) ?_
  have hp {o : OpBody} : I.Ok ((s.ctx s.cur).pushOp false d o) := .pushLoad (ctx hI) hw (Ctx.free_of_not_held hh)
  split
  · next hx => exact afterError_every ((counterOf hI).error hx)
  · exact devSend hI hp
  · exact setCtx hI (.advance hp)

theorem execCntWait_leads {g : Guard} {d a b : BitVec 5} (hI : s.Every I) : Out.Leads (execCntWait g d a b s) I := by
  unfold execCntWait
  refine issue hI (fun _ => ?_)
  refine ite (raise hI) ?_
  simp only
  split
  · rename_i hx1
    exact afterError_every ((counterOf hI).error hx1)
  · split
    · exact raise hI
    · exact ite (setCtx hI (.advance (.acquire (.setReg (ctx hI))))) (waitFor hI not_false)
  · split
    · exact raise hI
    · exact ite (setCtx hI (.advance (.acquire (.setReg (ctx hI))))) (waitFor hI not_false)

theorem counted {c : CtxId} {d : BitVec 5} {a : Nat} {target v : W64} (hI : s.Every I) : (s.counted c d a target v).Every I := by
  unfold State.counted
  exact ite (updCtx hI (fun hx => .waits hx rfl not_false)) hI

theorem execCounterReread_leads {c : CtxId} (hI : s.Every I) : Out.Leads (execCounterReread c s) I := by
  unfold execCounterReread
  simp only
  split
  · split
    · rename_i hx
      exact ((onlyLocal hI (seqXlate hI)).hold hx)
    · rename_i hx1
      exact raise ((onlyLocal hI (seqXlate hI)).fault hx1)
    · refine Out.Leads.ite hI ?_
      split
      · exact raise (noteRefusal hI)
      · exact counted hI
  · refine Out.Leads.ite hI ?_
    split
    · exact raise hI
    · split
      · exact raise hI
      · exact counted hI
  · exact hI

/-! ### Barriers (R307 to R309) -/

theorem execBarArr_leads {g : Guard} {d a : BitVec 5} (hI : s.Every I) (hw : (s.ctx s.cur).wait = none) :
    Out.Leads (execBarArr g d a s) I := by
  unfold execBarArr
  refine issue hI fun hh => ?_
  simp only [Bool.or_eq_false_iff] at hh
  split
  · next hx => exact (devOperand hI).hold hx
  · next hx => exact raise ((devOperand hI).fault hx)
  · exact devSend hI (.pushLoad (ctx hI) hw (Ctx.free_of_no_loads hh.1.1 hh.1.2))

theorem execBarWait_leads {g : Guard} {d a b : BitVec 5} (hI : s.Every I) : Out.Leads (execBarWait g d a b s) I := by
  unfold execBarWait
  refine issue hI (fun _ => ?_)
  split
  · rename_i hx1
    exact ((devOperand hI).hold hx1)
  · rename_i hx2
    exact raise ((devOperand hI).fault hx2)
  · exact ite (raise hI) (ite (setCtx hI (.advance (.acquire (.setReg (ctx hI))))) (waitFor (sendFlit (record hI)) not_false))

theorem execBarrierReleaseMsg_leads {c : CtxId} (hI : s.Every I) : Out.Leads (execBarrierReleaseMsg c s) I := by
  unfold execBarrierReleaseMsg
  split
  · split
    · exact raise hI
    · exact retire hI (fun hx => .acquire (.setReg hx))
  · exact hI

/-! ### Residency handles (R300, R301) -/

theorem execResOpen_leads {g : Guard} {d a b : BitVec 5} (hI : s.Every I) : Out.Leads (execResOpen g d a b s) I := by
  unfold execResOpen
  refine issue hI (fun _ => ?_)
  refine ite (raise hI) ?_
  refine ite (raise hI) ?_
  refine ite (raise hI) ?_
  split
  · exact setCtx hI (.advance (.setReg (ctx hI)))
  · exact setCtx (updDie hI) (.advance (.setReg (ctx hI)))

theorem execResPrio_leads {g : Guard} {a b : BitVec 5} (hI : s.Every I) : Out.Leads (execResPrio g a b s) I := by
  unfold execResPrio
  exact issue hI (fun _ => ite (raise hI) (ite (raise hI) (setCtx (updDie hI) (.advance (ctx hI)))))

theorem dropHandle {die n : Nat} (hI : s.Every I) : (s.dropHandle die n).Every I := by
  unfold State.dropHandle
  exact record (updDie hI)

theorem execResDrop_leads {g : Guard} {a : BitVec 5} (hI : s.Every I) : Out.Leads (execResDrop g a s) I := by
  unfold execResDrop
  exact issue hI (fun _ => ite (raise hI) (setCtx (dropHandle hI) (.advance (ctx hI))))

/-! ### Walks and stop-and-copy migration (R289 to R292, R446) -/

theorem park {die : Nat} {w : WalkReq} {l : Leaf} (hI : s.Every I) : (s.park die w l).Every I := by
  unfold State.park
  exact ite (setDie hI) (ite (pfEvent (setDie hI)) (setDie hI))

theorem walkFor {die : Nat} {w : WalkReq} (hI : s.Every I) : (s.walkFor die w).Every I := by
  unfold State.walkFor
  simp only
  split
  · exact updDie hI
  · exact ite (updDie hI) (ite (park (walkReads hI)) (fillTlb (walkReads hI)))

theorem execPageWalk_leads {die asid va : Nat} (hI : s.Every I) : Out.Leads (execPageWalk die asid va s) I := by
  unfold execPageWalk
  exact Out.Leads.ite hI (foldl (fun _ _ hs => walkFor hs) (setDie hI))

theorem execReplayRetry_leads {die i : Nat} (hI : s.Every I) : Out.Leads (execReplayRetry die i s) I := by
  unfold execReplayRetry
  simp only
  split
  · exact hI
  · exact Out.Leads.ite hI (walkFor (setDie hI))

theorem execReplayRelease_leads {die asid va : Nat} (hI : s.Every I) : Out.Leads (execReplayRelease die asid va s) I := by
  unfold execReplayRelease
  simp only
  split
  · exact hI
  · exact walkFor (setDie hI)

theorem tlbRemove {sel asid va : Nat} (hI : s.Every I) : (s.tlbRemove sel asid va).Every I := by
  unfold State.tlbRemove
  exact ⟨List.forall_mem_map.mpr fun e he => .dropPages (hI.1 e he), hI.2⟩

theorem releaseEvent {sel asid va : Nat} (hI : s.Every I) : (s.releaseEvent sel asid va).Every I := by
  unfold State.releaseEvent
  exact record hI

theorem tlbOp {sel asid va : Nat} (hI : s.Every I) : (s.tlbOp sel asid va).Every I := by
  unfold State.tlbOp
  exact ite (waitFor (tlbRemove hI) not_false) (releaseEvent (setCtx (tlbRemove hI) (.advance (.acquire (ctx (tlbRemove hI))))))

theorem execTlbInva_leads {g : Guard} {a b : BitVec 5} (hI : s.Every I) : Out.Leads (execTlbInva g a b s) I := by
  unfold execTlbInva
  exact issue hI (fun _ => ite (raise hI) (ite (raise hI) (tlbOp hI)))

theorem execTlbInvs_leads {g : Guard} {a : BitVec 5} (hI : s.Every I) : Out.Leads (execTlbInvs g a s) I := by
  unfold execTlbInvs
  exact issue hI (fun _ => ite (raise hI) (tlbOp hI))

theorem execTlbInvall_leads {g : Guard} (hI : s.Every I) : Out.Leads (execTlbInvall g s) I := by
  unfold execTlbInvall
  exact issue hI (fun _ => ite (raise hI) (tlbOp hI))

/-! ### Start (R126 to R128, R178, R262) -/

theorem tileStart {c : CtxId} {n : Nat} (hI : s.Every I) : (s.tileStart c n).Every I := by
  unfold State.tileStart
  simp only
  split
  · exact hI
  · refine ite hI ?_
    refine ite (fabFault hI) ?_
    split
    · exact fabFault hI
    · exact updFab hI

theorem execAgTileStart_leads {c : CtxId} {n : Nat} (hI : s.Every I) : Out.Leads (execAgTileStart c n s) I := by
  unfold execAgTileStart
  exact tileStart hI

theorem startTiles {c : CtxId} (hI : s.Every I) : (s.startTiles c).Every I := by
  unfold State.startTiles
  exact foldl (fun _ _ hs => tileStart hs) hI

theorem execLoadStart_leads {lid : Nat} (hI : s.Every I) : Out.Leads (execLoadStart lid s) I := by
  unfold execLoadStart
  split
  · exact hI
  · rename_i hl
    split
    · exact hI
    · exact Out.Leads.ite hI (foldl (fun _ _ hs2 => startTiles hs2) (foldl (fun _ _ hs1 => startLoad hs1) (putLease hI (.record (leaseAt hI hl) rfl))))

/-! ### Decoupled tiles (R286, R287) -/

theorem unitChecks {c : CtxId} {va n pa : Nat} {need : Need} (hI : s.Every I) : (s.unitChecks c va n pa need).Every I := by
  unfold State.unitChecks
  refine SeqX.Every.ite ?_ ?_
  · split
    · exact record hI
    · exact trivial
  · split
    · exact noteRefusal hI
    · split
      · exact hI
      · exact trivial

theorem unitTrans {w : Who} {c : CtxId} {va : Int} {need : Need} (hI : s.Every I) : (s.unitTrans w c va need).Every I := by
  unfold State.unitTrans
  exact SeqX.Every.ite hI (unitXlate hI)

theorem unitAccess {w : Who} {c : CtxId} {va : Int} {n : Nat} {need : Need} (hI : s.Every I) : (s.unitAccess w c va n need).Every I := by
  unfold State.unitAccess
  split
  · exact unitChecks hI
  · exact unitTrans hI

theorem tileAccess {c : CtxId} {n : Nat} {t : Tile} {va : Int} {need : Need} (hI : s.Every I) : (s.tileAccess c n t va need).Every I := by
  unfold State.tileAccess
  split
  · exact unitChecks hI
  · exact unitAccess hI

theorem dmFault {c : CtxId} {n : Nat} {t : Tile} {tr : Trap} (hI : s.Every I) : (s.dmFault c n t tr).Every I := by
  unfold State.dmFault
  exact ite (fabFault hI) (fabFault (updFab hI))

theorem execDmReadReturn_leads {c : CtxId} {n : Nat} (hI : s.Every I) : Out.Leads (execDmReadReturn c n s) I := by
  unfold execDmReadReturn
  simp only
  split
  · exact hI
  · refine Out.Leads.ite hI ?_
    split
    · exact hI
    · refine Out.Leads.ite (ite (dmFault hI) hI) ?_
      split
      · rename_i hx
        exact ((tileAccess hI).hold hx)
      · rename_i hx1
        exact ite (dmFault ((tileAccess hI).fault hx1)) hI
      · exact Out.Leads.ite hI (updFab (ite (nearNote (tlbUse hI)) (record (tlbUse hI))))

/-! ### The modes (R126) -/

theorem execAgReadEmit_leads {c : CtxId} {n : Nat} (hI : s.Every I) : Out.Leads (execAgReadEmit c n s) I := by
  unfold execAgReadEmit
  split
  · exact hI
  · refine Out.Leads.ite hI ?_
    refine Out.Leads.ite ?_ ?_
    · split
      · split
        · exact updFab hI
        · exact hI
      · exact hI
    · simp only
      split
      · exact fabFault hI
      · refine Out.Leads.ite hI ?_
        split
        · exact fabFault hI
        · split
          · exact updFab hI
          · exact hI

theorem postRemote {c : CtxId} {pa : Nat} (hI : s.Every I) : (s.postRemote c pa).Every I := by
  unfold State.postRemote
  exact record (updCtx hI (fun hx => .record hx rfl rfl))

theorem execAgWriteConsume_leads {c : CtxId} {n : Nat} (hI : s.Every I) : Out.Leads (execAgWriteConsume c n s) I := by
  unfold execAgWriteConsume
  split
  · exact hI
  · simp only
    split
    · exact hI
    · exact fabFault hI
    · refine Out.Leads.ite ?_ ?_
      · refine Out.Leads.ite (fabFault hI) ?_
        split
        · rename_i hx
          exact ((tileAccess hI).hold hx)
        · rename_i hx1
          exact fabFault ((tileAccess hI).fault hx1)
        · exact updFab (ite (updCtx (devWrite (reach hI)) (fun hx2 => .nearWrite hx2)) (postRemote (reach hI)))
      · split
        · exact fabFault hI
        · exact Out.Leads.ite hI (updFab (spadWrite hI))

theorem execAgGather_leads {c : CtxId} {n : Nat} (hI : s.Every I) : Out.Leads (execAgGather c n s) I := by
  unfold execAgGather
  split
  · exact hI
  · refine Out.Leads.ite ?_ ?_
    · split
      · split
        · exact updFab hI
        · exact hI
      · exact hI
    · split
      · simp only
        split
        · exact fabFault hI
        · refine Out.Leads.ite hI ?_
          split
          · exact fabFault hI
          · split
            · exact updFab hI
            · exact hI
      · exact hI

theorem execAgTileEnd_leads {c : CtxId} {n : Nat} (hI : s.Every I) : Out.Leads (execAgTileEnd c n s) I := by
  unfold execAgTileEnd
  simp only
  split
  · exact hI
  · refine Out.Leads.ite hI ?_
    refine Out.Leads.ite (Out.Leads.ite hI (updFab hI)) ?_
    split
    · exact hI
    · exact Out.Leads.ite (Out.Leads.ite hI (updFab hI)) (Out.Leads.ite (fabFault hI) (updFab hI))

/-! ### Channel queues (R262 to R264) -/

theorem noteRing {l : List (W32 × Option Nat)} (hI : s.Every I) : (s.noteRing l).Every I := by
  unfold State.noteRing
  exact record hI

theorem execQueuePush_leads {c : CtxId} {n : Nat} (hI : s.Every I) : Out.Leads (execQueuePush c n s) I := by
  unfold execQueuePush
  simp only
  split
  · exact hI
  split
  · exact .ite (fabFault hI) hI
  · next b _ hb =>
    have hgo {q : ChanQ} {f : Fab → Fab} (hq : b.q.Fits → q.Fits) : ((s.updBank c _ fun b => { b with q := q }).updFab c f).Every I :=
      updFab (updBank hI fun b' hb' => Option.some.inj (hb.symm.trans hb') ▸ hq)
    refine .ite hI ?_
    split
    · next hp =>
      refine hgo fun hq => ⟨?_, hq.2⟩
      rw [Bool.and_eq_true, decide_eq_true_eq] at hp
      rw [List.length_append, List.length_singleton]
      exact hp.2
    split
    · next hp =>
      refine noteRing (hgo fun hq => ?_)
      obtain ⟨h1, h2, h3, h4⟩ := hq
      simp only [Bool.and_eq_true, decide_eq_true_eq] at hp
      refine ⟨h1, Nat.le_succ_of_le (Nat.le_add_right_of_le h2), ?_, ?_⟩
      · dsimp only
        omega
      · simp only [List.length_append, List.length_singleton]
        omega
    · exact hI
  · exact hI

theorem execQueuePop_leads {c : CtxId} {n : Nat} (hI : s.Every I) : Out.Leads (execQueuePop c n s) I := by
  unfold execQueuePop
  simp only
  split
  · exact hI
  split
  · next b hb =>
    refine .ite hI ?_
    split
    · next hp =>
      split
      · refine updFab (updBank hI fun b' hb' hq => ?_)
        obtain rfl := Option.some.inj (hb.symm.trans hb')
        exact ⟨(Nat.le_of_succ_le (hp ▸ hq.1 :)), hq.2⟩
      · exact hI
    · exact hI
  · exact hI

theorem spillAccess {c : CtxId} {k : Nat} {va n : Nat} {need : Need} (hI : s.Every I) : (s.spillAccess c k va n need).Every I := by
  unfold State.spillAccess
  exact onlyLocal hI (unitAccess hI)

theorem tlbUse_ctxs {core : CoreId} {die asid va : Nat} : (s.tlbUse core die asid va).ctxs = s.ctxs := by
  have hfill (l : Leaf) : (s.fillTlb die core asid l).ctxs = s.ctxs := by
    unfold State.fillTlb
    simp only
    split <;> rfl
  unfold State.tlbUse
  split
  · exact hfill _
  · split
    · split
      · rfl
      · exact hfill _
    · rfl

theorem reach_ctxs {core : CoreId} {die asid va pa n : Nat} {home : Option Nat} {wr : Bool} : (s.reach core die home asid va pa n wr).ctxs = s.ctxs := by
  unfold State.reach
  simp only
  split
  · exact (congrArg State.ctxs (State.Caches.l2Span _ home asid va pa n wr)).trans tlbUse_ctxs
  · exact tlbUse_ctxs

theorem reach_ctx {core : CoreId} {die asid va pa n : Nat} {home : Option Nat} {wr : Bool} {c : CtxId} :
    (s.reach core die home asid va pa n wr).ctx c = s.ctx c := by
  rw [State.ctx, reach_ctxs, State.ctx]

theorem devWrite_bank {pa : Nat} {bs : List Byte} {c : CtxId} {k : Nat} : ((s.devWrite pa bs).ctx c).bank? k = (s.ctx c).bank? k := by
  obtain ⟨w, hw⟩ := (State.Records.devWrite s pa bs).ctx c
  rw [hw]
  rfl

theorem execSpillWrite_leads {c : CtxId} {k : Nat} (hI : s.Every I) : Out.Leads (execSpillWrite c k s) I := by
  unfold execSpillWrite
  simp only
  split
  · exact hI
  next b hb =>
  refine .ite hI (.ite hI ?_)
  split
  · next hx => exact (spillAccess hI).hold hx
  · next hx => exact fabFault ((spillAccess hI).fault hx)
  · refine updBank (noteRing (devWrite (reach hI))) fun b' hb' hq => ?_
    have hb2 : (s.ctx c).bank? k = some b' := by
      rw [← hb']
      exact ((congrArg (Ctx.bank? · k) reach_ctx).symm.trans devWrite_bank.symm)
    obtain rfl := Option.some.inj (hb.symm.trans hb2)
    obtain ⟨h1, h2, h3, h4⟩ := hq
    refine ⟨h1, h2, h3, ?_⟩
    simp only [List.length_append, List.length_map, List.length_zipIdx, List.length_nil]
    omega

theorem ringAccess {c : CtxId} {k : Nat} {l : List Nat} (hI : s.Every I) : Leaves (·.Every I) (fun _ => True) (s.ringAccess c k l) := by
  induction l with
  | nil => exact trivial
  | cons va l ih =>
    rw [State.ringAccess]
    split
    · split
      · exact trivial
      · next hx => exact ih.error hx
    · exact spillAccess hI

theorem ringAccess_length {c : CtxId} {k : Nat} {l pas : List Nat} (h : s.ringAccess c k l = .ok pas) : pas.length = l.length := by
  induction l generalizing pas with
  | nil =>
    cases h
    rfl
  | cons va l ih =>
    rw [State.ringAccess] at h
    split at h
    · split at h
      · next hx =>
        cases h
        rw [List.length_cons, List.length_cons, ih hx]
      · cases h
    · cases h

theorem refillEls_length {lost h free : Nat} {l : List (W32 × Nat)} {ring : List (W32 × Option Nat)} {b : Bool} :
    (s.refillEls lost h free l ring b).1.length = l.length := by
  induction l generalizing h ring b with
  | nil => rfl
  | cons e l ih =>
    rw [State.refillEls, List.length_cons, List.length_cons, ih]

theorem execRingRefill_leads {c : CtxId} {k : Nat} (hI : s.Every I) : Out.Leads (execRingRefill c k s) I := by
  unfold execRingRefill
  simp only
  split
  · exact hI
  next b hb =>
  split
  · exact hI
  next hdue =>
  split
  · next hx => exact (ringAccess hI).error hx
  · next hx => exact fabFault (SeqX.Every.fault ((ringAccess hI).error hx) rfl)
  · exact hI
  · next pas hpas =>
    have hlen := ringAccess_length hpas
    rw [ChanQ.ringAddrs, List.length_map, List.length_range] at hlen
    have hels (r : List W32 × Bool) (hr : r = s.refillEls b.q.lost b.q.h s.free (pas.map fun pa => (w32 (s.devBytes pa 4), memKey pa)) b.q.ring false) :
        r.1.length = min 16 ((b.q.t - b.q.h) / 4) := by
      rw [hr, refillEls_length, List.length_map, hlen]
    generalize hr : s.refillEls _ _ _ _ _ _ = r
    replace hels := hels r hr.symm
    have hreach {l : List (Nat × Nat)} : (l.foldl (fun t p => t.reach (coreOf c) (dieOf (coreOf c)) (some (dieOf (coreOf c)))
        (s.ctx c).asid.toNat p.1 p.2 4 false) s).ctx c = s.ctx c := by
      refine congrArg (fun m => (m.get? c).getD Ctx.blank) (?_ : State.ctxs _ = s.ctxs)
      exact State.foldl_same State.ctxs (fun _ _ => reach_ctxs) l s
    refine updBank (record (foldl (fun _ _ hs => reach hs) hI)) fun b' hb' hq => ?_
    have hb2 : (s.ctx c).bank? k = some b' := hreach ▸ hb'
    obtain rfl := Option.some.inj (hb.symm.trans hb2)
    simp only [Bool.or_eq_true, Bool.not_eq_true, not_or, Bool.not_eq_false', BudBank.refillDue, Bool.and_eq_true, decide_eq_true_eq] at hdue
    obtain ⟨⟨-, ⟨-, hlt⟩, hroom⟩, hwants⟩ := hdue
    simp only [ChanQ.wantsHeld, hroom, hlt, decide_true, Bool.true_and, decide_eq_false_iff_not] at hwants
    rw [bankPart] at hroom
    obtain ⟨h1, h2, h3, h4⟩ := hq
    refine ⟨?_, ?_, ?_, ?_⟩
    · rw [List.length_append, hels]
      omega
    all_goals
      simp only [List.length_drop]
      omega

/-! ### BANK.MODE and the RING group (R258, R298, R299) -/

theorem setMode {c : CtxId} {k : Nat} {m : BankMode} {rb rs : Nat} (hI : s.Every I) : (s.setMode c k m rb rs).Every I := by
  unfold State.setMode
  split
  · exact hI
  · have hb {f : Core → Core} : ((s.updCore (coreOf c) f).updBank c k fun b => { b with mode := m, zeroing := true, q := { rb := rb, rs := rs, h := 0, t := 0, part := [], held := [], ring := [], lost := 0 } }).Every I :=
      updBank (updCore hI) fun _ _ _ => ChanQ.Fits.of_empty rfl rfl rfl rfl
    exact ite (updCtx hb fun hx => .record hx rfl rfl) hb

theorem ringPages {c : CtxId} {rb n : Nat} (hI : s.Every I) : ∀ r ∈ s.ringPages c rb n, r.Every I := by
  induction n with
  | zero => exact fun r hr => absurd hr (Option.not_mem_none r)
  | succ n ih =>
    rw [State.ringPages]
    intro r hr
    split at hr
    · next hx => exact ih r (hx.trans hr)
    dsimp only at hr
    split at hr
    · split at hr
      · cases hr
        exact noteRefusal hI
      · cases hr
    · cases hr
      exact devTrans hI

theorem execBankMode_leads {g : Guard} {d a : BitVec 5} {rsz : BitVec 4} {mode : BitVec 2} {k : BitVec 5} (hI : s.Every I) :
    Out.Leads (execBankMode g d a rsz mode k s) I := by
  unfold execBankMode
  refine issue hI fun _ => ?_
  split
  · exact raise hI
  refine ite (raise hI) ?_
  have hr {n rb : Nat} {m : BankMode} : ∀ r ∈ (if (m == .fifo) = true then s.ringPages s.cur rb n else none), r.Every I := by
    split
    · exact ringPages hI
    · exact fun r hr => absurd hr (Option.not_mem_none r)
  split
  · next hx => exact raise (SeqX.Every.fault (hr _ hx) rfl)
  · next hx => exact SeqX.Every.hold (hr _ hx) rfl
  · exact ite (raise hI) (ite (waitFor hI not_false) (updCtx (setMode hI) fun hx => .advance (.setReg hx)))

theorem ringRead {i : Instr} {g : Guard} {d a : BitVec 5} {f : ChanQ → Nat} (hI : s.Every I) : Out.Leads (s.ringRead i g d a f) I := by
  unfold State.ringRead
  refine issue hI (fun _ => ?_)
  refine ite (raise hI) ?_
  split
  · exact raise hI
  · exact setCtx hI (.advance (.setReg (ctx hI)))

theorem execRingHead_leads {g : Guard} {d a : BitVec 5} (hI : s.Every I) : Out.Leads (execRingHead g d a s) I := by
  unfold execRingHead
  exact ringRead hI

theorem execRingTail_leads {g : Guard} {d a : BitVec 5} (hI : s.Every I) : Out.Leads (execRingTail g d a s) I := by
  unfold execRingTail
  exact ringRead hI

theorem execRingReset_leads {g : Guard} {d a : BitVec 5} (hI : s.Every I) : Out.Leads (execRingReset g d a s) I := by
  unfold execRingReset
  refine issue hI fun _ => ?_
  split
  · exact raise hI
  · refine ite (raise hI) (updCtx (updBank hI ?_) fun hx => .advance (.setReg hx))
    exact fun _ _ _ => ChanQ.Fits.of_empty rfl rfl rfl rfl

/-! ### Remote stores (R427) -/

theorem endRemote {i : Nat} (hI : s.Every I) : (s.endRemote i).Every I := by
  unfold State.endRemote
  split
  · exact hI
  · exact record (updCtx hI (fun hx => .record hx rfl rfl))

theorem execRemoteStoreAck_leads {i : Nat} (hI : s.Every I) : Out.Leads (execRemoteStoreAck i s) I := by
  unfold execRemoteStoreAck
  exact endRemote hI

theorem execRemoteStoreLost_leads {i : Nat} (hI : s.Every I) : Out.Leads (execRemoteStoreLost i s) I := by
  unfold execRemoteStoreLost
  split
  · exact hI
  · exact Out.Leads.ite hI (event (endRemote hI))

/-! ### Messages (R232, R233) -/

theorem acnLost {b : AcnBody} {src : Nat} (hI : s.Every I) : (s.acnLost b src).Every I := by
  unfold State.acnLost
  split
  · exact lostMessage hI
  · exact lostMessage hI
  · exact linkFault hI

theorem acnSend {lid : Nat} {fr dest : CoreId} {b : AcnBody} (hI : s.Every I) : (s.acnSend lid fr dest b).Every I := by
  unfold State.acnSend
  split
  · exact acnLost hI
  · exact record hI

theorem acnTake {i : Nat} (hI : s.Every I) : (s.acnTake i).Every I := by
  unfold State.acnTake
  exact record hI

/-! ### Chains of a core (R228 to R231, R249) -/

theorem putChain {core : CoreId} {cid : Nat} {k : SinkChain} (hI : s.Every I) : (s.putChain core cid k).Every I := by
  unfold State.putChain
  exact updCore hI

theorem freeChain {core : CoreId} {cid : Nat} (hI : s.Every I) : (s.freeChain core cid).Every I := by
  unfold State.freeChain
  exact updCore hI

/-! ### Instructions (R243 to R249) -/

theorem execAchOpen_leads {g : Guard} {d a b : BitVec 5} (hI : s.Every I) : Out.Leads (execAchOpen g d a b s) I := by
  unfold execAchOpen
  refine issue hI (fun _ => ?_)
  simp only
  split
  · exact raise hI
  · exact updCtx (putChain (ite (spadWrite hI) hI)) (fun hx1 => .advance (.setReg hx1))

theorem execAchJoin_leads {g : Guard} {d a b : BitVec 5} (hI : s.Every I) : Out.Leads (execAchJoin g d a b s) I := by
  unfold execAchJoin
  exact issue hI (fun _ => ite (raise hI) (ite (raise hI) (ite (raise hI) (waitFor (acnSend (setCtx hI (.record (ctx hI) rfl rfl))) not_false))))

theorem execAchWait_leads {g : Guard} {d : BitVec 5} {cid : BitVec 4} (hI : s.Every I) : Out.Leads (execAchWait g d cid s) I := by
  unfold execAchWait
  refine issue hI (fun _ => ?_)
  split
  · exact ite (setCtx hI (.advance (.record (.setReg (ctx hI)) rfl rfl))) (raise hI)
  · exact ite (setCtx hI (.advance (.setReg (.record (ctx hI) rfl rfl)))) (waitFor (setCtx hI (.record (ctx hI) rfl rfl)) not_false)

theorem execAchWaitJ_leads {g : Guard} {d : BitVec 5} {slot : BitVec 4} (hI : s.Every I) : Out.Leads (execAchWaitJ g d slot s) I := by
  unfold execAchWaitJ
  exact issue hI (fun _ => ite (setCtx hI (.advance (.setReg (ctx hI)))) (waitFor hI not_false))

theorem execAchClose_leads {g : Guard} {cid : BitVec 4} (hI : s.Every I) : Out.Leads (execAchClose g cid s) I := by
  unfold execAchClose
  refine issue hI (fun _ => ?_)
  split
  · exact ite (setCtx (freeChain hI) (.advance (.record (ctx hI) rfl rfl))) (raise hI)
  · exact raise hI

theorem execAchCloseJ_leads {g : Guard} {slot : BitVec 4} (hI : s.Every I) : Out.Leads (execAchCloseJ g slot s) I := by
  unfold execAchCloseJ
  exact issue hI fun _ => setCtx hI (.advance (.setJoin (ctx hI) fun _ => rfl))

theorem refuse {lid : Nat} {fr : CoreId} {cause : Nat} {b : AcnBlock} (hI : s.Every I) : (s.refuse lid fr cause b).Every I := by
  unfold State.refuse
  exact acnSend (acnSend hI)

theorem tearChain {core : CoreId} {cid : Nat} {k : SinkChain} {notify : Bool} (hI : s.Every I) : (s.tearChain core cid k notify).Every I := by
  unfold State.tearChain
  exact freeChain (foldl (fun _ _ hs1 => refuse hs1) (ite (foldl (fun _ _ hs => acnSend hs) hI) hI))

theorem execAchAbort_leads {g : Guard} {cid : BitVec 4} (hI : s.Every I) : Out.Leads (execAchAbort g cid s) I := by
  unfold execAchAbort
  refine issue hI (fun _ => ?_)
  split
  · exact raise hI
  · exact setCtx (spadWrite (tearChain hI)) (.advance (ctx hI))

theorem tearChains {c : CtxId} (hI : s.Every I) : (s.tearChains c).Every I := by
  unfold State.tearChains
  exact foldl (fun _ _ hs => tearChain hs) hI

theorem execAchStat_leads {g : Guard} {d : BitVec 5} {cid : BitVec 4} (hI : s.Every I) : Out.Leads (execAchStat g d cid s) I := by
  unfold execAchStat
  exact issue hI (fun _ => ite (raise hI) (setCtx hI (.advance (.setReg (ctx hI)))))

theorem execAchStatJ_leads {g : Guard} {d : BitVec 5} {slot : BitVec 4} (hI : s.Every I) : Out.Leads (execAchStatJ g d slot s) I := by
  unfold execAchStatJ
  exact issue hI (fun _ => ite (raise hI) (setCtx hI (.advance (.setReg (ctx hI)))))

/-! ### Joins and blocks (R234 to R238, R245, R251) -/

theorem execAcnJoinRequest_leads {i : Nat} (hI : s.Every I) : Out.Leads (execAcnJoinRequest i s) I := by
  unfold execAcnJoinRequest
  split
  · refine Out.Leads.ite hI ?_
    simp only
    split
    · exact acnSend (acnTake hI)
    · refine Out.Leads.ite (acnSend (acnTake hI)) ?_
      refine Out.Leads.ite (fwDrop (acnTake hI)) ?_
      split
      · exact acnSend (acnTake hI)
      · exact Out.Leads.ite (acnSend (acnTake hI)) (Out.Leads.ite (acnSend (acnTake hI)) (acnSend (acnTake (putChain hI))))
  · exact hI

theorem execAcnJoinReply_leads {i : Nat} (hI : s.Every I) : Out.Leads (execAcnJoinReply i s) I := by
  unfold execAcnJoinReply
  split
  · next m c key fail w len an h p hm =>
    split
    · exact .ite (raise (acnTake hI)) (acnTake hI)
    · have hj : ((s.acnTake i).updCtx c fun x => x.setJoin (key % 16) {
          key := key, st := 4, handle := h, pos := p, w := w, len := len, anchored := an, credits := w, sent := 0, out := 0, next := 0, gone := false }).Every I :=
        updCtx (acnTake hI) fun hx => .setJoin hx fun _ => rfl
      dsimp only
      split
      · exact retire hj fun hx => .setReg hx
      · exact hj
  · exact hI

theorem sendBlock {c : CtxId} {slot unit blk : Nat} {els : List W32} (hI : s.Every I) (hc : ((s.ctx c).join slot).credits ≠ 0) :
    (s.sendBlock c slot unit blk els).Every I := by
  unfold State.sendBlock
  refine acnSend (setCtx hI (.setJoin (ctx hI) fun hj => ?_))
  show ((s.ctx c).join slot).credits - 1 + (((s.ctx c).join slot).out + 1) = ((s.ctx c).join slot).w
  omega

theorem sendClosed {s' : State} {c : CtxId} {slot unit b : Nat} {els : List W32} (hI : s.Every I) (hs' : s'.Every I)
    (hj : (s'.ctx c).join slot = (s.ctx c).join slot) : Out.Leads (s.sendClosed s' c slot unit b els) I := by
  unfold State.sendClosed
  refine .ite hI ?_
  split
  · exact .ite hI (fabFault hI)
  · split
    · exact hI
    · next hc => exact sendBlock hs' (hj ▸ fun h => hc (beq_iff_eq.mpr h))

theorem join_updFab {c : CtxId} {f : Fab → Fab} {i : Nat} : ((s.updFab c f).ctx c).join i = (s.ctx c).join i := by
  rw [State.updFab, State.updCtx, State.ctx_setCtx_self]
  rfl

theorem execAcnBlockSend_leads {c : CtxId} {slot : Nat} (hI : s.Every I) : Out.Leads (execAcnBlockSend c slot s) I := by
  unfold execAcnBlockSend
  dsimp only
  split
  · exact .ite hI (sendClosed hI (updFab hI) join_updFab)
  split
  · exact hI
  split
  · exact hI
  · exact sendClosed hI (putCell hI) join_updFab

theorem stage {core : CoreId} {cid : Nat} {k : SinkChain} {b : AcnBlock} (hI : s.Every I) : (s.stage core cid k b).Every I := by
  unfold State.stage
  exact putChain (spadWrite hI)

theorem execAcnBlockArrive_leads {i : Nat} (hI : s.Every I) : Out.Leads (execAcnBlockArrive i s) I := by
  unfold execAcnBlockArrive
  split
  · refine Out.Leads.ite hI ?_
    simp only
    split
    · exact refuse (acnTake hI)
    · refine Out.Leads.ite (fwDrop (acnTake hI)) ?_
      split
      · exact refuse (acnTake hI)
      · exact Out.Leads.ite (refuse (acnTake hI)) (Out.Leads.ite (acnSend (acnTake hI)) (stage (acnTake hI)))
  · exact hI

theorem addBlock {k : SinkChain} {b : AcnBlock} (hI : s.Every I) : (s.addBlock k b).1.Every I := by
  unfold State.addBlock
  exact foldlFst (fun _ _ hr => iteFst (spadWrite hr) (spadWrite hr)) hI

theorem execAcnBlockAdd_leads {core : CoreId} {cid : Nat} (hI : s.Every I) : Out.Leads (execAcnBlockAdd core cid s) I := by
  unfold execAcnBlockAdd
  split
  · exact hI
  · refine Out.Leads.ite hI ?_
    split
    · exact hI
    · exact acnSend (updCore (putChain (addBlock hI)))

theorem execAcnCreditReturn_leads {i : Nat} (hI : s.Every I) : Out.Leads (execAcnCreditReturn i s) I := by
  unfold execAcnCreditReturn
  split
  · refine updCtx (acnTake hI) fun hx => ?_
    dsimp only
    split
    · exact hx
    · refine .setJoin hx fun hj => ?_
      dsimp only
      omega
  · exact hI

theorem execAcnAbortNotice_leads {i : Nat} (hI : s.Every I) : Out.Leads (execAcnAbortNotice i s) I := by
  unfold execAcnAbortNotice
  split
  · refine updCtx (acnTake hI) fun hx => ?_
    dsimp only
    split
    · exact .setJoin hx fun hj => hj
    · exact hx
  · exact hI

theorem execAcnRefusal_leads {i : Nat} (hI : s.Every I) : Out.Leads (execAcnRefusal i s) I := by
  unfold execAcnRefusal
  split
  · refine .ite (acnTake hI) ?_
    have hs {x : JoinSlot} {c : CtxId} {n : Nat} (h1 : x.credits = (((s.acnTake i).ctx c).join n).credits) (h2 : x.out = (((s.acnTake i).ctx c).join n).out)
        (h3 : x.w = (((s.acnTake i).ctx c).join n).w) : ((s.acnTake i).updCtx c fun y => y.setJoin n x).Every I :=
      updCtx (acnTake hI) fun hx => .setJoin hx fun hj => by rw [h1, h2, h3, hj]
    refine .ite (fabFault ?_) ?_
    · exact ite (updFab (hs rfl rfl rfl)) (hs rfl rfl rfl)
    · exact ite (updFab (hs rfl rfl rfl)) (hs rfl rfl rfl)
  · exact hI

/-! ### Completion (R240) -/

theorem execAcnFinalise_leads {core : CoreId} {cid : Nat} (hI : s.Every I) : Out.Leads (execAcnFinalise core cid s) I := by
  unfold execAcnFinalise
  split
  · exact hI
  · exact Out.Leads.ite hI (Out.Leads.ite (putChain (spadWrite (spadWrite hI))) (putChain (spadWrite hI)))

theorem counterAdd {w : Who} {c : CtxId} {dev : Bool} {a : Nat} {v : W64} (hI : s.Every I) : Leaves (·.Every I) (·.1.Every I) (s.counterAdd w c dev a v) := by
  unfold State.counterAdd
  refine Leaves.ite ?_ (spadWrite hI)
  split
  · rename_i hx
    exact ((onlyLocal hI (unitAccess hI)).hold hx)
  · rename_i hx1
    exact ((onlyLocal hI (unitAccess hI)).fault hx1)
  · exact devWrite (reach hI)

theorem execChainComplete_leads {core : CoreId} {cid : Nat} (hI : s.Every I) : Out.Leads (execChainComplete core cid s) I := by
  unfold execChainComplete
  simp only
  split
  · exact hI
  next k hk =>
  refine Out.Leads.ite hI ?_
  have ha : Leaves (·.Every I) (·.1.Every I) (if k.param.getLsbD 52 = true then
      s.counterAdd (.engine core (16 + cid) (s.ctx k.ctx).ten.toNat) k.ctx k.far k.cnt 1 else .ok (s, none)) := .ite (counterAdd hI) hI
  have hend {t : State} (ht : t.Every I) : (k.staged.foldl (fun s b => s.acnSend (s.lidOf k.ctx) core (coreOf b.src) (.credit b.src b.key))
      (t.putChain core cid { k with st := 2, staged := [] })).Every I := foldl (fun _ _ hs => acnSend hs) (putChain ht)
  split
  · next hx => exact ha.error hx
  · next hx =>
    have ht : State.Every _ I := ha.ok hx
    split
    · refine raise ?_
      split
      · exact updFab (hend ht)
      · exact hend ht
    · split
      · exact updFab (hend ht)
      · exact hend ht

theorem execAcnDoneEos_leads {c : CtxId} (hI : s.Every I) : Out.Leads (execAcnDoneEos c s) I := by
  unfold execAcnDoneEos
  simp only
  split
  · exact hI
  · exact Out.Leads.ite hI (updFab hI)

/-! ### Acceptance (R207, R226) -/

theorem putCtl {c : CtxId} {q : Part} (hI : s.Every I) : (s.putCtl c q).Every I := by
  unfold State.putCtl
  exact updFab hI

theorem mnAccept {c : CtxId} {opc : Nat} (hI : s.Every I) : Out.Leads (s.mnAccept c opc) I := by
  unfold State.mnAccept
  simp only
  split
  · exact hI
  · split
    · refine Out.Leads.ite hI ?_
      split
      · exact fabFault hI
      · split
        · exact fabFault hI
        · split
          · exact fabFault hI
          · exact serve (updCtx (putCtl hI) (fun hx => .record hx rfl rfl))
    · exact hI
    · exact Out.Leads.ite (fabFault hI) hI

theorem execMnMm_leads {c : CtxId} (hI : s.Every I) : Out.Leads (execMnMm c s) I := by
  unfold execMnMm
  exact mnAccept hI

theorem execMnMv_leads {c : CtxId} (hI : s.Every I) : Out.Leads (execMnMv c s) I := by
  unfold execMnMv
  exact mnAccept hI

theorem execMnGatherA_leads {c : CtxId} (hI : s.Every I) : Out.Leads (execMnGatherA c s) I := by
  unfold execMnGatherA
  exact mnAccept hI

theorem execMnTload_leads {c : CtxId} (hI : s.Every I) : Out.Leads (execMnTload c s) I := by
  unfold execMnTload
  exact mnAccept hI

theorem execMnZero_leads {c : CtxId} (hI : s.Every I) : Out.Leads (execMnZero c s) I := by
  unfold execMnZero
  exact mnAccept hI

theorem execMnDrain_leads {c : CtxId} (hI : s.Every I) : Out.Leads (execMnDrain c s) I := by
  unfold execMnDrain
  exact mnAccept hI

theorem execMnAcsend_leads {c : CtxId} (hI : s.Every I) : Out.Leads (execMnAcsend c s) I := by
  unfold execMnAcsend
  exact mnAccept hI

/-! ### The start of a command (R221) -/

theorem execMnCommandStart_leads {c : CtxId} {i : Nat} (hI : s.Every I) : Out.Leads (execMnCommandStart c i s) I := by
  unfold execMnCommandStart
  simp only
  split
  · exact hI
  · refine Out.Leads.ite hI ?_
    refine Out.Leads.ite hI ?_
    split
    · exact fabFault hI
    · split
      · exact fabFault hI
      · refine Out.Leads.ite hI ?_
        split
        · exact fabFault hI
        · exact setCtx hI (.record (ctx hI) rfl rfl)

/-! ### The operations (R214 to R220) -/

theorem updCmd {c : CtxId} {i : Nat} {fl : W32} {f : MnCmd → MnCmd} (hI : s.Every I) : (s.updCmd c i fl f).Every I := by
  unfold State.updCmd
  exact addFlags (updCtx hI (fun hx => .record hx rfl rfl))

theorem mulRun {c : CtxId} {i stop n : Nat} (hI : s.Every I) : (State.mulRun c i stop n s).1.Every I := by
  induction n generalizing s with
  | zero => exact hI
  | succ n ih =>
    rw [State.mulRun]
    split
    · exact hI
    refine iteFst hI ?_
    split
    · exact hI
    · exact ih (updCmd (updCtx hI fun hx => .record hx rfl rfl))

theorem kStep {c : CtxId} {i : Nat} (hI : s.Every I) : (s.kStep c i).Every I := by
  unfold State.kStep
  simp only
  split
  · exact hI
  · exact ite hI (ite (mulRun hI) (ite hI (updCmd hI)))

theorem mnDone {c : CtxId} {i : Nat} (hI : s.Every I) : (s.mnDone c i).Every I := by
  unfold State.mnDone
  simp only
  split
  · exact hI
  · split
    · exact updFab (setCtx hI (.record (ctx hI) rfl rfl))
    · exact setCtx hI (.record (ctx hI) rfl rfl)

theorem drainRead {c : CtxId} {i : Nat} {k : MnCmd} (hI : s.Every I) : (s.drainRead c i k).Every I := by
  unfold State.drainRead
  exact updCmd (updCtx hI (fun hx => .record hx rfl rfl))

theorem drainStep {c : CtxId} {i : Nat} {k : MnCmd} (hI : s.Every I) : (s.drainStep c i k).Every I := by
  unfold State.drainStep
  refine ite hI ?_
  refine ite (ite (mnDone (updFab (updCmd hI))) (updFab (updCmd hI))) ?_
  simp only
  split
  · exact drainRead hI
  · exact ite (drainRead hI) (updFab (updCmd (drainRead hI)))

theorem join_updCmd {c : CtxId} {i n : Nat} {fl : W32} {f : MnCmd → MnCmd} : ((s.updCmd c i fl f).ctx c).join n = (s.ctx c).join n := by
  simp only [State.updCmd, State.addFlags, State.updCtx, State.ctx_setCtx_self, Ctx.addFlags]
  split <;> rfl

theorem join_drainRead {c : CtxId} {i n : Nat} {k : MnCmd} : ((s.drainRead c i k).ctx c).join n = (s.ctx c).join n := by
  unfold State.drainRead
  rw [join_updCmd, State.updCtx, State.ctx_setCtx_self]
  rfl

theorem cmds_drainEls {x : Ctx} {k : MnCmd} : (x.drainEls k).2.2.cmds = x.mn.cmds := by
  have hput (l : List Nat) (g : Nat → Mn → Mn) (hg : ∀ n m, (g n m).cmds = m.cmds) (m : Mn) : (l.foldl (fun m j => g j m) m).cmds = m.cmds := by
    induction l generalizing m with
    | nil => rfl
    | cons j l ih => exact (ih _).trans (hg j m)
  unfold Ctx.drainEls
  dsimp only
  split
  · exact hput _ (fun j m => m.put (tkAs k.tok) (k.pos / _) j 0) (fun _ _ => rfl) x.mn
  · rfl

/-- The reads of a DRAIN or ACSEND leave every command its token. -/
theorem tok_drainRead {c : CtxId} {i : Nat} {k l : MnCmd} (hk : (s.ctx c).mn.cmds[i]? = some k) (hl : ((s.drainRead c i k).ctx c).mn.cmds[i]? = some l) :
    l.tok = k.tok := by
  have haf (x : Ctx) (fl : W32) : (x.addFlags s.time fl).mn = x.mn := by
    unfold Ctx.addFlags
    split <;> rfl
  simp only [State.drainRead, State.updCmd, State.addFlags, State.updCtx, State.ctx_setCtx_self, State.setCtx_time, haf, getElem?_modAt, cmds_drainEls, hk] at hl
  cases hl
  rfl

theorem acsendStep {c : CtxId} {i : Nat} {k : MnCmd} (hI : s.Every I) (hk : (s.ctx c).mn.cmds[i]? = some k) : (s.acsendStep c i k).Every I := by
  unfold State.acsendStep
  refine ite (fabFault hI) (ite hI ?_)
  split
  · exact fabFault hI
  split
  · exact hI
  next hc =>
  dsimp only
  split
  · exact drainRead hI
  next l hl =>
  refine ite (drainRead hI) ?_
  have hs {b : Nat} {els : List W32} {f : MnCmd → MnCmd} : (((s.drainRead c i k).updCmd c i 0 f).sendBlock c (tkCh l.tok) 0x300 b els).Every I := by
    refine sendBlock (updCmd (drainRead hI)) ?_
    rw [join_updCmd, join_drainRead, tok_drainRead hk hl]
    exact fun h => hc (beq_iff_eq.mpr h)
  exact ite (mnDone hs) hs

theorem cmdFault {c : CtxId} {i : Nat} {t : Trap} (hI : s.Every I) : (s.cmdFault c i t).Every I := by
  unfold State.cmdFault
  exact ite (raise (mnDone hI)) (fabFault (updCmd hI))

theorem execMnCommandComplete_leads {c : CtxId} {i : Nat} (hI : s.Every I) : Out.Leads (execMnCommandComplete c i s) I := by
  unfold execMnCommandComplete
  dsimp only
  split
  · exact hI
  next k hk =>
  refine .ite hI (.ite (drainStep hI) (.ite (acsendStep hI hk) (.ite (mnDone (setCtx hI (.record (ctx hI) rfl rfl))) (.ite (.ite hI ?_) (.ite hI ?_)))))
  · split
    · exact cmdFault hI
    · exact mnDone (setCtx hI (.record (ctx hI) rfl rfl))
  · have hm {n m : Nat} {p : Prop} [Decidable p] : (State.mulRun c i n m (if p then { s with free := s.free + 1 } else s)).1.Every I := mulRun (ite (record hI) hI)
    split
    · next hx => exact cmdFault (fst hm hx)
    · next hx => exact mnDone (fst hm hx)

theorem execMnCtlEos_leads {c : CtxId} (hI : s.Every I) : Out.Leads (execMnCtlEos c s) I := by
  unfold execMnCtlEos
  simp only
  split
  · exact hI
  · exact Out.Leads.ite hI (Out.Leads.ite (fabFault hI) (Out.Leads.ite (putCtl hI) (Out.Leads.ite hI (updFab (putCtl hI)))))

end State.Every
end Sys2Proof.Machine

/-! What every step keeps of the contexts (continued): from "Accesses (R327, R332)" to "Launch (R340, R367 to R370, R374, R411)". -/

namespace Sys2Proof.Machine
namespace State.Every
variable {I : CtxInv} {s : State}

/-! ### Accesses (R327, R332) -/

theorem engAt {w : Who} {die : Nat} {home : Option Nat} {asid ten : Nat} {va : Int} {n : Nat} {need : Need} (hI : s.Every I) : (s.engAt w die home asid ten va n need).Every I := by
  unfold State.engAt
  refine SeqX.Every.ite hI ?_
  split
  · refine SeqX.Every.ite (SeqX.Every.ite trivial (SeqX.Every.ite (record hI) hI)) ?_
    split
    · exact noteRefusal hI
    · split
      · exact hI
      · exact trivial
  · exact unitXlate hI

theorem place {w : Who} {c : CtxId} {asid ten : Nat} {x : CeAddr} {n : Nat} {need : Need} (hI : s.Every I) : (s.place w c asid ten x n need).Every I := by
  unfold State.place
  refine PlaceRes.Every.ite ?_ ?_
  · split
    · exact trivial
    · rename_i hx
      exact ((engAt hI).hold hx)
    · rename_i hx1
      exact ((engAt hI).fault hx1)
  · split
    · exact hI
    · refine PlaceRes.Every.ite hI ?_
      split
      · exact hI
      · exact trivial

theorem placeWrite {c : CtxId} {bs : List Byte} {r : Place} (hI : s.Every I) : (s.placeWrite c bs r).Every I := by
  unfold State.placeWrite
  split
  · exact spadWrite hI
  · exact updCtx (devWrite hI) (fun hx => .nearWrite hx)
  · exact record hI

theorem placeLose {c : CtxId} {n : Nat} {r : Place} (hI : s.Every I) : (s.placeLose c n r).Every I := by
  unfold State.placeLose
  split
  · exact record (spadWrite hI)
  · exact updCtx (breakRange (lose hI)) (fun hx => .nearWrite hx)
  · exact record hI

theorem ceRead {w : Who} {rd wr : CeOwner} {a : CeAddr} {n : Nat} (hI : s.Every I) : Leaves (·.Every I) (fun _ => True) (s.ceRead w rd wr a n) := by
  unfold State.ceRead
  split
  · rename_i hx
    exact ((place hI).hold hx)
  · rename_i hx1
    exact ((place hI).bad hx1)
  · split
    · exact Leaves.ite hI trivial
    · exact trivial

theorem ceRun {w : Who} {rd wr : CeOwner} {l : List CeUnit} (hI : s.Every I) : (s.ceRun w rd wr l).Every I := by
  induction l with
  | nil => exact trivial
  | cons u rest ih =>
    rw [State.ceRun]
    have hgo (p : Option Place) (bs : List Byte) : CeRun.Every (match s.place w wr.ctx wr.asid wr.ten u.dst u.n ⟨false, true⟩ with
        | .hold s => .hold s
        | .bad s f => .bad s f
        | .ok d =>
          match s.ceRun w rd wr rest with
          | .ok l => .ok (⟨p, bs, d⟩ :: l)
          | x => x) I := by
      split
      · next hx => exact (place hI).hold hx
      · next hx => exact (place hI).bad hx
      · split
        · exact trivial
        · exact ih
    split
    · exact hgo _ _
    · split
      · next hx => exact (ceRead hI).error hx
      · exact hgo _ _

theorem ceReach {w : Who} {rd wr : CeOwner} {us : List (CeUnit × CeGood)} (hI : s.Every I) : (s.ceReach w rd wr us).Every I := by
  unfold State.ceReach
  refine foldl (fun _ _ hs => ?_) hI
  simp only
  split
  · refine reach ?_
    split
    · exact nearNote (tlbUse hs)
    · exact record hs
    · exact hs
  · split
    · exact nearNote (tlbUse hs)
    · exact record hs
    · exact hs

theorem ceWrite {rd wr : CeOwner} {idx srcs : List (Nat × Place)} {l : List CeGood} (hI : s.Every I) : (s.ceWrite rd wr idx srcs l).Every I := by
  unfold State.ceWrite
  exact foldl (fun _ _ hs => ite (placeLose hs) (placeWrite hs)) hI

theorem ceSome {w : Who} {rd wr : CeOwner} {idx got : List (Nat × Place)} {us : List CeUnit} (hI : s.Every I) : (s.ceSome w rd wr idx got us).Every I := by
  unfold State.ceSome
  exact foldl (fun _ _ hs => foldl (fun _ _ hs1 => record (ite (placeLose hs1) (ite (placeWrite hs1) hs1))) hs) hI

/-! ### Packets in progress (R328, R329) -/

theorem putPkt {core : CoreId} {i : Nat} {p : Pkt} (hI : s.Every I) : (s.putPkt core i p).Every I := by
  unfold State.putPkt
  exact updCore hI

theorem execCePacketStart_leads {core : CoreId} {i : Nat} (hI : s.Every I) : Out.Leads (execCePacketStart core i s) I := by
  unfold execCePacketStart
  split
  · exact hI
  · exact Out.Leads.ite hI (putPkt hI)

theorem ceWork {core : CoreId} {i : Nat} {p : Pkt} {rd : CeOwner} {idx : List (Nat × Place)} {us : List CeUnit} (hI : s.Every I) :
    (s.ceWork core i p rd idx us).1.Every I := by
  unfold State.ceWork
  simp only
  split
  · next hx => exact (ceRun hI).hold hx
  · next hx => exact putPkt (ceSome ((ceRun hI).bad hx))
  · exact putPkt (ceWrite (ceReach hI))

theorem ceMove {core : CoreId} {i ty : Nat} (hI : s.Every I) : Out.Leads (s.ceMove core i ty) I := by
  unfold State.ceMove
  split
  · exact hI
  · exact Out.Leads.ite hI (ceWork hI)

theorem execCeCopy_leads {core : CoreId} {i : Nat} (hI : s.Every I) : Out.Leads (execCeCopy core i s) I := by
  unfold execCeCopy
  exact ceMove hI

theorem execCeCopy2d_leads {core : CoreId} {i : Nat} (hI : s.Every I) : Out.Leads (execCeCopy2d core i s) I := by
  unfold execCeCopy2d
  exact ceMove hI

theorem execCeCopy4d_leads {core : CoreId} {i : Nat} (hI : s.Every I) : Out.Leads (execCeCopy4d core i s) I := by
  unfold execCeCopy4d
  exact ceMove hI

theorem execCeFill_leads {core : CoreId} {i : Nat} (hI : s.Every I) : Out.Leads (execCeFill core i s) I := by
  unfold execCeFill
  exact ceMove hI

theorem ceIndex {w : Who} {o : CeOwner} {p : List Byte} {n : Nat} (hI : s.Every I) :
    Leaves (·.Every I) (fun r => ∀ t ∈ r.2.2, t.1.Every I) (s.ceIndex w o p n) := by
  induction n with
  | zero => exact ofNoPair
  | succ n ih =>
    rw [State.ceIndex]
    split
    · next hx => exact ih.error hx
    · next hx =>
      have hf := ih.ok hx
      split
      · exact hf
      · next hr => exact (ceRead hI).error hr
      · next hr =>
        have ht : State.Every _ I := (ceRead hI).error hr
        split
        · exact hf
        · exact ofPair ht
      · exact hI

theorem ceNote {core : CoreId} {p : Pkt} {q : List (Nat × Place)} (hI : s.Every I) : (s.ceNote core p q).Every I := by
  unfold State.ceNote
  refine foldl (fun _ _ hs => ?_) hI
  split
  · exact nearNote (tlbUse hs)
  · exact hs

theorem ceRows {core : CoreId} {i ty : Nat} (hI : s.Every I) : Out.Leads (s.ceRows core i ty) I := by
  unfold State.ceRows
  simp only
  split
  · exact hI
  split
  · exact ceWork hI
  split
  · next hx => exact (ceIndex hI).error hx
  · next hx => exact putPkt (ceSome ((ceIndex hI).ok hx _ rfl))
  · exact ceWork (ceNote hI)

theorem execCeGather_leads {core : CoreId} {i : Nat} (hI : s.Every I) : Out.Leads (execCeGather core i s) I := by
  unfold execCeGather
  exact ceRows hI

theorem execCeScatter_leads {core : CoreId} {i : Nat} (hI : s.Every I) : Out.Leads (execCeScatter core i s) I := by
  unfold execCeScatter
  exact ceRows hI

theorem execCeCadd_leads {core : CoreId} {i : Nat} (hI : s.Every I) : Out.Leads (execCeCadd core i s) I := by
  unfold execCeCadd
  split
  · exact hI
  · exact putPkt hI

theorem execCeSignal_leads {core : CoreId} {i : Nat} (hI : s.Every I) : Out.Leads (execCeSignal core i s) I := by
  unfold execCeSignal
  split
  · exact hI
  next p hp =>
  refine Out.Leads.ite (putPkt (pfEvent hI)) ?_
  by_cases hb : s.vfRoom (s.ctx p.ctx).ten.toNat = true
  · rw [if_pos hb]
    generalize hu : s.unitXlate _ _ _ _ _ _ = u
    generalize hv : s.vfPut _ _ _ _ _ _ _ _ _ = v
    cases u with
    | hold t => exact (unitXlate hI).hold hu
    | fault t b => exact putPkt ((unitXlate hI).fault hu)
    | ok n =>
      cases v with
      | ok t => exact putPkt ((vfPut hI).ok hv)
      | error e =>
        obtain ⟨t, b⟩ := e
        cases b with
        | none => exact (vfPut hI).error hv
        | some b => exact putPkt ((vfPut hI).error hv)
  · rw [if_neg hb]
    generalize hv : s.vfPut _ _ _ _ _ _ _ _ _ = v
    cases v with
    | ok t => exact putPkt ((vfPut hI).ok hv)
    | error e =>
      obtain ⟨t, b⟩ := e
      cases b with
      | none => exact (vfPut hI).error hv
      | some b => exact putPkt ((vfPut hI).error hv)

/-! ### Transfer notices and pulls (R338, R339, R342, R349) -/

theorem execCeMcast_leads {core : CoreId} {i : Nat} (hI : s.Every I) : Out.Leads (execCeMcast core i s) I := by
  unfold execCeMcast
  split
  · exact hI
  · exact putPkt (record hI)

theorem updPktNum {n : Nat} {f : Pkt → Pkt} (hI : s.Every I) : (s.updPktNum n f).Every I := by
  unfold State.updPktNum
  exact record hI

theorem refuseKick {k : Kick} {f : PFault} (hI : s.Every I) : (s.refuseKick k f).Every I := by
  unfold State.refuseKick
  exact updPktNum hI

theorem dropKick {m : KickMsg} {bten : Nat} (hI : s.Every I) : (s.dropKick m bten).Every I := by
  unfold State.dropKick
  exact refuseKick (ite (fwDrop hI) hI)

theorem execKickNoticeArrive_leads {i : Nat} (hI : s.Every I) : Out.Leads (execKickNoticeArrive i s) I := by
  unfold execKickNoticeArrive
  split
  · exact hI
  · refine Out.Leads.ite hI ?_
    simp only
    split
    · exact refuseKick (record hI)
    · exact Out.Leads.ite (dropKick (record hI)) (Out.Leads.ite (dropKick (record hI)) (Out.Leads.ite (record hI) (setCtx (record hI) (.record (ctx hI) rfl rfl))))

theorem execKickNoticeResend_leads {i : Nat} (hI : s.Every I) : Out.Leads (execKickNoticeResend i s) I := by
  unfold execKickNoticeResend
  split
  · exact Out.Leads.ite hI (record hI)
  · exact hI

theorem execPullAck_leads {i : Nat} (hI : s.Every I) : Out.Leads (execPullAck i s) I := by
  unfold execPullAck
  split
  · exact hI
  · exact updPktNum (record hI)

theorem noteMcast {n : Nat} {bs : List Byte} (hI : s.Every I) : (s.noteMcast n bs).Every I := by
  unfold State.noteMcast
  exact ite (record hI) hI

theorem execCePull_leads {core : CoreId} {i : Nat} (hI : s.Every I) : Out.Leads (execCePull core i s) I := by
  unfold execCePull
  simp only
  split
  · exact hI
  next p hp =>
  refine Out.Leads.ite hI ?_
  split
  · exact hI
  next k x hf =>
  have hs : (s.setCtx p.ctx x).Every I := by
    refine setCtx hI ?_
    split at hf
    · cases hf
      exact ctx hI
    · obtain ⟨r, -, hr⟩ := Option.map_eq_some_iff.mp hf
      cases hr
      exact .record (ctx hI) rfl rfl
  refine Out.Leads.ite (putPkt hs) (Out.Leads.ite (putPkt (ceWork hs)) ?_)
  split
  · exact Out.Leads.ite (noteMcast (ceWork hs)) (record (noteMcast (ceWork hs)))
  · exact noteMcast (ceWork hs)

/-! ### The accesses of a packet one by one (R329, R336) -/

theorem keepRead {core : CoreId} {i n : Nat} {p : Pkt} {src : Option Place} {bs : List Byte} (hI : s.Every I) : (s.keepRead core i n p src bs).Every I := by
  unfold State.keepRead
  simp only
  split
  · exact ite (noteMcast (putPkt hI)) (putPkt hI)
  · exact putPkt hI

theorem ceReadAt {core : CoreId} {i n : Nat} (hI : s.Every I) : (s.ceReadAt core i n).Every I := by
  unfold State.ceReadAt
  split
  · exact hI
  · simp only
    split
    · refine ite ?_ hI
      split
      · exact putPkt (ceNote hI)
      · rename_i hx
        exact ((ceIndex hI).error hx)
      · exact hI
    · split
      · split
        · exact keepRead hI
        · refine ite hI ?_
          split
          · exact keepRead (ceReach hI)
          · rename_i hx1
            exact ((ceRead hI).error hx1)
          · rename_i hx2
            exact hI
      · exact hI

theorem ceWriteAt {core : CoreId} {i n : Nat} (hI : s.Every I) : (s.ceWriteAt core i n).Every I := by
  unfold State.ceWriteAt
  split
  · exact hI
  · simp only
    split
    · exact hI
    · split
      · refine ite hI ?_
        split
        · exact putPkt (ceWrite (ceReach hI))
        · rename_i hx
          exact ((place hI).hold hx)
        · rename_i hx1
          exact hI
      · exact hI

/-! ### Lost packages (R446) -/

theorem losePage {pa : Nat} (hI : s.Every I) : (s.losePage pa).Every I := by
  unfold State.losePage
  exact breakRange (record hI)

theorem execRemoteReadTimeout_leads {core : CoreId} {i : Nat} (hI : s.Every I) : Out.Leads (execRemoteReadTimeout core i s) I := by
  unfold execRemoteReadTimeout
  split
  · exact hI
  · refine Out.Leads.ite hI ?_
    split
    · exact hI
    · simp only
      split
      · exact putPkt (losePage hI)
      · exact putPkt hI

/-! ### Completion (R330 to R333) -/

theorem ceAdd {w : Who} {c : CtxId} {ca amt : W64} (hI : s.Every I) : (s.ceAdd w c ca amt).Every I := by
  unfold State.ceAdd
  simp only
  split
  · rename_i hx
    exact ((place hI).hold hx)
  · rename_i hx1
    exact ((place hI).bad hx1)
  · exact spadWrite hI
  · exact placeWrite (reach hI)
  · exact record hI

theorem updQ {q : Nat} {f : QState → QState} (hI : s.Every I) : (s.updQ q f).Every I := by
  unfold State.updQ
  exact record hI

theorem reportPkt {p : Pkt} {f : Option PFault} (hI : s.Every I) : (s.reportPkt p f).Every I := by
  unfold State.reportPkt
  split
  · exact ite hI (updCtx hI (fun hx => .cpDone hx))
  · split
    · exact updQ hI
    · exact hI
  · exact record hI

theorem ceSteps {core : CoreId} {i : Nat} {p : Pkt} (hI : s.Every I) : (s.ceSteps core i p).Every I := by
  unfold State.ceSteps
  refine CeAdd.Every.ite hI ?_
  refine CeAdd.Every.ite (putPkt hI) ?_
  refine CeAdd.Every.ite (putPkt (foldl (fun _ _ hs => releaseEvent hs) hI)) ?_
  split
  · rename_i hx2
    exact putPkt ((ceAdd (foldl (fun _ _ hs1 => releaseEvent hs1) hI)).held hx2)
  · rename_i hx4
    exact putPkt ((ceAdd (foldl (fun _ _ hs3 => releaseEvent hs3) hI)).made hx4)

theorem execCePacketComplete_leads {core : CoreId} {i : Nat} (hI : s.Every I) : Out.Leads (execCePacketComplete core i s) I := by
  unfold execCePacketComplete
  split
  · exact hI
  · refine Out.Leads.ite hI ?_
    split
    · rename_i hx
      exact ((ceSteps hI).held hx)
    · rename_i hx1
      refine Out.Leads.ite ((ceSteps hI).made hx1) ?_
      refine reportPkt ?_
      refine record ?_
      refine updCore ?_
      split
      · exact updFab ((ceSteps hI).made hx1)
      · exact ((ceSteps hI).made hx1)

theorem execCeDoneEos_leads {c : CtxId} (hI : s.Every I) : Out.Leads (execCeDoneEos c s) I := by
  unfold execCeDoneEos
  simp only
  split
  · exact hI
  · exact Out.Leads.ite hI (updFab hI)

/-! ### The hub's accesses (R289, R421) -/

theorem hubAt {i asid ten : Nat} {va : Int} {n : Nat} {need : Need} (hI : s.Every I) : (s.hubAt i asid ten va n need).Every I := by
  unfold State.hubAt
  exact onlyLocal hI (engAt hI)

theorem hubUse {asid va pa n : Nat} {wr : Bool} (hI : s.Every I) : (s.hubUse asid va pa n wr).Every I := by
  unfold State.hubUse
  exact reach hI

/-! ### Queues (R341, R343 to R346, R364, R367) -/

theorem mlog {t kind q at_ : Nat} {bs : List Byte} (hI : s.Every I) : (s.mlog t kind q at_ bs).Every I := by
  unfold State.mlog
  exact ite hI (setMg (ringPut hI))

theorem qAt {q : Nat} {va n : Nat} {need : Need} (hI : s.Every I) : (s.qAt q va n need).Every I := by
  unfold State.qAt
  exact SeqX.Every.ite (hubAt hI) (onlyLocal hI (engAt hI))

theorem qFault {q idx va : Nat} {t : Trap} (hI : s.Every I) : (s.qFault q idx va t).Every I := by
  unfold State.qFault
  exact updQ hI

theorem qPeek {q : Nat} (hI : s.Every I) : (s.qPeek q).Every I := by
  unfold State.qPeek
  refine QPeek.Every.ite trivial ?_
  split
  · rename_i hx
    exact ((qAt hI).hold hx)
  · rename_i hx1
    exact qFault ((qAt hI).fault hx1)
  · refine QPeek.Every.ite trivial ?_
    simp only
    split
    · rename_i hx2
      exact ((qAt hI).hold hx2)
    · rename_i hx3
      exact qFault ((qAt hI).fault hx3)
    · exact QPeek.Every.ite trivial trivial

theorem qAdvance {line idx : Nat} (hI : s.Every I) : (s.qAdvance line idx).Every I := by
  unfold State.qAdvance
  exact devWrite hI

/-! ### The walker's blocks (R351 to R355) -/

theorem putStat {b : TaskBlk} (hI : s.Every I) : (s.putStat b).Every I := by
  unfold State.putStat
  refine ite (record hI) ?_
  split
  · simp only
    split
    · exact devWrite (devWrite (hubUse hI))
    · exact devWrite (hubUse hI)
  · rename_i hx
    exact record ((hubAt hI).hold hx)
  · rename_i hx1
    exact ((hubAt hI).fault hx1)

theorem statWrite {i : Nat} (hI : s.Every I) : (s.statWrite i).Every I := by
  unfold State.statWrite
  split
  · exact hI
  · exact ite hI (ite (record (putStat (record hI))) (record (putStat (record hI))))

theorem updBlk {asid va : Nat} {f : TaskBlk → TaskBlk} (hI : s.Every I) : (s.updBlk asid va f).Every I := by
  unfold State.updBlk
  split
  · exact putStat (record hI)
  · exact hI

theorem freeBlk {b : TaskBlk} (hI : s.Every I) : (s.freeBlk b).Every I := by
  unfold State.freeBlk
  exact putStat (record hI)

theorem armBlock {asid ten va : Nat} (hI : s.Every I) : (s.armBlock asid ten va).Every I := by
  unfold State.armBlock
  split
  · rename_i hx
    exact ((hubAt hI).hold hx)
  · rename_i hx1
    exact ((hubAt hI).fault hx1)
  · exact ArmRes.Every.ite trivial (ArmRes.Every.ite trivial (ArmRes.Every.ite trivial (putStat (record (hubUse hI)))))

/-! ### Intake (R328, R331, R344) -/

theorem ceTake {q idx : Nat} {b : List Byte} {line : Nat} (hI : s.Every I) : (s.ceTake q idx b line).Every I := by
  have ht : ((s.mlog (s.qTen q) 1 (q - 64) idx b).qAdvance line idx |>.updCtx (s.qCtx q) fun x => { x with near := [] }).Every I :=
    updCtx (qAdvance (mlog hI)) fun hx => .record hx rfl rfl
  unfold State.ceTake
  dsimp only
  generalize State.updCtx _ _ _ = t at ht
  refine ite (record ht) ?_
  split
  · refine record ?_
    split
    · exact updBlk ht
    · exact ht
  · refine updQ ?_
    split
    · exact updBlk ht
    · exact ht
  · refine addPkt ?_
    split
    · exact updBlk ht
    · exact ht
  · refine addPkt ?_
    split
    · exact updBlk ht
    · exact ht

theorem dropCmd {core : CoreId} {e : CeCmd} (hI : s.Every I) : (s.dropCmd core e).Every I := by
  unfold State.dropCmd
  exact updCore hI

theorem cpyAccept {c : CtxId} {e : CeCmd} {n : Nat} {k : Cell} (hI : s.Every I) (hc : (s.ctx c).cntCp < 31) : (s.cpyAccept c e n k).Every I := by
  unfold State.cpyAccept
  refine addPkt (updCtx (putCell (dropCmd hI)) fun hx => .submit hx ?_)
  rw [State.putCell, State.updFab, State.updCtx, State.ctx_setCtx_self]
  exact hc

theorem localIntake {c : CtxId} (hI : s.Every I) : (s.localIntake c).Every I := by
  unfold State.localIntake
  refine .ite trivial ?_
  dsimp only
  split
  · exact addPkt (updCore hI)
  split
  · split
    · refine .ite (dropCmd hI) ?_
      split
      · exact trivial
      next hc =>
      rw [Bool.or_eq_true, not_or, decide_eq_true_eq, Nat.not_le] at hc
      split
      · exact cpyAccept hI hc.1
      · exact .ite (raise (putCell (dropCmd hI))) (fabFault (putCell hI))
    · exact dropCmd hI
  split
  · exact trivial
  split
  · refine .ite (dropCmd hI) ?_
    split
    · exact trivial
    next hc =>
    split
    · exact fabFault hI
    · refine addPkt (updCtx (updFab (dropCmd hI)) fun hx => .submit hx ?_)
      rw [State.updFab, State.updCtx, State.ctx_setCtx_self]
      exact Nat.not_le.mp hc
  · exact .ite (.ite (updFab hI) (fabFault hI)) trivial

theorem ceSource {core : CoreId} {k : Nat} (hI : s.Every I) : (s.ceSource core k).Every I := by
  unfold State.ceSource
  refine Intake.Every.ite (localIntake hI) ?_
  refine Intake.Every.ite trivial ?_
  split
  · exact trivial
  · rename_i hx
    exact ((qPeek hI).hold hx)
  · rename_i hx1
    exact ((qPeek hI).bad hx1)
  · exact Intake.Every.ite (ceTake hI) trivial

theorem cePick {core : CoreId} (hI : s.Every I) : (s.cePick core).1.Every I := by
  unfold State.cePick
  refine foldlFst (fun _ _ hr => ?_) hI
  split
  · exact hr
  · simp only
    split
    · exact hr
    · rename_i hx1
      exact ((ceSource hr).aside hx1)
    · rename_i hx2
      exact updCore ((ceSource hr).took hx2)

theorem execCePacketIntake_leads {core : CoreId} (hI : s.Every I) : Out.Leads (execCePacketIntake core s) I := by
  unfold execCePacketIntake
  exact Out.Leads.ite hI (cePick hI)

theorem execQueueSlotTake_leads {q : Nat} (hI : s.Every I) : Out.Leads (execQueueSlotTake q s) I := by
  unfold execQueueSlotTake
  refine Out.Leads.ite ?_ ?_
  · refine Out.Leads.ite hI ?_
    split
    · exact hI
    · rename_i hx
      exact ((qPeek hI).hold hx)
    · rename_i hx1
      exact ((qPeek hI).bad hx1)
    · exact updQ hI
  · refine Out.Leads.ite hI ?_
    split
    · rename_i hx2
      exact Out.Leads.ite (fst (cePick hI) hx2) hI
    · rename_i hx3
      exact (fst (cePick hI) hx3)

theorem execQueueError_leads {q : Nat} (hI : s.Every I) : Out.Leads (execQueueError q s) I := by
  unfold execQueueError
  split
  · exact hI
  · refine Out.Leads.ite (event (updQ hI)) ?_
    split
    · rename_i hx
      exact ((qAt hI).hold hx)
    · rename_i hx1
      exact event (updQ ((qAt hI).fault hx1))
    · exact event (updQ (devWrite (ite (devWrite (devWrite hI)) (lose (devWrite hI)))))

theorem execQueueRestart_leads {q : Nat} (hI : s.Every I) : Out.Leads (execQueueRestart q s) I := by
  unfold execQueueRestart
  refine Out.Leads.ite hI ?_
  split
  · exact Out.Leads.ite (updQ hI) hI
  · rename_i hx
    exact ((qAt hI).hold hx)
  · rename_i hx1
    exact ((qAt hI).fault hx1)

/-! ### Reports and pushes (R354, R355, R358) -/

theorem execTaskCompletionReport_leads {i : Nat} (hI : s.Every I) : Out.Leads (execTaskCompletionReport i s) I := by
  unfold execTaskCompletionReport
  split
  · simp only
    split
    · exact record hI
    · refine Out.Leads.ite (record hI) ?_
      refine freeBlk ?_
      refine foldlFst (fun _ _ hr => ?_) (record hI)
      split
      · exact iteFst hr (updBlk hr)
      · exact hr
  · exact hI

theorem execTaskFaultReport_leads {i : Nat} (hI : s.Every I) : Out.Leads (execTaskFaultReport i s) I := by
  unfold execTaskFaultReport
  split
  · simp only
    split
    · exact record hI
    · exact Out.Leads.ite (record hI) (updBlk (record hI))
  · exact hI

theorem taskClaim {b : TaskBlk} {line : Nat} (hI : s.Every I) : (s.taskClaim b line).2.Every I := by
  unfold State.taskClaim
  split
  · exact hI
  · exact record (devWrite (hubUse hI))

theorem execTaskPush_leads {i : Nat} (hI : s.Every I) : Out.Leads (execTaskPush i s) I := by
  unfold execTaskPush
  split
  · exact hI
  · refine Out.Leads.ite hI ?_
    split
    · rename_i hx
      exact ((hubAt hI).hold hx)
    · rename_i hx1
      exact updBlk ((hubAt hI).fault hx1)
    · refine Out.Leads.ite (taskClaim hI) ?_
      simp only
      split
      · rename_i hx2
        exact ((hubAt (taskClaim hI)).hold hx2)
      · rename_i hx3
        exact updBlk ((hubAt (taskClaim hI)).fault hx3)
      · exact record (devWrite (hubUse (taskClaim hI)))

theorem execCeTaskarm_leads {core : CoreId} {i : Nat} (hI : s.Every I) : Out.Leads (execCeTaskarm core i s) I := by
  unfold execCeTaskarm
  split
  · exact hI
  · simp only
    split
    · rename_i hx
      exact ((armBlock hI).hold hx)
    · rename_i hx1
      exact putPkt ((armBlock hI).ok hx1)
    · exact putPkt hI
    · rename_i hx2
      exact putPkt ((armBlock hI).fault hx2)

/-! ### Instructions (R347 to R349, R356, R357, R359) -/

theorem devWord {c : CtxId} {v : W64} {size : Nat} {need : Need} {remote : Bool} (hI : s.Every I) : (s.devWord c v size need remote).Every I := by
  unfold State.devWord
  exact SeqX.Every.ite hI (devOperand hI)

theorem submitLocal {d : BitVec 5} {b : List Byte} (hI : s.Every I) (hc : (s.ctx s.cur).cntCp < 31) : (s.submitLocal d b).Every I := by
  unfold State.submitLocal
  exact setCtx (updCore hI) (.advance (.setReg (.submit (ctx hI) hc)))

theorem execCqSub_leads {g : Guard} {d a b : BitVec 5} (hI : s.Every I) : Out.Leads (execCqSub g d a b s) I := by
  unfold execCqSub
  refine issue hI fun hh => ite (raise hI) ?_
  simp only [Bool.or_eq_false_iff] at hh
  obtain ⟨⟨⟨⟨-, hld⟩, hst⟩, hcp⟩, -⟩ := hh
  split
  · exact raise hI
  split
  · exact raise hI
  dsimp only
  split
  · next ha =>
    split
    · exact raise hI
    · exact submitLocal hI (by simpa [ha] using hcp)
  split
  · next hx => exact (devWord hI).hold hx
  · next hx => exact raise ((devWord hI).fault hx)
  · unfold State.waitFor
    exact updCtx hI fun hx => .record (I.slot d none (.inl (Ctx.ops_eq_nil hld hst)) hx) rfl rfl

theorem execCqKick_leads {g : Guard} {a b : BitVec 5} (hI : s.Every I) : Out.Leads (execCqKick g a b s) I := by
  unfold execCqKick
  refine issue hI fun hh => ?_
  simp only [Bool.or_eq_false_iff, decide_eq_false_iff_not, Nat.not_le] at hh
  dsimp only
  split
  · exact raise hI
  · exact submitLocal hI hh.2

theorem execTaskArm_leads {g : Guard} {d : BitVec 5} (hI : s.Every I) : Out.Leads (execTaskArm g d s) I := by
  unfold execTaskArm
  refine issue hI (fun _ => ?_)
  split
  · rename_i hx1
    exact ((devWord hI).hold hx1)
  · rename_i hx2
    exact raise ((devWord hI).fault hx2)
  · exact waitFor hI not_false

theorem killWalk {asid n : Nat} {l : List Nat} (hI : s.Every I) : (State.killWalk asid n l s).Every I := by
  induction n generalizing s l with
  | zero => exact hI
  | succ n ih =>
    cases l with
    | nil => exact hI
    | cons v rest =>
      rw [State.killWalk]
      split
      · refine ite (ih (freeBlk ?_)) (ih hI)
        split
        · exact record hI
        · exact hI
      · exact ih hI

theorem execTaskKill_leads {g : Guard} {d : BitVec 5} (hI : s.Every I) : Out.Leads (execTaskKill g d s) I := by
  unfold execTaskKill
  refine issue hI (fun _ => ?_)
  split
  · rename_i hx1
    exact ((devWord hI).hold hx1)
  · rename_i hx2
    exact raise ((devWord hI).fault hx2)
  · split
    · exact ite (waitFor (killWalk hI) not_false) (raise hI)
    · exact raise hI

theorem execTaskStat_leads {g : Guard} {d : BitVec 5} (hI : s.Every I) (hw : (s.ctx s.cur).wait = none) : Out.Leads (execTaskStat g d s) I := by
  unfold execTaskStat
  refine issue hI fun hh => ite (raise hI) ?_
  have hp {o : OpBody} : I.Ok ((s.ctx s.cur).pushOp false d o) := .pushLoad (ctx hI) hw (Ctx.free_of_not_held hh)
  split
  · next hx => exact (devWord hI).hold hx
  · next hx => exact raise ((devWord hI).fault hx)
  · dsimp only
    split
    · exact devSend hI hp
    · exact setCtx (record hI) (.advance hp)

theorem taskWait {c : CtxId} {d : BitVec 5} {kill : Bool} (hI : s.Every I) : (s.taskWait c d kill).Every I := by
  unfold State.taskWait
  refine ite (retire hI id) ?_
  split
  · rename_i hx
    exact retire ((armBlock hI).ok hx) id
  · rename_i hx1
    exact ((armBlock hI).hold hx1)
  · exact raise hI
  · rename_i hx2
    exact raise ((armBlock hI).fault hx2)

theorem releaseBar_forSlot {line : Nat} {ok : Bool} {c : CtxId} (h : Wait.forSlot (s.ctx c).wait) : Wait.forSlot ((s.releaseBar line ok).ctx c).wait := by
  unfold State.releaseBar
  generalize List.filter _ s.barWaiters = l
  show Wait.forSlot (State.ctx (List.foldl _ s l) c).wait
  induction l generalizing s with
  | nil => exact h
  | cons w l ih =>
    refine ih ?_
    dsimp only [State.updCtx]
    rw [State.ctx_setCtx]
    split
    · next hc =>
      subst hc
      dsimp only
      split
      · next hw =>
        rw [hw] at h
        exact h
      · exact h
    · exact h

theorem homeWrite_forSlot {pa : Nat} {bs : List Byte} {b : Bool} {c : CtxId} (h : Wait.forSlot (s.ctx c).wait) :
    Wait.forSlot ((s.homeWrite pa bs b).ctx c).wait := by
  have hite {t u : State} {p : Prop} [Decidable p] (ht : Wait.forSlot (t.ctx c).wait) (hu : Wait.forSlot (u.ctx c).wait) :
      Wait.forSlot ((if p then t else u).ctx c).wait := by
    split <;> assumption
  have hctxs {t : State} (ht : t.ctxs = s.ctxs) : Wait.forSlot (t.ctx c).wait := by
    rw [State.ctx, ht]
    exact h
  have hdrop : (s.dropCopies (lineOf pa)).ctxs = s.ctxs := (congrArg State.ctxs (State.Caches.dropCopies s (lineOf pa))).trans rfl
  unfold State.homeWrite
  exact hite (releaseBar_forSlot (hctxs hdrop)) (hctxs hdrop)

theorem devWrite_forSlot {pa : Nat} {bs : List Byte} {c : CtxId} (h : Wait.forSlot (s.ctx c).wait) : Wait.forSlot ((s.devWrite pa bs).ctx c).wait := by
  unfold State.devWrite
  generalize cutLines pa bs = l
  induction l generalizing s with
  | nil => exact h
  | cons w l ih => exact ih (homeWrite_forSlot h)

theorem cqWait {c : CtxId} {i : Instr} {d : BitVec 5} {claim : Option Nat} (hI : s.Every I) (hw : Wait.forSlot (s.ctx c).wait) :
    (s.cqWait c i d claim).Every I := by
  unfold State.cqWait
  dsimp only
  split
  · split
    · next hx => exact (engAt hI).hold hx
    · next hx => exact raise ((engAt hI).fault hx)
    · split
      · have hslot {t : State} {k : Option Nat} (ht : t.Every I) (hc : Wait.forSlot (t.ctx c).wait) :
            (t.updCtx c fun x => { x with wait := some (.cqSub d k) }).Every I := updCtx ht (I.slot d k (.inr hc))
        split
        · exact hslot (record hI) hw
        · refine hslot (devWrite (reach hI)) ?_
          refine devWrite_forSlot ?_
          rw [reach_ctx]
          exact hw
      · refine ite hI ?_
        split
        · next hx => exact (engAt hI).hold hx
        · next hx => exact raise ((engAt hI).fault hx)
        · have hpush {b : OpBody} : I.Ok (((s.updCtx c fun x => { x with st := .ready, wait := none }).ctx c).pushOp true d b) := by
            rw [State.updCtx, State.ctx_setCtx_self]
            exact I.claim d b hw (ctx hI)
          exact updReq (devSend (updCtx hI fun hx => .waits hx rfl not_false) hpush)
  · exact hI

/-! ### Gates (R391 to R393) -/

theorem gate {c : CtxId} {src : Nat} (hI : s.Every I) : (s.gate c src).Every I := by
  unfold State.gate
  exact ite hI (ite (setCtx hI (.record (ctx hI) rfl rfl)) (setCtx hI (.record (ctx hI) rfl rfl)))

theorem ungate {c : CtxId} {src : Nat} (hI : s.Every I) : (s.ungate c src).Every I := by
  unfold State.ungate
  exact trapEntry (refreeze (setCtx hI (.record (ctx hI) rfl rfl)))

/-! ### The occupancy map (R371, R372) -/

theorem mapChanged (hI : s.Every I) : (s.mapChanged).Every I := by
  unfold State.mapChanged
  exact record hI

theorem zeroBanks {core : CoreId} {banks : List Nat} (hI : s.Every I) : (s.zeroBanks core banks).Every I := by
  unfold State.zeroBanks
  exact updCore hI

theorem reserve {core : CoreId} {nb lid : Nat} {x : Ctx} (hI : s.Every I) (hx : I.Ok x) : (s.reserve core nb lid x).1.Every I := by
  unfold State.reserve
  refine setCtx (zeroBanks hI) (.banks hx rfl rfl fun _ b hb => ?_)
  obtain ⟨n, -, rfl⟩ := List.mem_map.mp hb
  exact ChanQ.Fits.of_empty rfl rfl rfl rfl

/-! ### Turns (R375) -/

theorem setTurn {lid : Nat} {on : Bool} (hI : s.Every I) : (s.setTurn lid on).Every I := by
  unfold State.setTurn
  split
  · exact hI
  · rename_i hl
    exact foldl (fun _ _ hs1 => ite (ungate (updCtx hs1 (fun hx2 => .record hx2 rfl rfl))) (gate hs1)) (putLease hI (.record (lease hI hl) rfl))

theorem giveTurns {next : Option Nat} (hI : s.Every I) : (s.giveTurns next).Every I := by
  unfold State.giveTurns
  refine foldl (fun _ _ hs => ?_) hI
  simp only
  split
  · split
    · exact setTurn hs
    · exact hs
  · exact foldl (fun _ _ hs1 => ite hs1 (setTurn hs1)) hs

/-! ### Destruction and release (R394, R251, R338) -/

theorem dropKicks {c : CtxId} (hI : s.Every I) : (s.dropKicks c).Every I := by
  have hs {l : List Kick} : (l.foldl (fun s k => s.refuseKick k (absentFault k.src)) s).Every I := foldl (fun _ _ hs => refuseKick hs) hI
  unfold State.dropKicks
  exact ⟨List.forall_mem_map.mpr fun e he => .record (hs.1 e he) rfl rfl, hs.2⟩

theorem endWork {c : CtxId} (hI : s.Every I) : (s.endWork c).Every I := by
  unfold State.endWork
  exact record (updCore (tearChains (dropKicks (withdraw hI))))

theorem blankCtx {c : CtxId} (hI : s.Every I) : (s.blankCtx c).Every I := by
  unfold State.blankCtx
  refine setCtx (zeroBanks hI) ?_
  split
  · refine .banks I.blank rfl rfl fun _ b hb => ?_
    obtain ⟨n, -, rfl⟩ := List.mem_map.mp hb
    exact ChanQ.Fits.of_empty rfl rfl rfl rfl
  · exact I.blank

theorem unreserve {b : CtxId} (hI : s.Every I) : (s.unreserve b).Every I := by
  unfold State.unreserve
  exact setCtx (zeroBanks (updCore hI)) I.blank

theorem unreserveAll {m : Moving} (hI : s.Every I) : (s.unreserveAll m).Every I := by
  unfold State.unreserveAll
  refine foldl (fun _ _ hs => ?_) hI
  split
  · exact ite hs (unreserve hs)
  · exact hs

theorem freeLease {lid : Nat} (hI : s.Every I) : (s.freeLease lid).Every I := by
  unfold State.freeLease
  split
  · exact hI
  · rename_i hl
    refine giveTurns ?_
    refine mapChanged ?_
    refine of_eq ?_ rfl rfl
    refine eraseLease ?_
    refine ite ?_ ?_
    · refine setMg ?_
      refine foldl (fun _ _ hs2 => dropKick hs2) ?_
      refine foldl (fun _ _ hs1 => setCtx (zeroBanks hs1) I.blank) ?_
      split
      · exact unreserveAll hI
      · exact hI
    · refine foldl (fun _ _ hs4 => dropKick hs4) ?_
      refine foldl (fun _ _ hs3 => setCtx (zeroBanks hs3) I.blank) ?_
      split
      · exact unreserveAll hI
      · exact hI

theorem leaseOver {lid : Nat} (hI : s.Every I) : (s.leaseOver lid).Every I := by
  unfold State.leaseOver
  split
  · exact hI
  · rename_i hl
    exact ite (freeLease (ite hI (record hI))) hI

theorem destroyCtx {c : CtxId} (hI : s.Every I) : (s.destroyCtx c).Every I := by
  unfold State.destroyCtx
  exact ite hI (leaseOver (refreeze (blankCtx (updLease (endWork (breakLease hI)) (fun hl => .record hl rfl)))))

theorem releaseCtx {c : CtxId} (hI : s.Every I) : (s.releaseCtx c).Every I := by
  unfold State.releaseCtx
  exact ite hI (leaseOver (refreeze (blankCtx (endWork hI))))

theorem execContextGated_leads {c : CtxId} (hI : s.Every I) : Out.Leads (execContextGated c s) I := by
  unfold execContextGated
  exact Out.Leads.ite hI (Out.Leads.ite (setCtx hI (.record (ctx hI) rfl rfl)) (ite (destroyCtx (refreeze (ite (setCtx hI (.record (ctx hI) rfl rfl)) (setMg (setCtx hI (.record (ctx hI) rfl rfl)))))) (refreeze (ite (setCtx hI (.record (ctx hI) rfl rfl)) (setMg (setCtx hI (.record (ctx hI) rfl rfl)))))))

theorem execCtxcGate_leads {c : CtxId} (hI : s.Every I) : Out.Leads (execCtxcGate c s) I := by
  unfold execCtxcGate
  exact gate hI

theorem execCtxcUngate_leads {c : CtxId} (hI : s.Every I) : Out.Leads (execCtxcUngate c s) I := by
  unfold execCtxcUngate
  exact ungate hI

theorem execCtxcDestroy_leads {c : CtxId} (hI : s.Every I) : Out.Leads (execCtxcDestroy c s) I := by
  unfold execCtxcDestroy
  exact Out.Leads.ite (destroyCtx (gate hI)) (Out.Leads.ite (gate hI) (updCtx (gate hI) (fun hx => .record hx rfl rfl)))

theorem execCtxcRelease_leads {c : CtxId} (hI : s.Every I) : Out.Leads (execCtxcRelease c s) I := by
  unfold execCtxcRelease
  exact ite (releaseCtx hI) (updCtx hI (fun hx => .record hx rfl rfl))

theorem execContextRelease_leads {c : CtxId} (hI : s.Every I) : Out.Leads (execContextRelease c s) I := by
  unfold execContextRelease
  refine Out.Leads.ite (ite (releaseCtx hI) hI) ?_
  split
  · exact hI
  · rename_i hl
    exact Out.Leads.ite hI (releaseCtx hI)

/-! ### Launch (R340, R367 to R370, R374, R411) -/

theorem lqTake {q : Nat} {h : LHead} (hI : s.Every I) : Leaves (·.Every I) (·.1.Every I) (s.lqTake q h) := by
  unfold State.lqTake
  split
  · rename_i hx
    exact ((qAt hI).hold hx)
  · rename_i hx1
    exact updQ (qFault ((qAt hI).fault hx1))
  · simp only
    split
    · exact updBlk (updQ (qAdvance (mlog hI)))
    · exact updQ (qAdvance (mlog hI))

theorem launchFault {q idx : Nat} {task : Option (Nat × Nat)} {f : PFault} {hasAddr : Bool} (hI : s.Every I) : (s.launchFault q idx task f hasAddr).Every I := by
  unfold State.launchFault
  split
  · exact record hI
  · exact updQ hI

theorem headFault {q : Nat} {h : LHead} {f : PFault} {hasAddr : Bool} (hI : s.Every I) : (s.headFault q h f hasAddr).Every I := by
  unfold State.headFault
  simp only
  split
  · rename_i hx
    exact ((lqTake hI).error hx)
  · rename_i hx1
    exact launchFault ((lqTake hI).ok hx1)
  · rename_i hx2
    exact ((lqTake hI).ok hx2)

theorem execCeLaunch_leads {core : CoreId} {i : Nat} (hI : s.Every I) : Out.Leads (execCeLaunch core i s) I := by
  unfold execCeLaunch
  split
  · exact hI
  · refine Out.Leads.ite hI ?_
    refine Out.Leads.ite ?_ ?_
    · split
      · rename_i hx
        exact record ((lqTake hI).ok hx)
      · rename_i hx1
        exact ((lqTake hI).error hx1)
    · split
      · exact headFault hI
      · exact updQ hI

theorem execLaunchDependenceMet_leads {q : Nat} (hI : s.Every I) : Out.Leads (execLaunchDependenceMet q s) I := by
  unfold execLaunchDependenceMet
  split
  · exact hI
  · refine Out.Leads.ite hI ?_
    simp only
    split
    · rename_i hx
      exact ((hubAt hI).hold hx)
    · rename_i hx1
      exact headFault ((hubAt hI).fault hx1)
    · exact Out.Leads.ite hI (updQ hI)

theorem execDistributorSelect_leads (hI : s.Every I) : Out.Leads (execDistributorSelect s) I := by
  unfold execDistributorSelect
  exact Out.Leads.ite hI (record hI)

theorem startCompaction (hI : s.Every I) : (s.startCompaction).Every I := by
  unfold State.startCompaction
  exact ite hI (record hI)

theorem placeLease {r : Request} {b : List Byte} {x y : Nat} (hI : s.Every I) : (s.placeLease r b x y).1.Every I := by
  unfold State.placeLease
  extract_lets lid w h place
  split
  next t cs ht =>
  have hs : t.Every I := by
    refine fst (foldlFst (fun a e ha => ?_) ?_) ht
    · exact reserve (s := a.1) ha (.record I.blank rfl rfl)
    · exact hI
  exact giveTurns (mapChanged (setLeases (record hs) fun e he => (Map.mem_set he).elim (fun h => h ▸ .unsaved rfl) (hs.2 e)))

theorem execOstlerPlacement_leads (hI : s.Every I) : Out.Leads (execOstlerPlacement s) I := by
  unfold execOstlerPlacement
  split
  · exact hI
  · split
    · exact record hI
    · simp only
      split
      · exact ite (startCompaction (updQ (record hI))) (updQ (record hI))
      · split
        · rename_i hx
          exact ((lqTake hI).error hx)
        · rename_i hx1
          exact record ((lqTake hI).ok hx1)
        · rename_i hx2
          exact placeLease (record ((lqTake hI).ok hx2))

theorem spawnReply {r : SpawnReq} {v : Nat} (hI : s.Every I) : (s.spawnReply r v).Every I := by
  unfold State.spawnReply
  refine ite ?_ (updLease hI fun hl v hv => ?_)
  · split
    · exact putCell hI
    · exact hI
  · obtain hv | ⟨w, hw, rfl⟩ := mem_modAt hv
    · exact hl v hv
    · have hw := hl w (List.mem_of_getElem? hw)
      dsimp only
      split
      · exact .record hw rfl rfl
      · exact hw

theorem execSpawnPlace_leads (hI : s.Every I) : Out.Leads (execSpawnPlace s) I := by
  unfold execSpawnPlace
  split
  · exact hI
  · refine Out.Leads.ite hI ?_
    refine Out.Leads.ite (spawnReply (record hI)) ?_
    split
    · rename_i hx
      exact record ((hubAt (record hI)).hold hx)
    · rename_i hx1
      exact spawnReply ((hubAt (record hI)).fault hx1)
    · refine Out.Leads.ite (spawnReply (record hI)) ?_
      split
      · exact spawnReply (record hI)
      · exact spawnReply (placeLease (record hI))

theorem hubWords {asid ten n va : Nat} (hI : s.Every I) : Leaves (·.1.Every I) (fun _ => True) (s.hubWords asid ten n va) := by
  induction n generalizing va with
  | zero => exact trivial
  | succ n ih =>
    rw [State.hubWords]
    split
    · next hx => exact (hubAt hI).hold hx
    · next hx => exact (hubAt hI).fault hx
    · split
      · exact trivial
      · exact ih

theorem startCtx {l : Lease} {text data : List Byte} {c : CtxId} (hI : s.Every I) : (s.startCtx l text data c).Every I := by
  unfold State.startCtx
  exact ite (gate (ite (gate (spadWrite (updCtx hI (fun hx => .record hx rfl rfl)))) (spadWrite (updCtx hI (fun hx1 => .record hx1 rfl rfl))))) (ite (gate (spadWrite (updCtx hI (fun hx2 => .record hx2 rfl rfl)))) (spadWrite (updCtx hI (fun hx3 => .record hx3 rfl rfl))))

theorem execLaunchImagePlaced_leads {lid : Nat} (hI : s.Every I) : Out.Leads (execLaunchImagePlaced lid s) I := by
  unfold execLaunchImagePlaced
  split
  · exact hI
  · rename_i hl
    refine Out.Leads.ite hI ?_
    simp only
    split
    · rename_i hx1
      exact ((hubWords hI).error hx1)
    · rename_i hx2
      exact putLease ((hubWords hI).error hx2) (.record (lease hI hl) rfl)
    · split
      · rename_i hx3
        exact ((hubWords hI).error hx3)
      · rename_i hx4
        exact putLease ((hubWords hI).error hx4) (.record (lease hI hl) rfl)
      · exact foldl (fun _ _ hs5 => startCtx hs5) (putLease hI (.record (lease hI hl) rfl))

theorem execLaunchFault_leads {lid : Nat} (hI : s.Every I) : Out.Leads (execLaunchFault lid s) I := by
  unfold execLaunchFault
  split
  · exact hI
  · rename_i hl
    split
    · exact hI
    · simp only
      split
      · exact launchFault (freeLease hI)
      · exact freeLease hI

theorem unitXlate_fault {who : Who} {core : CoreId} {die asid va : Nat} {need : Need} {t : State} {b : Trap}
    (h : s.unitXlate who core die asid va need = .fault t b) : s.Records t := by
  unfold State.unitXlate at h
  dsimp only at h
  split at h
  · cases h
    exact .refl s
  split at h
  · split at h
    · cases h
      exact .refl s
    · cases h
  split at h
  · split at h
    · cases h
      exact .of_eq rfl rfl rfl
    · split at h
      · cases h
        exact .of_eq rfl rfl rfl
      · cases h
  · cases h

theorem noteRefusal_records {core ten pa : Nat} {b : Trap} : s.Records (s.noteRefusal core ten pa b) := by
  unfold State.noteRefusal
  exact .ite ((State.Records.tlog s ten pa).trans (.event ..)) (.refl s)

/-- A unit's access that faults has changed nothing but what its refusal records. -/
theorem hubAt_fault {i asid ten n : Nat} {va : Int} {need : Need} {t : State} {b : Trap} (h : s.hubAt i asid ten va n need = .fault t b) : s.Records t := by
  have heng {r : SeqX} (hr : s.engAt (.engine hubCore i ten) 0 none asid ten va n need = r) : ∀ t b, r = .fault t b → s.Records t := by
    unfold State.engAt at hr
    subst hr
    intro t b hr
    split at hr
    · cases hr
      exact .refl s
    split at hr
    · split at hr
      · split at hr
        · cases hr
        split at hr
        · cases hr
          exact .of_eq rfl rfl rfl
        · cases hr
      split at hr
      · cases hr
        exact noteRefusal_records
      split at hr
      · cases hr
        exact .refl s
      · cases hr
    · exact unitXlate_fault hr
  unfold State.hubAt at h
  generalize hr : s.engAt _ _ _ _ _ _ _ _ = r at h
  cases r with
  | ok pa =>
    rw [State.onlyLocal] at h
    split at h
    · cases h
    · cases h
      exact .refl s
  | hold u => cases h
  | fault u d => exact heng hr t b h

theorem execLaunchComplete_leads {lid : Nat} (hI : s.Every I) : Out.Leads (execLaunchComplete lid s) I := by
  unfold execLaunchComplete
  split
  · exact hI
  next l hl =>
  have hend {t u : State} (ht : t.Every I) (hf : t.finals = s.finals) (hu : u.ctxs = t.ctxs ∧ u.leases = t.leases ∧ u.finals = t.finals) :
      State.Every { u with
        finals := u.finals.erase lid
        leases := if (u.finals.get? lid).isSome then u.leases else u.leases.set lid { l with ended := true } } I := by
    obtain ⟨h1, h2, h3⟩ := hu
    refine ⟨h1 ▸ ht.1, fun e he => ?_⟩
    rw [h2, h3, hf] at he
    dsimp only at he
    split at he
    · exact ht.2 e he
    · next hn =>
      obtain rfl | he := Map.mem_set he
      · rw [Bool.not_eq_true, Option.isSome_eq_false_iff, Option.isNone_iff_eq_none] at hn
        rw [State.toComplete, hn] at hl
        exact Lease.Every.record (lease hI (Option.mem_filter_iff.mp hl).1) rfl
      · exact ht.2 e he
  dsimp only
  have hu {va pa : Nat} {bs : List Byte} : ((s.hubUse l.asid va pa 8 true).devWrite pa bs).finals = s.finals :=
    ((congrArg State.finals (State.Records.devWrite _ pa bs).eq).trans rfl).trans (s.hubUse_same ..).2.2.1
  split
  · next t hx =>
    split at hx
    · cases hx
    split at hx
    · next hr =>
      cases hx
      exact (hubAt hI).hold hr
    · cases hx
    · cases hx
  · next t f hx =>
    have ht : t.Every I ∧ t.finals = s.finals := by
      split at hx
      · cases hx
        exact ⟨hI, rfl⟩
      split at hx
      · cases hx
      · next hr =>
        cases hx
        exact ⟨(hubAt hI).fault hr, (congrArg State.finals (hubAt_fault hr).eq).trans rfl⟩
      · cases hx
        exact ⟨devWrite (hubUse hI), hu⟩
    split
    · exact hend ht.1 ht.2 ⟨rfl, rfl, rfl⟩
    · exact hend ht.1 ht.2 ⟨rfl, rfl, rfl⟩
    · exact hend ht.1 ht.2 ⟨rfl, rfl, rfl⟩

theorem execSchedulerTurnEnd_leads {lid : Nat} (hI : s.Every I) : Out.Leads (execSchedulerTurnEnd lid s) I := by
  unfold execSchedulerTurnEnd
  split
  · exact hI
  · rename_i hl
    refine Out.Leads.ite hI ?_
    split
    · exact setTurn hI
    · exact setTurn (setTurn hI)

end State.Every
end Sys2Proof.Machine

/-! What every step keeps of the contexts (continued): from "Relocation and eviction (R376 to R379, R395, R453)" to "SPDM and TDISP (R437 to R442, R455, R456)". -/

namespace Sys2Proof.Machine
namespace State.Every
variable {I : CtxInv} {s : State}

/-! ### Relocation and eviction (R376 to R379, R395, R453) -/

theorem ren {f : CtxId → CtxId} (hI : s.Every I) : (s.ren f).Every I := by
  unfold State.ren
  exact ⟨List.forall_mem_map.mpr fun e he => .record (hI.1 e he) rfl rfl, List.forall_mem_map.mpr fun e he => hI.2 e he⟩

theorem putBank {core : CoreId} {b : Nat} {m : Mem × List Nat} (hI : s.Every I) : (s.putBank core b m).Every I := by
  unfold State.putBank
  exact updCore hI

theorem moveQueues {a b : CtxId} (hI : s.Every I) : (s.moveQueues a b).Every I := by
  unfold State.moveQueues
  refine foldl (fun _ _ hs => ?_) hI
  refine ite hs ?_
  simp only
  split
  · exact record (setMg (setMg (record (setMg (setMg hs)))))
  · exact record (setMg (setMg hs))

theorem moveRecords {old : CoreId} {b : CtxId} (hI : s.Every I) : (s.moveRecords old b).Every I := by
  unfold State.moveRecords
  exact record (updCore (setCore hI))

theorem landCtx {v : Saved} {a b : CtxId} (hI : s.Every I) (hv : I.Ok v.ctx) : (s.landCtx v a b).Every I := by
  unfold State.landCtx
  refine setCtx (foldl (fun _ _ hs => putBank hs) (moveRecords (ren (moveQueues hI)))) (.banks hv rfl rfl fun hq d hd => ?_)
  obtain ⟨e, he, rfl⟩ := List.mem_map.mp hd
  exact hq e.1 (List.of_mem_zip he).1

theorem reservePair {c : CtxId} {x : Ctx} {lid nb : Nat} {core : CoreId} (hI : s.Every I) : (s.reservePair c x lid nb core).1.Every I := by
  unfold State.reservePair
  exact updCore (reserve hI (.record I.blank rfl rfl))

theorem execCompaction_leads (hI : s.Every I) : Out.Leads (execCompaction s) I := by
  unfold execCompaction
  split
  · exact hI
  · exact Out.Leads.ite hI (record hI)
  · exact record hI
  · simp only
    split
    · exact record hI
    · rename_i hl
      refine Out.Leads.ite hI ?_
      refine Out.Leads.ite (record hI) ?_
      split
      · exact record hI
      · exact record (putLease hI (.record (lease hI hl) rfl))

theorem setMoving {lid : Nat} {m : Option Moving} (hI : s.Every I) : (s.setMoving lid m).Every I := by
  unfold State.setMoving
  exact updLease hI (fun hl => .record hl rfl)

theorem saveCtx {c : CtxId} (hI : s.Every I) : I.Ok (s.saveCtx c).ctx := by
  unfold State.saveCtx
  exact .record (ctx hI) rfl rfl

theorem evict {lid : Nat} {l : Lease} (hI : s.Every I) : (s.evict lid l).Every I := by
  unfold State.evict
  refine giveTurns (mapChanged (setMg (updLease ?_ ?_)))
  · exact foldl (fun _ _ hs => moveRecords (ren (setCtx (zeroBanks hs) I.blank))) (foldl (fun _ _ hs => breakRange (lose hs)) hI)
  · intro k hk v hv
    obtain ⟨c, -, rfl⟩ := List.mem_map.mp hv
    exact saveCtx (foldl (fun _ _ hs => breakRange (lose hs)) hI)

theorem execRelocation_leads {lid : Nat} (hI : s.Every I) : Out.Leads (execRelocation lid s) I := by
  unfold execRelocation
  split
  · exact hI
  · rename_i hl
    split
    · exact hI
    · refine Out.Leads.ite hI ?_
      split
      · exact Out.Leads.ite hI (foldl (fun _ _ hs1 => gate hs1) (setMoving hI))
      · exact Out.Leads.ite (foldl (fun _ _ hs2 => updCtx hs2 (fun hx3 => .record hx3 rfl rfl)) (setMoving hI)) hI
      · exact Out.Leads.ite hI (foldl (fun _ _ hs4 => updCtx hs4 (fun hx5 => .record hx5 rfl rfl)) (setMoving hI))
      · exact Out.Leads.ite hI (Out.Leads.ite (foldl (fun _ _ hs6 => tearChains hs6) hI) (ite (evict hI) (setMoving hI)))
      · exact Out.Leads.ite (setMoving hI) hI
      · exact foldl (fun _ _ hs10 => ungate hs10) (giveTurns (mapChanged (ite (updLease (ite hI (setMg hI)) (fun hl7 => .unsaved rfl)) (foldl (fun _ _ hs9 => gate hs9) (updLease (ite hI (setMg hI)) (fun hl8 => .unsaved rfl))))))

theorem execRelocationPairCopy_leads {lid k : Nat} (hI : s.Every I) : Out.Leads (execRelocationPairCopy lid k s) I := by
  unfold execRelocationPairCopy
  split
  · exact hI
  next l hl =>
  split
  · next c _ _ =>
    refine .ite hI ?_
    dsimp only
    split
    · exact hI
    split
    · exact .ite hI (setMoving (reservePair hI))
    · have hv : I.Ok ((l.saved[k]?).getD (s.saveCtx c)).ctx := by
        cases hk : l.saved[k]? with
        | none => exact saveCtx hI
        | some v => exact lease hI hl v (List.mem_of_getElem? hk)
      exact .ite hI (setMoving (ite (setCtx (zeroBanks (landCtx hI hv)) I.blank) (landCtx hI hv)))
  · exact hI

theorem abandon {lid : Nat} {l : Lease} {m : Moving} (hI : s.Every I) : (s.abandon lid l m).Every I := by
  unfold State.abandon
  exact event (foldl (fun _ _ hs => ungate (updCtx hs (fun hx1 => .record hx1 rfl rfl))) (ite (setMg (setMoving (unreserveAll hI))) (ite (setMoving (unreserveAll hI)) (setMg (setMoving (unreserveAll hI))))))

theorem execRelocationAbandon_leads {lid : Nat} (hI : s.Every I) : Out.Leads (execRelocationAbandon lid s) I := by
  unfold execRelocationAbandon
  split
  · exact hI
  · rename_i hl
    split
    · exact hI
    · exact Out.Leads.ite (abandon hI) hI

theorem execOstcmdGo_leads (hI : s.Every I) : Out.Leads (execOstcmdGo s) I := by
  unfold execOstcmdGo
  exact startCompaction hI

theorem execOstevEvict_leads {lid : Nat} (hI : s.Every I) : Out.Leads (execOstevEvict lid s) I := by
  unfold execOstevEvict
  split
  · exact hI
  · rename_i hl
    exact Out.Leads.ite hI (Out.Leads.ite (setMg hI) (setMg (putLease hI (.record (lease hI hl) rfl))))

theorem execOstevRestore_leads {lid : Nat} (hI : s.Every I) : Out.Leads (execOstevRestore lid s) I := by
  unfold execOstevRestore
  split
  · exact hI
  · rename_i hl
    refine Out.Leads.ite hI ?_
    refine Out.Leads.ite (Out.Leads.ite hI (setMg (record hI))) ?_
    refine Out.Leads.ite hI ?_
    simp only
    split
    · exact setMg (record hI)
    · refine mapChanged ?_
      refine setMoving ?_
      refine foldlFst (fun _ _ hr1 => ?_) (record hI)
      split
      · exact reservePair hr1
      · exact hr1

/-! ### Partition reset (R396) -/

theorem gateSaved {l : Lease} (hl : l.Every I) : l.gateSaved.Every I := by
  intro v hv
  obtain ⟨w, hw, rfl⟩ := List.mem_map.mp hv
  exact .record (hl w hw) rfl rfl

theorem tdispErr {t cause whereAt : Nat} (hI : s.Every I) : (s.tdispErr t cause whereAt).Every I := by
  unfold State.tdispErr
  have hs {l : List CtxId} : (l.foldl (fun s c => s.gate c 3) (s.setMg (0x8260 + t) 3)).Every I := foldl (fun _ _ hs => gate hs) (setMg hI)
  refine event ⟨hs.1, List.forall_mem_map.mpr fun e he => ?_⟩
  have hl : e.2.Every I := hs.2 e he
  show Lease.Every (if e.2.ten == t then e.2.gateSaved else e.2) I
  split
  · exact gateSaved hl
  · exact hl

theorem dropTraffic {t : Nat} (hI : s.Every I) : (s.dropTraffic t).Every I := by
  unfold State.dropTraffic
  exact record hI

theorem dropTenant {t : Nat} (hI : s.Every I) : (s.dropTenant t).Every I := by
  unfold State.dropTenant
  exact foldl (fun _ _ hs2 => releaseEvent (tlbRemove hs2)) (foldl (fun _ _ hs => foldl (fun _ _ hs1 => dropHandle hs1) hs) hI)

theorem loseRegion {st r : Nat} (hI : s.Every I) : (s.loseRegion st r).Every I := by
  unfold State.loseRegion
  exact lose hI

theorem newKeys {t : Nat} (hI : s.Every I) : (s.newKeys t).Every I := by
  unfold State.newKeys
  exact foldl (fun _ _ hs => loseRegion hs) (record hI)

theorem unlocked {t : Nat} (hI : s.Every I) : (s.unlocked t).Every I := by
  unfold State.unlocked
  exact ite (newKeys (record (setMg hI))) hI

theorem execTrstGo_leads {t : Nat} (hI : s.Every I) : Out.Leads (execTrstGo t s) I := by
  unfold execTrstGo
  refine Out.Leads.ite hI ?_
  split
  · exact record (ite (tdispErr hI) hI)
  · exact Out.Leads.ite hI (foldl (fun _ _ hs => gate hs) (record hI))
  · exact Out.Leads.ite hI (record (dropTraffic hI))
  · exact record (foldl (fun _ _ hs2 => freeLease hs2) (foldl (fun _ _ hs1 => destroyCtx hs1) hI))
  · exact record (dropTenant hI)
  · exact unlocked (event (record hI))

/-! ### TTAB writes and hand-overs at the hub (R283, R422 to R424) -/

theorem writeBack {die : Nat} {p : L2Line → Bool} (hI : s.Every I) : (s.writeBack die p).Every I := by
  unfold State.writeBack
  exact foldl (fun _ _ hs => layerUse hs) hI

theorem flushRegion {st r : Nat} (hI : s.Every I) : (s.flushRegion st r).Every I := by
  unfold State.flushRegion
  exact record (foldl (fun _ _ hs => releaseBar hs) hI)

theorem recheck {st r : Nat} (hI : s.Every I) : (s.recheck st r).Every I := by
  unfold State.recheck
  exact record hI

theorem ttabApply {st h : Nat} {v : W64} (hI : s.Every I) : (s.ttabApply st h v).Every I := by
  unfold State.ttabApply
  exact setMg (foldl (fun _ _ hs => recheck (loseRegion (flushRegion hs))) hI)

theorem passArmed {n : Nat} {l : L2Line} (hI : s.Every I) : (s.passArmed n l).Every I := by
  unfold State.passArmed
  refine ite (releaseBar hI) ?_
  dsimp only
  split
  · exact updDie hI
  · split
    · exact updDie (updDie hI)
    · exact releaseBar hI

theorem handOver {st n : Nat} (hI : s.Every I) : (s.handOver st n).Every I := by
  unfold State.handOver
  exact ite hI (foldl (fun _ _ hs => passArmed hs) (setMg (record (writeBack hI))))

theorem hubPop {st : Nat} (hI : s.Every I) : (s.hubPop st).Every I := by
  unfold State.hubPop
  exact record hI

theorem execStackHandOver_leads {stack : Nat} (hI : s.Every I) : Out.Leads (execStackHandOver stack s) I := by
  unfold execStackHandOver
  split
  · exact hubPop (handOver hI)
  · exact hI

theorem execHandStk_leads {g : Guard} {a b : BitVec 5} (hI : s.Every I) : Out.Leads (execHandStk g a b s) I := by
  unfold execHandStk
  exact issue hI (fun _ => ite (raise hI) (ite (raise hI) (ite (raise hI) (ite (setCtx hI (.advance (ctx hI))) (waitFor (record hI) not_false)))))

/-! ### Writes (R277, R400) -/

theorem holdQueue {q : Nat} (hI : s.Every I) : (s.holdQueue q).Every I := by
  unfold State.holdQueue
  exact event (updQ hI)

theorem writeBinding {n q : Nat} {v : W64} (hI : s.Every I) : (s.writeBinding n q v).Every I := by
  unfold State.writeBinding
  exact ite (ite (setMg hI) (record (setMg hI))) (ite (holdQueue (ite (setMg hI) (record (setMg hI)))) (ite (updQ (ite (setMg hI) (record (setMg hI)))) (ite (setMg hI) (record (setMg hI)))))

theorem writeAsido {a : Nat} {v : W64} (hI : s.Every I) : (s.writeAsido a v).Every I := by
  unfold State.writeAsido
  exact foldl (fun _ _ hs => holdQueue hs) (setMg hI)

theorem writeRemw {die : Nat} {v : W64} (hI : s.Every I) : (s.writeRemw die v).Every I := by
  unfold State.writeRemw
  exact ite (setMg hI) (updDie (setMg hI))

theorem nextOf_every {r : Out} (hI : s.Every I) (hr : Out.Leads r I) : (nextOf s r).Every I := by
  unfold nextOf
  split
  · exact hr
  · exact hI

theorem ctxcCmd {c : CtxId} {cmd : Nat} (hI : s.Every I) : (s.ctxcCmd c cmd).Every I := by
  unfold State.ctxcCmd
  exact ite (nextOf_every hI (execCtxcGate_leads hI)) (ite (nextOf_every hI (execCtxcUngate_leads hI)) (ite (nextOf_every hI (execCtxcDestroy_leads hI)) (ite (nextOf_every hI (execCtxcRelease_leads hI)) hI)))

theorem ostevCmd {v : W64} (hI : s.Every I) : (s.ostevCmd v).Every I := by
  unfold State.ostevCmd
  exact ite hI (ite (nextOf_every (setMg hI) (execOstevEvict_leads (setMg hI))) (ite (nextOf_every (setMg hI) (execOstevRestore_leads (setMg hI))) (setMg hI)))

theorem ostevUndo {v : W64} (hI : s.Every I) : (s.ostevUndo v).Every I := by
  unfold State.ostevUndo
  simp only
  split
  · rename_i hl
    exact ite (setMg (putLease hI (.record (lease hI hl) rfl))) (ite (setMg (record hI)) hI)
  · exact hI

theorem mgEffect {who : CtxId} {n : Nat} {w v : W64} (hI : s.Every I) : (s.mgEffect who n w v).Every I := by
  unfold State.mgEffect
  refine ite (writeRemw hI) ?_
  refine ite (record hI) ?_
  refine ite (setMg hI) ?_
  refine ite (writeBinding hI) ?_
  refine ite (ite (nextOf_every hI (execOstcmdGo_leads hI)) hI) ?_
  refine ite (setMg hI) ?_
  refine ite (ostevCmd hI) ?_
  refine ite (ite (setMg hI) hI) ?_
  refine ite ?_ ?_
  · generalize n - 0x0A00 = t
    exact ite hI (nextOf_every hI (execTrstGo_leads hI))
  refine ite (writeAsido hI) ?_
  refine ite (ctxcCmd hI) ?_
  refine ite (ite (setMg hI) hI) ?_
  refine ite (ite hI (mapChanged (setMg hI))) ?_
  refine ite (ite (setMg hI) hI) ?_
  refine ite (ite (setMg hI) hI) ?_
  refine ite (ite hI (setMg hI)) ?_
  exact ite (writeBinding hI) (setMg hI)

theorem mgInOrder {who : CtxId} {n : Nat} {w v : W64} (hI : s.Every I) : (s.mgInOrder who n w v).Every I := by
  unfold State.mgInOrder
  exact ite (mgEffect (record hI)) (ite (record hI) (ite (foldl (fun _ _ hs1 => mgEffect hs1) (mgEffect (ite (foldl (fun _ _ hs => ostevUndo hs) (record hI)) (record hI)))) (mgEffect (record hI))))

theorem mgWrite {who : CtxId} {n : Nat} {v : W64} (hI : s.Every I) : (s.mgWrite who n v).Every I := by
  unfold State.mgWrite
  split
  · exact hI
  · refine ite hI ?_
    simp only
    split
    · exact mgInOrder hI
    · exact foldl (fun _ _ hs => tdispErr hs) hI

theorem execMgr_leads {g : Guard} {d : BitVec 5} {reg : BitVec 16} (hI : s.Every I) : Out.Leads (execMgr g d reg s) I := by
  unfold execMgr
  exact issue hI (fun _ => ite (raise hI) (ite (raise hI) (ite (raise hI) (setCtx hI (.advance (.setReg (ctx hI)))))))

theorem execMgw_leads {g : Guard} {d : BitVec 5} {reg : BitVec 16} (hI : s.Every I) : Out.Leads (execMgw g d reg s) I := by
  unfold execMgw
  exact issue hI (fun _ => ite (raise hI) (ite (raise hI) (ite (retire (mgWrite (waitFor hI not_false)) id) (mgWrite (waitFor hI not_false)))))

/-! ### Register rows: a write by the system partition or the host -/

theorem hostMg {n : Nat} {v : W64} (hI : s.Every I) : (s.hostMg n v).Every I := by
  unfold State.hostMg
  exact ite (mgWrite hI) hI

theorem execTtabWrite_leads {stack h : Nat} {v : BitVec 64} (hI : s.Every I) : Out.Leads (execTtabWrite stack h v s) I := by
  unfold execTtabWrite
  refine Out.Leads.ite hI ?_
  split
  · exact Out.Leads.ite (hubPop (ttabApply hI)) hI
  · exact hI
  · simp only
    split
    · exact hubPop (ttabApply (hostMg hI))
    · exact hostMg hI

theorem execTlogWrite_leads {stack : Nat} (hI : s.Every I) : Out.Leads (execTlogWrite stack s) I := by
  unfold execTlogWrite
  exact ite (hostMg hI) hI

theorem execFwlogWrite_leads (hI : s.Every I) : Out.Leads (execFwlogWrite s) I := by
  unfold execFwlogWrite
  exact hostMg hI

theorem execEvlostWrite_leads (hI : s.Every I) : Out.Leads (execEvlostWrite s) I := by
  unfold execEvlostWrite
  exact hostMg hI

theorem execWdrWrite_leads {y : Nat} {v : BitVec 64} (hI : s.Every I) : Out.Leads (execWdrWrite y v s) I := by
  unfold execWdrWrite
  exact ite (hostMg hI) hI

theorem execL2remwWrite_leads {die : Nat} {v : BitVec 64} (hI : s.Every I) : Out.Leads (execL2remwWrite die v s) I := by
  unfold execL2remwWrite
  exact ite (hostMg hI) hI

theorem execAsidoWrite_leads {a : Nat} {v : BitVec 64} (hI : s.Every I) : Out.Leads (execAsidoWrite a v s) I := by
  unfold execAsidoWrite
  exact ite (hostMg hI) hI

theorem execLqcfgWrite_leads {q : Nat} {v : BitVec 64} (hI : s.Every I) : Out.Leads (execLqcfgWrite q v s) I := by
  unfold execLqcfgWrite
  exact ite (hostMg hI) hI

theorem execCeqWrite_leads {core : CoreId} {n : Nat} {v : BitVec 64} (hI : s.Every I) : Out.Leads (execCeqWrite core n v s) I := by
  unfold execCeqWrite
  exact ite (hostMg hI) hI

theorem execMlogtWrite_leads {t : Nat} {v : BitVec 64} (hI : s.Every I) : Out.Leads (execMlogtWrite t v s) I := by
  unfold execMlogtWrite
  exact ite (hostMg hI) hI

theorem execRegisterWrite_leads {n : Nat} {v : BitVec 64} (hI : s.Every I) : Out.Leads (execRegisterWrite n v s) I := by
  unfold execRegisterWrite
  exact hostMg hI

theorem execEndProg_leads {g : Guard} (hI : s.Every I) : Out.Leads (execEndProg g s) I := by
  unfold execEndProg
  exact issue hI (fun _ => setCtx hI (.waits (ctx hI) rfl not_false))

theorem execEndComplete_leads {c : CtxId} (hI : s.Every I) : Out.Leads (execEndComplete c s) I := by
  unfold execEndComplete
  refine Out.Leads.ite hI ?_
  split
  · exact raise (setCtx hI (.record (ctx hI) rfl rfl))
  · exact refreeze (breakLease (setCtx hI (.waits (ctx hI) rfl not_false)))

theorem execTret_leads {g : Guard} (hI : s.Every I) : Out.Leads (execTret g s) I := by
  unfold execTret
  refine issue hI (fun _ => ?_)
  refine ite ?_ (raise hI)
  simp only
  split
  · exact ite (fabFault (setCtx hI (.record (ctx hI) rfl rfl))) (setCtx hI (.record (ctx hI) rfl rfl))
  · exact setCtx hI (.record (ctx hI) rfl rfl)

theorem execTrap_leads {g : Guard} {code : BitVec 16} (hI : s.Every I) : Out.Leads (execTrap g code s) I := by
  unfold execTrap
  exact issue hI (fun _ => raise hI)

theorem execYield_leads {g : Guard} (hI : s.Every I) : Out.Leads (execYield g s) I := by
  unfold execYield
  exact simple hI (fun hx => .record hx rfl rfl)

theorem execTrapEntry_leads {c : CtxId} (hI : s.Every I) : Out.Leads (execTrapEntry c s) I := by
  unfold execTrapEntry
  exact trapEntry hI

theorem tieLost_every {c : CtxId} {l : Lease} {t : Trap} (hI : s.Every I) (h : s.tieLost c = some (l, t)) : l.Every I := by
  unfold State.tieLost at h
  dsimp only at h
  split at h
  · obtain ⟨e, -, he⟩ := Option.map_eq_some_iff.mp h
    cases he
    exact .record (leaseFor hI) rfl
  · obtain ⟨e, -, he⟩ := Option.map_eq_some_iff.mp h
    cases he
    exact .record (leaseFor hI) rfl
  · cases h

theorem execWaitSatisfied_leads {c : CtxId} (hI : s.Every I) : Out.Leads (execWaitSatisfied c s) I := by
  unfold execWaitSatisfied
  refine .ite hI ?_
  split
  · exact .ite (waitRetire hI) hI
  · exact .ite hI (retire hI fun hx => .setReg hx)
  · refine .ite (retire hI fun hx => .setReg hx) ?_
    split
    · next hx => exact retire (setCtx hI (.recv (ctx hI) hx)) fun h => h
    · exact hI
  · split
    · exact .ite (retire hI fun hx => .setReg hx) hI
    · exact hI
  · exact .ite (retire hI fun hx => .setReg hx) hI
  · exact .ite hI (retire (setMode hI) fun hx => .setReg hx)
  · exact .ite (retire hI fun hx => .acquire hx) hI
  · exact retire hI fun hx => .acquire (.setReg hx)
  · exact .ite hI (releaseEvent (retire hI fun hx => .acquire hx))
  · next hw =>
    split
    · exact cqWait hI (hw ▸ trivial)
    · exact hI
  · exact taskWait hI
  · exact .ite (retire hI fun h => h) hI
  · exact .ite hI (retire hI fun h => h)
  · split
    · next hx => exact raise (putLease hI (tieLost_every hI hx))
    · exact hI

/-! ### Withdrawal (R407) -/

theorem withdrawCore {k : CoreId} (hI : s.Every I) : (s.withdrawCore k).Every I := by
  unfold State.withdrawCore
  exact mapChanged (setMg hI)

theorem lasting {ten : Nat} {k : CoreId} {bank : Nat} {info : W64} (hI : s.Every I) : (s.lasting ten k bank info).Every I := by
  unfold State.lasting
  exact event hI

theorem lastingCtx {c : CtxId} {info : W64} (hI : s.Every I) : (s.lastingCtx c info).Every I := by
  unfold State.lastingCtx
  exact event hI

theorem lastingBank {k : CoreId} {bank : Nat} {info : W64} (hI : s.Every I) : (s.lastingBank k bank info).Every I := by
  unfold State.lastingBank
  split
  · exact lastingCtx hI
  · exact lasting hI

theorem countUp {n hi lo : Nat} (hI : s.Every I) : (s.countUp n hi lo).Every I := by
  unfold State.countUp
  exact setMg hI

theorem corrected {k : CoreId} {i : Nat} (hI : s.Every I) : (s.corrected k i).Every I := by
  unfold State.corrected
  exact ite (countUp hI) hI

/-! ### Links (R405, R419) -/

theorem kill {k j : CoreId} {side : Nat} {mesh : Bool} {src : Nat} (hI : s.Every I) : (s.kill k j side mesh src).Every I := by
  unfold State.kill
  exact record hI

theorem failFlits {k : CoreId} {side src : Nat} (hI : s.Every I) : (s.failFlits k side src).Every I := by
  unfold State.failFlits
  refine foldl (fun _ _ hs => ?_) hI
  split
  · exact reqLost hs
  · exact record hs

theorem failAcn (hI : s.Every I) : (s.failAcn).Every I := by
  unfold State.failAcn
  exact foldl (fun _ _ hs => acnLost hs) (record hI)

theorem execFlitCrcRetry_leads {core : CoreId} {side : Nat} {acn good : Bool} (hI : s.Every I) : Out.Leads (execFlitCrcRetry core side acn good s) I := by
  unfold execFlitCrcRetry
  split
  · exact hI
  · refine Out.Leads.ite hI ?_
    refine Out.Leads.ite (countUp hI) ?_
    refine ite ?_ ?_
    · refine failAcn ?_
      refine withdrawCore ?_
      refine withdrawCore ?_
      refine lasting ?_
      split
      · exact iteSnd (freeAddr (kill (setMg hI))) (kill (setMg hI))
      · exact freeAddr (kill (setMg hI))
    · refine failFlits ?_
      refine failFlits ?_
      refine withdrawCore ?_
      refine withdrawCore ?_
      refine lasting ?_
      split
      · exact iteSnd (freeAddr (kill (setMg hI))) (kill (setMg hI))
      · exact freeAddr (kill (setMg hI))

theorem execUcieModuleFail_leads {seam : Nat} (hI : s.Every I) : Out.Leads (execUcieModuleFail seam s) I := by
  unfold execUcieModuleFail
  exact Out.Leads.ite hI (Out.Leads.ite (lasting (freeAddr (record hI))) (failAcn (foldl (fun _ _ hs2 => failFlits (failFlits hs2)) (foldl (fun _ _ hs1 => withdrawCore (withdrawCore hs1)) (foldl (fun _ _ hs => kill (kill hs)) (lasting (freeAddr (record hI))))))))

/-! ### Queues and stored words (R404, R406) -/

theorem cmdLost {c : CtxId} {r : Buf} (hI : s.Every I) : (s.cmdLost c r).Every I := by
  unfold State.cmdLost
  split
  · exact updCore hI
  · exact hI

theorem execQueueParityError_leads {c : CtxId} {buf : Buf} {lasting : Bool} (hI : s.Every I) : Out.Leads (execQueueParityError c buf lasting s) I := by
  unfold execQueueParityError
  refine Out.Leads.ite hI ?_
  split
  · exact hI
  · exact ite (withdrawCore (lastingCtx (raise (putLease (cmdLost (updCtx hI (fun hx => .record hx rfl rfl))) (.record (leaseFor (cmdLost (updCtx hI (fun hx1 => .record hx1 rfl rfl)))) rfl))))) (raise (putLease (cmdLost (updCtx hI (fun hx2 => .record hx2 rfl rfl))) (.record (leaseFor (cmdLost (updCtx hI (fun hx3 => .record hx3 rfl rfl)))) rfl)))

theorem poisonWord {pa : Nat} (hI : s.Every I) : (s.poisonWord pa).Every I := by
  unfold State.poisonWord
  exact record hI

theorem execEccDoubleRetry_leads {w : EccWord} {clean lasting : Bool} (hI : s.Every I) : Out.Leads (execEccDoubleRetry w clean lasting s) I := by
  unfold execEccDoubleRetry
  refine Out.Leads.ite hI ?_
  simp only
  split
  · exact Out.Leads.ite hI (withdrawCore (State.Every.lasting (freeAddr hI)))
  · exact Out.Leads.ite hI (Out.Leads.ite (countUp (ite hI (updCore hI))) (withdrawCore (lastingBank (ite hI (updCore hI)))))
  · exact Out.Leads.ite hI (Out.Leads.ite (withdrawCore (lastingCtx (setCtx hI (.record (ctx hI) rfl rfl)))) (setCtx hI (.record (ctx hI) rfl rfl)))
  · exact Out.Leads.ite hI (Out.Leads.ite (withdrawCore (lastingCtx (fabFault (setCtx hI (.record (ctx hI) rfl rfl)))))
      (fabFault (setCtx hI (.record (ctx hI) rfl rfl))))
  · exact Out.Leads.ite hI (Out.Leads.ite (withdrawCore (State.Every.lasting (poisonWord hI))) (poisonWord hI))
  · exact Out.Leads.ite hI (Out.Leads.ite (State.Every.lasting (poisonWord hI)) (poisonWord hI))

/-! ### Replies, budgets and interrupts (R430, R431, R433) -/

theorem answered {r : Reply} (hI : s.Every I) : (s.answered r).Every I := by
  unfold State.answered
  exact record hI

theorem spend {t k n : Nat} (hI : s.Every I) : (s.spend t k n).Every I := by
  unfold State.spend
  exact ite hI (record hI)

theorem awaitBudget {r : BudReq} (hI : s.Every I) : (s.awaitBudget r).Every I := by
  unfold State.awaitBudget
  exact ite hI (record hI)

theorem leaveBudget {r : BudReq} (hI : s.Every I) : (s.leaveBudget r).Every I := by
  unfold State.leaveBudget
  exact record hI

theorem setVector {f vec : Nat} {m : MsixVec} (hI : s.Every I) : (s.setVector f vec m).Every I := by
  unfold State.setVector
  exact record hI

theorem execMsixInterrupt_leads {f vec : Nat} (hI : s.Every I) : Out.Leads (execMsixInterrupt f vec s) I := by
  unfold execMsixInterrupt
  exact Out.Leads.ite hI (Out.Leads.ite (Out.Leads.ite (setVector hI) (answered (setVector hI))) (Out.Leads.ite (answered (setVector hI)) hI))

theorem unmask {f vec : Nat} (hI : s.Every I) : (s.unmask f vec).Every I := by
  unfold State.unmask
  exact ite (answered (setVector hI)) (setVector hI)

theorem execMsixVectorUnmask_leads {f vec : Nat} (hI : s.Every I) : Out.Leads (execMsixVectorUnmask f vec s) I := by
  unfold execMsixVectorUnmask
  exact ite hI (unmask hI)

/-! ### Windows (R431, R432, R440) -/

theorem tdiRefuse {f : Nat} (hI : s.Every I) : (s.tdiRefuse f).Every I := by
  unfold State.tdiRefuse
  exact answered (record hI)

theorem window {f : Nat} {tbit : Option Nat} (hI : s.Every I) : ∀ t ∈ (s.window f tbit), t.Every I := by
  unfold State.window
  exact optIte (ofSome (answered hI)) (optIte (ofSome (answered hI)) (optIte ofNone (optIte (ofSome (answered hI)) (optIte (ofSome (tdiRefuse hI)) ofNone))))

theorem aperture {f off n : Nat} {write : Bool} {tbit : Option Nat} {need : Need} (hI : s.Every I) : (s.aperture f off n write tbit need).Every I := by
  unfold State.aperture
  simp only
  split
  · rename_i hx
    exact leaveBudget ((window hI) _ hx)
  · refine Aper.Every.ite (answered (leaveBudget hI)) ?_
    refine Aper.Every.ite hI ?_
    refine Aper.Every.ite (awaitBudget hI) ?_
    split
    · rename_i hx1
      exact ((hubAt hI).hold hx1)
    · rename_i hx2
      exact answered (leaveBudget ((hubAt hI).fault hx2))
    · exact hubUse (spend (spend (leaveBudget hI)))

theorem mlogBytes {t kind n at_ : Nat} {bs : List Byte} (hI : s.Every I) : (s.mlogBytes t kind n at_ bs).Every I := by
  induction n generalizing s at_ bs with
  | zero => exact hI
  | succ n ih =>
    rw [State.mlogBytes]
    exact ite hI (ih (mlog hI))

theorem execApertureRead_leads {f off len : Nat} {tbit : Option Nat} (hI : s.Every I) : Out.Leads (execApertureRead f off len tbit s) I := by
  unfold execApertureRead
  split
  · rename_i hx
    exact ((aperture hI).out hx)
  · rename_i hx1
    exact ((aperture hI).hold hx1)
  · rename_i hx2
    exact answered ((aperture hI).go hx2)

theorem execApertureWrite_leads {f off : Nat} {bytes : List Byte} {tbit : Option Nat} (hI : s.Every I) : Out.Leads (execApertureWrite f off bytes tbit s) I := by
  unfold execApertureWrite
  split
  · rename_i hx
    exact ((aperture hI).out hx)
  · rename_i hx1
    exact ((aperture hI).hold hx1)
  · rename_i hx2
    exact answered (mlogBytes (devWrite ((aperture hI).go hx2)))

theorem atomic {op : AmoOp} {n pa : Nat} {v x : W64} (hI : s.Every I) : (s.atomic op n pa v x).1.Every I := by
  unfold State.atomic
  exact ite (dropCopies hI) (devWrite hI)

theorem apertureAtomic {f off : Nat} {op : AmoOp} {v x : W64} {tbit : Option Nat} (hI : s.Every I) : (s.apertureAtomic f off op v x tbit).Every I := by
  unfold State.apertureAtomic
  refine ite ?_ ?_
  · split
    · rename_i hx
      exact ((window hI) _ hx)
    · exact answered hI
  · split
    · rename_i hx1
      exact ((aperture hI).out hx1)
    · rename_i hx2
      exact ((aperture hI).hold hx2)
    · rename_i hx3
      exact answered (mlogBytes (atomic ((aperture hI).go hx3)))

theorem execApertureFetchadd_leads {f off : Nat} {v : BitVec 64} {tbit : Option Nat} (hI : s.Every I) : Out.Leads (execApertureFetchadd f off v tbit s) I := by
  unfold execApertureFetchadd
  exact apertureAtomic hI

theorem execApertureSwap_leads {f off : Nat} {v : BitVec 64} {tbit : Option Nat} (hI : s.Every I) : Out.Leads (execApertureSwap f off v tbit s) I := by
  unfold execApertureSwap
  exact apertureAtomic hI

theorem execApertureCas_leads {f off : Nat} {expect v : BitVec 64} {tbit : Option Nat} (hI : s.Every I) : Out.Leads (execApertureCas f off expect v tbit s) I := by
  unfold execApertureCas
  exact apertureAtomic hI

theorem msixAccess {f off base pba : Nat} {wr : Option W64} (hI : s.Every I) : ∀ t ∈ (s.msixAccess f off base pba wr), t.Every I := by
  unfold State.msixAccess
  refine optIte ?_ ?_
  · split <;> exact ofSome (answered hI)
  · refine optIte ?_ ofNone
    split
    · exact ofSome (answered hI)
    · exact ofSome (answered hI)
    · exact ofSome (answered (setVector hI))
    · exact ofSome (ite (answered (setVector hI)) (unmask (answered (setVector hI))))

theorem execBar0RegisterAccess_leads {f off : Nat} {wr : Option (BitVec 64)} {tbit : Option Nat} (hI : s.Every I) :
    Out.Leads (execBar0RegisterAccess f off wr tbit s) I := by
  unfold execBar0RegisterAccess
  refine Out.Leads.ite (answered hI) ?_
  split
  · next hx => exact window hI _ hx
  refine Out.Leads.ite (answered hI) (Out.Leads.ite (Out.Leads.ite ?_ ?_) (Out.Leads.ite hI ?_))
  · split
    · exact answered hI
    · exact answered (mgWrite hI)
  · show State.Every _ I
    cases hm : s.msixAccess 0 off Config.pfMsix Config.pfPba wr with
    | none => exact answered hI
    | some t => exact msixAccess hI _ hm
  · split
    · next hx => exact msixAccess hI _ hx
    · split
      · exact ite (answered hI) (answered hI)
      · exact ite (answered (mgWrite hI)) (answered hI)

/-! ### VF Enable (R435, R436) -/

theorem execVfEnableSet_leads {t : Nat} (hI : s.Every I) : Out.Leads (execVfEnableSet t s) I := by
  unfold execVfEnableSet
  exact Out.Leads.ite hI (newKeys (record hI))

theorem endTenant {t : Nat} (hI : s.Every I) : (s.endTenant t).Every I := by
  unfold State.endTenant
  refine foldl (fun _ _ hs2 => freeLease hs2) ?_
  refine foldl (fun _ _ hs1 => destroyCtx (gate hs1)) ?_
  refine foldl (fun _ _ hs => ?_) hI
  split
  · exact abandon hs
  · exact hs

theorem unbindTenant {t : Nat} (hI : s.Every I) : (s.unbindTenant t).Every I := by
  unfold State.unbindTenant
  exact foldl (fun _ _ hs1 => setMg hs1) (foldl (fun _ _ hs => record (setMg hs)) (ite (record hI) hI))

theorem disownTenant {t : Nat} (hI : s.Every I) : (s.disownTenant t).Every I := by
  unfold State.disownTenant
  exact foldl (fun _ _ hs1 => ite hs1 (ttabApply hs1)) (record (foldl (fun _ _ hs => setMg hs) (dropTenant hI)))

theorem execVfEnableClear_leads (hI : s.Every I) : Out.Leads (execVfEnableClear s) I := by
  unfold execVfEnableClear
  exact Out.Leads.ite hI (event (record (foldl (fun _ _ hs => disownTenant (unbindTenant (endTenant (record (setMg hs))))) hI)))

/-! ### SPDM and TDISP (R437 to R442, R455, R456) -/

theorem freeBytes (hI : s.Every I) : (s.freeBytes).2.Every I := by
  unfold State.freeBytes
  exact record hI

theorem spdm {r : SpdmReq} (hI : s.Every I) : (s.spdm r).2.Every I := by
  unfold State.spdm
  split
  · exact hI
  · exact hI
  · exact hI
  · exact hI
  · exact iteSnd hI (freeBytes hI)
  · exact iteSnd hI (freeBytes hI)
  · exact iteSnd hI (record (freeBytes hI))
  · exact iteSnd (record hI) hI
  · exact iteSnd (record hI) hI
  · exact freeBytes hI

theorem execSpdmRequest_leads {q : SpdmReq} {_data : List Byte} (hI : s.Every I) : Out.Leads (execSpdmRequest q _data s) I := by
  unfold execSpdmRequest
  exact Out.Leads.ite (answered hI) (Out.Leads.ite (answered hI) (answered (spdm hI)))

theorem tdispOut {t : Nat} (hI : s.Every I) : ∀ u ∈ s.tdispOut t, u.Every I := by
  unfold State.tdispOut
  exact optIte (ofSome (answered hI)) (optIte (ofSome (answered hI)) (optIte (ofSome (answered hI)) ofNone))

theorem execLockInterfaceRequest_leads {t stream : Nat} (hI : s.Every I) : Out.Leads (execLockInterfaceRequest t stream s) I := by
  unfold execLockInterfaceRequest
  split
  · rename_i hx
    exact ((tdispOut hI) _ hx)
  · exact Out.Leads.ite (answered hI) (answered (record (setMg hI)))

theorem execStartInterfaceRequest_leads {t : Nat} (hI : s.Every I) : Out.Leads (execStartInterfaceRequest t s) I := by
  unfold execStartInterfaceRequest
  split
  · rename_i hx
    exact ((tdispOut hI) _ hx)
  · exact Out.Leads.ite (answered hI) (answered (setMg hI))

theorem execStopInterfaceRequest_leads {t : Nat} (hI : s.Every I) : Out.Leads (execStopInterfaceRequest t s) I := by
  unfold execStopInterfaceRequest
  split
  · rename_i hx
    exact ((tdispOut hI) _ hx)
  · split
    · exact answered hI
    · exact Out.Leads.ite (answered hI) (Out.Leads.ite (answered (record hI)) (foldl (fun _ _ hs1 => gate hs1) (record (answered (record hI)))))

theorem execGetDeviceInterfaceReport_leads {t : Nat} (hI : s.Every I) : Out.Leads (execGetDeviceInterfaceReport t s) I := by
  unfold execGetDeviceInterfaceReport
  split
  · rename_i hx
    exact ((tdispOut hI) _ hx)
  · split
    · exact answered hI
    · exact Out.Leads.ite (answered hI) (answered hI)

theorem execTdispError_leads {t cause whereAt : Nat} (hI : s.Every I) : Out.Leads (execTdispError t cause whereAt s) I := by
  unfold execTdispError
  exact Out.Leads.ite (tdispErr hI) hI

theorem execIdeStreamFault_leads {stream : Nat} (hI : s.Every I) : Out.Leads (execIdeStreamFault stream s) I := by
  unfold execIdeStreamFault
  exact foldl (fun _ _ hs => tdispErr hs) hI

theorem execConfigSpaceWrite_leads {t off : Nat} {v : BitVec 8} (hI : s.Every I) : Out.Leads (execConfigSpaceWrite t off v s) I := by
  unfold execConfigSpaceWrite
  exact Out.Leads.ite (answered hI) (Out.Leads.ite (answered hI) (Out.Leads.ite (tdispErr hI) (record hI)))

end State.Every
end Sys2Proof.Machine

/-! What every step keeps of the contexts (continued): from "Jexlink (R425, R426, R428, R430, R444)" to "The events that energy is shared by (R382)". -/

namespace Sys2Proof.Machine
namespace State.Every
variable {I : CtxInv} {s : State}

/-! ### Jexlink (R425, R426, R428, R430, R444) -/

theorem execJexlinkTrain_leads {port : Nat} (hI : s.Every I) : Out.Leads (execJexlinkTrain port s) I := by
  unfold execJexlinkTrain
  exact Out.Leads.ite hI (record hI)

theorem execJexlinkKeyRenew_leads {_port : Nat} (hI : s.Every I) : Out.Leads (execJexlinkKeyRenew _port s) I := by
  unfold execJexlinkKeyRenew
  exact hI

theorem execJexlinkLinkFail_leads {port : Nat} (hI : s.Every I) : Out.Leads (execJexlinkLinkFail port s) I := by
  unfold execJexlinkLinkFail
  exact Out.Leads.ite hI (lasting (record hI))

theorem tagRefused {pa : Nat} (hI : s.Every I) : (s.tagRefused pa).Every I := by
  unfold State.tagRefused
  exact answered (setMg hI)

theorem peerUse {pa n : Nat} {wr : Bool} (hI : s.Every I) : (s.peerUse pa n wr).Every I := by
  unfold State.peerUse
  exact l2Span hI

theorem servePeer {t : Nat} {q : PeerReq} (hI : s.Every I) : (s.servePeer t q).Every I := by
  unfold State.servePeer
  refine ite hI ?_
  refine ite (awaitBudget hI) ?_
  simp only
  split
  · exact answered (noteRefusal (spend (leaveBudget hI)))
  · split
    · exact answered (peerUse (spend (leaveBudget hI)))
    · exact answered (mlogBytes (devWrite (peerUse (spend (leaveBudget hI)))))
    · exact answered (mlogBytes (atomic (peerUse (spend (leaveBudget hI)))))
    · split
      · exact answered (peerUse (spend (leaveBudget hI)))
      · exact answered (mlogBytes (devWrite (peerUse (spend (leaveBudget hI)))))

theorem execJexlinkRequest_leads {q : PeerReq} (hI : s.Every I) : Out.Leads (execJexlinkRequest q s) I := by
  unfold execJexlinkRequest
  refine Out.Leads.ite hI ?_
  refine Out.Leads.ite (answered hI) ?_
  split
  · exact tagRefused hI
  · exact servePeer hI

/-! ### Power and clock (R382 to R385) -/

theorem addEnergy {n : Nat} {e : Rat} (hI : s.Every I) : (s.addEnergy n e).Every I := by
  unfold State.addEnergy
  exact ite hI (record (setMg hI))

theorem adjustDuty {t : Nat} {e : Rat} (hI : s.Every I) : (s.adjustDuty t e).Every I := by
  unfold State.adjustDuty
  exact ite hI (record (setMg hI))

theorem setTemp {die temp : Nat} (hI : s.Every I) : (s.setTemp die temp).Every I := by
  unfold State.setTemp
  exact setMg hI

theorem execPowerInterval_leads {core hbm : Nat} {peak : List Nat} (hI : s.Every I) : Out.Leads (execPowerInterval core hbm peak s) I := by
  unfold execPowerInterval
  exact Out.Leads.ite hI (record (foldl (fun _ _ hs2 => setTemp (setMg hs2)) (foldl (fun _ _ hs => foldl (fun _ _ hs1 => addEnergy hs1) (adjustDuty (addEnergy hs))) hI)))

theorem setClk {v : W64} (hI : s.Every I) : (s.setClk v).Every I := by
  unfold State.setClk
  exact record (setMg hI)

theorem execClkLower_leads {mhz : Nat} (hI : s.Every I) : Out.Leads (execClkLower mhz s) I := by
  unfold execClkLower
  exact ite hI (setClk hI)

theorem execClkRestore_leads (hI : s.Every I) : Out.Leads (execClkRestore s) I := by
  unfold execClkRestore
  exact ite hI (setClk hI)

/-! ### Temperature and power (R410, R459) -/

theorem dark : (s.dark).Every I := by
  unfold State.dark
  exact record reset

theorem execThermalEvent_leads {die temp : Nat} (hI : s.Every I) : Out.Leads (execThermalEvent die temp s) I := by
  unfold execThermalEvent
  exact Out.Leads.ite hI (event (setTemp (record hI)))

theorem execThermalRearm_leads {die temp : Nat} (hI : s.Every I) : Out.Leads (execThermalRearm die temp s) I := by
  unfold execThermalRearm
  exact Out.Leads.ite hI (setTemp (record hI))

theorem execThermalTrip_leads {die temp : Nat} (hI : s.Every I) : Out.Leads (execThermalTrip die temp s) I := by
  unfold execThermalTrip
  exact ite hI dark

theorem execPowerLoss_leads : Out.Leads (execPowerLoss s) I := by
  unfold execPowerLoss
  exact dark

/-! ### Reset and boot (R460) -/

theorem deviceReset : (s.deviceReset).Every I := by
  unfold State.deviceReset
  exact record reset

theorem execDeviceReset_leads : Out.Leads (execDeviceReset s) I := by
  unfold execDeviceReset
  exact deviceReset

theorem execFunctionLevelReset_leads {f : Nat} (hI : s.Every I) : Out.Leads (execFunctionLevelReset f s) I := by
  unfold execFunctionLevelReset
  exact Out.Leads.ite hI (Out.Leads.ite deviceReset (Out.Leads.ite (tdispErr hI) hI))

theorem linkUp (hI : s.Every I) : (s.linkUp).Every I := by
  unfold State.linkUp
  exact ite (record hI) hI

theorem measure {i : Nat} {bs : List Byte} (hI : s.Every I) : (s.measure i bs).Every I := by
  unfold State.measure
  exact record hI

theorem bootFail {st k : Nat} (hI : s.Every I) : (s.bootFail st k).Every I := by
  unfold State.bootFail
  exact setMg hI

theorem bootNext {st : Nat} (hI : s.Every I) : (s.bootNext st).Every I := by
  unfold State.bootNext
  exact setMg hI

theorem execBootStageComplete_leads {imgs : List FwImage} {trained : Bool} (hI : s.Every I) : Out.Leads (execBootStageComplete imgs trained s) I := by
  unfold execBootStageComplete
  refine Out.Leads.ite hI ?_
  simp only
  split
  · exact bootNext (measure hI)
  · split
    · exact bootFail hI
    · exact bootNext (setMg (measure hI))
  · split
    · exact bootFail hI
    · exact bootNext (setMg (measure (measure (measure hI))))
  · exact Out.Leads.ite (bootNext (record hI)) (bootFail hI)
  · refine Out.Leads.ite (bootFail hI) (bootNext ?_)
    generalize List.map _ _ ++ List.map _ _ = regs
    have hu : (regs.foldl (fun s n => s.setMg n (mgReset n)) s).Every I := foldl (fun _ _ hs => setMg hs) hI
    generalize List.foldl _ _ regs = u at hu
    exact noCtxs hu rfl rfl
  · exact hI

theorem exec_leads {i : Instr} (hI : s.Every I) (hw : Instr.isWord i = true → (s.ctx s.cur).wait = none) : Out.Leads (exec i s) I := by
  cases i with
  | add _ _ _ _ => exact execAdd_leads hI
  | sub _ _ _ _ => exact execSub_leads hI
  | and _ _ _ _ => exact execAnd_leads hI
  | or _ _ _ _ => exact execOr_leads hI
  | xor _ _ _ _ => exact execXor_leads hI
  | andn _ _ _ _ => exact execAndn_leads hI
  | orn _ _ _ _ => exact execOrn_leads hI
  | shl _ _ _ _ => exact execShl_leads hI
  | shr _ _ _ _ => exact execShr_leads hI
  | sra _ _ _ _ => exact execSra_leads hI
  | rol _ _ _ _ => exact execRol_leads hI
  | ror _ _ _ _ => exact execRor_leads hI
  | mul _ _ _ _ => exact execMul_leads hI
  | mulh _ _ _ _ => exact execMulh_leads hI
  | mulhu _ _ _ _ => exact execMulhu_leads hI
  | div _ _ _ _ => exact execDiv_leads hI
  | divu _ _ _ _ => exact execDivu_leads hI
  | rem _ _ _ _ => exact execRem_leads hI
  | remu _ _ _ _ => exact execRemu_leads hI
  | min _ _ _ _ => exact execMin_leads hI
  | max _ _ _ _ => exact execMax_leads hI
  | minu _ _ _ _ => exact execMinu_leads hI
  | maxu _ _ _ _ => exact execMaxu_leads hI
  | addw _ _ _ _ => exact execAddw_leads hI
  | subw _ _ _ _ => exact execSubw_leads hI
  | mulw _ _ _ _ => exact execMulw_leads hI
  | clz _ _ _ => exact execClz_leads hI
  | ctz _ _ _ => exact execCtz_leads hI
  | popc _ _ _ => exact execPopc_leads hI
  | addi _ _ _ _ => exact execAddi_leads hI
  | andi _ _ _ _ => exact execAndi_leads hI
  | ori _ _ _ _ => exact execOri_leads hI
  | xori _ _ _ _ => exact execXori_leads hI
  | shli _ _ _ _ => exact execShli_leads hI
  | shri _ _ _ _ => exact execShri_leads hI
  | srai _ _ _ _ => exact execSrai_leads hI
  | muli _ _ _ _ => exact execMuli_leads hI
  | addwi _ _ _ _ => exact execAddwi_leads hI
  | movi _ _ _ => exact execMovi_leads hI
  | movz _ _ _ => exact execMovz_leads hI
  | movk16 _ _ _ => exact execMovk16_leads hI
  | movk32 _ _ _ => exact execMovk32_leads hI
  | movk48 _ _ _ => exact execMovk48_leads hI
  | srrd _ _ _ => exact execSrrd_leads hI
  | srwr _ _ _ => exact execSrwr_leads hI
  | flgrd _ _ => exact execFlgrd_leads hI
  | br _ _ => exact execBr_leads hI
  | call _ _ => exact execCall_leads hI
  | jalr _ _ _ _ => exact execJalr_leads hI
  | beq _ _ _ _ => exact execBeq_leads hI
  | bne _ _ _ _ => exact execBne_leads hI
  | blt _ _ _ _ => exact execBlt_leads hI
  | bge _ _ _ _ => exact execBge_leads hI
  | bltu _ _ _ _ => exact execBltu_leads hI
  | bgeu _ _ _ _ => exact execBgeu_leads hI
  | cmpEq _ _ _ _ => exact execCmpEq_leads hI
  | cmpNe _ _ _ _ => exact execCmpNe_leads hI
  | cmpLt _ _ _ _ => exact execCmpLt_leads hI
  | cmpGe _ _ _ _ => exact execCmpGe_leads hI
  | cmpLtu _ _ _ _ => exact execCmpLtu_leads hI
  | cmpGeu _ _ _ _ => exact execCmpGeu_leads hI
  | cmpTst _ _ _ _ => exact execCmpTst_leads hI
  | cmpiEq _ _ _ _ => exact execCmpiEq_leads hI
  | cmpiLt _ _ _ _ => exact execCmpiLt_leads hI
  | cmpiLtu _ _ _ _ => exact execCmpiLtu_leads hI
  | pand _ _ _ _ => exact execPand_leads hI
  | por _ _ _ _ => exact execPor_leads hI
  | pxor _ _ _ _ => exact execPxor_leads hI
  | pandn _ _ _ _ => exact execPandn_leads hI
  | pnot _ _ _ => exact execPnot_leads hI
  | pmov _ _ _ => exact execPmov_leads hI
  | pget _ _ => exact execPget_leads hI
  | pput _ _ => exact execPput_leads hI
  | ldb _ _ _ _ => exact execLdb_leads hI (hw rfl)
  | ldbs _ _ _ _ => exact execLdbs_leads hI (hw rfl)
  | ldh _ _ _ _ => exact execLdh_leads hI (hw rfl)
  | ldhs _ _ _ _ => exact execLdhs_leads hI (hw rfl)
  | ldw _ _ _ _ => exact execLdw_leads hI (hw rfl)
  | ldws _ _ _ _ => exact execLdws_leads hI (hw rfl)
  | ldd _ _ _ _ => exact execLdd_leads hI (hw rfl)
  | stb _ _ _ _ => exact execStb_leads hI (hw rfl)
  | sth _ _ _ _ => exact execSth_leads hI (hw rfl)
  | stw _ _ _ _ => exact execStw_leads hI (hw rfl)
  | std _ _ _ _ => exact execStd_leads hI (hw rfl)
  | amoSwapW _ _ _ => exact execAmoSwapW_leads hI (hw rfl)
  | amoAddW _ _ _ => exact execAmoAddW_leads hI (hw rfl)
  | amoAndW _ _ _ => exact execAmoAndW_leads hI (hw rfl)
  | amoOrW _ _ _ => exact execAmoOrW_leads hI (hw rfl)
  | amoXorW _ _ _ => exact execAmoXorW_leads hI (hw rfl)
  | amoMinW _ _ _ => exact execAmoMinW_leads hI (hw rfl)
  | amoMaxW _ _ _ => exact execAmoMaxW_leads hI (hw rfl)
  | amoMinuW _ _ _ => exact execAmoMinuW_leads hI (hw rfl)
  | amoMaxuW _ _ _ => exact execAmoMaxuW_leads hI (hw rfl)
  | amoCasW _ _ _ => exact execAmoCasW_leads hI (hw rfl)
  | amoSwapD _ _ _ => exact execAmoSwapD_leads hI (hw rfl)
  | amoAddD _ _ _ => exact execAmoAddD_leads hI (hw rfl)
  | amoAndD _ _ _ => exact execAmoAndD_leads hI (hw rfl)
  | amoOrD _ _ _ => exact execAmoOrD_leads hI (hw rfl)
  | amoXorD _ _ _ => exact execAmoXorD_leads hI (hw rfl)
  | amoMinD _ _ _ => exact execAmoMinD_leads hI (hw rfl)
  | amoMaxD _ _ _ => exact execAmoMaxD_leads hI (hw rfl)
  | amoMinuD _ _ _ => exact execAmoMinuD_leads hI (hw rfl)
  | amoMaxuD _ _ _ => exact execAmoMaxuD_leads hI (hw rfl)
  | amoCasD _ _ _ => exact execAmoCasD_leads hI (hw rfl)
  | vpass _ _ _ _ => exact execVpass_leads hI
  | vpassr _ _ _ _ => exact execVpassr_leads hI
  | wait _ _ _ _ _ => exact execWait_leads hI
  | waitAll _ _ _ _ _ => exact execWaitAll_leads hI
  | nop _ => exact execNop_leads hI
  | endProg _ => exact execEndProg_leads hI
  | tret _ => exact execTret_leads hI
  | shapeReq _ _ _ => exact execShapeReq_leads hI
  | shapeRel _ => exact execShapeRel_leads hI
  | cfgLd _ _ _ _ => exact execCfgLd_leads hI
  | cfgPre _ _ _ _ => exact execCfgPre_leads hI
  | cfgGo _ _ _ => exact execCfgGo_leads hI
  | cfgWait _ _ => exact execCfgWait_leads hI
  | cfgStop _ => exact execCfgStop_leads hI
  | cfgDrop _ _ => exact execCfgDrop_leads hI
  | parmWr _ _ _ _ => exact execParmWr_leads hI
  | cfgStat _ _ => exact execCfgStat_leads hI
  | sqSend _ _ _ => exact execSqSend_leads hI
  | sqSendX2 _ _ _ => exact execSqSendX2_leads hI
  | sqSendEoi _ => exact execSqSendEoi_leads hI
  | sqSendEos _ => exact execSqSendEos_leads hI
  | sqRecv _ _ => exact execSqRecv_leads hI
  | leaseBar _ _ => exact execLeaseBar_leads hI
  | achOpen _ _ _ _ => exact execAchOpen_leads hI
  | achJoin _ _ _ _ => exact execAchJoin_leads hI
  | achWait _ _ _ => exact execAchWait_leads hI
  | achWaitJ _ _ _ => exact execAchWaitJ_leads hI
  | achClose _ _ => exact execAchClose_leads hI
  | achCloseJ _ _ => exact execAchCloseJ_leads hI
  | achAbort _ _ => exact execAchAbort_leads hI
  | achStat _ _ _ => exact execAchStat_leads hI
  | achStatJ _ _ _ => exact execAchStatJ_leads hI
  | cqSub _ _ _ _ => exact execCqSub_leads hI
  | cqKick _ _ _ => exact execCqKick_leads hI
  | cntAdd _ _ _ _ => exact execCntAdd_leads hI (hw rfl)
  | cntWait _ _ _ _ => exact execCntWait_leads hI
  | cntRd _ _ _ => exact execCntRd_leads hI (hw rfl)
  | taskArm _ _ => exact execTaskArm_leads hI
  | taskKill _ _ => exact execTaskKill_leads hI
  | taskStat _ _ => exact execTaskStat_leads hI (hw rfl)
  | bankMode _ _ _ _ _ _ => exact execBankMode_leads hI
  | resOpen _ _ _ _ => exact execResOpen_leads hI
  | resPrio _ _ _ => exact execResPrio_leads hI
  | resDrop _ _ => exact execResDrop_leads hI
  | amdSwapW _ _ _ _ => exact execAmdSwapW_leads hI (hw rfl)
  | amdAddW _ _ _ _ => exact execAmdAddW_leads hI (hw rfl)
  | amdAndW _ _ _ _ => exact execAmdAndW_leads hI (hw rfl)
  | amdOrW _ _ _ _ => exact execAmdOrW_leads hI (hw rfl)
  | amdXorW _ _ _ _ => exact execAmdXorW_leads hI (hw rfl)
  | amdMinW _ _ _ _ => exact execAmdMinW_leads hI (hw rfl)
  | amdMaxW _ _ _ _ => exact execAmdMaxW_leads hI (hw rfl)
  | amdMinuW _ _ _ _ => exact execAmdMinuW_leads hI (hw rfl)
  | amdMaxuW _ _ _ _ => exact execAmdMaxuW_leads hI (hw rfl)
  | amdCasW _ _ _ _ => exact execAmdCasW_leads hI (hw rfl)
  | amdSwapD _ _ _ _ => exact execAmdSwapD_leads hI (hw rfl)
  | amdAddD _ _ _ _ => exact execAmdAddD_leads hI (hw rfl)
  | amdAndD _ _ _ _ => exact execAmdAndD_leads hI (hw rfl)
  | amdOrD _ _ _ _ => exact execAmdOrD_leads hI (hw rfl)
  | amdXorD _ _ _ _ => exact execAmdXorD_leads hI (hw rfl)
  | amdMinD _ _ _ _ => exact execAmdMinD_leads hI (hw rfl)
  | amdMaxD _ _ _ _ => exact execAmdMaxD_leads hI (hw rfl)
  | amdMinuD _ _ _ _ => exact execAmdMinuD_leads hI (hw rfl)
  | amdMaxuD _ _ _ _ => exact execAmdMaxuD_leads hI (hw rfl)
  | amdCasD _ _ _ _ => exact execAmdCasD_leads hI (hw rfl)
  | amdAfadd _ _ _ _ => exact execAmdAfadd_leads hI (hw rfl)
  | fence _ _ => exact execFence_leads hI
  | barArr _ _ _ => exact execBarArr_leads hI (hw rfl)
  | barWait _ _ _ _ => exact execBarWait_leads hI
  | ringHead _ _ _ => exact execRingHead_leads hI
  | ringTail _ _ _ => exact execRingTail_leads hI
  | ringReset _ _ _ => exact execRingReset_leads hI
  | tlbInva _ _ _ => exact execTlbInva_leads hI
  | tlbInvs _ _ => exact execTlbInvs_leads hI
  | tlbInvall _ => exact execTlbInvall_leads hI
  | handStk _ _ _ => exact execHandStk_leads hI
  | trap _ _ => exact execTrap_leads hI
  | yield _ => exact execYield_leads hI
  | mgr _ _ _ => exact execMgr_leads hI
  | mgw _ _ _ => exact execMgw_leads hI
  | trapEntry _ => exact execTrapEntry_leads hI
  | waitSatisfied _ => exact execWaitSatisfied_leads hI
  | spadLoadComplete _ _ => exact execSpadLoadComplete_leads hI
  | spadStoreComplete _ _ => exact execSpadStoreComplete_leads hI
  | amoComplete _ _ => exact execAmoComplete_leads hI
  | dividerComplete _ => exact execDividerComplete_leads hI
  | passChainStart _ => exact execPassChainStart_leads hI
  | passChainComplete _ => exact execPassChainComplete_leads hI
  | endComplete _ => exact execEndComplete_leads hI
  | packetArrive _ _ _ => exact execPacketArrive_leads hI
  | laneSkipDemand _ _ _ => exact execLaneSkipDemand_leads hI
  | demandSend _ _ => exact execDemandSend_leads hI
  | demandArrive _ _ _ => exact execDemandArrive_leads hI
  | packerClose _ _ => exact execPackerClose_leads hI
  | cellMarkerPass _ _ => exact execCellMarkerPass_leads hI
  | auxTokenSend _ _ => exact execAuxTokenSend_leads hI
  | cellAdd _ _ => exact execCellAdd_leads hI
  | cellSub _ _ => exact execCellSub_leads hI
  | cellRsub _ _ => exact execCellRsub_leads hI
  | cellMul _ _ => exact execCellMul_leads hI
  | cellMulh _ _ => exact execCellMulh_leads hI
  | cellMad _ _ => exact execCellMad_leads hI
  | cellAdds _ _ => exact execCellAdds_leads hI
  | cellSubs _ _ => exact execCellSubs_leads hI
  | cellMin _ _ => exact execCellMin_leads hI
  | cellMax _ _ => exact execCellMax_leads hI
  | cellMinu _ _ => exact execCellMinu_leads hI
  | cellMaxu _ _ => exact execCellMaxu_leads hI
  | cellAbs _ _ => exact execCellAbs_leads hI
  | cellNeg _ _ => exact execCellNeg_leads hI
  | cellAnd _ _ => exact execCellAnd_leads hI
  | cellOr _ _ => exact execCellOr_leads hI
  | cellXor _ _ => exact execCellXor_leads hI
  | cellShl _ _ => exact execCellShl_leads hI
  | cellShr _ _ => exact execCellShr_leads hI
  | cellSra _ _ => exact execCellSra_leads hI
  | cellClz _ _ => exact execCellClz_leads hI
  | cellPopc _ _ => exact execCellPopc_leads hI
  | cellFadd _ _ => exact execCellFadd_leads hI
  | cellFsub _ _ => exact execCellFsub_leads hI
  | cellFmul _ _ => exact execCellFmul_leads hI
  | cellFma _ _ => exact execCellFma_leads hI
  | cellFms _ _ => exact execCellFms_leads hI
  | cellFmin _ _ => exact execCellFmin_leads hI
  | cellFmax _ _ => exact execCellFmax_leads hI
  | cellFabs _ _ => exact execCellFabs_leads hI
  | cellFneg _ _ => exact execCellFneg_leads hI
  | cellScacc _ _ => exact execCellScacc_leads hI
  | cellRcp _ _ => exact execCellRcp_leads hI
  | cellRsq _ _ => exact execCellRsq_leads hI
  | cellExp2 _ _ => exact execCellExp2_leads hI
  | cellLog2 _ _ => exact execCellLog2_leads hI
  | cellCmpEq _ _ => exact execCellCmpEq_leads hI
  | cellCmpNe _ _ => exact execCellCmpNe_leads hI
  | cellCmpLt _ _ => exact execCellCmpLt_leads hI
  | cellCmpLe _ _ => exact execCellCmpLe_leads hI
  | cellCmpLtu _ _ => exact execCellCmpLtu_leads hI
  | cellCmpLeu _ _ => exact execCellCmpLeu_leads hI
  | cellFcmpEq _ _ => exact execCellFcmpEq_leads hI
  | cellFcmpNe _ _ => exact execCellFcmpNe_leads hI
  | cellFcmpLt _ _ => exact execCellFcmpLt_leads hI
  | cellFcmpLe _ _ => exact execCellFcmpLe_leads hI
  | cellFcmpUn _ _ => exact execCellFcmpUn_leads hI
  | cellSel _ _ => exact execCellSel_leads hI
  | cellPand _ _ => exact execCellPand_leads hI
  | cellPor _ _ => exact execCellPor_leads hI
  | cellPxor _ _ => exact execCellPxor_leads hI
  | cellPnot _ _ => exact execCellPnot_leads hI
  | cellCvt _ _ => exact execCellCvt_leads hI
  | cellRadd _ _ => exact execCellRadd_leads hI
  | cellRmin _ _ => exact execCellRmin_leads hI
  | cellRmax _ _ => exact execCellRmax_leads hI
  | cellRfadd _ _ => exact execCellRfadd_leads hI
  | cellRfmin _ _ => exact execCellRfmin_leads hI
  | cellRfmax _ _ => exact execCellRfmax_leads hI
  | cellMov _ _ => exact execCellMov_leads hI
  | cellMerge _ _ => exact execCellMerge_leads hI
  | cellSplit _ _ => exact execCellSplit_leads hI
  | cellDup _ _ => exact execCellDup_leads hI
  | cellGate _ _ => exact execCellGate_leads hI
  | cellSteer _ _ => exact execCellSteer_leads hI
  | cellSink _ _ => exact execCellSink_leads hI
  | cellConst _ _ => exact execCellConst_leads hI
  | cellMkins _ _ => exact execCellMkins_leads hI
  | cellLd _ _ => exact execCellLd_leads hI
  | cellSt _ _ => exact execCellSt_leads hI
  | cellAmoAdd _ _ => exact execCellAmoAdd_leads hI
  | cellAmoMin _ _ => exact execCellAmoMin_leads hI
  | cellAmoMax _ _ => exact execCellAmoMax_leads hI
  | cellAmoSwap _ _ => exact execCellAmoSwap_leads hI
  | cellAmoAfadd _ _ => exact execCellAmoAfadd_leads hI
  | cellOrdj _ _ => exact execCellOrdj_leads hI
  | cellSpawn _ _ => exact execCellSpawn_leads hI
  | spawnReply _ _ => exact execSpawnReply_leads hI
  | cellCpy _ _ => exact execCellCpy_leads hI
  | cellAcput _ _ => exact execCellAcput_leads hI
  | memAccessEffect _ _ => exact execMemAccessEffect_leads hI
  | agTileStart _ _ => exact execAgTileStart_leads hI
  | agReadEmit _ _ => exact execAgReadEmit_leads hI
  | agWriteConsume _ _ => exact execAgWriteConsume_leads hI
  | agGather _ _ => exact execAgGather_leads hI
  | agTileEnd _ _ => exact execAgTileEnd_leads hI
  | dmReadReturn _ _ => exact execDmReadReturn_leads hI
  | queuePush _ _ => exact execQueuePush_leads hI
  | queuePop _ _ => exact execQueuePop_leads hI
  | spillWrite _ _ => exact execSpillWrite_leads hI
  | ringRefill _ _ => exact execRingRefill_leads hI
  | loadStart _ => exact execLoadStart_leads hI
  | loadEnd _ => exact execLoadEnd_leads hI
  | quantumExpire _ => exact execQuantumExpire_leads hI
  | loadStop _ => exact execLoadStop_leads hI
  | leaseBreak _ => exact execLeaseBreak_leads hI
  | collectiveAbandon _ => exact execCollectiveAbandon_leads hI
  | leaseBarRelease _ => exact execLeaseBarRelease_leads hI
  | cfgLdComplete _ => exact execCfgLdComplete_leads hI
  | cfgPreComplete _ => exact execCfgPreComplete_leads hI
  | configStoreEcc _ _ => exact execConfigStoreEcc_leads hI
  | shapeGrant _ => exact execShapeGrant_leads hI
  | shapeReleaseDone _ => exact execShapeReleaseDone_leads hI
  | mnMm _ => exact execMnMm_leads hI
  | mnMv _ => exact execMnMv_leads hI
  | mnGatherA _ => exact execMnGatherA_leads hI
  | mnTload _ => exact execMnTload_leads hI
  | mnZero _ => exact execMnZero_leads hI
  | mnDrain _ => exact execMnDrain_leads hI
  | mnAcsend _ => exact execMnAcsend_leads hI
  | mnCommandStart _ _ => exact execMnCommandStart_leads hI
  | mnCommandComplete _ _ => exact execMnCommandComplete_leads hI
  | mnCtlEos _ => exact execMnCtlEos_leads hI
  | acnBlockSend _ _ => exact execAcnBlockSend_leads hI
  | acnBlockArrive _ => exact execAcnBlockArrive_leads hI
  | acnBlockAdd _ _ => exact execAcnBlockAdd_leads hI
  | acnCreditReturn _ => exact execAcnCreditReturn_leads hI
  | acnJoinRequest _ => exact execAcnJoinRequest_leads hI
  | acnJoinReply _ => exact execAcnJoinReply_leads hI
  | acnFinalise _ _ => exact execAcnFinalise_leads hI
  | chainComplete _ _ => exact execChainComplete_leads hI
  | acnDoneEos _ => exact execAcnDoneEos_leads hI
  | acnAbortNotice _ => exact execAcnAbortNotice_leads hI
  | acnRefusal _ => exact execAcnRefusal_leads hI
  | bankZeroDone _ _ => exact execBankZeroDone_leads hI
  | l2WayConvert _ _ => exact execL2WayConvert_leads hI
  | homeSliceRead _ => exact execHomeSliceRead_leads hI
  | homeSliceWrite _ => exact execHomeSliceWrite_leads hI
  | l2Fill _ _ _ => exact execL2Fill_leads hI
  | channelRequest _ => exact execChannelRequest_leads hI
  | cacheLayerFill _ _ _ => exact execCacheLayerFill_leads hI
  | meshArbitration _ _ => exact execMeshArbitration_leads hI
  | flitCrcRetry _ _ _ _ => exact execFlitCrcRetry_leads hI
  | pageWalk _ _ _ => exact execPageWalk_leads hI
  | replayRetry _ _ => exact execReplayRetry_leads hI
  | replayRelease _ _ _ => exact execReplayRelease_leads hI
  | counterReread _ => exact execCounterReread_leads hI
  | barrierReleaseMsg _ => exact execBarrierReleaseMsg_leads hI
  | cePacketIntake _ => exact execCePacketIntake_leads hI
  | cePacketStart _ _ => exact execCePacketStart_leads hI
  | ceCopy _ _ => exact execCeCopy_leads hI
  | ceCopy2d _ _ => exact execCeCopy2d_leads hI
  | ceCopy4d _ _ => exact execCeCopy4d_leads hI
  | ceFill _ _ => exact execCeFill_leads hI
  | ceGather _ _ => exact execCeGather_leads hI
  | ceScatter _ _ => exact execCeScatter_leads hI
  | ceMcast _ _ => exact execCeMcast_leads hI
  | ceCadd _ _ => exact execCeCadd_leads hI
  | ceTaskarm _ _ => exact execCeTaskarm_leads hI
  | ceLaunch _ _ => exact execCeLaunch_leads hI
  | ceSignal _ _ => exact execCeSignal_leads hI
  | cePull _ _ => exact execCePull_leads hI
  | cePacketComplete _ _ => exact execCePacketComplete_leads hI
  | ceDoneEos _ => exact execCeDoneEos_leads hI
  | kickNoticeArrive _ => exact execKickNoticeArrive_leads hI
  | kickNoticeResend _ => exact execKickNoticeResend_leads hI
  | pullAck _ => exact execPullAck_leads hI
  | queueSlotTake _ => exact execQueueSlotTake_leads hI
  | queueError _ => exact execQueueError_leads hI
  | queueRestart _ => exact execQueueRestart_leads hI
  | taskCompletionReport _ => exact execTaskCompletionReport_leads hI
  | taskFaultReport _ => exact execTaskFaultReport_leads hI
  | taskPush _ => exact execTaskPush_leads hI
  | distributorSelect => exact execDistributorSelect_leads hI
  | launchDependenceMet _ => exact execLaunchDependenceMet_leads hI
  | ostlerPlacement => exact execOstlerPlacement_leads hI
  | spawnPlace => exact execSpawnPlace_leads hI
  | contextRelease _ => exact execContextRelease_leads hI
  | launchComplete _ => exact execLaunchComplete_leads hI
  | launchFault _ => exact execLaunchFault_leads hI
  | schedulerTurnEnd _ => exact execSchedulerTurnEnd_leads hI
  | compaction => exact execCompaction_leads hI
  | relocation _ => exact execRelocation_leads hI
  | relocationPairCopy _ _ => exact execRelocationPairCopy_leads hI
  | relocationAbandon _ => exact execRelocationAbandon_leads hI
  | contextGated _ => exact execContextGated_leads hI
  | ctxcGate _ => exact execCtxcGate_leads hI
  | ctxcUngate _ => exact execCtxcUngate_leads hI
  | ctxcDestroy _ => exact execCtxcDestroy_leads hI
  | ctxcRelease _ => exact execCtxcRelease_leads hI
  | ostevEvict _ => exact execOstevEvict_leads hI
  | ostevRestore _ => exact execOstevRestore_leads hI
  | ostcmdGo => exact execOstcmdGo_leads hI
  | trstGo _ => exact execTrstGo_leads hI
  | ttabWrite _ _ _ => exact execTtabWrite_leads hI
  | tlogWrite _ => exact execTlogWrite_leads hI
  | fwlogWrite => exact execFwlogWrite_leads hI
  | evlostWrite => exact execEvlostWrite_leads hI
  | wdrWrite _ _ => exact execWdrWrite_leads hI
  | l2remwWrite _ _ => exact execL2remwWrite_leads hI
  | asidoWrite _ _ => exact execAsidoWrite_leads hI
  | lqcfgWrite _ _ => exact execLqcfgWrite_leads hI
  | ceqWrite _ _ _ => exact execCeqWrite_leads hI
  | mlogtWrite _ _ => exact execMlogtWrite_leads hI
  | registerWrite _ _ => exact execRegisterWrite_leads hI
  | powerInterval _ _ _ => exact execPowerInterval_leads hI
  | clkLower _ => exact execClkLower_leads hI
  | clkRestore => exact execClkRestore_leads hI
  | queueParityError _ _ _ => exact execQueueParityError_leads hI
  | eccDoubleRetry _ _ _ => exact execEccDoubleRetry_leads hI
  | stackHandOver _ => exact execStackHandOver_leads hI
  | ucieModuleFail _ => exact execUcieModuleFail_leads hI
  | jexlinkTrain _ => exact execJexlinkTrain_leads hI
  | jexlinkKeyRenew p => exact execJexlinkKeyRenew_leads (_port := p) hI
  | jexlinkLinkFail _ => exact execJexlinkLinkFail_leads hI
  | jexlinkRequest _ => exact execJexlinkRequest_leads hI
  | remoteStoreAck _ => exact execRemoteStoreAck_leads hI
  | remoteStoreLost _ => exact execRemoteStoreLost_leads hI
  | remoteReadTimeout _ _ => exact execRemoteReadTimeout_leads hI
  | apertureRead _ _ _ _ => exact execApertureRead_leads hI
  | apertureWrite _ _ _ _ => exact execApertureWrite_leads hI
  | apertureFetchadd _ _ _ _ => exact execApertureFetchadd_leads hI
  | apertureSwap _ _ _ _ => exact execApertureSwap_leads hI
  | apertureCas _ _ _ _ _ => exact execApertureCas_leads hI
  | bar0RegisterAccess _ _ _ _ => exact execBar0RegisterAccess_leads hI
  | msixInterrupt _ _ => exact execMsixInterrupt_leads hI
  | vfEnableClear => exact execVfEnableClear_leads hI
  | spdmRequest _ b => exact execSpdmRequest_leads (_data := b) hI
  | lockInterfaceRequest _ _ => exact execLockInterfaceRequest_leads hI
  | startInterfaceRequest _ => exact execStartInterfaceRequest_leads hI
  | stopInterfaceRequest _ => exact execStopInterfaceRequest_leads hI
  | getDeviceInterfaceReport _ => exact execGetDeviceInterfaceReport_leads hI
  | tdispError _ _ _ => exact execTdispError_leads hI
  | functionLevelReset _ => exact execFunctionLevelReset_leads hI
  | ideStreamFault _ => exact execIdeStreamFault_leads hI
  | thermalEvent _ _ => exact execThermalEvent_leads hI
  | thermalTrip _ _ => exact execThermalTrip_leads hI
  | deviceReset => exact execDeviceReset_leads
  | bootStageComplete _ _ => exact execBootStageComplete_leads hI
  | deviceResponse _ => exact execDeviceResponse_leads hI
  | launchImagePlaced _ => exact execLaunchImagePlaced_leads hI
  | vfEnableSet _ => exact execVfEnableSet_leads hI
  | configSpaceWrite _ _ _ => exact execConfigSpaceWrite_leads hI
  | msixVectorUnmask _ _ => exact execMsixVectorUnmask_leads hI
  | powerLoss => exact execPowerLoss_leads
  | thermalRearm _ _ => exact execThermalRearm_leads hI

theorem runCtx {c : CtxId} (hI : s.Every I) : Out.Leads (s.runCtx c) I := by
  unfold State.runCtx
  dsimp only
  split
  · exact record hI
  next hc =>
  have hw : (State.ctx { s with cur := c } c).wait = none := by
    simp only [Bool.not_eq_true', Bool.not_eq_false, State.canIssue, Bool.and_eq_true, Option.isNone_iff_eq_none] at hc
    obtain ⟨⟨⟨⟨⟨⟨-, hw⟩, -⟩, -⟩, -⟩, -⟩, -⟩ := hc
    exact hw
  split
  · exact raise (record hI)
  · exact exec_leads (record hI) fun _ => hw

theorem tryIssue {c : CtxId} (hI : s.Every I) : (s.tryIssue c).Every I := by
  unfold State.tryIssue
  refine Try.Every.ite trivial ?_
  simp only
  split
  · rename_i hx
    exact Try.Every.ite (record ((runCtx hI).next hx)) ((runCtx hI).next hx)
  · exact runCtx hI

theorem endRound {core : CoreId} (hI : s.Every I) : (s.endRound core).Every I := by
  unfold State.endRound
  exact ite hI (foldl (fun _ _ hs => ite hs (updCore (updCtx hs (fun hx1 => .record hx1 rfl rfl)))) hI)

theorem noteOf {x : Ctx} {kind n : Nat} (hI : s.Every I) : (s.noteOf x kind n).Every I := by
  unfold State.noteOf
  exact ite hI (record hI)

theorem issueFrom {core : CoreId} {l : List Nat} (hI : s.Every I) : Out.Leads (s.issueFrom core l) I := by
  induction l generalizing s with
  | nil => exact endRound hI
  | cons b rest ih =>
    rw [State.issueFrom]
    split
    · exact ih hI
    · next hx => exact ih ((tryIssue hI).held hx)
    · next t hx =>
      have ht : t.Every I := (tryIssue hI).done hx
      exact noteOf (endRound (updCore (updCtx ht fun hx => .record hx rfl rfl)))
    · next hx => exact (tryIssue hI).done hx

theorem issueCore {core : CoreId} (hI : s.Every I) : Out.Leads (s.issueCore core) I := by
  unfold State.issueCore
  exact Out.Leads.ite hI (issueFrom hI)

theorem opAccess {c : CtxId} {o : MemOp} (hI : s.Every I) : (s.opAccess c o).Every I := by
  unfold State.opAccess
  split
  · exact devCheck hI
  · exact bankAccess hI

/-! ### The events that energy is shared by (R382) -/

theorem noteFirings {t : State} (ht : t.Every I) : (s.noteFirings t).Every I := by
  unfold State.noteFirings
  exact foldl (fun _ _ hs => noteOf hs) ht

theorem noteFlits {t : State} (ht : t.Every I) : (s.noteFlits t).Every I := by
  unfold State.noteFlits
  refine foldl (fun _ _ hs => ?_) ht
  split
  · split <;> exact noteOf hs
  · exact hs

theorem tally {m : Move} {t : State} (ht : t.Every I) : (s.tally m t).Every I := by
  unfold State.tally
  extract_lets u v w
  have hu : u.Every I := noteFlits (noteFirings ht)
  have hv : v.Every I := by
    unfold v
    split
    · exact ite hu (noteOf hu)
    · exact hu
  have hw : w.Every I := by
    unfold w
    split
    · exact noteOf hv
    · exact hv
  split
  · exact noteOf hw
  · exact hw

theorem take {m : Move} (hI : s.Every I) : Out.Leads (s.take m) I := by
  cases m with
  | issue k => exact issueCore hI
  | access c i =>
    rw [State.take]
    split
    · exact opAccess hI
    · exact hI
  | chainRead k i => exact chainRead hI
  | chainWrite k i e => exact chainWrite hI
  | kStep c i => exact kStep hI
  | statWrite i => exact statWrite hI
  | ceRead k i n => exact ceReadAt hI
  | ceWrite k i n => exact ceWriteAt hI
  | corrected k i => exact corrected hI
  | linkUp => exact linkUp hI
  | act i =>
    rw [State.take]
    split
    · next hi =>
      refine exec_leads hI fun hw => ?_
      simp [hw] at hi
    · exact hI

theorem perform {m : Move} (hI : s.Every I) : Out.Leads (s.perform m) I := by
  unfold State.perform
  split
  · rename_i hx
    exact tally ((take hI).next hx)
  · exact take hI

theorem ownMove (hI : s.Every I) : Out.Leads s.ownMove I := by
  unfold State.ownMove
  split
  · next t ht =>
    obtain ⟨f, hf, hft⟩ := List.exists_of_findSome?_eq_some ht
    have hnext {u : State} (hu : f s = .next u) : u.Every I := by
      simp only [State.ownActs, List.mem_append, List.mem_cons, List.mem_map, List.not_mem_nil, or_false] at hf
      obtain (((((rfl | rfl) | ⟨i, -, rfl⟩) | ⟨i, -, rfl⟩) | ⟨i, -, rfl⟩) | ⟨i, -, rfl⟩) | hf := hf
      · exact (execTrapEntry_leads hI).next hu
      · exact (execDividerComplete_leads hI).next hu
      · exact (perform hI).next hu
      · exact (execSpadLoadComplete_leads hI).next hu
      · exact (execSpadStoreComplete_leads hI).next hu
      · exact (execAmoComplete_leads hI).next hu
      obtain rfl | rfl | rfl | rfl | rfl | rfl | rfl | rfl | rfl := hf
      · exact (execPassChainStart_leads hI).next hu
      · exact (execPassChainComplete_leads hI).next hu
      · exact (execCfgLdComplete_leads hI).next hu
      · exact (execCfgPreComplete_leads hI).next hu
      · exact (execShapeGrant_leads hI).next hu
      · exact (execShapeReleaseDone_leads hI).next hu
      · exact (execEndComplete_leads hI).next hu
      · exact (execWaitSatisfied_leads hI).next hu
      · exact (execContextRelease_leads hI).next hu
    split at hft
    · next u hu =>
      split at hft
      · cases hft
      · cases hft
        exact hnext hu
    · cases hft
  · exact issueCore hI

theorem oneStep (hI : s.Every I) : Out.Leads (s.oneStep) I := by
  unfold State.oneStep
  split
  · exact perform (record hI)
  · exact ownMove (record hI)

end State.Every
end Sys2Proof.Machine

/-! No step stops the machine, and every step keeps the counters in range: two of the properties that the machine's steps keep. -/

namespace Sys2Proof.Machine

/-- The property that every context has: that a step keeps it says that the step leads to a state at all. -/
def CtxInv.any : CtxInv where
  Ok _ := True
  blank := trivial
  edit _ _ _ := trivial
  slot _ _ _ _ := trivial
  claim _ _ _ _ := trivial
  push _ _ _ _ _ _ := trivial
  shrinkOps _ _ := trivial
  pushTl _ _ _ := trivial
  shrinkTl _ _ := trivial
  pushCp _ _ _ := trivial
  shrinkCp _ _ := trivial

/-- R460: every state has a next one. -/
theorem State.safe (s : State) : s.Safe := by
  have h : s.Every CtxInv.any := ⟨fun _ _ => trivial, fun _ _ _ _ => trivial⟩
  obtain ⟨t, ht, -⟩ := Out.leads_iff.mp (State.Every.oneStep h)
  exact ⟨t, ht⟩

/-! ### The counters (R17, R21, R69, R348) -/

/-- The same operations, and none outstanding where a CQ.SUB waits. -/
theorem Ctx.Counted.congr {x y : Ctx} (h : x.Counted) (hops : y.ops = x.ops) (hN : y.opN = x.opN) (htl : y.tlq = x.tlq) (hcp : y.cpq = x.cpq)
    (hw : ∀ d e, y.wait = some (.cqSub d e) → x.ops = []) : y.Counted := by
  obtain ⟨hld, hst, hc, ht, hid, hlt, hdst, -⟩ := h
  rw [Ctx.cntLd] at hld
  rw [Ctx.cntSt] at hst
  rw [Ctx.cntCp] at hc
  rw [Ctx.cntTl] at ht
  simp only [Ctx.Counted, Ctx.cntLd, Ctx.cntSt, Ctx.cntCp, Ctx.cntTl, hops, hN, htl, hcp]
  exact ⟨hld, hst, hc, ht, hid, hlt, hdst, hw⟩

/-- A CQ.SUB that waits for its slot has no operation outstanding. -/
theorem Ctx.Counted.ops_of_forSlot {x : Ctx} (h : x.Counted) (hw : Wait.forSlot x.wait) : x.ops = [] := by
  obtain ⟨-, -, -, -, -, -, -, hq⟩ := h
  unfold Wait.forSlot at hw
  split at hw
  · next d e he => exact hq d e he
  · exact hw.elim

/-- An operation counted in has a number and a destination of its own. -/
theorem Ctx.Counted.pushOp {x : Ctx} {isStore : Bool} {d : BitVec 5} {b : OpBody} (h : x.Counted) (hw : x.wait = none)
    (hst : isStore = true → x.cntSt < 31) (hld : isStore = false → x.cntLd < 31) (hp : x.pends d = false) : (x.pushOp isStore d b).Counted := by
  obtain ⟨h1, h2, hc, ht, hid, hlt, hdst, -⟩ := h
  refine ⟨?_, ?_, hc, ht, ?_, ?_, ?_, fun d e he => ?_⟩
  · cases isStore with
    | true => simpa [Ctx.cntLd, Ctx.pushOp] using h1
    | false => simpa [Ctx.cntLd, Ctx.pushOp] using hld rfl
  · cases isStore with
    | true => simpa [Ctx.cntSt, Ctx.pushOp] using hst rfl
    | false => simpa [Ctx.cntSt, Ctx.pushOp] using h2
  · simpa [Ctx.pushOp, List.pairwise_append] using ⟨hid, hlt⟩
  · intro o ho
    obtain ho | ho := List.mem_append.mp ho
    · exact Nat.lt_succ_of_lt (hlt o ho)
    · rw [List.mem_singleton.mp ho]
      exact Nat.lt_succ_self _
  · refine List.pairwise_append.mpr ⟨hdst, List.pairwise_singleton .., fun a ha o ho => ?_⟩
    rw [List.mem_singleton.mp ho]
    by_cases hd : d = 0
    · by_cases ha0 : a.dst = 0
      · exact .inl ha0
      · exact .inr fun he => ha0 (he.trans hd)
    · refine .inr fun he => ?_
      have : x.pends d = true := by
        rw [Ctx.pends, Bool.and_eq_true, bne_iff_ne, List.any_eq_true]
        exact ⟨hd, a, ha, beq_iff_eq.mpr he⟩
      exact Bool.noConfusion (this.symm.trans hp)
  · rw [Ctx.pushOp, hw] at he
    cases he

/-- Operations marked or counted out leave the others their numbers and destinations. -/
theorem Ctx.Counted.shrinkOps {x : Ctx} {l : List MemOp} (h : x.Counted) (hl : (l.map MemOp.key).Sublist (x.ops.map MemOp.key)) :
    Ctx.Counted { x with ops := l } := by
  have hcount (p : Nat × Bool × BitVec 5 → Bool) : (l.filter fun o => p o.key).length ≤ (x.ops.filter fun o => p o.key).length := by
    simpa [List.filter_map, Function.comp_def] using (hl.filter p).length_le
  obtain ⟨h1, h2, hc, ht, hid, hlt, hdst, hw⟩ := h
  have hpair {R : Nat × Bool × BitVec 5 → Nat × Bool × BitVec 5 → Prop} (hR : x.ops.Pairwise fun a b => R a.key b.key) :
      l.Pairwise fun a b => R a.key b.key :=
    List.pairwise_map.mp ((List.pairwise_map.mpr hR).sublist hl)
  refine ⟨(hcount fun k => !k.2.1).trans h1, (hcount fun k => k.2.1).trans h2, hc, ht, ?_, fun o ho => ?_, ?_, fun d e he => ?_⟩
  · exact hpair (R := fun a b => a.1 < b.1) hid
  · obtain ⟨a, ha, hk⟩ := List.mem_map.mp (hl.subset (List.mem_map_of_mem ho))
    have he : a.id = o.id := congrArg Prod.fst hk
    show o.id < x.opN
    exact he ▸ hlt a ha
  · exact hpair (R := fun a b => a.2.2 = 0 ∨ a.2.2 ≠ b.2.2) hdst
  · rw [hw d e he] at hl
    exact List.map_eq_nil_iff.mp (List.sublist_nil.mp hl)

/-- Counted is a property that every step keeps. -/
def CtxInv.counted : CtxInv where
  Ok := Ctx.Counted
  blank := ⟨by decide, by decide, by decide, by decide, .nil, nofun, .nil, nofun⟩
  edit := fun hs hw hx => hx.congr hs.ops hs.opN hs.tlq hs.cpq fun d e he =>
    hx.ops_of_forSlot (hw.elim (fun h => h ▸ he ▸ trivial) fun h => (h (he ▸ trivial)).elim)
  slot := fun _ _ ho hx => hx.congr rfl rfl rfl rfl fun _ _ _ => ho.elim id hx.ops_of_forSlot
  claim := fun {x} d b hw hx => by
    have hops := hx.ops_of_forSlot hw
    refine Ctx.Counted.pushOp (hx.congr rfl rfl rfl rfl nofun) rfl (fun _ => ?_) nofun ?_
    · simp [Ctx.cntSt, hops]
    · simp [Ctx.pends, hops]
  push := fun _ hw hst hld hp hx => hx.pushOp hw hst hld hp
  shrinkOps := fun hl hx => hx.shrinkOps hl
  pushTl := fun _ hlt hx => by
    obtain ⟨h1, h2, hc, -, h⟩ := hx
    exact ⟨h1, h2, hc, by simpa [Ctx.cntTl] using hlt, h⟩
  shrinkTl := fun hl hx => by
    obtain ⟨h1, h2, hc, ht, h⟩ := hx
    exact ⟨h1, h2, hc, hl.trans ht, h⟩
  pushCp := fun _ hlt hx => by
    obtain ⟨h1, h2, -, h⟩ := hx
    exact ⟨h1, h2, by simpa [Ctx.cntCp] using hlt, h⟩
  shrinkCp := fun hl hx => by
    obtain ⟨h1, h2, hc, h⟩ := hx
    exact ⟨h1, h2, hl.trans hc, h⟩

/-- A step from a state in which a property of contexts holds, of those that CtxInv describes, leads to one in which it holds. -/
theorem State.Every.step {I : CtxInv} {s t : State} (h : s.Every I) (ht : step s = .next t) : t.Every I :=
  (State.Every.oneStep h).next ht

/-- Settles O56: the counters are one of the properties that all operations of the machine keep (CtxInv), for every operation counts in only what its
hold has left room for. -/
theorem countersCountWhatIsOutstanding : Obligations.CountersCountWhatIsOutstanding := by
  unfold Obligations.CountersCountWhatIsOutstanding
  intro s t hs ht
  exact State.Every.step (I := CtxInv.counted) hs ht

/-! ### Rounds (R18, R19, R366, R399) -/

theorem Ctx.inRound_iff {x : Ctx} : x.inRound = true ↔ x.st = .ready ∧ x.gated = false ∧ x.credit ≠ 0 ∧ x.skip = false := by
  simp [Ctx.inRound, and_assoc, Nat.one_le_iff_ne_zero]

theorem Ctx.inRound_false {x : Ctx} (h : x.st = .ready → x.gated = true ∨ x.credit = 0 ∨ x.skip = true) : x.inRound = false := by
  rw [Bool.eq_false_iff, ne_eq, Ctx.inRound_iff]
  rintro ⟨hs, hg, hc, hk⟩
  obtain h | h | h := h hs
  · exact Bool.noConfusion (hg.symm.trans h)
  · exact hc h
  · exact Bool.noConfusion (hk.symm.trans h)

/-- A cycle of a core in which nothing issues ends its round, or goes by. -/
theorem step_idle_cycle {s s1 t : State} {dt k : Nat} {rest : List (Nat × Move)} (ha : s.agenda = (dt, .issue k) :: rest)
    (hs : s1 = { s with agenda := rest, time := s.time + dt }) (hi : s1.issueCore k = .next t) : step s = .next (s1.tally (.issue k) t) := by
  rw [step_agenda ha, ← hs]
  simp only [State.perform, State.take, hi]

/-- Settles O53, the last part by the property that every context has (CtxInv.any): every operation answers a state whose contexts have it. -/
theorem cyclesIssueInTurn : Obligations.CyclesIssueInTurn := by
  unfold Obligations.CyclesIssueInTurn
  refine ⟨⟨fun s c h => State.canIssue_closed h, fun s s1 dt k rest ha hs => ⟨fun hp hi => ?_, fun hi => ?_⟩⟩,
    fun s k => ⟨?_, fun hn b hb hst w hw => ?_⟩, State.safe⟩
  · refine step_idle_cycle ha hs (State.issueCore_passed hp ?_)
    rw [show s1.core k = s.core k from hs ▸ rfl]
    exact hi
  · refine step_idle_cycle ha hs (State.issueCore_of_issued ?_)
    rw [show s1.core k = s.core k from hs ▸ rfl]
    exact hi
  · rintro ⟨b, hb, hr⟩
    exact State.endRound_goes_on ⟨b, hb, Ctx.inRound_iff.mpr hr⟩
  · rw [State.endRound_new fun b hb => Ctx.inRound_false (hn b hb)]
    exact (State.foldl_refill (banksOf k) (nodup_banksOf k) s hst hw).2 (mem_banksOf hb)

end Sys2Proof.Machine

/-! Cells that convert, select and shape streams (R46, R47, R152, R163, R167 to R172). -/

namespace Sys2Proof.Machine

theorem ElTy.count_pos (t : ElTy) : 0 < t.count := by cases t <;> decide

/-- A MKINS cell that holds no EOI of its own and that nothing withholds fires (R172). -/
theorem State.tryFire_mkins {s : State} {c : CtxId} {n lim m : Nat} {k : Cell} {room : Cell → Nat → Bool} (h : s.CellReady c n 0x58 k)
    (hg : k.go = false) (ho : k.Offers m) (hm : m ≤ lim) (hr : room k m = true) :
    s.tryFire c n 0x58 lim room = .yes (s.ctx c) k (k.tups m) := by
  obtain ⟨hcell, hop, hact, hopen, hheld, hbusy, hblk, hdem, hturn⟩ := h
  have ho' : headsOf ((wQueues k.word).map k.queue) = .data m := ho
  simp [State.tryFire, Cell.holds, hcell, hop, hact, hopen, hheld, hbusy, hblk, hdem, hturn, hg, ho', Nat.min_eq_left hm, hr]

section Ready
variable {s : State} {c : CtxId} {n m : Nat} {k : Cell}

theorem execCellConst_fires (h : s.CellReady c n 0x57 k) (ho : k.Offers m) (hr : k.pk.length + m ≤ 8) :
    ∃ t, execCellConst c n s = .next t ∧ s.Fired t c n (k.fired m (List.replicate m (constVal k.word))) 0 := by
  have hf := State.tryFire_go (room := fits) h ho (by decide) (headsOf_le ho) (by simpa [fits] using hr)
  refine ⟨_, ?_, State.fired_put0 s c n _⟩
  simp only [execCellConst, hf, Cell.tups_length]
  rfl

theorem execCellSink_fires (h : s.CellReady c n 0x56 k) (ho : k.Offers m) :
    ∃ t, execCellSink c n s = .next t ∧ s.Fired t c n (k.fired m []) 0 := by
  have hf := State.tryFire_go (room := fun _ _ => true) h ho (by decide) (headsOf_le ho) rfl
  refine ⟨_, ?_, State.fired_put0 s c n _⟩
  simp only [execCellSink, hf, Cell.tups_length, Cell.fired, List.append_nil]
  rfl

/-- A MKINS firing that does not pass the end of its block copies its elements, and holds the EOI where it reaches the end (R172). -/
theorem execCellMkins_fires (h : s.CellReady c n 0x58 k) (hg : k.go = false) (ho : k.Offers m) (hr : k.pk.length + m ≤ 8)
    (hm : k.st.toNat + m ≤ wImm k.word) :
    ∃ t, execCellMkins c n s = .next t ∧ s.Fired t c n { k.fired m ((k.tups m).map (·.a)) with
      st := BitVec.ofNat 32 (k.st.toNat + m), go := k.st.toNat + m == wImm k.word, lastIns := false } 0 := by
  have hf := State.tryFire_mkins (lim := wImm k.word - k.st.toNat) (room := fits) h hg ho (by omega) (by simpa [fits] using hr)
  refine ⟨_, ?_, State.fired_put0 s c n _⟩
  simp only [execCellMkins, h.1, hg, Bool.and_false, Bool.false_and, Bool.false_eq_true, if_false, hf, Cell.tups_length]
  rfl

/-- A conversion of at most max(1, 4u/s) elements whose results fit the packer fires (R163). -/
theorem execCellCvt_fires (h : s.CellReady c n 0x40 k) (ho : k.Offers m)
    (hm : m * (wTy k.word).count ≤ 4 * (cvtDst k.word).1.count ∨ m = 1)
    (hr : k.pk.length + (k.idx % (cvtDst k.word).1.count + m * (wTy k.word).count) / (cvtDst k.word).1.count ≤ 8) {r : CvtRun}
    (hres : r = ((k.tups m).map (fun u => (wTy k.word).subs u.a)).flatten.foldl
      (cvtValue k.word (wAux k.word && (s.ctx c).fab.routed (.aux n))) ⟨[], k.st, k.idx, 0, []⟩) :
    ∃ t, execCellCvt c n s = .next t ∧ s.Fired t c n { k.fired m r.out with st := r.st, idx := r.idx, held := r.toks } r.flags := by
  have hlim : m ≤ max 1 (4 * (cvtDst k.word).1.count / (wTy k.word).count) := by
    rcases hm with hm | rfl
    · exact le_max_of_le_right ((Nat.le_div_iff_mul_le (ElTy.count_pos _)).mpr hm)
    · exact le_max_left _ _
  have hf := State.tryFire_go (room := fun k m => decide (k.pk.length + (k.idx % (cvtDst k.word).1.count + m * (wTy k.word).count)
    / (cvtDst k.word).1.count ≤ 8)) h ho (by decide) hlim (decide_eq_true hr)
  subst hres
  refine ⟨_, ?_, State.fired_put s c n _ _⟩
  simp only [execCellCvt, h.1, hf, Cell.tups_length]
  rfl

/-- What MERGE reads of its two queues goes to out; nothing else is touched (R167). -/
theorem execCellMerge_fires {q : Nat} (hcell : (s.ctx c).fab.cell? n = some k) (hop : wOp k.word = 0x51) (hact : (s.ctx c).active? = true)
    (hopen : s.isOpen (s.ctx c).ten.toNat = true) (hdem : (s.ctx c).fab.canClose (.out n) 1 = true) (hturn : s.turn c n = true)
    (hq : q = (if (k.queue (wQA k.word)).marker?.isSome then wQB k.word else wQA k.word)) (hne : (k.queue q).els ≠ [])
    (hr : k.pk.length + ((k.queue q).els.take 4).length ≤ 8) :
    ∃ t, execCellMerge c n s = .next t
      ∧ s.Fired t c n { k.popQs [q] ((k.queue q).els.take 4).length with pk := k.pk ++ (k.queue q).els.take 4 } 0 := by
  have hfit : fits k ((k.queue q).els.take 4).length = true := by simpa [fits] using hr
  have hsome : ((k.queue q).els.take 4).isEmpty = false := by simp [hne]
  refine ⟨_, ?_, State.fired_put0 s c n _⟩
  simp only [execCellMerge, hcell, hop, hact, hopen, hdem, hturn, ← hq, hfit, hsome, bne_self_eq_false, Bool.not_true, Bool.or_false, Bool.false_eq_true,
    if_false]
  rfl

/-- Elements picked by their index are the elements of the list picked in place. -/
theorem map_filter_range_getD {α β : Type} (l : List α) (d : α) (p : α → Bool) (f : α → β) :
    ((List.range l.length).filter (fun i => p (l.getD i d))).map (fun i => f (l.getD i d)) = (l.filter p).map f := by
  have hl : (List.range l.length).map (fun i => l.getD i d) = l := by
    apply List.ext_getElem (by simp)
    intro i h1 h2
    simp [List.getElem?_eq_getElem h2]
  conv_rhs => rw [← hl, List.filter_map, List.map_map]
  rfl

/-- A cell that sends its elements to out and to aux fires where both have room and a routed aux has demand (R168, R169). -/
theorem State.fireSplit_go {op : Nat} {dest : Tup → Nat → Bool × Bool} (h : s.CellReady c n op k) (ho : k.Offers m) (hop : op ≠ 0x58)
    (hr : k.pk.length + m ≤ 8) (ha : k.apk.length + m ≤ 8)
    (hd : (wAux k.word && (s.ctx c).fab.routed (.aux n)) = false ∨ (s.ctx c).fab.canClose (.aux n) 1 = true) :
    ∃ t, s.fireSplit c n op dest = .next t ∧ s.Fired t c n { k.popQs (wQueues k.word) m with
      pk := k.pk ++ ((List.range m).filter (fun i => (dest ((k.tups m).getD i ⟨0, 0, 0, true⟩) (k.st.toNat + i)).1)).map
        (fun i => ((k.tups m).getD i ⟨0, 0, 0, true⟩).a)
      apk := if wAux k.word then k.apk ++ ((List.range m).filter (fun i => (dest ((k.tups m).getD i ⟨0, 0, 0, true⟩) (k.st.toNat + i)).2)).map
        (fun i => ((k.tups m).getD i ⟨0, 0, 0, true⟩).a) else []
      st := if op == 0x52 then BitVec.ofNat 32 ((k.st.toNat + m) % 2) else 0 } 0 := by
  have hroom : (decide (k.pk.length + m ≤ 8) && decide (k.apk.length + m ≤ 8)
      && (!(wAux k.word && (s.ctx c).fab.routed (.aux n)) || (s.ctx c).fab.canClose (.aux n) 1)) = true := by
    rcases hd with hd | hd <;> simp [hr, ha, hd]
  have hf := State.tryFire_go (lim := 4) (room := fun k m => decide (k.pk.length + m ≤ 8) && decide (k.apk.length + m ≤ 8)
    && (!(wAux k.word && (s.ctx c).fab.routed (.aux n)) || (s.ctx c).fab.canClose (.aux n) 1)) h ho hop (headsOf_le ho) hroom
  refine ⟨_, ?_, State.fired_put0 s c n _⟩
  simp only [State.fireSplit, hf, Cell.tups_length, List.filter_map, List.map_map, Function.comp_def]
  rfl

/-- DUP, GATE and STEER: the cells whose choice of out and aux does not look at an element's index (R168, R169). -/
theorem State.fireSplit_byElement {op : Nat} {p r : Tup → Bool} (h : s.CellReady c n op k) (ho : k.Offers m) (hop : op ≠ 0x58)
    (h52 : (op == 0x52) = false) (hr : k.pk.length + m ≤ 8) (ha : k.apk.length + m ≤ 8)
    (hd : (wAux k.word && (s.ctx c).fab.routed (.aux n)) = false ∨ (s.ctx c).fab.canClose (.aux n) 1 = true) :
    ∃ t, s.fireSplit c n op (fun u _ => (p u, r u)) = .next t ∧ s.Fired t c n { k.popQs (wQueues k.word) m with
      pk := k.pk ++ ((k.tups m).filter p).map (·.a)
      apk := if wAux k.word then k.apk ++ ((k.tups m).filter r).map (·.a) else []
      st := 0 } 0 := by
  obtain ⟨t, he, hfd⟩ := State.fireSplit_go (dest := fun u _ => (p u, r u)) h ho hop hr ha hd
  have hsel (p : Tup → Bool) : ((List.range m).filter (fun i => p ((k.tups m).getD i ⟨0, 0, 0, true⟩))).map
      (fun i => ((k.tups m).getD i ⟨0, 0, 0, true⟩).a) = ((k.tups m).filter p).map (·.a) := by
    have := map_filter_range_getD (k.tups m) ⟨0, 0, 0, true⟩ p (·.a)
    rwa [Cell.tups_length] at this
  refine ⟨t, he, ?_⟩
  simpa only [hsel, h52, Bool.false_eq_true, if_false] using hfd

end Ready

/-! ### Integer conversions (R46) -/

/-- The sign and magnitude of an integer make the integer. -/
theorem ite_neg_natAbs (v : Int) : (if v < 0 then -(v.natAbs : Int) else v.natAbs) = v := by split <;> omega

theorem satInt_fst (w : Nat) (sg : Bool) (v : Int) (inx : Bool) :
    (satInt w sg v inx).1 = intPat w (if intMax w sg < v then intMax w sg else if v < intMin w sg then intMin w sg else v) := by
  unfold satInt
  split
  · rfl
  · split <;> rfl

theorem convert_int_fst (r : Round) (w v : Nat) (sg dg : Bool) (x : Nat) : (convert r (.int w sg) (.int v dg) x).1
    = intPat v (if intMax v dg < patInt w sg x then intMax v dg else if patInt w sg x < intMin v dg then intMin v dg else patInt w sg x) := by
  rw [← satInt_fst v dg (patInt w sg x) false]
  have hs := ite_neg_natAbs (patInt w sg x)
  simp only [convert, NumFmt.val, convertVal, roundAt, le_refl, if_true, sub_self, Int.toNat_zero, pow_zero, mul_one, decide_eq_true_eq, hs]

/-- Settles O18: each cell by the lemma about its firing, and a conversion by its value, which is exact before it saturates. -/
theorem streamCellsFire : Obligations.StreamCellsFire := by
  unfold Obligations.StreamCellsFire
  refine ⟨fun s c n k m ho hr => ⟨fun h => execCellConst_fires h ho hr, fun h => execCellSink_fires h ho, fun h ha hd => ?_, ?_,
    fun h hg hm => execCellMkins_fires h hg ho hr hm, fun h hm hroom r hres => execCellCvt_fires h ho hm hroom hres⟩, ?_, ?_⟩
  · exact State.fireSplit_go (dest := fun _ i => (i % 2 == 0, i % 2 == 1)) h ho (by decide) hr ha hd
  · intro e he h ha hd
    simp only [List.mem_cons, List.not_mem_nil, or_false] at he
    rcases he with rfl | rfl | rfl
    case inl => exact State.fireSplit_byElement (p := fun _ => true) (r := fun _ => true) h ho (by decide) rfl hr ha hd
    case inr.inl => exact State.fireSplit_byElement (p := fun u => u.b.getLsbD 0) (r := fun _ => false) h ho (by decide) rfl hr ha hd
    case inr.inr => exact State.fireSplit_byElement (p := fun u => u.b.getLsbD 0) (r := fun u => !u.b.getLsbD 0) h ho (by decide) rfl hr ha hd
  · intro s c n k q hcell hop hact hopen hdem hturn hq hne hr
    obtain ⟨t, he, honly, hctx⟩ := execCellMerge_fires hcell hop hact hopen hdem hturn hq hne hr
    exact ⟨t, he, honly, hctx⟩
  · exact fun r w v sg dg x _ _ => convert_int_fst r w v sg dg x

end Sys2Proof.Machine

/-! Rounding (R34, R38 to R41, R45): the pattern that a rounding gives is a neighbour of the exact value. -/

namespace Sys2Proof.Machine

/-! ### The rational values of the formats (R34) -/

/-- The rational value of a finite value; NaNs and infinities have none. -/
def Val.rat : Val → ℚ
  | .fin n m e => (if n then -1 else 1) * (m : ℚ) * (2 : ℚ) ^ e
  | _ => 0

/-- Is the pattern finite? -/
def Fmt.IsFin (f : Fmt) (z : Nat) : Prop := ∃ n m e, f.val z = .fin n m e

/-- The rational value of a pattern. -/
def Fmt.rat (f : Fmt) (z : Nat) : ℚ := (f.val z).rat

/-- The unit of the least values of a format: that of its subnormals, where it has them. -/
def Fmt.minExp (f : Fmt) : Int := 1 - f.bias - f.frac

theorem two_pow_pos (e : Int) : (0 : ℚ) < 2 ^ e := zpow_pos two_pos e

theorem two_pow_add (a b : Int) : (2 : ℚ) ^ (a + b) = 2 ^ a * 2 ^ b := zpow_add₀ two_ne_zero a b

theorem abs_sign (n : Bool) : |(if n then -1 else 1 : ℚ)| = 1 := by cases n <;> simp

theorem Val.abs_rat_fin (n : Bool) (m : Nat) (e : Int) : |(Val.fin n m e).rat| = m * 2 ^ e := by
  rw [Val.rat, abs_mul, abs_mul, abs_sign, one_mul, abs_of_pos (two_pow_pos e), Nat.abs_cast]

/-- The greatest exponent field of a finite pattern belongs to the greatest exponent. -/
theorem Fmt.expBits_bias (f : Fmt) : ((2 ^ f.expBits : Nat) : Int) = 2 * f.bias + 2 := by cases f <;> rfl

theorem Fmt.bias_pos (f : Fmt) : 0 < f.bias := by cases f <;> decide

theorem Fmt.signBit_eq (f : Fmt) : 2 ^ (f.width - 1) = 2 ^ f.expBits * 2 ^ f.frac := by
  rw [← pow_add, Fmt.width, Nat.add_sub_cancel, Nat.add_comm]

/-- The fields of a pattern put together from them. -/
theorem Fmt.fields (f : Fmt) (neg : Bool) {E F : Nat} (hE : E < 2 ^ f.expBits) (hF : F < 2 ^ f.frac) :
    ((f.sign neg + (E * 2 ^ f.frac + F)) / 2 ^ (f.width - 1) % 2 == 1) = neg
      ∧ (f.sign neg + (E * 2 ^ f.frac + F)) / 2 ^ f.frac % 2 ^ f.expBits = E ∧ (f.sign neg + (E * 2 ^ f.frac + F)) % 2 ^ f.frac = F := by
  have hlow : E * 2 ^ f.frac + F < 2 ^ f.expBits * 2 ^ f.frac := by
    calc E * 2 ^ f.frac + F < E * 2 ^ f.frac + 2 ^ f.frac := Nat.add_lt_add_left hF _
      _ = (E + 1) * 2 ^ f.frac := by ring
      _ ≤ 2 ^ f.expBits * 2 ^ f.frac := Nat.mul_le_mul_right _ hE
  have hs : f.sign neg = neg.toNat * (2 ^ f.expBits * 2 ^ f.frac) := by cases neg <;> simp [Fmt.sign, f.signBit_eq]
  have hpos : 0 < 2 ^ f.frac := by positivity
  refine ⟨?_, ?_, ?_⟩
  · rw [f.signBit_eq, hs, Nat.add_comm, Nat.add_mul_div_right _ _ (by positivity), Nat.div_eq_of_lt hlow]
    cases neg <;> rfl
  · rw [hs, show neg.toNat * (2 ^ f.expBits * 2 ^ f.frac) + (E * 2 ^ f.frac + F) = F + (E + 2 ^ f.expBits * neg.toNat) * 2 ^ f.frac by ring,
      Nat.add_mul_div_right _ _ hpos, Nat.div_eq_of_lt hF, Nat.zero_add, Nat.add_mul_mod_self_left, Nat.mod_eq_of_lt hE]
  · rw [hs, show neg.toNat * (2 ^ f.expBits * 2 ^ f.frac) + (E * 2 ^ f.frac + F) = F + (E + 2 ^ f.expBits * neg.toNat) * 2 ^ f.frac by ring,
      Nat.add_mul_mod_self_right, Nat.mod_eq_of_lt hF]

/-- The value of a normal pattern. -/
theorem Fmt.val_normal (f : Fmt) (neg : Bool) {E F : Nat} (h0 : E ≠ 0) (hE : E + 1 < 2 ^ f.expBits) (hF : F < 2 ^ f.frac) :
    f.val (f.sign neg + (E * 2 ^ f.frac + F)) = .fin neg (2 ^ f.frac + F) ((E : Int) - f.bias - f.frac) := by
  obtain ⟨hs, he, hf⟩ := f.fields neg (by omega : E < 2 ^ f.expBits) hF
  have h1 : (E == 2 ^ f.expBits - 1) = false := by simp only [beq_eq_false_iff_ne]; omega
  have h2 : (E == 0) = false := by simpa using h0
  simp only [Fmt.val, hs, he, hf, h1, h2, Bool.false_eq_true, if_false]

/-- The value of a pattern with exponent field 0. -/
theorem Fmt.val_subnormal (f : Fmt) (neg : Bool) {F : Nat} (hF : F < 2 ^ f.frac) :
    f.val (f.sign neg + F) = .fin neg (if f = .bf16 then 0 else F) f.minExp := by
  obtain ⟨hs, he, hf⟩ := f.fields neg (by positivity : 0 < 2 ^ f.expBits) hF
  rw [Nat.zero_mul, Nat.zero_add] at hs he hf
  have h1 : (0 == 2 ^ f.expBits - 1) = false := by cases f <;> rfl
  simp only [Fmt.val, hs, he, hf, h1, Bool.false_eq_true, if_false, beq_self_eq_true, if_true, beq_iff_eq, Fmt.minExp]

theorem Fmt.val_sign (f : Fmt) (neg : Bool) : f.val (f.sign neg) = .fin neg 0 f.minExp := by
  simpa using f.val_subnormal neg (F := 0) (by positivity)

/-- The finite values of a format: at most frac + 1 significant bits, and an exponent in its range. -/
theorem Fmt.val_fin_bounds {f : Fmt} {z : Nat} {n : Bool} {m : Nat} {e : Int} (h : f.val z = .fin n m e) :
    m < 2 ^ (f.frac + 1) ∧ f.minExp ≤ e ∧ e ≤ f.bias - f.frac := by
  have hF : z % 2 ^ f.frac < 2 ^ f.frac := Nat.mod_lt _ (by positivity)
  have hE : z / 2 ^ f.frac % 2 ^ f.expBits < 2 ^ f.expBits := Nat.mod_lt _ (by positivity)
  have hb := f.expBits_bias
  have hp := f.bias_pos
  have h2 : 2 ^ (f.frac + 1) = 2 ^ f.frac + 2 ^ f.frac := by ring
  simp only [Fmt.val, beq_iff_eq] at h
  split at h
  · split at h <;> cases h
  · split at h
    · cases h
      refine ⟨?_, le_refl _, by omega⟩
      split <;> omega
    · cases h
      exact ⟨by omega, by rw [Fmt.minExp]; omega, by omega⟩

/-! ### Rounding to a multiple of a unit (R38) -/

/-- The modes that round a magnitude down, towards zero. -/
def Round.Down (mode : Round) (neg : Bool) : Prop := mode = .rtz ∨ (mode = .rup ∧ neg = true) ∨ (mode = .rdn ∧ neg = false)

/-- The modes that round a magnitude up, away from zero. -/
def Round.Up (mode : Round) (neg : Bool) : Prop := (mode = .rup ∧ neg = false) ∨ (mode = .rdn ∧ neg = true)

/-- Naturals less than 1 apart are equal. -/
theorem eq_of_abs_cast_sub_lt_one {a b : Nat} (h : |(a : ℚ) - b| < 1) : a = b := by
  have hz : |(a : Int) - b| < 1 := by exact_mod_cast h
  rw [abs_lt] at hz
  omega

/-- n is the magnitude y, of sign neg, rounded to an integer in a mode. -/
structure RoundedTo (mode : Round) (neg : Bool) (y : ℚ) (n : Nat) : Prop where
  near : |(n : ℚ) - y| < 1
  nearest : mode = .rne → |(n : ℚ) - y| ≤ 1 / 2
  even : mode = .rne → |(n : ℚ) - y| = 1 / 2 → n % 2 = 0
  down : mode.Down neg → (n : ℚ) ≤ y
  up : mode.Up neg → y ≤ n

theorem RoundedTo.exact (mode : Round) (neg : Bool) (n : Nat) : RoundedTo mode neg n n := by constructor <;> simp

/-- The integer part stays where the mode allows the fraction t to be dropped. -/
theorem RoundedTo.keep {mode : Round} {neg : Bool} {q : Nat} {t : ℚ} (h0 : 0 ≤ t) (h1 : t < 1)
    (hrne : mode = .rne → t ≤ 1 / 2 ∧ (t = 1 / 2 → q % 2 = 0)) (hup : mode.Up neg → t = 0) : RoundedTo mode neg (q + t) q := by
  have hd : |(q : ℚ) - (q + t)| = t := by rw [sub_add_cancel_left, abs_neg, abs_of_nonneg h0]
  exact ⟨by rwa [hd], fun h => by rw [hd]; exact (hrne h).1, fun h => by rw [hd]; exact (hrne h).2, fun _ => by linarith,
    fun h => by rw [hup h, add_zero]⟩

/-- The next integer is taken where the mode does not allow the fraction t to be dropped. -/
theorem RoundedTo.next {mode : Round} {neg : Bool} {q : Nat} {t : ℚ} (h0 : 0 < t) (h1 : t < 1)
    (hrne : mode = .rne → 1 / 2 ≤ t ∧ (t = 1 / 2 → q % 2 = 1)) (hdown : ¬mode.Down neg) : RoundedTo mode neg (q + t) (q + 1) := by
  have hd : |((q + 1 : Nat) : ℚ) - (q + t)| = 1 - t := by
    rw [Nat.cast_add, Nat.cast_one, add_sub_add_left_eq_sub, abs_of_pos (by linarith)]
  refine ⟨by linarith, fun h => by linarith [(hrne h).1], fun h ht => ?_, fun h => absurd h hdown, fun _ => by push_cast; linarith⟩
  have := (hrne h).2 (by linarith)
  omega

/-- The quotient of a division by the unit, one more where the mode rounds up, is the rounded value. -/
theorem roundedTo_div (mode : Round) (neg : Bool) (m unit : Nat) (hu : 0 < unit) :
    RoundedTo mode neg (m / unit : ℚ) (if roundsUp mode neg (m / unit) (m % unit) unit then m / unit + 1 else m / unit) := by
  have huq : (0 : ℚ) < unit := by exact_mod_cast hu
  have hy : (m / unit : ℚ) = (m / unit : Nat) + (m % unit : Nat) / (unit : ℚ) := by
    have hm : (m : ℚ) = unit * (m / unit : Nat) + (m % unit : Nat) := by exact_mod_cast (Nat.div_add_mod m unit).symm
    rw [hm, add_div, mul_div_cancel_left₀ _ huq.ne']
  have hr : m % unit < unit := Nat.mod_lt _ hu
  rw [hy]
  generalize m / unit = q at *
  generalize m % unit = r at *
  have h0 : 0 ≤ (r : ℚ) / unit := by positivity
  have h1 : (r : ℚ) / unit < 1 := by rw [div_lt_one huq]; exact_mod_cast hr
  have hle : (r : ℚ) / unit ≤ 1 / 2 ↔ 2 * r ≤ unit := by rw [div_le_div_iff₀ huq two_pos]; norm_cast; omega
  have hge : 1 / 2 ≤ (r : ℚ) / unit ↔ unit ≤ 2 * r := by rw [div_le_div_iff₀ two_pos huq]; norm_cast; omega
  have heq : (r : ℚ) / unit = 1 / 2 ↔ 2 * r = unit := by rw [le_antisymm_iff, hle, hge]; omega
  have hzero : (r : ℚ) / unit = 0 ↔ r = 0 := by simp [huq.ne']
  split
  case isTrue hup =>
    refine RoundedTo.next (lt_of_le_of_ne h0 fun h => ?_) h1 (fun hm => ?_) fun hd => ?_
    · obtain rfl := hzero.mp h.symm
      cases mode <;> simp [roundsUp] at hup
      omega
    · subst hm
      simp only [roundsUp, gt_iff_lt, Bool.or_eq_true, decide_eq_true_eq, Bool.and_eq_true, beq_iff_eq] at hup
      rw [hge, heq]
      omega
    · obtain rfl | ⟨rfl, rfl⟩ | ⟨rfl, rfl⟩ := hd <;> simp [roundsUp] at hup
  case isFalse hup =>
    refine RoundedTo.keep h0 h1 (fun hm => ?_) fun hu => ?_
    · subst hm
      simp only [roundsUp, gt_iff_lt, Bool.or_eq_true, decide_eq_true_eq, Bool.and_eq_true, beq_iff_eq] at hup
      rw [hle, heq]
      omega
    · rw [hzero]
      obtain ⟨rfl, rfl⟩ | ⟨rfl, rfl⟩ := hu <;> simpa [roundsUp] using hup

/-- roundAt rounds the magnitude in units of 2^q, and says whether it is exact. -/
theorem roundAt_spec (mode : Round) (neg : Bool) (m : Nat) (e q : Int) :
    RoundedTo mode neg (m * 2 ^ (e - q)) (roundAt mode neg m e q).1
      ∧ ((roundAt mode neg m e q).2 = false ↔ ((roundAt mode neg m e q).1 : ℚ) = m * 2 ^ (e - q)) := by
  by_cases h : q ≤ e
  case pos =>
    have hy : (m : ℚ) * 2 ^ (e - q) = ((m * 2 ^ (e - q).toNat : Nat) : ℚ) := by
      push_cast
      rw [← zpow_natCast, Int.toNat_of_nonneg (by omega)]
    rw [hy]
    simp only [roundAt, h, if_true]
    exact ⟨RoundedTo.exact mode neg _, by simp⟩
  case neg =>
    have hy : (m : ℚ) * 2 ^ (e - q) = m / ((2 ^ (q - e).toNat : Nat) : ℚ) := by
      rw [show e - q = -(((q - e).toNat : Nat) : Int) by omega, zpow_neg, zpow_natCast, div_eq_mul_inv]
      push_cast
      rfl
    have hspec := roundedTo_div mode neg m (2 ^ (q - e).toNat) (by positivity)
    rw [hy]
    simp only [roundAt, h, if_false]
    refine ⟨hspec, ?_⟩
    generalize (if roundsUp _ _ _ _ _ then _ else _) = n at hspec
    have hu : ((2 ^ (q - e).toNat : Nat) : ℚ) ≠ 0 := by positivity
    simp only [bne_eq_false_iff_eq, ← Nat.dvd_iff_mod_eq_zero]
    constructor
    · rintro ⟨k, rfl⟩
      have hk := hspec.near
      rw [Nat.cast_mul, mul_div_cancel_left₀ _ hu] at hk ⊢
      exact congrArg Nat.cast (eq_of_abs_cast_sub_lt_one hk)
    · intro hn
      rw [eq_div_iff hu] at hn
      exact ⟨n, by rw [mul_comm]; exact_mod_cast hn.symm⟩

/-! ### A rounded multiple of a unit is a neighbour in the format (R38) -/

/-- The pattern r is the neighbour of x in the format that the mode takes (R38). -/
structure Fmt.Neighbour (f : Fmt) (mode : Round) (x : ℚ) (r : Nat) : Prop where
  rne : mode = .rne → (∀ z, f.IsFin z → |f.rat r - x| ≤ |f.rat z - x|)
    ∧ ∀ z, f.IsFin z → f.rat z ≠ f.rat r → |f.rat z - x| = |f.rat r - x| → r % 2 = 0
  rtz : mode = .rtz → |f.rat r| ≤ |x| ∧ ∀ z, f.IsFin z → |f.rat z| ≤ |x| → |f.rat z| ≤ |f.rat r|
  rup : mode = .rup → x ≤ f.rat r ∧ ∀ z, f.IsFin z → x ≤ f.rat z → f.rat r ≤ f.rat z
  rdn : mode = .rdn → f.rat r ≤ x ∧ ∀ z, f.IsFin z → f.rat z ≤ x → f.rat z ≤ f.rat r

/-- The sign of a magnitude. -/
def sgnQ (neg : Bool) : ℚ := if neg then -1 else 1

/-- v lies on the grid of the integers, or below a point b of the grid that the magnitude y has reached. -/
def OnGrid (y v : ℚ) : Prop := (∃ k : Int, v = k) ∨ ∃ b : Nat, (b : ℚ) ≤ y ∧ |v| < b

theorem OnGrid.neg {y v : ℚ} (h : OnGrid y v) : OnGrid y (-v) := by
  obtain ⟨k, rfl⟩ | ⟨b, hb, hv⟩ := h
  · exact .inl ⟨-k, by push_cast; rfl⟩
  · exact .inr ⟨b, hb, by rwa [abs_neg]⟩

section Grid
variable {mode : Round} {neg : Bool} {y v : ℚ} {n : Nat}

/-- No integer is nearer than the one to which RNE rounds, and where one is as near, it has rounded to the even one. -/
theorem RoundedTo.rne_int (h : RoundedTo .rne neg y n) {k : Int} (hk : k ≠ n) : |(n : ℚ) - y| ≤ |k - y| ∧ (|(k : ℚ) - y| = |n - y| → n % 2 = 0) := by
  have hnear := h.nearest rfl
  have hdist : 1 ≤ |(k : ℚ) - n| := by exact_mod_cast Int.one_le_abs (sub_ne_zero.mpr hk)
  have htri : |(k : ℚ) - n| ≤ |k - y| + |n - y| := by
    rw [abs_sub_comm (n : ℚ) y]
    exact abs_sub_le _ _ _
  exact ⟨by linarith, fun he => h.even rfl (by linarith)⟩

theorem RoundedTo.rne_grid (h : RoundedTo .rne neg y n) (hv : OnGrid y v) :
    |(n : ℚ) - y| ≤ |v - y| ∧ (v ≠ n → |v - y| = |n - y| → n % 2 = 0) := by
  obtain ⟨k, rfl⟩ | ⟨b, hb, hv⟩ := hv
  · by_cases hk : k = n
    · subst hk
      exact ⟨le_refl _, fun hne => absurd rfl hne⟩
    · exact ⟨(h.rne_int hk).1, fun _ => (h.rne_int hk).2⟩
  · have hlt : |(b : ℚ) - y| < |v - y| := by
      rw [abs_sub_comm, abs_of_nonneg (sub_nonneg.mpr hb), abs_sub_comm, abs_of_nonneg (by linarith [le_abs_self v])]
      linarith [le_abs_self v]
    have hle : |(n : ℚ) - y| ≤ |b - y| := by
      by_cases hk : (b : Int) = n
      · rw [Int.ofNat_inj.mp hk]
      · exact (h.rne_int hk).1
    exact ⟨by linarith, fun _ he => by linarith⟩

/-- A point of the grid that is not above y is not above the integer to which y is rounded. -/
theorem RoundedTo.grid_le (h : RoundedTo mode neg y n) (hv : OnGrid y v) (hle : v ≤ y) : v ≤ n := by
  have hn := (abs_lt.mp h.near).1
  obtain ⟨k, rfl⟩ | ⟨b, hb, hv⟩ := hv
  · have hk : k < n + 1 := by exact_mod_cast (by linarith : (k : ℚ) < n + 1)
    exact_mod_cast Int.lt_add_one_iff.mp hk
  · have hb : b < n + 1 := by exact_mod_cast (by linarith : (b : ℚ) < n + 1)
    have hb : (b : ℚ) ≤ n := by exact_mod_cast Nat.lt_add_one_iff.mp hb
    linarith [le_abs_self v]

/-- A point of the grid that is not below y is not below the integer to which y is rounded. -/
theorem RoundedTo.le_grid (h : RoundedTo mode neg y n) (hv : OnGrid y v) (hle : y ≤ v) : n ≤ v := by
  have hn := (abs_lt.mp h.near).2
  obtain ⟨k, rfl⟩ | ⟨b, hb, hv⟩ := hv
  · have hk : n < k + 1 := by exact_mod_cast (by linarith : (n : ℚ) < k + 1)
    exact_mod_cast Int.lt_add_one_iff.mp hk
  · linarith [le_abs_self v]

theorem OnGrid.abs (h : OnGrid y v) : OnGrid y |v| := by
  obtain hv | hv := abs_choice v <;> rw [hv]
  · exact h
  · exact h.neg

end Grid

theorem sgnQ_mul_self (neg : Bool) : sgnQ neg * sgnQ neg = 1 := by cases neg <;> norm_num [sgnQ]

theorem abs_sgnQ_mul {u : ℚ} (hu : 0 < u) (neg : Bool) (a : ℚ) : |sgnQ neg * a * u| = |a| * u := by
  rw [abs_mul, abs_mul, sgnQ, abs_sign, one_mul, abs_of_pos hu]

theorem abs_sgnQ_mul_sub {u : ℚ} (hu : 0 < u) (neg : Bool) (a b : ℚ) : |sgnQ neg * a * u - sgnQ neg * b * u| = |a - b| * u := by
  rw [← abs_sgnQ_mul hu neg]
  congr 1
  ring

/-- Of the points of a grid of units u that are not below a value, RUP takes the least. -/
theorem RoundedTo.rup_units {neg : Bool} {y u : ℚ} {n : Nat} (hu : 0 < u) (h : RoundedTo .rup neg y n) : sgnQ neg * y * u ≤ sgnQ neg * n * u
    ∧ ∀ v, OnGrid y v → sgnQ neg * y * u ≤ sgnQ neg * v * u → sgnQ neg * n * u ≤ sgnQ neg * v * u := by
  cases neg <;> simp only [sgnQ, Bool.false_eq_true, if_false, if_true, one_mul, neg_mul, neg_le_neg_iff, mul_le_mul_iff_left₀ hu]
  · exact ⟨h.up (.inl ⟨rfl, rfl⟩), fun v hv => h.le_grid hv⟩
  · exact ⟨h.down (.inr (.inl ⟨rfl, rfl⟩)), fun v hv => h.grid_le hv⟩

/-- Of the points of a grid of units u that are not above a value, RDN takes the greatest. -/
theorem RoundedTo.rdn_units {neg : Bool} {y u : ℚ} {n : Nat} (hu : 0 < u) (h : RoundedTo .rdn neg y n) : sgnQ neg * n * u ≤ sgnQ neg * y * u
    ∧ ∀ v, OnGrid y v → sgnQ neg * v * u ≤ sgnQ neg * y * u → sgnQ neg * v * u ≤ sgnQ neg * n * u := by
  cases neg <;> simp only [sgnQ, Bool.false_eq_true, if_false, if_true, one_mul, neg_mul, neg_le_neg_iff, mul_le_mul_iff_left₀ hu]
  · exact ⟨h.down (.inr (.inr ⟨rfl, rfl⟩)), fun v hv => h.grid_le hv⟩
  · exact ⟨h.up (.inr ⟨rfl, rfl⟩), fun v hv => h.le_grid hv⟩

/-- A pattern that stands for a rounded number of units u is the neighbour, where every finite value of the format lies on the units' grid. -/
theorem Fmt.neighbour_of_grid {f : Fmt} {mode : Round} {neg : Bool} {y u : ℚ} {n r : Nat} (hu : 0 < u) (hy : 0 ≤ y) (h : RoundedTo mode neg y n)
    (hr : f.rat r = sgnQ neg * n * u) (hpar : r % 2 = n % 2) (hgrid : ∀ z, f.IsFin z → OnGrid y (f.rat z / u)) :
    f.Neighbour mode (sgnQ neg * y * u) r := by
  have hgrid' (z : Nat) (hz : f.IsFin z) : ∃ v, OnGrid y v ∧ f.rat z = sgnQ neg * v * u := by
    refine ⟨sgnQ neg * (f.rat z / u), ?_, ?_⟩
    · cases neg
      · simpa [sgnQ] using hgrid z hz
      · simpa [sgnQ] using (hgrid z hz).neg
    · rw [← mul_assoc, sgnQ_mul_self, one_mul, div_mul_cancel₀ _ hu.ne']
  constructor
  case rne =>
    rintro rfl
    refine ⟨fun z hz => ?_, fun z hz hne heq => ?_⟩ <;> obtain ⟨v, hv, hzv⟩ := hgrid' z hz
    · rw [hr, hzv, abs_sgnQ_mul_sub hu, abs_sgnQ_mul_sub hu]
      exact mul_le_mul_of_nonneg_right (h.rne_grid hv).1 hu.le
    · rw [hr, hzv] at hne
      rw [hr, hzv, abs_sgnQ_mul_sub hu, abs_sgnQ_mul_sub hu] at heq
      rw [hpar]
      exact (h.rne_grid hv).2 (fun hvn => hne (by rw [hvn])) (mul_right_cancel₀ hu.ne' heq)
  case rtz =>
    intro hm
    have hny := h.down (.inl hm)
    rw [hr, abs_sgnQ_mul hu, abs_sgnQ_mul hu, Nat.abs_cast, abs_of_nonneg hy]
    refine ⟨mul_le_mul_of_nonneg_right hny hu.le, fun z hz hle => ?_⟩
    obtain ⟨v, hv, hzv⟩ := hgrid' z hz
    rw [hzv, abs_sgnQ_mul hu] at hle ⊢
    exact mul_le_mul_of_nonneg_right (h.grid_le hv.abs (le_of_mul_le_mul_right hle hu)) hu.le
  case rup =>
    rintro rfl
    obtain ⟨hle, hleast⟩ := h.rup_units hu
    rw [hr]
    refine ⟨hle, fun z hz => ?_⟩
    obtain ⟨v, hv, hzv⟩ := hgrid' z hz
    exact hzv ▸ hleast v hv
  case rdn =>
    rintro rfl
    obtain ⟨hle, hgreatest⟩ := h.rdn_units hu
    rw [hr]
    refine ⟨hle, fun z hz => ?_⟩
    obtain ⟨v, hv, hzv⟩ := hgrid' z hz
    exact hzv ▸ hgreatest v hv

/-! ### The patterns that a rounding makes (R34, R39, R41) -/

/-- The finite values of a format lie on the grid of the units 2^q: where these are no more than the least of the format, and below magnitudes
with all significant bits. -/
theorem Fmt.onGrid {f : Fmt} {z : Nat} {q : Int} {y : ℚ} (hz : f.IsFin z) (h : q ≤ f.minExp ∨ (2 ^ f.frac : ℚ) ≤ y) :
    OnGrid y (f.rat z / 2 ^ q) := by
  obtain ⟨n, m, e, hv⟩ := hz
  obtain ⟨hm, he, -⟩ := Fmt.val_fin_bounds hv
  have hrat : f.rat z / 2 ^ q = sgnQ n * m * 2 ^ (e - q) := by
    rw [Fmt.rat, hv, Val.rat, zpow_sub₀ two_ne_zero, mul_div_assoc, sgnQ]
  by_cases hq : q ≤ e
  · refine .inl ⟨(if n then -1 else 1) * m * 2 ^ (e - q).toNat, ?_⟩
    rw [hrat, show e - q = (((e - q).toNat : Nat) : Int) by omega, zpow_natCast, Int.toNat_natCast]
    cases n <;> simp [sgnQ]
  · have hy := h.resolve_left (by omega)
    refine .inr ⟨2 ^ f.frac, by exact_mod_cast hy, ?_⟩
    rw [hrat, abs_sgnQ_mul (two_pow_pos _), Nat.abs_cast]
    have hm' : (m : ℚ) < 2 ^ (f.frac + 1) := by exact_mod_cast hm
    have hp : (2 : ℚ) ^ (e - q) ≤ 2 ^ (-1 : Int) := zpow_le_zpow_right₀ one_le_two (by omega)
    calc (m : ℚ) * 2 ^ (e - q) < 2 ^ (f.frac + 1) * 2 ^ (e - q) := mul_lt_mul_of_pos_right hm' (two_pow_pos _)
      _ ≤ 2 ^ (f.frac + 1) * 2 ^ (-1 : Int) := mul_le_mul_of_nonneg_left hp (by positivity)
      _ = ((2 ^ f.frac : Nat) : ℚ) := by rw [pow_succ, zpow_neg_one, mul_inv_cancel_right₀ two_ne_zero]; push_cast; rfl

theorem Fmt.even_pow_frac (f : Fmt) : 2 ^ f.frac % 2 = 0 := by cases f <;> rfl

theorem Fmt.even_sign (f : Fmt) (neg : Bool) : f.sign neg % 2 = 0 := by cases f <;> cases neg <;> rfl

/-- A pattern with exponent field E, at least 1, stands for frac + 1 significant bits. -/
theorem Fmt.rat_normal (f : Fmt) (neg : Bool) {E F : Nat} (h0 : E ≠ 0) (hE : E + 1 < 2 ^ f.expBits) (hF : F < 2 ^ f.frac) :
    f.IsFin (f.sign neg + (E * 2 ^ f.frac + F))
      ∧ f.rat (f.sign neg + (E * 2 ^ f.frac + F)) = sgnQ neg * (2 ^ f.frac + F : Nat) * 2 ^ ((E : Int) - f.bias - f.frac) := by
  have hv := f.val_normal neg h0 hE hF
  exact ⟨⟨_, _, _, hv⟩, by rw [Fmt.rat, hv, Val.rat, sgnQ]⟩

/-- n subnormal units make the pattern n, or the least normal one. -/
theorem Fmt.rat_tiny (f : Fmt) (hf : f ≠ .bf16) (neg : Bool) {n : Nat} (hn : n ≤ 2 ^ f.frac) :
    f.IsFin (f.sign neg + n) ∧ f.rat (f.sign neg + n) = sgnQ neg * n * 2 ^ f.minExp := by
  obtain hlt | rfl := Nat.lt_or_eq_of_le hn
  · have hv := f.val_subnormal neg hlt
    rw [if_neg hf] at hv
    exact ⟨⟨_, _, _, hv⟩, by rw [Fmt.rat, hv, Val.rat, sgnQ]⟩
  · have h := f.rat_normal neg (E := 1) (F := 0) one_ne_zero (by cases f <;> decide) (by positivity)
    rw [Nat.one_mul, Nat.add_zero] at h
    exact h

theorem log2_of_bounds {n k : Nat} (hlo : 2 ^ k ≤ n) (hhi : n ≤ 2 ^ (k + 1)) :
    n < 2 ^ (k + 1) ∧ Nat.log2 n = k ∨ n = 2 ^ (k + 1) ∧ Nat.log2 n = k + 1 := by
  obtain hlt | rfl := Nat.lt_or_eq_of_le hhi
  · have hpos : 0 < 2 ^ k := by positivity
    exact .inl ⟨hlt, (Nat.log2_eq_iff (by omega)).mpr ⟨hlo, hlt⟩⟩
  · exact .inr ⟨rfl, Nat.log2_two_pow⟩

/-- n units of 2^q, with all significant bits and a magnitude in the range of the format, make the pattern in which the exponent field carries. -/
theorem Fmt.rat_regular (f : Fmt) (neg : Bool) {q : Int} {n : Nat} (hn : 2 ^ f.frac ≤ n) (hn' : n ≤ 2 ^ (f.frac + 1))
    (hlo : 1 - f.bias ≤ q + Nat.log2 n) (hhi : q + Nat.log2 n ≤ f.bias) {r : Nat}
    (hr : r = f.sign neg + ((q + f.frac + f.bias - 1) * 2 ^ f.frac + n).toNat) :
    f.IsFin r ∧ f.rat r = sgnQ neg * n * 2 ^ q ∧ r % 2 = n % 2 := by
  have hb := f.expBits_bias
  have heven := f.even_pow_frac
  have hs := f.even_sign neg
  have hsucc : 2 ^ (f.frac + 1) = 2 * 2 ^ f.frac := by ring
  obtain ⟨hlt, hlog⟩ | ⟨heq, hlog⟩ := log2_of_bounds hn hn'
  case inl =>
    obtain ⟨E, hE⟩ : ∃ E : Nat, (E : Int) = q + f.frac + f.bias := ⟨_, Int.toNat_of_nonneg (by omega)⟩
    obtain ⟨F, rfl⟩ := Nat.exists_eq_add_of_le hn
    have hpat : ((q + f.frac + f.bias - 1) * 2 ^ f.frac + (2 ^ f.frac + F : Nat)).toNat = E * 2 ^ f.frac + F := by
      rw [← hE, show ((E : Int) - 1) * 2 ^ f.frac + (2 ^ f.frac + F : Nat) = (E * 2 ^ f.frac + F : Nat) by push_cast; ring, Int.toNat_natCast]
    obtain ⟨hfin, hrat⟩ := f.rat_normal neg (E := E) (F := F) (by omega) (by omega) (by omega)
    rw [hr, hpat]
    refine ⟨hfin, by rw [hrat]; congr 2; omega, ?_⟩
    rw [Nat.add_mod, hs, Nat.zero_add, Nat.mod_mod, Nat.add_mod, Nat.mul_mod, heven, Nat.add_mod (2 ^ f.frac), heven]
    simp
  case inr =>
    obtain ⟨E, hE⟩ : ∃ E : Nat, (E : Int) = q + f.frac + f.bias + 1 := ⟨_, Int.toNat_of_nonneg (by omega)⟩
    have hpat : ((q + f.frac + f.bias - 1) * 2 ^ f.frac + (n : Int)).toNat = E * 2 ^ f.frac + 0 := by
      rw [heq, show ((q + f.frac + f.bias - 1) * 2 ^ f.frac + (2 ^ (f.frac + 1) : Nat) : Int) = (E * 2 ^ f.frac + 0 : Nat) by
        push_cast; rw [hE]; ring, Int.toNat_natCast]
    obtain ⟨hfin, hrat⟩ := f.rat_normal neg (E := E) (F := 0) (by omega) (by omega) (by positivity)
    rw [hr, hpat]
    refine ⟨hfin, ?_, ?_⟩
    · rw [hrat, heq, show (E : Int) - f.bias - f.frac = 1 + q by omega, two_pow_add]
      push_cast
      ring
    · rw [Nat.add_zero, Nat.add_mod, hs, Nat.mul_mod, heven, heq, hsucc]
      simp

/-! ### One rounding to a format (R39 to R41, R45) -/

/-- r stands for x rounded to the format without overflow and without being flushed, and fl are the flags that this raises (R38, R45). -/
structure Fmt.Rounded (f : Fmt) (mode : Round) (x : ℚ) (r : Nat) (fl : W32) : Prop where
  fin : f.IsFin r
  neighbour : f.Neighbour mode x r
  flags : fl = 0 ∧ f.rat r = x ∨ fl = flagNX ∧ f.rat r ≠ x ∨ fl = flagUF ||| flagNX ∧ f.rat r ≠ x ∧ f ≠ .bf16 ∧ |x| < 2 ^ (1 - f.bias)

/-- The exponent of the units in which a magnitude has all significant bits of a format. -/
def Fmt.ulpExp (f : Fmt) (m : Nat) (e : Int) : Int := e + Nat.log2 m - f.frac

/-- A magnitude in such units. -/
theorem Fmt.scaled_bounds (f : Fmt) {m : Nat} (hm : m ≠ 0) (e : Int) :
    (2 ^ f.frac : ℚ) ≤ m * 2 ^ (e - f.ulpExp m e) ∧ (m * 2 ^ (e - f.ulpExp m e) : ℚ) < 2 ^ (f.frac + 1) := by
  have hlo : ((2 ^ Nat.log2 m : Nat) : ℚ) ≤ m := by exact_mod_cast Nat.log2_self_le hm
  have hhi : (m : ℚ) < ((2 ^ (Nat.log2 m + 1) : Nat) : ℚ) := by exact_mod_cast Nat.lt_log2_self
  have hq : e - f.ulpExp m e = (f.frac : Int) + -(Nat.log2 m : Int) := by rw [Fmt.ulpExp]; ring
  have hone : (2 : ℚ) ^ Nat.log2 m * ((2 : ℚ) ^ Nat.log2 m)⁻¹ = 1 := mul_inv_cancel₀ (by positivity)
  have hpos : (0 : ℚ) < 2 ^ f.frac * (2 ^ Nat.log2 m)⁻¹ := by positivity
  push_cast at hlo hhi
  rw [hq, two_pow_add, zpow_natCast, zpow_neg, zpow_natCast]
  constructor
  · calc (2 : ℚ) ^ f.frac = 2 ^ Nat.log2 m * (2 ^ f.frac * (2 ^ Nat.log2 m)⁻¹) := by rw [mul_left_comm, hone, mul_one]
      _ ≤ m * (2 ^ f.frac * (2 ^ Nat.log2 m)⁻¹) := mul_le_mul_of_nonneg_right hlo hpos.le
  · calc (m : ℚ) * (2 ^ f.frac * (2 ^ Nat.log2 m)⁻¹) < 2 ^ (Nat.log2 m + 1) * (2 ^ f.frac * (2 ^ Nat.log2 m)⁻¹) := mul_lt_mul_of_pos_right hhi hpos
      _ = 2 ^ (f.frac + 1) * (2 ^ Nat.log2 m * (2 ^ Nat.log2 m)⁻¹) := by ring
      _ = 2 ^ (f.frac + 1) := by rw [hone, mul_one]

theorem rat_inUnits (neg : Bool) (m : Nat) (e q : Int) : (Val.fin neg m e).rat = sgnQ neg * (m * 2 ^ (e - q)) * 2 ^ q := by
  rw [Val.rat, zpow_sub₀ two_ne_zero, mul_div_assoc', mul_assoc (sgnQ neg), div_mul_cancel₀ _ (two_pow_pos q).ne', sgnQ, mul_assoc]

/-- A rounded magnitude has all significant bits, or has carried to the next power of two. -/
theorem RoundedTo.bounds {mode : Round} {neg : Bool} {y : ℚ} {n k : Nat} (h : RoundedTo mode neg y n) (hlo : (2 ^ k : ℚ) ≤ y) (hhi : y < 2 ^ (k + 1)) :
    2 ^ k ≤ n ∧ n ≤ 2 ^ (k + 1) := by
  obtain ⟨h1, h2⟩ := abs_lt.mp h.near
  constructor
  · exact Nat.lt_add_one_iff.mp (by exact_mod_cast (by linarith : (2 ^ k : ℚ) < n + 1))
  · exact Nat.lt_add_one_iff.mp (by exact_mod_cast (by linarith : (n : ℚ) < 2 ^ (k + 1) + 1))

/-- A pattern that stands for a magnitude rounded at the unit 2^q is the neighbour of the value, and exact where the rounding is. -/
theorem Fmt.neighbour_of_roundAt {f : Fmt} {mode : Round} {neg : Bool} {m : Nat} {e q : Int} {r : Nat}
    (hrat : f.rat r = sgnQ neg * (roundAt mode neg m e q).1 * 2 ^ q) (hpar : r % 2 = (roundAt mode neg m e q).1 % 2)
    (hq : q ≤ f.minExp ∨ (2 ^ f.frac : ℚ) ≤ m * 2 ^ (e - q)) :
    f.Neighbour mode (Val.fin neg m e).rat r ∧ (f.rat r = (Val.fin neg m e).rat ↔ (roundAt mode neg m e q).2 = false) := by
  obtain ⟨hspec, hexact⟩ := roundAt_spec mode neg m e q
  have hu := two_pow_pos q
  rw [rat_inUnits neg m e q]
  refine ⟨Fmt.neighbour_of_grid hu (by positivity) hspec hrat hpar fun z hz => Fmt.onGrid hz hq, ?_⟩
  have hs : sgnQ neg ≠ 0 := by cases neg <;> norm_num [sgnQ]
  rw [hexact, hrat, mul_left_inj' hu.ne', mul_right_inj' hs]

/-- The finite values of a format are less than its next power of two by at least one last place. -/
theorem Fmt.abs_rat_le {f : Fmt} {z : Nat} (hz : f.IsFin z) : |f.rat z| ≤ (2 ^ (f.frac + 1) - 1) * 2 ^ (f.bias - f.frac) := by
  obtain ⟨n, m, e, hv⟩ := hz
  obtain ⟨hm, -, he⟩ := Fmt.val_fin_bounds hv
  have hm' : (m : ℚ) ≤ 2 ^ (f.frac + 1) - 1 := le_sub_iff_add_le.mpr (by exact_mod_cast hm)
  rw [Fmt.rat, hv, Val.abs_rat_fin]
  exact mul_le_mul hm' (zpow_le_zpow_right₀ one_le_two he) (two_pow_pos e).le ((Nat.cast_nonneg m).trans hm')

/-- The three outcomes of a rounding (R38 to R41, R45): rounded, a tiny BF16 result flushed to zero, or an overflow. -/
inductive Fmt.Outcome (f : Fmt) (mode : Round) (neg : Bool) (x : ℚ) : Nat × W32 × Bool → Prop
  | rounded {r : Nat} {fl : W32} (h : f.Rounded mode x r fl) : Outcome f mode neg x (r, fl, false)
  | flushed (hf : f = .bf16) (hx : 0 < |x|) (hlt : |x| < 2 ^ (1 - f.bias)) : Outcome f mode neg x (f.sign neg, flagUF ||| flagNX, false)
  | overflow (h : ∀ z, f.IsFin z → |f.rat z| < |x|) : Outcome f mode neg x (f.overflow mode neg, flagOF ||| flagNX, true)

/-- Zero is rounded to the zero of its sign. -/
theorem Fmt.rounded_zero (f : Fmt) (mode : Round) (neg : Bool) : f.Rounded mode 0 (f.sign neg) 0 := by
  have hr : f.rat (f.sign neg) = 0 := by rw [Fmt.rat, f.val_sign, Val.rat]; simp
  refine ⟨⟨_, _, _, f.val_sign neg⟩, ?_, .inl ⟨rfl, hr⟩⟩
  constructor
  · exact fun _ => ⟨fun z _ => by simp [hr], fun z _ hne heq => absurd (by simpa [hr] using heq) (hr ▸ hne)⟩
  · exact fun _ => ⟨by simp [hr], fun z _ h => by simpa [hr] using h⟩
  · exact fun _ => ⟨hr.ge, fun z _ h => hr.le.trans h⟩
  · exact fun _ => ⟨hr.le, fun z _ h => h.trans hr.ge⟩

section Outcomes
variable {f : Fmt} {mode : Round} {neg : Bool} {m n : Nat} {e : Int}

/-- The exponent of a rounded magnitude above the format's greatest means that the value lies above every finite one. -/
theorem Fmt.lt_of_overflow (hm : m ≠ 0) (hn : RoundedTo mode neg (m * 2 ^ (e - f.ulpExp m e)) n) (htop : f.bias < f.ulpExp m e + Nat.log2 n) {z : Nat}
    (hz : f.IsFin z) : |f.rat z| < |(Val.fin neg m e).rat| := by
  obtain ⟨hlo, hhi⟩ := f.scaled_bounds hm e
  obtain ⟨hn1, hn2⟩ := hn.bounds hlo hhi
  refine (Fmt.abs_rat_le hz).trans_lt ?_
  rw [rat_inUnits neg m e (f.ulpExp m e), abs_sgnQ_mul (two_pow_pos _), abs_of_nonneg (by positivity)]
  generalize (m * 2 ^ (e - f.ulpExp m e) : ℚ) = y at *
  generalize f.ulpExp m e = q at *
  by_cases hq : f.bias - f.frac < q
  · calc ((2 : ℚ) ^ (f.frac + 1) - 1) * 2 ^ (f.bias - f.frac) < 2 ^ (f.frac + 1) * 2 ^ (f.bias - f.frac) :=
          mul_lt_mul_of_pos_right (sub_one_lt _) (two_pow_pos _)
      _ = 2 ^ f.frac * 2 ^ (f.bias - f.frac + 1) := by rw [two_pow_add]; ring
      _ ≤ 2 ^ f.frac * 2 ^ q := mul_le_mul_of_nonneg_left (zpow_le_zpow_right₀ one_le_two (by omega)) (by positivity)
      _ ≤ y * 2 ^ q := mul_le_mul_of_nonneg_right hlo (two_pow_pos q).le
  · obtain ⟨-, hlog⟩ | ⟨hcarry, hlog⟩ := log2_of_bounds hn1 hn2
    · omega
    have hqe : q = f.bias - f.frac := by omega
    subst hqe hcarry
    have := (abs_lt.mp hn.near).2
    push_cast at this
    exact mul_lt_mul_of_pos_right (by linarith) (two_pow_pos _)

/-- The exponent of a rounded magnitude below the format's least normal one means that the value is tiny. -/
theorem Fmt.lt_of_tiny (hm : m ≠ 0) (hn : RoundedTo mode neg (m * 2 ^ (e - f.ulpExp m e)) n) (htop : f.ulpExp m e + Nat.log2 n < 1 - f.bias) :
    |(Val.fin neg m e).rat| < 2 ^ (1 - f.bias) := by
  obtain ⟨hlo, hhi⟩ := f.scaled_bounds hm e
  obtain ⟨hn1, hn2⟩ := hn.bounds hlo hhi
  have hlog : f.frac ≤ Nat.log2 n := by obtain ⟨-, h⟩ | ⟨-, h⟩ := log2_of_bounds hn1 hn2 <;> omega
  rw [rat_inUnits neg m e (f.ulpExp m e), abs_sgnQ_mul (two_pow_pos _), abs_of_nonneg (by positivity)]
  calc (m * 2 ^ (e - f.ulpExp m e) : ℚ) * 2 ^ f.ulpExp m e < 2 ^ (f.frac + 1) * 2 ^ f.ulpExp m e := mul_lt_mul_of_pos_right hhi (two_pow_pos _)
    _ = 2 ^ (((f.frac + 1 : Nat) : Int) + f.ulpExp m e) := by rw [two_pow_add, zpow_natCast]
    _ ≤ 2 ^ (1 - f.bias) := zpow_le_zpow_right₀ one_le_two (by push_cast; omega)

/-- A tiny magnitude rounds to no more than the least normal one. -/
theorem Fmt.roundAt_tiny_le (h : |(Val.fin neg m e).rat| < 2 ^ (1 - f.bias)) : (roundAt mode neg m e f.minExp).1 ≤ 2 ^ f.frac := by
  have hn := (abs_lt.mp (roundAt_spec mode neg m e f.minExp).1.near).2
  rw [rat_inUnits neg m e f.minExp, abs_sgnQ_mul (two_pow_pos _), abs_of_nonneg (by positivity),
    show (1 : Int) - f.bias = (f.frac : Int) + f.minExp by rw [Fmt.minExp]; ring, two_pow_add, zpow_natCast] at h
  have hy := lt_of_mul_lt_mul_right h (two_pow_pos _).le
  exact Nat.lt_add_one_iff.mp (by exact_mod_cast (by linarith : ((roundAt mode neg m e f.minExp).1 : ℚ) < 2 ^ f.frac + 1))

end Outcomes

/-- Every rounding has one of the three outcomes. -/
theorem Fmt.round_outcome (f : Fmt) (mode : Round) (neg : Bool) (m : Nat) (e : Int) :
    f.Outcome mode neg (Val.fin neg m e).rat (f.round mode false neg m e) := by
  by_cases hm : m = 0
  · subst hm
    have h0 : (Val.fin neg 0 e).rat = 0 := by simp [Val.rat]
    rw [h0]
    exact .rounded (f.rounded_zero mode neg)
  obtain ⟨hn, -⟩ := roundAt_spec mode neg m e (f.ulpExp m e)
  obtain ⟨hlo, hhi⟩ := f.scaled_bounds hm e
  obtain ⟨hn1, hn2⟩ := hn.bounds hlo hhi
  have hulp : e + Nat.log2 m - f.frac = f.ulpExp m e := rfl
  have hmin : 1 - f.bias - f.frac = f.minExp := rfl
  simp only [Fmt.round, beq_iff_eq, hm, if_false, Bool.false_eq_true, hulp, hmin]
  split
  · next htop => exact .overflow fun z hz => Fmt.lt_of_overflow hm hn htop hz
  · next htop =>
    split
    · next hlow =>
      have hx := Fmt.lt_of_tiny hm hn hlow
      split
      · next hf => exact .flushed hf (abs_pos.mpr (by rw [← abs_pos, Val.abs_rat_fin]; positivity)) hx
      · next hf =>
        obtain ⟨hfin, hrat⟩ := f.rat_tiny hf neg (Fmt.roundAt_tiny_le (mode := mode) hx)
        have hpar : (f.sign neg + (roundAt mode neg m e f.minExp).1) % 2 = (roundAt mode neg m e f.minExp).1 % 2 := by
          rw [Nat.add_mod, f.even_sign, Nat.zero_add, Nat.mod_mod]
        obtain ⟨hnb, hexact⟩ := Fmt.neighbour_of_roundAt hrat hpar (.inl (le_refl _))
        refine .rounded ⟨hfin, hnb, ?_⟩
        cases hinx : (roundAt mode neg m e f.minExp).2
        · exact .inl ⟨rfl, hexact.mpr hinx⟩
        · exact .inr (.inr ⟨rfl, fun he => Bool.noConfusion (hinx.symm.trans (hexact.mp he)), hf, hx⟩)
    · next hlow =>
      obtain ⟨hfin, hrat, hpar⟩ := f.rat_regular neg (q := f.ulpExp m e) hn1 hn2 (by omega) (by omega) rfl
      obtain ⟨hnb, hexact⟩ := Fmt.neighbour_of_roundAt hrat hpar (.inr hlo)
      refine .rounded ⟨hfin, hnb, ?_⟩
      cases hinx : (roundAt mode neg m e (f.ulpExp m e)).2
      · exact .inl ⟨rfl, hexact.mpr hinx⟩
      · exact .inr (.inl ⟨rfl, fun he => Bool.noConfusion (hinx.symm.trans (hexact.mp he))⟩)

/-! ### What a rounding gives, as the statement says it -/

/-- A value function that gives finite values their rational value agrees with theirs. -/
theorem Val.rat_unique {q : Val → ℚ} (hq : ∀ n m e, q (.fin n m e) = (if n then -1 else 1) * (m : ℚ) * (2 : ℚ) ^ e) {f : Fmt} {z : Nat}
    (hz : f.IsFin z) : q (f.val z) = f.rat z := by
  obtain ⟨n, m, e, hv⟩ := hz
  rw [Fmt.rat, hv, hq, Val.rat]

theorem Fmt.overflow_eq (f : Fmt) (mode : Round) (neg : Bool) : f.overflow mode neg = f.sign neg
    + (if mode = .rne ∨ (mode = .rup ∧ neg = false) ∨ (mode = .rdn ∧ neg = true) then (2 ^ f.expBits - 1) * 2 ^ f.frac
        else (2 ^ f.expBits - 1) * 2 ^ f.frac - 1) := by
  cases mode <;> cases neg <;> rfl

/-- The flags of a result that is not flushed: NX tells an inexact one, UF a tiny and inexact one, which is none of BF16. -/
theorem Fmt.Rounded.flags_iff {f : Fmt} {mode : Round} {x : ℚ} {r : Nat} {fl : W32} (h : f.Rounded mode x r fl) :
    (fl &&& flagNX = 0 ↔ f.rat r = x) ∧ (fl &&& flagUF ≠ 0 → f ≠ .bf16 ∧ fl &&& flagNX ≠ 0 ∧ |x| < 2 ^ (1 - f.bias)) := by
  obtain ⟨rfl, hx⟩ | ⟨rfl, hx⟩ | ⟨rfl, hx, hf, hlt⟩ := h.flags
  · exact ⟨by simp [hx], by simp⟩
  · exact ⟨by simp [hx, flagNX], by simp [flagNX, flagUF]⟩
  · exact ⟨by simp [hx, flagNX, flagUF], fun _ => ⟨hf, by decide, hlt⟩⟩

end Sys2Proof.Machine

/-! The floating operations (R39, R41 to R44, R158): on finite operands they round their exact rational result once. -/

namespace Sys2Proof.Machine

/-! ### Exact sums, products and comparisons -/

theorem scaled_rat (neg : Bool) (m : Nat) {e q : Int} (h : q ≤ e) : (scaled neg m e q : ℚ) * 2 ^ q = (Val.fin neg m e).rat := by
  have hs : (scaled neg m e q : ℚ) = sgnQ neg * (m * 2 ^ (e - q)) := by
    rw [show (2 : ℚ) ^ (e - q) = 2 ^ (e - q).toNat by rw [← zpow_natCast, Int.toNat_of_nonneg (by omega)]]
    cases neg <;> simp [scaled, sgnQ]
  rw [hs, ← rat_inUnits]

theorem Val.rat_natAbs (s q : Int) : (Val.fin (s < 0) s.natAbs q).rat = s * 2 ^ q := by
  rw [Val.rat]
  congr 1
  by_cases h : s < 0
  · rw [← Int.cast_natCast, Int.ofNat_natAbs_of_nonpos h.le]
    simp [h]
  · rw [← Int.cast_natCast, Int.natAbs_of_nonneg (by omega)]
    simp [h]

theorem Val.rat_neg (v : Val) : v.neg.rat = -v.rat := by
  cases v with
  | fin n m e => cases n <;> simp [Val.neg, Val.rat]
  | _ => simp [Val.neg, Val.rat]

theorem Val.mul_fin (a b : Bool) (m m' : Nat) (e e' : Int) : (Val.fin a m e).mul (.fin b m' e') = (.fin (a != b) (m * m') (e + e'), 0) := rfl

theorem Val.rat_mul_fin (a b : Bool) (m m' : Nat) (e e' : Int) :
    (Val.fin (a != b) (m * m') (e + e')).rat = (Val.fin a m e).rat * (Val.fin b m' e').rat := by
  cases a <;> cases b <;> simp [Val.rat, two_pow_add] <;> ring

/-- The exact sum of two finite values is finite, and a zero has the sign of R43. -/
theorem Val.add_fin (mode : Round) (a b : Bool) (m m' : Nat) (e e' : Int) : ∃ n k q,
    (Val.fin a m e).add mode (.fin b m' e') = (.fin n k q, 0) ∧ (Val.fin n k q).rat = (Val.fin a m e).rat + (Val.fin b m' e').rat
      ∧ ((Val.fin a m e).rat + (Val.fin b m' e').rat = 0 → k = 0 ∧ n = if m = 0 ∧ m' = 0 ∧ a = b then a else mode == .rdn) := by
  have hsum : ((scaled a m e (min e e') + scaled b m' e' (min e e') : Int) : ℚ) * 2 ^ min e e' = (Val.fin a m e).rat + (Val.fin b m' e').rat := by
    rw [Int.cast_add, add_mul, scaled_rat a m (min_le_left e e'), scaled_rat b m' (min_le_right e e')]
  have hz : (Val.fin a m e).rat + (Val.fin b m' e').rat = 0 ↔ scaled a m e (min e e') + scaled b m' e' (min e e') = 0 := by
    rw [← hsum, mul_eq_zero_iff_right (two_pow_pos _).ne', Int.cast_eq_zero]
  by_cases h : scaled a m e (min e e') + scaled b m' e' (min e e') = 0
  · refine ⟨if m = 0 ∧ m' = 0 ∧ a = b then a else mode == .rdn, 0, min e e', ?_, ?_, fun _ => ⟨rfl, rfl⟩⟩
    · simp [Val.add, h, and_assoc]
    · rw [hz.mpr h]
      simp [Val.rat]
  · refine ⟨_, _, min e e', ?_, Eq.trans (Val.rat_natAbs _ _) hsum, fun h0 => absurd (hz.mp h0) h⟩
    simp [Val.add, h]

theorem Val.lt_fin (a b : Bool) (m m' : Nat) (e e' : Int) :
    (Val.fin a m e).lt (.fin b m' e') = true ↔ (Val.fin a m e).rat < (Val.fin b m' e').rat := by
  rw [← scaled_rat a m (min_le_left e e'), ← scaled_rat b m' (min_le_right e e'), mul_lt_mul_iff_left₀ (two_pow_pos _), Int.cast_lt]
  simp [Val.lt]

theorem Val.eq_fin (a b : Bool) (m m' : Nat) (e e' : Int) :
    (Val.fin a m e).eq (.fin b m' e') = true ↔ (Val.fin a m e).rat = (Val.fin b m' e').rat := by
  rw [← scaled_rat a m (min_le_left e e'), ← scaled_rat b m' (min_le_right e e'), mul_left_inj' (two_pow_pos _).ne', Int.cast_inj]
  simp [Val.eq]

/-! ### The flipped sign -/

theorem Val.neg_neg (v : Val) : v.neg.neg = v := by cases v <;> simp [Val.neg]

/-- Adding the sign bit to a pattern flips its sign and leaves its other fields. -/
theorem Fmt.val_add_signBit (f : Fmt) (y : Nat) : f.val (y + 2 ^ (f.width - 1)) = (f.val y).neg := by
  have hs : ((y + 2 ^ (f.width - 1)) / 2 ^ (f.width - 1) % 2 == 1) = !(y / 2 ^ (f.width - 1) % 2 == 1) := by
    rw [Nat.add_div_right _ (by positivity), Bool.eq_iff_iff]
    simp only [beq_iff_eq, Bool.not_eq_true', beq_eq_false_iff_ne]
    omega
  have he : (y + 2 ^ (f.width - 1)) / 2 ^ f.frac % 2 ^ f.expBits = y / 2 ^ f.frac % 2 ^ f.expBits := by
    rw [f.signBit_eq, Nat.add_mul_div_right _ _ (by positivity), Nat.add_mod_right]
  have hf : (y + 2 ^ (f.width - 1)) % 2 ^ f.frac = y % 2 ^ f.frac := by rw [f.signBit_eq, Nat.add_mul_mod_self_right]
  simp only [Fmt.val, hs, he, hf]
  split
  · split <;> rfl
  · split <;> rfl

/-- The pattern with its sign flipped stands for the negated value. -/
theorem Fmt.val_flip (f : Fmt) (x : Nat) : f.val (f.flip x) = (f.val x).neg := by
  rw [Fmt.flip]
  split
  · next h =>
    have hle : 2 ^ (f.width - 1) ≤ x := by
      by_contra hlt
      simp [Nat.div_eq_of_lt (Nat.lt_of_not_le hlt)] at h
    have hx := f.val_add_signBit (x - 2 ^ (f.width - 1))
    rw [Nat.sub_add_cancel hle] at hx
    rw [hx, Val.neg_neg]
  · exact f.val_add_signBit x

/-! ### One rounding of an exact result -/

/-- o is the pattern and the flags of one rounding of the rational number v. -/
def Fmt.RoundsOnce (f : Fmt) (mode : Round) (v : ℚ) (o : Nat × W32) : Prop :=
  ∃ neg m e ov, (Val.fin neg m e).rat = v ∧ f.round mode false neg m e = (o.1, o.2, ov)

theorem Fmt.roundVal_fin (f : Fmt) (mode : Round) (neg : Bool) (m : Nat) (e : Int) :
    f.RoundsOnce mode (Val.fin neg m e).rat (f.roundVal mode (.fin neg m e)) := ⟨neg, m, e, (f.round mode false neg m e).2.2, rfl, rfl⟩

theorem Fmt.roundVal_zero (f : Fmt) (mode : Round) (neg : Bool) (e : Int) : f.roundVal mode (.fin neg 0 e) = (f.sign neg, 0) := rfl

section Finite
variable {f : Fmt} {a b c : Nat} {n n' n'' : Bool} {m m' m'' : Nat} {e e' e'' : Int}

theorem Fmt.rat_of_val (ha : f.val a = .fin n m e) : f.rat a = (Val.fin n m e).rat := by rw [Fmt.rat, ha]

theorem Fmt.fadd_fin (mode : Round) (ha : f.val a = .fin n m e) (hb : f.val b = .fin n' m' e') :
    f.RoundsOnce mode (f.rat a + f.rat b) (f.fadd mode a b)
      ∧ (f.rat a + f.rat b = 0 → f.fadd mode a b = (f.sign (if m = 0 ∧ m' = 0 ∧ n = n' then n else mode == .rdn), 0)) := by
  obtain ⟨s, k, q, hadd, hrat, hzero⟩ := Val.add_fin mode n n' m m' e e'
  have hf : f.fadd mode a b = f.roundVal mode (.fin s k q) := by simp [Fmt.fadd, ha, hb, hadd, Val.nv]
  rw [Fmt.rat_of_val ha, Fmt.rat_of_val hb, hf, ← hrat]
  refine ⟨f.roundVal_fin mode s k q, fun h => ?_⟩
  obtain ⟨rfl, rfl⟩ := hzero (hrat.symm.trans h)
  exact f.roundVal_zero mode _ q

theorem Fmt.fsub_fin (mode : Round) (ha : f.val a = .fin n m e) (hb : f.val b = .fin n' m' e') :
    f.RoundsOnce mode (f.rat a - f.rat b) (f.fsub mode a b) := by
  have hn : f.val (f.flip b) = .fin (!n') m' e' := by rw [f.val_flip, hb, Val.neg]
  have hr : f.rat (f.flip b) = -f.rat b := by rw [Fmt.rat, f.val_flip, Val.rat_neg, Fmt.rat]
  rw [sub_eq_add_neg, ← hr]
  exact (Fmt.fadd_fin mode ha hn).1

theorem Fmt.fmul_fin (mode : Round) (ha : f.val a = .fin n m e) (hb : f.val b = .fin n' m' e') :
    f.RoundsOnce mode (f.rat a * f.rat b) (f.fmul mode a b) ∧ (f.rat a * f.rat b = 0 → f.fmul mode a b = (f.sign (n != n'), 0)) := by
  have hf : f.fmul mode a b = f.roundVal mode (.fin (n != n') (m * m') (e + e')) := by simp [Fmt.fmul, ha, hb, Val.mul_fin, Val.nv]
  rw [Fmt.rat_of_val ha, Fmt.rat_of_val hb, hf, ← Val.rat_mul_fin]
  refine ⟨f.roundVal_fin mode _ _ _, fun h => ?_⟩
  have hm : m * m' = 0 := by
    have := Val.abs_rat_fin (n != n') (m * m') (e + e')
    rw [h, abs_zero, eq_comm, mul_eq_zero_iff_right (two_pow_pos _).ne'] at this
    exact_mod_cast this
  rw [hm]
  exact f.roundVal_zero mode _ _

theorem Fmt.fusedVal_fin (f : Fmt) (mode : Round) (n n' n'' : Bool) (m m' m'' : Nat) (e e' e'' : Int) :
    f.RoundsOnce mode ((Val.fin n m e).rat * (Val.fin n' m' e').rat + (Val.fin n'' m'' e'').rat)
      (f.fusedVal mode (.fin n m e) (.fin n' m' e') (.fin n'' m'' e'')) := by
  obtain ⟨s, k, q, hadd, hrat, -⟩ := Val.add_fin mode (n != n') n'' (m * m') m'' (e + e') e''
  have hf : f.fusedVal mode (.fin n m e) (.fin n' m' e') (.fin n'' m'' e'') = f.roundVal mode (.fin s k q) := by
    simp [Fmt.fusedVal, Val.mul_fin, hadd, Val.nv]
  rw [hf, ← Val.rat_mul_fin, ← hrat]
  exact f.roundVal_fin mode s k q

theorem Fmt.fma_fin (mode : Round) (ha : f.val a = .fin n m e) (hb : f.val b = .fin n' m' e') (hc : f.val c = .fin n'' m'' e'') :
    f.RoundsOnce mode (f.rat a * f.rat b + f.rat c) (f.fma mode a b c) := by
  rw [Fmt.fma, Fmt.rat_of_val ha, Fmt.rat_of_val hb, Fmt.rat_of_val hc, ha, hb, hc]
  exact f.fusedVal_fin mode n n' n'' m m' m'' e e' e''

theorem Fmt.fms_fin (mode : Round) (ha : f.val a = .fin n m e) (hb : f.val b = .fin n' m' e') (hc : f.val c = .fin n'' m'' e'') :
    f.RoundsOnce mode (f.rat a * f.rat b - f.rat c) (f.fms mode a b c) := by
  have hneg : -(Val.fin n'' m'' e'').rat = (Val.fin (!n'') m'' e'').rat := (Val.rat_neg _).symm
  rw [Fmt.fms, Fmt.rat_of_val ha, Fmt.rat_of_val hb, Fmt.rat_of_val hc, ha, hb, hc, sub_eq_add_neg, hneg]
  exact f.fusedVal_fin mode n n' (!n'') m m' m'' e e' e''

theorem Fmt.fmin_fin (ha : f.val a = .fin n m e) (hb : f.val b = .fin n' m' e') : f.fmin a b
    = (if f.rat a < f.rat b ∨ (f.rat a = f.rat b ∧ n = true) then f.flushed a else f.flushed b, 0) := by
  rw [Fmt.rat_of_val ha, Fmt.rat_of_val hb]
  simp only [Fmt.fmin, ha, hb, Val.nv, Val.isNan, Val.isNeg, Bool.or_false, Bool.false_eq_true, if_false, Bool.or_eq_true, Bool.and_eq_true,
    Val.lt_fin, Val.eq_fin]
  split <;> rfl

theorem Fmt.fmax_fin (ha : f.val a = .fin n m e) (hb : f.val b = .fin n' m' e') : f.fmax a b
    = (if f.rat b < f.rat a ∨ (f.rat a = f.rat b ∧ n = false) then f.flushed a else f.flushed b, 0) := by
  rw [Fmt.rat_of_val ha, Fmt.rat_of_val hb]
  simp only [Fmt.fmax, ha, hb, Val.nv, Val.isNan, Val.isNeg, Bool.or_false, Bool.false_eq_true, if_false, Bool.or_eq_true, Bool.and_eq_true,
    Bool.not_eq_true', Val.lt_fin, Val.eq_fin]
  split <;> rfl

end Finite

/-! ### NaNs and infinities (R42) -/

theorem Val.nv_or_nv (x y : Val) : x.nv ||| y.nv = if x = .nan true ∨ y = .nan true then flagNV else 0 := by
  rcases x with (_ | _) | _ | _ <;> rcases y with (_ | _) | _ | _ <;> simp [Val.nv]

theorem Val.add_nan (mode : Round) {x y : Val} (h : x.isNan = true ∨ y.isNan = true) : x.add mode y = (.nan false, 0) := by
  rcases x with _ | _ | _ <;> rcases y with _ | _ | _ <;> simp [Val.isNan] at h <;> rfl

theorem Val.mul_nan {x y : Val} (h : x.isNan = true ∨ y.isNan = true) : x.mul y = (.nan false, 0) := by
  rcases x with _ | _ | _ <;> rcases y with _ | _ | _ <;> simp [Val.isNan] at h <;> rfl

section Nan
variable {f : Fmt} {a b : Nat}

theorem Fmt.fadd_nan (mode : Round) (h : (f.val a).isNan = true ∨ (f.val b).isNan = true) :
    f.fadd mode a b = (f.nan, if f.val a = .nan true ∨ f.val b = .nan true then flagNV else 0) := by
  rw [← Val.nv_or_nv]
  simp [Fmt.fadd, Val.add_nan mode h, Fmt.roundVal]

theorem Fmt.fsub_nan (mode : Round) (h : (f.val a).isNan = true ∨ (f.val b).isNan = true) :
    f.fsub mode a b = (f.nan, if f.val a = .nan true ∨ f.val b = .nan true then flagNV else 0) := by
  have hnan : ∀ v : Val, v.neg.isNan = v.isNan ∧ (v.neg = .nan true ↔ v = .nan true) := by
    rintro (_ | _ | _) <;> simp [Val.neg, Val.isNan]
  obtain ⟨h1, h2⟩ := hnan (f.val b)
  have := Fmt.fadd_nan (f := f) (a := a) (b := f.flip b) mode (by rwa [f.val_flip, h1])
  rw [Fmt.fsub]
  simpa only [f.val_flip, h2] using this

theorem Fmt.fmul_nan (mode : Round) (h : (f.val a).isNan = true ∨ (f.val b).isNan = true) :
    f.fmul mode a b = (f.nan, if f.val a = .nan true ∨ f.val b = .nan true then flagNV else 0) := by
  rw [← Val.nv_or_nv]
  simp [Fmt.fmul, Val.mul_nan h, Fmt.roundVal]

theorem Fmt.fmin_nan (h : (f.val a).isNan = true ∨ (f.val b).isNan = true) :
    f.fmin a b = (f.nan, if f.val a = .nan true ∨ f.val b = .nan true then flagNV else 0) := by
  rw [← Val.nv_or_nv, Fmt.fmin, if_pos (Bool.or_eq_true _ _ ▸ h)]

theorem Fmt.fmax_nan (h : (f.val a).isNan = true ∨ (f.val b).isNan = true) :
    f.fmax a b = (f.nan, if f.val a = .nan true ∨ f.val b = .nan true then flagNV else 0) := by
  rw [← Val.nv_or_nv, Fmt.fmax, if_pos (Bool.or_eq_true _ _ ▸ h)]

/-- Infinities of opposite signs have no sum. -/
theorem Fmt.fadd_inf_opposite (mode : Round) {n : Bool} (ha : f.val a = .inf n) (hb : f.val b = .inf (!n)) : f.fadd mode a b = (f.nan, flagNV) := by
  simp [Fmt.fadd, ha, hb, Val.add, Val.nv, Fmt.roundVal]

theorem Fmt.fadd_inf_same (mode : Round) {n : Bool} (ha : f.val a = .inf n) (hb : f.val b = .inf n) : f.fadd mode a b = (f.sign n + f.inf, 0) := by
  simp [Fmt.fadd, ha, hb, Val.add, Val.nv, Fmt.roundVal]

theorem Fmt.fadd_inf_fin (mode : Round) {n n' : Bool} {m' : Nat} {e' : Int} (ha : f.val a = .inf n) (hb : f.val b = .fin n' m' e') :
    f.fadd mode a b = (f.sign n + f.inf, 0) := by
  simp [Fmt.fadd, ha, hb, Val.add, Val.nv, Fmt.roundVal]

theorem Fmt.fadd_fin_inf (mode : Round) {n n' : Bool} {m' : Nat} {e' : Int} (ha : f.val a = .fin n' m' e') (hb : f.val b = .inf n) :
    f.fadd mode a b = (f.sign n + f.inf, 0) := by
  simp [Fmt.fadd, ha, hb, Val.add, Val.nv, Fmt.roundVal]

/-- Infinity times zero is invalid; times any other finite value it is the infinity of the product's sign. -/
theorem Fmt.fmul_inf_fin (mode : Round) {n n' : Bool} {m' : Nat} {e' : Int} (ha : f.val a = .inf n) (hb : f.val b = .fin n' m' e') :
    f.fmul mode a b = (if m' = 0 then (f.nan, flagNV) else (f.sign (n != n') + f.inf, 0)) := by
  by_cases hm : m' = 0 <;> simp [Fmt.fmul, ha, hb, Val.mul, Val.nv, Fmt.roundVal, hm]

end Nan

/-! ### The cells (R45, R53, R154, R158, R159, R164, R165, R182) -/

section Cells
variable {c : CtxId} {n : Nat} {s : State} {k : Cell} {f : Fmt} {m : Nat}

/-- An instruction that fires a one-to-one operation fires a ready cell. -/
theorem fires_of_fireMap {i : Instr} {op : Nat} {F : ElTy → Round → Tup → W32 × W32} {g : Tup → W32 × W32} (hx : exec i s = s.fireMap c n op F)
    (hF : ∀ u, F (wTy k.word) k.round u = g u) (hop : op ≠ 0x58) (h : s.CellReady c n op k) (ho : k.Offers m) (hr : k.pk.length + m ≤ 8) :
    ∃ t, exec i s = .next t ∧ s.Fired t c n (k.fired m ((k.tups m).map (fun u => (g u).1))) ((k.tups m).foldl (fun a u => a ||| (g u).2) 0) := by
  rw [hx]
  obtain rfl : F (wTy k.word) k.round = g := funext hF
  exact State.fireMap_go h ho hop hr

/-- An instruction that fires a reduction folds the elements of a ready cell. -/
theorem fires_of_fireFold {i : Instr} {op : Nat} {F : ElTy → Round → W32 → Tup → W32 × W32} {g : W32 → Tup → W32 × W32}
    (hx : exec i s = s.fireFold c n op F) (hF : ∀ st u, F (wTy k.word) k.round st u = g st u) (hop : op ≠ 0x58) (h : s.CellReady c n op k)
    (ho : k.Offers m) :
    ∃ t, exec i s = .next t ∧ s.Fired t c n
      { k.popQs (wQueues k.word) m with st := ((k.tups m).foldl (fun a u => ((g a.1 u).1, a.2 ||| (g a.1 u).2)) (k.st, 0)).1 }
      ((k.tups m).foldl (fun a u => ((g a.1 u).1, a.2 ||| (g a.1 u).2)) (k.st, 0)).2 := by
  rw [hx]
  obtain rfl : F (wTy k.word) k.round = g := funext fun st => funext (hF st)
  exact State.fireFold_go h ho hop

end Cells

/-- Settles O17: the cells by the lemmas about a firing and a reduction, a rounding by its three outcomes, and the operations by their exact results. -/
theorem floatingAndReductionCellsFire : Obligations.FloatingAndReductionCellsFire := by
  unfold Obligations.FloatingAndReductionCellsFire
  refine ⟨?_, ?_, ?_, ?_⟩
  · intro c n f r e he s k m hready hoff hroom hfmt hr
    subst hr
    simp only [List.mem_cons, List.not_mem_nil, or_false] at he
    obtain ⟨F, hx, hF, hop⟩ : ∃ F, exec e.1 s = s.fireMap c n e.2.1 F ∧ (∀ u, F (wTy k.word) k.round u = e.2.2 (wTy k.word) u) ∧ e.2.1 ≠ 0x58 := by
      rcases he with rfl | rfl | rfl | rfl | rfl | rfl | rfl | rfl | rfl | rfl | rfl | rfl | rfl | rfl | rfl | rfl | rfl | rfl
      all_goals
        refine ⟨_, rfl, fun u => ?_, by simp⟩
        simp only [fltOp, fltOp1, fltOp3, fcmpOp, hfmt, Bool.or_eq_true, Bool.not_eq_true', ite_not, ← Bool.not_eq_true]
    exact fires_of_fireMap hx hF hop hready hoff hroom
  · intro c n f r e he s k m q hready hoff hr hfmt hq
    subst hr
    obtain ⟨F, hx, hF, hop⟩ : ∃ F, exec e.1 s = s.fireFold c n e.2.1 F ∧ (∀ st u, F (wTy k.word) k.round st u = e.2.2 (wTy k.word) st u)
        ∧ e.2.1 ≠ 0x58 := by
      clear hq hready hoff
      rcases List.mem_append.mp he with he | he <;> simp only [List.mem_cons, List.not_mem_nil, or_false] at he
      · rcases he with rfl | rfl | rfl | rfl
        · exact ⟨_, (rfl : execCellRadd c n s = _), fun st u => by simp only [redOp, intOp, wrapI], by simp⟩
        · exact ⟨_, (rfl : execCellRmin c n s = _), fun st u => by simp only [redOp, intOp], by simp⟩
        · exact ⟨_, (rfl : execCellRmax c n s = _), fun st u => by simp only [redOp, intOp], by simp⟩
        · exact ⟨_, (rfl : execCellScacc c n s = _), fun st u => by simp only, by simp⟩
      · have hf : (wTy k.word).fmt? = some f := hfmt (by rcases he with rfl | rfl | rfl <;> simp)
        rcases he with rfl | rfl | rfl
        · exact ⟨_, (rfl : execCellRfadd c n s = _), fun st u => by simp only [redOp, fltOp, hf, if_true], by simp⟩
        · exact ⟨_, (rfl : execCellRfmin c n s = _), fun st u => by simp only [redOp, fltOp, hf, if_true], by simp⟩
        · exact ⟨_, (rfl : execCellRfmax c n s = _), fun st u => by simp only [redOp, fltOp, hf, if_true], by simp⟩
    rw [hq]
    exact fires_of_fireFold hx hF hop hready hoff
  · intro q hq f mode neg m e x r fl fin hx hfin
    obtain rfl : fin = f.IsFin := funext fun z => propext (hfin z)
    have hqz {z : Nat} (hz : f.IsFin z) : q (f.val z) = f.rat z := Val.rat_unique hq hz
    have hout := f.round_outcome mode neg m e
    rw [show (Val.fin neg m e).rat = x by rw [hx, hq, Val.rat]] at hout
    refine ⟨fun h => ?_, fun h => ?_⟩ <;> rw [h] at hout
    · cases hout with
      | rounded hr =>
        obtain ⟨hnx, huf⟩ := hr.flags_iff
        refine ⟨fun hbf => absurd hbf.1 (huf hbf.2).1, fun _ => ?_⟩
        simp +contextual only [hqz hr.fin, hqz]
        exact ⟨hr.fin, hnx, fun h => (huf h).2, hr.neighbour.rne, hr.neighbour.rtz, hr.neighbour.rup, hr.neighbour.rdn⟩
      | flushed hf hpos hlt =>
        subst hf
        exact ⟨fun _ => ⟨rfl, rfl, hpos, hlt⟩, fun hno => absurd hno (by decide)⟩
    · cases hout with
      | overflow hbig => exact ⟨fun z hz => (hqz hz).symm ▸ hbig z hz, rfl, f.overflow_eq mode neg⟩
  · intro q hq f mode a b c
    refine ⟨fun n m e n' m' e' n'' m'' e'' ha hb hc => ?_, fun h o ho => ?_, fun n ha hb => ?_, fun n ha hb => ?_, fun n n' m' e' ha hb => ?_⟩
    · have hrat {z : Nat} {n m e} (hz : f.val z = .fin n m e) : q (f.val z) = f.rat z := Val.rat_unique hq ⟨n, m, e, hz⟩
      rw [hrat ha, hrat hb, hrat hc]
      refine ⟨fun o ho _ => ?_, (Fmt.fadd_fin mode ha hb).2, (Fmt.fmul_fin mode ha hb).2, Fmt.fmin_fin ha hb, Fmt.fmax_fin ha hb⟩
      have hround : f.RoundsOnce mode o.2 o.1 := by
        simp only [List.mem_cons, List.not_mem_nil, or_false] at ho
        rcases ho with rfl | rfl | rfl | rfl | rfl
        · exact (Fmt.fadd_fin mode ha hb).1
        · exact Fmt.fsub_fin mode ha hb
        · exact (Fmt.fmul_fin mode ha hb).1
        · exact Fmt.fma_fin mode ha hb hc
        · exact Fmt.fms_fin mode ha hb hc
      obtain ⟨neg, m, e, ov, hv, hr⟩ := hround
      exact ⟨neg, m, e, ov, by rw [hq, ← hv, Val.rat], hr⟩
    · simp only [List.mem_cons, List.not_mem_nil, or_false] at ho
      rcases ho with rfl | rfl | rfl | rfl | rfl
      · exact Fmt.fadd_nan mode h
      · exact Fmt.fsub_nan mode h
      · exact Fmt.fmul_nan mode h
      · exact Fmt.fmin_nan h
      · exact Fmt.fmax_nan h
    · exact Fmt.fadd_inf_opposite mode ha hb
    · exact ⟨Fmt.fadd_inf_same mode ha hb, Fmt.fadd_inf_opposite mode ha (by rw [f.val_flip, hb, Val.neg])⟩
    · exact ⟨Fmt.fadd_inf_fin mode ha hb, Fmt.fadd_fin_inf mode hb ha, Fmt.fmul_inf_fin mode ha hb⟩

end Sys2Proof.Machine

/-! K-groups of the matrix node (R48, R49): the exact sum of a group's products, rounded once. -/

namespace Sys2Proof.Machine

/-! ### The exact sum of a group -/

/-- Is the value a zero of negative sign? -/
def Val.isNegZero : Val → Bool
  | .fin n m _ => n && m == 0
  | _ => false

/-- What a value adds to a sum of units of 2^q; NaNs and infinities add nothing. -/
def Val.units (q : Int) : Val → Int
  | .fin n m e => scaled n m e q
  | _ => 0

/-- The flags that a product and its operands raise. -/
def mulFlags (p : Val × Val) : W32 := p.1.nv ||| p.2.nv ||| (p.1.mul p.2).2

/-- The product of a pair. -/
def prodVal (p : Val × Val) : Val := (p.1.mul p.2).1

/-- A term changes each field of a sum by its product alone. -/
theorem GroupSum.term_eq (s : GroupSum) (p : Val × Val) : s.term p.1 p.2 =
    { nv := s.nv ||| mulFlags p, nan := s.nan || (prodVal p).isNan, posInf := s.posInf || prodVal p == .inf false,
      negInf := s.negInf || prodVal p == .inf true, allNegZero := s.allNegZero && (prodVal p).isNegZero,
      num := s.num + (prodVal p).units s.exp, exp := s.exp } := by
  simp only [GroupSum.term, mulFlags, prodVal]
  rcases p.1.mul p.2 with ⟨_ | _ | ⟨n, m, e⟩, fl⟩
  case nan => simp [Val.isNan, Val.isNegZero, Val.units, BitVec.or_assoc]
  case inf n => cases n <;> simp [Val.isNan, Val.isNegZero, Val.units, BitVec.or_assoc]
  case fin => simp [Val.isNan, Val.isNegZero, Val.units, BitVec.or_assoc, Bool.and_assoc]

/-- The sum of a group's terms. -/
def groupSum (l : List (Val × Val)) : GroupSum := l.foldl (fun s t => s.term t.1 t.2) GroupSum.empty

/-- The order of the terms does not matter. -/
theorem groupSum_perm {l l' : List (Val × Val)} (h : l.Perm l') : groupSum l = groupSum l' := by
  refine h.foldl_eq' (fun x _ y _ s => ?_) GroupSum.empty
  simp only [GroupSum.term_eq, GroupSum.mk.injEq]
  refine ⟨?_, ?_, ?_, ?_, ?_, ?_, trivial⟩
  · ac_rfl
  · ac_rfl
  · ac_rfl
  · ac_rfl
  · ac_rfl
  · ring

/-- Each field of a group's sum. -/
theorem GroupSum.foldl_term (l : List (Val × Val)) (s : GroupSum) : l.foldl (fun s t => s.term t.1 t.2) s =
    { nv := l.foldl (fun a p => a ||| mulFlags p) s.nv, nan := s.nan || l.any (fun p => (prodVal p).isNan),
      posInf := s.posInf || l.any (fun p => prodVal p == .inf false), negInf := s.negInf || l.any (fun p => prodVal p == .inf true),
      allNegZero := s.allNegZero && l.all (fun p => (prodVal p).isNegZero),
      num := s.num + (l.map (fun p => (prodVal p).units s.exp)).sum, exp := s.exp } := by
  induction l generalizing s with
  | nil => simp
  | cons p t ih =>
    rw [List.foldl_cons, ih, GroupSum.term_eq]
    simp [Bool.or_assoc, Bool.and_assoc, Int.add_assoc]

theorem groupSum_eq (l : List (Val × Val)) : groupSum l =
    { nv := l.foldl (fun a p => a ||| mulFlags p) 0, nan := l.any (fun p => (prodVal p).isNan), posInf := l.any (fun p => prodVal p == .inf false),
      negInf := l.any (fun p => prodVal p == .inf true), allNegZero := l.all (fun p => (prodVal p).isNegZero),
      num := (l.map (fun p => (prodVal p).units (-400))).sum, exp := -400 } := by
  simp [groupSum, GroupSum.foldl_term, GroupSum.empty]

/-! ### One group into an accumulator -/

/-- A group of an accumulator that it replaces: its sum, rounded. -/
theorem groupAcc_true {l : List (Val × Val)} {v : Val} {fl : W32} (h : (groupSum l).val = (v, fl)) (acc : W32) :
    groupAcc true acc l = (BitVec.ofNat 32 (Fmt.fp32.roundVal .rne v).1, fl ||| (Fmt.fp32.roundVal .rne v).2) := by
  rw [groupSum] at h
  simp only [groupAcc, h, if_true]

/-- A group added to an accumulator: its sum, rounded, and the rounded sum of both. -/
theorem groupAcc_false {l : List (Val × Val)} {v : Val} {fl : W32} (h : (groupSum l).val = (v, fl)) (acc : W32) :
    groupAcc false acc l = (BitVec.ofNat 32 (Fmt.fp32.fadd .rne acc.toNat (Fmt.fp32.roundVal .rne v).1).1,
      fl ||| (Fmt.fp32.roundVal .rne v).2 ||| (Fmt.fp32.fadd .rne acc.toNat (Fmt.fp32.roundVal .rne v).1).2) := by
  rw [groupSum] at h
  simp only [groupAcc, h, Bool.false_eq_true, if_false]

theorem groupAcc_perm {l l' : List (Val × Val)} (h : l.Perm l') (b : Bool) (acc : W32) : groupAcc b acc l = groupAcc b acc l' := by
  have hs : l.foldl (fun s t => s.term t.1 t.2) GroupSum.empty = l'.foldl (fun s t => s.term t.1 t.2) GroupSum.empty := groupSum_perm h
  rw [groupAcc, groupAcc, hs]

/-- A NaN among the products or their operands, or infinities of both signs, make the canonical NaN. -/
theorem groupAcc_nan (l : List (Val × Val)) (acc : W32) (h : (∃ p ∈ l, p.1.isNan = true ∨ p.2.isNan = true ∨ (p.1.mul p.2).1.isNan = true)
    ∨ (.inf true ∈ l.map (fun p => (p.1.mul p.2).1) ∧ .inf false ∈ l.map (fun p => (p.1.mul p.2).1))) : (groupAcc true acc l).1 = 0x7FC00000#32 := by
  obtain ⟨fl, hv⟩ : ∃ fl, (groupSum l).val = (.nan false, fl) := by
    rw [groupSum_eq]
    obtain ⟨p, hp, hnan⟩ | ⟨hneg, hpos⟩ := h
    · have hprod : (prodVal p).isNan = true := by
        rw [prodVal]
        obtain h | h | h := hnan
        · rw [Val.mul_nan (.inl h), Val.isNan]
        · rw [Val.mul_nan (.inr h), Val.isNan]
        · exact h
      have hany : l.any (fun p => (prodVal p).isNan) = true := List.any_eq_true.mpr ⟨p, hp, hprod⟩
      exact ⟨_, by simp only [GroupSum.val, hany, if_true]; rfl⟩
    · obtain ⟨p, hp, hpv⟩ := List.mem_map.mp hpos
      obtain ⟨r, hr, hrv⟩ := List.mem_map.mp hneg
      have hany : l.any (fun p => prodVal p == .inf false) = true := List.any_eq_true.mpr ⟨p, hp, by rw [prodVal, hpv]; rfl⟩
      have hany' : l.any (fun p => prodVal p == .inf true) = true := List.any_eq_true.mpr ⟨r, hr, by rw [prodVal, hrv]; rfl⟩
      simp only [GroupSum.val, hany, hany', Bool.and_self, if_true]
      split
      · exact ⟨_, rfl⟩
      · exact ⟨_, rfl⟩
  rw [groupAcc_true hv]
  rfl

/-- Infinities of one sign among products of which none is a NaN make that infinity. -/
theorem groupAcc_inf (l : List (Val × Val)) (acc : W32) (n : Bool)
    (h : ∀ p ∈ l, (p.1.mul p.2).1.isNan = false ∧ (p.1.mul p.2).1 ≠ .inf (!n)) (hn : .inf n ∈ l.map (fun p => (p.1.mul p.2).1)) :
    (groupAcc true acc l).1 = if n then 0xFF800000#32 else 0x7F800000#32 := by
  obtain ⟨fl, hv⟩ : ∃ fl, (groupSum l).val = (.inf n, fl) := by
    obtain ⟨p, hp, hpv⟩ := List.mem_map.mp hn
    have hnan : l.any (fun p => (prodVal p).isNan) = false := List.any_eq_false.mpr fun p hp => by rw [prodVal, (h p hp).1]; exact Bool.false_ne_true
    have hsame : l.any (fun p => prodVal p == .inf n) = true := List.any_eq_true.mpr ⟨p, hp, by rw [prodVal, hpv]; exact beq_self_eq_true _⟩
    have hother : l.any (fun p => prodVal p == .inf (!n)) = false :=
      List.any_eq_false.mpr fun p hp he => (h p hp).2 (eq_of_beq he)
    rw [groupSum_eq]
    cases n <;> simp only [Bool.not_true, Bool.not_false] at hother <;> simp [GroupSum.val, hnan, hsame, hother]
  rw [groupAcc_true hv]
  cases n <;> rfl

/-! ### Groups of finite operands -/

/-- A pair of finite operands whose product is a whole number of the sum's units. -/
def FinPair (p : Val × Val) : Prop := ∃ n m e n' m' e', p = (.fin n m e, .fin n' m' e') ∧ (-200 : Int) ≤ e ∧ (-200 : Int) ≤ e'

section FinPair
variable {p : Val × Val} {l : List (Val × Val)}

theorem FinPair.mulFlags (h : FinPair p) : mulFlags p = 0 := by
  obtain ⟨n, m, e, n', m', e', rfl, -, -⟩ := h
  simp [Machine.mulFlags, Val.nv, Val.mul]

theorem FinPair.isNan (h : FinPair p) : (prodVal p).isNan = false := by
  obtain ⟨n, m, e, n', m', e', rfl, -, -⟩ := h
  rfl

theorem FinPair.ne_inf (h : FinPair p) (s : Bool) : (prodVal p == .inf s) = false := by
  obtain ⟨n, m, e, n', m', e', rfl, -, -⟩ := h
  rfl

theorem FinPair.units (h : FinPair p) : ((prodVal p).units (-400) : ℚ) * 2 ^ (-400 : Int) = p.1.rat * p.2.rat := by
  obtain ⟨n, m, e, n', m', e', rfl, he, he'⟩ := h
  exact (scaled_rat (n != n') (m * m') (by omega : (-400 : Int) ≤ e + e')).trans (Val.rat_mul_fin n n' m m' e e')

theorem Val.rat_eq_zero (n : Bool) (m : Nat) (e : Int) : (Val.fin n m e).rat = 0 ↔ m = 0 := by
  rw [← abs_eq_zero, Val.abs_rat_fin, mul_eq_zero_iff_right (two_pow_pos e).ne', Nat.cast_eq_zero]

theorem FinPair.isNegZero (h : FinPair p) : (prodVal p).isNegZero = true ↔ p.1.rat * p.2.rat = 0 ∧ p.1.isNeg ≠ p.2.isNeg := by
  obtain ⟨n, m, e, n', m', e', rfl, -, -⟩ := h
  rw [← Val.rat_mul_fin, Val.rat_eq_zero]
  simp [prodVal, Val.mul, Val.isNegZero, Val.isNeg, and_comm]

/-- The sum of a group of finite operands is exact. -/
theorem groupSum_fin (h : ∀ p ∈ l, FinPair p) : ∃ N : Int, (N : ℚ) * 2 ^ (-400 : Int) = (l.map (fun p => p.1.rat * p.2.rat)).sum
    ∧ groupSum l = ⟨0, false, false, false, l.all (fun p => (prodVal p).isNegZero), N, -400⟩ := by
  refine ⟨(l.map (fun p => (prodVal p).units (-400))).sum, ?_, ?_⟩
  · rw [← List.map_congr_left fun p hp => (h p hp).units, List.sum_map_mul_right]
    congr 1
    induction l with
    | nil => simp
    | cons p t ih => simp [ih fun p hp => h p (List.mem_cons_of_mem _ hp)]
  · have hany {g : Val × Val → Bool} (hg : ∀ p ∈ l, g p = false) : l.any g = false :=
      List.any_eq_false.mpr fun p hp => by rw [hg p hp]; exact Bool.false_ne_true
    rw [groupSum_eq, hany fun p hp => (h p hp).isNan, hany fun p hp => (h p hp).ne_inf false, hany fun p hp => (h p hp).ne_inf true,
      foldl_or_zero l mulFlags fun p hp => (h p hp).mulFlags]

/-- A sum that is not zero is rounded once, and with its second rounding added to an accumulator. -/
theorem groupAcc_fin (h : ∀ p ∈ l, FinPair p) (hsum : (l.map (fun p => p.1.rat * p.2.rat)).sum ≠ 0) (acc : W32) :
    ∃ o, Fmt.fp32.RoundsOnce .rne (l.map (fun p => p.1.rat * p.2.rat)).sum o ∧ groupAcc true acc l = (BitVec.ofNat 32 o.1, o.2)
      ∧ groupAcc false acc l = (BitVec.ofNat 32 (Fmt.fp32.fadd .rne acc.toNat o.1).1, o.2 ||| (Fmt.fp32.fadd .rne acc.toNat o.1).2) := by
  obtain ⟨N, hN, hg⟩ := groupSum_fin h
  have hN0 : N ≠ 0 := by
    rintro rfl
    exact hsum (by rw [← hN]; simp)
  have hv : (groupSum l).val = (.fin (N < 0) N.natAbs (-400), 0) := by simp [hg, GroupSum.val, hN0]
  have hround := Fmt.fp32.roundVal_fin .rne (N < 0) N.natAbs (-400)
  rw [Val.rat_natAbs, hN] at hround
  exact ⟨_, hround, by simp only [groupAcc_true hv, BitVec.ofNat_eq_ofNat, BitVec.zero_or],
    by simp only [groupAcc_false hv, BitVec.ofNat_eq_ofNat, BitVec.zero_or]⟩

/-- An exact zero is -0 only if every product is -0. -/
theorem groupAcc_zero (h : ∀ p ∈ l, FinPair p) (hsum : (l.map (fun p => p.1.rat * p.2.rat)).sum = 0) (acc : W32) :
    groupAcc true acc l = (if ∀ p ∈ l, p.1.rat * p.2.rat = 0 ∧ p.1.isNeg ≠ p.2.isNeg then 0x80000000#32 else 0#32, 0) := by
  obtain ⟨N, hN, hg⟩ := groupSum_fin h
  obtain rfl : N = 0 := by
    rw [hsum, mul_eq_zero_iff_right (two_pow_pos _).ne'] at hN
    exact_mod_cast hN
  have hall : l.all (fun p => (prodVal p).isNegZero) = true ↔ ∀ p ∈ l, p.1.rat * p.2.rat = 0 ∧ p.1.isNeg ≠ p.2.isNeg := by
    rw [List.all_eq_true]
    exact forall₂_congr fun p hp => (h p hp).isNegZero
  have hv : (groupSum l).val = (.fin (l.all fun p => (prodVal p).isNegZero) 0 0, 0) := by simp [hg, GroupSum.val]
  rw [groupAcc_true hv, Fmt.roundVal_zero]
  simp only [← hall]
  cases l.all fun p => (prodVal p).isNegZero <;> rfl

end FinPair

/-- The manual's example: 31 small products reach the accumulator through the group's sum (R49). -/
theorem groupAcc_example : groupAcc false 0x40000000 ((Fmt.bf16.val 0x3F80, Fmt.bf16.val 0x3F80)
    :: List.replicate 31 (Fmt.bf16.val 0x3980, Fmt.bf16.val 0x3980)) = (0x40400008, flagNX) := by decide +kernel

end Sys2Proof.Machine

/-! The matrix node's commands at work (R49, R206, R214 to R224): what each changes in its context, and nothing else. -/

namespace Sys2Proof.Machine

/-! ### Accumulators (R214, R218) -/

/-- An accumulator element after another, or the same, has been set. -/
theorem Mn.get_put (m : Mn) (a i j : Nat) (v : W32) (a' i' j' : Nat) :
    (m.put a i j v).get a' i' j' = if accKey a' i' j' = accKey a i j then v else m.get a' i' j' := by
  by_cases hv : v = 0
  · subst hv
    simp only [Mn.get, Mn.put, beq_self_eq_true, if_true, Map.get?_erase]
    split <;> rfl
  · simp only [Mn.get, Mn.put, beq_eq_false_iff_ne.mpr hv, Bool.false_eq_true, if_false, Map.get?_set]
    split <;> rfl

/-- Elements of one row of an accumulator replaced by a function of their column and value. -/
def Mn.mapRow (m : Mn) (a i N : Nat) (g : Nat → W32 → W32) : Mn := (List.range N).foldl (fun m j => m.put a i j (g j (m.get a i j))) m

/-- Elements of the first rows of an accumulator replaced by a function of their row, column and value. -/
def Mn.mapRows (m : Mn) (a M N : Nat) (g : Nat → Nat → W32 → W32) : Mn := (List.range M).foldl (fun m i => m.mapRow a i N (g i)) m

/-- Setting elements changes the accumulators alone. -/
theorem Mn.mapRow_frame (m : Mn) (a i N : Nat) (g : Nat → W32 → W32) : m.mapRow a i N g = { m with acc := (m.mapRow a i N g).acc } := by
  induction N with
  | zero => rfl
  | succ N ih =>
    rw [Mn.mapRow, List.range_succ, List.foldl_append, ← Mn.mapRow, ih]
    rfl

theorem Mn.mapRows_frame (m : Mn) (a M N : Nat) (g : Nat → Nat → W32 → W32) : m.mapRows a M N g = { m with acc := (m.mapRows a M N g).acc } := by
  induction M with
  | zero => rfl
  | succ M ih =>
    rw [Mn.mapRows, List.range_succ, List.foldl_append, ← Mn.mapRows, List.foldl_cons, List.foldl_nil, Mn.mapRow_frame, ih]

theorem Mn.mapRows_cmds (m : Mn) (a M N : Nat) (g : Nat → Nat → W32 → W32) : (m.mapRows a M N g).cmds = m.cmds := by rw [Mn.mapRows_frame]

theorem Mn.get_mapRow (m : Mn) (a i : Nat) {N : Nat} (hN : N ≤ 128) (g : Nat → W32 → W32) (a' i' : Nat) {j : Nat} (hj : j < 128) :
    (m.mapRow a i N g).get a' i' j = if 128 * a' + i' = 128 * a + i ∧ j < N then g j (m.get a' i' j) else m.get a' i' j := by
  induction N with
  | zero => simp [Mn.mapRow]
  | succ N ih =>
    have hkey : accKey a' i' j = accKey a i N ↔ 128 * a' + i' = 128 * a + i ∧ j = N := by
      simp only [accKey]
      omega
    have hget (m : Mn) (h : 128 * a' + i' = 128 * a + i) : m.get a i j = m.get a' i' j := by rw [Mn.get, Mn.get, accKey, accKey, h]
    have hstep : m.mapRow a i (N + 1) g = (m.mapRow a i N g).put a i N (g N ((m.mapRow a i N g).get a i N)) := by
      rw [Mn.mapRow, List.range_succ, List.foldl_append]
      rfl
    rw [hstep, Mn.get_put]
    simp only [hkey]
    by_cases hi : 128 * a' + i' = 128 * a + i
    · obtain rfl | hjN := eq_or_ne j N
      · simp [hi, hget _ hi, ih (by omega)]
      · have hlt : j < N + 1 ↔ j < N := by omega
        simp [hi, hjN, hlt, ih (by omega)]
    · simp [hi, ih (by omega)]

theorem Mn.get_mapRows (m : Mn) (a : Nat) {M N : Nat} (hN : N ≤ 128) (g : Nat → Nat → W32 → W32) (a' i' : Nat) {j : Nat} (hj : j < 128) :
    (m.mapRows a M N g).get a' i' j
      = if 128 * a ≤ 128 * a' + i' ∧ 128 * a' + i' < 128 * a + M ∧ j < N then g (128 * a' + i' - 128 * a) j (m.get a' i' j) else m.get a' i' j := by
  induction M with
  | zero => rw [if_neg (by omega)]; rfl
  | succ M ih =>
    have hstep : m.mapRows a (M + 1) N g = (m.mapRows a M N g).mapRow a M N (g M) := by
      rw [Mn.mapRows, List.range_succ, List.foldl_append]
      rfl
    rw [hstep, Mn.get_mapRow _ a M hN _ a' i' hj, ih]
    by_cases hrow : 128 * a' + i' = 128 * a + M
    · simp [hrow]
    · have hlt : 128 * a' + i' < 128 * a + (M + 1) ↔ 128 * a' + i' < 128 * a + M := by omega
      simp only [hrow, false_and, if_false, hlt]

/-- The elements of the rows that are replaced. -/
theorem Mn.get_mapRows_inside (m : Mn) (a : Nat) {M N i j : Nat} (hN : N ≤ 128) (g : Nat → Nat → W32 → W32) (hi : i < M) (hj : j < N) :
    (m.mapRows a M N g).get a i j = g i j (m.get a i j) := by
  rw [Mn.get_mapRows m a hN g a i (by omega), if_pos (by omega), Nat.add_sub_cancel_left]

/-- Every other element of both accumulators stays. -/
theorem Mn.get_mapRows_outside (m : Mn) (a : Nat) {M N i j : Nat} (hM : M ≤ 128) (hN : N ≤ 128) (g : Nat → Nat → W32 → W32) (a' : Nat) (hj : j < 128)
    (h : (a' ≠ a ∧ i < 128) ∨ (a' = a ∧ (M ≤ i ∨ N ≤ j))) : (m.mapRows a M N g).get a' i j = m.get a' i j := by
  rw [Mn.get_mapRows m a hN g a' i hj, if_neg (by omega)]

/-! ### Commands of a list -/

theorem eraseIdx_modAt {α : Type} (f : α → α) (l : List α) (n : Nat) : (modAt f l n).eraseIdx n = l.eraseIdx n := by
  induction l generalizing n with
  | nil => rfl
  | cons a l ih => cases n with
    | zero => rfl
    | succ n => simpa [modAt] using ih n

theorem length_modAt {α : Type} (f : α → α) (l : List α) (n : Nat) : (modAt f l n).length = l.length := by
  induction l generalizing n with
  | nil => rfl
  | cons a l ih => cases n with
    | zero => rfl
    | succ n => simpa [modAt] using ih n

/-! ### Changes of one context alone -/

/-- Nothing but the context bank c may have changed: what the bank holds aside, both states are the same. -/
def State.SameBut (s t : State) (c : CtxId) : Prop := ∀ x, t.setCtx c x = s.setCtx c x

theorem State.SameBut.refl (s : State) (c : CtxId) : s.SameBut s c := fun _ => rfl

theorem State.SameBut.setCtx {s t : State} {c : CtxId} (h : s.SameBut t c) (x : Ctx) : s.SameBut (t.setCtx c x) c := fun y => by
  rw [State.setCtx_setCtx, h y]

theorem State.SameBut.updCtx {s t : State} {c : CtxId} (h : s.SameBut t c) (f : Ctx → Ctx) : s.SameBut (t.updCtx c f) c := h.setCtx _

theorem State.SameBut.leases {s t : State} {c : CtxId} (h : s.SameBut t c) : t.leases = s.leases := by
  simpa using congrArg State.leases (h (s.ctx c))

theorem State.SameBut.dead {s t : State} {c : CtxId} (h : s.SameBut t c) : t.dead = s.dead := by
  simpa using congrArg State.dead (h (s.ctx c))

theorem State.SameBut.acnMsgs {s t : State} {c : CtxId} (h : s.SameBut t c) : t.acnMsgs = s.acnMsgs := by
  simpa using congrArg State.acnMsgs (h (s.ctx c))

/-- A change of the bank makes it one that has changed. -/
theorem State.SameBut.onlyCtx {s t : State} {c : CtxId} (h : s.SameBut t c) (x : Ctx) : s.OnlyCtx (t.setCtx c x) c := by
  rw [State.OnlyCtx, State.ctx_setCtx_self, h x]

theorem State.SameBut.cores {s t : State} {c : CtxId} (h : s.SameBut t c) : t.cores = s.cores := by
  simpa using congrArg State.cores (h (s.ctx c))

/-- Raised flags change nothing of a context but its flag word. -/
theorem Ctx.addFlags_frame (x : Ctx) (t : Nat) (fl : W32) :
    x.addFlags t fl = { x with flags := (x.addFlags t fl).flags, flagNew := (x.addFlags t fl).flagNew } := by
  unfold Ctx.addFlags
  split
  · rfl
  · rfl

/-- What the commands of the node leave of their context: all but its node and its flag word. -/
structure Ctx.NodeOnly (x y : Ctx) : Prop where
  eq : y = { x with mn := y.mn, flags := y.flags, flagNew := y.flagNew }

theorem Ctx.NodeOnly.refl (x : Ctx) : x.NodeOnly x := ⟨rfl⟩

theorem Ctx.NodeOnly.trans {x y z : Ctx} (h : x.NodeOnly y) (k : y.NodeOnly z) : x.NodeOnly z := ⟨by rw [k.eq, h.eq]⟩

section NodeOnly
variable {x y : Ctx} (h : x.NodeOnly y)
include h

theorem Ctx.NodeOnly.fab : y.fab = x.fab := by rw [h.eq]
theorem Ctx.NodeOnly.banks : y.banks = x.banks := by rw [h.eq]
theorem Ctx.NodeOnly.shape : y.shape = x.shape := by rw [h.eq]
theorem Ctx.NodeOnly.ten : y.ten = x.ten := by rw [h.eq]
theorem Ctx.NodeOnly.joins : y.joins = x.joins := by rw [h.eq]
theorem Ctx.NodeOnly.lease : y.lease = x.lease := by rw [h.eq]

end NodeOnly

/-- The node of a context changed, and flags raised by it (R45). -/
theorem State.updCmd_ctx (s : State) (c : CtxId) (i : Nat) (fl : W32) (f : MnCmd → MnCmd) : (s.updCmd c i fl f).ctx c
    = ({ s.ctx c with mn := { (s.ctx c).mn with cmds := modAt (fun k => { f k with flags := k.flags ||| fl }) (s.ctx c).mn.cmds i } } : Ctx).addFlags s.time fl := by
  simp [State.updCmd, State.addFlags, State.updCtx]

theorem State.SameBut.updCmd {s t : State} {c : CtxId} (h : s.SameBut t c) (i : Nat) (fl : W32) (f : MnCmd → MnCmd) :
    s.SameBut (t.updCmd c i fl f) c := by
  rw [State.updCmd, State.addFlags]
  exact (h.updCtx _).updCtx _

theorem State.updCmd_mn (s : State) (c : CtxId) (i : Nat) (fl : W32) (f : MnCmd → MnCmd) : ((s.updCmd c i fl f).ctx c).mn
    = { (s.ctx c).mn with cmds := modAt (fun k => { f k with flags := k.flags ||| fl }) (s.ctx c).mn.cmds i } := by
  rw [State.updCmd_ctx, Ctx.addFlags_frame]

theorem State.updCmd_nodeOnly (s : State) (c : CtxId) (i : Nat) (fl : W32) (f : MnCmd → MnCmd) :
    (s.ctx c).NodeOnly ((s.updCmd c i fl f).ctx c) := by
  constructor
  rw [State.updCmd_ctx, Ctx.addFlags_frame]

/-! ### What a multiplication reads (R211, R214 to R216) -/

/-- A context's scratchpad and operand store, and the shape of its grant, stand in t as in s. -/
structure State.SameOperands (s t : State) (c : CtxId) : Prop where
  cores : t.cores = s.cores
  banks : (t.ctx c).banks = (s.ctx c).banks
  shape : (t.ctx c).shape = (s.ctx c).shape
  vecs : (t.ctx c).mn.vecs = (s.ctx c).mn.vecs
  tabs : (t.ctx c).mn.tabs = (s.ctx c).mn.tabs

section SameOperands
variable {s t : State} {c : CtxId} (h : s.SameOperands t c)
include h

theorem State.SameOperands.core (k : CoreId) : t.core k = s.core k := by rw [State.core, h.cores, State.core]

theorem State.SameOperands.sramAddr (a : Nat) : (t.ctx c).sramAddr a = (s.ctx c).sramAddr a := by
  rw [Ctx.sramAddr, Ctx.bank?, h.banks, Ctx.sramAddr, Ctx.bank?]

theorem State.SameOperands.spadBytes (a n : Nat) : t.spadBytes c a n = s.spadBytes c a n := by
  simp only [State.spadBytes, h.core, h.sramAddr]

theorem State.SameOperands.mnReadFault (a n : Nat) : t.mnReadFault c a n = s.mnReadFault c a n := by
  have hb : (t.ctx c).badBank a n = (s.ctx c).badBank a n := by simp only [Ctx.badBank, Ctx.bank?, h.banks]
  simp only [State.mnReadFault, State.modeFault, State.spadEcc, hb, h.core, h.sramAddr]

theorem State.SameOperands.groupReads (k : MnCmd) (g : Nat) : (t.ctx c).groupReads k g = (s.ctx c).groupReads k g := by
  simp only [Ctx.groupReads, h.shape]

theorem State.SameOperands.stepRows (k : MnCmd) (n : Nat) : t.stepRows c k n = s.stepRows c k n := by
  simp only [State.stepRows, h.shape, h.spadBytes]

theorem State.SameOperands.mulA (k : MnCmd) (els : List Nat × List Nat) (i n : Nat) : t.mulA c k els i n = s.mulA c k els i n := by
  simp only [State.mulA, h.shape, h.vecs, h.tabs]

theorem State.SameOperands.mulB (k : MnCmd) (els : List Nat × List Nat) (j : Nat) : t.mulB c k els j = s.mulB c k els j := by
  simp only [State.mulB, h.shape, h.tabs]

end SameOperands

/-- The products of a K-group of command k for the element (r, j) of its accumulator. -/
def State.groupTerms (s : State) (c : CtxId) (k : MnCmd) (g r j : Nat) : List (Val × Val) :=
  (List.range (min 32 (tkK k.tok - 32 * g))).map
    (fun n => (s.mulA c k (s.stepRows c k (32 * g + n)) r (32 * g + n), s.mulB c k (s.stepRows c k (32 * g + n)) j))

theorem State.SameOperands.groupTerms {s t : State} {c : CtxId} (h : s.SameOperands t c) (k : MnCmd) (g r j : Nat) :
    t.groupTerms c k g r j = s.groupTerms c k g r j := by
  simp only [State.groupTerms, h.mulA, h.mulB, h.stepRows]

/-- The node after K-group g of command k: each of its elements with the group's products added, or replaced by them (R49, R214). -/
def State.mulGroupAcc (s : State) (c : CtxId) (k : MnCmd) (g : Nat) : Mn :=
  (s.ctx c).mn.mapRows (tkAs k.tok) (mulRows (s.ctx c).shape k.tok) (tkN (s.ctx c).shape k.tok)
    (fun r j v => (groupAcc (g == 0 && !k.tok.getLsbD 32) v (s.groupTerms c k g r j)).1)

/-- A K-group of which no step has read yet adds the products that it reads now. -/
theorem State.mulGroup_fst {s : State} {c : CtxId} {k : MnCmd} (hg : k.got = []) (g : Nat) : (s.mulGroup c k g).1 = s.mulGroupAcc c k g := by
  have hterms (r j : Nat) : ((upto (32 * g) (min 32 (tkK k.tok - 32 * g))).map (fun n => (n, s.stepEls c k n))).map
      (fun n => (s.mulA c k n.2 r n.1, s.mulB c k n.2 j)) = s.groupTerms c k g r j := by
    simp [upto, State.groupTerms, State.stepEls, hg]
  rw [State.mulGroup, State.mulGroupAcc, Mn.mapRows]
  refine (List.foldl_hom Prod.fst fun p r => ?_).symm
  rw [Mn.mapRow]
  refine List.foldl_hom Prod.fst fun p j => ?_
  rw [hterms]

/-! ### A multiplication at work (R49, R214 to R216, R223) -/

/-- The value of an element of command k's accumulator after n K-groups, in order, over its old value v (R49). -/
def State.groupsOver (s : State) (c : CtxId) (k : MnCmd) (r j n : Nat) (v : W32) : W32 :=
  (List.range n).foldl (fun v g => (groupAcc (g == 0 && !k.tok.getLsbD 32) v (s.groupTerms c k g r j)).1) v

/-- In t the first n K-groups of command i of context c, which is k in s, have been added, and nothing else has changed but flags. -/
structure State.MulDone (s t : State) (c : CtxId) (i : Nat) (k : MnCmd) (n : Nat) : Prop where
  same : s.SameBut t c
  node : (s.ctx c).NodeOnly (t.ctx c)
  operands : s.SameOperands t c
  cmd : ∃ fl, (t.ctx c).mn.cmds[i]? = some { k with pos := n, flags := fl }
  others : (t.ctx c).mn.cmds.eraseIdx i = (s.ctx c).mn.cmds.eraseIdx i
  inside : ∀ r j, r < mulRows (s.ctx c).shape k.tok → j < tkN (s.ctx c).shape k.tok →
    (t.ctx c).mn.get (tkAs k.tok) r j = s.groupsOver c k r j n ((s.ctx c).mn.get (tkAs k.tok) r j)
  outside : ∀ a r j, j < 128 → (a ≠ tkAs k.tok ∧ r < 128)
    ∨ (a = tkAs k.tok ∧ (mulRows (s.ctx c).shape k.tok ≤ r ∨ tkN (s.ctx c).shape k.tok ≤ j)) → (t.ctx c).mn.get a r j = (s.ctx c).mn.get a r j

theorem mulRows_le (sh t : W64) : mulRows sh t ≤ 128 := by
  have h1 : bits t 22 20 < 2 ^ 3 := Nat.mod_lt _ (by decide)
  have h2 : bits t 58 52 < 2 ^ 7 := Nat.mod_lt _ (by decide)
  have h3 : bits sh 6 0 < 2 ^ 7 := Nat.mod_lt _ (by decide)
  rw [mulRows, tkV, tkM]
  split
  · omega
  · split <;> omega

theorem tkN_le (sh t : W64) : tkN sh t ≤ 128 := by
  have h1 : bits t 51 50 < 2 ^ 2 := Nat.mod_lt _ (by decide)
  have h2 : bits sh 17 16 < 2 ^ 2 := Nat.mod_lt _ (by decide)
  rw [tkN, tkNg]
  split <;> omega

section MulDone
variable {s t : State} {c : CtxId} {i n stop : Nat} {k : MnCmd}

theorem State.MulDone.start (h : (s.ctx c).mn.cmds[i]? = some k) (hp : k.pos = 0) : s.MulDone s c i k 0 where
  same := State.SameBut.refl s c
  node := Ctx.NodeOnly.refl _
  operands := ⟨rfl, rfl, rfl, rfl, rfl⟩
  cmd := ⟨k.flags, by rw [h, ← hp]⟩
  others := rfl
  inside := fun _ _ _ _ => rfl
  outside := fun _ _ _ _ _ => rfl

/-- What one K-group leaves of the machine. -/
def State.mulStep (s : State) (c : CtxId) (i : Nat) (k : MnCmd) : State :=
  (s.updCtx c (fun x => { x with mn := (s.mulGroup c k k.pos).1 })).updCmd c i (s.mulGroup c k k.pos).2 (fun k => { k with pos := k.pos + 1, got := [] })

theorem State.mulRun_step {fuel : Nat} (h : (s.ctx c).mn.cmds[i]? = some k) (hs : k.pos < stop)
    (hr : ∀ r ∈ (s.ctx c).groupReads k k.pos, s.mnReadFault c r.1 r.2 = none) :
    State.mulRun c i stop (fuel + 1) s = State.mulRun c i stop fuel (s.mulStep c i k) := by
  rw [State.mulRun, h]
  simp only [ge_iff_le, Nat.not_le.mpr hs, if_false, List.findSome?_eq_none_iff.mpr hr]
  rfl

theorem State.mulStep_mn (h : k.got = []) : ((s.mulStep c i k).ctx c).mn = { s.mulGroupAcc c k k.pos with
    cmds := modAt (fun q => { q with pos := q.pos + 1, got := [], flags := q.flags ||| (s.mulGroup c k k.pos).2 }) (s.mulGroupAcc c k k.pos).cmds i } := by
  rw [State.mulStep, State.updCmd_mn, State.updCtx, State.ctx_setCtx_self, State.mulGroup_fst h]

theorem State.mulGroupAcc_frame (g : Nat) : s.mulGroupAcc c k g = { (s.ctx c).mn with acc := (s.mulGroupAcc c k g).acc } := Mn.mapRows_frame ..

theorem State.mulStep_nodeOnly : (s.ctx c).NodeOnly ((s.mulStep c i k).ctx c) := by
  have h : (s.ctx c).NodeOnly ((s.updCtx c (fun x => { x with mn := (s.mulGroup c k k.pos).1 })).ctx c) := ⟨by
    rw [State.updCtx, State.ctx_setCtx_self]⟩
  exact h.trans (State.updCmd_nodeOnly ..)

theorem State.mulStep_get (h : k.got = []) (a r j : Nat) : ((s.mulStep c i k).ctx c).mn.get a r j = (s.mulGroupAcc c k k.pos).get a r j := by
  rw [State.mulStep_mn h]
  rfl

/-- One more K-group. -/
theorem State.MulDone.next {k' : MnCmd} {fl : W32} (h : s.MulDone t c i k n) (hgot : k.got = []) (hk' : k' = { k with pos := n, flags := fl })
    (hk : (t.ctx c).mn.cmds[i]? = some k') : s.MulDone (t.mulStep c i k') c i k (n + 1) := by
  have htok : k'.tok = k.tok := by rw [hk']
  have hpos : k'.pos = n := by rw [hk']
  have hgot' : k'.got = [] := by rw [hk', hgot]
  have hterms (g r j : Nat) : t.groupTerms c k' g r j = s.groupTerms c k g r j := by
    rw [h.operands.groupTerms, hk']
    rfl
  have hmn := State.mulStep_mn (s := t) (c := c) (i := i) hgot'
  rw [State.mulGroupAcc_frame] at hmn
  have hsame : s.SameBut (t.mulStep c i k') c := (h.same.updCtx _).updCmd i _ _
  have hnode : (s.ctx c).NodeOnly ((t.mulStep c i k').ctx c) := h.node.trans State.mulStep_nodeOnly
  refine ⟨hsame, hnode, ⟨hsame.cores, hnode.banks, hnode.shape, ?_, ?_⟩, ⟨k'.flags ||| (t.mulGroup c k' k'.pos).2, ?_⟩, ?_,
    fun r j hr hj => ?_, fun a r j hj hout => ?_⟩
  · rw [hmn]
    exact h.operands.vecs
  · rw [hmn]
    exact h.operands.tabs
  · rw [hmn]
    simp only [getElem?_modAt, hk, Option.map_some, hpos]
    rw [hk', ← hgot]
  · rw [hmn]
    simp only [eraseIdx_modAt, h.others]
  · rw [State.mulStep_get hgot', State.mulGroupAcc, h.operands.shape, htok, hpos, Mn.get_mapRows_inside _ _ (tkN_le _ _) _ hr hj, h.inside r j hr hj,
      hterms, State.groupsOver, State.groupsOver, List.range_succ, List.foldl_append]
    rfl
  · rw [State.mulStep_get hgot', State.mulGroupAcc, h.operands.shape, htok, Mn.get_mapRows_outside _ _ (mulRows_le _ _) (tkN_le _ _) _ _ hj hout]
    exact h.outside a r j hj hout

/-- The K-groups from the n-th on, where no read of them faults. -/
theorem State.mulRun_done {fuel : Nat} (h : s.MulDone t c i k n) (hgot : k.got = []) (hstop : n + fuel = stop)
    (hr : ∀ g, g < stop → ∀ r ∈ (s.ctx c).groupReads k g, s.mnReadFault c r.1 r.2 = none) :
    ∃ u, State.mulRun c i stop fuel t = (u, none) ∧ s.MulDone u c i k stop := by
  induction fuel generalizing n t with
  | zero => exact ⟨t, rfl, (Nat.add_zero n ▸ hstop) ▸ h⟩
  | succ fuel ih =>
    obtain ⟨fl, hk⟩ := h.cmd
    rw [State.mulRun_step hk (by simp only; omega) fun r hmem => ?_]
    · exact ih (h.next hgot rfl hk) (by omega)
    · rw [h.operands.mnReadFault]
      rw [h.operands.groupReads] at hmem
      exact hr n (by omega) r hmem

end MulDone

end Sys2Proof.Machine

/-! Commands of the compute pipe that complete: multiplications, table loads, zeros (R214 to R218, R221, R224). -/

namespace Sys2Proof.Machine

/-! ### The end of a command (R224) -/

/-- The status token of a command (R224). -/
def MnCmd.status (k : MnCmd) : W32 := BitVec.ofNat 32 (tkOpc k.tok * 2 ^ 28 + bits k.tok 16 9 * 2 ^ 20 + k.flags.toNat % 64 * 2 ^ 14)

section MnDone
variable {s t : State} {c : CtxId} {i : Nat} {k : MnCmd}

/-- The one thing that the end of a command can do: the command leaves the list, and the load may hold its status token, if it has one. -/
theorem State.mnDone_eq (hk : (s.ctx c).mn.cmds[i]? = some k) : ∃ f : Fab,
    s.mnDone c i = s.setCtx c { s.ctx c with mn := { (s.ctx c).mn with cmds := (s.ctx c).mn.cmds.eraseIdx i }, fab := f }
      ∧ (k.tok.getLsbD 17 = false → f = (s.ctx c).fab) := by
  cases hp : if k.tok.getLsbD 17 && !(s.ctx c).fab.stopped then (s.ctx c).fab.port? 50 else none with
  | none =>
    refine ⟨(s.ctx c).fab, ?_, fun _ => rfl⟩
    simp only [State.mnDone, hk, hp]
  | some p =>
    refine ⟨(s.ctx c).fab.setPort 50 { p with toks := p.toks ++ [k.status] }, ?_, fun h17 => ?_⟩
    · simp only [State.mnDone, hk, hp, State.updFab, State.updCtx, State.setCtx_setCtx, State.ctx_setCtx_self, MnCmd.status]
    · rw [h17, Bool.false_and, if_neg Bool.false_ne_true] at hp
      cases hp

theorem State.mnDone_mn (hk : (s.ctx c).mn.cmds[i]? = some k) :
    ((s.mnDone c i).ctx c).mn = { (s.ctx c).mn with cmds := (s.ctx c).mn.cmds.eraseIdx i } := by
  obtain ⟨f, hf, -⟩ := State.mnDone_eq hk
  rw [hf, State.ctx_setCtx_self]

theorem State.mnDone_joins (hk : (s.ctx c).mn.cmds[i]? = some k) : ((s.mnDone c i).ctx c).joins = (s.ctx c).joins := by
  obtain ⟨f, hf, -⟩ := State.mnDone_eq hk
  rw [hf, State.ctx_setCtx_self]

theorem State.mnDone_acnMsgs (hk : (s.ctx c).mn.cmds[i]? = some k) : (s.mnDone c i).acnMsgs = s.acnMsgs := by
  obtain ⟨f, hf, -⟩ := State.mnDone_eq hk
  rw [hf, State.setCtx_acnMsgs]

/-- The end of a command without a status token leaves the load. -/
theorem State.mnDone_fab (hk : (s.ctx c).mn.cmds[i]? = some k) (h17 : k.tok.getLsbD 17 = false) :
    ((s.mnDone c i).ctx c).fab = (s.ctx c).fab := by
  obtain ⟨f, hf, hfab⟩ := State.mnDone_eq hk
  rw [hf, State.ctx_setCtx_self, hfab h17]

theorem State.SameBut.onlyCtx_mnDone (h : s.SameBut t c) (hk : (t.ctx c).mn.cmds[i]? = some k) : s.OnlyCtx (t.mnDone c i) c := by
  obtain ⟨f, hf, -⟩ := State.mnDone_eq hk
  rw [hf]
  exact h.onlyCtx _

/-- A command that changes the node and ends. -/
theorem State.mnDone_setCtx {m : Mn} (hk : (s.ctx c).mn.cmds[i]? = some k) (hm : m.cmds = (s.ctx c).mn.cmds) :
    s.OnlyCtx ((s.setCtx c { s.ctx c with mn := m }).mnDone c i) c
      ∧ (((s.setCtx c { s.ctx c with mn := m }).mnDone c i).ctx c).mn = { m with cmds := (s.ctx c).mn.cmds.eraseIdx i } := by
  have hk' : ((s.setCtx c { s.ctx c with mn := m }).ctx c).mn.cmds[i]? = some k := by rw [State.ctx_setCtx_self, ← hk, ← hm]
  refine ⟨((State.SameBut.refl s c).setCtx _).onlyCtx_mnDone hk', ?_⟩
  rw [State.mnDone_mn hk', State.ctx_setCtx_self, hm]

end MnDone

/-- No bank of a context is still being zeroed. -/
theorem Ctx.zeroing_of_all {x : Ctx} (h : x.banks.all (fun b => !b.zeroing) = true) (a n : Nat) : x.zeroing a n = false := by
  have hany : x.banks.any (·.zeroing) = false := by
    simpa using h
  rw [Ctx.zeroing, hany, Bool.false_and]

/-! ### Commands at work (R221) -/

/-- Command i of context c is k, started, the first of its pipe, in a load whose units may act. -/
structure State.AtWork (s : State) (c : CtxId) (i : Nat) (k : MnCmd) : Prop where
  active : (s.ctx c).active? = true
  cmd : (s.ctx c).mn.cmds[i]? = some k
  started : k.started = true
  first : ((s.ctx c).mn.cmds.take i).any (fun e => tkCompute e.tok == tkCompute k.tok) = false

section AtWork
variable {s : State} {c : CtxId} {i : Nat} {k : MnCmd} (h : s.AtWork c i k)
include h

theorem State.AtWork.not_stopped : (s.ctx c).fab.stopped = false := by
  have ha := h.active
  simp only [Ctx.active?, Bool.and_eq_true, Bool.not_eq_true'] at ha
  exact ha.1.1.2

/-- Such a command may work, a multiplication while its tenant is open (R384). -/
theorem State.AtWork.cmdWorks (ho : tkOpc k.tok ∈ [1, 2, 3] → s.isOpen (s.ctx c).ten.toNat = true) : s.cmdWorks c i k = true := by
  have hopen : (decide (1 ≤ tkOpc k.tok) && decide (tkOpc k.tok ≤ 3) && !s.isOpen (s.ctx c).ten.toNat) = false := by
    by_cases hm : tkOpc k.tok ∈ [1, 2, 3]
    · simp [ho hm]
    · simp only [List.mem_cons, List.not_mem_nil, or_false] at hm
      have hrange : ¬ (1 ≤ tkOpc k.tok ∧ tkOpc k.tok ≤ 3) := by omega
      simpa using fun h1 h3 => absurd ⟨h1, h3⟩ hrange
  simp only [State.cmdWorks, h.started, h.active, h.first, hopen, Bool.true_or, Bool.not_false, Bool.and_self]

theorem State.AtWork.exec_drain (ho : tkOpc k.tok = 6) : execMnCommandComplete c i s = .next (s.drainStep c i k) := by
  have hw := h.cmdWorks fun hm => by simp [ho] at hm
  simp only [execMnCommandComplete, h.cmd, hw, ho, Bool.not_true, Bool.false_eq_true, if_false, BEq.rfl, if_true]

theorem State.AtWork.exec_acsend (ho : tkOpc k.tok = 7) : execMnCommandComplete c i s = .next (s.acsendStep c i k) := by
  have hw := h.cmdWorks fun hm => by simp [ho] at hm
  simp only [execMnCommandComplete, h.cmd, hw, ho, Bool.not_true, Bool.false_eq_true, if_false, BEq.rfl, if_true, Nat.reduceBEq]

/-- ZERO sets the elements of its accumulator to +0 and ends (R218). -/
theorem State.AtWork.exec_zero (ho : tkOpc k.tok = 5) : execMnCommandComplete c i s
    = .next ((s.setCtx c { s.ctx c with
        mn := (s.ctx c).mn.mapRows (tkAs k.tok) (tkM (s.ctx c).shape k.tok) (tkN (s.ctx c).shape k.tok) (fun _ _ _ => 0) }).mnDone c i) := by
  have hw := h.cmdWorks fun hm => by simp [ho] at hm
  simp only [execMnCommandComplete, h.cmd, hw, ho, Bool.not_true, Bool.false_eq_true, if_false, BEq.rfl, if_true, Nat.reduceBEq]
  rfl

/-- TLOAD reads the two codebooks of its set and ends (R217). -/
theorem State.AtWork.exec_tload (ho : tkOpc k.tok = 4) (hz : (s.ctx c).zeroing k.x 64 = false) (hr : s.mnReadFault c k.x 64 = none) :
    execMnCommandComplete c i s = .next ((s.setCtx c { s.ctx c with mn := { (s.ctx c).mn with
      tabs := modAt (fun _ => ⟨true, (s.spadBytes c k.x 64).take 32, (s.spadBytes c k.x 64).drop 32⟩) (s.ctx c).mn.tabs (tkTs k.tok) } }).mnDone c i) := by
  have hw := h.cmdWorks fun hm => by simp [ho] at hm
  simp only [execMnCommandComplete, h.cmd, hw, ho, hz, hr, Bool.not_true, Bool.false_eq_true, if_false, BEq.rfl, if_true, Nat.reduceBEq]

/-- A multiplication adds its K-groups and ends, where no bank is being zeroed and no read faults (R214 to R216). -/
theorem State.AtWork.exec_mul (ho : tkOpc k.tok ∈ [1, 2, 3]) (hopen : s.isOpen (s.ctx c).ten.toNat = true)
    (hz : (s.ctx c).banks.all (fun b => !b.zeroing) = true) {u : State}
    (hu : State.mulRun c i ((tkK k.tok + 31) / 32) ((tkK k.tok + 31) / 32) s = (u, none)) : execMnCommandComplete c i s = .next (u.mnDone c i) := by
  have hz' : (((s.ctx c).cmdRanges k.tok k.x k.y).any fun r => r.2.2.1.any fun q => (s.ctx c).zeroing q.1 q.2) = false := by
    simp [Ctx.zeroing_of_all hz]
  have hne {n : Nat} (hn : n ∉ [1, 2, 3]) : (tkOpc k.tok == n) = false := beq_eq_false_iff_ne.mpr fun h => hn (h ▸ ho)
  simp only [execMnCommandComplete, h.cmd, h.cmdWorks fun _ => hopen, hz', h.not_stopped, hu, hne (n := 4) (by decide), hne (n := 5) (by decide),
    hne (n := 6) (by decide), hne (n := 7) (by decide), Bool.not_true, Bool.false_and, Bool.false_eq_true, if_false]

end AtWork

/-! ### What the commands of the compute pipe change -/

/-- Bytes of the scratchpad in two parts. -/
theorem State.spadBytes_add (s : State) (c : CtxId) (a m n : Nat) : s.spadBytes c a (m + n) = s.spadBytes c a m ++ s.spadBytes c (a + m) n := by
  simp only [State.spadBytes, List.range_add, List.map_append, List.map_map, Function.comp_def, Nat.add_assoc]

theorem State.length_spadBytes (s : State) (c : CtxId) (a n : Nat) : (s.spadBytes c a n).length = n := by
  rw [State.spadBytes, List.length_map, List.length_range]

section Completes
variable {s : State} {c : CtxId} {i : Nat} {k : MnCmd} (h : s.AtWork c i k)
include h

/-- R214 to R216, R221, R224: a multiplication leaves its K-groups, in order, over the old values of its accumulator's elements. -/
theorem State.AtWork.mul_completes (ho : tkOpc k.tok ∈ [1, 2, 3]) (hp : k.pos = 0) (hgot : k.got = []) (hopen : s.isOpen (s.ctx c).ten.toNat = true)
    (hz : (s.ctx c).banks.all (fun b => !b.zeroing) = true)
    (hr : ∀ g, 32 * g < tkK k.tok → ∀ r ∈ (s.ctx c).groupReads k g, s.mnReadFault c r.1 r.2 = none) :
    ∃ t, execMnCommandComplete c i s = .next t ∧ s.OnlyCtx t c ∧ (t.ctx c).mn.cmds = (s.ctx c).mn.cmds.eraseIdx i
      ∧ (∀ r j, r < mulRows (s.ctx c).shape k.tok → j < tkN (s.ctx c).shape k.tok →
          (t.ctx c).mn.get (tkAs k.tok) r j = s.groupsOver c k r j ((tkK k.tok + 31) / 32) ((s.ctx c).mn.get (tkAs k.tok) r j))
      ∧ (∀ a r j, j < 128 → (a ≠ tkAs k.tok ∧ r < 128) ∨ (a = tkAs k.tok ∧ (mulRows (s.ctx c).shape k.tok ≤ r ∨ tkN (s.ctx c).shape k.tok ≤ j)) →
          (t.ctx c).mn.get a r j = (s.ctx c).mn.get a r j) := by
  obtain ⟨u, hrun, hdone⟩ := State.mulRun_done (State.MulDone.start h.cmd hp) hgot (Nat.zero_add ((tkK k.tok + 31) / 32)) fun g hg => hr g (by omega)
  obtain ⟨fl, hu⟩ := hdone.cmd
  have hmn := State.mnDone_mn hu
  refine ⟨_, h.exec_mul ho hopen hz hrun, hdone.same.onlyCtx_mnDone hu, (congrArg Mn.cmds hmn).trans hdone.others, fun r j hi hj => ?_,
    fun a r j hj hout => ?_⟩
  · rw [hmn]
    exact hdone.inside r j hi hj
  · rw [hmn]
    exact hdone.outside a r j hj hout

theorem State.AtWork.tload_completes (ho : tkOpc k.tok = 4) (hz : (s.ctx c).zeroing k.x 64 = false) (hr : s.mnReadFault c k.x 64 = none)
    (hts : tkTs k.tok < (s.ctx c).mn.tabs.length) :
    ∃ t, execMnCommandComplete c i s = .next t ∧ s.OnlyCtx t c ∧ (t.ctx c).mn.cmds = (s.ctx c).mn.cmds.eraseIdx i
      ∧ (t.ctx c).mn.tabs[tkTs k.tok]? = some ⟨true, s.spadBytes c k.x 32, s.spadBytes c (k.x + 32) 32⟩ := by
  obtain ⟨honly, hmn⟩ := State.mnDone_setCtx (m := { (s.ctx c).mn with
    tabs := modAt (fun _ => ⟨true, (s.spadBytes c k.x 64).take 32, (s.spadBytes c k.x 64).drop 32⟩) (s.ctx c).mn.tabs (tkTs k.tok) }) h.cmd rfl
  have hsplit : s.spadBytes c k.x 64 = s.spadBytes c k.x 32 ++ s.spadBytes c (k.x + 32) 32 := s.spadBytes_add c k.x 32 32
  have hlen := s.length_spadBytes c k.x 32
  refine ⟨_, h.exec_tload ho hz hr, honly, congrArg Mn.cmds hmn, ?_⟩
  rw [hmn]
  simp only [getElem?_modAt, List.getElem?_eq_getElem hts, Option.map_some, hsplit, List.take_left' hlen, List.drop_left' hlen]

theorem State.AtWork.zero_completes (ho : tkOpc k.tok = 5) :
    ∃ t, execMnCommandComplete c i s = .next t ∧ s.OnlyCtx t c ∧ (t.ctx c).mn.cmds = (s.ctx c).mn.cmds.eraseIdx i
      ∧ ∀ r j, r < tkM (s.ctx c).shape k.tok → j < tkN (s.ctx c).shape k.tok → (t.ctx c).mn.get (tkAs k.tok) r j = 0 := by
  obtain ⟨honly, hmn⟩ := State.mnDone_setCtx h.cmd (Mn.mapRows_cmds (s.ctx c).mn _ _ _ (fun _ _ _ => 0))
  refine ⟨_, h.exec_zero ho, honly, congrArg Mn.cmds hmn, fun r j hr hj => ?_⟩
  rw [hmn]
  exact Mn.get_mapRows_inside _ _ (tkN_le _ _) _ hr hj

end Completes

end Sys2Proof.Machine

/-! The matrix node's streams: drains, sends to a chain, and the end of stream (R206, R219, R220). -/

namespace Sys2Proof.Machine

/-! ### Changes of a load and of commands -/

theorem State.updFab_ctx (s : State) (c : CtxId) (f : Fab → Fab) : (s.updFab c f).ctx c = { s.ctx c with fab := f (s.ctx c).fab } := by
  rw [State.updFab, State.updCtx, State.ctx_setCtx_self]

theorem State.SameBut.updFab {s t : State} {c : CtxId} (h : s.SameBut t c) (f : Fab → Fab) : s.SameBut (t.updFab c f) c := h.updCtx _

theorem State.SameBut.onlyCtx_updFab {s t : State} {c : CtxId} (h : s.SameBut t c) (f : Fab → Fab) : s.OnlyCtx (t.updFab c f) c := h.onlyCtx _

theorem State.SameBut.onlyCtx_updCmd {s t : State} {c : CtxId} (h : s.SameBut t c) (i : Nat) (fl : W32) (f : MnCmd → MnCmd) :
    s.OnlyCtx (t.updCmd c i fl f) c := (h.updCtx _).onlyCtx _

theorem State.updCmd_fab (s : State) (c : CtxId) (i : Nat) (fl : W32) (f : MnCmd → MnCmd) : ((s.updCmd c i fl f).ctx c).fab = (s.ctx c).fab :=
  (s.updCmd_nodeOnly c i fl f).fab

/-- A changed command. -/
theorem State.updCmd_cmd {s : State} {c : CtxId} {i : Nat} {k : MnCmd} (hk : (s.ctx c).mn.cmds[i]? = some k) (fl : W32) (f : MnCmd → MnCmd) :
    ((s.updCmd c i fl f).ctx c).mn.cmds[i]? = some { f k with flags := k.flags ||| fl } := by
  rw [State.updCmd_mn]
  simp only [getElem?_modAt, hk, Option.map_some]

theorem State.updCmd_length (s : State) (c : CtxId) (i : Nat) (fl : W32) (f : MnCmd → MnCmd) :
    ((s.updCmd c i fl f).ctx c).mn.cmds.length = (s.ctx c).mn.cmds.length := by
  rw [State.updCmd_mn, length_modAt]

/-! ### Elements of an accumulator read in order (R219, R222) -/

/-- Elements, or pairs of them, in a row of a drained accumulator. -/
def drainPer (sh t : W64) : Nat := if bits t 28 27 = 0 then tkN sh t else tkN sh t / 2

/-- Is a marker due when a DRAIN has read on to position p (R219)? -/
def drainMarks (sh t : W64) (p : Nat) : Bool := p == tkM sh t * drainPer sh t || (t.getLsbD 29 && p % drainPer sh t == 0)

/-- The m-th element, or packed pair, from a DRAIN's position on. -/
def Ctx.drainEl (x : Ctx) (k : MnCmd) (per m : Nat) : W32 :=
  if bits k.tok 28 27 = 0 then x.mn.get (tkAs k.tok) (k.pos / per) (k.pos % per + m)
  else
    let cv (j : Nat) : Nat := (convert .rne (.flt .fp32) (.flt (if bits k.tok 28 27 = 1 then .bf16 else .fp16)) (x.mn.get (tkAs k.tok) (k.pos / per) j).toNat).1
    BitVec.ofNat 32 (cv (2 * (k.pos % per + m)) + cv (2 * (k.pos % per + m) + 1) * 2 ^ 16)

theorem Ctx.drainEls_fst (x : Ctx) (k : MnCmd) : (x.drainEls k).1 = (List.range 4).map (x.drainEl k (drainPer x.shape k.tok)) := by
  simp only [Ctx.drainEls, List.map_map]
  refine List.map_congr_left fun m _ => ?_
  by_cases hm : bits k.tok 28 27 = 0
  · simp [Ctx.drainEl, drainPer, hm]
  · simp [Ctx.drainEl, drainPer, hm]

section DrainRead
variable {s : State} {c : CtxId} {i : Nat} {k : MnCmd}

theorem State.drainRead_sameBut : s.SameBut (s.drainRead c i k) c := ((State.SameBut.refl s c).updCtx _).updCmd i _ _

theorem State.drainRead_onlyCtx : s.OnlyCtx (s.drainRead c i k) c := ((State.SameBut.refl s c).updCtx _).onlyCtx_updCmd i _ _

theorem State.drainRead_nodeOnly : (s.ctx c).NodeOnly ((s.drainRead c i k).ctx c) := by
  have h : (s.ctx c).NodeOnly ((s.updCtx c (fun x => { x with mn := ((s.ctx c).drainEls k).2.2 })).ctx c) := ⟨by
    rw [State.updCtx, State.ctx_setCtx_self]⟩
  exact h.trans (State.updCmd_nodeOnly ..)

theorem State.drainRead_length : ((s.drainRead c i k).ctx c).mn.cmds.length = (s.ctx c).mn.cmds.length := by
  rw [State.drainRead, State.updCmd_length, State.updCtx, State.ctx_setCtx_self, State.Every.cmds_drainEls]

/-- A read of four elements. -/
theorem State.drainRead_cmd (hk : (s.ctx c).mn.cmds[i]? = some k) : ((s.drainRead c i k).ctx c).mn.cmds[i]?
    = some { k with pos := k.pos + 4, buf := k.buf ++ ((s.ctx c).drainEls k).1, flags := k.flags ||| ((s.ctx c).drainEls k).2.1 } := by
  have hk' : ((s.updCtx c (fun x => { x with mn := ((s.ctx c).drainEls k).2.2 })).ctx c).mn.cmds[i]? = some k := by
    rw [State.updCtx, State.ctx_setCtx_self]
    exact (congrArg (·[i]?) State.Every.cmds_drainEls).trans hk
  exact State.updCmd_cmd hk' _ _

end DrainRead

/-! ### DRAIN (R110, R119, R219) -/

/-- The state after a DRAIN has read four elements and closed the packet that they fill. -/
def State.drainPacket (s : State) (c : CtxId) (i : Nat) (k : MnCmd) : State :=
  ((s.drainRead c i k).updCmd c i 0 (fun q => { q with buf := [], eoi := drainMarks (s.ctx c).shape k.tok (k.pos + 4) })).updFab c
    (fun f => f.close (.port 49) ((s.ctx c).packet (k.buf ++ ((s.ctx c).drainEls k).1) 0 (3 + bits k.tok 28 27) false))

/-- The state after a DRAIN has closed a marker that was due. -/
def State.drainMark (s : State) (c : CtxId) (i : Nat) (k : MnCmd) : State :=
  (s.updCmd c i 0 (fun k => { k with eoi := false })).updFab c (fun f => f.close (.port 49) ((s.ctx c).packet [] 1 (3 + bits k.tok 28 27) false))

section Drain
variable {s : State} {c : CtxId} {i : Nat} {k : MnCmd} (h : s.AtWork c i k)
include h

/-- With room in the packet, a DRAIN reads. -/
theorem State.AtWork.drain_reads (ho : tkOpc k.tok = 6) (hd : (s.ctx c).fab.canClose (.port 49) 1 = true) (he : k.eoi = false) (hb : k.buf.length < 4) :
    execMnCommandComplete c i s = .next (s.drainRead c i k) := by
  have hlen : (k.buf ++ ((s.ctx c).drainEls k).1).length < 8 := by
    rw [Ctx.drainEls_fst, List.length_append, List.length_map, List.length_range]
    omega
  rw [h.exec_drain ho]
  simp only [State.drainStep, hd, he, State.drainRead_cmd h.cmd, hlen, Bool.not_true, Bool.false_eq_true, if_false, if_true]

/-- The elements that fill a packet close it. -/
theorem State.AtWork.drain_closes (ho : tkOpc k.tok = 6) (hd : (s.ctx c).fab.canClose (.port 49) 1 = true) (he : k.eoi = false) (hb : k.buf.length = 4) :
    ∃ t, execMnCommandComplete c i s = .next t ∧ s.OnlyCtx t c
      ∧ (t.ctx c).fab = (s.ctx c).fab.close (.port 49) ((s.ctx c).packet (k.buf ++ ((s.ctx c).drainEls k).1) 0 (3 + bits k.tok 28 27) false)
      ∧ ((t.ctx c).mn.cmds[i]?).map (fun q => (q.pos, q.buf, q.eoi)) = some (k.pos + 4, [], drainMarks (s.ctx c).shape k.tok (k.pos + 4)) := by
  have hper : (if bits k.tok 28 27 == 0 then tkN (s.ctx c).shape k.tok else tkN (s.ctx c).shape k.tok / 2) = drainPer (s.ctx c).shape k.tok := by
    simp only [drainPer, beq_iff_eq]
  have hlen : ¬ (k.buf ++ ((s.ctx c).drainEls k).1).length < 8 := by
    rw [Ctx.drainEls_fst, List.length_append, List.length_map, List.length_range]
    omega
  have hcmd := State.drainRead_cmd h.cmd
  have hstep : s.drainStep c i k = s.drainPacket c i k := by
    simp only [State.drainStep, hd, he, hcmd, hlen, hper, Bool.not_true, Bool.false_eq_true, if_false]
    rfl
  refine ⟨_, h.exec_drain ho, ?_⟩
  rw [hstep, State.drainPacket, State.updFab_ctx]
  refine ⟨(State.drainRead_sameBut.updCmd i _ _).onlyCtx_updFab _, ?_, ?_⟩
  · simp only [State.updCmd_fab, State.drainRead_nodeOnly.fab]
  · simp only [State.updCmd_cmd hcmd, Option.map_some]

/-- A marker that is due is closed, and ends the command after its last element. -/
theorem State.AtWork.drain_marks (ho : tkOpc k.tok = 6) (hd : (s.ctx c).fab.canClose (.port 49) 1 = true) (he : k.eoi = true) :
    ∃ t, execMnCommandComplete c i s = .next t ∧ s.OnlyCtx t c
      ∧ (k.tok.getLsbD 17 = false → (t.ctx c).fab = (s.ctx c).fab.close (.port 49) ((s.ctx c).packet [] 1 (3 + bits k.tok 28 27) false))
      ∧ (t.ctx c).mn.cmds.length = (if k.pos = tkM (s.ctx c).shape k.tok * drainPer (s.ctx c).shape k.tok then (s.ctx c).mn.cmds.length - 1
          else (s.ctx c).mn.cmds.length) := by
  have hstep : s.drainStep c i k = if k.pos = tkM (s.ctx c).shape k.tok * drainPer (s.ctx c).shape k.tok then (s.drainMark c i k).mnDone c i
      else s.drainMark c i k := by
    simp only [State.drainStep, hd, he, Bool.not_true, Bool.false_eq_true, if_false, if_true, beq_iff_eq]
    rfl
  have hcmd : ((s.drainMark c i k).ctx c).mn.cmds[i]? = some { k with eoi := false, flags := k.flags ||| 0 } := by
    rw [State.drainMark, State.updFab_ctx]
    exact State.updCmd_cmd h.cmd _ _
  have hlen : ((s.drainMark c i k).ctx c).mn.cmds.length = (s.ctx c).mn.cmds.length := by
    rw [State.drainMark, State.updFab_ctx]
    exact State.updCmd_length ..
  have hfab : ((s.drainMark c i k).ctx c).fab = (s.ctx c).fab.close (.port 49) ((s.ctx c).packet [] 1 (3 + bits k.tok 28 27) false) := by
    rw [State.drainMark, State.updFab_ctx]
    simp only [State.updCmd_fab]
  have hsame : s.SameBut (s.drainMark c i k) c := ((State.SameBut.refl s c).updCmd i _ _).updFab _
  refine ⟨_, h.exec_drain ho, ?_⟩
  rw [hstep]
  split
  · refine ⟨hsame.onlyCtx_mnDone hcmd, fun h17 => ?_, ?_⟩
    · rw [State.mnDone_fab hcmd h17, hfab]
    · rw [State.mnDone_mn hcmd]
      simp only [List.length_eraseIdx_of_lt (List.getElem?_eq_some_iff.mp hcmd).1, hlen]
  · exact ⟨((State.SameBut.refl s c).updCmd i _ _).onlyCtx_updFab _, fun _ => hfab, hlen⟩


end Drain

/-! ### Blocks sent to a chain (R232, R234) -/

/-- A route over which no link has failed depends on the failed links alone. -/
theorem State.deadOn_congr {s t : State} (h : t.dead = s.dead) (mesh : Bool) (n : Nat) (fr dst : CoreId) : t.deadOn mesh n fr dst = s.deadOn mesh n fr dst := by
  have hat : t.deadAt = s.deadAt := by
    funext k side mesh
    rw [State.deadAt, h, State.deadAt]
  induction n generalizing fr with
  | zero => rfl
  | succ n ih => simp only [State.deadOn, ih, hat]

/-- The node's work leaves a context in its lease. -/
theorem State.lidOf_congr {s t : State} {c : CtxId} (hl : t.leases = s.leases) (h : (s.ctx c).NodeOnly (t.ctx c)) : t.lidOf c = s.lidOf c := by
  rw [State.lidOf, hl, h.lease, State.lidOf]

theorem State.leaseFor_congr {s t : State} {c : CtxId} (hl : t.leases = s.leases) (h : (s.ctx c).NodeOnly (t.ctx c)) : t.leaseFor c = s.leaseFor c := by
  have hsolo : t.solo c = s.solo c := by rw [State.solo, h.eq, State.solo]
  have hself (u : State) : u.leaseFor c = ((u.leases.get? (u.ctx c).lease).or (u.leases.get? (2 ^ 34 + c))).getD (u.solo c) := by
    cases hl : u.leases.get? (u.ctx c).lease with
    | some l => simp [State.leaseFor, State.lidOf, State.leaseAt, hl]
    | none => cases hc : u.leases.get? (2 ^ 34 + c) with
      | some l => simp [-Nat.reducePow, State.leaseFor, State.lidOf, State.leaseAt, hl, hc]
      | none => simp [-Nat.reducePow, State.leaseFor, State.lidOf, State.leaseAt, hl, hc]
  rw [hself, hself, hl, h.lease, hsolo]

/-- Core at the position in its lease to which the handle of a join slot points (R233). -/
def State.sinkCore (s : State) (c : CtxId) (j : JoinSlot) : CoreId := (((s.leaseFor c).at? (handleSink j.handle)).map coreOf).getD (coreOf c)

/-- A block that slot j of a context sends (R232). -/
def Ctx.joinBlock (x : Ctx) (c : CtxId) (j : JoinSlot) (unit blk : Nat) (els : List W32) : AcnBlock :=
  ⟨c, j.key, unit, x.ten.toNat, handleSink j.handle, handleCid j.handle, j.pos, blk, els, 0⟩

/-- A message on a route without a failed link travels. -/
theorem State.acnSend_eq {s : State} {lid : Nat} {fr dest : CoreId} {b : AcnBody} (hd : s.deadOn false 40 fr dest = none) :
    s.acnSend lid fr dest b = { s with acnMsgs := s.acnMsgs ++ [⟨lid, fr, dest, b⟩] } := by
  simp only [State.acnSend, hd]

/-- A block on a route without a failed link spends a credit of its slot and travels. -/
theorem State.sendBlock_rule {s : State} {c : CtxId} {slot unit blk : Nat} {els : List W32} {j : JoinSlot} (hj : (s.ctx c).join slot = j)
    (hd : s.deadOn false 40 (coreOf c) (s.sinkCore c j) = none) :
    (s.sendBlock c slot unit blk els).acnMsgs = s.acnMsgs ++ [⟨s.lidOf c, coreOf c, s.sinkCore c j, .data ((s.ctx c).joinBlock c j unit blk els)⟩]
      ∧ (s.sendBlock c slot unit blk els).ctx c
        = (s.ctx c).setJoin slot { j with credits := j.credits - 1, sent := j.sent + 1, out := j.out + 1, next := blk + 1 } := by
  subst hj
  have hd' (x : Ctx) : (s.setCtx c x).deadOn false 40 (coreOf c) (s.sinkCore c ((s.ctx c).join slot)) = none :=
    (State.deadOn_congr (State.setCtx_dead s c x) ..).trans hd
  have hsend := State.acnSend_eq (lid := s.lidOf c) (b := .data ((s.ctx c).joinBlock c ((s.ctx c).join slot) unit blk els)) (hd' ((s.ctx c).setJoin slot
    { (s.ctx c).join slot with credits := ((s.ctx c).join slot).credits - 1, sent := ((s.ctx c).join slot).sent + 1,
                               out := ((s.ctx c).join slot).out + 1, next := blk + 1 }))
  exact ⟨congrArg State.acnMsgs hsend, (congrArg (State.ctx · c) hsend).trans (State.ctx_setCtx_self ..)⟩

theorem Ctx.join_setJoin (x : Ctx) {i : Nat} (hi : i < 16) (v : JoinSlot) : (x.setJoin i v).join i = v := by
  simp [Ctx.join, Ctx.setJoin, hi]

/-! ### ACSEND (R220, R235, R236) -/

/-- The state after an ACSEND has read four elements that fill a block, before it sends the block. -/
def State.sendRead (s : State) (c : CtxId) (i : Nat) (k : MnCmd) : State := (s.drainRead c i k).updCmd c i 0 (fun k => { k with buf := [] })

section Acsend
variable {s : State} {c : CtxId} {i : Nat} {k : MnCmd} {j : JoinSlot} (h : s.AtWork c i k)
  (hagain : (s.ctx c).fab.again = []) (hj : (s.ctx c).join (tkCh k.tok) = j) (hcr : j.credits ≠ 0) (hf : sendFault j (k.pos / 16) 0x300 = none)
  (hlen : tkM (s.ctx c).shape k.tok * tkN (s.ctx c).shape k.tok ≤ j.len)
include h hagain hj hcr hf hlen

/-- What an ACSEND with a credit does: it reads, and sends the block that it fills. -/
theorem State.AtWork.acsendStep_eq : s.acsendStep c i k
    = if (k.buf ++ ((s.ctx c).drainEls k).1).length < 16 then s.drainRead c i k
      else
        let t := (s.sendRead c i k).sendBlock c (tkCh k.tok) 0x300 (k.pos / 16) (k.buf ++ ((s.ctx c).drainEls k).1)
        if tkM (s.ctx c).shape k.tok * tkN (s.ctx c).shape k.tok ≤ k.pos + 4 then t.mnDone c i else t := by
  have hcause : (j.st == 4 && decide (16 * (k.pos / 16) + 16 > j.len) && decide (16 * (k.pos / 16) + 16 ≤ tkM (s.ctx c).shape k.tok * tkN (s.ctx c).shape k.tok)
      && decide (j.len < tkM (s.ctx c).shape k.tok * tkN (s.ctx c).shape k.tok)) = false := by
    simp [Nat.not_lt.mpr hlen]
  have hcr' : (j.credits == 0) = false := beq_eq_false_iff_ne.mpr hcr
  simp only [State.acsendStep, hj, hcause, hagain, hf, hcr', List.any_nil, State.drainRead_cmd h.cmd, Bool.false_eq_true, if_false]
  rfl

theorem State.AtWork.acsend_reads (ho : tkOpc k.tok = 7) (hb : k.buf.length < 12) : execMnCommandComplete c i s = .next (s.drainRead c i k) := by
  have hshort : (k.buf ++ ((s.ctx c).drainEls k).1).length < 16 := by
    rw [Ctx.drainEls_fst, List.length_append, List.length_map, List.length_range]
    omega
  rw [h.exec_acsend ho, h.acsendStep_eq hagain hj hcr hf hlen, if_pos hshort]

/-- Elements that fill a block send it, and the last end the command. -/
theorem State.AtWork.acsend_sends (ho : tkOpc k.tok = 7) (hb : k.buf.length = 12) (hd : s.deadOn false 40 (coreOf c) (s.sinkCore c j) = none) :
    ∃ t, execMnCommandComplete c i s = .next t
      ∧ t.acnMsgs = s.acnMsgs ++ [⟨s.lidOf c, coreOf c, s.sinkCore c j,
          .data ((s.ctx c).joinBlock c j 0x300 (k.pos / 16) (k.buf ++ ((s.ctx c).drainEls k).1))⟩]
      ∧ (tkCh k.tok < 16 → (t.ctx c).join (tkCh k.tok) = { j with credits := j.credits - 1, sent := j.sent + 1, out := j.out + 1, next := k.pos / 16 + 1 })
      ∧ (t.ctx c).mn.cmds.length = (if tkM (s.ctx c).shape k.tok * tkN (s.ctx c).shape k.tok ≤ k.pos + 4 then (s.ctx c).mn.cmds.length - 1
          else (s.ctx c).mn.cmds.length) := by
  have hfull : ¬ (k.buf ++ ((s.ctx c).drainEls k).1).length < 16 := by
    rw [Ctx.drainEls_fst, List.length_append, List.length_map, List.length_range]
    omega
  have hsame : s.SameBut (s.sendRead c i k) c := State.drainRead_sameBut.updCmd i _ _
  have hnode : (s.ctx c).NodeOnly ((s.sendRead c i k).ctx c) := State.drainRead_nodeOnly.trans (State.updCmd_nodeOnly ..)
  obtain ⟨k', hcmd⟩ : ∃ k', ((s.sendRead c i k).ctx c).mn.cmds[i]? = some k' := ⟨_, State.updCmd_cmd (State.drainRead_cmd h.cmd) _ _⟩
  have hlength : ((s.sendRead c i k).ctx c).mn.cmds.length = (s.ctx c).mn.cmds.length := by
    rw [State.sendRead, State.updCmd_length, State.drainRead_length]
  have hsink : (s.sendRead c i k).sinkCore c j = s.sinkCore c j := by
    rw [State.sinkCore, State.leaseFor_congr hsame.leases hnode, State.sinkCore]
  have hjoin : ((s.sendRead c i k).ctx c).join (tkCh k.tok) = j := by
    rw [Ctx.join, hnode.joins, ← hj, Ctx.join]
  have hblock : ((s.sendRead c i k).ctx c).joinBlock c j = (s.ctx c).joinBlock c j := by
    funext unit blk els
    rw [Ctx.joinBlock, hnode.ten, Ctx.joinBlock]
  obtain ⟨hmsgs, hctx⟩ := State.sendBlock_rule (unit := 0x300) (blk := k.pos / 16) (els := k.buf ++ ((s.ctx c).drainEls k).1) hjoin
    (hsink ▸ (State.deadOn_congr hsame.dead ..).trans hd)
  rw [hsink, hblock, State.lidOf_congr hsame.leases hnode, hsame.acnMsgs] at hmsgs
  refine ⟨_, h.exec_acsend ho, ?_⟩
  rw [h.acsendStep_eq hagain hj hcr hf hlen, if_neg hfull]
  generalize (s.sendRead c i k).sendBlock c (tkCh k.tok) 0x300 (k.pos / 16) (k.buf ++ ((s.ctx c).drainEls k).1) = u at hmsgs hctx
  have hu : (u.ctx c).mn = ((s.sendRead c i k).ctx c).mn := by rw [hctx, Ctx.setJoin]
  have hslot (hi : tkCh k.tok < 16) := (congrArg (Ctx.join · (tkCh k.tok)) hctx).trans (Ctx.join_setJoin _ hi _)
  dsimp only
  split
  · rw [← hu] at hcmd
    refine ⟨?_, fun hi => ?_, ?_⟩
    · rw [State.mnDone_acnMsgs hcmd, hmsgs]
    · rw [Ctx.join, State.mnDone_joins hcmd]
      exact hslot hi
    · rw [State.mnDone_mn hcmd]
      simp only [List.length_eraseIdx_of_lt (List.getElem?_eq_some_iff.mp hcmd).1]
      rw [hu, hlength]
  · exact ⟨hmsgs, hslot, by rw [hu, hlength]⟩

end Acsend

/-! ### The end of stream (R206) -/

/-- The end of stream closed on output n, where it is routed. -/
def Ctx.closeEos (x : Ctx) (f : Fab) (n : Nat) : Fab :=
  match x.fab.port? n with
  | some d => (f.setPort n { d with eos := true }).close (.port n) (x.packet [] 2 0 false)
  | none => f

theorem Ctx.foldl_closeEos (x : Ctx) (l : List Nat) (f : Fab) : (l.filterMap (fun n => (x.fab.port? n).map (fun d => (n, d)))).foldl
    (fun f e => (f.setPort e.1 { e.2 with eos := true }).close (.port e.1) (x.packet [] 2 0 false)) f = l.foldl x.closeEos f := by
  rw [List.foldl_filterMap]
  congr 1
  funext f n
  cases hn : x.fab.port? n with
  | none => simp only [Ctx.closeEos, hn, Option.map_none]
  | some d => simp only [Ctx.closeEos, hn, Option.map_some]

/-- EOS on mn.ctl, with no command left and no status token waiting, is consumed and closed on the outputs. -/
theorem execMnCtlEos_closes {s : State} {c : CtxId} {p : Port} (ha : (s.ctx c).active? = true) (hp : (s.ctx c).fab.port? 48 = some p)
    (hi : p.part.items = [.marker 2]) (hc : (s.ctx c).mn.cmds = [])
    (hout : ∀ n ∈ [49, 50], ∀ d, (s.ctx c).fab.port? n = some d → d.toks = [] ∧ (s.ctx c).fab.canClose (.port n) 1 = true) :
    ∃ t, execMnCtlEos c s = .next t ∧ s.OnlyCtx t c
      ∧ (t.ctx c).fab = [49, 50].foldl (s.ctx c).closeEos ((s.ctx c).fab.setPort 48 { p with part := p.part.pop 1 }) := by
  have hskip : ctlSkip p.part.items.length p.part = p.part := by
    simp [hi, ctlSkip, Part.marker?]
  have hels : p.part.els = [] := by rw [Part.els, hi]; rfl
  have hmark : p.part.marker? = some 2 := by rw [Part.marker?, hi]
  have hready (e : Nat × Port) (he : e ∈ [49, 50].filterMap (fun n => ((s.ctx c).fab.port? n).map (fun d => (n, d)))) :
      e.2.toks = [] ∧ (s.ctx c).fab.canClose (.port e.1) 1 = true := by
    obtain ⟨n, hn, he⟩ := List.mem_filterMap.mp he
    obtain ⟨d, hd, rfl⟩ := Option.map_eq_some_iff.mp he
    exact hout n hn d hd
  have htoks : ([49, 50].filterMap (fun n => ((s.ctx c).fab.port? n).map (fun d => (n, d)))).any (fun e => !e.2.toks.isEmpty) = false :=
    List.any_eq_false.mpr fun e he => by simp [(hready e he).1]
  have hclose : ([49, 50].filterMap (fun n => ((s.ctx c).fab.port? n).map (fun d => (n, d)))).any (fun e => !(s.ctx c).fab.canClose (.port e.1) 1) = false :=
    List.any_eq_false.mpr fun e he => by simp [(hready e he).2]
  refine ⟨_, by simp only [execMnCtlEos, ha, hp, hskip, hels, hmark, hc, htoks, hclose, if_true]; rfl, ?_, ?_⟩
  · exact ((State.SameBut.refl s c).updFab _).onlyCtx_updFab _
  · rw [State.updFab_ctx, State.putCtl, State.updFab_ctx, hp]
    exact Ctx.foldl_closeEos ..

end Sys2Proof.Machine

/-! The obligation on the effects of matrix commands. -/

namespace Sys2Proof.Machine

/-- A value function with the value of every finite operand is that of the products of a K-group (R49). -/
theorem map_mul_rat {q : Val → ℚ} (hq : ∀ n m e, q (.fin n m e) = (if n then -1 else 1) * (m : ℚ) * (2 : ℚ) ^ e) {p : Val × Val} (h : FinPair p) :
    q p.1 * q p.2 = p.1.rat * p.2.rat := by
  obtain ⟨n, m, e, n', m', e', rfl, -, -⟩ := h
  simp only [hq, Val.rat]

/-- R49: a K-group of products of finite operands, with q the rational value. -/
theorem groupAcc_finite {q : Val → ℚ} (hq : ∀ n m e, q (.fin n m e) = (if n then -1 else 1) * (m : ℚ) * (2 : ℚ) ^ e)
    {l : List (Val × Val)} (h : ∀ p ∈ l, FinPair p) (acc : W32) {sum : ℚ} (hsum : sum = (l.map (fun p => q p.1 * q p.2)).sum) :
    (sum ≠ 0 → ∃ neg m e r fl ov, q (.fin neg m e) = sum ∧ Fmt.fp32.round .rne false neg m e = (r, fl, ov)
        ∧ groupAcc true acc l = (BitVec.ofNat 32 r, fl)
        ∧ groupAcc false acc l = (BitVec.ofNat 32 (Fmt.fp32.fadd .rne acc.toNat r).1, fl ||| (Fmt.fp32.fadd .rne acc.toNat r).2))
      ∧ (sum = 0 → groupAcc true acc l = (if ∀ p ∈ l, q p.1 * q p.2 = 0 ∧ p.1.isNeg ≠ p.2.isNeg then 0x80000000#32 else 0#32, 0)) := by
  have hmap : l.map (fun p => q p.1 * q p.2) = l.map (fun p => p.1.rat * p.2.rat) := List.map_congr_left fun p hp => map_mul_rat hq (h p hp)
  rw [hmap] at hsum
  subst hsum
  constructor
  · intro hne
    obtain ⟨⟨r, fl⟩, ⟨neg, m, e, ov, hv, hr⟩, htrue, hfalse⟩ := groupAcc_fin h hne acc
    exact ⟨neg, m, e, r, fl, ov, (hq neg m e).trans hv, hr, htrue, hfalse⟩
  · intro hz
    have hiff : (∀ p ∈ l, p.1.rat * p.2.rat = 0 ∧ p.1.isNeg ≠ p.2.isNeg) ↔ ∀ p ∈ l, q p.1 * q p.2 = 0 ∧ p.1.isNeg ≠ p.2.isNeg :=
      forall₂_congr fun p hp => by rw [map_mul_rat hq (h p hp)]
    rw [groupAcc_zero h hz acc, if_congr hiff rfl rfl]

/-- Settles O28: R49 by the fields of a sum of products, each order-independent; the commands through what one step of each leaves of its context. -/
theorem matrixCommandsTakeEffect : Obligations.MatrixCommandsTakeEffect := by
  unfold Obligations.MatrixCommandsTakeEffect
  refine ⟨⟨fun q hq l acc sum h hsum => groupAcc_finite hq h acc hsum, fun l l' b acc h => groupAcc_perm h b acc, groupAcc_nan, groupAcc_inf,
    groupAcc_example⟩, ?_, ?_, ?_, ?_⟩
  · intro s c i k ha hk hst hp hgot ho _ hopen hfirst hz hr
    exact State.AtWork.mul_completes ⟨ha, hk, hst, hfirst⟩ ho hp hgot hopen hz hr
  · intro s c i k ha hk hst hfirst
    have h : s.AtWork c i k := ⟨ha, hk, hst, hfirst⟩
    exact ⟨fun ho hz hr hts => h.tload_completes ho hz hr hts, fun ho => h.zero_completes ho⟩
  · intro s c i per total k els ha hk hst hfirst hper htotal hels
    have h : s.AtWork c i k := ⟨ha, hk, hst, hfirst⟩
    obtain rfl : per = drainPer (s.ctx c).shape k.tok := hper
    have hels' : els = ((s.ctx c).drainEls k).1 := hels.trans (Ctx.drainEls_fst ..).symm
    subst htotal hels'
    refine ⟨fun ho hd => ⟨fun he hb => ⟨_, h.drain_reads ho hd he hb, State.drainRead_onlyCtx, State.drainRead_nodeOnly.fab, ?_⟩,
      h.drain_closes ho hd, h.drain_marks ho hd⟩, ?_⟩
    · rw [State.drainRead_cmd h.cmd, Option.map_some, he]
    · intro j ho hdm hagain hj hcr hf hlen
      have hN : drainPer (s.ctx c).shape k.tok = tkN (s.ctx c).shape k.tok := if_pos hdm
      rw [hN] at hlen ⊢
      refine ⟨fun hb => ⟨_, h.acsend_reads hagain hj.symm hcr hf hlen ho hb, State.drainRead_onlyCtx, ?_⟩, h.acsend_sends hagain hj.symm hcr hf hlen ho⟩
      rw [State.drainRead_cmd h.cmd, Option.map_some]
  · exact fun s c p ha hp hi hc hout => execMnCtlEos_closes ha hp hi hc hout

end Sys2Proof.Machine

/-! Decode and encode (R54 to R59): every operation's word decodes to it, and every word that decodes is the word of what it decodes to. -/

namespace Sys2Proof

/-! ### Operand fields as numbers (R54, R56) -/

theorem toNat_append_eq_iff {m n : Nat} {x : BitVec m} {y : BitVec n} {v : Nat} :
    (x ++ y).toNat = v ↔ x.toNat = v / 2 ^ n ∧ y.toNat = v % 2 ^ n := by
  have hy := y.isLt
  rw [BitVec.toNat_append, Nat.shiftLeft_eq, Nat.mul_comm, ← Nat.two_pow_add_eq_or_of_lt hy]
  constructor
  · rintro rfl
    rw [Nat.mul_add_div (Nat.two_pow_pos n), Nat.div_eq_of_lt hy, Nat.mul_add_mod, Nat.mod_eq_of_lt hy]
    exact ⟨rfl, rfl⟩
  · rintro ⟨hx, hy⟩
    rw [hx, hy, Nat.div_add_mod]

theorem toNat_fld (f : BitVec 21) (lo len : Nat) : (fld f lo len).toNat = f.toNat / 2 ^ lo % 2 ^ len := by
  rw [BitVec.extractLsb'_toNat, Nat.shiftRight_eq_div_pow]

theorem fld_eq_iff {f : BitVec 21} {lo len : Nat} {k : BitVec len} : fld f lo len = k ↔ f.toNat / 2 ^ lo % 2 ^ len = k.toNat := by
  rw [← BitVec.toNat_inj, toNat_fld]

/-! ### What an answer of the decoder says about the word (R59) -/

/-- i is the operation of opcode op and operand fields f under guard g. -/
structure Instr.IsWord (i : Instr) (op : BitVec 7) (g : Guard) (f : BitVec 21) : Prop where
  fields : i.fields = some (op, f)
  guard : i.guard = g
  wf : g.ok = true → i.wf = true

/-- The operation that the decoder's answer r gives, if it gives one, is that of opcode op and operand fields f under guard g. -/
def Faithful (op : BitVec 7) (g : Guard) (f : BitVec 21) (r : Except Reject Instr) : Prop := ∀ i, r = .ok i → i.IsWord op g f

namespace Faithful
variable {op : BitVec 7} {g : Guard} {f k : BitVec 21} {i : Instr} {r q : Except Reject Instr}

theorem error {e : Reject} : Faithful op g f (.error e) := nofun

theorem opcode {c : BitVec 7} (hr : Faithful c g f r) (hq : Faithful op g f q) : Faithful op g f (if op = c then r else q) := by
  split
  next h => exact h ▸ hr
  next => exact hq

theorem field {lo len : Nat} {c : BitVec len} (hr : fld f lo len = c → Faithful op g f r) (hq : Faithful op g f q) :
    Faithful op g f (if fld f lo len = c then r else q) := by
  split
  next h => exact hr h
  next => exact hq

/-- A test of one bit. -/
theorem bit {lo : Nat} (hr : fld f lo 1 = 1#1 → Faithful op g f r) (hq : fld f lo 1 = 0#1 → Faithful op g f q) :
    Faithful op g f (if fld f lo 1 = 1#1 then r else q) := by
  split
  next h => exact hr h
  next h => exact hq ((BitVec.eq_zero_or_eq_one _).resolve_right h)

theorem checked {ok : Bool} (h : ok = true → Faithful op g f (.ok i)) : Faithful op g f (checked ok i) := by
  unfold Sys2Proof.checked
  split
  next hok => exact h hok
  next => exact error

/-- An operation that the fields k encode. By default k is compared with f field by field, from the fields that the decoder has tested. -/
theorem ok (hi : i.fields = some (op, k)) (hg : i.guard = g) (hw : g.ok = true → i.wf = true)
    (hk : f.toNat < 2 ^ 21 → k.toNat = f.toNat := by
      intro hf
      simp only [fld_eq_iff, beq_iff_eq, Bool.and_eq_true, toNat_append_eq_iff, toNat_fld, Nat.div_div_eq_div_mul, BitVec.reduceToNat, Nat.reducePow,
        Nat.reduceMul, Nat.div_one, and_true] at *
      and_intros <;> omega) : Faithful op g f (.ok i) := by
  rintro j ⟨⟩
  exact ⟨BitVec.eq_of_toNat_eq (hk f.isLt) ▸ hi, hg, hw⟩

/-- The well-formedness of an operation whose fields have limits of their own (R87, R295, R303, R305). -/
theorem wf_of_limits (hw : i.wf = (g.ok && i.fieldsOk)) (hl : i.fieldsOk = true) (hg : g.ok = true) : i.wf = true := by rw [hw, hl, hg, Bool.and_self]

end Faithful

/-- The sub-maps of the opcodes that have one (R62, R63). The proof walks the decoder: one rule for each kind of test, one for an operation. -/
theorem faithful_subMaps (g : Guard) (f : BitVec 21) :
    Faithful 0x00#7 g f (decodeFn00 g f) ∧ Faithful 0x29#7 g f (decodeFn29 g f) ∧ Faithful 0x2D#7 g f (decodeFn2D g f)
      ∧ Faithful 0x3B#7 g f (decodeFn3B g f) ∧ Faithful 0x69#7 g f (decodeFn69 g f) ∧ Faithful 0x6A#7 g f (decodeFn6A g f)
      ∧ Faithful 0x6C#7 g f (decodeFn6C g f) ∧ Faithful 0x6D#7 g f (decodeFn6D g f) ∧ Faithful 0x6E#7 g f (decodeFn6E g f) := by
  unfold decodeFn00 decodeFn29 decodeFn2D decodeFn3B decodeFn69 decodeFn6A decodeFn6C decodeFn6D decodeFn6E
  and_intros
  all_goals
    repeat' first
      | exact .error | refine .field (fun h => ?_) ?_ | refine .checked fun h => ?_
      | exact .ok rfl rfl id | exact .ok rfl rfl (Faithful.wf_of_limits rfl (by simp_all))

/-- The opcode map (R61). -/
theorem faithful_decodeOp (op : BitVec 7) (g : Guard) (f : BitVec 21) : Faithful op g f (decodeOp op g f) := by
  obtain ⟨h00, h29, h2D, h3B, h69, h6A, h6C, h6D, h6E⟩ := faithful_subMaps g f
  unfold decodeOp
  repeat' refine .opcode ?_ ?_
  all_goals first | assumption | clear h00 h29 h2D h3B h69 h6A h6C h6D h6E
  all_goals
    repeat' first
      | exact .error | refine .bit (fun h => ?_) fun h => ?_ | refine .field (fun h => ?_) ?_ | refine .checked fun h => ?_
      | exact .ok rfl rfl id | exact .ok rfl rfl (Faithful.wf_of_limits rfl (by simp_all))

/-- A word is that of its own guard, opcode and operand fields (R54). -/
theorem word_extractLsb' (w : BitVec 32) : word ⟨w.extractLsb' 29 3, w.extractLsb' 28 1⟩ (w.extractLsb' 21 7) (w.extractLsb' 0 21) = w := by
  change w.extractLsb' 29 3 ++ w.extractLsb' 28 1 ++ w.extractLsb' 21 7 ++ w.extractLsb' 0 21 = w
  rw [BitVec.extractLsb'_append_extractLsb'_eq_extractLsb' (show 29 = 28 + 1 from rfl),
    BitVec.extractLsb'_append_extractLsb'_eq_extractLsb' (show 28 = 21 + 7 from rfl),
    BitVec.extractLsb'_append_extractLsb'_eq_extractLsb' (show 21 = 0 + 21 from rfl)]
  exact fld_all w

/-- A word decodes to an operation only where its opcode and its fields do and its guard is not the reserved one (R59). -/
theorem decodeOp_of_decodeWord {w : BitVec 32} {i : Instr} (h : decodeWord w = .ok i) :
    decodeOp (w.extractLsb' 21 7) ⟨w.extractLsb' 29 3, w.extractLsb' 28 1⟩ (w.extractLsb' 0 21) = .ok i
      ∧ Guard.ok ⟨w.extractLsb' 29 3, w.extractLsb' 28 1⟩ = true := by
  unfold decodeWord at h
  dsimp only at h
  split at h
  · cases h
  · cases h
  · split at h
    next hg => exact ⟨h, hg⟩
    next => cases h

/-- A word that decodes is the word of the operation it decodes to, and that operation is well-formed. -/
theorem encode_of_decodeWord {w : BitVec 32} {i : Instr} (h : decodeWord w = .ok i) : encode i = some w ∧ i.wf = true := by
  obtain ⟨hop, hg⟩ := decodeOp_of_decodeWord h
  obtain ⟨hf, hi, hw⟩ := faithful_decodeOp _ _ _ i hop
  refine ⟨?_, hw hg⟩
  rw [encode, hf, hi, Option.map_some, word_extractLsb']

/-! ### Every operation's word decodes to it -/

namespace Laws.Codec

/-- Each control word by its own lemma; an internal step has no word. -/
theorem decodeWord_encode (i : Instr) : Statement i := by
  cases i with
  | add => apply add | sub => apply sub | and => apply and | or => apply or | xor => apply xor | andn => apply andn
  | orn => apply orn | shl => apply shl | shr => apply shr | sra => apply sra | rol => apply rol | ror => apply ror
  | mul => apply mul | mulh => apply mulh | mulhu => apply mulhu | div => apply div | divu => apply divu | rem => apply rem
  | remu => apply remu | min => apply min | max => apply max | minu => apply minu | maxu => apply maxu | addw => apply addw
  | subw => apply subw | mulw => apply mulw | clz => apply clz | ctz => apply ctz | popc => apply popc | addi => apply addi
  | andi => apply andi | ori => apply ori | xori => apply xori | shli => apply shli | shri => apply shri | srai => apply srai
  | muli => apply muli | addwi => apply addwi | movi => apply movi | movz => apply movz | movk16 => apply movk16
  | movk32 => apply movk32 | movk48 => apply movk48 | srrd => apply srrd | srwr => apply srwr | flgrd => apply flgrd
  | br => apply br | call => apply call | jalr => apply jalr | beq => apply beq | bne => apply bne | blt => apply blt
  | bge => apply bge | bltu => apply bltu | bgeu => apply bgeu | cmpEq => apply cmpEq | cmpNe => apply cmpNe | cmpLt => apply cmpLt
  | cmpGe => apply cmpGe | cmpLtu => apply cmpLtu | cmpGeu => apply cmpGeu | cmpTst => apply cmpTst | cmpiEq => apply cmpiEq
  | cmpiLt => apply cmpiLt | cmpiLtu => apply cmpiLtu | pand => apply pand | por => apply por | pxor => apply pxor
  | pandn => apply pandn | pnot => apply pnot | pmov => apply pmov | pget => apply pget | pput => apply pput | ldb => apply ldb
  | ldbs => apply ldbs | ldh => apply ldh | ldhs => apply ldhs | ldw => apply ldw | ldws => apply ldws | ldd => apply ldd
  | stb => apply stb | sth => apply sth | stw => apply stw | std => apply std | amoSwapW => apply amoSwapW
  | amoAddW => apply amoAddW | amoAndW => apply amoAndW | amoOrW => apply amoOrW | amoXorW => apply amoXorW | amoMinW => apply amoMinW
  | amoMaxW => apply amoMaxW | amoMinuW => apply amoMinuW | amoMaxuW => apply amoMaxuW | amoCasW => apply amoCasW
  | amoSwapD => apply amoSwapD | amoAddD => apply amoAddD | amoAndD => apply amoAndD | amoOrD => apply amoOrD
  | amoXorD => apply amoXorD | amoMinD => apply amoMinD | amoMaxD => apply amoMaxD | amoMinuD => apply amoMinuD
  | amoMaxuD => apply amoMaxuD | amoCasD => apply amoCasD | vpass => apply vpass | vpassr => apply vpassr | wait => apply wait
  | waitAll => apply waitAll | nop => apply nop | endProg => apply endProg | tret => apply tret | shapeReq => apply shapeReq
  | shapeRel => apply shapeRel | cfgLd => apply cfgLd | cfgPre => apply cfgPre | cfgGo => apply cfgGo | cfgWait => apply cfgWait
  | cfgStop => apply cfgStop | cfgDrop => apply cfgDrop | parmWr => apply parmWr | cfgStat => apply cfgStat | sqSend => apply sqSend
  | sqSendX2 => apply sqSendX2 | sqSendEoi => apply sqSendEoi | sqSendEos => apply sqSendEos | sqRecv => apply sqRecv
  | leaseBar => apply leaseBar | achOpen => apply achOpen | achJoin => apply achJoin | achWait => apply achWait
  | achWaitJ => apply achWaitJ | achClose => apply achClose | achCloseJ => apply achCloseJ | achAbort => apply achAbort
  | achStat => apply achStat | achStatJ => apply achStatJ | cqSub => apply cqSub | cqKick => apply cqKick | cntAdd => apply cntAdd
  | cntWait => apply cntWait | cntRd => apply cntRd | taskArm => apply taskArm | taskKill => apply taskKill
  | taskStat => apply taskStat | bankMode => apply bankMode | resOpen => apply resOpen | resPrio => apply resPrio
  | resDrop => apply resDrop | amdSwapW => apply amdSwapW | amdAddW => apply amdAddW | amdAndW => apply amdAndW
  | amdOrW => apply amdOrW | amdXorW => apply amdXorW | amdMinW => apply amdMinW | amdMaxW => apply amdMaxW
  | amdMinuW => apply amdMinuW | amdMaxuW => apply amdMaxuW | amdCasW => apply amdCasW | amdSwapD => apply amdSwapD
  | amdAddD => apply amdAddD | amdAndD => apply amdAndD | amdOrD => apply amdOrD | amdXorD => apply amdXorD | amdMinD => apply amdMinD
  | amdMaxD => apply amdMaxD | amdMinuD => apply amdMinuD | amdMaxuD => apply amdMaxuD | amdCasD => apply amdCasD
  | amdAfadd => apply amdAfadd | fence => apply fence | barArr => apply barArr | barWait => apply barWait | ringHead => apply ringHead
  | ringTail => apply ringTail | ringReset => apply ringReset | tlbInva => apply tlbInva | tlbInvs => apply tlbInvs
  | tlbInvall => apply tlbInvall | handStk => apply handStk | trap => apply trap | yield => apply yield | mgr => apply mgr
  | mgw => apply mgw
  | _ => exact fun w h _ => nomatch (show none = some w from h)

end Laws.Codec

/-- Settles O54: each word is the encoding of the instruction named, and an encoding decodes to its operation. -/
theorem wordsOfTheManualDecode : Obligations.WordsOfTheManualDecode := by
  unfold Obligations.WordsOfTheManualDecode
  and_intros
  all_goals exact Laws.Codec.decodeWord_encode _ _ rfl rfl

/-- Settles O55: the word of an operation by the operation's own lemma, a word that decodes by the tests that the decoder has made, and two operations
with one word through what that word decodes to. -/
theorem decodingAndEncodingAgree : Obligations.DecodingAndEncodingAgree := by
  unfold Obligations.DecodingAndEncodingAgree
  have hdec : ∀ (i : Instr) (w : BitVec 32), i.wf = true → encode i = some w → decodeWord w = .ok i := fun i w hi hw => Laws.Codec.decodeWord_encode i w hw hi
  refine ⟨hdec, fun w i => encode_of_decodeWord, fun i j hi hj hij hne => ?_⟩
  obtain ⟨w, hw⟩ := Option.ne_none_iff_exists'.mp hne
  have hok : Except.ok i = Except.ok j := (hdec i w hi hw).symm.trans (hdec j w hj (hij ▸ hw))
  exact Except.ok.inj hok

end Sys2Proof

/-! Scratchpad loads and stores: how they issue, make their bank access and complete (R22 to R24, R57, R69, R84, R85). -/

namespace Sys2Proof.Machine

/-! ### The issue of an operation (R17, R21) -/

theorem Ctx.cntLd_pushOp_load (x : Ctx) (d : BitVec 5) (b : OpBody) : (x.pushOp false d b).cntLd = x.cntLd + 1 := by simp [Ctx.cntLd, Ctx.pushOp]

theorem Ctx.cntSt_pushOp_load (x : Ctx) (d : BitVec 5) (b : OpBody) : (x.pushOp false d b).cntSt = x.cntSt := by simp [Ctx.cntSt, Ctx.pushOp]

theorem Ctx.cntSt_pushOp_store (x : Ctx) (d : BitVec 5) (b : OpBody) : (x.pushOp true d b).cntSt = x.cntSt + 1 := by simp [Ctx.cntSt, Ctx.pushOp]

theorem Ctx.cntLd_pushOp_store (x : Ctx) (d : BitVec 5) (b : OpBody) : (x.pushOp true d b).cntLd = x.cntLd := by simp [Ctx.cntLd, Ctx.pushOp]

theorem Ctx.pends_pushOp_self (x : Ctx) (st : Bool) {d : BitVec 5} (b : OpBody) (hd : d ≠ 0) : (x.pushOp st d b).pends d = true := by
  simpa [Ctx.pends, Ctx.pushOp] using hd

theorem loadWords_width {g : Guard} {r a : BitVec 5} {off : BitVec 11} : ∀ e ∈ loadWords g r a off, e.2.1 = 1 ∨ e.2.1 = 2 ∨ e.2.1 = 4 ∨ e.2.1 = 8 := by
  simp [loadWords]

theorem storeWords_width {g : Guard} {r a : BitVec 5} {off : BitVec 11} : ∀ e ∈ storeWords g r a off, e.2 = 1 ∨ e.2 = 2 ∨ e.2 = 4 ∨ e.2 = 8 := by
  simp [storeWords]

section Issue
variable {s : State} {g : Guard} {r a : BitVec 5} {off : BitVec 11}

/-- A load whose address passes every check of R22 issues. -/
theorem exec_loadWord_issues (hg : s.self.guard g = true) (hp : s.self.pends r = false) (hl : s.self.cntLd < 31) {e : Instr × Nat × Bool}
    (he : e ∈ loadWords g r a off) (hok : s.SpadOk s.cur (s.self.reg a + BitVec.ofInt 64 (e.2.1 * off.toInt)).toNat e.2.1) :
    exec e.1 s = .next (s.withSelf
      (s.self.pushOp false r (.load (s.self.reg a + BitVec.ofInt 64 (e.2.1 * off.toInt)).toNat e.2.1 e.2.2)).advance) := by
  rw [← effAddr_eq] at hok ⊢
  rw [exec_loadWord s he, State.load_go hg hp hl (loadWords_width e he) hok]

/-- A store whose address passes every check of R22 issues, with the value of g[t] at issue. -/
theorem exec_storeWord_issues (hg : s.self.guard g = true) (hl : s.self.cntSt < 31) {e : Instr × Nat}
    (he : e ∈ storeWords g r a off) (hok : s.SpadOk s.cur (s.self.reg a + BitVec.ofInt 64 (e.2 * off.toInt)).toNat e.2) :
    exec e.1 s = .next (s.withSelf
      (s.self.pushOp true 0 (.store (s.self.reg a + BitVec.ofInt 64 (e.2 * off.toInt)).toNat e.2 (s.self.reg r))).advance) := by
  rw [← effAddr_eq] at hok ⊢
  rw [exec_storeWord s he, State.store_go hg hl (storeWords_width e he) hok]

end Issue

/-! ### The bank access of an operation (R23, R24) -/

/-- Two changes of one context are one change. -/
theorem State.updCtx_updCtx (s : State) (c : CtxId) (f h : Ctx → Ctx) : (s.updCtx c f).updCtx c h = s.updCtx c (fun x => h (f x)) := by
  simp [State.updCtx]

@[simp] theorem State.ctx_updCtx_self (s : State) (c : CtxId) (f : Ctx → Ctx) : (s.updCtx c f).ctx c = f (s.ctx c) := State.ctx_setCtx_self ..

/-- What a change of the first element that meets a test leaves to be found, where the change does not touch the test. -/
theorem find?_updFirst {α : Type} {p : α → Bool} {f : α → α} (hp : ∀ x, p (f x) = p x) (l : List α) : (updFirst p f l).find? p = (l.find? p).map f := by
  induction l with
  | nil => rfl
  | cons x l ih =>
    cases h : p x with
    | true => simp [updFirst, h, hp]
    | false => simp [updFirst, h, ih]

/-- A raised trap leaves the operations of its context as they are. -/
theorem State.ops_raise (s : State) (c : CtxId) (t : Trap) : ((s.raise c t).ctx c).ops = (s.ctx c).ops := by
  unfold State.raise State.trapEntry
  dsimp only
  split
  · split
    · simp
    · split
      · simp
      · split
        · simp [State.stopTrap_ctx]
        · split
          · simp [Ctx.enter]
          · simp
  · rfl

/-- The two's-complement reading of n bytes, in 64 bits, is their sign extension. -/
theorem ofInt_patInt_eq_signExtend {w : Nat} (hw : 0 < w) (v : Nat) : BitVec.ofInt 64 (patInt w true v) = (BitVec.ofNat w v).signExtend 64 := by
  have hpow : 2 ^ w = 2 * 2 ^ (w - 1) := by rw [← pow_succ', Nat.sub_add_cancel hw]
  have hlt : v % 2 ^ w < 2 ^ w := Nat.mod_lt _ (Nat.two_pow_pos w)
  have hsign : v % 2 ^ w / 2 ^ (w - 1) = 1 ↔ ¬ 2 * (v % 2 ^ w) < 2 ^ w := by
    rw [Nat.div_eq_iff (Nat.two_pow_pos _)]
    omega
  have hint : patInt w true v = (BitVec.ofNat w v).toInt := by
    simp only [patInt, BitVec.toInt_eq_toNat_cond, BitVec.toNat_ofNat, Bool.true_and, beq_iff_eq, hsign, ite_not]
  rw [hint]
  rfl

/-- The value that a load of n bytes gives (R84). -/
theorem loadVal_eq {n : Nat} (hn : 0 < n) (sg : Bool) (bs : List Byte) :
    loadVal n sg bs = if sg then (BitVec.ofNat (8 * n) (ofBytes bs)).signExtend 64 else BitVec.ofNat 64 (ofBytes bs) := by
  unfold loadVal
  rw [ofInt_patInt_eq_signExtend (by omega)]

section Access
variable {s : State} {c : CtxId} {o : MemOp} {id a n : Nat} {r : BitVec 5} {sg : Bool} {w : BitVec 16} {t : Trap} {v : W64}

/-- An operation that has made its access makes none again. -/
theorem State.bankAccess_of_res (h : o.res.isSome = true) : s.bankAccess c o = s := by
  unfold State.bankAccess
  split
  · rfl
  · simp [h]

/-- An access that meets an uncorrectable error raises it (R24). -/
theorem State.bankAccess_ecc (hr : o.body.range = some (a, n)) (hst : o.isStore = false) (hd : o.done = false) (hres : o.res = none)
    (hready : opReady o.id o.body (s.ctx c).ops = true) (hz : (s.ctx c).zeroing a n = false) (he : s.spadEcc c a n false = some t) :
    s.bankAccess c o = s.lateTrap c o.id o.ipc t := by
  simp [State.bankAccess, hr, hst, hd, hres, hready, hz, he]

/-- The access of a load reads its bytes (R23, R84). -/
theorem State.bankAccess_load (hb : o.body = .load a n sg) (hst : o.isStore = false) (hd : o.done = false) (hres : o.res = none)
    (hready : opReady o.id o.body (s.ctx c).ops = true) (hz : (s.ctx c).zeroing a n = false) (he : s.spadEcc c a n false = none) :
    s.bankAccess c o = s.updOp c o.id (fun q => { q with res := some (loadVal n sg (s.spadBytes c a n)) }) := by
  rw [hb] at hready
  simp [State.bankAccess, OpBody.range, hb, hst, hd, hres, hready, hz, he]

/-- An operation that has its value writes it and is counted out (R69). -/
theorem State.opWrite_of_res (hf : (s.ctx c).ops.find? (fun q => q.id == id) = some o) (hres : o.res = some v) :
    s.opWrite c id = s.updCtx c (fun x => (x.setReg o.dst v).finishOp id) := by
  obtain ⟨_, _, _, _, _, _, res⟩ := o
  subst hres
  simp [State.opWrite, hf]

theorem State.opWrite_of_none (hf : (s.ctx c).ops.find? (fun q => q.id == id) = none) : s.opWrite c id = s := by simp [State.opWrite, hf]

/-- An operation that traps late is not counted out: it is gone (R24, R30). -/
theorem State.opWrite_lateTrap : (s.lateTrap c id w t).opWrite c id = s.lateTrap c id w t :=
  State.opWrite_of_none (by simp [State.lateTrap, State.ops_raise])

/-- The completion of an operation whose value is read at that move. -/
theorem State.opWrite_updOp (hf : (s.ctx c).ops.find? (fun q => q.id == id) = some o) :
    (s.updOp c id (fun q => { q with res := some v })).opWrite c id = s.updCtx c (fun x =>
      (({ x with ops := updFirst (fun q => q.id == id) (fun q => { q with res := some v }) x.ops } : Ctx).setReg o.dst v).finishOp id) := by
  have hfind : ((s.updOp c id (fun q => { q with res := some v })).ctx c).ops.find? (fun q => q.id == id) = some { o with res := some v } := by
    rw [State.updOp, State.ctx_updCtx_self]
    exact (find?_updFirst (f := fun q => { q with res := some v }) (fun _ => rfl) _).trans (congrArg _ hf)
  rw [State.opWrite_of_res hfind rfl, State.updOp, State.updCtx_updCtx]

/-- The completion step of a pending load makes its access, unless made before, and writes its register (R23, R69, R84). -/
theorem exec_spadLoadComplete_of_pending {i : Nat} (ho : (s.ctx c).ops[i]? = some o) (hb : o.body = .load a n sg) (hd : o.done = false) :
    exec (.spadLoadComplete c i) s = .next ((s.bankAccess c o).opWrite c o.id) := by
  rw [exec_spadLoadComplete, execSpadLoadComplete, Ctx.opAt, ho]
  simp [hb, hd]

end Access

/-- Settles O8: a load issues where its checks pass; its completion is its bank access, unless made before, and the write of its register. -/
theorem loadsReadTheirBytes : Obligations.LoadsReadTheirBytes := by
  unfold Obligations.LoadsReadTheirBytes
  refine ⟨?_, ?_⟩
  · intro s g r a off hg hp hl e he ea hea hok
    subst hea
    refine ⟨_, exec_loadWord_issues hg hp hl he hok, rfl, ?_⟩
    simp only [State.self, State.setCtx_cur, State.ctx_setCtx_self]
    exact ⟨Ctx.cntLd_pushOp_load .., Ctx.cntSt_pushOp_load .., Ctx.pends_pushOp_self _ _ _⟩
  · intro s c i id a n r sg w hn
    have hn0 : 0 < n := by simp at hn; omega
    refine ⟨fun o ho hi hf hready hz => ⟨fun v hv he => ?_, fun t he => ?_⟩, fun v hi hf => ?_⟩
    · subst ho
      rw [exec_spadLoadComplete_of_pending hi rfl rfl, State.bankAccess_load rfl rfl rfl rfl hready hz he, loadVal_eq hn0, ← hv,
        State.opWrite_updOp hf]
    · subst ho
      rw [exec_spadLoadComplete_of_pending hi rfl rfl, State.bankAccess_ecc rfl rfl rfl rfl hready hz he, State.opWrite_lateTrap]
      rfl
    · rw [exec_spadLoadComplete_of_pending hi rfl rfl, State.bankAccess_of_res rfl, State.opWrite_of_res hf rfl]

/-! ### The completion of a store (R23, R85) -/

theorem length_toBytes (n v : Nat) : (toBytes n v).length = n := by
  induction n generalizing v with
  | zero => rfl
  | succ n ih => rw [toBytes, List.length_cons, ih]

/-- Byte j of a number, little-endian (R5). -/
theorem getElem_toBytes {n j : Nat} (v : Nat) (hj : j < (toBytes n v).length) : (toBytes n v)[j] = BitVec.ofNat 8 (v / 256 ^ j) := by
  induction n generalizing v j with
  | zero => simp [toBytes] at hj
  | succ n ih =>
    cases j with
    | zero => simp [toBytes]
    | succ j =>
      simp only [toBytes, List.getElem_cons_succ]
      rw [ih, Nat.div_div_eq_div_mul, pow_succ']

/-- The SRAM addresses of an access that lies in one bank (R22). -/
theorem Ctx.sramAddr_add {x : Ctx} {a n : Nat} {b : BudBank} (hb : x.banks[a / 2 ^ 17]? = some b) (hn : a % 2 ^ 17 + n ≤ 2 ^ 17) {j : Nat} (hj : j < n) :
    x.sramAddr (a + j) = b.bank * 2 ^ 17 + a % 2 ^ 17 + j := by
  have hix : (a + j) / 2 ^ 17 = a / 2 ^ 17 := by omega
  have hmod : (a + j) % 2 ^ 17 = a % 2 ^ 17 + j := by omega
  simp only [Ctx.sramAddr, Ctx.bank?, bankIx, hix, hb, hmod]
  omega

/-- The bytes of a write that lies in one bank stand at its SRAM addresses, and every other byte of the core's SRAM is as it was (R22, R25). -/
theorem State.get_spadWrite {s : State} {c : CtxId} {a : Nat} {b : BudBank} {bs : List Byte} (hwf : (s.core (coreOf c)).sram.wf = true)
    (hb : (s.ctx c).banks[a / 2 ^ 17]? = some b) (hn : a % 2 ^ 17 + bs.length ≤ 2 ^ 17) :
    (∀ j (hj : j < bs.length), ((s.spadWrite c a bs).core (coreOf c)).sram.get (b.bank * 2 ^ 17 + a % 2 ^ 17 + j) = bs[j])
      ∧ ∀ p, p < b.bank * 2 ^ 17 + a % 2 ^ 17 ∨ b.bank * 2 ^ 17 + a % 2 ^ 17 + bs.length ≤ p →
          ((s.spadWrite c a bs).core (coreOf c)).sram.get p = (s.core (coreOf c)).sram.get p := by
  have haddr : ∀ j, j < bs.length → (s.ctx c).sramAddr (a + j) = b.bank * 2 ^ 17 + a % 2 ^ 17 + j := fun j hj => Ctx.sramAddr_add hb hn hj
  rw [State.spadWrite_sram]
  refine ⟨fun j hj => ?_, fun p hp => Mem.get_place_of_ne hwf _ _ _ _ fun j hj => ?_⟩
  · rw [← haddr j hj]
    refine Mem.get_place hwf _ _ _ (fun i k hi hk he => ?_) hj
    rw [haddr i hi, haddr k hk] at he
    omega
  · rw [haddr j hj]
    omega

/-- The completion step of a pending store that nothing holds back writes its bytes and counts it out (R23, R69, R85). -/
theorem exec_spadStoreComplete_of_ready {s : State} {c : CtxId} {i a n : Nat} {v : W64} {o : MemOp} (ho : (s.ctx c).ops[i]? = some o)
    (hb : o.body = .store a n v) (hd : o.done = false) (hready : opReady o.id (.store a n v) (s.ctx c).ops = true) (hz : (s.ctx c).zeroing a n = false) :
    exec (.spadStoreComplete c i) s = .next ((s.spadWrite c a (toBytes n v.toNat)).updCtx c (fun x => x.finishOp o.id)) := by
  rw [exec_spadStoreComplete, execSpadStoreComplete]
  simp [Ctx.opAt, ho, hb, hd, hready, hz]

/-- Settles O9: a store issues where its checks pass; its completion is one write of the scratchpad, which lies in one bank. -/
theorem storesWriteTheirBytes : Obligations.StoresWriteTheirBytes := by
  unfold Obligations.StoresWriteTheirBytes
  refine ⟨?_, ?_⟩
  · intro s g r a off hg hl e he ea hea hok
    subst hea
    refine ⟨_, exec_storeWord_issues hg hl he hok, rfl, ?_⟩
    simp only [State.self, State.setCtx_cur, State.ctx_setCtx_self]
    exact ⟨Ctx.cntSt_pushOp_store .., Ctx.cntLd_pushOp_store ..⟩
  · intro s c i id a n st r v b w res ho hready hz hb hn _ hwf
    have hlen : (toBytes n v.toNat).length = n := length_toBytes ..
    obtain ⟨hin, hout⟩ := State.get_spadWrite (bs := toBytes n v.toNat) hwf hb (hlen.symm ▸ hn)
    obtain ⟨hcore, hctx, hmem, hunspec⟩ := s.spadWrite_frame c a (toBytes n v.toNat)
    refine ⟨_, exec_spadStoreComplete_of_ready ho rfl rfl hready hz, fun j hj => ?_, fun k p hkp => ?_, fun pa => ?_, fun d => ?_⟩
    · exact (hin j (hlen.symm ▸ hj)).trans (getElem_toBytes ..)
    · by_cases hk : k = coreOf c
      · subst hk
        exact hout p (hlen.symm ▸ hkp.resolve_left (· rfl))
      · exact congrArg (fun u => u.sram.get p) (hcore k hk)
    · show (s.spadWrite c a (toBytes n v.toNat)).devByte pa = s.devByte pa
      rw [State.devByte, hmem, hunspec, State.devByte]
    · rw [State.updCtx, State.ctx_setCtx, hctx c, hctx d]

end Sys2Proof.Machine

/-! Values of the control instructions as the manual's arithmetic gives them (R71 to R75, R95): counts of bits, divisions, halves, and patterns read as
integers. -/

namespace Sys2Proof.Machine

/-! ### Counts of bits (R71) -/

theorem toNat_ne_zero_of_ne_zero {v : W64} (hv : v ≠ 0) : v.toNat ≠ 0 := fun h => hv (BitVec.eq_of_toNat_eq h)

/-- The highest bit that is 1 stands at 63 - CLZ. -/
theorem toNat_clz64 {v : W64} (hv : v ≠ 0) : (clz64 v).toNat < 64 ∧ 63 - (clz64 v).toNat = Nat.log2 v.toNat := by
  have hlt : Nat.log2 v.toNat < 64 := (Nat.log2_lt (toNat_ne_zero_of_ne_zero hv)).mpr v.isLt
  rw [clz64, if_neg hv, BitVec.toNat_ofNat]
  omega

theorem clz64_exact (v : W64) : (clz64 v).toNat ≤ 64 ∧ (∀ i, i < (clz64 v).toNat → v.getLsbD (63 - i) = false)
    ∧ (v ≠ 0 → (clz64 v).toNat < 64 ∧ v.getLsbD (63 - (clz64 v).toNat) = true) := by
  by_cases hv : v = 0
  · subst hv
    simp [clz64]
  · obtain ⟨hlt, heq⟩ := toNat_clz64 hv
    have h0 := toNat_ne_zero_of_ne_zero hv
    refine ⟨hlt.le, fun i hi => ?_, fun _ => ⟨hlt, ?_⟩⟩
    · exact Nat.testBit_lt_two_pow ((Nat.log2_lt h0).mp (by omega))
    · rw [heq]
      exact Nat.testBit_log2 h0

/-- The first bit that is 1 among the n bits from i, or i + n where there is none. -/
theorem ctzFrom_exact (v : W64) (n i : Nat) : ctzFrom v n i ≤ i + n ∧ (∀ j, i ≤ j → j < ctzFrom v n i → v.getLsbD j = false)
    ∧ (ctzFrom v n i < i + n → v.getLsbD (ctzFrom v n i) = true) := by
  induction n generalizing i with
  | zero => exact ⟨le_rfl, fun j hj hlt => absurd hlt hj.not_gt, fun h => absurd h (lt_irrefl i)⟩
  | succ n ih =>
    rw [ctzFrom]
    split
    next hi => exact ⟨by omega, fun j hj hlt => absurd hlt hj.not_gt, fun _ => hi⟩
    next hi =>
      obtain ⟨hub, hbelow, hat⟩ := ih (i + 1)
      refine ⟨by omega, fun j hj hlt => ?_, fun h => hat (by omega)⟩
      rcases hj.eq_or_lt with rfl | hj
      · exact Bool.eq_false_iff.mpr hi
      · exact hbelow j hj hlt

theorem ctz64_exact (v : W64) : (ctz64 v).toNat ≤ 64 ∧ (∀ i, i < (ctz64 v).toNat → v.getLsbD i = false)
    ∧ (v ≠ 0 → (ctz64 v).toNat < 64 ∧ v.getLsbD (ctz64 v).toNat = true) := by
  obtain ⟨hub, hbelow, hat⟩ := ctzFrom_exact v 64 0
  have heq : (ctz64 v).toNat = ctzFrom v 64 0 := by
    rw [ctz64, BitVec.toNat_ofNat]
    omega
  have hlt : v ≠ 0 → ctzFrom v 64 0 < 64 := fun hv => by
    by_contra hge
    exact hv (BitVec.eq_of_getLsbD_eq fun j hj => by simp [hbelow j (Nat.zero_le j) (by omega)])
  rw [heq]
  exact ⟨by omega, fun i hi => hbelow i (Nat.zero_le i) hi, fun hv => ⟨hlt hv, hat (by simpa using hlt hv)⟩⟩

theorem popFrom_eq_length_filter (v n : Nat) : popFrom v n = ((List.range n).filter (fun i => v.testBit i)).length := by
  induction n generalizing v with
  | zero => rfl
  | succ n ih =>
    have hsucc : ((fun i => v.testBit i) ∘ Nat.succ) = fun i => (v / 2).testBit i := funext fun i => Nat.testBit_succ ..
    rw [popFrom, ih, List.range_succ_eq_map, List.filter_cons, List.filter_map, Nat.testBit_zero, hsucc]
    rcases Nat.mod_two_eq_zero_or_one v with h | h <;> simp [h, Nat.add_comm]

/-! ### Divisions (R72) -/

theorem divS_eq (a b : W64) : divS a b = if b = 0 then BitVec.allOnes 64 else BitVec.ofInt 64 (a.toInt.tdiv b.toInt) := by
  rw [divS, ← BitVec.eq_of_toInt_eq ((BitVec.toInt_sdiv a b).trans (BitVec.toInt_ofInt _).symm)]

theorem remS_eq (a b : W64) : remS a b = if b = 0 then a else BitVec.ofInt 64 (a.toInt.tmod b.toInt) := by
  rw [remS, ← BitVec.toInt_srem, BitVec.ofInt_toInt]

theorem divU_eq (a b : W64) : divU a b = if b = 0 then BitVec.allOnes 64 else BitVec.ofNat 64 (a.toNat / b.toNat) := by
  rw [divU, ← BitVec.toNat_udiv, BitVec.ofNat_toNat, BitVec.setWidth_eq]

theorem remU_eq (a b : W64) : remU a b = if b = 0 then a else BitVec.ofNat 64 (a.toNat % b.toNat) := by
  rw [remU, ← BitVec.toNat_umod, BitVec.ofNat_toNat, BitVec.setWidth_eq]

/-! ### Parts of a word (R74, R75) -/

theorem getLsbD_putHalf (v : W64) (lo : Nat) (h : BitVec 16) {j : Nat} (hj : j < 64) :
    (putHalf v lo h).getLsbD j = if lo ≤ j ∧ j < lo + 16 then h.getLsbD (j - lo) else v.getLsbD j := by
  have hmask : ∀ k, k < 64 → (0xFFFF#64).getLsbD k = decide (k < 16) := by decide
  have hk : j - lo < 64 := by omega
  simp only [putHalf, BitVec.getLsbD_or, BitVec.getLsbD_and, BitVec.getLsbD_not, BitVec.getLsbD_shiftLeft, BitVec.truncate_eq_setWidth,
    BitVec.getLsbD_setWidth, hj, hk, hmask (j - lo) hk, decide_true, Bool.true_and]
  split
  next hin => simp [hin.1.not_gt, show j - lo < 16 by omega]
  next hout =>
    by_cases hlo : lo ≤ j
    · simp [hlo.not_gt, show ¬ j - lo < 16 by omega, BitVec.getLsbD_of_ge h (j - lo) (by omega)]
    · simp [Nat.lt_of_not_le hlo]

/-! ### Patterns read as integers (R36, R157) -/

theorem patInt_toNat {w : Nat} (hw : 0 < w) (x : BitVec w) : patInt w true x.toNat = x.toInt := by
  have hpow : 2 ^ w = 2 * 2 ^ (w - 1) := by rw [← pow_succ', Nat.sub_add_cancel hw]
  have hr : x.toNat < 2 ^ w := x.isLt
  have hsign : x.toNat / 2 ^ (w - 1) = 1 ↔ 2 ^ (w - 1) ≤ x.toNat := by
    rw [Nat.div_eq_iff (Nat.two_pow_pos _)]
    omega
  simp only [patInt, Bool.true_and, beq_iff_eq, Nat.mod_eq_of_lt hr, BitVec.toInt_eq_msb_cond, BitVec.msb_eq_decide, decide_eq_true_eq, hsign]

theorem intPat_eq (w : Nat) (v : Int) : intPat w v = (BitVec.ofInt w v).toNat := (BitVec.toNat_ofInt ..).symm

end Sys2Proof.Machine

/-! The scalar words' values, and the words that change the flow (R57, R71 to R83). -/

namespace Sys2Proof.Machine

/-! ### The ALU words and divisions (R71, R72) -/

/-- Operand fields appended one by one, or the last two first. -/
theorem append_fields {n : Nat} (x : BitVec n) (y : BitVec 5) (z : BitVec 6) : (x ++ y ++ z : BitVec (n + 11)) = x ++ (y ++ z) := BitVec.append_assoc

/-- Settles O1: each word is one of the shared operations on its registers; what they compute is the table's arithmetic by the lemmas about the counts and the
divisions. -/
theorem aluWordsWriteTheirResult : Obligations.AluWordsWriteTheirResult := by
  unfold Obligations.AluWordsWriteTheirResult
  refine ⟨?_, ?_, ?_, ?_, ?_⟩
  · intro s g d a b hg hp
    have alu : ∀ f, s.alu g d a b f = .next (s.withSelf (s.self.setReg d (f (s.self.reg a) (s.self.reg b))).advance) := fun _ => State.alu_go hg hp
    have aluI : ∀ f, s.aluI g d a f = .next (s.withSelf (s.self.setReg d (f (s.self.reg a))).advance) := fun _ => State.aluI_go hg hp
    have count : ∀ k : BitVec 6, some (word g 0x00 (d ++ a ++ (0#5 ++ k))) = some (word g 0x00 (d ++ a ++ 0#5 ++ k)) := fun k => by rw [append_fields]
    simp only [List.forall_mem_cons, exec_add, exec_sub, exec_and, exec_or, exec_xor, exec_andn, exec_orn, exec_shl, exec_shr, exec_sra, exec_rol, exec_ror,
      exec_mul, exec_mulh, exec_mulhu, exec_min, exec_max, exec_minu, exec_maxu, exec_addw, exec_subw, exec_mulw, exec_clz, exec_ctz, exec_popc,
      execAdd, execSub, execAnd, execOr, execXor, execAndn, execOrn, execShl, execShr, execSra, execRol, execRor, execMul, execMulh, execMulhu, execMin,
      execMax, execMinu, execMaxu, execAddw, execSubw, execMulw, execClz, execCtz, execPopc, alu, aluI, sextW, BitVec.slt_eq_decide, BitVec.ult_eq_decide,
      decide_eq_true_eq, true_and, BitVec.ofNat_eq_ofNat, BitVec.reduceLE, reduceIte]
    exact ⟨rfl, rfl, rfl, rfl, rfl, rfl, rfl, rfl, rfl, rfl, rfl, rfl, rfl, rfl, rfl, rfl, rfl, rfl, rfl, rfl, rfl, rfl, count 27,
      count 28, count 29, List.forall_mem_nil _⟩
  · intro v
    obtain ⟨hclz, hzeros, hlead⟩ := clz64_exact v
    obtain ⟨hctz, hlow, htrail⟩ := ctz64_exact v
    exact ⟨hclz, hzeros, hlead, rfl, hctz, hlow, htrail, rfl, popFrom_eq_length_filter ..⟩
  · intro s g d a b hg hp hb
    have divide : ∀ f v, f (s.self.reg a) (s.self.reg b) = v → ∃ t, s.divide g d a b f = .next t ∧ t.self = (s.self.setReg d v).advance
        ∧ (t.core (coreOf s.cur)).divBusy = true
        ∧ t = (s.withSelf t.self).setCore (coreOf s.cur) { s.core (coreOf s.cur) with divBusy := true } := by
      rintro f v rfl
      refine ⟨_, State.divide_go hg hp hb, by simp [State.self], by simp, ?_⟩
      simp only [State.self, State.updCore_cur, State.setCtx_cur, State.ctx_updCore, State.ctx_setCtx_self]
      rfl
    simp only [List.forall_mem_cons, exec_div, exec_divu, exec_rem, exec_remu, execDiv, execDivu, execRem, execRemu]
    exact ⟨⟨rfl, divide _ _ (divS_eq ..)⟩, ⟨rfl, divide _ _ (divU_eq ..)⟩, ⟨rfl, divide _ _ (remS_eq ..)⟩, ⟨rfl, divide _ _ (remU_eq ..)⟩,
      List.forall_mem_nil _⟩
  · intro s g d a b hb i hi
    obtain ⟨f, hf⟩ := exec_eq_divide_of_mem_divWords s hi
    rw [hf, State.divide_hold hb]
  · exact fun s k => ⟨_, exec_dividerComplete .., by simp, rfl⟩

/-! ### Words that decode to nothing (R59) -/

theorem extractLsb'_word (g : Guard) (op : BitVec 7) (f : BitVec 21) :
    (word g op f).extractLsb' 21 7 = op ∧ (word g op f).extractLsb' 0 21 = f := by
  unfold word
  rw [fld_high _ _ le_rfl, fld_low _ _ (by decide), fld_low _ _ (by decide)]
  exact ⟨fld_all op, fld_all f⟩

/-- Where no operation has the opcode and the operand fields, the word is refused. -/
theorem decodeWord_word_error {op : BitVec 7} {f : BitVec 21} (g : Guard) (h : ∀ u i, decodeOp op u f ≠ .ok i) :
    ∃ e, decodeWord (word g op f) = .error e := by
  cases hw : decodeWord (word g op f) with
  | error e => exact ⟨e, rfl⟩
  | ok i =>
    have hop := (decodeOp_of_decodeWord hw).1
    rw [(extractLsb'_word g op f).1, (extractLsb'_word g op f).2] at hop
    exact absurd hop (h _ i)

theorem checked_ne_ok {ok : Bool} {i j : Instr} (h : ok = false) : checked ok i ≠ .ok j := by simp [checked, h]

/-- A shift count above 63 has a bit in the reserved field. -/
theorem reserved_of_count (d a : BitVec 5) {i : BitVec 11} (h : 64 ≤ i.toNat) : (fld (d ++ a ++ i) 6 5 == 0#5) = false := by
  have hi := i.isLt
  rw [beq_eq_false_iff_ne, fld, fld_low _ _ (by decide), Ne, ← BitVec.toNat_inj, BitVec.extractLsb'_toNat, Nat.shiftRight_eq_div_pow]
  simp only [BitVec.toNat_ofNat]
  omega

/-- A destination above p7 has a bit in the reserved field. -/
theorem reserved_of_predicate {d : BitVec 5} (a b : BitVec 5) (fn : BitVec 6) (h : 8 ≤ d.toNat) : (fld (d ++ a ++ b ++ fn) 19 2 == 0#2) = false := by
  have hd := d.isLt
  rw [beq_eq_false_iff_ne, fld, fld_high _ _ (by decide), fld_high _ _ (by decide), fld_high _ _ (by decide), Ne, ← BitVec.toNat_inj,
    BitVec.extractLsb'_toNat, Nat.shiftRight_eq_div_pow]
  simp only [BitVec.toNat_ofNat]
  omega

theorem decodeFn29_ne_ok {f : BitVec 21} (h : (fld f 19 2 == 0#2) = false) (g : Guard) (i : Instr) : decodeFn29 g f ≠ .ok i := by
  unfold decodeFn29
  simp only [checked, h, Bool.false_eq_true, if_false]
  repeat' split
  all_goals exact nofun

/-! ### Immediates and moves (R73, R74) -/

/-- Settles O2: the words write a register, MOVKs by their bits; a shift count above 63 meets a reserved field of the decoder. -/
theorem immediateAndMoveWordsWriteTheirResult : Obligations.ImmediateAndMoveWordsWriteTheirResult := by
  unfold Obligations.ImmediateAndMoveWordsWriteTheirResult
  refine ⟨?_, ?_, ?_⟩
  · intro s g d a i k h hg hp
    have aluI : ∀ f, s.aluI g d a f = .next (s.withSelf (s.self.setReg d (f (s.self.reg a))).advance) := fun _ => State.aluI_go hg hp
    have move : ∀ f, s.wrReg g d f = .next (s.withSelf (s.self.setReg d (f s.self)).advance) := fun _ => State.wrReg_go hg hp
    simp only [List.forall_mem_cons, exec_addi, exec_andi, exec_ori, exec_xori, exec_shli, exec_shri, exec_srai, exec_muli, exec_addwi, exec_movi,
      exec_movz, execAddi, execAndi, execOri, execXori, execShli, execShri, execSrai, execMuli, execAddwi, execMovi, execMovz, aluI, move, imm11, sextW,
      true_and]
    exact ⟨rfl, rfl, rfl, rfl, rfl, rfl, rfl, rfl, rfl, rfl, rfl, List.forall_mem_nil _⟩
  · intro s g d h hg hp
    have keep : ∀ lo, ∃ v, s.wrReg g d (fun c => putHalf (c.reg d) lo h) = .next (s.withSelf (s.self.setReg d v).advance)
        ∧ ∀ j, j < 64 → v.getLsbD j = if lo ≤ j ∧ j < lo + 16 then h.getLsbD (j - lo) else (s.self.reg d).getLsbD j :=
      fun lo => ⟨_, State.wrReg_go hg hp, fun j hj => getLsbD_putHalf _ lo h hj⟩
    simp only [List.forall_mem_cons, exec_movk16, exec_movk32, exec_movk48, execMovk16, execMovk32, execMovk48]
    exact ⟨⟨rfl, keep 16⟩, ⟨rfl, keep 32⟩, ⟨rfl, keep 48⟩, List.forall_mem_nil _⟩
  · intro g d a i hi
    have hr := reserved_of_count d a hi
    simp only [List.forall_mem_cons]
    exact ⟨decodeWord_word_error g fun u j => checked_ne_ok hr, decodeWord_word_error g fun u j => checked_ne_ok hr,
      decodeWord_word_error g fun u j => checked_ne_ok hr, List.forall_mem_nil _⟩

/-! ### Flow (R57, R81 to R83) -/

/-- Settles O3: each word by the issue of a word, and its target by brTarget_eq. -/
theorem flowWordsSetTheIpc : Obligations.FlowWordsSetTheIpc := by
  unfold Obligations.FlowWordsSetTheIpc
  refine ⟨fun g off d a imm => ⟨rfl, rfl, rfl⟩, fun s g off hg => ⟨?_, fun hp => ?_⟩, fun s g off hg => ⟨?_, fun hp => ?_⟩, fun s g d a imm hg hp => ?_, ?_⟩
  · rw [exec_br, execBr, State.issue_skip rfl hg]
  · rw [exec_call, execCall, State.issue_skip hp hg]
  · rw [exec_br, execBr, State.issue_go rfl hg, brTarget_eq]
  · rw [exec_call, execCall, State.issue_go hp hg, brTarget_eq]
  · rw [exec_jalr, execJalr, State.issue_go hp hg]
    rfl
  · intro s g a b off hg
    have branch : ∀ (f : W64 → W64 → Bool) (p : Prop), (f (s.self.reg a) (s.self.reg b) = true ↔ p) →
        (p → s.brIf g a b off f = .next (s.withSelf { s.self with ipc := BitVec.ofInt 16 (s.self.ipc.toNat + 4 * off.toInt) }))
        ∧ (¬p → s.brIf g a b off f = .next (s.withSelf { s.self with ipc := s.self.ipc + 4 })) := by
      intro f p hf
      rw [State.brIf_go hg, ← brTarget_eq]
      exact ⟨fun h => by rw [if_pos (hf.mpr h)], fun h => by rw [if_neg (mt hf.mp h)]; rfl⟩
    simp only [List.forall_mem_cons, exec_beq, exec_bne, exec_blt, exec_bge, exec_bltu, exec_bgeu, execBeq, execBne, execBlt, execBge, execBltu, execBgeu]
    exact ⟨⟨rfl, branch _ _ beq_iff_eq⟩, ⟨rfl, branch _ _ bne_iff_ne⟩, ⟨rfl, branch _ _ (by simp [BitVec.slt_eq_decide])⟩,
      ⟨rfl, branch _ _ (by simp [BitVec.slt_eq_decide])⟩, ⟨rfl, branch _ _ (by simp [BitVec.ult_eq_decide])⟩,
      ⟨rfl, branch _ _ (by simp [BitVec.ult_eq_decide])⟩, List.forall_mem_nil _⟩

/-! ### Predicates (R77 to R80) -/

/-- Settles O4: each word is a compare with its relation, PGET writes a register, PPUT the predicates; a destination above p7 meets a reserved field. -/
theorem predicateWordsSetTheirPredicate : Obligations.PredicateWordsSetTheirPredicate := by
  unfold Obligations.PredicateWordsSetTheirPredicate
  refine ⟨?_, ?_, fun s g d hg hp => ⟨rfl, ?_⟩, fun g d a b fn hd => ?_, fun s g a hg => ⟨rfl, ?_⟩⟩
  · intro s g d a b i hg
    have cmp : ∀ f, s.cmp g d f = .next (s.withSelf (s.self.setPred d (f s.self)).advance) := fun _ => State.cmp_go hg
    have himm : (i.signExtend 64).toInt = i.toInt := BitVec.toInt_signExtend_of_le (by decide)
    have heq : ∀ x y : W64, (x == y) = decide (x = y) := fun _ _ => rfl
    have hne : ∀ x y : W64, (x != y) = decide (x ≠ y) := fun x y => by rw [bne, heq, decide_not]
    simp only [List.forall_mem_cons, exec_cmpEq, exec_cmpNe, exec_cmpLt, exec_cmpGe, exec_cmpLtu, exec_cmpGeu, exec_cmpTst, exec_cmpiEq, exec_cmpiLt,
      exec_cmpiLtu, execCmpEq, execCmpNe, execCmpLt, execCmpGe, execCmpLtu, execCmpGeu, execCmpTst, execCmpiEq, execCmpiLt, execCmpiLtu, cmp, imm11,
      heq, hne, BitVec.slt_eq_decide, BitVec.ult_eq_decide, himm, ← decide_not, Int.not_lt, Nat.not_lt, true_and]
    exact ⟨rfl, rfl, rfl, rfl, rfl, rfl, rfl, rfl, rfl, rfl, List.forall_mem_nil _⟩
  · intro s g d a b hg
    have cmp : ∀ f, s.cmp g d f = .next (s.withSelf (s.self.setPred d (f s.self)).advance) := fun _ => State.cmp_go hg
    have unary : ∀ k : BitVec 6, some (word g 0x2D (0#2 ++ d ++ 0#2 ++ a ++ (0#5 ++ k))) = some (word g 0x2D (0#2 ++ d ++ 0#2 ++ a ++ 0#5 ++ k)) :=
      fun k => by rw [append_fields]
    simp only [List.forall_mem_cons, exec_pand, exec_por, exec_pxor, exec_pandn, exec_pnot, exec_pmov, execPand, execPor, execPxor, execPandn, execPnot,
      execPmov, cmp, true_and]
    exact ⟨rfl, rfl, rfl, rfl, unary 5, unary 6, List.forall_mem_nil _⟩
  · rw [exec_pget, execPget, State.wrReg_go hg hp]
  · exact decodeWord_word_error g fun u i => decodeFn29_ne_ok (reserved_of_predicate a b fn hd) u i
  · rw [exec_pput, execPput, State.simple_go rfl hg]

/-! ### Special registers and the flag word (R45, R75, R76, R443) -/

section Special
variable {s : State} {g : Guard} {d : BitVec 5}

theorem exec_srrd_reads {n : BitVec 4} (hg : s.self.guard g = true) (hp : s.self.pends d = false) (hn : s.self.det = true → n ≠ 5) :
    exec (.srrd g d n) s = .next (s.withSelf (s.self.setReg d (s.self.sreg s.cur n)).advance) := by
  have hc : ¬(s.self.det && n == 5) = true := by simpa using hn
  rw [exec_srrd, execSrrd, State.issue_go (hold := fun c => c.pends d) hp hg, if_neg hc]

theorem exec_srrd_detOrder (hg : s.self.guard g = true) (hp : s.self.pends d = false) (hd : s.self.det = true) :
    exec (.srrd g d 5) s = .next (s.raise s.cur (detOrder (.srrd g d 5))) := by
  have hc : (s.self.det && (5 : BitVec 4) == 5) = true := by simp [hd]
  rw [exec_srrd, execSrrd, State.issue_go (hold := fun c => c.pends d) hp hg, if_pos hc]

theorem exec_flgrd_reads (hg : s.self.guard g = true) (hp : s.self.pends d = false) :
    exec (.flgrd g d) s = .next (s.withSelf ((s.self.takeFlags s.time).2.setReg d ((s.self.takeFlags s.time).1.zeroExtend 64)).advance) := by
  rw [exec_flgrd, execFlgrd, State.simple_go hp hg]

theorem exec_srwr_writes (n : BitVec 4) (hg : s.self.guard g = true) : exec (.srwr g d n) s = .next (s.withSelf (s.self.setSreg n (s.self.reg d)).advance) := by
  rw [exec_srwr, execSrwr, State.simple_go rfl hg]

end Special

/-- Flags set in earlier cycles are all returned. -/
theorem Ctx.takeFlags_earlier {x : Ctx} {t : Nat} (h : ∀ e, x.flagNew = some e → e.1 ≠ t) :
    x.takeFlags t = (x.flags, { x with flags := 0, flagNew := none }) := by
  unfold Ctx.takeFlags
  split
  next n old new e => rw [if_neg (h _ e)]
  next e => rw [← e]

/-- Flags set in the same cycle are not returned, and stay. -/
theorem Ctx.takeFlags_same {x : Ctx} {t : Nat} {old new : W32} (h : x.flagNew = some (t, old, new)) :
    x.takeFlags t = (old, { x with flags := new, flagNew := some (t, 0, new) }) := by
  simp [Ctx.takeFlags, h]

/-- The flag word is no register. -/
theorem Ctx.setReg_flagWord (x : Ctx) (d : BitVec 5) (v : W64) (fl : W32) (fn : Option (Nat × W32 × W32)) :
    ({ x with flags := fl, flagNew := fn } : Ctx).setReg d v = { x.setReg d v with flags := fl, flagNew := fn } := by
  unfold Ctx.setReg
  split <;> rfl

/-- The writable fields of TRAPC are its bits [31:16] and [7:0] (R16, R75). -/
theorem getLsbD_trapc_fields (v w : W64) {j : Nat} (hj : j < 64) :
    ((v &&& 0xFFFFFFFF0000FF00#64) ||| (w &&& 0x00000000FFFF00FF#64)).getLsbD j = if j < 8 ∨ 16 ≤ j ∧ j < 32 then w.getLsbD j else v.getLsbD j := by
  have hkept : ∀ k, k < 64 → (0xFFFFFFFF0000FF00#64).getLsbD k = !decide (k < 8 ∨ 16 ≤ k ∧ k < 32) := by decide
  have hput : ∀ k, k < 64 → (0x00000000FFFF00FF#64).getLsbD k = decide (k < 8 ∨ 16 ≤ k ∧ k < 32) := by decide
  rw [BitVec.getLsbD_or, BitVec.getLsbD_and, BitVec.getLsbD_and, hkept j hj, hput j hj]
  split <;> simp [*]

/-- TRAPA takes bits [15:2] of the value (R16, R75). -/
theorem getLsbD_trapa_field (w : W64) {j : Nat} (hj : j < 16) : (w.truncate 16 &&& 0xFFFC#16).getLsbD j = (decide (2 ≤ j) && w.getLsbD j) := by
  have hmask : ∀ k, k < 16 → (0xFFFC#16).getLsbD k = decide (2 ≤ k) := by decide
  rw [BitVec.getLsbD_and, hmask j hj, BitVec.truncate_eq_setWidth, BitVec.getLsbD_setWidth, decide_eq_true hj, Bool.true_and, Bool.and_comm]

theorem Ctx.setSreg_readOnly (x : Ctx) {n : BitVec 4} (v : W64) (h : n.toNat < 13) : x.setSreg n v = x := by
  unfold Ctx.setSreg
  split
  next e => omega
  next e => omega
  next e => omega
  next => rfl

/-- Settles O5: SRRD and SRWR by the register they name, FLGRD by when the flags were set. -/
theorem specialRegisterWords : Obligations.SpecialRegisterWords := by
  unfold Obligations.SpecialRegisterWords
  refine ⟨fun s g d hg hp => ⟨?_, fun hd => exec_srrd_reads hg hp (by simp [hd]), exec_srrd_detOrder hg hp, fun h => ?_, fun old new h => ?_⟩,
    fun s g d hg => ⟨exec_srwr_writes 14 hg, ⟨_, exec_srwr_writes 15 hg, fun j hj => getLsbD_trapa_field _ hj⟩,
      ⟨_, exec_srwr_writes 13 hg, fun j hj => getLsbD_trapc_fields _ _ hj⟩, fun n hn => ?_⟩⟩
  · have read : ∀ n : BitVec 4, n ≠ 5 → exec (.srrd g d n) s = .next (s.withSelf (s.self.setReg d (s.self.sreg s.cur n)).advance) :=
      fun n hn => exec_srrd_reads hg hp fun _ => hn
    simp only [List.forall_mem_cons]
    exact ⟨read 0 (by decide), read 1 (by decide), read 2 (by decide), read 3 (by decide), read 4 (by decide), read 6 (by decide), read 7 (by decide),
      read 8 (by decide), read 9 (by decide), read 10 (by decide), read 11 (by decide), read 12 (by decide), read 13 (by decide), read 14 (by decide),
      read 15 (by decide), List.forall_mem_nil _⟩
  · rw [exec_flgrd_reads hg hp, Ctx.takeFlags_earlier h, Ctx.setReg_flagWord]
  · rw [exec_flgrd_reads hg hp, Ctx.takeFlags_same h, Ctx.setReg_flagWord]
  · rw [exec_srwr_writes n hg, Ctx.setSreg_readOnly _ _ hn]

end Sys2Proof.Machine

/-! Local atomics: how they issue, make their access and complete, and the values they write (R24, R86, R87). -/

namespace Sys2Proof.Machine

/-! ### The access and the completion of an atomic (R23, R24, R86) -/

section Atomic
variable {s : State} {c : CtxId} {o : MemOp} {a n : Nat} {op : AmoOp} {v x : W64}

/-- The access of an atomic reads its bytes and writes the new value over them. -/
theorem State.bankAccess_amo (hb : o.body = .amo op n a v x) (hst : o.isStore = false) (hd : o.done = false) (hres : o.res = none)
    (hready : opReady o.id o.body (s.ctx c).ops = true) (hz : (s.ctx c).zeroing a n = false) (he : s.spadEcc c a n false = none) :
    s.bankAccess c o = (s.spadWrite c a (toBytes n (amoNew op n (ofBytes (s.spadBytes c a n)) v.toNat x.toNat))).updOp c o.id
      (fun q => { q with res := some (BitVec.ofNat 64 (ofBytes (s.spadBytes c a n))) }) := by
  rw [hb] at hready
  simp [State.bankAccess, OpBody.range, hb, hst, hd, hres, hready, hz, he]

/-- The completion step of a pending atomic makes its access, unless made before, and writes its register. -/
theorem exec_amoComplete_of_pending {i : Nat} (ho : (s.ctx c).ops[i]? = some o) (hb : o.body = .amo op n a v x) (hd : o.done = false) :
    exec (.amoComplete c i) s = .next ((s.bankAccess c o).opWrite c o.id) := by
  rw [exec_amoComplete, execAmoComplete, Ctx.opAt, ho]
  simp [hb, hd]

end Atomic

/-- The new value of an atomic on words of w bits, read as signed for MIN and MAX (R86, R87). -/
theorem amoNew_toNat {w n : Nat} (hw : w = 8 * n) (hn : 0 < n) (old v x : BitVec w) :
    ∀ e ∈ ([(.swap, v), (.add, old + v), (.and, old &&& v), (.or, old ||| v), (.xor, old ^^^ v), (.min, if old.toInt ≤ v.toInt then old else v),
      (.max, if old.toInt ≤ v.toInt then v else old), (.minu, if old.toNat ≤ v.toNat then old else v),
      (.maxu, if old.toNat ≤ v.toNat then v else old), (.cas, if old = v then x else old)] : List (AmoOp × BitVec w)),
      amoNew e.1 n old.toNat v.toNat x.toNat = e.2.toNat := by
  have hpos : 0 < 8 * n := by omega
  subst hw
  simp only [List.forall_mem_cons, amoNew, patInt_toNat hpos, beq_iff_eq, BitVec.toNat_inj, apply_ite BitVec.toNat]
  exact ⟨trivial, (BitVec.toNat_add ..).symm, (BitVec.toNat_and ..).symm, (BitVec.toNat_or ..).symm, (BitVec.toNat_xor ..).symm, trivial, trivial,
    min_def .., max_def .., trivial, List.forall_mem_nil _⟩

theorem State.cntLd_issued (s : State) (r : BitVec 5) (b : OpBody) :
    (s.withSelf (s.self.pushOp false r b).advance).self.cntLd = s.self.cntLd + 1 := by
  rw [State.self, State.setCtx_cur, State.ctx_setCtx_self]
  exact Ctx.cntLd_pushOp_load ..

/-- Settles O10: an atomic issues where its checks pass; its completion is its bank access and the write of its register. -/
theorem localAtomicsExchangeOldForNew : Obligations.LocalAtomicsExchangeOldForNew := by
  unfold Obligations.LocalAtomicsExchangeOldForNew
  refine ⟨fun s g r a hg hp hl => ⟨fun hok e he => ?_, fun hok e he => ?_⟩, ?_, ?_⟩
  · have hw : (e.1, e.2, 4) ∈ amoWords g r a := by
      revert e
      simp [amoWords]
    have hexec : exec e.1 s = s.amo g r a e.2 4 := exec_amoWord s hw
    exact ⟨_, hexec.trans (State.amo_go hg hp hl (by decide) hok), State.cntLd_issued .., rfl⟩
  · have hw : (e.1, e.2, 8) ∈ amoWords g r a := by
      revert e
      simp [amoWords]
    have hexec : exec e.1 s = s.amo g r a e.2 8 := exec_amoWord s hw
    have hval : BitVec.ofNat 64 ((s.self.reg r).toNat % 2 ^ (8 * 8)) = s.self.reg r := by
      rw [Nat.mod_eq_of_lt (s.self.reg r).isLt, BitVec.ofNat_toNat, BitVec.setWidth_eq]
    refine ⟨_, hexec.trans (State.amo_go hg hp hl (by decide) hok), State.cntLd_issued .., ?_⟩
    rw [hval]
    rfl
  · rintro s c i id a n r op v x w o rfl hi hf hready hz
    refine ⟨fun old hold he => ?_, fun t he => ?_⟩
    · subst hold
      rw [exec_amoComplete_of_pending hi rfl rfl, State.bankAccess_amo rfl rfl rfl rfl hready hz he]
      exact congrArg _ (State.opWrite_updOp (((s.spadWrite_frame ..).2.1 c).symm ▸ hf))
    · rw [exec_amoComplete_of_pending hi rfl rfl, State.bankAccess_ecc rfl rfl rfl rfl hready hz he, State.opWrite_lateTrap]
      rfl
  · intro w old v x n hn hw
    exact amoNew_toNat hw (by simp at hn; omega) old v x

end Sys2Proof.Machine

/-! The pass unit: the acceptance of its commands, the start and the end of a chain, the loop of a chain, and its stages on words (R26, R27, R45, R90 to
R98). -/

namespace Sys2Proof.Machine

/-! ### The fields of a descriptor (R92, R93) -/

theorem dbits_eq (w : BitVec 512) {hi lo len : Nat} (h : hi + 1 - lo = len) : dbits w hi lo = (w.extractLsb' lo len).toNat := by
  rw [dbits, h, BitVec.extractLsb'_toNat, Nat.shiftRight_eq_div_pow]

theorem stageWord_eq (w : BitVec 512) (q : Nat) : stageWord w q = (w.extractLsb' (256 + 32 * q) 32).toNat := dbits_eq w (by omega)

theorem Chain.s1_eq (k : Chain) : k.s1 = k.desc.getLsbD 131 := by
  rw [Chain.s1, dbits, BitVec.getLsbD, Nat.testBit_eq_decide_div_mod_eq]
  rfl

theorem Chain.str_eq (k : Chain) {hi lo : Nat} (h : hi + 1 - lo = 16) :
    k.str hi lo = if k.strided then (k.desc.extractLsb' lo 16).toInt else 0 := by
  rw [Chain.str, stride, dbits_eq _ h, patInt_toNat (by decide)]

theorem bits_low (v : W64) : bits v 31 0 = v.toNat % 2 ^ 32 := by simp [bits]

theorem bits_high (v : W64) : bits v 63 32 = v.toNat / 2 ^ 32 := by
  have hv := v.isLt
  rw [bits]
  omega

/-! ### The acceptance of a command (R90, R91, R97) -/

/-- The elements and the repetitions that a command with count operand v asks for (R90). -/
def passCounts (rep : Bool) (v : W64) : Nat × Nat := (if rep then bits v 31 0 else v.toNat, if rep then bits v 63 32 else 1)

theorem passCounts_vpassr (v : W64) : passCounts true v = (v.toNat % 2 ^ 32, v.toNat / 2 ^ 32) := Prod.ext (bits_low v) (bits_high v)

/-- The command of guard g finds nothing that holds it, and its descriptor, which stands at g[a], is w and valid (R91, R97). -/
structure State.PassReady (s : State) (g : Guard) (a : BitVec 5) (w : BitVec 512) : Prop where
  guard : s.self.guard g = true
  stores : s.self.cntSt = 0
  tile : s.self.cntTl < 31
  free : (s.core (coreOf s.cur)).chains.length < 4
  fault : s.spadFault s.cur (s.self.reg a) 64 64 unitSeq = none
  ecc : s.spadEcc s.cur (s.self.reg a).toNat 64 false = none
  desc : w = BitVec.ofNat 512 (ofBytes (s.spadBytes s.cur (s.self.reg a).toNat 64))
  valid : descFault w = none

/-- The chain of a command, as it is queued. -/
def State.passChain (s : State) (d b : BitVec 5) (rep : Bool) (w : BitVec 512) : Chain :=
  ⟨s.cur, s.self.tlN, w, (s.self.reg d).toNat, (passCounts rep (s.self.reg b)).1, (passCounts rep (s.self.reg b)).2, rep, false, 0, 0, [], 0, none⟩

/-- The streams of a chain of the executing context, whose destination starts at dst, pass the checks of R97. -/
structure State.StreamsOk (s : State) (k : Chain) (dst : W64) : Prop where
  src0 : s.streamFault s.cur (BitVec.ofNat 64 (dbits k.desc 63 0)) (k.str 159 144) k.n k.reps = none
  src1 : k.s1 = true → s.streamFault s.cur (BitVec.ofNat 64 (dbits k.desc 127 64)) (k.str 175 160) k.n k.reps = none
    ∧ badOverlap (dbits k.desc 127 64) k.dst (k.str 175 160) (k.str 191 176) k.n k.reps = false
  dst : s.streamFault s.cur dst (k.str 191 176) k.n k.reps = none
  apart : badOverlap (dbits k.desc 63 0) k.dst (k.str 159 144) (k.str 191 176) k.n k.reps = false

theorem ofNat_dbits_toNat (w : BitVec 512) {hi lo : Nat} (h : hi + 1 - lo = 64) : (BitVec.ofNat 64 (dbits w hi lo)).toNat = dbits w hi lo := by
  rw [dbits_eq w h, BitVec.ofNat_toNat, BitVec.setWidth_eq]

section Accept
variable {s : State} {g : Guard} {d a b : BitVec 5} {rep : Bool} {w : BitVec 512}

theorem State.PassReady.not_held (h : s.PassReady g a w) :
    (s.self.cntSt != 0 || decide ((s.core (coreOf s.cur)).chains.length ≥ 4) || decide (s.self.cntTl ≥ 31)) = false := by
  simpa [h.stores, h.free] using h.tile

/-- A command with nothing to do retires. -/
theorem State.vpassOp_retires (h : s.PassReady g a w) (hz : (passCounts rep (s.self.reg b)).1 = 0 ∨ (passCounts rep (s.self.reg b)).2 = 0) :
    s.vpassOp g d a b rep = .next (s.withSelf s.self.advance) := by
  rw [State.vpassOp, State.issue_go h.not_held h.guard]
  simp only [h.fault, h.ecc, ← h.desc, h.valid]
  rw [if_pos]
  simpa [passCounts] using hz

/-- A command whose streams pass every check queues its chain and is counted. -/
theorem State.vpassOp_queues (h : s.PassReady g a w) (hn : (passCounts rep (s.self.reg b)).1 ≠ 0) (hr : (passCounts rep (s.self.reg b)).2 ≠ 0)
    (hs : s.StreamsOk (s.passChain d b rep w) (s.self.reg d)) :
    s.vpassOp g d a b rep = .next ((s.withSelf { s.self with tlq := s.self.tlq ++ [TlOp.mk s.self.tlN false false], tlN := s.self.tlN + 1 }.advance).updCore
      (coreOf s.cur) (fun x => { x with chains := x.chains ++ [s.passChain d b rep w] })) := by
  rw [State.vpassOp, State.issue_go h.not_held h.guard]
  have hw0 := ofNat_dbits_toNat w (hi := 63) (lo := 0) rfl
  have hw1 := ofNat_dbits_toNat w (hi := 127) (lo := 64) rfl
  obtain ⟨hsrc0, hsrc1, hdst, hapart⟩ := hs
  cases hs1 : (s.passChain d b rep w).s1 with
  | false =>
    dsimp only [State.passChain, passCounts] at *
    simp only [h.fault, h.ecc, ← h.desc, h.valid]
    rw [if_neg (by simpa using ⟨hn, hr⟩)]
    simp only [hsrc0, hs1, hdst, hw0, hapart, Bool.false_eq_true, if_false, Bool.false_and, Bool.or_false]
  | true =>
    obtain ⟨hsrc1, hapart1⟩ := hsrc1 hs1
    dsimp only [State.passChain, passCounts] at *
    simp only [h.fault, h.ecc, ← h.desc, h.valid]
    rw [if_neg (by simpa using ⟨hn, hr⟩)]
    simp only [hsrc0, hs1, hsrc1, hdst, hw0, hw1, hapart, hapart1, Bool.false_eq_true, if_false, if_true, Bool.and_false, Bool.or_false]

/-- What the queuing of a chain leaves: it is the last of the core's chains and is counted, and the word retires. -/
theorem State.vpassOp_counts (h : s.PassReady g a w) (hn : (passCounts rep (s.self.reg b)).1 ≠ 0) (hr : (passCounts rep (s.self.reg b)).2 ≠ 0)
    (hs : s.StreamsOk (s.passChain d b rep w) (s.self.reg d)) :
    ∃ t, s.vpassOp g d a b rep = .next t ∧ t.self.cntTl = s.self.cntTl + 1 ∧ t.self.ipc = s.self.ipc + 4
      ∧ (t.core (coreOf s.cur)).chains = (s.core (coreOf s.cur)).chains ++ [s.passChain d b rep w]
      ∧ t.self = { s.self with tlq := t.self.tlq, tlN := s.self.tlN + 1, ipc := t.self.ipc } ∧ t.mem = s.mem := by
  refine ⟨_, State.vpassOp_queues h hn hr hs, ?_⟩
  simp only [State.self, State.updCore_cur, State.setCtx_cur, State.ctx_updCore, State.ctx_setCtx_self, State.core_updCore_self, State.core_setCtx]
  exact ⟨List.length_append, rfl, trivial, rfl, rfl⟩

end Accept

/-! ### The start of a chain (R26) -/

theorem updFirst_append {α : Type} {p : α → Bool} {f : α → α} {pre : List α} (hpre : ∀ x ∈ pre, p x = false) {y : α} (hy : p y = true) (rest : List α) :
    updFirst p f (pre ++ y :: rest) = pre ++ f y :: rest := by
  induction pre with
  | nil => simp [updFirst, hy]
  | cons x pre ih =>
    rw [List.forall_mem_cons] at hpre
    simp [updFirst, hpre.1, ih hpre.2]

/-! ### What a chain may change (R98) -/

/-- From s to t nothing has changed but cores, and the core of context c has no word with an uncorrectable error that it had not. -/
structure State.SpadOnly (s t : State) (c : CtxId) : Prop where
  rest : t = { s with cores := t.cores }
  poison : ∀ p ∈ (t.core (coreOf c)).poison, p ∈ (s.core (coreOf c)).poison

namespace State.SpadOnly
variable {s t : State} {c : CtxId}

theorem refl (s : State) (c : CtxId) : s.SpadOnly s c := ⟨rfl, fun _ h => h⟩

theorem spadWrite (h : s.SpadOnly t c) (a : Nat) (bs : List Byte) : s.SpadOnly (t.spadWrite c a bs) c where
  rest := by rw [h.rest]; rfl
  poison p hp := by
    rw [State.spadWrite, State.core_updCore_self] at hp
    exact h.poison p (List.mem_filter.mp hp).1

theorem ctx (h : s.SpadOnly t c) (d : CtxId) : t.ctx d = s.ctx d := by rw [h.rest]; rfl

theorem time (h : s.SpadOnly t c) : t.time = s.time := by rw [h.rest]

theorem mem (h : s.SpadOnly t c) : t.mem = s.mem := by rw [h.rest]

theorem modeFault (h : s.SpadOnly t c) (d : CtxId) (a n : Nat) : t.modeFault d a n = s.modeFault d a n := by
  rw [State.modeFault, h.ctx, State.modeFault]

theorem spadEcc_none (h : s.SpadOnly t c) {a n : Nat} {w : Bool} (he : s.spadEcc c a n w = none) : t.spadEcc c a n w = none := by
  simp only [State.spadEcc, h.ctx, Option.map_eq_none_iff, List.find?_eq_none, List.contains_iff_mem] at he ⊢
  exact fun i hi hp => he i hi (h.poison _ hp)

theorem chainRdFault_none (h : s.SpadOnly t c) {a : Nat} (hm : s.modeFault c a 4 = none) (he : s.spadEcc c a 4 true = none) :
    t.chainRdFault c a = none := by
  rw [State.chainRdFault, h.modeFault, hm]
  exact h.spadEcc_none he

theorem chainPut {k : Chain} {r : ChainRun} (h : s.SpadOnly r.s k.ctx) (j i : Nat) (v : W32) : s.SpadOnly (chainPut k r j i v).s k.ctx := by
  unfold Machine.chainPut
  split
  · exact h
  · exact h.spadWrite ..

theorem chainEl {k : Chain} {r : ChainRun} (h : s.SpadOnly r.s k.ctx) (j i : Nat) : s.SpadOnly (chainEl k r j i).s k.ctx := by
  unfold Machine.chainEl
  split
  · exact h
  · split
    · exact h
    · rcases r.s.chainVal k j i with ⟨v, fl⟩
      exact chainPut (r := { r with flags := r.flags ||| fl }) h j i v

theorem chainRun (k : Chain) (s : State) : s.SpadOnly (chainRun k s).s k.ctx := by
  unfold Machine.chainRun chainFlush
  refine List.foldlRecOn (motive := fun r : ChainRun => s.SpadOnly r.s k.ctx) _ _ ?_ fun r hr j _ => ?_
  · exact List.foldlRecOn (motive := fun r : ChainRun => s.SpadOnly r.s k.ctx) _ _ (refl s k.ctx) fun r hr e _ => hr.chainPut ..
  · exact List.foldlRecOn (motive := fun r : ChainRun => s.SpadOnly r.s k.ctx) _ _ hr fun r hr i _ => hr.chainEl j i

end State.SpadOnly

/-! ### The end of a chain (R26, R27, R45) -/

/-- What the end of chain k, whose run left r, makes of its context: the flags are raised, the chain is counted out, its error is kept. -/
def Ctx.endChain (x : Ctx) (time : Nat) (k : Chain) (r : ChainRun) : Ctx :=
  { (x.addFlags time r.flags).finishTl k.id with cov := x.cov ++ (r.err.map (CovFault.mk false k.id)).toList }

theorem Ctx.cov_addFlags (x : Ctx) (t : Nat) (fl : W32) : (x.addFlags t fl).cov = x.cov := by rw [Ctx.addFlags_frame]

/-- The chain at the head, started and with no bank of its own being zeroed, runs to its end. -/
theorem exec_passChainComplete_of_head {s : State} {core : CoreId} {k : Chain} {rest : List Chain} (hk : (s.core core).chains = k :: rest)
    (hst : k.started = true) (hz : s.chainZeroing k = false) :
    exec (.passChainComplete core) s = .next (((chainRun k s).s.updCore core (fun x => { x with chains := rest })).updCtx k.ctx
      (fun x => x.endChain s.time k (chainRun k s))) := by
  rw [exec_passChainComplete, execPassChainComplete, hk]
  simp only [hst, hz, Bool.not_true, Bool.or_self, Bool.false_eq_true, if_false, State.addFlags, State.updCtx_updCtx, State.updCore_time,
    (State.SpadOnly.chainRun k s).time]
  cases herr : (chainRun k s).err with
  | none => simp only [Ctx.endChain, herr, Ctx.cov_addFlags, Option.map_none, Option.toList_none, List.append_nil]
  | some t => simp only [Ctx.endChain, herr, Ctx.cov_addFlags, Option.map_some, Option.toList_some]

/-! ### The loop of a chain (R90, R92, R93, R98) -/

/-- Element i of repetition j of chain k: its result is written to the scratchpad, its flags are ORed to those before. -/
def Chain.element (k : Chain) (u : State × W32) (j i : Nat) : State × W32 :=
  (u.1.spadWrite k.ctx (k.dstAt j i) (toBytes 4 (u.1.chainVal k j i).1.toNat), u.2 ||| (u.1.chainVal k j i).2)

/-- The two nested loops of R98. -/
def Chain.loop (k : Chain) (s : State) : State × W32 :=
  (List.range k.reps).foldl (fun u j => (List.range k.n).foldl (fun u i => k.element u j i) u) (s, 0)

/-- A chain that has read and computed nothing yet. -/
structure Chain.Fresh (k : Chain) : Prop where
  rep : k.rep = 0
  next : k.next = 0
  hold : k.hold = []
  flags : k.flags = 0
  err : k.err = none

/-- Every element of chain k lies in banks in SPAD mode, and its reads meet no uncorrectable error. -/
def State.ElementsOk (s : State) (k : Chain) : Prop :=
  ∀ j i, j < k.reps → i < k.n → s.modeFault k.ctx (k.src0 j i) 4 = none ∧ s.modeFault k.ctx (k.dstAt j i) 4 = none
    ∧ s.spadEcc k.ctx (k.src0 j i) 4 true = none
    ∧ (k.s1 = true → s.modeFault k.ctx (k.src1 j i) 4 = none ∧ s.spadEcc k.ctx (k.src1 j i) 4 true = none)

/-- An element whose accesses meet nothing writes its result. -/
theorem chainEl_of_noFault {k : Chain} {u : State × W32} {j i : Nat} (hk : k.Fresh) (hr : u.1.chainFault k j i = none)
    (hw : u.1.modeFault k.ctx (k.dstAt j i) 4 = none) :
    chainEl k ⟨u.1, u.2, none⟩ j i = ⟨(k.element u j i).1, (k.element u j i).2, none⟩ := by
  have hp : k.past j i = false := by simp [Chain.past, hk.rep, hk.next]
  simp [chainEl, hp, hr, chainPut, hw, Chain.element]

theorem State.ElementsOk.chainFault_none {s t : State} {k : Chain} {j i : Nat} (h : s.ElementsOk k) (ht : s.SpadOnly t k.ctx) (hj : j < k.reps)
    (hi : i < k.n) : t.chainFault k j i = none := by
  obtain ⟨hm, -, he, hs1⟩ := h j i hj hi
  rw [State.chainFault, ht.chainRdFault_none hm he]
  dsimp only
  split
  next hs => exact ht.chainRdFault_none (hs1 hs).1 (hs1 hs).2
  next => rfl

/-- A run r stands where the loops of R98 stand at u, with no error, and nothing but the scratchpad has changed since s. -/
def ChainRun.At (s : State) (k : Chain) (r : ChainRun) (u : State × W32) : Prop := r = ⟨u.1, u.2, none⟩ ∧ s.SpadOnly u.1 k.ctx

theorem chainRun_eq_loop {s : State} {k : Chain} (hk : k.Fresh) (h : s.ElementsOk k) : chainRun k s = ⟨(k.loop s).1, (k.loop s).2, none⟩ := by
  have hstart : ChainRun.At s k (chainFlush k s) (s, 0) := by
    refine ⟨?_, .refl s k.ctx⟩
    rw [chainFlush, hk.hold, hk.flags, hk.err]
    rfl
  have hend : ChainRun.At s k (chainRun k s) (k.loop s) := by
    refine List.foldl_rel hstart fun j hj r u hru => List.foldl_rel hru fun i hi r u hru => ?_
    obtain ⟨rfl, hu⟩ := hru
    rw [List.mem_range] at hj hi
    refine ⟨chainEl_of_noFault hk (h.chainFault_none hu hj hi) ?_, hu.spadWrite ..⟩
    rw [hu.modeFault]
    exact (h j i hj hi).2.1
  exact hend.1

/-! ### The stages on words (R94, R95) -/

theorem ElTy.map3_int32 (f : Nat → Nat → Nat → Nat × W32) (x y z : W32) :
    ElTy.int32.map3 f x y z = (BitVec.ofNat 32 (f x.toNat y.toNat z.toNat).1, (f x.toNat y.toNat z.toNat).2) := by
  have hsubs : ∀ v : W32, ElTy.int32.subs v = [v.toNat] := fun v => by simpa [ElTy.subs, ElTy.count, ElTy.width] using v.isLt
  have hjoin : ∀ n, ElTy.int32.join [n] = BitVec.ofNat 32 n := fun n => BitVec.eq_of_toNat_eq (by simp [ElTy.join, ElTy.width])
  simp [ElTy.map3, hsubs, hjoin]

/-- The stage operations of Table 7 on int32, as 32-bit two's complement arithmetic: operation, and result on v, y and z. -/
def stageOps (v y z : W32) : List (Nat × W32) :=
  [(0x01, y), (0x02, v + y), (0x03, v - y), (0x04, y - v), (0x05, v * y), (0x06, v * y + z), (0x07, if v.toInt ≤ y.toInt then v else y),
    (0x08, if v.toInt ≤ y.toInt then y else v), (0x09, BitVec.ofNat 32 v.toInt.natAbs), (0x0A, -v), (0x0B, v &&& y), (0x0C, v ||| y), (0x0D, v ^^^ y),
    (0x0E, v <<< (y.toNat % 32)), (0x0F, v >>> (y.toNat % 32))]

theorem stageI_of_mem_stageOps (v y z : W32) : ∀ e ∈ stageOps v y z, stageI 32 false e.1 v.toNat y.toNat z.toNat = (e.2.toNat, 0) := by
  have hcast : ∀ x : W32, BitVec.ofInt 32 x.toNat = x := fun x => by rw [BitVec.ofInt_natCast, BitVec.ofNat_toNat, BitVec.setWidth_eq]
  have hsub : ∀ x u : W32, BitVec.ofInt 32 ((x.toNat : Int) - u.toNat) = x - u := fun x u => by
    rw [Int.sub_eq_add_neg, BitVec.ofInt_add, BitVec.ofInt_neg, hcast, hcast, sub_eq_add_neg]
  have hshl : BitVec.ofInt 32 (v.toNat * 2 ^ (y.toNat % 32) : Nat) = v <<< (y.toNat % 32) :=
    BitVec.eq_of_toNat_eq (by rw [BitVec.ofInt_natCast, BitVec.toNat_ofNat, BitVec.toNat_shiftLeft, Nat.shiftLeft_eq])
  have hshr : v.toNat / 2 ^ (y.toNat % 32) = (v >>> (y.toNat % 32)).toNat := by rw [BitVec.toNat_ushiftRight, Nat.shiftRight_eq_div_pow]
  have hsgn : ∀ x : W32, patInt 32 true x.toNat = x.toInt := patInt_toNat (by decide)
  have wrap : ∀ (i : Int) (x : W32), BitVec.ofInt 32 i = x → wrapI 32 i = (x.toNat, 0) := fun i x h => by rw [wrapI, intPat_eq, h]
  have select : ∀ x u : W32, (if patInt 32 true v.toNat ≤ patInt 32 true y.toNat then x.toNat else u.toNat, (0 : W32))
      = ((if v.toInt ≤ y.toInt then x else u).toNat, 0) := fun x u => by rw [hsgn, hsgn, apply_ite BitVec.toNat]
  have bitwise : ∀ {n m : Nat}, n = m → (n, (0 : W32)) = (m, 0) := fun h => h ▸ rfl
  simp only [stageOps, List.forall_mem_cons]
  exact ⟨rfl, wrap _ _ (by rw [BitVec.ofInt_add, hcast, hcast]), wrap _ _ (hsub v y), wrap _ _ (hsub y v),
    wrap _ _ (by rw [BitVec.ofInt_mul, hcast, hcast]), wrap _ _ (by rw [BitVec.ofInt_add, BitVec.ofInt_mul, hcast, hcast, hcast]), select v y, select y v,
    wrap _ _ (by rw [sgn, hsgn, BitVec.ofInt_natCast]), wrap _ _ (by rw [BitVec.ofInt_neg, hcast]), bitwise (BitVec.toNat_and ..).symm,
    bitwise (BitVec.toNat_or ..).symm, bitwise (BitVec.toNat_xor ..).symm, wrap _ _ hshl, bitwise hshr, List.forall_mem_nil _⟩

/-- A stage word of type int32 whose YSEL names the source-1 element y: its operand z is y too where ZSEL is 0, and K0 where it is 1. -/
theorem stageEl_int32 {w op sel : Nat} (v y k0 k1 : W32) (hop : w / 2 ^ 26 % 64 = op) (hcvt : op ≠ 0x10) (hty : w / 2 ^ 23 % 8 = 0)
    (hu : w / 2 ^ 22 % 2 = 0) (hy : w / 2 ^ 20 % 4 = 0) (hz : w / 2 ^ 18 % 4 = sel) (hsel : sel < 2) :
    stageEl w v y k0 k1 = ElTy.int32.map3 (stageI 32 false op) v y (if sel = 0 then y else k0) := by
  unfold stageEl
  simp only [hop, hty, hu, hy, hz]
  rw [if_neg (by simpa using hcvt)]
  interval_cases sel <;> rfl

/-- The stage word of an operation, with ZSEL sel and every other field 0. -/
theorem stageEl_of_mem_stageOps {v y k0 k1 : W32} {sel : Nat} {e : Nat × W32} (hsel : sel < 2) (he : e ∈ stageOps v y (if sel = 0 then y else k0)) :
    stageEl (e.1 * 2 ^ 26 + sel * 2 ^ 18) v y k0 k1 = (e.2, 0) := by
  have hop : e.1 < 16 := by
    revert e
    simp [stageOps]
  rw [stageEl_int32 (op := e.1) (sel := sel) v y k0 k1 (by omega) (by omega) (by omega) (by omega) (by omega) (by omega) hsel, ElTy.map3_int32,
    stageI_of_mem_stageOps v y _ e he, BitVec.ofNat_toNat, BitVec.setWidth_eq]

/-! ### The statement -/

theorem Chain.src0_eq (k : Chain) (j i : Nat) :
    k.src0 j i = (((k.desc.extractLsb' 0 64).toNat : Int) + 4 * (j * k.str 159 144 + i)).toNat := by rw [Chain.src0, elAt, dbits_eq _ rfl]

theorem Chain.src1_eq (k : Chain) (j i : Nat) :
    k.src1 j i = (((k.desc.extractLsb' 64 64).toNat : Int) + 4 * (j * k.str 175 160 + i)).toNat := by rw [Chain.src1, elAt, dbits_eq _ rfl]

/-- The value of an element through the fields of the descriptor: the stages in order, each on the result of the one before. -/
theorem State.chainVal_eq (u : State) (k : Chain) (j i : Nat) :
    u.chainVal k j i = (List.range ((k.desc.extractLsb' 128 3).toNat + 1)).foldl (fun (v : W32 × W32) q =>
      ((stageEl (k.desc.extractLsb' (256 + 32 * q) 32).toNat v.1 (if k.s1 then u.spad32 k.ctx (k.src1 j i) else 0)
          (k.desc.extractLsb' 192 32) (k.desc.extractLsb' 224 32)).1,
        v.2 ||| (stageEl (k.desc.extractLsb' (256 + 32 * q) 32).toNat v.1 (if k.s1 then u.spad32 k.ctx (k.src1 j i) else 0)
          (k.desc.extractLsb' 192 32) (k.desc.extractLsb' 224 32)).2)) (u.spad32 k.ctx (k.src0 j i), 0) := by
  unfold State.chainVal Chain.stages
  simp only [stageWord_eq, dbits_eq k.desc (show 130 + 1 - 128 = 3 from rfl), dbits_eq k.desc (show 223 + 1 - 192 = 32 from rfl),
    dbits_eq k.desc (show 255 + 1 - 224 = 32 from rfl), BitVec.ofNat_toNat, BitVec.setWidth_eq]

/-- A chain that ends without an error leaves the faults kept as they were. -/
theorem Ctx.endChain_of_noError {x : Ctx} {time : Nat} {k : Chain} {r : ChainRun} (h : r.err = none) :
    x.endChain time k r = (x.addFlags time r.flags).finishTl k.id := by
  rw [Ctx.endChain, h, Option.map_none, Option.toList_none, List.append_nil, ← Ctx.cov_addFlags x time r.flags]
  rfl

/-- Settles O13: a command by its acceptance, a chain's start and end by their operations, its loop element by element, a stage by its operation. -/
theorem passChainsRunTheirDescriptor : Obligations.PassChainsRunTheirDescriptor := by
  unfold Obligations.PassChainsRunTheirDescriptor
  refine ⟨?_, ⟨?_, ?_⟩, ?_, ?_⟩
  · intro s g d a b w hg hst htl hc hf he hw hd
    have hready : s.PassReady g a w := ⟨hg, hst, htl, hc, hf, he, hw, hd⟩
    have hr := passCounts_vpassr (s.self.reg b)
    simp only [List.forall_mem_cons, exec_vpass, exec_vpassr, execVpass, execVpassr]
    refine ⟨⟨State.vpassOp_retires (rep := false) hready, ?_⟩, ⟨fun hz => State.vpassOp_retires hready (hr ▸ hz), ?_⟩, List.forall_mem_nil _⟩
    · rintro k rfl hn hR hsrc0 hsrc1 hdst hapart
      exact State.vpassOp_counts (rep := false) hready hn hR ⟨hsrc0, hsrc1, hdst, hapart⟩
    · intro k hk hn hR hsrc0 hsrc1 hdst hapart
      obtain rfl : k = s.passChain d b true w := by rw [hk, State.passChain, hr]
      exact State.vpassOp_counts hready (hr ▸ hn) (hr ▸ hR) ⟨hsrc0, hsrc1, hdst, hapart⟩
  · intro s core k pre rest hch hpre hk
    rw [exec_passChainStart, execPassChainStart, State.updCore, hch, updFirst_append (fun h hh => by simp [hpre h hh]) (by simp [hk])]
  · intro s core k rest hch hst hcore hz
    have hrun := State.SpadOnly.chainRun k s
    refine ⟨_, exec_passChainComplete_of_head hch hst hz, ?_, ?_, ?_, fun c hc => ?_, ?_⟩
    · simp [State.updCtx]
    · simp [State.updCtx]
    · rw [State.ctx_updCtx_self, State.ctx_updCore, hrun.ctx]
      rfl
    · rw [State.updCtx, State.ctx_setCtx_ne _ _ hc, State.ctx_updCore, hrun.ctx]
    · exact hrun.mem
  · intro s core c id w dst n R vpassr s1 rest k str at0 at1 atD one hk hch hc hz hstr hs1 hat0 hat1 hatD hone hok u hu
    have hfresh : k.Fresh := by rw [hk]; exact ⟨rfl, rfl, rfl, rfl, rfl⟩
    have hsrc1 : k.s1 = s1 := by rw [Chain.s1_eq, hs1, hk]
    have h0 : ∀ j i, k.src0 j i = at0 j i := fun j i => by rw [Chain.src0_eq, Chain.str_eq _ rfl, hat0, hstr, hk]
    have h1 : ∀ j i, k.src1 j i = at1 j i := fun j i => by rw [Chain.src1_eq, Chain.str_eq _ rfl, hat1, hstr, hk]
    have hD : ∀ j i, k.dstAt j i = atD j i := fun j i => by rw [Chain.dstAt, elAt, Chain.str_eq _ rfl, hatD, hstr, hk]
    have hval : ∀ (v : State) j i, v.chainVal k j i = one v j i := fun v j i => by rw [State.chainVal_eq, h0, h1, hsrc1, hone, hk]
    have hel : s.ElementsOk k := fun j i hj hi => by
      rw [h0, h1, hD, hsrc1]
      rw [hk] at hj hi ⊢
      exact hok j i hj hi
    have hloop : k.loop s = u := by
      simp only [hu, Chain.loop, Chain.element, hval, hD]
      rw [hk]
    have hrun := chainRun_eq_loop hfresh hel
    rw [hloop] at hrun
    have hctx : k.ctx = c := by rw [hk]
    refine ⟨_, exec_passChainComplete_of_head hch (by rw [hk]) hz, ?_, ?_⟩
    · simp [State.updCtx, hrun]
    · rw [← hctx, State.ctx_updCtx_self, State.ctx_updCore, (State.SpadOnly.chainRun k s).ctx, Ctx.endChain_of_noError (by rw [hrun]), hrun, hk]
  · intro v y z
    refine ⟨?_, fun e he => ?_⟩
    · exact stageEl_of_mem_stageOps (sel := 1) (e := (0x06, v * y + z)) (by decide) (by simp [stageOps])
    · have hmem : e ∈ stageOps v y (if 0 = 0 then y else z) := by
        revert e
        simp [stageOps]
      simpa using stageEl_of_mem_stageOps (sel := 0) (k0 := z) (k1 := 0) (by decide) hmem

end Sys2Proof.Machine

/-! The end of a load, its stop and its status, and errors of its configuration store (R134, R136, R192 to R196, R390, R443). -/

namespace Sys2Proof.Machine

/-! ### The end and the stop of a load on one core (R134, R194) -/

/-- The context of a load that has ended with a status. -/
def Ctx.ended (x : Ctx) (status : Nat) : Ctx :=
  { x with cur := { x.cur with st := .ended, endSt := status }, near := [], fab := { x.fab with held := false } }

theorem State.ctx_dropCmds (s : State) (c d : CtxId) : (s.dropCmds c).ctx d = s.ctx d := rfl

theorem State.ctx_endLoad_self (s : State) (c : CtxId) (status : Nat) : (s.endLoad c status).ctx c = (s.ctx c).ended status := by
  rw [State.endLoad, State.ctx_dropCmds, State.updCtx, State.ctx_setCtx_self, Ctx.ended]

theorem State.ctx_endLoad_ne (s : State) {c d : CtxId} (h : d ≠ c) (status : Nat) : (s.endLoad c status).ctx d = s.ctx d := by
  rw [State.endLoad, State.ctx_dropCmds, State.updCtx, State.ctx_setCtx_ne _ _ h]

theorem State.ctx_stopLoad_ne (s : State) {c d : CtxId} (h : d ≠ c) (status : Nat) : (s.stopLoad c status).ctx d = s.ctx d := by
  rw [State.stopLoad, State.ctx_dropCmds, State.updCtx, State.ctx_setCtx_ne _ _ h]

theorem State.fab_stopLoad_self (s : State) (c : CtxId) (status : Nat) :
    ((s.stopLoad c status).ctx c).fab.stopped = true ∧ ((s.stopLoad c status).ctx c).fab.stopAt = some (s.time, status) := by
  rw [State.stopLoad, State.ctx_dropCmds, State.updCtx, State.ctx_setCtx_self]
  exact ⟨rfl, rfl⟩

/-- An ended load leaves the other contexts and device memory alone, and sets its own slot's status. -/
theorem execLoadEnd_ends {s : State} {c : CtxId} {status : Nat} (h : execLoadEnd c s = .next (s.endLoad c status)) :
    ∃ t, exec (.loadEnd c) s = .next t ∧ (∀ e, e ≠ c → t.ctx e = s.ctx e) ∧ t.mem = s.mem
      ∧ (t.ctx c).cur = { (s.ctx c).cur with st := .ended, endSt := status } ∧ (t.ctx c).g = (s.ctx c).g := by
  refine ⟨_, by rw [exec_loadEnd, h], fun e he => s.ctx_endLoad_ne he status, rfl, ?_, ?_⟩
  all_goals rw [State.ctx_endLoad_self]; rfl

theorem execLoadEnd_of_done {s : State} {c : CtxId} (hrun : (s.ctx c).cur.st = .running) (hstop : (s.ctx c).fab.stopped = false)
    (hheld : (s.ctx c).fab.held = false) (hdone : (s.ctx c).loadDone = true) : execLoadEnd c s = .next (s.endLoad c 1) := by
  simp [execLoadEnd, hrun, hstop, hheld, hdone]

theorem execLoadEnd_of_stopped {s : State} {c : CtxId} {e status : Nat} (hrun : (s.ctx c).cur.st = .running) (hstop : (s.ctx c).fab.stopped = true)
    (hquiet : (s.ctx c).quiet = true) (hmn : (s.ctx c).mn.cmds = []) (hat : (s.ctx c).fab.stopAt = some (e, status)) :
    execLoadEnd c s = .next (s.endLoad c status) := by
  simp [execLoadEnd, hrun, hstop, hquiet, hmn, hat]

/-! ### The stop of a lease's load (R192, R194) -/

/-- What a stop with a status does on the core of context c to the load that started in a given cycle: the load ends where its end condition holds
already. -/
def State.stopOn (start status : Nat) (s : State) (c : CtxId) : State :=
  if (s.ctx c).cur.st != .running || (s.ctx c).fab.start != start || (s.ctx c).fab.stopped then s
  else if (s.ctx c).loadDone && !(s.ctx c).fab.held then s.endLoad c 1
  else s.stopLoad c status

theorem State.ctx_stopOn_ne (s : State) {c d : CtxId} (h : d ≠ c) (start status : Nat) : (s.stopOn start status c).ctx d = s.ctx d := by
  unfold State.stopOn
  split
  · rfl
  · split
    · exact s.ctx_endLoad_ne h 1
    · exact s.ctx_stopLoad_ne h status

theorem State.time_stopOn (s : State) (c : CtxId) (start status : Nat) : (s.stopOn start status c).time = s.time := by
  unfold State.stopOn
  split
  · rfl
  · split <;> rfl

/-- The load that started in a given cycle runs in context x, and is not stopped. -/
structure Ctx.RunsSince (x : Ctx) (start : Nat) : Prop where
  running : x.cur.st = .running
  start : x.fab.start = start
  going : x.fab.stopped = false

/-- What a stop with a status in cycle t leaves of a context's load: it is stopped, or has ended where its end condition held. -/
def Ctx.StoppedIn (x y : Ctx) (t status : Nat) : Prop :=
  (x.loadDone = false ∨ x.fab.held = true → y.fab.stopped = true ∧ y.fab.stopAt = some (t, status))
    ∧ (x.loadDone = true → x.fab.held = false → y.cur = { x.cur with st := .ended, endSt := 1 })

theorem State.stopOn_stops {s : State} {c : CtxId} {start : Nat} (h : (s.ctx c).RunsSince start) (status : Nat) :
    (s.ctx c).StoppedIn ((s.stopOn start status c).ctx c) s.time status := by
  have hgo : ((s.ctx c).cur.st != .running || (s.ctx c).fab.start != start || (s.ctx c).fab.stopped) = false := by
    simp [h.running, h.start, h.going]
  rw [State.stopOn, if_neg (by rw [hgo]; decide)]
  refine ⟨fun hnot => ?_, fun hdone hheld => ?_⟩
  · rw [if_neg (by rcases hnot with h | h <;> simp [h])]
    exact s.fab_stopLoad_self c status
  · rw [if_pos (by simp [hdone, hheld]), State.ctx_endLoad_self, Ctx.ended]

theorem State.ctx_foldl_stopOn_of_not_mem {start status : Nat} {c : CtxId} {l : List CtxId} (hc : c ∉ l) (s : State) :
    (l.foldl (State.stopOn start status) s).ctx c = s.ctx c := by
  induction l generalizing s with
  | nil => rfl
  | cons d l ih =>
    obtain ⟨hd, hl⟩ := List.ne_and_not_mem_of_not_mem_cons hc
    rw [List.foldl_cons, ih hl, s.ctx_stopOn_ne hd]

/-- A stop reaches each context of a lease once, as it stood before. -/
theorem State.foldl_stopOn_stops {start : Nat} (status : Nat) {c : CtxId} {l : List CtxId} (hl : l.Nodup) (hc : c ∈ l) {s : State}
    (h : (s.ctx c).RunsSince start) : (s.ctx c).StoppedIn ((l.foldl (State.stopOn start status) s).ctx c) s.time status := by
  induction l generalizing s with
  | nil => cases hc
  | cons d l ih =>
    obtain ⟨hd, hl⟩ := List.nodup_cons.mp hl
    rw [List.foldl_cons]
    by_cases hcd : c = d
    · subst hcd
      rw [State.ctx_foldl_stopOn_of_not_mem hd]
      exact State.stopOn_stops h status
    · have hsame := s.ctx_stopOn_ne hcd start status
      have := ih hl ((List.mem_cons.mp hc).resolve_left hcd) (hsame ▸ h)
      rwa [hsame, State.time_stopOn] at this

section Stop
variable {s : State} {lid : Nat} {l : Lease}

theorem execQuantumExpire_of_over (hl : s.leaseAt lid = some l) (hf : l.frozen = none) (hq : l.quantum ≠ 0)
    (ht : l.start + l.quantum + l.slip ≤ s.time + 1) :
    execQuantumExpire lid s = .next (l.ctxs.foldl (State.stopOn l.start 3) (s.putLease lid { l with quantum := 0 })) := by
  have hover : (l.quantum == 0 || decide (s.time + 1 < l.start + l.quantum + l.slip) || l.frozen.isSome) = false := by
    simp [hq, hf]; omega
  simp only [execQuantumExpire, hl, hover]
  rfl

theorem execLoadStop_of_due (hl : s.leaseAt lid = some l) (hf : l.frozen = none) {e : Nat} (he : l.stopAt = some e) (ht : e ≤ s.time) :
    execLoadStop lid s = .next (l.ctxs.foldl (State.stopOn l.start 2) s) := by
  have hdue : (decide (s.time < e) || l.frozen.isSome) = false := by
    simp [hf]; omega
  simp only [execLoadStop, hl, he, hdue]
  rfl

end Stop

/-! ### The words about a load (R193 to R196) -/

section Words
variable {s : State} {g : Guard} {d : BitVec 5}

theorem execCfgWait_of_ended (hg : s.self.guard g = true) (hp : s.self.pends d = false) (hrun : s.self.cur.st ≠ .running) :
    execCfgWait g d s = .next (s.withSelf (s.self.setReg d (BitVec.ofNat 64 s.self.cur.endSt)).advance) := by
  rw [execCfgWait, State.issue_go hp hg, if_neg (by simpa using hrun)]

theorem execCfgWait_of_running (hg : s.self.guard g = true) (hp : s.self.pends d = false) (hrun : s.self.cur.st = .running) :
    execCfgWait g d s = .next (s.withSelf { s.self with st := .waiting, wait := some (.cfgWait d) }) := by
  rw [execCfgWait, State.issue_go hp hg, if_pos (by simpa using hrun)]
  rfl

/-- A CFG.STOP sets the stop of its lease's load where the load runs and no stop has been set. -/
def State.stopSets (s : State) : Bool :=
  s.self.ran && (s.leaseFor s.cur).stopAt.isNone && (s.leaseFor s.cur).ctxs.any (fun e =>
    (s.ctx e).cur.st == .running && (s.ctx e).fab.start == (s.leaseFor s.cur).start && !(s.ctx e).fab.stopped)

/-- The state with the stop of the executing context's lease set to the end of the span of R131, if it is to be set. -/
def State.withStop (s : State) : State :=
  if s.stopSets then s.putLease (s.lidOf s.cur) { s.leaseFor s.cur with stopAt := some (s.time + (s.leaseFor s.cur).span) } else s

theorem State.withStop_cur (s : State) : s.withStop.cur = s.cur := by
  unfold State.withStop
  split <;> rfl

theorem execCfgStop_go (hg : s.self.guard g = true) :
    execCfgStop g s = .next (s.withStop.withSelf { s.self with missed := [], miss := false, ipc := s.self.ipc + 4 }) := by
  rw [execCfgStop, State.issue_go rfl hg]
  simp only [State.withSelf, State.withStop_cur]
  rfl

theorem State.withStop_leases_of_sets (h : s.stopSets = true) :
    (s.withStop.leases.get? (s.lidOf s.cur)).bind (·.stopAt) = some (s.time + (s.leaseFor s.cur).span) := by
  rw [State.withStop, if_pos h]
  simp only [State.putLease, Map.get?_set_self, Option.bind_some]

theorem State.withStop_leases_of_not_sets (h : s.stopSets = false) : s.withStop.leases = s.leases := by
  rw [State.withStop, if_neg (by simp [h])]

theorem State.stopSets_eq_true (hran : s.self.ran = true) (hat : (s.leaseFor s.cur).stopAt = none)
    (h : ∃ c ∈ (s.leaseFor s.cur).ctxs, (s.ctx c).cur.st = .running ∧ (s.ctx c).fab.start = (s.leaseFor s.cur).start ∧ (s.ctx c).fab.stopped = false) :
    s.stopSets = true := by
  obtain ⟨c, hc, hrun, hstart, hgo⟩ := h
  simp only [State.stopSets, hran, hat, Option.isNone_none, Bool.and_self, Bool.true_and, List.any_eq_true]
  exact ⟨c, hc, by simp [hrun, hstart, hgo]⟩

theorem State.stopSets_eq_false (h : s.self.ran = false ∨ (s.leaseFor s.cur).stopAt ≠ none
    ∨ ∀ c ∈ (s.leaseFor s.cur).ctxs, (s.ctx c).cur.st ≠ .running) : s.stopSets = false := by
  rcases h with hran | hat | hrun
  · simp [State.stopSets, hran]
  · simp [State.stopSets, hat]
  · have hno : (s.leaseFor s.cur).ctxs.any (fun e => (s.ctx e).cur.st == .running && (s.ctx e).fab.start == (s.leaseFor s.cur).start
        && !(s.ctx e).fab.stopped) = false := by
      rw [List.any_eq_false]
      intro c hc
      simp [hrun c hc]
    simp [State.stopSets, hno]

theorem execCfgDrop_next (hg : s.self.guard g = true) (hrun : s.self.nxt.st ≠ .running) (hload : s.self.nxt.st ≠ .loading) :
    execCfgDrop g 0 s = .next (s.withSelf { s.self with nxt := Slot.blank, ipc := s.self.ipc + 4 }) := by
  rw [execCfgDrop, State.issue_go rfl hg]
  simp [hrun, hload, Ctx.advance]

theorem execCfgDrop_current (hg : s.self.guard g = true) (hrun : s.self.cur.st ≠ .running) (hload : s.self.cur.st ≠ .loading) :
    execCfgDrop g 1 s = .next (s.withSelf { s.self with cur := Slot.blank, missed := [], miss := false, ipc := s.self.ipc + 4 }) := by
  rw [execCfgDrop, State.issue_go rfl hg]
  simp [hrun, hload, Ctx.advance]

/-- The word of R196 Table 3. -/
theorem Ctx.statWord_eq (x : Ctx) : x.statWord = BitVec.ofNat 64
    ((if x.cur.st = .empty then 0 else x.cur.id) * 2 ^ 48 + (if x.nxt.st = .empty then 0 else x.nxt.id) * 2 ^ 32
      + (if x.miss then 2 ^ 11 else 0) + x.cur.endSt * 2 ^ 8 + x.nxt.st.code * 16 + x.cur.st.code) := by
  simp only [Ctx.statWord, beq_iff_eq]

theorem execCfgStat_reads (hg : s.self.guard g = true) (hp : s.self.pends d = false) (hdet : s.self.det = false) :
    execCfgStat g d s = .next (s.withSelf (s.self.setReg d s.self.statWord).advance) := by
  rw [execCfgStat, State.issue_go hp hg, if_neg (by simp [hdet])]

theorem execCfgStat_of_det (hg : s.self.guard g = true) (hp : s.self.pends d = false) (hdet : s.self.det = true) :
    execCfgStat g d s = .next (s.raise s.cur (detOrder (.cfgStat g d))) := by
  rw [execCfgStat, State.issue_go hp hg, if_pos hdet]

end Words

/-! ### Errors in the configuration store (R136, R390) -/

theorem execConfigStoreEcc_holds {s : State} {c : CtxId} {u : Nat} (hrun : (s.ctx c).cur.st = .running) (hstop : (s.ctx c).fab.stopped = false)
    (hu : confUnit u = true) :
    execConfigStoreEcc c u s = .next ((s.setCtx c { s.ctx c with
      cur := { (s.ctx c).cur with bad := u :: (s.ctx c).cur.bad }, fab := { (s.ctx c).fab with held := true } }).raise c ⟨0x05, BitVec.ofNat 64 u, 0x100⟩) := by
  simp only [execConfigStoreEcc, hrun, hstop, hu, State.fabFault, State.updFab, State.updCtx, State.ctx_setCtx_self, State.setCtx_setCtx, confTrap]
  rfl

/-- Settles O25: the end of a load and its stop on one core, the stop of a lease as a fold over its contexts, and each word by the lemma about it. -/
theorem loadsEndAndStop : Obligations.LoadsEndAndStop := by
  unfold Obligations.LoadsEndAndStop
  refine ⟨⟨fun s c hrun => ⟨fun hstop hheld hdone => ?_, fun hstop hquiet hmn e st hat => ?_⟩, fun s lid l hl hnd hf hctx => ⟨fun hq ht => ?_, fun e he ht => ?_⟩,
    fun s g d hg => ?_⟩, fun s c u hrun hstop hu => ?_⟩
  · exact execLoadEnd_ends (execLoadEnd_of_done hrun hstop hheld hdone)
  · obtain ⟨t, hx, hne, hmem, hcur, -⟩ := execLoadEnd_ends (execLoadEnd_of_stopped hrun hstop hquiet hmn hat)
    exact ⟨t, hx, hne, hmem, hcur⟩
  · refine ⟨_, by rw [exec_quantumExpire, execQuantumExpire_of_over hl hf hq ht], fun c hc => ?_⟩
    obtain ⟨hrun, hstart, hgo⟩ := hctx c hc
    exact State.foldl_stopOn_stops 3 hnd hc (s := s.putLease lid { l with quantum := 0 }) ⟨hrun, hstart, hgo⟩
  · refine ⟨_, by rw [exec_loadStop, execLoadStop_of_due hl hf he ht], fun c hc => ?_⟩
    obtain ⟨hrun, hstart, hgo⟩ := hctx c hc
    exact State.foldl_stopOn_stops 2 hnd hc ⟨hrun, hstart, hgo⟩
  · refine ⟨execCfgWait_of_ended hg, execCfgWait_of_running hg, ⟨_, execCfgStop_go hg, ?_, fun hran hat hex => ?_, fun h => ?_⟩,
      execCfgDrop_next hg, execCfgDrop_current hg, fun hp hdet => ?_, execCfgStat_of_det hg⟩
    · exact State.ctx_setCtx_self s.withStop s.withStop.cur _
    · exact State.withStop_leases_of_sets (State.stopSets_eq_true hran hat hex)
    · exact State.withStop_leases_of_not_sets (State.stopSets_eq_false h)
    · rw [← Ctx.statWord_eq]
      exact execCfgStat_reads hg hp hdet
  · exact execConfigStoreEcc_holds hrun hstop hu

end Sys2Proof.Machine

/-! Integer cells (R118, R119, R140, R141, R157, R159 to R161, R166, R177): their firing, and what their table gives on words. -/

namespace Sys2Proof.Machine

/-! ### Operations that raise no flag -/

/-- A cell operation that raises no flag. -/
def NoFlags (F : ElTy → Round → Tup → W32 × W32) : Prop := ∀ t r u, (F t r u).2 = 0

theorem NoFlags.intOp {f : Nat → Nat → Nat → Nat × W32} (hf : ∀ w x y, (f w x y).2 = 0) : NoFlags (intOp f) :=
  fun t _ _ => t.map2_zero (hf t.width) _ _

theorem NoFlags.map3 {f : ElTy → Nat → Nat → Nat → Nat × W32} (hf : ∀ t x y z, (f t x y z).2 = 0) :
    NoFlags (fun t _ u => t.map3 (f t) u.a u.b u.c) :=
  fun t _ _ => t.map3_zero (hf t) _ _ _

/-- An instruction that fires an operation without flags fires a ready cell, and leaves the flag word. -/
theorem fires_of_noFlags {s : State} {c : CtxId} {n op m : Nat} {k : Cell} {i : Instr} {F : ElTy → Round → Tup → W32 × W32} {v : ElTy → Tup → W32}
    (hx : exec i s = s.fireMap c n op F) (hv : ∀ t r u, (F t r u).1 = v t u) (hz : NoFlags F) (hop : op ≠ 0x58) (h : s.CellReady c n op k)
    (ho : k.Offers m) (hr : k.pk.length + m ≤ 8) :
    ∃ t, exec i s = .next t ∧ s.Fired t c n (k.fired m ((k.tups m).map (v (wTy k.word)))) 0 := by
  have hF : ∀ u, F (wTy k.word) k.round u = (v (wTy k.word) u, 0) := fun u => Prod.ext (hv ..) (hz ..)
  obtain ⟨t, he, hf⟩ := fires_of_fireMap hx hF hop h ho hr
  rw [foldl_or_zero _ _ fun _ _ => rfl] at hf
  exact ⟨t, he, hf⟩

/-! ### int32 results on words (R157, R159) -/

theorem ElTy.map2_int32 (f : Nat → Nat → Nat × W32) (x y : W32) :
    ElTy.int32.map2 f x y = (BitVec.ofNat 32 (f x.toNat y.toNat).1, (f x.toNat y.toNat).2) := ElTy.map3_int32 (fun a b _ => f a b) x y 0

theorem ofNat_intPat (v : Int) : BitVec.ofNat 32 (intPat 32 v) = BitVec.ofInt 32 v := by
  rw [intPat_eq, BitVec.ofNat_toNat, BitVec.setWidth_eq]

theorem ofInt_toNat (x : W32) : BitVec.ofInt 32 x.toNat = x := by rw [BitVec.ofInt_natCast, BitVec.ofNat_toNat, BitVec.setWidth_eq]

theorem ofInt_sub_toNat (x y : W32) : BitVec.ofInt 32 ((x.toNat : Int) - y.toNat) = x - y := by
  rw [Int.sub_eq_add_neg, BitVec.ofInt_add, BitVec.ofInt_neg, ofInt_toNat, ofInt_toNat, sub_eq_add_neg]

theorem ofInt_toInt_sub (x y : W32) : BitVec.ofInt 32 (x.toInt - y.toInt) = x - y := by
  rw [Int.sub_eq_add_neg, BitVec.ofInt_add, BitVec.ofInt_neg, BitVec.ofInt_toInt, BitVec.ofInt_toInt, sub_eq_add_neg]

/-- A saturated result on words: the bounds of 32-bit two's complement, or the word of the exact value. -/
theorem ofNat_clampI {v : Int} {x : W32} (h : BitVec.ofInt 32 v = x) :
    BitVec.ofNat 32 (clampI 32 v).1 = if v > 2 ^ 31 - 1 then 0x7FFFFFFF else if v < -2 ^ 31 then 0x80000000 else x := by
  have hmax : intMax 32 true = 2 ^ 31 - 1 := by decide
  have hmin : intMin 32 true = -2 ^ 31 := by decide
  rw [clampI, hmax, hmin, ofNat_intPat, apply_ite (BitVec.ofInt 32), apply_ite (BitVec.ofInt 32), h]
  rfl

/-- The integer operations of two operands (R157), as functions of patterns and as 32-bit two's complement arithmetic. -/
def wordOps (x y : W32) : List ((Nat → Nat → Nat) × W32) :=
  [(fun a b => intPat 32 ((a : Int) + b), x + y), (fun a b => intPat 32 ((a : Int) - b), x - y), (fun a b => intPat 32 ((b : Int) - a), y - x),
    (fun a b => intPat 32 ((a : Int) * b), x * y),
    (fun a b => intPat 32 (patInt 32 true a * patInt 32 true b / (2 ^ 32 : Nat)), BitVec.ofInt 32 (x.toInt * y.toInt / 2 ^ 32)),
    (fun a b => (clampI 32 (patInt 32 true a + patInt 32 true b)).1,
      if x.toInt + y.toInt > 2 ^ 31 - 1 then 0x7FFFFFFF else if x.toInt + y.toInt < -2 ^ 31 then 0x80000000 else x + y),
    (fun a b => (clampI 32 (patInt 32 true a - patInt 32 true b)).1,
      if x.toInt - y.toInt > 2 ^ 31 - 1 then 0x7FFFFFFF else if x.toInt - y.toInt < -2 ^ 31 then 0x80000000 else x - y),
    (fun a b => if patInt 32 true a ≤ patInt 32 true b then a else b, if x.toInt ≤ y.toInt then x else y),
    (fun a b => if patInt 32 true a ≤ patInt 32 true b then b else a, if x.toInt ≤ y.toInt then y else x),
    (fun a b => min a b, if x.toNat ≤ y.toNat then x else y), (fun a b => max a b, if x.toNat ≤ y.toNat then y else x),
    (fun a _ => intPat 32 (-(a : Int)), -x), (fun a b => a &&& b, x &&& y), (fun a b => a ||| b, x ||| y), (fun a b => a ^^^ b, x ^^^ y),
    (fun a b => intPat 32 (a * 2 ^ (b % 32) : Nat), x <<< (y.toNat % 32)), (fun a b => a / 2 ^ (b % 32), x >>> (y.toNat % 32)),
    (fun a b => intPat 32 (patInt 32 true a / (2 ^ (b % 32) : Nat)), x.sshiftRight (y.toNat % 32))]

theorem ofNat_of_mem_wordOps (x y : W32) : ∀ e ∈ wordOps x y, BitVec.ofNat 32 (e.1 x.toNat y.toNat) = e.2 := by
  have hsgn : ∀ x : W32, patInt 32 true x.toNat = x.toInt := patInt_toNat (by decide)
  have wrap : ∀ {v : Int} {u : W32}, BitVec.ofInt 32 v = u → BitVec.ofNat 32 (intPat 32 v) = u := fun h => (ofNat_intPat _).trans h
  have pattern : ∀ {a : Nat} {u : W32}, a = u.toNat → BitVec.ofNat 32 a = u := fun h => by rw [h, BitVec.ofNat_toNat, BitVec.setWidth_eq]
  have select : ∀ (p : Prop) [Decidable p] (u v : W32), (if p then u.toNat else v.toNat) = (if p then u else v).toNat :=
    fun p _ u v => (apply_ite BitVec.toNat p u v).symm
  have hmulh : (x.toInt * y.toInt / (2 ^ 32 : Nat) : Int) = x.toInt * y.toInt / 2 ^ 32 := rfl
  simp only [wordOps, List.forall_mem_cons, hsgn]
  refine ⟨wrap ?_, wrap (ofInt_sub_toNat x y), wrap (ofInt_sub_toNat y x), wrap ?_, wrap (by rw [hmulh]), ofNat_clampI ?_,
    ofNat_clampI (ofInt_toInt_sub x y), pattern (select ..), pattern (select ..), pattern ?_, pattern ?_, wrap ?_,
    pattern (BitVec.toNat_and ..).symm, pattern (BitVec.toNat_or ..).symm, pattern (BitVec.toNat_xor ..).symm, wrap ?_, pattern ?_, wrap ?_,
    List.forall_mem_nil _⟩
  · rw [BitVec.ofInt_add, ofInt_toNat, ofInt_toNat]
  · rw [BitVec.ofInt_mul, ofInt_toNat, ofInt_toNat]
  · rw [BitVec.ofInt_add, BitVec.ofInt_toInt, BitVec.ofInt_toInt]
  · rw [Nat.min_def, select]
  · rw [Nat.max_def, select]
  · rw [BitVec.ofInt_neg, ofInt_toNat]
  · exact BitVec.eq_of_toNat_eq (by rw [BitVec.ofInt_natCast, BitVec.toNat_ofNat, BitVec.toNat_shiftLeft, Nat.shiftLeft_eq])
  · rw [BitVec.toNat_ushiftRight, Nat.shiftRight_eq_div_pow]
  · rw [BitVec.sshiftRight, Int.shiftRight_eq_div_pow]

theorem ofInt_mul_add_toNat (x y z : W32) : BitVec.ofInt 32 ((x.toNat : Int) * y.toNat + z.toNat) = x * y + z := by
  rw [BitVec.ofInt_add, BitVec.ofInt_mul, ofInt_toNat, ofInt_toNat, ofInt_toNat]

/-- Settles O16: every integer cell fires an operation without flags, and on words each operation of the table is 32-bit arithmetic. -/
theorem integerCellsFire : Obligations.IntegerCellsFire := by
  unfold Obligations.IntegerCellsFire
  refine ⟨?_, fun x y z => ⟨fun e he => ?_, ?_⟩⟩
  · intro c n e he s k m hready hoff hroom
    obtain ⟨F, hx, hv, hz, hop⟩ : ∃ F, exec e.1 s = s.fireMap c n e.2.1 F ∧ (∀ t r u, (F t r u).1 = e.2.2 t u) ∧ NoFlags F ∧ e.2.1 ≠ 0x58 := by
      simp only [List.mem_cons, List.not_mem_nil, or_false] at he
      rcases he with rfl | rfl | rfl | rfl | rfl | rfl | rfl | rfl | rfl | rfl | rfl | rfl | rfl | rfl | rfl | rfl | rfl | rfl | rfl | rfl | rfl | rfl
        | rfl | rfl | rfl | rfl | rfl | rfl | rfl | rfl | rfl | rfl | rfl | rfl | rfl
      -- ADD to MULH; MAD; ADDS to POPC
      iterate 5 exact ⟨_, rfl, fun _ _ _ => rfl, .intOp fun _ _ _ => rfl, Nat.ne_of_beq_eq_false rfl⟩
      · exact ⟨_, exec_cellMad s, fun _ _ _ => rfl, .map3 fun _ _ _ _ => rfl, Nat.ne_of_beq_eq_false rfl⟩
      iterate 16 exact ⟨_, rfl, fun _ _ _ => rfl, .intOp fun _ _ _ => rfl, Nat.ne_of_beq_eq_false rfl⟩
      -- the compares
      iterate 6 exact ⟨_, rfl, fun _ _ _ => by simp only [cmpOp, intOp, beq_iff_eq, bne_iff_ne, ite_not, decide_eq_true_eq], .intOp fun _ _ _ => rfl, Nat.ne_of_beq_eq_false rfl⟩
      -- SEL
      · exact ⟨_, exec_cellSel s, fun _ _ _ => by simp only [beq_iff_eq], .map3 fun _ _ _ _ => rfl, Nat.ne_of_beq_eq_false rfl⟩
      -- PAND, POR and PXOR; PNOT; MOV and ORDJ
      iterate 3 exact ⟨_, rfl, fun _ _ _ => rfl, fun _ _ _ => rfl, Nat.ne_of_beq_eq_false rfl⟩
      · exact ⟨_, rfl, fun _ _ _ => by simp only [predOp, Bool.not_eq_true', ← Bool.not_eq_true, ite_not], fun _ _ _ => rfl, Nat.ne_of_beq_eq_false rfl⟩
      · exact ⟨_, exec_cellMov s, fun _ _ _ => rfl, fun _ _ _ => rfl, Nat.ne_of_beq_eq_false rfl⟩
      · exact ⟨_, exec_cellOrdj s, fun _ _ _ => rfl, fun _ _ _ => rfl, Nat.ne_of_beq_eq_false rfl⟩
    exact fires_of_noFlags hx hv hz hop hready hoff hroom
  · rw [ElTy.map2_int32]
    exact ofNat_of_mem_wordOps x y e he
  · rw [ElTy.map3_int32, ofNat_intPat]
    exact ofInt_mul_add_toNat x y z

end Sys2Proof.Machine

/-! Packets, demand, producers and markers of the fabric (R105 to R120, R134, R154, R155, R163 to R173, R194). -/

namespace Sys2Proof.Machine

/-! ### Consumers (R107, R109) -/

@[simp] theorem Fab.sink?_updBranch (f : Fab) (i j : Nat) (h : Branch → Branch) (e : BrEnd) : (f.updBranch i j h).sink? e = f.sink? e := rfl

/-- The store of a consumer that is changed. -/
theorem Fab.sink?_updSink {f : Fab} {e : BrEnd} {q : Part} (hq : f.sink? e = some q) (h : Part → Part) : (f.updSink e h).sink? e = some (h q) := by
  cases e with
  | queue n r =>
    obtain ⟨x, hx, hr⟩ := Option.bind_eq_some_iff.mp hq
    simp [Fab.updSink, Fab.sink?, hx, Fab.setCell, getElem?_modAt, hr]
  | port p =>
    simp only [Fab.sink?, Fab.updSink] at hq ⊢
    split
    next hin =>
      rw [if_pos hin] at hq
      obtain ⟨x, hx, rfl⟩ := Option.map_eq_some_iff.mp hq
      simp [hx, Fab.setTile]
    next hin =>
      rw [if_neg hin] at hq
      split
      next hpar =>
        rw [if_pos hpar] at hq
        obtain ⟨x, hx, rfl⟩ := Option.map_eq_some_iff.mp hq
        simp [hx, Fab.setTile]
      next hpar =>
        rw [if_neg hpar] at hq
        obtain ⟨x, hx, rfl⟩ := Option.map_eq_some_iff.mp hq
        simp [hx, Fab.setPort]
  | exit side pos => cases hq

/-! ### Packets that arrive (R107, R112, R194) -/

/-- A branch of a context's load. -/
def Ctx.branch? (x : Ctx) (i j : Nat) : Option Branch := (x.fab.segs[i]?).bind (fun g => g.branches[j]?)

theorem Fab.branches_updBranch {f : Fab} {i j : Nat} {b : Branch} (hb : (f.segs[i]?).bind (fun g => g.branches[j]?) = some b) (h : Branch → Branch) :
    (((f.updBranch i j h).segs[i]?).bind fun g => g.branches[j]?) = some (h b) := by
  obtain ⟨g, hg, hj⟩ := Option.bind_eq_some_iff.mp hb
  simp [Fab.updBranch, getElem?_modAt, hg, hj]

/-- The elements of a data packet that a consumer takes: at a port that takes single elements, those of the branch's lane (R112). -/
def Branch.takes (b : Branch) (p : Packet) : List W32 := if b.dst.isX1 = true ∧ p.x1 = false ∧ p.mark = 0 then laneEls b.lane b.skip p.els else p.els

/-- A data packet that an open store accepts stands behind what it held, in order. -/
theorem Part.accept_data {q : Part} {p : Packet} (hm : p.mark = 0) : q.accept p = { q with
    items := q.items ++ (List.range p.els.length).map (fun a => .el (p.els.getD a 0) (a + 1 == p.els.length)), ty := p.ty } := by
  simp [Part.accept, packetItems, hm]

section Arrive
variable {s : State} {c : CtxId} {i j : Nat} {b : Branch} {p : Packet} {rest : List Packet}

theorem execPacketArrive_of_stopped (hb : (s.ctx c).branch? i j = some b) (hfly : b.fly = p :: rest) (hstop : (s.ctx c).fab.stopped = true) :
    execPacketArrive c i j s = .next (s.updFab c (fun f => f.updBranch i j (fun b => { b with fly := rest }))) := by
  rw [Ctx.branch?] at hb
  simp only [execPacketArrive, hb, hfly, hstop, if_true]

theorem State.ctx_cmdArrive (s : State) (c d : CtxId) (e : BrEnd) (l : List QItem) (n : Nat) : (s.cmdArrive c e l n).ctx d = s.ctx d := by
  unfold State.cmdArrive
  split <;> rfl

theorem State.mem_cmdArrive (s : State) (c : CtxId) (e : BrEnd) (l : List QItem) (n : Nat) : (s.cmdArrive c e l n).mem = s.mem := by
  unfold State.cmdArrive
  split <;> rfl

theorem State.cmdArrive_of_ne {e : BrEnd} (h : e ≠ .port 53) (s : State) (c : CtxId) (l : List QItem) (n : Nat) : s.cmdArrive c e l n = s := by
  rw [State.cmdArrive, if_neg (by simpa using h)]

/-- The branch has a packet in flight to an open store of the running load, which takes the packet's type. -/
structure State.Arriving (s : State) (c : CtxId) (i j : Nat) (b : Branch) (p : Packet) (rest : List Packet) (q : Part) : Prop where
  branch : (s.ctx c).branch? i j = some b
  fly : b.fly = p :: rest
  going : (s.ctx c).fab.stopped = false
  running : (s.ctx c).cur.st = .running
  here : ∀ sd pos, b.dst ≠ .exit sd pos
  sink : (s.ctx c).fab.sink? b.dst = some q
  isOpen : q.eosIn = false
  type : badType b.dst p = false

/-- A store that takes whole packets takes the packet as it is. -/
theorem State.Arriving.whole {q : Part} (h : s.Arriving c i j b p rest q) (hm : p.mark = 0) (hx : ¬(b.dst.isX1 = true ∧ p.x1 = false)) :
    execPacketArrive c i j s = .next (((s.updFab c (fun f => f.updBranch i j (fun b => { b with fly := rest }))).updFab c
      (fun f => f.updSink b.dst (fun q => q.accept p))).cmdArrive c b.dst q.items p.els.length) := by
  obtain ⟨hb, hfly, hgo, hrun, hexit, hq, heos, hty⟩ := h
  have hwhole : (b.dst.isX1 && !p.x1) = false := by simpa using hx
  rw [Ctx.branch?] at hb
  simp only [execPacketArrive, hb, hfly, hgo, hrun, hq, heos, hty, hwhole, hm, beq_self_eq_true, bne_self_eq_false, Bool.and_true, Bool.or_self,
    Bool.false_eq_true, if_true, if_false]

/-- A port that takes single elements takes those of the branch's lane, and the lane's index moves on (R112). -/
theorem State.Arriving.lane {q : Part} (h : s.Arriving c i j b p rest q) (hm : p.mark = 0) (hx : b.dst.isX1 = true ∧ p.x1 = false)
    (hels : laneEls b.lane b.skip p.els ≠ []) :
    execPacketArrive c i j s = .next (((s.updFab c (fun f => f.updBranch i j (fun b => { b with fly := rest }))).updFab c
      (fun f => f.updBranch i j (fun b => { b with skip := b.skip + p.els.length }))).updFab c
      (fun f => f.updSink b.dst (fun q => q.accept { p with els := laneEls b.lane b.skip p.els }))) := by
  obtain ⟨hb, hfly, hgo, hrun, hexit, hq, heos, hty⟩ := h
  have hlane : (b.dst.isX1 && !p.x1 && p.mark == 0) = true := by simpa [hm] using hx
  have hne : (laneEls b.lane b.skip p.els).isEmpty = false := by simpa using hels
  rw [Ctx.branch?] at hb
  simp only [execPacketArrive, hb, hfly, hgo, hrun, hq, heos, hty, hlane, hne, beq_self_eq_true, Bool.or_self, Bool.false_eq_true, if_true, if_false]

/-- The elements of a data packet, those of its lane at a port that takes single elements, arrive behind what the store held. -/
theorem State.Arriving.data {q : Part} (h : s.Arriving c i j b p rest q) (hm : p.mark = 0) (hels : b.takes p ≠ []) :
    ∃ t, execPacketArrive c i j s = .next t ∧ (b.dst ≠ .port 53 → s.OnlyCtx t c) ∧ t.mem = s.mem
      ∧ (t.ctx c).fab.sink? b.dst = some (q.accept { p with els := b.takes p }) := by
  by_cases hx : b.dst.isX1 = true ∧ p.x1 = false
  · have htakes : b.takes p = laneEls b.lane b.skip p.els := if_pos ⟨hx.1, hx.2, hm⟩
    rw [htakes] at hels ⊢
    refine ⟨_, h.lane hm hx hels, fun _ => ((State.SameBut.refl s c).updFab _ |>.updFab _).onlyCtx_updFab _, rfl, ?_⟩
    simp only [State.updFab_ctx]
    exact Fab.sink?_updSink (by simpa using h.sink) _
  · have htakes : b.takes p = p.els := if_neg fun hl => hx ⟨hl.1, hl.2.1⟩
    rw [htakes]
    refine ⟨_, h.whole hm hx, fun hne => ?_, State.mem_cmdArrive .., ?_⟩
    · rw [State.cmdArrive_of_ne hne]
      exact ((State.SameBut.refl s c).updFab _).onlyCtx_updFab _
    · simp only [State.ctx_cmdArrive, State.updFab_ctx]
      exact Fab.sink?_updSink (by simpa using h.sink) _

end Arrive

theorem badType_eq_false {e : BrEnd} {p : Packet} (h : e = .port 48 ∨ e = .port 53 → p.ty = 0) : badType e p = false := by
  unfold badType
  split
  · simp [h (.inl rfl)]
  · simp [h (.inr rfl)]
  · rfl

/-! ### Demand (R108 to R112, R134) -/

section Demand
variable {s : State} {c : CtxId} {i j : Nat} {b : Branch}

/-- A consumer that owes credits sends a demand for at most two of them. -/
theorem sendFrom_of_owed {e : BrEnd} {q : Part} (hq : (s.ctx c).fab.sink? e = some q) (hbr : (s.ctx c).fab.branchTo e = some (i, j)) (howed : q.owed ≠ 0) :
    execDemandSend.sendFrom c s (s.ctx c) e = s.updFab c (fun f =>
      (f.updSink e (fun q => { q with owed := q.owed - min 2 q.owed })).demandOn i j (min 2 q.owed)) := by
  simp only [execDemandSend.sendFrom, hq, hbr, beq_iff_eq, if_neg howed]

/-- The oldest demand message of a branch is gone; it is counted, or it is discarded. -/
theorem execDemandArrive_of_unit {g : Seg} {u : Source} {n : Nat} {rest : List Nat} (hg : (s.ctx c).fab.segs[i]? = some g)
    (hb : g.branches[j]? = some b) (hsrc : g.src = .unit u) (hrev : b.rev = n :: rest) (hexit : ∀ sd pos, b.dst ≠ .exit sd pos) :
    execDemandArrive c i j s = .next (s.updFab c (fun f => f.updBranch i j (fun b =>
      if (s.ctx c).takesDemand i then { b with rev := rest, cum := b.cum + n } else { b with rev := rest }))) := by
  have hsegs : (s.updFab c (fun f => f.updBranch i j (fun b => { b with rev := rest, cum := b.cum + n }))).ctx c
      = { s.ctx c with fab := (s.ctx c).fab.updBranch i j (fun b => { b with rev := rest, cum := b.cum + n }) } := State.updFab_ctx ..
  have hseg : ((s.ctx c).fab.updBranch i j (fun b => { b with rev := rest, cum := b.cum + n })).segs[i]?
      = some { g with branches := modAt (fun b => { b with rev := rest, cum := b.cum + n }) g.branches j } := by
    simp [Fab.updBranch, getElem?_modAt, hg]
  cases htk : (s.ctx c).takesDemand i
  · simp [execDemandArrive, hg, hb, hrev, htk]
  · simp [execDemandArrive, hg, hb, hrev, htk, hsegs, hseg, hsrc, State.forwardDemand]

end Demand

/-! ### Producers (R105, R110, R119, R120, R155) -/

section Producers
variable {s : State} {c : CtxId} {n : Nat}

/-- A packer that is full, or not empty in a cycle in which its cell has not fired for the context, may close (R119). -/
theorem State.mayClose_eq_true {l : List W32} (hne : l ≠ []) (h : 8 ≤ l.length ∨ s.turns.get? (512 * coreOf c + n) ≠ some (c % 4, s.time)) :
    s.mayClose c n l.length = true := by
  have hlen : l.length ≠ 0 := by simpa using hne
  rcases h with h | h <;> simp [State.mayClose, State.firedNow, hlen, h]

theorem execPackerClose_out {k : Cell} (hact : (s.ctx c).active? = true) (hk : (s.ctx c).fab.cell? n = some k)
    (hm : s.mayClose c n k.pk.length = true) (hd : (s.ctx c).fab.canClose (.out n) 1 = true) :
    execPackerClose c (.out n) s = .next (s.updFab c (fun f => (f.setCell n { k with pk := [], lastIns := false }).close (.out n)
      ((s.ctx c).packet k.pk 0 (cellTy k.word) false))) := by
  simp [execPackerClose, hact, hk, hm, hd]

theorem execPackerClose_aux {k : Cell} (hact : (s.ctx c).active? = true) (hk : (s.ctx c).fab.cell? n = some k)
    (hm : s.mayClose c n k.apk.length = true) (hd : (s.ctx c).fab.canClose (.aux n) 1 = true) :
    execPackerClose c (.aux n) s = .next (s.updFab c (fun f => (f.setCell n { k with apk := [] }).close (.aux n)
      ((s.ctx c).packet k.apk 0 (cellTy k.word) true))) := by
  simp [execPackerClose, hact, hk, hm, hd]

/-- A packer that is not full stays as it is in a cycle in which its cell has fired for the context (R119). -/
theorem execPackerClose_out_of_fired {k : Cell} (hk : (s.ctx c).fab.cell? n = some k) (hlen : k.pk.length < 8)
    (hf : s.turns.get? (512 * coreOf c + n) = some (c % 4, s.time)) : execPackerClose c (.out n) s = .next s := by
  have hm : s.mayClose c n k.pk.length = false := by simp [State.mayClose, State.firedNow, hf]; omega
  simp [execPackerClose, hk, hm]

theorem execAuxTokenSend_sends {k : Cell} {v : W32} {rest : List W32} (hact : (s.ctx c).active? = true) (hk : (s.ctx c).fab.cell? n = some k)
    (hheld : k.held = v :: rest) (hd : (s.ctx c).fab.canClose (.aux n) 1 = true) :
    execAuxTokenSend c n s = .next (s.updFab c (fun f => (f.setCell n { k with held := rest }).close (.aux n)
      ((s.ctx c).packet [v] 0 (cellTy k.word) true))) := by
  simp [execAuxTokenSend, hact, hk, hheld, hd]

theorem execPackerClose_tile {t : Tile} (hact : (s.ctx c).active? = true) (hn : n < 16) (ht : (s.ctx c).fab.tiles.get? n = some t) (hne : t.pk ≠ [])
    (hmode : bits t.ctrl 4 3 = 2) (hd : (s.ctx c).fab.canClose (.port n) 1 = true) :
    execPackerClose c (.port n) s = .next (s.updFab c (fun f => (f.setTile n { t with pk := [] }).close (.port n)
      ((s.ctx c).packet t.pk 0 (bits t.ctrl 2 0) false))) := by
  simp [execPackerClose, hact, hn, ht, hne, hmode, hd]

section Port
variable {t : Port} (hact : (s.ctx c).active? = true) (hn : 16 ≤ n) (ht : (s.ctx c).fab.port? n = some t)
  (hd : (s.ctx c).fab.canClose (.port n) 1 = true)
include hact hn ht hd

theorem execPackerClose_port_token {v : W32} {rest : List W32} (hpk : t.pk = []) (htok : t.toks = v :: rest) :
    execPackerClose c (.port n) s = .next (s.updFab c (fun f => (f.setPort n { t with toks := rest }).close (.port n)
      ((s.ctx c).packet [v] 0 0 false))) := by
  simp [execPackerClose, hact, hn, ht, hd, hpk, htok]

theorem execPackerClose_port_packer (hpk : t.pk ≠ []) :
    execPackerClose c (.port n) s = .next (s.updFab c (fun f => (f.setPort n { t with pk := [] }).close (.port n)
      ((s.ctx c).packet t.pk 0 t.pkTy false))) := by
  obtain ⟨v, l, hl⟩ := List.exists_cons_of_ne_nil hpk
  simp [execPackerClose, hact, hn, ht, hd, hl]

end Port

end Producers

/-! ### Markers (R113, R114) -/

theorem chunk8_of_le {l : List W32} (h : l.length ≤ 8) : chunk8 l = if l = [] then [] else [l] := by
  cases l with
  | nil => rfl
  | cons v l => exact (if_pos h : chunk8 (v :: l) = _).trans (if_neg (List.cons_ne_nil v l)).symm

/-- The element that a marker makes an operation emit: the st of a reduction, and a partly filled element of CVT (R163 to R165). -/
theorem markerEls_eq (k : Cell) : markerEls k = if (0x48 ≤ wOp k.word ∧ wOp k.word ≤ 0x4D) ∨ wOp k.word = 0x29
    ∨ (wOp k.word = 0x40 ∧ k.idx % (cvtDst k.word).1.count ≠ 0) then [k.st] else [] := by
  simp only [markerEls, Bool.or_eq_true, Bool.and_eq_true, decide_eq_true_eq, beq_iff_eq, bne_iff_ne]
  split
  next h => rw [if_pos (by tauto)]
  next h =>
    split
    next h' => rw [if_pos (by tauto)]
    next h' => rw [if_neg (by tauto)]

theorem length_markerEls_le (k : Cell) : (markerEls k).length ≤ 8 := by
  rw [markerEls_eq]
  split <;> simp

/-- The reset value of st by operation (R154, R164, R165). -/
theorem stReset_eq (w : W32) : stReset w =
    if wOp w = 0x49 then (wTy w).splat (2 ^ ((wTy w).width - 1) - 1) else if wOp w = 0x4A then (wTy w).splat (2 ^ ((wTy w).width - 1))
    else if wOp w = 0x4C then (wTy w).splat (((wTy w).fmt?.map (fun f => f.inf)).getD 0)
    else if wOp w = 0x4D then (wTy w).splat (((wTy w).fmt?.map (fun f => f.inf + f.sign true)).getD 0) else 0 := by
  unfold stReset
  split
  next h => rw [if_pos h]
  next h => rw [h]; rfl
  next h => cases hf : (wTy w).fmt? <;> simp [h, hf]
  next h => cases hf : (wTy w).fmt? <;> simp [h, hf]
  next h1 h2 h3 h4 => rw [if_neg h1, if_neg h2, if_neg h3, if_neg h4]

theorem State.updFab_updFab (s : State) (c : CtxId) (f g : Fab → Fab) : (s.updFab c f).updFab c g = s.updFab c (fun x => g (f x)) := by
  simp only [State.updFab, State.updCtx, State.ctx_setCtx_self, State.setCtx_setCtx]

section Markers
variable {s : State} {c : CtxId} {n op kind : Nat} {k : Cell}

/-- The packets that a cell closes on out as it passes a marker: its packer's data, what its operation emits, and the marker, unless it absorbs it. -/
theorem Ctx.markerPkts_out (x : Ctx) (n : Nat) (kind : Nat) (h : k.pk.length ≤ 8) : (x.markerPkts n k kind).1
    = if k.absorbs kind then [] else (if k.pk = [] then [] else [x.packet k.pk 0 (cellTy k.word) false])
        ++ (markerEls k).map (fun v => x.packet [v] 0 (cellTy k.word) false) ++ [x.packet [] kind (cellTy k.word) false] := by
  have hels : (chunk8 (markerEls k)).map (fun l => x.packet l 0 (cellTy k.word) false) = (markerEls k).map (fun v => x.packet [v] 0 (cellTy k.word) false) := by
    rw [markerEls_eq]
    split <;> rfl
  have hpk : (chunk8 k.pk).map (fun l => x.packet l 0 (cellTy k.word) false) = if k.pk = [] then [] else [x.packet k.pk 0 (cellTy k.word) false] := by
    rw [chunk8_of_le h]
    split <;> rfl
  simp only [Ctx.markerPkts, List.map_append, hels, hpk]

/-- The packets that a cell closes on a routed aux as it passes a marker. -/
theorem Ctx.markerPkts_aux (x : Ctx) (n : Nat) (kind : Nat) (h : k.apk.length ≤ 8) : (x.markerPkts n k kind).2
    = if wAux k.word && x.fab.routed (.aux n) then (if k.apk = [] then [] else [x.packet k.apk 0 (cellTy k.word) true])
        ++ [x.packet [] kind (cellTy k.word) true] else [] := by
  have hpk : (chunk8 k.apk).map (fun l => x.packet l 0 (cellTy k.word) true) = if k.apk = [] then [] else [x.packet k.apk 0 (cellTy k.word) true] := by
    rw [chunk8_of_le h]
    split <;> rfl
  simp only [Ctx.markerPkts, hpk]

/-- A ready cell with no block under way passes a marker of one kind at the heads of its queues, under demand for each packet that it closes. -/
theorem execCellMarkerPass_passes (h : s.CellReady c n op k) (hacc : k.acc = []) (hbuf : k.buf = []) (hop : 0 < op)
    (hput : op ≠ 0x72 ∨ (s.ctx c).putHeld = false) (hgo : op ≠ 0x58 ∨ k.go = false) (hheads : headsOf ((wQueues k.word).map k.queue) = .markers kind)
    (hout : (s.ctx c).fab.canClose (.out n) ((s.ctx c).markerPkts n k kind).1.length = true)
    (haux : (s.ctx c).fab.canClose (.aux n) ((s.ctx c).markerPkts n k kind).2.length = true) :
    execCellMarkerPass c n s = .next ((s.serve (512 * coreOf c + n) c).updFab c (fun f =>
      ((f.setCell n { k.popQs (wQueues k.word) 1 with
        pk := [], apk := [], st := stReset k.word, idx := 0, buf := [], waitBlk := [], lastIns := k.absorbs kind, done := k.done || kind == 2 }).closeAll
          (.out n) ((s.ctx c).markerPkts n k kind).1).closeAll (.aux n) ((s.ctx c).markerPkts n k kind).2)) := by
  obtain ⟨hcell, rfl, hact, hopen, hheld, hbusy, hblk, -, hturn⟩ := h
  have hput : (wOp k.word == 0x72 && (s.ctx c).putHeld) = false := by
    rcases hput with h | h <;> simp [h]
  have hgo : (wOp k.word == 0x58 && k.go) = false := by
    rcases hgo with h | h <;> simp [h]
  have hop : (wOp k.word == 0) = false := by simp; omega
  have hholds : k.holds = false := by simp [Cell.holds, hheld, hgo, hbusy, hblk]
  have hpass : (s.ctx c).canPass n k kind = true := by simp [Ctx.canPass, hacc, hout, haux]
  have hserve (f : Fab → Fab) : (s.updFab c f).serve (512 * coreOf c + n) c = (s.serve (512 * coreOf c + n) c).updFab c f := rfl
  simp only [execCellMarkerPass, hcell, hact, hopen, hholds, hacc, hput, hop, hturn, hheads, hbuf, hpass, List.isEmpty_nil, Bool.not_true, Bool.and_false,
    Bool.or_self, Bool.false_eq_true, if_false, State.putFired, State.putCell, hserve, State.updFab_updFab]

end Markers

/-- Settles O21: arrivals and demand by what they change in one branch, producers by their packers, and a marker by the packets it closes. -/
theorem packetsAndDemandTravel : Obligations.PacketsAndDemandTravel := by
  unfold Obligations.PacketsAndDemandTravel
  refine ⟨fun s c i j b p rest hb hfly => ⟨execPacketArrive_of_stopped hb hfly, ?_⟩, ⟨?_, ?_, ?_⟩, ⟨?_, ?_, ?_, ?_, ?_, ?_⟩, ?_⟩
  · intro q els hgo hrun hexit hq heos hty hels hm hne
    have harr : s.Arriving c i j b p rest q := ⟨hb, hfly, hgo, hrun, hexit, hq, heos, badType_eq_false hty⟩
    subst hels
    obtain ⟨t, hx, honly, hmem, hsink⟩ := harr.data hm hne
    exact ⟨t, hx, honly, hmem, hsink.trans (congrArg some (Part.accept_data (p := { p with els := b.takes p }) hm))⟩
  · intro s c n r i j e he q hgo hq hbr howed
    simp only [List.mem_cons, List.not_mem_nil, or_false] at he
    rcases he with rfl | rfl
    all_goals
      rw [exec_demandSend, execDemandSend, if_neg (by simp [hgo])]
      exact congrArg _ (sendFrom_of_owed hq hbr howed)
  · intro s c i j n g b u rest hg hb hsrc hrelay hrev hexit
    have hx := execDemandArrive_of_unit hg hb hsrc hrev hexit
    refine ⟨fun hgo hrun heos => ?_, fun hnot => ?_⟩
    · have htk : (s.ctx c).takesDemand i = true := by simp [Ctx.takesDemand, hgo, hg, hsrc, heos, hrun]
      simp only [htk, if_true] at hx
      refine ⟨_, hx, (State.SameBut.refl s c).onlyCtx_updFab _, ?_⟩
      rw [State.updFab_ctx]
      exact Fab.branches_updBranch (by rw [hg]; exact hb) _
    · have htk : (s.ctx c).takesDemand i = false := by
        rcases hnot with h | h | h <;> simp [Ctx.takesDemand, hg, hsrc, h]
      simpa only [exec_demandArrive, htk, Bool.false_eq_true, if_false] using hx
  · intro s c i j b hb howed
    simp [execLaneSkipDemand, hb, howed]
  · exact fun s c n k hact hk hne hfull hd => execPackerClose_out hact hk (State.mayClose_eq_true hne hfull) hd
  · exact fun s c n k v rest hact hk hheld hd => execAuxTokenSend_sends hact hk hheld hd
  · exact fun s c n k hact hk hne hfull hd => execPackerClose_aux hact hk (State.mayClose_eq_true hne hfull) hd
  · exact fun s c q t hact hn ht hne hmode hd => execPackerClose_tile hact hn ht hne hmode hd
  · exact fun s c q t hact hn ht hd => ⟨fun v rest => execPackerClose_port_token hact hn ht hd, execPackerClose_port_packer hact hn ht hd⟩
  · exact fun s c n k hk hlen hf => execPackerClose_out_of_fired hk hlen hf
  · intro s c n op kind k w t sent r own outs auxs h hacc hbuf hop hput hgo hheads hpk hapk ht hw hsent hr hown houts hauxs hout haux
    have hwop : wOp k.word = op := h.2.1
    have hsent : sent = markerEls k := by rw [hsent, markerEls_eq, hwop]
    have hr : r = stReset k.word := by rw [hr, stReset_eq, hwop, hw, ht]
    have hown : own = k.absorbs kind := by rw [hown, Cell.absorbs, hwop]
    have houts : outs = ((s.ctx c).markerPkts n k kind).1 := by rw [houts, Ctx.markerPkts_out _ n kind hpk, hown, hsent]
    have hauxs : auxs = ((s.ctx c).markerPkts n k kind).2 := by rw [hauxs, Ctx.markerPkts_aux _ n kind hapk]
    subst houts hauxs
    rw [exec_cellMarkerPass, execCellMarkerPass_passes h hacc hbuf hop hput hgo hheads hout haux, hr, hown]
    rfl

end Sys2Proof.Machine

/-! Address-generator tiles (R126 to R128, R135, R178, R259, R261, R262, R286, R287, R427): start, elements, end, and decoupled tiles. -/

namespace Sys2Proof.Machine

/-! ### Start (R126 to R128, R178, R262) -/

/-- The tile with its waiting parameters applied, at position 0 (R128). -/
def Tile.started (t : Tile) (toks : List (W32 × W32)) : Tile :=
  { (toks ++ t.parm).foldl Tile.apply t with par := t.par.pop t.par.items.length, parm := [], running := true, pos := 0, pages := [] }

section Start
variable {s : State} {c : CtxId} {n : Nat} {t : Tile} {toks : List (W32 × W32)}

/-- A tile that may start, and whose checks pass, starts: it consumes a start token where it is start-enabled. -/
theorem State.tileStart_starts (hact : (s.ctx c).active? = true) (ht : (s.ctx c).fab.tiles.get? n = some t) (hrun : t.running = false)
    (hdone : t.done = false) (hpar : parTokens t.par.items = (toks, false)) (hok : ∀ k ∈ toks ++ t.parm, parmOk k.1.toNat k.2.toNat = true)
    (hcb : t.ctrl.getLsbD 11 = true → (s.ctx c).fab.cb.getD (bits t.ctrl 16 12) 0 ≠ 0) (harcs : (s.ctx c).fab.arcsOk n t = true)
    (hspad : agMode t.ctrl < 2 → agDm t.ctrl = false → Ctx.tileFault s c n (t.started toks) = none)
    (hgather : agMode t.ctrl = 2 → agDm t.ctrl = false → (t.started toks).base % 4 = 0)
    (hqueue : agMode t.ctrl = 3 → ∃ b, (s.ctx c).bank? (agTgt t.ctrl) = some b ∧ b.mode = .fifo) :
    s.tileStart c n = s.updFab c (fun f => { f.setTile n (t.started toks) with
      cb := if t.ctrl.getLsbD 11 then modAt (· - 1) f.cb (bits t.ctrl 16 12) else f.cb }) := by
  have hgo : (!(s.ctx c).active? || t.running || t.done || false || (t.ctrl.getLsbD 11 && (s.ctx c).fab.cb.getD (bits t.ctrl 16 12) 0 == 0)
      || !(s.ctx c).fab.arcsOk n t) = false := by
    cases hste : t.ctrl.getLsbD 11
    · simp [hact, hrun, hdone, harcs]
    · simpa [hact, hrun, hdone, harcs] using hcb hste
  have hparm : (toks ++ t.parm).any (fun k => !parmOk k.1.toNat k.2.toNat) = false := by
    rw [List.any_eq_false]
    exact fun k hk => by simp [hok k hk]
  have hmode : agMode t.ctrl < 4 := Nat.mod_lt _ (by decide)
  rw [State.tileStart]
  simp only [ht, hpar, hgo, hparm, Bool.false_eq_true, if_false]
  simp only [Tile.started] at hspad hgather ⊢
  by_cases hq : agMode t.ctrl = 3
  · obtain ⟨b, hb, hm⟩ := hqueue hq
    simp [hq, hb, hm]
  · cases hdm : agDm t.ctrl
    · by_cases hg : agMode t.ctrl = 2
      · simp [hg, hgather hg hdm, -List.foldl_append]
      · simp [hq, hg, hspad (by omega) hdm, -List.foldl_append]
    · simp [hq]

end Start

/-! ### Read and gather tiles (R126, R286) -/

theorem State.TileRuns.tileOf {s : State} {c : CtxId} {n mode : Nat} {t : Tile} (h : s.TileRuns c n mode t) : s.tileOf c n mode = some t := by
  obtain ⟨hact, ht, hrun, hmode⟩ := h
  simp [State.tileOf, hact, ht, hrun, hmode]

section Pack
variable {x : Ctx} {n : Nat} {t : Tile} {v : W32} {last : Bool}

/-- An element that does not fill the packer, and is not the tile's last. -/
theorem Ctx.tilePack_room (hlen : t.pk.length + 1 < 8) (hlast : last = false) :
    x.tilePack n t v last = some (x.fab.setTile n { t with pk := t.pk ++ [v] }) := by
  simp [Ctx.tilePack, hlast]
  omega

/-- An element that fills the packer, or is the tile's last, closes the packet under demand. -/
theorem Ctx.tilePack_full (hfull : 7 ≤ t.pk.length ∨ last = true) (hd : x.fab.canClose (.port n) 1 = true) :
    x.tilePack n t v last = some ((x.fab.setTile n { t with pk := [] }).close (.port n) (x.packet (t.pk ++ [v]) 0 (bits t.ctrl 2 0) false)) := by
  have hclose : (decide ((t.pk ++ [v]).length ≥ 8) || last) = true := by
    rcases hfull with h | h
    · simp; omega
    · simp [h]
  rw [Ctx.tilePack, if_pos hclose, if_pos hd]

end Pack

/-- A 4-byte access that every check passes meets no fault, whoever makes it. -/
theorem State.SpadOk.spadFault {s : State} {c : CtxId} {a : Nat} (h : s.SpadOk c a 4) (ha : a < 2 ^ 64) (u : Nat) :
    s.spadFault c (BitVec.ofNat 64 a) 4 4 u = none := by
  refine State.spadFault_ok (by decide) ?_
  rwa [BitVec.toNat_ofNat, Nat.mod_eq_of_lt ha]

/-- What a running read tile takes next: the element at its position's address in the scratchpad, or, of a decoupled one, the oldest that came back. -/
def State.ReadTakes (s : State) (c : CtxId) (t t' : Tile) (v : W32) : Prop :=
  (agDm t.ctrl = false ∧ t' = { t with pos := t.pos + 1 } ∧ (∃ a : Nat, (a : Int) = t.addr t.pos ∧ a < 2 ^ 56 ∧ s.SpadOk c a 4
      ∧ (s.ctx c).zeroing a 4 = false ∧ v = s.spad32 c a))
    ∨ (agDm t.ctrl = true ∧ ∃ va rest, t.dm = (va, some v) :: rest ∧ t' = { t with dm := rest, pos := t.pos + 1 })

/-- What a running gather tile takes next: the element that its index names, or, of a decoupled one, the oldest that came back. -/
def State.GatherTakes (s : State) (c : CtxId) (t t' : Tile) (v : W32) : Prop :=
  (agDm t.ctrl = false ∧ ∃ (w : W32) (l : Bool) (rest : List QItem) (a : W64), t.inp.items = .el w l :: rest
      ∧ a = BitVec.ofInt 64 (t.base + 4 * w.toInt) ∧ s.SpadOk c a.toNat 4 ∧ (s.ctx c).zeroing a.toNat 4 = false ∧ v = s.spad32 c a.toNat
      ∧ t' = { t with inp := t.inp.pop 1, pos := t.pos + 1 })
    ∨ (agDm t.ctrl = true ∧ ∃ va rest, t.dm = (va, some v) :: rest ∧ t' = { t with dm := rest, pos := t.pos + 1 })

section Emit
variable {s : State} {c : CtxId} {n : Nat} {t t' : Tile} {v : W32} {f : Fab}

/-- A read tile packs the element that it takes. -/
theorem State.ReadTakes.emits (h : s.TileRuns c n 0 t) (hpos : t.pos < t.count) (htake : s.ReadTakes c t t' v)
    (hf : (s.ctx c).tilePack n t' v (t.pos + 1 == t.count) = some f) : execAgReadEmit c n s = .next (s.updFab c (fun _ => f)) := by
  have hin : ¬ t.pos ≥ t.count := by omega
  rcases htake with ⟨hdm, rfl, a, ha, hlt, hok, hz, rfl⟩ | ⟨hdm, va, rest, hhead, rfl⟩
  · simp only [execAgReadEmit, h.tileOf, hin, hdm, ← ha, Int.toNat_natCast, hok.spadFault (by omega), hz, State.spadEcc_ok (by decide) hok, hf,
      Bool.false_eq_true, if_false]
  · simp only [execAgReadEmit, h.tileOf, hin, hdm, hhead, hf, if_true, if_false]

/-- A gather tile packs the element that it takes. -/
theorem State.GatherTakes.emits (h : s.TileRuns c n 2 t) (htake : s.GatherTakes c t t' v)
    (hf : (s.ctx c).tilePack n t' v false = some f) : execAgGather c n s = .next (s.updFab c (fun _ => f)) := by
  rcases htake with ⟨hdm, w, l, rest, a, hhead, rfl, hok, hz, rfl, rfl⟩ | ⟨hdm, va, rest, hhead, rfl⟩
  · simp only [execAgGather, h.tileOf, hdm, hhead, State.spadFault_ok (by decide) hok, hz, State.spadEcc_ok (by decide) hok, hf,
      Bool.false_eq_true, if_false]
  · simp only [execAgGather, h.tileOf, hdm, hhead, hf, if_true]

/-- A tile that takes an element keeps its packer and its control word. -/
theorem State.ReadTakes.packer (h : s.ReadTakes c t t' v) : t'.pk = t.pk ∧ t'.ctrl = t.ctrl := by
  rcases h with ⟨-, rfl, -⟩ | ⟨-, _, _, -, rfl⟩ <;> exact ⟨rfl, rfl⟩

theorem State.GatherTakes.packer (h : s.GatherTakes c t t' v) : t'.pk = t.pk ∧ t'.ctrl = t.ctrl := by
  rcases h with ⟨-, _, _, _, _, -, -, -, -, -, rfl⟩ | ⟨-, _, _, -, rfl⟩ <;> exact ⟨rfl, rfl⟩

end Emit

/-! ### The end of a tile (R126, R127, R262) -/

section End
variable {s : State} {c : CtxId} {n mode : Nat} {t : Tile}

theorem Tile.endMark_eq (t : Tile) : t.endMark = if t.i3 + 1 ≥ t.e 3 then 2 else 1 := by
  simp only [Tile.endMark, Tile.last, decide_eq_true_eq]

theorem Tile.last_eq (t : Tile) : t.last = (t.endMark == 2) := by
  unfold Tile.endMark
  cases t.last <;> rfl

/-- The load after the end of a tile that leaves t and the rest of the load f: the done counter rises, the tile index advances. -/
def Fab.endTile (f : Fab) (n : Nat) (t : Tile) (kind : Nat) : Fab :=
  { f.setTile n { t with running := false, i3 := t.i3 + 1, pos := 0, done := kind == 2 } with cb := modAt (· + 1) f.cb (bits t.ctrl 21 17) }

/-- A running tile may end while its done counter has room. -/
theorem State.TileRuns.mayEnd (h : s.TileRuns c n mode t) (hcb : (s.ctx c).fab.cb.getD (bits t.ctrl 21 17) 0 < 15) :
    (!(s.ctx c).active? || !t.running || decide ((s.ctx c).fab.cb.getD (bits t.ctrl 21 17) 0 ≥ 15)) = false := by
  obtain ⟨hact, -, hrun, -⟩ := h
  rw [hact, hrun, decide_eq_false (Nat.not_le.mpr hcb)]
  rfl

theorem execAgTileEnd_emitter (h : s.TileRuns c n mode t) (hcb : (s.ctx c).fab.cb.getD (bits t.ctrl 21 17) 0 < 15)
    (hm : mode = 0 ∨ mode = 3 ∧ (s.ctx c).pushes n = false) (hpos : t.count ≤ t.pos) (hpk : t.pk = []) (hdm : t.dm = [])
    (hd : (s.ctx c).fab.canClose (.port n) 1 = true) : execAgTileEnd c n s = .next (s.updFab c (fun _ =>
      ((s.ctx c).fab.close (.port n) ((s.ctx c).packet [] t.endMark (bits t.ctrl 2 0) false)).endTile n t t.endMark)) := by
  have hgo := h.mayEnd hcb
  obtain ⟨-, ht, -, rfl⟩ := h
  have hemit : (agMode t.ctrl == 0 || (agMode t.ctrl == 3 && !(s.ctx c).pushes n)) = true := by
    rcases hm with h | ⟨h, hp⟩ <;> simp [*]
  have hready : (decide (t.pos < t.count) || !t.pk.isEmpty || !t.dm.isEmpty || !(s.ctx c).fab.canClose (.port n) 1) = false := by
    simp [hpos, hpk, hdm, hd]
  simp only [execAgTileEnd, ht, hgo, hemit, hready, Bool.false_eq_true, if_true, if_false, Fab.endTile]

theorem execAgTileEnd_consumer (h : s.TileRuns c n mode t) (hcb : (s.ctx c).fab.cb.getD (bits t.ctrl 21 17) 0 < 15)
    (hm : mode = 1 ∨ mode = 3 ∧ (s.ctx c).pushes n = true) (hpos : t.count ≤ t.pos) (hmark : t.inp.marker? = some t.endMark) :
    execAgTileEnd c n s = .next (s.updFab c (fun _ => (s.ctx c).fab.endTile n { t with inp := t.inp.pop 1 } t.endMark)) := by
  have hgo := h.mayEnd hcb
  obtain ⟨-, ht, -, rfl⟩ := h
  have hemit : (agMode t.ctrl == 0 || (agMode t.ctrl == 3 && !(s.ctx c).pushes n)) = false := by
    rcases hm with h | ⟨h, hp⟩ <;> simp [*]
  have hgather : (agMode t.ctrl == 2) = false := by
    rcases hm with h | ⟨h, hp⟩ <;> simp [*]
  have hready : (decide (t.pos < t.count) || t.endMark != t.endMark) = false := by simp [hpos]
  simp only [execAgTileEnd, ht, hgo, hemit, hmark, hgather, hready, Bool.false_eq_true, if_false, Fab.endTile]

/-- A gather tile ends at the marker that it passes on (log 23). -/
theorem execAgTileEnd_gather {k : Nat} (h : s.TileRuns c n 2 t) (hcb : (s.ctx c).fab.cb.getD (bits t.ctrl 21 17) 0 < 15)
    (hmark : t.inp.marker? = some k) (hpk : t.pk = []) (hdm : t.dm = []) (hd : (s.ctx c).fab.canClose (.port n) 1 = true) :
    execAgTileEnd c n s = .next (s.updFab c (fun _ => ((s.ctx c).fab.close (.port n) ((s.ctx c).packet [] k (bits t.ctrl 2 0) false)).endTile n
      { t with inp := t.inp.pop 1, pk := [] } k)) := by
  have hgo := h.mayEnd hcb
  obtain ⟨-, ht, -, hmode⟩ := h
  simp only [execAgTileEnd, ht, hgo, Bool.false_eq_true, if_false]
  simp [hmode, hmark, hpk, hdm, hd, Fab.closeAll, Fab.endTile]

end End

/-! ### The accesses of decoupled tiles (R286, R289 to R292, R427) -/

/-- Between s and t nothing but what a granted access does to the TLBs, the L2 and the cache layer. -/
def State.Reaches (s t : State) : Prop := t = { s with cores := t.cores, dies := t.dies, hbm := t.hbm }

namespace State.Reaches
variable {s t u : State}

theorem trans (h : s.Reaches t) (k : t.Reaches u) : s.Reaches u := by
  rw [State.Reaches, k, h]

theorem of_caches (h : s.Caches t) : s.Reaches t := by
  rw [State.Reaches, h]
  rfl

theorem fillTlb (s : State) (die : Nat) (core : CoreId) (asid : Nat) (l : Leaf) : s.Reaches (s.fillTlb die core asid l) := by
  unfold State.fillTlb
  simp only
  split <;> rfl

theorem tlbUse (s : State) (core : CoreId) (die asid va : Nat) : s.Reaches (s.tlbUse core die asid va) := by
  unfold State.tlbUse
  split
  · exact fillTlb ..
  · split
    · split
      · rfl
      · exact fillTlb ..
    · rfl

theorem reach (s : State) (core : CoreId) (die : Nat) (home : Option Nat) (asid va pa n : Nat) (wr : Bool) :
    s.Reaches (s.reach core die home asid va pa n wr) := by
  unfold State.reach
  simp only
  split
  · exact (tlbUse ..).trans (of_caches (.l2Span ..))
  · exact tlbUse ..

theorem ctx (h : s.Reaches t) (c : CtxId) : t.ctx c = s.ctx c := by
  rw [h]
  rfl

theorem mem (h : s.Reaches t) : t.mem = s.mem := by
  rw [h]

theorem devByte (h : s.Reaches t) (pa : Nat) : t.devByte pa = s.devByte pa := by
  rw [h]
  rfl

theorem isLocal (h : s.Reaches t) (pa : Nat) : t.isLocal pa = s.isLocal pa := by
  rw [h]
  rfl

theorem nearVal (h : s.Reaches t) (c : CtxId) (pa n : Nat) : t.nearVal c pa n = s.nearVal c pa n := by
  rw [h]
  rfl

end State.Reaches

section Access
variable {s : State} {c : CtxId} {n va pa : Nat} {need : Need}

/-- An address that the TLBs hold with the permissions needed is translated, whoever asks. -/
theorem State.Cached.unitTrans (h : s.Cached c va need pa) (w : Who) : s.unitTrans w c va need = .ok pa := by
  obtain ⟨hva, e, htlb, hrd, hwr, rfl⟩ := h
  have hperm : ((need.rd && !e.rd) || (need.wr && !e.wr)) = false := by simpa using ⟨hrd, hwr⟩
  have hrange : ¬ (decide ((va : Int) < 0) || decide ((va : Int) ≥ 2 ^ 56)) = true := by
    simp
    omega
  rw [State.unitTrans, if_neg (by simpa using hrange), Int.toNat_natCast, State.unitXlate, if_neg (by omega), htlb]
  simp only [hperm, Bool.false_eq_true, if_false]

theorem State.UnitOk.unitChecks (h : s.UnitOk c va n need pa) : s.unitChecks c va n pa need = .ok pa := by
  obtain ⟨-, hl, hg, hdead⟩ := h
  simp [State.unitChecks, State.meshFault, hl, hg, hdead]

/-- What is only written to another package is checked there. -/
theorem State.unitChecks_remote (hl : s.isLocal pa = false) (hrd : need.rd = false) : s.unitChecks c va n pa need = .ok pa := by
  simp [State.unitChecks, hl, hrd]

/-- A tile that has translated no page yet accesses an address where its translation and the checks send it. -/
theorem State.tileAccess_ok {t : Tile} (hp : t.pages = []) (h : s.Cached c va need pa) (hc : s.unitChecks c va 4 pa need = .ok pa) :
    s.tileAccess c n t va need = .ok pa := by
  have hk : (if (va : Int) < 0 then none else t.known (va : Int).toNat) = none := by simp [Tile.known, hp]
  rw [State.tileAccess, hk]
  simp only [State.unitAccess, h.unitTrans, Int.toNat_natCast, hc]

/-- Of a tile, an access that it makes changes at most the pages that it knows. -/
theorem State.tilePage_eq (s : State) (c : CtxId) (t : Tile) (va : Nat) : ∃ pg, s.tilePage c t va = { t with pages := pg } := by
  unfold State.tilePage
  split
  · exact ⟨t.pages, rfl⟩
  · split
    · exact ⟨_, rfl⟩
    · exact ⟨t.pages, rfl⟩

/-- A read through a context's near cache leaves memory and the context's load as they are. -/
theorem State.nearNote_frame (s : State) (c : CtxId) (asid va pa n : Nat) :
    (s.nearNote c asid va pa n).mem = s.mem ∧ ((s.nearNote c asid va pa n).ctx c).fab = (s.ctx c).fab := by
  have hspan := State.Reaches.of_caches (.l2Span s (some (dieOf (coreOf c))) asid va pa n false)
  unfold State.nearNote
  simp only
  split
  · exact ⟨rfl, by rw [State.ctx_setCtx_self]⟩
  · split
    · exact ⟨hspan.mem, by rw [hspan.ctx]⟩
    · refine ⟨hspan.mem, ?_⟩
      change ((State.setCtx _ c _).ctx c).fab = _
      rw [State.ctx_setCtx_self, hspan.ctx]
      rfl

end Access

/-! ### Write tiles (R126, R135, R261, R286, R427) -/

section Write
variable {s : State} {c : CtxId} {n a pa : Nat} {t : Tile} {v : W32}

/-- What a consuming tile finds at its input inside the tile and beyond it (R126, R135). -/
theorem Tile.inHead_el {l : Bool} {rest : List QItem} (h : t.inp.items = .el v l :: rest) (hpos : t.pos < t.count) : t.inHead = some (.ok v) := by
  simp only [Tile.inHead, h, hpos, if_true]

theorem Tile.inHead_el_beyond {l : Bool} {rest : List QItem} (h : t.inp.items = .el v l :: rest) (hpos : t.count ≤ t.pos) :
    t.inHead = some (.error 5) := by
  simp only [Tile.inHead, h, Nat.not_lt.mpr hpos, if_false]

theorem Tile.inHead_marker_inside {k : Nat} {rest : List QItem} (h : t.inp.items = .marker k :: rest) (hpos : t.pos < t.count) :
    t.inHead = some (.error 4) := by
  simp [Tile.inHead, h, hpos]

/-- The tile after the element at its input. -/
def Tile.consumed (t : Tile) : Tile := { t with inp := t.inp.pop 1, pos := t.pos + 1 }

theorem execAgWriteConsume_error {k : Nat} (h : s.TileRuns c n 1 t) (hhead : t.inHead = some (.error k)) :
    execAgWriteConsume c n s = .next (s.fabFault c (alignTrap (unitTile n) k)) := by
  simp only [execAgWriteConsume, h.tileOf, hhead]

theorem execAgWriteConsume_spad (h : s.TileRuns c n 1 t) (hhead : t.inHead = some (.ok v)) (ha : (a : Int) = t.addr t.pos)
    (hdm : agDm t.ctrl = false) (hf : s.spadFault c (BitVec.ofNat 64 a) 4 4 (unitTile n) = none) (hz : (s.ctx c).zeroing a 4 = false) :
    execAgWriteConsume c n s = .next ((s.spadWrite c a (toBytes 4 v.toNat)).updFab c (fun f => f.setTile n t.consumed)) := by
  simp only [execAgWriteConsume, h.tileOf, hhead, hdm, ← ha, Int.toNat_natCast, hf, hz, Bool.false_eq_true, if_false, Tile.consumed]

/-- The state in which a decoupled write tile's access of its element at a has been granted. -/
def State.storeReached (s : State) (c : CtxId) (a pa : Nat) : State :=
  s.reach (coreOf c) (dieOf (coreOf c)) (some (dieOf (coreOf c))) (s.ctx c).asid.toNat a pa 4 true

theorem State.reaches_storeReached (s : State) (c : CtxId) (a pa : Nat) : s.Reaches (s.storeReached c a pa) := .reach ..

/-- A decoupled write tile whose access is granted stores its element, into local memory or at its other package. -/
theorem execAgWriteConsume_dm (h : s.TileRuns c n 1 t) (hhead : t.inHead = some (.ok v)) (ha : (a : Int) = t.addr t.pos)
    (hdm : agDm t.ctrl = true) (hbase : t.base % 4 = 0) (hacc : s.tileAccess c n t a ⟨false, true⟩ = .ok pa) :
    ∃ pg, execAgWriteConsume c n s = .next ((if s.isLocal pa
        then ((s.storeReached c a pa).devWrite pa (toBytes 4 v.toNat)).updCtx c (fun x => x.nearWrite pa (toBytes 4 v.toNat))
        else (s.storeReached c a pa).postRemote c pa).updFab c (fun f => f.setTile n { t.consumed with pages := pg })) := by
  obtain ⟨pg, hpg⟩ := State.tilePage_eq (s.storeReached c a pa) c t.consumed a
  refine ⟨pg, ?_⟩
  rw [← hpg, ← (s.reaches_storeReached c a pa).isLocal]
  have haligned : (t.base % 4 != 0) = false := by simp [hbase]
  simp only [execAgWriteConsume, h.tileOf, hhead, hdm, haligned, ← ha, hacc, Int.toNat_natCast, Bool.false_eq_true, if_true, if_false]
  rfl

/-- An aligned word does not leave the memory of its package. -/
theorem memKey_add_le (h : pa % 4 = 0) : memKey pa + 4 ≤ 2 ^ 40 := by
  unfold memKey
  omega

/-- A decoupled write tile stores its element into local memory (R261, R286). -/
theorem execAgWriteConsume_local (h : s.TileRuns c n 1 t) (hhead : t.inHead = some (.ok v)) (ha : (a : Int) = t.addr t.pos)
    (hdm : agDm t.ctrl = true) (hbase : t.base % 4 = 0) (hpages : t.pages = []) (hok : s.UnitOk c a 4 ⟨false, true⟩ pa) (hpa : pa % 4 = 0)
    (hwf : s.mem.wf = true) : ∃ s' pg, execAgWriteConsume c n s = .next s' ∧ s.DevWritten s' pa (toBytes 4 v.toNat)
      ∧ (s'.ctx c).fab = (s.ctx c).fab.setTile n { t.consumed with pages := pg } := by
  obtain ⟨pg, hexec⟩ := execAgWriteConsume_dm h hhead ha hdm hbase (State.tileAccess_ok hpages hok.1 hok.unitChecks)
  rw [if_pos hok.2.1] at hexec
  have hreach := s.reaches_storeReached c a pa
  refine ⟨_, pg, hexec, fun x => ?_, ?_⟩
  · have hlen : memKey pa + (toBytes 4 v.toNat).length ≤ 2 ^ 40 := by
      rw [length_toBytes]
      exact memKey_add_le hpa
    have hwrite := (State.devByte_devWrite (s := s.storeReached c a pa) (by rw [hreach.mem, hwf]) pa (toBytes 4 v.toNat) hlen x).2
    rw [hreach.devByte] at hwrite
    exact hwrite
  · obtain ⟨w, hw⟩ := (State.Records.devWrite (s.storeReached c a pa) pa (toBytes 4 v.toNat)).ctx c
    rw [State.updFab_ctx, State.ctx_updCtx_self, hw, hreach.ctx]
    rfl

/-- A decoupled write tile posts a remote store of its element (R427). -/
theorem execAgWriteConsume_remote (h : s.TileRuns c n 1 t) (hhead : t.inHead = some (.ok v)) (ha : (a : Int) = t.addr t.pos)
    (hdm : agDm t.ctrl = true) (hbase : t.base % 4 = 0) (hpages : t.pages = []) (hc : s.Cached c a ⟨false, true⟩ pa) (hl : s.isLocal pa = false) :
    ∃ s' pg, execAgWriteConsume c n s = .next s' ∧ s'.rstores = s.rstores ++ [{ ctx := c, lid := (s.ctx c).lease, pa := pa, sent := s.time }]
      ∧ (s'.ctx c).rso = (s.ctx c).rso + 1 ∧ s'.mem = s.mem ∧ (s'.ctx c).fab = (s.ctx c).fab.setTile n { t.consumed with pages := pg } := by
  obtain ⟨pg, hexec⟩ := execAgWriteConsume_dm h hhead ha hdm hbase (State.tileAccess_ok hpages hc (State.unitChecks_remote hl rfl))
  rw [if_neg (by simp [hl])] at hexec
  have hreach := s.reaches_storeReached c a pa
  have hctx : ((s.storeReached c a pa).postRemote c pa).ctx c = { s.ctx c with rso := (s.ctx c).rso + 1 } := by
    change (State.updCtx _ c (fun x => { x with rso := x.rso + 1 })).ctx c = _
    rw [State.ctx_updCtx_self, hreach.ctx]
  refine ⟨_, pg, hexec, ?_, ?_, hreach.mem, ?_⟩
  · change (s.storeReached c a pa).rstores ++ [{ ctx := c, lid := ((s.storeReached c a pa).ctx c).lease, pa := pa, sent := (s.storeReached c a pa).time }] = _
    rw [hreach.ctx, hreach]
  · rw [State.updFab_ctx, hctx]
  · rw [State.updFab_ctx, hctx]

end Write

/-! ### Elements that come back (R259, R286, R287) -/

section Return
variable {s : State} {c : CtxId} {n va pa : Nat} {t t' : Tile}

/-- The next element that a decoupled tile asks for: a read tile's behind those that it holds, or the one that a gather tile's index names. -/
theorem Tile.dmNext_eq (h : (agMode t.ctrl = 0 ∧ t.pos + t.dm.length < t.count ∧ (va : Int) = t.addr (t.pos + t.dm.length) ∧ t' = t)
    ∨ (agMode t.ctrl = 2 ∧ ∃ v l rest, t.inp.items = .el v l :: rest ∧ (va : Int) = t.base + 4 * v.toInt ∧ t' = { t with inp := t.inp.pop 1 })) :
    t.dmNext = some ((va : Int), t') := by
  rcases h with ⟨hm, hpos, hva, rfl⟩ | ⟨hm, v, l, rest, hin, hva, rfl⟩
  · simp [Tile.dmNext, hm, hpos, hva]
  · simp [Tile.dmNext, hm, hin, hva]

/-- The state in which a decoupled tile's read of the element at va has been translated. -/
def State.loadReached (s : State) (c : CtxId) (va : Nat) : State := s.tlbUse (coreOf c) (dieOf (coreOf c)) (s.ctx c).asid.toNat va

theorem State.reaches_loadReached (s : State) (c : CtxId) (va : Nat) : s.Reaches (s.loadReached c va) := .tlbUse ..

/-- An element of local memory comes back through the near cache, behind those that the tile holds. -/
theorem execDmReadReturn_local (hact : (s.ctx c).active? = true) (ht : (s.ctx c).fab.tiles.get? n = some t) (hrun : t.running = true)
    (hdm : agDm t.ctrl = true) (hmode : agMode t.ctrl = 0 ∨ agMode t.ctrl = 2) (hlen : t.dm.length < 512) (hbase : t.base % 4 = 0)
    (hpages : t.pages = []) (hnext : t.dmNext = some ((va : Int), t')) (hok : s.UnitOk c va 4 ⟨true, false⟩ pa)
    (hnear : (s.ctx c).nearWaits pa = false) :
    ∃ s' pg, execDmReadReturn c n s = .next s' ∧ s'.mem = s.mem
      ∧ (s'.ctx c).fab = (s.ctx c).fab.setTile n { t' with dm := t.dm ++ [(va, some (w32 (s.nearVal c pa 4)))], pages := pg } := by
  have hgo : (!(s.ctx c).active? || !t.running || !agDm t.ctrl || (agMode t.ctrl != 0 && agMode t.ctrl != 2) || decide (t.dm.length ≥ 512)) = false := by
    rcases hmode with hm | hm <;> simp [hact, hrun, hdm, hm, hlen]
  have haligned : (t.base % 4 != 0) = false := by simp [hbase]
  have hreach := s.reaches_loadReached c va
  obtain ⟨pg, hpg⟩ := State.tilePage_eq (s.loadReached c va) c t' va
  have hexec : execDmReadReturn c n s = .next (((s.loadReached c va).nearNote c (s.ctx c).asid.toNat va pa 4).updFab c (fun f =>
      f.setTile n { t' with dm := t.dm ++ [(va, some (w32 (s.nearVal c pa 4)))], pages := pg })) := by
    have hloc := (hreach.isLocal pa).trans hok.2.1
    have hval := hreach.nearVal c pa 4
    rw [State.loadReached] at hpg hloc hval ⊢
    simp only [execDmReadReturn, ht, hgo, hnext, haligned, State.tileAccess_ok hpages hok.1 hok.unitChecks, hok.2.1, hnear, hloc, hval, hpg,
      Int.toNat_natCast, Bool.and_false, Bool.false_eq_true, if_true, if_false]
  obtain ⟨hmem, hfab⟩ := State.nearNote_frame (s.loadReached c va) c (s.ctx c).asid.toNat va pa 4
  exact ⟨_, pg, hexec, hmem.trans hreach.mem, by rw [State.updFab_ctx, hfab, hreach.ctx]⟩

end Return

/-! ### The obligation -/

/-- Settles O22: a tile's start, its elements, and its end follow the model's case for its mode; of a decoupled tile, an access that the TLBs hold and
the checks pass goes to its address, and what it does on its way there touches neither memory nor the load. -/
theorem tilesWalkTheirNest : Obligations.TilesWalkTheirNest := by
  unfold Obligations.TilesWalkTheirNest
  refine ⟨?start, ⟨?read, ?gather⟩, ?write, ?ends, ?back⟩
  case start =>
    rintro s c n t u toks hact ht hrun hdone hpar hok hcb harcs rfl hspad hgather hqueue
    have hstart := State.tileStart_starts hact ht hrun hdone hpar hok hcb harcs hspad hgather hqueue
    refine ⟨_, by rw [exec_agTileStart, execAgTileStart, hstart], ?_, ?_⟩
    · exact (State.SameBut.refl s c).onlyCtx_updFab _
    · exact State.updFab_ctx ..
  case read =>
    intro s c n t t' v h hpos htake
    have htake : s.ReadTakes c t t' v := htake
    obtain ⟨hpk, hctrl⟩ := htake.packer
    rw [← hpk, ← hctrl]
    exact ⟨fun hlen hlast => htake.emits h hpos (Ctx.tilePack_room hlen (by simpa using hlast)),
      fun hfull hd => htake.emits h hpos (Ctx.tilePack_full (by simpa using hfull) hd)⟩
  case gather =>
    intro s c n t t' v h htake
    have htake : s.GatherTakes c t t' v := htake
    obtain ⟨hpk, hctrl⟩ := htake.packer
    rw [← hpk, ← hctrl]
    exact ⟨fun hlen => htake.emits h (Ctx.tilePack_room hlen rfl), fun hfull hd => htake.emits h (Ctx.tilePack_full (.inl hfull) hd)⟩
  case write =>
    intro s c n a t h
    refine ⟨fun v l rest hin hpos ha => ?_, fun v l rest hin hpos => ?_, fun k rest hin hpos => ?_⟩
    · have hhead := Tile.inHead_el hin hpos
      exact ⟨fun hdm hf hz => execAgWriteConsume_spad h hhead ha hdm hf hz, fun hdm hbase hpages =>
        ⟨fun pa hok hpa hwf => execAgWriteConsume_local h hhead ha hdm hbase hpages hok hpa hwf,
          fun pa hc hl => execAgWriteConsume_remote h hhead ha hdm hbase hpages hc hl⟩⟩
    · exact execAgWriteConsume_error h (Tile.inHead_el_beyond hin hpos)
    · exact execAgWriteConsume_error h (Tile.inHead_marker_inside hin hpos)
  case ends =>
    intro s c n mode t h hcb
    rw [← Tile.endMark_eq, Tile.last_eq]
    have hends {f : Fab} (hx : execAgTileEnd c n s = .next (s.updFab c (fun _ => f))) :
        ∃ s', exec (.agTileEnd c n) s = .next s' ∧ s.OnlyCtx s' c ∧ (s'.ctx c).fab = f :=
      ⟨_, hx, (State.SameBut.refl s c).onlyCtx_updFab _, by rw [State.updFab_ctx]⟩
    refine ⟨fun hm hpos hpk hdm hd => hends (execAgTileEnd_emitter h hcb hm hpos hpk hdm hd),
      fun hm hpos hmark => hends (execAgTileEnd_consumer h hcb hm hpos hmark), ?_⟩
    rintro k rfl hmark hpk hdm hd
    exact hends (execAgTileEnd_gather h hcb hmark hpk hdm hd)
  case back =>
    intro s c n pa va t t' hact ht hrun hdm hlen hbase hpages hnext hok hnear
    have hmode : agMode t.ctrl = 0 ∨ agMode t.ctrl = 2 := hnext.imp And.left And.left
    exact execDmReadReturn_local hact ht hrun hdm hmode hlen hbase hpages (Tile.dmNext_eq hnext) hok hnear

end Sys2Proof.Machine
